-- ==== Sys2Proof/Word.lean ====
section
/-!
DEFINITION. The plainest types of the model: the 64-bit word of a device register (R9) and of a scalar register
(R51), the byte of a memory, and the 32-bit lane of a vector register and element of an accumulator (R129).
-/
namespace Sys2Proof

/-- A 64-bit word: a device register (R9), a scalar register (R51), an instruction word (R47). -/
abbrev Word := BitVec 64

/-- One byte of a memory. -/
abbrev Byte := BitVec 8

/-- A 32-bit lane of a vector register (R129), an element of an accumulator slot (R83). -/
abbrev Lane := BitVec 32

end Sys2Proof
end

