-- ==== Sys2Proof/Config.lean ====
section
/-!
DEFINITION. The free values: constants with no body, for every value the spec leaves open after which the part goes on.
Nothing in Lean can evaluate them or prove a value of them, so a statement about them holds whatever they are.
A fresh value is `Config.free` applied to the counter that State holds and a step advances (assumption log 2).
-/
namespace Sys2Proof.Config

/-- The n-th free value of a run: an unpredictable result (R3), a random draw (R353, R355), or any value the spec does not state. -/
opaque free : Nat → Nat

/-- The FP32 result of special function `fn` of microprogram set `setid`, with or without VB5120 compatibility, for two
operands. R141 fixes it as one function of its operands and bounds its error; the spec gives no more, so it is free. -/
opaque sfu (fn : Nat) (setid : Nat) (compat : Bool) (a b : Lane) : Lane

/-- SHA-384 of a byte string, as a number (R356). The spec names the function and does not give it. -/
opaque sha384 : List Byte → Nat

/-- The AES-GCM transform of R353 (key, IV, additional data, plain text): cipher text followed by the tag. -/
opaque gcm : Nat → Nat → List Byte → List Byte → List Byte

/-- The inverse of `gcm`: the plain text, or none where authentication fails (R353). -/
opaque gcmOpen : Nat → Nat → List Byte → List Byte → Option (List Byte)

/-- The key derivation of R353: a partition's link key and the context string. -/
opaque kdf : Nat → List Byte → Nat

/-- Whether a signature over a byte string is valid under the key the part holds (R142, R430, R443). -/
opaque sigOk : List Byte → List Byte → Bool

/-- The hash of a flow or a ferry slot, where the spec states that a hash chooses and not which (R242, R284). -/
opaque hash : Nat → Nat

/-- Whether a microprogram body fits the 4,096 steps and 16 KiB of tables of the SFU store (R142): its layout is not given. -/
opaque sfuFits : List Byte → Bool

end Sys2Proof.Config
end

