-- ==== Sys2Proof/Machine/Numeric.lean ====
section
/-!
DEFINITION. Number formats (R102 to R106), exact arithmetic and conversion (R107 to R114), and the generator of
stochastic rounding (R110). A value is exact (`Num`) until one rounding puts it into a format, so no corner hides
between two roundings. The count of each conversion (R116) is returned beside the element.
-/
namespace Sys2Proof.Machine

/-- An exact value: NaN, a signed infinity, or (-1)^neg * m * 2^e (m = 0 is a signed zero). -/
inductive Num where
  | nan
  | inf (neg : Bool)
  | fin (neg : Bool) (m : Nat) (e : Int)
  deriving DecidableEq, Repr

/-- The gauge's classes of one converted element (R116). -/
inductive GCls where
  | none
  | nan
  | sat
  | flush
  deriving DecidableEq, Repr

/-- How a conversion rounds (R109): to nearest even, or stochastically with the generator value r of R110. -/
inductive Rnd where
  | rne
  | stoch (r : Nat)
  deriving DecidableEq, Repr

/-- How a floating-point layout of Table NF-1 codes infinity and NaN. -/
inductive FSpec where
  | ieee     -- exponent all ones: infinity for m = 0, NaN otherwise
  | e4m3     -- no infinity; only exponent and significand all ones is NaN
  | finite   -- neither
  deriving DecidableEq, Repr

/-- A floating-point layout of Table NF-1. -/
structure FLay where
  ebits : Nat
  mbits : Nat
  bias : Nat
  spec : FSpec
  qnan : Nat
  sub : Bool     -- subnormal results are produced (R113)
  deriving DecidableEq, Repr

/-- The layouts of Table NF-1 (R102). -/
def layFP32 : FLay := ⟨8, 23, 127, .ieee, 0x7FC00000, true⟩
def layBF16 : FLay := ⟨8, 7, 127, .ieee, 0x7FC0, false⟩
def layFP16 : FLay := ⟨5, 10, 15, .ieee, 0x7E00, true⟩
def layE4M3 : FLay := ⟨4, 3, 7, .e4m3, 0x7F, false⟩
def layE5M2 : FLay := ⟨5, 2, 15, .ieee, 0x7F, false⟩
def layE3M2 : FLay := ⟨3, 2, 3, .finite, 0, false⟩
def layE2M3 : FLay := ⟨2, 3, 1, .finite, 0, false⟩
def layE2M1 : FLay := ⟨2, 1, 1, .finite, 0, false⟩

/-- The number of bits of an element in this layout. -/
def FLay.width (l : FLay) : Nat := 1 + l.ebits + l.mbits

/-- The largest finite encoding without its sign (Table NF-1). -/
def FLay.maxBits (l : FLay) : Nat :=
  match l.spec with
  | .ieee => (2 ^ l.ebits - 1) * 2 ^ l.mbits - 1
  | .e4m3 => 2 ^ (l.ebits + l.mbits) - 2
  | .finite => 2 ^ (l.ebits + l.mbits) - 1

/-- The exact value of an encoding (R102, R103). -/
def FLay.decode (l : FLay) (bits : Nat) : Num :=
  let neg := (bits >>> (l.ebits + l.mbits)) % 2 = 1
  let ex := (bits >>> l.mbits) % 2 ^ l.ebits
  let m := bits % 2 ^ l.mbits
  if l.spec = .ieee ∧ ex = 2 ^ l.ebits - 1 then (if m = 0 then .inf neg else .nan)
  else if l.spec = .e4m3 ∧ ex = 2 ^ l.ebits - 1 ∧ m = 2 ^ l.mbits - 1 then .nan
  else if ex = 0 then .fin neg m (1 - (l.bias : Int) - l.mbits)
  else .fin neg (2 ^ l.mbits + m) ((ex : Int) - l.bias - l.mbits)

/-- Compares m1 * 2^e1 ≤ m2 * 2^e2 exactly. -/
def magLe (m1 : Nat) (e1 : Int) (m2 : Nat) (e2 : Int) : Bool :=
  let e := min e1 e2
  decide (m1 * 2 ^ (e1 - e).toNat ≤ m2 * 2 ^ (e2 - e).toNat)

/-- Rounds m * 2^e to a multiple of 2^q and returns the multiple (R109). -/
def roundAt (rm : Rnd) (m : Nat) (e q : Int) : Nat :=
  if q ≤ e then m * 2 ^ (e - q).toNat
  else
    let s := (q - e).toNat
    let t := m / 2 ^ s
    let rem := m % 2 ^ s
    match rm with
    | .rne =>
      if 2 * rem > 2 ^ s ∨ (2 * rem = 2 ^ s ∧ t % 2 = 1) then t + 1 else t
    | .stoch r =>
      let f := rem * 2 ^ 24 / 2 ^ s
      if f + r ≥ 2 ^ 24 then t + 1 else t

/-- The exponent floor(log2) of a nonzero magnitude m * 2^e. -/
def magExp (m : Nat) (e : Int) : Int := (Nat.log2 m : Int) + e

/-- The sign bit of an encoding. -/
def signBits (l : FLay) (neg : Bool) : Nat := if neg then 2 ^ (l.ebits + l.mbits) else 0

/-- One conversion to a floating-point layout: the first outcome of Table NF-3 that applies (R108), with its count. -/
def FLay.encode (l : FLay) (rm : Rnd) (e4nan : Bool) (v : Num) : Nat × GCls :=
  let beyond (neg : Bool) : Nat × GCls :=
    match l.spec with
    | .ieee => (signBits l neg + (2 ^ l.ebits - 1) * 2 ^ l.mbits, .sat)
    | .e4m3 => if e4nan then (0x7F, .nan) else (signBits l neg + l.maxBits, .sat)
    | .finite => (signBits l neg + l.maxBits, .sat)
  match v with
  | .nan => (l.qnan, .nan)
  | .inf neg => beyond neg
  | .fin neg m e =>
    if m = 0 then (signBits l neg, .none)
    else
      let q := magExp m e - l.mbits
      let t := roundAt rm m e q
      let emin : Int := 1 - (l.bias : Int)
      let maxm := 2 ^ l.mbits + l.maxBits % 2 ^ l.mbits
      let maxe : Int := ((l.maxBits >>> l.mbits : Nat) : Int) - l.bias - l.mbits
      if ¬ magLe t q maxm maxe then beyond neg
      else if magLe (2 ^ l.mbits) (emin - l.mbits) t q then
        -- normal: t may have carried to 2^(mbits+1), which the addition takes into the exponent field
        let ef := (q + l.mbits + l.bias).toNat
        (signBits l neg + (ef * 2 ^ l.mbits + t - 2 ^ l.mbits), .none)
      else if l.sub then
        (signBits l neg + roundAt rm m e (emin - l.mbits), .none)
      else (signBits l neg, .flush)

/-- Exact negation. -/
def Num.neg : Num → Num
  | .nan => .nan
  | .inf n => .inf (!n)
  | .fin n m e => .fin (!n) m e

/-- The value as a signed multiple of 2^e, for e at most the value's exponent. -/
def sgnAt (neg : Bool) (m : Nat) (e q : Int) : Int :=
  let x : Int := (m * 2 ^ (e - q).toNat : Nat)
  if neg then -x else x

/-- A signed multiple of 2^q as a value; zero takes the sign given. -/
def numOfInt (x : Int) (q : Int) (zneg : Bool) : Num :=
  if x = 0 then .fin zneg 0 q else .fin (decide (x < 0)) x.natAbs q

/-- Exact addition; infinity minus infinity is NaN (R112), and an exact zero sum is +0 unless both operands are −0. -/
def Num.add : Num → Num → Num
  | .nan, _ => .nan
  | _, .nan => .nan
  | .inf a, .inf b => if a = b then .inf a else .nan
  | .inf a, .fin .. => .inf a
  | .fin .., .inf b => .inf b
  | .fin n1 m1 e1, .fin n2 m2 e2 =>
    let q := min e1 e2
    numOfInt (sgnAt n1 m1 e1 q + sgnAt n2 m2 e2 q) q (n1 && n2)

/-- Exact multiplication; zero times infinity is NaN (R112). -/
def Num.mul : Num → Num → Num
  | .nan, _ => .nan
  | _, .nan => .nan
  | .inf a, .inf b => .inf (xor a b)
  | .inf a, .fin b m _ => if m = 0 then .nan else .inf (xor a b)
  | .fin a m _, .inf b => if m = 0 then .nan else .inf (xor a b)
  | .fin a m1 e1, .fin b m2 e2 => .fin (xor a b) (m1 * m2) (e1 + e2)

/-- An integer as an exact value. -/
def numOfI (x : Int) : Num := numOfInt x 0 false

/-- A strict order of exact values that are not NaN, with −0 below +0 (R86, R130). -/
def Num.ltz : Num → Num → Bool
  | .nan, _ => false
  | _, .nan => false
  | .inf a, .inf b => a && !b
  | .inf a, .fin .. => a
  | .fin .., .inf b => !b
  | .fin n1 m1 e1, .fin n2 m2 e2 =>
    let q := min e1 e2
    let x := sgnAt n1 m1 e1 q
    let y := sgnAt n2 m2 e2 q
    decide (x < y) || (decide (x = y) && n1 && !n2 && decide (m1 = 0))

/-- The order of the real values: −0 equals +0. -/
def Num.lt : Num → Num → Bool
  | .fin n1 m1 e1, .fin n2 m2 e2 =>
    let q := min e1 e2
    decide (sgnAt n1 m1 e1 q < sgnAt n2 m2 e2 q)
  | a, b => a.ltz b

/-- Equality of the real values; NaN equals nothing. -/
def Num.eqv : Num → Num → Bool
  | .nan, _ => false
  | _, .nan => false
  | a, b => !(a.lt b) && !(b.lt a)

/-- FP32 lanes read and written (R129): the exact value, and one rounding to nearest even (R130). -/
def f32 (x : Lane) : Num := layFP32.decode x.toNat
def toF32 (v : Num) : Lane := BitVec.ofNat 32 (layFP32.encode .rne false v).1

/-- FP32 lane arithmetic (R130, R112): one rounding to nearest even. -/
def fAdd (a b : Lane) : Lane := toF32 ((f32 a).add (f32 b))
def fSub (a b : Lane) : Lane := toF32 ((f32 a).add (f32 b).neg)
def fMul (a b : Lane) : Lane := toF32 ((f32 a).mul (f32 b))
def fFma (d a b : Lane) : Lane := toF32 ((f32 d).add ((f32 a).mul (f32 b)))
def fIsNan (a : Lane) : Bool := f32 a = .nan
def fMin (a b : Lane) : Lane :=
  if fIsNan a || fIsNan b then 0x7FC00000 else if (f32 b).ltz (f32 a) then b else a
def fMax (a b : Lane) : Lane :=
  if fIsNan a || fIsNan b then 0x7FC00000 else if (f32 a).ltz (f32 b) then b else a

/-- 1/x for a finite nonzero x, rounded once to nearest even: the bound of 0.5 ulp of Table VX-1 leaves no other value. -/
def fRecip (a : Lane) : Lane :=
  match f32 a with
  | .nan => 0x7FC00000
  | .inf n => if n then 0x80000000 else 0
  | .fin n m e =>
    if m = 0 then (if n then 0xFF800000 else 0x7F800000)
    else
      -- 2^200 / m, with a sticky bit for the remainder
      let qn := 2 ^ 200 / m
      let st := if 2 ^ 200 % m = 0 then 0 else 1
      toF32 (.fin n (2 * qn + st) (-e - 201))

/-- √x for a finite x ≥ 0, rounded once to nearest even (0.5 ulp, Table VX-1). -/
def fSqrt (a : Lane) : Lane :=
  match f32 a with
  | .nan => 0x7FC00000
  | .inf n => if n then 0x7FC00000 else 0x7F800000
  | .fin n m e =>
    if m = 0 then a
    else if n then 0x7FC00000
    else
      let (m', e') := if e % 2 = 0 then (m, e) else (2 * m, e - 1)
      let x := m' * 2 ^ 120
      let r := Nat.sqrt x
      let st := if r * r = x then 0 else 1
      toF32 (.fin false (2 * r + st) (e' / 2 - 61))

/-- Kinds of element a format code names (Table GL-3). -/
inductive Fmt where
  | flt (l : FLay)
  | int (w : Nat) (signed : Bool)
  | blk (l : FLay) (nsf : Bool)
  | mxint8
  deriving DecidableEq, Repr

/-- Table GL-3 (R55): the format a 5-bit code names; none for a code not listed. -/
def fmtOf : Nat → Option Fmt
  | 0x00 => some (.flt layFP32)
  | 0x01 => some (.flt layBF16)
  | 0x02 => some (.flt layFP16)
  | 0x03 => some (.flt layE4M3)
  | 0x04 => some (.flt layE5M2)
  | 0x05 => some (.blk layE4M3 false)
  | 0x06 => some (.blk layE5M2 false)
  | 0x07 => some (.blk layE3M2 false)
  | 0x08 => some (.blk layE2M3 false)
  | 0x09 => some (.blk layE2M1 false)
  | 0x0A => some .mxint8
  | 0x0B => some (.blk layE4M3 true)
  | 0x0C => some (.blk layE2M3 true)
  | 0x0D => some (.blk layE2M1 true)
  | 0x0E => some (.int 8 true)
  | 0x0F => some (.int 8 false)
  | 0x10 => some (.int 4 true)
  | 0x11 => some (.int 4 false)
  | 0x12 => some (.int 16 true)
  | 0x13 => some (.int 32 true)
  | 0x14 => some (.int 16 false)
  | _ => none

/-- Bits per element (Table TS-1). -/
def Fmt.bits : Fmt → Nat
  | .flt l => l.width
  | .int w _ => w
  | .blk l _ => l.width
  | .mxint8 => 8

/-- Scale bytes of a tile (Table TS-1): one per block in MX formats, two in NSF formats, 128 blocks. -/
def Fmt.scaleBytes : Fmt → Nat
  | .flt _ => 0
  | .int _ _ => 0
  | .blk _ nsf => if nsf then 256 else 128
  | .mxint8 => 128

/-- Tile bytes of a format (R32, Table TS-1). -/
def Fmt.tileBytes (f : Fmt) : Nat := 512 * f.bits + f.scaleBytes

/-- Whether the elements are floating point, plain or block (R119). -/
def Fmt.isFloat : Fmt → Bool
  | .int _ _ => false
  | _ => true

/-- The element field of element n within an element region (R31, R105): fields are packed little-endian. -/
def elemAt (w : Nat) (bytes : List Byte) (n : Nat) : Nat :=
  let b := n * w / 8
  let x := (bytes.getD b 0).toNat + 256 * (bytes.getD (b + 1) 0).toNat
    + 65536 * (bytes.getD (b + 2) 0).toNat + 16777216 * (bytes.getD (b + 3) 0).toNat
  x / 2 ^ (n * w % 8) % 2 ^ w

/-- A two's complement or unsigned field as an integer (R104). -/
def intOf (w : Nat) (signed : Bool) (x : Nat) : Int :=
  if signed ∧ 2 ^ (w - 1) ≤ x then (x : Int) - 2 ^ w else x

/-- The value of one element field of a plain format. -/
def plainVal (f : Fmt) (x : Nat) : Num :=
  match f with
  | .flt l => l.decode x
  | .int w s => numOfI (intOf w s x)
  | .blk l _ => l.decode x
  | .mxint8 => numOfInt (intOf 8 true x) (-6) false

/-- An exact value times 2^k. -/
def Num.scale (k : Int) : Num → Num
  | .fin n m e => .fin n m (e + k)
  | v => v

/-- Element n of a tile, decoded (R102 to R106). -/
def tileVal (f : Fmt) (bytes : List Byte) (n : Nat) : Num :=
  let x := elemAt f.bits bytes n
  let base := 512 * f.bits
  match f with
  | .blk l nsf =>
    let blkNo := n / 32
    if nsf then
      let eb := (bytes.getD (base + 2 * blkNo) 0).toNat
      let dn := (bytes.getD (base + 2 * blkNo + 1) 0).toNat
      let dk := dn / 4 ^ (n % 32 / 8) % 4
      if eb = 0xFF then .nan else (l.decode x).scale ((eb : Int) - 127 - dk)
    else
      let eb := (bytes.getD (base + blkNo) 0).toNat
      if eb = 0xFF then .nan else (l.decode x).scale ((eb : Int) - 127)
  | .mxint8 =>
    let eb := (bytes.getD (base + n / 32) 0).toNat
    if eb = 0xFF then .nan else (plainVal .mxint8 x).scale ((eb : Int) - 127)
  | _ => plainVal f x

/-- Saturating conversion of an exact value to an integer type (Table NF-3, R109, R114). -/
def encodeInt (w : Nat) (signed : Bool) (rm : Rnd) (v : Num) : Nat × GCls :=
  let lo : Int := if signed then -(2 ^ (w - 1)) else 0
  let hi : Int := if signed then 2 ^ (w - 1) - 1 else 2 ^ w - 1
  let put (x : Int) : Nat := (x % (2 ^ w : Int)).toNat
  match v with
  | .nan => (0, .nan)
  | .inf neg => (put (if neg then lo else hi), .sat)
  | .fin neg m e =>
    let t : Int := roundAt rm m e 0
    let x := if neg then -t else t
    if x < lo then (put lo, .sat) else if hi < x then (put hi, .sat) else (put x, .none)

/-- One plain element converted to a plain format (R108). -/
def encodePlain (f : Fmt) (rm : Rnd) (e4nan : Bool) (v : Num) : Nat × GCls :=
  match f with
  | .flt l => l.encode rm e4nan v
  | .blk l _ => l.encode rm e4nan v
  | .int w s => encodeInt w s rm v
  | .mxint8 =>
    match v with
    | .fin _ m _ =>
      let r := encodeInt 8 true rm (v.scale 6)
      (r.1, if r.2 = .none ∧ r.1 = 0 ∧ m ≠ 0 then .flush else r.2)
    | _ => encodeInt 8 true rm v

/-- The largest element magnitude of a block format (Table NF-2), as m * 2^e. -/
def Fmt.emax : Fmt → Nat × Int
  | .blk l _ | .flt l =>
    (2 ^ l.mbits + l.maxBits % 2 ^ l.mbits, ((l.maxBits >>> l.mbits : Nat) : Int) - l.bias - l.mbits)
  | _ => (127, -6)

/-- The largest magnitude among finite values; zero when there is none. -/
def magMax : List Num → Nat × Int
  | [] => (0, 0)
  | .fin _ m e :: r =>
    let x := magMax r
    if magLe m e x.1 x.2 then x else (m, e)
  | _ :: r => magMax r

/-- Whether a value is NaN or infinite. -/
def Num.nonfinite : Num → Bool
  | .fin .. => false
  | _ => true

def Num.isNeg : Num → Bool
  | .fin n .. => n
  | .inf n => n
  | .nan => false

def Num.isZero : Num → Bool
  | .fin _ m _ => m = 0
  | _ => false

/-- Step 3 of R107: the smallest x with a * 2^-x ≤ emax, for a nonzero a. -/
def blkExp (f : Fmt) (a : Nat × Int) : Int :=
  let mx := f.emax
  let x0 := magExp a.1 a.2 - magExp mx.1 mx.2
  if magLe a.1 (a.2 - x0) mx.1 mx.2 then x0 else x0 + 1

/-- Step 4 of R107: the downshift of one sub-block. -/
def blkDown (f : Fmt) (sb : Nat) (x : Int) (sub : List Num) : Nat :=
  let a := magMax sub
  let ok (d : Nat) : Bool := decide (d ≤ sb) && magLe a.1 (a.2 - (x - d)) f.emax.1 f.emax.2
  if ok 3 then 3 else if ok 2 then 2 else if ok 1 then 1 else 0

/-- A block encoded (R107): the scale byte, the downshift byte, and the 32 elements with their counts. -/
def encodeBlock (f : Fmt) (nsf : Bool) (rm : Nat → Rnd) (e4nan : Bool) (vs : List Num) :
    Nat × Nat × List (Nat × GCls) :=
  if vs.any Num.nonfinite then (0xFF, 0, vs.map fun _ => (0, .nan))
  else
    let a := magMax vs
    if a.1 = 0 then
      (0, 0, vs.map fun v => (if v.isNeg && decide (f ≠ .mxint8) then 2 ^ (f.bits - 1) else 0, .none))
    else
      let xb := blkExp f a + 127
      let sb : Nat := if xb < 0 then 0 else if xb > 254 then 0xFE else xb.toNat
      let x : Int := (sb : Int) - 127
      let ds := (List.range 4).map fun k =>
        if nsf then blkDown f sb x ((vs.drop (8 * k)).take 8) else 0
      let dbyte := (ds.getD 0 0) + 4 * (ds.getD 1 0) + 16 * (ds.getD 2 0) + 64 * (ds.getD 3 0)
      (sb, dbyte, (vs.zipIdx).map fun (v, i) =>
        encodePlain f (rm i) e4nan (v.scale (-(x - (ds.getD (i / 8) 0)))))

/-- A number as `n` little-endian bytes. -/
def leBytes : Nat → Nat → List Byte
  | 0, _ => []
  | n + 1, x => BitVec.ofNat 8 x :: leBytes n (x / 256)

/-- Little-endian bytes as a number. -/
def leNat : List Byte → Nat
  | [] => 0
  | b :: r => b.toNat + 256 * leNat r

/-- Packs element fields of width w (R105): the element region as one little-endian number. -/
def packElems (w : Nat) : List Nat → Nat
  | [] => 0
  | x :: r => x % 2 ^ w + 2 ^ w * packElems w r

/-- The exact values of a whole tile, in element order. -/
def tileVals (f : Fmt) (bytes : List Byte) : List Num := (List.range 4096).map (tileVal f bytes)

/-- Whole rows encoded in a format: the element bytes, the scale bytes and every element's count (R107, R108). `rm i` is
the rounding of the i-th value given. -/
def encodeRows (f : Fmt) (rm : Nat → Rnd) (e4nan : Bool) (vs : List Num) : List Byte × List Byte × List GCls :=
  let nb := vs.length * f.bits / 8
  let blocks (nsf : Bool) : List Byte × List Byte × List GCls :=
    let bs := (List.range (vs.length / 32)).map fun b =>
      encodeBlock f nsf (fun i => rm (32 * b + i)) e4nan ((vs.drop (32 * b)).take 32)
    let el := bs.flatMap fun b => b.2.2.map Prod.fst
    let sc := bs.flatMap fun b =>
      if nsf then [BitVec.ofNat 8 b.1, BitVec.ofNat 8 b.2.1] else [BitVec.ofNat 8 b.1]
    (leBytes nb (packElems f.bits el), sc, bs.flatMap fun b => b.2.2.map Prod.snd)
  match f with
  | .blk _ nsf => blocks nsf
  | .mxint8 => blocks false
  | _ =>
    let es := (vs.zipIdx).map fun (v, i) => encodePlain f (rm i) e4nan v
    (leBytes nb (packElems f.bits (es.map Prod.fst)), [], es.map Prod.snd)

/-- A whole tile encoded: its bytes (R31) and every element's count. -/
def encodeTile (f : Fmt) (rm : Nat → Rnd) (e4nan : Bool) (vs : List Num) : List Byte × List GCls :=
  let r := encodeRows f rm e4nan vs
  (r.1 ++ r.2.1, r.2.2)

/-- The generator value r of R110 for one element. -/
def genR (seed : Word) (lcore eng rseq idx : Nat) : Nat :=
  let x0 : Word := seed ^^^ (BitVec.ofNat 64 lcore <<< 46) ^^^ (BitVec.ofNat 64 eng <<< 44)
    ^^^ (BitVec.ofNat 64 rseq <<< 12) ^^^ BitVec.ofNat 64 idx
  let x1 := x0 + 0x9E3779B97F4A7C15
  let x2 := (x1 ^^^ (x1 >>> 30)) * 0xBF58476D1CE4E5B9
  let x3 := (x2 ^^^ (x2 >>> 27)) * 0x94D049BB133111EB
  let x4 := x3 ^^^ (x3 >>> 31)
  x4.toNat / 2 ^ 40

/-- The balanced tree of a power-of-two run of values: neighbours first (R86, R136). -/
def treeLevel {α : Type} (op : α → α → α) : List α → List α
  | a :: b :: r => op a b :: treeLevel op r
  | l => l

/-- Six levels over 64 values. -/
def tree64 {α : Type} (op : α → α → α) (z : α) (l : List α) : α :=
  (treeLevel op (treeLevel op (treeLevel op (treeLevel op (treeLevel op (treeLevel op l)))))).getD 0 z

end Sys2Proof.Machine
end

