-- ==== Sys2Proof/Machine/Tab.lean ====
section
/-!
DEFINITION. Sparse data by key, in ONE canonical form: a list of (key, value) pairs with strictly rising keys that
lists no entry equal to what an unlisted key reads as. Memories, register files and the device's numbered units
are held so, and equal contents are therefore equal data.
-/
namespace Sys2Proof.Machine

/-- A sparse table. What an unlisted key reads as is the reader's default `d`. -/
abbrev Tab (α : Type) := List (Nat × α)

/-- The value under a key; an unlisted key reads as `d`. The search ends at the first key above it. -/
def tabGet {α : Type} (d : α) (k : Nat) : Tab α → α
  | [] => d
  | (k', v) :: r => if k' = k then v else if k < k' then d else tabGet d k r

/-- Writes a value under a key; writing the default removes the entry, so the canonical form is kept. -/
def tabPut {α : Type} [DecidableEq α] (d : α) (k : Nat) (v : α) : Tab α → Tab α
  | [] => if v = d then [] else [(k, v)]
  | (k', v') :: r =>
    if k < k' then (if v = d then (k', v') :: r else (k, v) :: (k', v') :: r)
    else if k = k' then (if v = d then r.filter fun e => decide (k < e.1) else (k, v) :: r)
    else (k', v') :: tabPut d k v r

/-- Every key of the table is above `k`. -/
def tabAbove {α : Type} (k : Nat) (t : Tab α) : Bool := t.all fun e => decide (k < e.1)

/-- The canonical form: strictly rising keys and no entry equal to the default. -/
def tabWf {α : Type} [DecidableEq α] (d : α) : Tab α → Bool
  | [] => true
  | (k, v) :: r => decide (v ≠ d) && tabAbove k r && tabWf d r

/-- Writes a run of values under consecutive keys from `k` upward. -/
def tabPutList {α : Type} [DecidableEq α] (d : α) (k : Nat) : List α → Tab α → Tab α
  | [], t => t
  | v :: vs, t => tabPutList d (k + 1) vs (tabPut d k v t)

/-- Reads `n` values under consecutive keys from `k` upward. -/
def tabGetList {α : Type} (d : α) (k : Nat) : Nat → Tab α → List α
  | 0, _ => []
  | n + 1, t => tabGet d k t :: tabGetList d (k + 1) n t

/-- Removes every entry whose key lies in [lo, lo + n): those keys read as the default again. -/
def tabClear {α : Type} (lo n : Nat) (t : Tab α) : Tab α :=
  t.filter fun e => decide (e.1 < lo) || decide (lo + n ≤ e.1)

/-- Keeps the entries whose key satisfies `keep`. -/
def tabKeep {α : Type} (keep : Nat → Bool) (t : Tab α) : Tab α := t.filter fun e => keep e.1

end Sys2Proof.Machine
end

