-- ==== Sys2Proof/Machine/CoreTypes.lean ====
section
/-!
DEFINITION. What one core holds (R51, R53, R83, R145, R146): the sequencer, the four engines and their queues, the
station FIFOs, the accumulators and ladders, the vector registers and open tiles, the SFU contexts and the DMA engine.
-/
namespace Sys2Proof.Machine

/-- An instruction in an engine queue (R53): its address, its words, and the scalar values taken at dispatch. -/
structure QEntry where
  pc : BitVec 48
  word : Word
  ext : Word
  ra : Word
  rb : Word
  deriving DecidableEq, Repr

/-- A stalled flag test (R156). For the sequencer `len` is the length of its instruction in bytes. -/
structure TestWait where
  flag : Nat
  sop : Nat
  v : Word
  deriving DecidableEq, Repr

/-- A flag update handed to RELEASE_PERFORM (R152): local, or remote with its flag target word. -/
structure FlagRel where
  flag : Nat
  sop : Nat
  v : Word
  remote : Option Word
  deriving DecidableEq, Repr

/-- What one engine holds beside its registers. Engine 0 is the sequencer and has no queue. -/
structure Eng where
  queue : List QEntry
  begun : Bool                 -- the head instruction has begun: its operands stay resolved (R35)
  resolved : List Nat          -- FIFO stations the begun instruction has resolved
  stopped : Bool               -- stopped at a boundary (R67, R73)
  wait : Option TestWait       -- stalled flag test (R156)
  stall : Option Nat           -- station whose credit the engine waits for (R37)
  releasing : Option FlagRel   -- release not yet performed (R152)
  remote : List (Nat × Nat)    -- remote writes not yet acknowledged: stream context and operation number
  rnd : Bool                   -- mode fields (Table GL-12)
  e4m3nan : Bool
  compat : Bool
  vstart : Nat
  rseq : Nat                   -- the rounding sequence RSEQ (R110)
  cow : Option Nat             -- the declared page whose copy a write waits for (R328)
  rwait : Option Nat           -- the board-domain address whose RDATA the engine waits for (R239)
  got : List (Nat × List Byte) -- board-domain data the instruction in progress has received
  took : Bool                  -- has taken an instruction of the attempt (Table DB-4)
  seed : Option Nat            -- SR_SEED as the begun instruction found it (R128)
  deriving DecidableEq, Repr

def Eng.reset : Eng :=
  ⟨[], false, [], false, none, none, none, [], false, false, false, 0, 0, none, none, [], false, none⟩

/-- A branch whose delay slot is the next instruction (R57). -/
structure DelaySlot where
  branchPc : BitVec 48
  target : Option (BitVec 48)   -- none: not taken
  deriving DecidableEq, Repr

/-- An active hardware loop (R58), innermost first in its list. -/
structure LoopAct where
  lc : Nat
  first : BitVec 48
  last : BitVec 48
  deriving DecidableEq, Repr

/-- A core-wide acquire that waits (R155): hall pass n with destination rd, or roll call n. -/
inductive ObjWait where
  | hallPass (n rd : Nat)
  | rollCall (n : Nat)
  deriving DecidableEq, Repr

/-- How a core's part of a command stands (R327). -/
inductive PartEnd where
  | running
  | clean
  | failed (cause : Nat)
  deriving DecidableEq, Repr

/-- A tile held by a FIFO: its recorded byte count (R41), its mark (R117); the bytes lie in the FIFO's region. -/
structure TileRec where
  len : Nat
  marked : Bool
  deriving DecidableEq, Repr

/-- A station's FIFO (R36 to R41): the tiles held, oldest first, and the slot index of the oldest. -/
structure Fifo where
  tiles : List TileRec
  head : Nat
  deriving DecidableEq, Repr

def Fifo.reset : Fifo := ⟨[], 0⟩

/-- The tag of an accumulator slot (R83). -/
inductive SlotTag where
  | untagged
  | f32
  | f16
  | i32
  | i16
  deriving DecidableEq, Repr

/-- The phase of a matrix pass (R90), in the order it runs. -/
inductive PassPhase where
  | broadcast
  | check
  | collapse
  | drain
  deriving DecidableEq, Repr

/-- One element of a slot or rung: its value's bits and its out-of-range mark (R111). FP16 and INT16 values stand in the low
bits, INT16 sign-extended. -/
abbrev Cell := Lane × Bool

/-- A ladder (R81): rung i, when occupied, under key i with its 4,096 elements; key 12 is the carry. -/
abbrev Ladder := Tab (List Cell)

/-- A matrix pass that has begun (R59, R94): its resolved operands, its progress, the replay buffer and the ladder's shadow. -/
structure Pass where
  a : Nat
  b : Nat
  slot : Nat
  fa : Nat
  fb : Nat
  acc : Bool
  wrap : Bool
  fuse : Nat
  drn : Bool
  out : Nat                     -- the FIFO that mx.out resolved to, for a pass that drains
  k : Nat
  terms : Nat                   -- T of Table MX-1
  tag : SlotTag                 -- the ladder format
  popped : Nat                  -- tile pairs popped
  replay : List (List Byte × List Byte)
  shadow : Ladder
  phase : PassPhase
  deriving DecidableEq, Repr

/-- Table MX-3. -/
inductive ChkState where
  | try0
  | try1
  | try2
  | persistent
  deriving DecidableEq, Repr

/-- The matrix array of a core. -/
structure Mx where
  slots : Tab (List Cell)       -- the 4,096 elements of a slot that has been written
  tags : Tab SlotTag
  slotWrap : Tab Bool           -- the slot IOV (R111)
  lad0 : Ladder
  lad1 : Ladder
  pass : Option Pass
  chk : ChkState
  sideLoose : Bool              -- MX_SIDE was written while the engine was not idle (R98)
  deriving DecidableEq, Repr

def Mx.reset : Mx := ⟨[], [], [], [], [], none, .try0, false⟩

/-- An open tile of the vector engine (R134, R135). -/
structure OpenTile where
  named : Nat                   -- the station the instruction named
  fifo : Nat                    -- the FIFO it resolved to
  fmt : Nat
  elems : List Byte
  scales : List Byte
  marked : Bool
  deriving DecidableEq, Repr

/-- One row of a softmax context (R145). -/
structure SmxRow where
  m : Lane
  l : Lane
  k : Lane
  deriving DecidableEq, Repr

def SmxRow.reset : SmxRow := ⟨0xFF800000, 0, 0x3F800000⟩

/-- One row of a normalisation context (R146). -/
structure NrmRow where
  c : Lane
  n : Nat
  s : Lane
  q : Lane
  mu : Lane
  rho : Lane
  deriving DecidableEq, Repr

def NrmRow.reset : NrmRow := ⟨0, 0, 0, 0, 0, 0x3F800000⟩

/-- The vector engine and SFU. -/
structure Vx where
  v : Tab Lane                  -- register * 128 + lane
  ins : List OpenTile
  outs : List OpenTile
  smx : Tab SmxRow              -- context * 64 + row
  nrm : Tab NrmRow
  shiftTaken : Tab Bool         -- per context (R146)
  deriving DecidableEq, Repr

def Vx.reset : Vx := ⟨[], [], [], [], [], []⟩

/-- A descriptor (Table DM-1), its fields apart; SK and DK keep their codes: 0 tile store, 1 pool, 2 virtual, 3 station, 4 remote. -/
structure Desc where
  op : Nat
  sk : Nat
  dk : Nat
  fmt : Nat
  fmto : Nat
  cvt : Bool
  nsf : Bool
  rawout : Bool
  fof : Bool
  frag : Nat
  sig : Bool
  cflag : Nat
  csop : Nat
  src : Nat
  dst : Nat
  rowlen : Nat
  rows : Nat
  sstride : Nat
  dstride : Nat
  remote : Nat
  tag : Nat
  cval : Nat
  staddr : Nat
  sten : Bool
  rsv : Bool                    -- a reserved bit is nonzero
  deriving DecidableEq, Repr

/-- A unit in flight (R178): its destination bytes by offset and length, and what a station source or a restored record gave. -/
structure DUnit where
  idx : Nat
  off : Nat
  len : Nat
  bytes : List Byte
  marked : Bool
  sent : Bool                   -- handed to a fabric stream: it completes at its acknowledgement
  deriving DecidableEq, Repr

/-- A descriptor, or a dld or dst, that the DMA engine runs. -/
structure DmaJob where
  desc : Desc
  direct : Bool                 -- a dld or dst
  checked : Bool                -- its COPY, FILL, SPILL_SAVE or SPILL_RESTORE step has admitted it
  rin : Nat                     -- FIFO resolved for a station source
  rout : Nat                    -- FIFO resolved for a station destination
  total : Nat                   -- destination bytes, where known at admission
  drow : Nat                    -- destination bytes of a row
  loose : Bool                  -- source and destination overlap (R177)
  next : Nat                    -- next unit to issue
  nunits : Nat
  inflight : List DUnit
  done : List (Nat × Nat)       -- units completed and their bytes
  failed : List Nat             -- fragments failed
  cause : Nat                   -- first failure (Table DM-2)
  off : Nat                     -- destination bytes issued
  recOut : Nat                  -- spill save: record bytes written
  srcPos : Nat                  -- source bytes taken by a restore
  stoch : Bool                  -- a stochastic conversion has been performed (R110)
  deriving DecidableEq, Repr

/-- The bytes of the longest completed prefix of units (R181); a save counts the bytes of the tiles that it popped. -/
def DmaJob.prefixBytes (j : DmaJob) : Nat :=
  let pre := (List.range j.nunits).takeWhile fun i => j.done.any fun x => x.1 = i
  if j.desc.op = 3 then pre.length * ((fmtOf j.desc.fmt).map Fmt.tileBytes).getD 0
  else (pre.map fun i => (j.done.lookup i).getD 0).sum

/-- The DMA engine. -/
structure Dm where
  job : Option DmaJob
  descNo : Nat                  -- descriptor index within dexecn
  stoch : Bool                  -- an earlier descriptor of the dexecn rounded stochastically (R110)
  deriving DecidableEq, Repr

def Dm.reset : Dm := ⟨none, 0, false⟩

/-- A core (R51 to R53), under its device logical number. -/
structure Core where
  onSpare : Bool                -- served by the quadrant's spare, physical core 18 (R368)
  s : Tab Word
  preds : BitVec 8
  lc : Tab Word
  pc : BitVec 48
  tvec : BitVec 48
  fdisp : Bool
  run : Bool                    -- a program runs
  slot : Option DelaySlot
  skipSlot : Option Nat         -- the next branch's slot, of this many bytes, is skipped (R66, R68)
  loops : List LoopAct
  obj : Option ObjWait
  loadWait : Option (Nat × Nat) -- board-domain load: destination and address (R239)
  stallWord : Word              -- the scalar instruction that waits on a flag or an object (R170)
  rcRec : Tab Nat               -- the generation recorded by rc.arr, by roll call (R166)
  stepHold : Bool               -- held at a single-step point (R440)
  cmd : Option (Nat × Nat)      -- the command whose part it runs: partition and journal slot
  part : PartEnd
  partCause : Nat               -- CAUSE of Table AW-6 for a failed part
  stopReq : Nat                 -- stop requests by cause: 1 debug, 2 single-step, 4 fence, 8 quiet, 16 retirement, 32 a stopped attempt (R73)
  faultStop : Bool              -- stopped by a fault with traps disabled (R67)
  e0 : Eng
  e1 : Eng
  e2 : Eng
  e3 : Eng
  fifos : Tab Fifo
  ts : Tab Byte                 -- the tile store (R32)
  mx : Mx
  vx : Vx
  dm : Dm
  deriving DecidableEq, Repr

def Core.reset : Core where
  onSpare := false
  s := []
  preds := 0
  lc := []
  pc := 0
  tvec := 0
  fdisp := false
  run := false
  slot := none
  skipSlot := none
  loops := []
  obj := none
  loadWait := none
  stallWord := 0
  rcRec := []
  stepHold := false
  cmd := none
  part := .running
  partCause := 0
  stopReq := 0
  faultStop := false
  e0 := Eng.reset
  e1 := Eng.reset
  e2 := Eng.reset
  e3 := Eng.reset
  fifos := []
  ts := []
  mx := Mx.reset
  vx := Vx.reset
  dm := Dm.reset

/-- Engine E of a core: 0 sequencer, 1 matrix, 2 vector, 3 DMA (R64). -/
def Core.eng (x : Core) : Nat → Eng
  | 0 => x.e0
  | 1 => x.e1
  | 2 => x.e2
  | _ => x.e3

def Core.setEng (x : Core) : Nat → Eng → Core
  | 0, e => { x with e0 := e }
  | 1, e => { x with e1 := e }
  | 2, e => { x with e2 := e }
  | _, e => { x with e3 := e }

/-- Debug mode (R441): stopped by DBG_CORECTL.STOP, or held at an AFTER point of single-stepping. -/
def Core.inDebug (x : Core) : Bool :=
  x.stepHold || (decide (x.stopReq % 2 = 1) && x.e0.stopped && x.e1.stopped && x.e2.stopped && x.e3.stopped)

/-- Scalar registers read and written (R51). -/
def Core.sr (x : Core) (r : Nat) : Word := tabGet 0 r x.s
def Core.setSr (x : Core) (r : Nat) (v : Word) : Core := { x with s := tabPut 0 r v x.s }

/-- Predicates (R51): p0 reads 1 and ignores writes. -/
def Core.pred (x : Core) (p : Nat) : Bool := if p = 0 then true else x.preds.getLsbD p
def Core.setPred (x : Core) (p : Nat) (b : Bool) : Core :=
  if p = 0 then x
  else { x with preds := if b then x.preds ||| (1#8 <<< p) else x.preds &&& ~~~(1#8 <<< p) }

/-- Loop counters (R51). -/
def Core.lcr (x : Core) (n : Nat) : Word := tabGet 0 n x.lc
def Core.setLc (x : Core) (n : Nat) (v : Word) : Core := { x with lc := tabPut 0 n v x.lc }

/-- FIFO n of the core. -/
def Core.fifo (x : Core) (n : Nat) : Fifo := tabGet Fifo.reset n x.fifos
def Core.setFifo (x : Core) (n : Nat) (f : Fifo) : Core := { x with fifos := tabPut Fifo.reset n f x.fifos }

/-- A vector register's lane. -/
def Core.lane (x : Core) (r i : Nat) : Lane := tabGet 0 (r * 128 + i) x.vx.v
def Core.setLane (x : Core) (r i : Nat) (v : Lane) : Core :=
  { x with vx := { x.vx with v := tabPut 0 (r * 128 + i) v x.vx.v } }

/-- The tile store read and written; addresses are taken modulo its 8 MiB by no one: the callers check them (R32). -/
def Core.tsRead (x : Core) (a n : Nat) : List Byte := tabGetList 0 a n x.ts
def Core.tsWrite (x : Core) (a : Nat) (bs : List Byte) : Core := { x with ts := tabPutList 0 a bs x.ts }

end Sys2Proof.Machine
end

