-- ==== Sys2Proof/Machine/FabricTypes.lean ====
section
/-!
DEFINITION. Packets and fabric stream contexts (R241, R246 to R249).
-/
namespace Sys2Proof.Machine

/-- A packet (Tables RT-2 and RT-3). LEN is the payload's length; the header's zero fields are zero. -/
structure Pkt where
  ptype : Nat
  flg : Bool
  path : Nat
  nm : Bool
  phase : Nat
  ddev : Nat
  sdev : Nat
  dctx : Nat
  seq : Nat
  opend : Nat
  deadline : Nat
  inter : Nat
  addr : Nat
  frbase : Nat
  frlog : Nat
  payload : List Byte
  deriving DecidableEq, Repr

/-- The 48 header bytes (Table RT-2). -/
def Pkt.header (p : Pkt) : List Byte :=
  leBytes 2 (p.ptype % 16 + (if p.flg then 16 else 0) + p.path % 4 * 2 ^ 5 + (if p.nm then 2 ^ 7 else 0) + p.phase % 4 * 2 ^ 8)
    ++ leBytes 3 (p.ddev % 2 ^ 20) ++ leBytes 3 (p.sdev % 2 ^ 20) ++ leBytes 4 (p.dctx % 2 ^ 17) ++ leBytes 4 p.seq
    ++ leBytes 4 p.opend ++ leBytes 4 p.deadline ++ leBytes 2 (p.inter % 2 ^ 14) ++ leBytes 2 p.payload.length ++ leBytes 4 0
    ++ leBytes 8 (p.addr % 2 ^ 48) ++ leBytes 8 (p.frbase % 2 ^ 48 + p.frlog % 256 * 2 ^ 48)

/-- The bytes of a packet on a link (R241). -/
def Pkt.bytes (p : Pkt) : List Byte := p.header ++ p.payload

/-- The additional data of R353: the header with PATH, NM, PHASE and INTER read as zero. -/
def Pkt.aad (p : Pkt) : List Byte := Pkt.header { p with path := 0, nm := false, phase := 0, inter := 0 }

/-- A little-endian field of a byte string. -/
def byteField (b : List Byte) (lo n : Nat) : Nat := leNat ((b.drop lo).take n)

/-- The packet at the front of a byte stream, the bytes after it, and whether it is well formed (Table RT-2, Table RT-3); none while
bytes are missing. -/
def Pkt.parse (b : List Byte) : Option (Pkt × Bool × List Byte) :=
  let h0 := byteField b 0 2
  let len := byteField b 26 2 % 2 ^ 13
  if b.length < 48 ∨ b.length < 48 + len then none
  else
    let a7 := byteField b 40 8
    let ok := 1 ≤ h0 % 16 ∧ h0 % 16 ≤ 10 ∧ h0 / 2 ^ 10 = 0 ∧ byteField b 2 3 < 2 ^ 20 ∧ byteField b 5 3 < 2 ^ 20
      ∧ byteField b 8 4 < 2 ^ 17 ∧ byteField b 24 2 < 2 ^ 14 ∧ byteField b 26 2 ≤ 4096 ∧ byteField b 28 4 = 0
      ∧ byteField b 32 8 < 2 ^ 48 ∧ a7 < 2 ^ 56
    some ({ ptype := h0 % 16, flg := h0 / 16 % 2 = 1, path := h0 / 2 ^ 5 % 4, nm := h0 / 2 ^ 7 % 2 = 1, phase := h0 / 2 ^ 8 % 4,
            ddev := byteField b 2 3, sdev := byteField b 5 3, dctx := byteField b 8 4, seq := byteField b 12 4,
            opend := byteField b 16 4, deadline := byteField b 20 4, inter := byteField b 24 2, addr := byteField b 32 8,
            frbase := a7 % 2 ^ 48, frlog := a7 / 2 ^ 48 % 256, payload := (b.drop 48).take len },
          decide ok, b.drop (48 + len))

/-- Table RT-3. -/
def ptWRITE : Nat := 1
def ptREAD : Nat := 2
def ptRDATA : Nat := 3
def ptFLAG : Nat := 4
def ptRCARR : Nat := 5
def ptRCREL : Nat := 6
def ptENGINE : Nat := 7
def ptACK : Nat := 8
def ptSYNC : Nat := 9
def ptPOISON : Nat := 10

/-- Who is told when a stream operation is acknowledged or fails (R248). -/
inductive OpOwner where
  | none
  | dma (c unit : Nat)
  | load (c e : Nat)
  | store (c e : Nat)
  | update (c e : Nat)
  | roll
  | cf (slot ring : Nat)
  | withheld (slot : Nat)       -- a WITHHELD message of a confluence slot (R273)
  | fry (job : Nat)
  deriving DecidableEq, Repr

/-- A stream operation not yet acknowledged (R246). -/
structure SOp where
  first : Nat
  last : Nat
  owner : OpOwner
  frbase : Nat
  frlog : Nat
  deriving DecidableEq, Repr

/-- States of Table RT-4. -/
inductive CtxSt where
  | closed
  | opening
  | opened
  | failed
  deriving DecidableEq, Repr

/-- A packet taken whose operation is not complete (R248); `wr` says that it wrote into its fragment. -/
structure PartPkt where
  seq : Nat
  opend : Nat
  wr : Bool
  frbase : Nat
  frlog : Nat
  deadline : Nat
  deriving DecidableEq, Repr

/-- A stream context (R246 to R249): both halves. -/
structure Ctx where
  st : CtxSt
  closing : Bool                -- CLOSE written: no new operation starts
  fdev : Nat
  fctx : Nat
  part : Nat
  gcm : Bool
  o : Nat                       -- oldest unacknowledged number
  n : Nat                       -- next number
  b : Nat                       -- lowest number not received
  taken : List Nat              -- numbers at or above b received
  held : List Pkt               -- flagged packets taken, not yet applied
  unacked : List Pkt            -- packets sent, not acknowledged
  ops : List SOp                -- operations not acknowledged
  partial_ : List PartPkt       -- packets taken of operations still incomplete
  sinceAck : Nat                -- packets taken since the last ACK
  err : Option (Nat × Nat)      -- ERRSEQ and ERRCODE of the next ACK
  syncBase : Nat
  syncIn : Bool                 -- a SYNC has been received
  syncAck : Bool                -- our SYNC has been acknowledged
  confirmB : Nat
  opencnt : Nat
  tctr : Nat
  failedFrags : List (Nat × Nat) -- fragments for which a POISON is owed after resynchronisation
  retx : Nat
  dups : Nat
  outwin : Nat
  fboot : Nat                   -- the far BOOTID and OPENCNT of the last SYNC (R353)
  fopen : Nat
  deriving DecidableEq, Repr

def Ctx.reset : Ctx where
  st := .closed
  closing := false
  fdev := 0
  fctx := 0
  part := 0
  gcm := false
  o := 0
  n := 0
  b := 0
  taken := []
  held := []
  unacked := []
  ops := []
  partial_ := []
  sinceAck := 0
  err := none
  syncBase := 0
  syncIn := false
  syncAck := false
  confirmB := 0
  opencnt := 0
  tctr := 0
  failedFrags := []
  retx := 0
  dups := 0
  outwin := 0
  fboot := 0
  fopen := 0

/-- A packet on a port's output (R244): the bytes still to go, and the input flits that it frees when it has gone. -/
structure TxPkt where
  p : Pkt
  left : List Byte
  from_ : Option (Nat × Nat × Nat)   -- input link, virtual channel, flits
  deriving DecidableEq, Repr

/-- One virtual channel of one link, both directions (R217, R241, R244). -/
structure LinkVc where
  credits : Nat                 -- flit credits to send with
  creditIn : Nat                -- credits received, modulo 2^16
  creditOut : Nat               -- credits returned, modulo 2^16
  owed : Nat                    -- input flits freed and not yet returned
  part : List Byte              -- bytes of an incomplete packet
  held : Nat                    -- input flits of that packet
  occ : Nat                     -- input flits held
  maxOcc : Nat                  -- largest occupancy of the telemetry interval (R250)
  rxq : List (Pkt × Nat)        -- complete packets not forwarded, with their flits
  txq : List TxPkt
  deriving DecidableEq, Repr

def LinkVc.reset : LinkVc := ⟨0, 0, 0, 0, [], 0, 0, 0, [], []⟩

/-- A link beside its registers (R217 to R232). -/
structure Link where
  train : Nat                   -- training count
  light : Nat                   -- receive lanes with light
  hold : Bool                   -- training timed out: the next attempt waits 10 ms
  o : Nat                       -- oldest unacknowledged number
  n : Nat                       -- next new number
  replay : List (List Byte)     -- the flits from o up to n
  e : Nat                       -- next number expected
  got : Bool                    -- a DATA flit has been accepted since ACTIVE was entered from IDENT
  nakOut : Bool
  naks : Nat                    -- NAKs sent for the present e
  degrade : Option Nat          -- the mask this end asks for (R226)
  trying : Nat                  -- lanes on trial for readmission (R227)
  tdep : Nat                    -- the stamps of the last exchange's departure and arrival (TDEP, TARR)
  tarr : Nat
  tnum : Nat                    -- TIME flits sent
  tprev : Bool                  -- one has been sent since the last entry into ACTIVE
  departs : List (Nat × Nat)    -- the last four sent: number and stamp
  arrives : List (Nat × Nat)
  tlast : Option Nat            -- the last TIME flit received since that entry
  nbState : Nat                 -- the neighbour's bell state and DEPTH (R300)
  nbDepth : Nat
  lastEx : Option Nat           -- bell time of the last completed exchange
  exchanges : Nat               -- exchanges completed since that entry
  vcs : Tab LinkVc
  sent : Nat                    -- DATA flits of the telemetry interval (R250)
  nmSent : Nat
  deriving DecidableEq, Repr

def Link.reset : Link where
  train := 0
  light := 0
  hold := false
  o := 0
  n := 0
  replay := []
  e := 0
  got := false
  nakOut := false
  naks := 0
  degrade := none
  trying := 0
  tdep := 0
  tarr := 0
  tnum := 0
  tprev := false
  departs := []
  arrives := []
  tlast := none
  nbState := 0
  nbDepth := 0
  lastEx := none
  exchanges := 0
  vcs := []
  sent := 0
  nmSent := 0

def Link.vc (x : Link) (v : Nat) : LinkVc := tabGet LinkVc.reset v x.vcs
def Link.setVc (x : Link) (v : Nat) (y : LinkVc) : Link := { x with vcs := tabPut LinkVc.reset v y x.vcs }

end Sys2Proof.Machine
end

