-- ==== Sys2Proof/Machine/EngineTypes.lean ====
section
/-!
DEFINITION. What the confluence (R254 to R278), the ferry (R280 to R293) and the bell unit (R295 to R304) hold beside their
registers.
-/
namespace Sys2Proof.Machine

/-- A collective descriptor (Table CF-1). -/
structure CfDesc where
  kind : Nat
  arith : Nat
  ifmt : Nat
  ofmt : Nat
  plan : Nat
  rel : Bool
  lsb : Bool
  close : Bool
  rearm : Bool
  ret : Bool
  anchor : Nat
  aop : Nat
  trig : Nat
  tflag : Nat
  tcore : Nat
  arem : Bool
  bid : Nat
  tval : Nat
  src : Nat
  dst : Nat
  count : Nat
  tinc : Nat
  staddr : Nat
  ccore : Nat
  cflag : Nat
  csop : Nat
  cen : Bool
  cval : Nat
  astream : Nat
  rsv : Bool                    -- a reserved bit is nonzero
  deriving DecidableEq, Repr

/-- The part of a chunk's header that members combine (R268). -/
structure CfMeta where
  ovf : Bool
  mis : Bool
  flush : Nat
  wovf : Nat
  nan : Nat
  wcount : Nat
  wfirst : Nat
  deriving DecidableEq, Repr

def CfMeta.zero : CfMeta := ⟨false, false, 0, 0, 0, 0, 0⟩

/-- A chunk (Table CF-3): its label, its metadata and its values, AX64 or FP32 in the low bits. -/
structure CfChunk where
  level : Nat
  ph : Nat
  byp : Bool
  close : Bool
  ring : Nat
  a : Nat                       -- the anchor's byte
  bid : Nat
  gen : Nat
  step : Nat
  pos : Nat
  count : Nat
  kind : Nat
  arith : Nat
  elem : Nat
  meta_ : CfMeta
  vals : List (BitVec 64)
  deriving DecidableEq, Repr

/-- How R261 counts a source element; `poison` is a source sector that reads as POISON (R276). -/
inductive CfCls where
  | plain
  | flush
  | wovf
  | nan
  | poison
  deriving DecidableEq, Repr

/-- What is known of elements whose half of a level is finished here: `ph` 0 the reduce-scatter half, 1 the all-gather half. -/
structure CfFin where
  ph : Nat
  level : Nat
  ranges : List (Nat × Nat)
  meta_ : CfMeta
  deriving DecidableEq, Repr

/-- A slot that is ARMED or RUNNING. -/
structure CfSlot where
  desc : Option CfDesc
  cmd : Option Nat              -- the journal slot of its arming command
  a : Int                       -- resolved anchor
  ovf : Bool                    -- this member's overflow flag (R258)
  cls : Tab CfCls
  vals : Tab (BitVec 64)        -- the present value of an element
  level : Nat
  ph : Nat
  ready : List (Nat × Nat)      -- levels and rings whose successor has sent READY
  waiting : List CfChunk        -- chunks to send that wait for READY or a window
  sent : List CfChunk           -- chunks sent
  byp : List (Nat × Nat)        -- rings whose successor is withheld
  labels : List (Nat × Nat × Nat × Nat × Nat × Nat) -- accepted: level, ring, PH, STEP, POS, ELEM
  fin : List CfFin              -- the chunks finished here
  rsLeft : Tab Nat              -- by level * 16 + ring: elements of the reduce-scatter half still to finish
  agLeft : Tab Nat              -- elements of the all-gather half still to come
  bypassed : Bool
  lost : List (Nat × Nat)       -- rings whose NEXT stream has failed
  broken : Bool                 -- a bypass that cannot be made (R275)
  back : List (Nat × Nat)       -- remote atomics sent and not yet answered: first element and how many
  aNext : Nat                   -- atomics: the next element to send (R278)
  pois : Nat                    -- poisoned targets (R278)
  deriving DecidableEq, Repr

def CfSlot.reset : CfSlot where
  desc := none
  cmd := none
  a := 0
  ovf := false
  cls := []
  vals := []
  level := 0
  ph := 0
  ready := []
  waiting := []
  sent := []
  byp := []
  labels := []
  fin := []
  rsLeft := []
  agLeft := []
  bypassed := false
  lost := []
  broken := false
  back := []
  aNext := 0
  pois := 0

/-- A dispatch descriptor (Table FY-2). -/
structure FryDesc where
  k : Nat
  rfmt : Nat
  ofmt : Nat
  trig : Nat
  tflag : Nat
  tcore : Nat
  cf : Nat
  bid : Nat
  tval : Nat
  src : Nat
  route : Nat
  count : Nat
  rowb : Nat
  rrowb : Nat
  dst : Nat
  stage : Nat
  staddr : Nat
  ccore : Nat
  cflag : Nat
  csop : Nat
  cen : Bool
  cval : Nat
  rsv : Bool
  deriving DecidableEq, Repr

/-- Where a job's slot stands. -/
inductive FrySlot where
  | free
  | refused
  | noRoute
  | waiting (dest queue : Nat)    -- dest: stream + 1, or 0 for this device
  | sent (dest queue : Nat)
  | result
  | failed
  deriving DecidableEq, Repr

/-- A ferry job that is ARMED or RUNNING. -/
structure FryJob where
  desc : Option FryDesc
  cmd : Option Nat
  slots : Tab FrySlot           -- K * t + k
  weights : Tab Nat             -- gating weights, FP32 bits, by slot
  asked : List (Nat × Nat)      -- destinations and queues with a REQ unanswered
  grants : List (Nat × Nat × Nat × Nat) -- destination, queue, batch, rows not used
  refusedQ : Bool               -- a queue refused (R288)
  sentAt : Tab Nat              -- bell time of each row's sending
  parts : Tab (List (Nat × List Byte)) -- pieces of result rows received
  done : Tab Bool               -- tokens combined
  accepted : Nat                -- slots whose row was sent against a grant (R286)
  deriving DecidableEq, Repr

def FryJob.reset : FryJob := ⟨none, none, [], [], [], [], false, [], [], [], 0⟩

/-- A token row that is arriving in pieces (R286): its source (context + 1, or 0 for this device), its slot and what has come. -/
structure FryPiece where
  from_ : Nat
  job : Nat
  gen : Nat
  t : Nat
  k : Nat
  pieces : List (Nat × List Byte)  -- by offset
  deriving DecidableEq, Repr

/-- A batch of an expert queue (R287). -/
structure FryBatch where
  no : Nat
  rows : Nat                    -- rows landed
  granted : Nat                 -- rows granted and not landed
  late : Bool                   -- its deadline has passed
  parts : List FryPiece         -- pieces of rows not yet whole
  deriving DecidableEq, Repr

/-- An expert queue (R287 to R289). -/
structure FryQ where
  next : Nat                    -- number of the next batch to open
  open_ : List FryBatch         -- the open batch and the next, oldest first
  closed : List (Nat × Nat)     -- closed and unreturned: number and rows
  seen : Nat                    -- RFLAG's value already counted
  waitq : List (Nat × List Byte) -- REQ messages that no batch has room for: context and payload (R285)
  deriving DecidableEq, Repr

def FryQ.reset : FryQ := ⟨0, [], [], 0, []⟩

/-- A ferry message that waits for its stream's window: context, the job it speaks for, and its packets' payloads. -/
structure FryOut where
  ctx : Nat
  job : Option Nat
  payloads : List (List Byte)
  deriving DecidableEq, Repr

/-- The bell unit (R295 to R304). -/
structure BellSt where
  syms : List Nat               -- symbols since the frame mark: 0, 1, 2 the mark, 3 undecodable
  prevT : Option Nat            -- T of the last valid frame
  ticks : Nat                   -- bell time at the last frame mark
  bad : Nat                     -- valid frames in a row that disagree with the counter
  missing : Nat                 -- marker edges missing in a row
  since : Nat                   -- bell time of the entry into the present state
  deriving DecidableEq, Repr

def BellSt.reset : BellSt := ⟨[], none, 0, 0, 0, 0⟩

end Sys2Proof.Machine
end

