-- ==== Sys2Proof/Machine/Registers.lean ====
section
/-!
DEFINITION. Every register of the spec's register tables (R9, R10): its address, its fields, each field's type of
Table SC-2 and its reset value. Addresses are offsets from BAR0 of the PF (Table DV-6, Table DV-8). A register that
only a VF's partition view holds (the gauge page and the claim page of Table DV-7) is given an address above the PF's BAR0:
0x1000_0000 + 0x0100_0000 * p for partition p; claim page 8 is the PF's own at 0x0004_2000.
A field is the unit that State holds: reading a register composes its fields, writing one stores them by their types.
-/
namespace Sys2Proof.Machine

/-- The types of Table SC-2 (R10); RSVD bits are no field: they read zero and discard what is written. -/
inductive FTy where
  | ro | rw | rw1c | rc | wo
  deriving DecidableEq, Repr

/-- One field of one register: the register's address, the field's place and width, its type, and the value after a cold reset. -/
structure Fld where
  addr : Nat
  lo : Nat
  width : Nat
  ty : FTy
  reset : Nat
  deriving DecidableEq, Repr

/-- The key under which State holds a field. -/
def Fld.key (f : Fld) : Nat := f.addr * 64 + f.lo

/-- One dimension of a repeated register: how many, how far apart, and the number of the first. -/
structure Dim where
  count : Nat
  stride : Nat
  first : Nat
  deriving DecidableEq, Repr

/-- The registers of the spec, one name per register table. -/
inductive RegName where
  | ST_CFG | ST_STAT | ST_EVCFG | EXR_CAUSE | SQ_TRAP | SQ_RESUME | MX_STAT | MX_SIDE
  | MX_CHKCNT | MX_CHKSKIP | MX_CHKLOC | MX_LADDER | MX_ACCSEL | MX_ACCDATA | GAU_CNT | GAU_NAN
  | GAU_CTL | GAU_WATCH | GAU_HCFG | GAU_HAUX | GAU_HBIN | LS_CFG | LS_STAT | LS_CTL
  | LS_MIRROR | SR_SEED | PH_SEL | PH_AUX | PH_BIN | VX_STAT | SFU_SETID | SFU_FNMAP
  | SFU_EVCNT | SFU_CTXSEL | SFU_CTXDATA | SY_FLAG | RC_CFG | RC_NET | RC_STAT | RC_CTL
  | HP | HP_CTL | SY_WDCFG | SY_WDSTAT | SY_EPOCH | DMA_STAT | DMA_FRAGCNT | SPW_IN
  | SPW_OUT | SPW_RAWROW | SPW_POS | HBM_STAT | HBM_THERM | HBM_ECCCNT | HBM_UECNT | HBM_REFCNT
  | HBM_HOTCFG | HBM_HOT | SCR_BASE | SCR_LEN | SCR_CTL | SCR_STAT | SCR_SUM0 | SCR_SUM1
  | TG_CTL | TG_CNT | TG_SEED | TG_STAT | TG_FAIL | HBM_SEED | HBM_REHASH | LNK_CTL
  | LNK_STAT | LNK_EXPECT | LNK_NBR | LNK_TIMECFG | LNK_TIME | LNK_TSEQ | LNK_FECCNT | LNK_RETRYCNT
  | LNK_EVCNT | LNK_RXBODY | LNK_LANE | RTE_ID | RTE_CTL | RTE_SWAPAT | RTE_RESHAPE | RTE_TELCFG
  | RTE_TELBASE | RTE_TELPTR | RTE_DROPCNT | RTE_GRP | RTE_POD | RTE_OCC | STM_SEL | STM_CFG
  | STM_STAT | STM_SEQ | STM_CNT | STM_CTL | STM_TIME | STM_DEVCNT | STM_BOARD | CF_STAT
  | CF_TIME | CF_CNT | CF_NUMCNT | CF_PLANCFG | CF_LVL | CF_RINGA | CF_RINGB | CF_SLOT
  | CF_SLOTBID | CF_SLOTCTL | CF_SLOTWAIT | FRY_STAT | FRY_BDL | FRY_CNT | FRY_BCNT | FRY_LATMAX
  | FRY_RT | FRY_LAG | FRY_JOB | FRY_JOBCTL | FRY_EQA | FRY_EQB | FRY_EQS | BL_CTL
  | BL_STAT | BL_NOW | BL_SRC | BL_REFDLY | BL_ERR | BL_CNT | BL_DKEY0 | BL_DKEY1
  | TT_TIME | TT_ACT | TT_CTL | TT_STAT | TT_PACE | TT_NOW | TT_DKEY0 | TT_DKEY1
  | RING_BASE | RING_CFG | CQ_BASE | RING_DB | RING_ACC | RING_DONE | CQ_HEAD | RING_STAT
  | JNL_PCFG | JNL_PSTAT | JNL_PCTL | JNL_JSEQ | JNL_CTL | JNL_STAT | JNL_PSIZE | PT_CTL
  | PT_STAT | PT_CORES | PT_S2BASE | PT_EXTOP | PT_EXTCNT | PT_RSVOP | PT_POOLMAP | PT_WEIR
  | PT_SUSP | PT_KEYCTL | PT_KEYDATA | PT_SECCNT | PT_S1BASE | PT_S1INV | QT_STAT | QT_CTL
  | QT_PCAUSE | ERR_SUMMARY | SP_STAT | SP_MAP | SP_CTL | LG_CFG | LG_CFG2 | LG_STAT
  | ERR_CFG | ERR_CTL | ERR_STAT | ERR_P | ERR_Q | IRQ_SEL | IRQ_SCFG | IRQ_STMASK
  | IRQ_SSTAT | IRQ_MCLAIM | IRQ_MCOMP | IRQ_MPRIO | IRQ_MCFG | IRQ_PEND | IC_CLAIM | IC_COMPLETE
  | IC_VCOAL | IC_PSEL | IC_PCFG | IC_PTMASK | IC_PSTAT | LAS_CFG | LAS_CTL | LAS_STAT
  | LAS_FEEDCTL | LAS_FEED | LAS_SLOT | LAS_ID | LAS_WEAR | SBB_STAT | SBB_CNT | SBB_CTL
  | MGT_ID0 | MGT_SERIAL | MGT_MBCTL | MGT_MBSTAT | MGT_MBDATA | MGT_LOCK | MGT_BOOT | PWR_PROFILE
  | PWR_DOMCTL | PWR_DOMSTAT | PWR_VIN | PWR_CAP | PWR_ENERGY | RST_CTL | RST_STAT | THM_CFG
  | THM_STAT | THM_SENS | DBG_STAT | DBG_CHAL | DBG_CORECTL | DBG_HEAD | DBG_APADDR | DBG_APDATA
  | TRC_REGION | CNT_CTL | CNT_SNAP | CNT_GRP | CNT_GDST | CNT_REC | CNT_BUSY | CNT_STALL
  | CNT_IDLE | CNT_REASON | PD_STEP | PD_DUMPTAB | PD_DUMPNAME | PD_DUMPCFG | PD_DUMPDST | PD_DUMPSTAT
  | PD_TRC | PD_TRCMARK | HIF_STAT | HIF_ERRCNT | HIF_MODID | EXR_PC | EXR_INSN | EXR_EXT
  | EXR_ADDR | EXR_PROG | EXR_MODE
  deriving DecidableEq, Repr

namespace Reg

/-- ST_CFG — Station configuration (R46). -/
def ST_CFG (c n : Nat) : Nat := 0x1000800 + 0x10000 * c + 0x8 * (n - 16)
def ST_CFG_EN (c n : Nat) : Fld := ⟨ST_CFG c n, 0, 1, .rw, 0⟩
def ST_CFG_SLOT (c n : Nat) : Fld := ⟨ST_CFG c n, 8, 7, .rw, 0⟩
def ST_CFG_CAP (c n : Nat) : Fld := ⟨ST_CFG c n, 16, 8, .rw, 0⟩
def ST_CFG_BASE (c n : Nat) : Fld := ⟨ST_CFG c n, 24, 15, .rw, 0⟩
def ST_CFG_PROD (c n : Nat) : Fld := ⟨ST_CFG c n, 40, 4, .rw, 0⟩
def ST_CFG_CONS (c n : Nat) : Fld := ⟨ST_CFG c n, 48, 4, .rw, 0⟩
/-- ST_STAT — Station status (R46). -/
def ST_STAT (c n : Nat) : Nat := 0x1000a00 + 0x10000 * c + 0x8 * (n - 16)
def ST_STAT_OCC (c n : Nat) : Fld := ⟨ST_STAT c n, 0, 8, .ro, 0⟩
def ST_STAT_HEAD (c n : Nat) : Fld := ⟨ST_STAT c n, 8, 8, .ro, 0⟩
def ST_STAT_PSTALL (c n : Nat) : Fld := ⟨ST_STAT c n, 16, 1, .ro, 0⟩
def ST_STAT_CSTALL (c n : Nat) : Fld := ⟨ST_STAT c n, 17, 1, .ro, 0⟩
def ST_STAT_IDLE (c n : Nat) : Fld := ⟨ST_STAT c n, 18, 1, .ro, 1⟩
def ST_STAT_EMPTY_EV (c n : Nat) : Fld := ⟨ST_STAT c n, 32, 1, .rw1c, 0⟩
def ST_STAT_FULL_EV (c n : Nat) : Fld := ⟨ST_STAT c n, 33, 1, .rw1c, 0⟩
def ST_STAT_CFGERR (c n : Nat) : Fld := ⟨ST_STAT c n, 34, 1, .rw1c, 0⟩
def ST_STAT_CFGERR_CODE (c n : Nat) : Fld := ⟨ST_STAT c n, 36, 4, .ro, 0⟩
/-- ST_EVCFG — Station event routing (R46). -/
def ST_EVCFG (c n : Nat) : Nat := 0x1000c00 + 0x10000 * c + 0x8 * (n - 16)
def ST_EVCFG_EFLAG_EN (c n : Nat) : Fld := ⟨ST_EVCFG c n, 0, 1, .rw, 0⟩
def ST_EVCFG_FFLAG_EN (c n : Nat) : Fld := ⟨ST_EVCFG c n, 1, 1, .rw, 0⟩
def ST_EVCFG_IRQ_EMPTY (c n : Nat) : Fld := ⟨ST_EVCFG c n, 2, 1, .rw, 0⟩
def ST_EVCFG_IRQ_FULL (c n : Nat) : Fld := ⟨ST_EVCFG c n, 3, 1, .rw, 0⟩
def ST_EVCFG_FLAG (c n : Nat) : Fld := ⟨ST_EVCFG c n, 8, 8, .rw, 0⟩
/-- EXR_CAUSE — Exception cause (R64). -/
def EXR_CAUSE (c E : Nat) : Nat := 0x1000100 + 0x10000 * c + 0x40 * E
def EXR_CAUSE_VALID (c E : Nat) : Fld := ⟨EXR_CAUSE c E, 0, 1, .ro, 0⟩
def EXR_CAUSE_CAUSE (c E : Nat) : Fld := ⟨EXR_CAUSE c E, 8, 8, .ro, 0⟩
def EXR_CAUSE_SUB (c E : Nat) : Fld := ⟨EXR_CAUSE c E, 16, 4, .ro, 0⟩
def EXR_CAUSE_DS (c E : Nat) : Fld := ⟨EXR_CAUSE c E, 20, 1, .ro, 0⟩
def EXR_CAUSE_LEND (c E : Nat) : Fld := ⟨EXR_CAUSE c E, 21, 1, .ro, 0⟩
def EXR_CAUSE_LDEPTH (c E : Nat) : Fld := ⟨EXR_CAUSE c E, 22, 3, .ro, 0⟩
def EXR_CAUSE_STATION (c E : Nat) : Fld := ⟨EXR_CAUSE c E, 32, 6, .ro, 0⟩
def EXR_CAUSE_PVALID (c E : Nat) : Fld := ⟨EXR_CAUSE c E, 40, 1, .ro, 0⟩
def EXR_CAUSE_ASPACE (c E : Nat) : Fld := ⟨EXR_CAUSE c E, 42, 2, .ro, 0⟩
/-- SQ_TRAP — Trap state (R65). -/
def SQ_TRAP (c : Nat) : Nat := 0x1000000 + 0x10000 * c
def SQ_TRAP_TRET (c : Nat) : Fld := ⟨SQ_TRAP c, 0, 48, .ro, 0⟩
def SQ_TRAP_INTRAP (c : Nat) : Fld := ⟨SQ_TRAP c, 48, 1, .ro, 0⟩
def SQ_TRAP_PEND (c : Nat) : Fld := ⟨SQ_TRAP c, 49, 4, .ro, 0⟩
/-- SQ_RESUME — Resume (R67). -/
def SQ_RESUME (c : Nat) : Nat := 0x1000010 + 0x10000 * c
def SQ_RESUME_RES (c : Nat) : Fld := ⟨SQ_RESUME c, 0, 4, .wo, 0⟩
def SQ_RESUME_SKP (c : Nat) : Fld := ⟨SQ_RESUME c, 4, 4, .wo, 0⟩
/-- MX_STAT — Matrix status (R98). -/
def MX_STAT (c : Nat) : Nat := 0x1002000 + 0x10000 * c
def MX_STAT_IDLE (c : Nat) : Fld := ⟨MX_STAT c, 0, 1, .ro, 1⟩
def MX_STAT_B0BUSY (c : Nat) : Fld := ⟨MX_STAT c, 1, 1, .ro, 0⟩
def MX_STAT_B1BUSY (c : Nat) : Fld := ⟨MX_STAT c, 2, 1, .ro, 0⟩
def MX_STAT_DRBUSY (c : Nat) : Fld := ⟨MX_STAT c, 3, 1, .ro, 0⟩
def MX_STAT_ACCDENY (c : Nat) : Fld := ⟨MX_STAT c, 4, 1, .rw1c, 0⟩
def MX_STAT_CHKST (c : Nat) : Fld := ⟨MX_STAT c, 8, 2, .ro, 0⟩
def MX_STAT_TAGS (c : Nat) : Fld := ⟨MX_STAT c, 32, 32, .ro, 0⟩
/-- MX_SIDE — Side-record ring (R98). -/
def MX_SIDE (c : Nat) : Nat := 0x1002008 + 0x10000 * c
def MX_SIDE_BASE (c : Nat) : Fld := ⟨MX_SIDE c, 0, 14, .rw, 0⟩
def MX_SIDE_CNT (c : Nat) : Fld := ⟨MX_SIDE c, 16, 8, .rw, 0⟩
def MX_SIDE_NEXT (c : Nat) : Fld := ⟨MX_SIDE c, 32, 8, .ro, 0⟩
/-- MX_CHKCNT — Check counts (R98). -/
def MX_CHKCNT (c : Nat) : Nat := 0x1002010 + 0x10000 * c
def MX_CHKCNT_MISMATCH (c : Nat) : Fld := ⟨MX_CHKCNT c, 0, 32, .ro, 0⟩
def MX_CHKCNT_RETRY (c : Nat) : Fld := ⟨MX_CHKCNT c, 32, 32, .ro, 0⟩
/-- MX_CHKSKIP — Skips and persistent mismatches (R98). -/
def MX_CHKSKIP (c : Nat) : Nat := 0x1002018 + 0x10000 * c
def MX_CHKSKIP_SKIP (c : Nat) : Fld := ⟨MX_CHKSKIP c, 0, 32, .ro, 0⟩
def MX_CHKSKIP_PERSIST (c : Nat) : Fld := ⟨MX_CHKSKIP c, 32, 16, .ro, 0⟩
/-- MX_CHKLOC — Last mismatch location (R98). -/
def MX_CHKLOC (c : Nat) : Nat := 0x1002020 + 0x10000 * c
def MX_CHKLOC_ROW (c : Nat) : Fld := ⟨MX_CHKLOC c, 0, 6, .ro, 0⟩
def MX_CHKLOC_COL (c : Nat) : Fld := ⟨MX_CHKLOC c, 8, 6, .ro, 0⟩
def MX_CHKLOC_KIND (c : Nat) : Fld := ⟨MX_CHKLOC c, 16, 3, .ro, 0⟩
def MX_CHKLOC_LOCV (c : Nat) : Fld := ⟨MX_CHKLOC c, 19, 1, .ro, 0⟩
/-- MX_LADDER — Rung occupancy (R98). -/
def MX_LADDER (c : Nat) : Nat := 0x1002028 + 0x10000 * c
def MX_LADDER_OCC0 (c : Nat) : Fld := ⟨MX_LADDER c, 0, 12, .ro, 0⟩
def MX_LADDER_OCC1 (c : Nat) : Fld := ⟨MX_LADDER c, 16, 12, .ro, 0⟩
/-- MX_ACCSEL — Accumulator read select (R99). -/
def MX_ACCSEL (c : Nat) : Nat := 0x1002030 + 0x10000 * c
def MX_ACCSEL_SLOT (c : Nat) : Fld := ⟨MX_ACCSEL c, 0, 4, .rw, 0⟩
def MX_ACCSEL_SRC (c : Nat) : Fld := ⟨MX_ACCSEL c, 4, 2, .rw, 0⟩
def MX_ACCSEL_RUNG (c : Nat) : Fld := ⟨MX_ACCSEL c, 8, 4, .rw, 0⟩
def MX_ACCSEL_BANK (c : Nat) : Fld := ⟨MX_ACCSEL c, 12, 1, .rw, 0⟩
def MX_ACCSEL_ROW (c : Nat) : Fld := ⟨MX_ACCSEL c, 16, 6, .rw, 0⟩
/-- MX_ACCDATA — Accumulator data (R99). -/
def MX_ACCDATA (c n : Nat) : Nat := 0x1002100 + 0x10000 * c + 0x8 * n
def MX_ACCDATA_ELEM_LO (c n : Nat) : Fld := ⟨MX_ACCDATA c n, 0, 32, .ro, 0⟩
def MX_ACCDATA_ELEM_HI (c n : Nat) : Fld := ⟨MX_ACCDATA c n, 32, 32, .ro, 0⟩
/-- GAU_CNT — Engine counters (R127). -/
def GAU_CNT (c n : Nat) : Nat := 0x1007000 + 0x10000 * c + 0x10 * (n - 1)
def GAU_CNT_SAT (c n : Nat) : Fld := ⟨GAU_CNT c n, 0, 32, .ro, 0⟩
def GAU_CNT_FLUSH (c n : Nat) : Fld := ⟨GAU_CNT c n, 32, 32, .ro, 0⟩
/-- GAU_NAN — Engine NaN counter (R127). -/
def GAU_NAN (c n : Nat) : Nat := 0x1007008 + 0x10000 * c + 0x10 * (n - 1)
def GAU_NAN_NAN (c n : Nat) : Fld := ⟨GAU_NAN c n, 0, 32, .ro, 0⟩
/-- GAU_CTL — Gauge control (R127). -/
def GAU_CTL (c : Nat) : Nat := 0x1007040 + 0x10000 * c
def GAU_CTL_CLRCNT (c : Nat) : Fld := ⟨GAU_CTL c, 0, 3, .wo, 0⟩
def GAU_CTL_CLRH (c : Nat) : Fld := ⟨GAU_CTL c, 4, 4, .wo, 0⟩
/-- GAU_WATCH — Watched stations (R127). -/
def GAU_WATCH (c : Nat) : Nat := 0x1007048 + 0x10000 * c
def GAU_WATCH_MASK (c : Nat) : Fld := ⟨GAU_WATCH c, 16, 48, .rw, 0⟩
/-- GAU_HCFG — Histogram unit binding, k = 0 to 3 (R127). -/
def GAU_HCFG (c k : Nat) : Nat := 0x1007080 + 0x10000 * c + 0x8 * k
def GAU_HCFG_EN (c k : Nat) : Fld := ⟨GAU_HCFG c k, 0, 1, .rw, 0⟩
def GAU_HCFG_STATION (c k : Nat) : Fld := ⟨GAU_HCFG c k, 8, 6, .rw, 0⟩
/-- GAU_HAUX — Histogram zeros and NaNs (R127). -/
def GAU_HAUX (c k : Nat) : Nat := 0x10070a0 + 0x10000 * c + 0x8 * k
def GAU_HAUX_ZERO (c k : Nat) : Fld := ⟨GAU_HAUX c k, 0, 32, .ro, 0⟩
def GAU_HAUX_NAN (c k : Nat) : Fld := ⟨GAU_HAUX c k, 32, 32, .ro, 0⟩
/-- GAU_HBIN — Histogram bins, m = 0 to 63 (R127). -/
def GAU_HBIN (c k m : Nat) : Nat := 0x1007400 + 0x10000 * c + 0x200 * k + 0x8 * m
def GAU_HBIN_BIN_LO (c k m : Nat) : Fld := ⟨GAU_HBIN c k m, 0, 32, .ro, 0⟩
def GAU_HBIN_BIN_HI (c k m : Nat) : Fld := ⟨GAU_HBIN c k m, 32, 32, .ro, 0⟩
/-- LS_CFG — Loss-scale configuration (R128). -/
def LS_CFG (p : Nat) : Nat := 0x10020000 + 0x1000000 * p
def LS_CFG_N (p : Nat) : Fld := ⟨LS_CFG p, 0, 16, .rw, 0x7d0⟩
def LS_CFG_LSE_MIN (p : Nat) : Fld := ⟨LS_CFG p, 16, 8, .rw, 0⟩
def LS_CFG_LSE_MAX (p : Nat) : Fld := ⟨LS_CFG p, 24, 8, .rw, 0x20⟩
def LS_CFG_LSE_INIT (p : Nat) : Fld := ⟨LS_CFG p, 32, 8, .rw, 0x10⟩
def LS_CFG_EN (p : Nat) : Fld := ⟨LS_CFG p, 40, 1, .rw, 0⟩
/-- LS_STAT — Loss-scale status (R128). -/
def LS_STAT (p : Nat) : Nat := 0x10020008 + 0x1000000 * p
def LS_STAT_LSE (p : Nat) : Fld := ⟨LS_STAT p, 0, 8, .ro, 0x10⟩
def LS_STAT_CLEAN (p : Nat) : Fld := ⟨LS_STAT p, 8, 16, .ro, 0⟩
def LS_STAT_OVF_LOCAL (p : Nat) : Fld := ⟨LS_STAT p, 24, 1, .ro, 0⟩
def LS_STAT_OVF_PEND (p : Nat) : Fld := ⟨LS_STAT p, 25, 1, .ro, 0⟩
def LS_STAT_CLOSING (p : Nat) : Fld := ⟨LS_STAT p, 26, 1, .ro, 0⟩
def LS_STAT_INCOMPLETE (p : Nat) : Fld := ⟨LS_STAT p, 27, 1, .rw1c, 0⟩
def LS_STAT_FLOOR (p : Nat) : Fld := ⟨LS_STAT p, 28, 1, .rw1c, 0⟩
def LS_STAT_MIRRORERR (p : Nat) : Fld := ⟨LS_STAT p, 29, 1, .rw1c, 0⟩
def LS_STAT_SEQ (p : Nat) : Fld := ⟨LS_STAT p, 32, 32, .ro, 0⟩
/-- LS_CTL — Loss-scale control (R128). -/
def LS_CTL (p : Nat) : Nat := 0x10020010 + 0x1000000 * p
def LS_CTL_SETLSE (p : Nat) : Fld := ⟨LS_CTL p, 0, 1, .wo, 0⟩
def LS_CTL_SETOVF (p : Nat) : Fld := ⟨LS_CTL p, 1, 1, .wo, 0⟩
def LS_CTL_EVAL (p : Nat) : Fld := ⟨LS_CTL p, 2, 1, .wo, 0⟩
def LS_CTL_VAL (p : Nat) : Fld := ⟨LS_CTL p, 8, 8, .wo, 0⟩
/-- LS_MIRROR — Mirror record (R128). -/
def LS_MIRROR (p : Nat) : Nat := 0x10020018 + 0x1000000 * p
def LS_MIRROR_EN (p : Nat) : Fld := ⟨LS_MIRROR p, 0, 1, .rw, 0⟩
def LS_MIRROR_ADDR (p : Nat) : Fld := ⟨LS_MIRROR p, 6, 42, .rw, 0⟩
/-- SR_SEED — Stochastic rounding seed (R128). -/
def SR_SEED (p : Nat) : Nat := 0x10020020 + 0x1000000 * p
def SR_SEED_SEED (p : Nat) : Fld := ⟨SR_SEED p, 0, 64, .rw, 0⟩
/-- PH_SEL — Partition histogram select (R128). -/
def PH_SEL (p : Nat) : Nat := 0x10020040 + 0x1000000 * p
def PH_SEL_UNIT (p : Nat) : Fld := ⟨PH_SEL p, 0, 2, .rw, 0⟩
/-- PH_AUX — Partition histogram zeros and NaNs (R128). -/
def PH_AUX (p : Nat) : Nat := 0x10020048 + 0x1000000 * p
def PH_AUX_ZERO (p : Nat) : Fld := ⟨PH_AUX p, 0, 32, .ro, 0⟩
def PH_AUX_NAN (p : Nat) : Fld := ⟨PH_AUX p, 32, 32, .ro, 0⟩
/-- PH_BIN — Partition histogram bins, m = 0 to 63 (R128). -/
def PH_BIN (p m : Nat) : Nat := 0x10020400 + 0x1000000 * p + 0x8 * m
def PH_BIN_BIN_LO (p m : Nat) : Fld := ⟨PH_BIN p m, 0, 32, .ro, 0⟩
def PH_BIN_BIN_HI (p m : Nat) : Fld := ⟨PH_BIN p m, 32, 32, .ro, 0⟩
/-- VX_STAT — Vector status (R148). -/
def VX_STAT (c : Nat) : Nat := 0x1003000 + 0x10000 * c
def VX_STAT_IDLE (c : Nat) : Fld := ⟨VX_STAT c, 0, 1, .ro, 1⟩
def VX_STAT_NIN (c : Nat) : Fld := ⟨VX_STAT c, 1, 3, .ro, 0⟩
def VX_STAT_NOUT (c : Nat) : Fld := ⟨VX_STAT c, 4, 2, .ro, 0⟩
def VX_STAT_COMPAT (c : Nat) : Fld := ⟨VX_STAT c, 6, 1, .ro, 0⟩
/-- SFU_SETID — Microprogram set (R148). -/
def SFU_SETID (c : Nat) : Nat := 0x1004000 + 0x10000 * c
def SFU_SETID_SETID (c : Nat) : Fld := ⟨SFU_SETID c, 0, 64, .ro, 0⟩
/-- SFU_FNMAP — Defined functions, n = 0 to 3 (R148). -/
def SFU_FNMAP (c n : Nat) : Nat := 0x1004008 + 0x10000 * c + 0x8 * n
def SFU_FNMAP_DEF (c n : Nat) : Fld := ⟨SFU_FNMAP c n, 0, 64, .ro, 0⟩
/-- SFU_EVCNT — Statistics events (R148). -/
def SFU_EVCNT (c : Nat) : Nat := 0x1004028 + 0x10000 * c
def SFU_EVCNT_NRMNEG (c : Nat) : Fld := ⟨SFU_EVCNT c, 0, 32, .rc, 0⟩
def SFU_EVCNT_SMXZERO (c : Nat) : Fld := ⟨SFU_EVCNT c, 32, 32, .rc, 0⟩
/-- SFU_CTXSEL — Context read select (R148). -/
def SFU_CTXSEL (c : Nat) : Nat := 0x1004030 + 0x10000 * c
def SFU_CTXSEL_CTX (c : Nat) : Fld := ⟨SFU_CTXSEL c, 0, 2, .rw, 0⟩
def SFU_CTXSEL_KIND (c : Nat) : Fld := ⟨SFU_CTXSEL c, 2, 1, .rw, 0⟩
def SFU_CTXSEL_QTY (c : Nat) : Fld := ⟨SFU_CTXSEL c, 3, 3, .rw, 0⟩
/-- SFU_CTXDATA — Context data, n = 0 to 31 (R148). -/
def SFU_CTXDATA (c n : Nat) : Nat := 0x1004100 + 0x10000 * c + 0x8 * n
def SFU_CTXDATA_ROW_LO (c n : Nat) : Fld := ⟨SFU_CTXDATA c n, 0, 32, .ro, 0⟩
def SFU_CTXDATA_ROW_HI (c n : Nat) : Fld := ⟨SFU_CTXDATA c n, 32, 32, .ro, 0⟩
/-- SY_FLAG — Flag, n = 0 to 255 (R174). -/
def SY_FLAG (c n : Nat) : Nat := 0x1001000 + 0x10000 * c + 0x8 * n
def SY_FLAG_VALUE (c n : Nat) : Fld := ⟨SY_FLAG c n, 0, 64, .rw, 0⟩
/-- RC_CFG — Roll call configuration, n = 0 to 31 (R174). -/
def RC_CFG (c n : Nat) : Nat := 0x1001800 + 0x10000 * c + 0x8 * n
def RC_CFG_EN (c n : Nat) : Fld := ⟨RC_CFG c n, 0, 1, .rw, 0⟩
def RC_CFG_MEMBER (c n : Nat) : Fld := ⟨RC_CFG c n, 1, 1, .rw, 0⟩
def RC_CFG_SCOPE (c n : Nat) : Fld := ⟨RC_CFG c n, 2, 3, .rw, 0⟩
def RC_CFG_HDEV (c n : Nat) : Fld := ⟨RC_CFG c n, 8, 20, .rw, 0⟩
def RC_CFG_HCORE (c n : Nat) : Fld := ⟨RC_CFG c n, 28, 8, .rw, 0⟩
def RC_CFG_EXPECT (c n : Nat) : Fld := ⟨RC_CFG c n, 36, 28, .rw, 0⟩
/-- RC_NET — Roll call stream and watchdog (R174). -/
def RC_NET (c n : Nat) : Nat := 0x1001900 + 0x10000 * c + 0x8 * n
def RC_NET_STREAM (c n : Nat) : Fld := ⟨RC_NET c n, 0, 17, .rw, 0⟩
def RC_NET_WDLIM (c n : Nat) : Fld := ⟨RC_NET c n, 32, 31, .rw, 0⟩
def RC_NET_WDFENCE (c n : Nat) : Fld := ⟨RC_NET c n, 63, 1, .rw, 0⟩
/-- RC_STAT — Roll call status (R174). -/
def RC_STAT (c n : Nat) : Nat := 0x1001a00 + 0x10000 * c + 0x8 * n
def RC_STAT_GEN (c n : Nat) : Fld := ⟨RC_STAT c n, 0, 32, .ro, 0⟩
def RC_STAT_COUNT (c n : Nat) : Fld := ⟨RC_STAT c n, 32, 28, .ro, 0⟩
def RC_STAT_ARRIVED (c n : Nat) : Fld := ⟨RC_STAT c n, 60, 1, .ro, 0⟩
def RC_STAT_WDFIRED (c n : Nat) : Fld := ⟨RC_STAT c n, 61, 1, .rw1c, 0⟩
def RC_STAT_OVER (c n : Nat) : Fld := ⟨RC_STAT c n, 62, 1, .rw1c, 0⟩
/-- RC_CTL — Roll call hand control (R174). -/
def RC_CTL (c : Nat) : Nat := 0x1001b00 + 0x10000 * c
def RC_CTL_OBJ (c : Nat) : Fld := ⟨RC_CTL c, 0, 5, .wo, 0⟩
def RC_CTL_OP (c : Nat) : Fld := ⟨RC_CTL c, 8, 2, .wo, 0⟩
/-- HP — Hall pass record, n = 0 to 63 (R174). -/
def HP (c n : Nat) : Nat := 0x1001c00 + 0x10000 * c + 0x8 * n
def HP_HELD (c n : Nat) : Fld := ⟨HP c n, 0, 1, .ro, 0⟩
def HP_ORPHANED (c n : Nat) : Fld := ⟨HP c n, 1, 1, .ro, 0⟩
def HP_OWNER (c n : Nat) : Fld := ⟨HP c n, 8, 8, .ro, 0⟩
def HP_OEPOCH (c n : Nat) : Fld := ⟨HP c n, 16, 32, .ro, 0⟩
def HP_WAITERS (c n : Nat) : Fld := ⟨HP c n, 48, 8, .ro, 0⟩
/-- HP_CTL — Hall pass hand control (R174). -/
def HP_CTL (c : Nat) : Nat := 0x1001e00 + 0x10000 * c
def HP_CTL_OBJ (c : Nat) : Fld := ⟨HP_CTL c, 0, 6, .wo, 0⟩
def HP_CTL_OP (c : Nat) : Fld := ⟨HP_CTL c, 8, 2, .wo, 0⟩
/-- SY_WDCFG — Core watchdog (R174). -/
def SY_WDCFG (c : Nat) : Nat := 0x1001e08 + 0x10000 * c
def SY_WDCFG_LIMIT (c : Nat) : Fld := ⟨SY_WDCFG c, 0, 40, .rw, 0xee6b2800⟩
def SY_WDCFG_FENCE (c : Nat) : Fld := ⟨SY_WDCFG c, 40, 1, .rw, 0⟩
/-- SY_WDSTAT — Watchdog status (R174). -/
def SY_WDSTAT (c : Nat) : Nat := 0x1001e10 + 0x10000 * c
def SY_WDSTAT_FIRED (c : Nat) : Fld := ⟨SY_WDSTAT c, 0, 4, .rw1c, 0⟩
def SY_WDSTAT_STALLING (c : Nat) : Fld := ⟨SY_WDSTAT c, 4, 4, .ro, 0⟩
/-- SY_EPOCH — Core epoch (R174). -/
def SY_EPOCH (c : Nat) : Nat := 0x1001e18 + 0x10000 * c
def SY_EPOCH_EPOCH (c : Nat) : Fld := ⟨SY_EPOCH c, 0, 32, .ro, 0⟩
/-- DMA_STAT — DMA status (R190). -/
def DMA_STAT (c : Nat) : Nat := 0x1005000 + 0x10000 * c
def DMA_STAT_IDLE (c : Nat) : Fld := ⟨DMA_STAT c, 0, 1, .ro, 1⟩
def DMA_STAT_INFLIGHT (c : Nat) : Fld := ⟨DMA_STAT c, 1, 5, .ro, 0⟩
/-- DMA_FRAGCNT — Fragment failures (R190). -/
def DMA_FRAGCNT (c : Nat) : Nat := 0x1005008 + 0x10000 * c
def DMA_FRAGCNT_FAILED (c : Nat) : Fld := ⟨DMA_FRAGCNT c, 0, 32, .rc, 0⟩
def DMA_FRAGCNT_NOPUSH (c : Nat) : Fld := ⟨DMA_FRAGCNT c, 32, 32, .rc, 0⟩
/-- SPW_IN — Spillway tile bytes (R190). -/
def SPW_IN (c : Nat) : Nat := 0x1006000 + 0x10000 * c
def SPW_IN_BYTES (c : Nat) : Fld := ⟨SPW_IN c, 0, 64, .ro, 0⟩
/-- SPW_OUT — Spillway record bytes (R190). -/
def SPW_OUT (c : Nat) : Nat := 0x1006008 + 0x10000 * c
def SPW_OUT_BYTES (c : Nat) : Fld := ⟨SPW_OUT c, 0, 64, .ro, 0⟩
/-- SPW_RAWROW — Raw rows (R190). -/
def SPW_RAWROW (c : Nat) : Nat := 0x1006010 + 0x10000 * c
def SPW_RAWROW_RAW (c : Nat) : Fld := ⟨SPW_RAWROW c, 0, 32, .rc, 0⟩
def SPW_RAWROW_BADREC (c : Nat) : Fld := ⟨SPW_RAWROW c, 32, 32, .rc, 0⟩
/-- SPW_POS — Save position (R190). -/
def SPW_POS (c : Nat) : Nat := 0x1006018 + 0x10000 * c
def SPW_POS_POS (c : Nat) : Fld := ⟨SPW_POS c, 0, 40, .ro, 0⟩
/-- HBM_STAT — Stack status (R212). -/
def HBM_STAT (k : Nat) : Nat := 0x400000 + 0x10000 * k
def HBM_STAT_STATE (k : Nat) : Fld := ⟨HBM_STAT k, 0, 3, .ro, 0⟩
def HBM_STAT_THROT (k : Nat) : Fld := ⟨HBM_STAT k, 3, 1, .ro, 0⟩
def HBM_STAT_LEVEL (k : Nat) : Fld := ⟨HBM_STAT k, 4, 4, .ro, 8⟩
def HBM_STAT_TEMP (k : Nat) : Fld := ⟨HBM_STAT k, 8, 8, .ro, 0⟩
def HBM_STAT_LANEREP (k : Nat) : Fld := ⟨HBM_STAT k, 16, 8, .ro, 0⟩
/-- HBM_THERM — Throttle thresholds (R212). -/
def HBM_THERM (k : Nat) : Nat := 0x400008 + 0x10000 * k
def HBM_THERM_THROT_T (k : Nat) : Fld := ⟨HBM_THERM k, 0, 8, .rw, 0x5f⟩
def HBM_THERM_HYST (k : Nat) : Fld := ⟨HBM_THERM k, 8, 4, .rw, 3⟩
/-- HBM_ECCCNT — Corrections (R212). -/
def HBM_ECCCNT (k : Nat) : Nat := 0x400010 + 0x10000 * k
def HBM_ECCCNT_CE1 (k : Nat) : Fld := ⟨HBM_ECCCNT k, 0, 32, .rc, 0⟩
def HBM_ECCCNT_CE2 (k : Nat) : Fld := ⟨HBM_ECCCNT k, 32, 32, .rc, 0⟩
/-- HBM_UECNT — Uncorrectable and poison (R212). -/
def HBM_UECNT (k : Nat) : Nat := 0x400018 + 0x10000 * k
def HBM_UECNT_UE (k : Nat) : Fld := ⟨HBM_UECNT k, 0, 32, .rc, 0⟩
def HBM_UECNT_PRD (k : Nat) : Fld := ⟨HBM_UECNT k, 32, 16, .rc, 0⟩
def HBM_UECNT_QDROP (k : Nat) : Fld := ⟨HBM_UECNT k, 48, 16, .rc, 0⟩
/-- HBM_REFCNT — Refresh delays (R212). -/
def HBM_REFCNT (k : Nat) : Nat := 0x400020 + 0x10000 * k
def HBM_REFCNT_REFWAIT (k : Nat) : Fld := ⟨HBM_REFCNT k, 0, 32, .rc, 0⟩
def HBM_REFCNT_MRMW (k : Nat) : Fld := ⟨HBM_REFCNT k, 32, 32, .rc, 0⟩
/-- HBM_HOTCFG — Hot-spot window (R212). -/
def HBM_HOTCFG (k : Nat) : Nat := 0x400028 + 0x10000 * k
def HBM_HOTCFG_WINDOW (k : Nat) : Fld := ⟨HBM_HOTCFG k, 0, 32, .rw, 0x989680⟩
def HBM_HOTCFG_HOTPCT (k : Nat) : Fld := ⟨HBM_HOTCFG k, 32, 8, .rw, 0x10⟩
/-- HBM_HOT — Hot-spot counter, n = 32 × pch + channel (R212). -/
def HBM_HOT (k n : Nat) : Nat := 0x401000 + 0x10000 * k + 0x8 * n
def HBM_HOT_SECT (k n : Nat) : Fld := ⟨HBM_HOT k n, 0, 40, .ro, 0⟩
def HBM_HOT_HOT (k n : Nat) : Fld := ⟨HBM_HOT k n, 40, 1, .ro, 0⟩
/-- SCR_BASE — Scrub start (R212). -/
def SCR_BASE (k : Nat) : Nat := 0x404000 + 0x10000 * k
def SCR_BASE_BASE (k : Nat) : Fld := ⟨SCR_BASE k, 5, 35, .rw, 0⟩
/-- SCR_LEN — Scrub length (R212). -/
def SCR_LEN (k : Nat) : Nat := 0x404008 + 0x10000 * k
def SCR_LEN_LEN (k : Nat) : Fld := ⟨SCR_LEN k, 0, 35, .rw, 0⟩
/-- SCR_CTL — Scrub control (R212). -/
def SCR_CTL (k : Nat) : Nat := 0x404010 + 0x10000 * k
def SCR_CTL_START (k : Nat) : Fld := ⟨SCR_CTL k, 0, 1, .wo, 0⟩
def SCR_CTL_ABORT (k : Nat) : Fld := ⟨SCR_CTL k, 1, 1, .wo, 0⟩
def SCR_CTL_WB (k : Nat) : Fld := ⟨SCR_CTL k, 2, 1, .rw, 1⟩
def SCR_CTL_LOCAL (k : Nat) : Fld := ⟨SCR_CTL k, 3, 1, .rw, 0⟩
def SCR_CTL_RATE (k : Nat) : Fld := ⟨SCR_CTL k, 8, 8, .rw, 4⟩
/-- SCR_STAT — Scrub status (R212). -/
def SCR_STAT (k : Nat) : Nat := 0x404018 + 0x10000 * k
def SCR_STAT_RUN (k : Nat) : Fld := ⟨SCR_STAT k, 0, 1, .ro, 0⟩
def SCR_STAT_DONE (k : Nat) : Fld := ⟨SCR_STAT k, 1, 1, .ro, 0⟩
def SCR_STAT_ABORTED (k : Nat) : Fld := ⟨SCR_STAT k, 2, 1, .ro, 0⟩
/-- SCR_SUM0 — Scrub summary, reads (R212). -/
def SCR_SUM0 (k : Nat) : Nat := 0x404020 + 0x10000 * k
def SCR_SUM0_READ (k : Nat) : Fld := ⟨SCR_SUM0 k, 0, 40, .ro, 0⟩
/-- SCR_SUM1 — Scrub summary, outcomes (R212). -/
def SCR_SUM1 (k : Nat) : Nat := 0x404028 + 0x10000 * k
def SCR_SUM1_CORR (k : Nat) : Fld := ⟨SCR_SUM1 k, 0, 24, .ro, 0⟩
def SCR_SUM1_UNCORR (k : Nat) : Fld := ⟨SCR_SUM1 k, 24, 20, .ro, 0⟩
def SCR_SUM1_POIS (k : Nat) : Fld := ⟨SCR_SUM1 k, 44, 20, .ro, 0⟩
/-- TG_CTL — Generator control, channel c (R212). -/
def TG_CTL (k c : Nat) : Nat := 0x408000 + 0x10000 * k + 0x100 * c
def TG_CTL_START (k c : Nat) : Fld := ⟨TG_CTL k c, 0, 1, .wo, 0⟩
def TG_CTL_STOP (k c : Nat) : Fld := ⟨TG_CTL k c, 1, 1, .wo, 0⟩
def TG_CTL_MODE (k c : Nat) : Fld := ⟨TG_CTL k c, 2, 4, .rw, 0⟩
def TG_CTL_PAT (k c : Nat) : Fld := ⟨TG_CTL k c, 6, 3, .rw, 0⟩
def TG_CTL_SCOPE (k c : Nat) : Fld := ⟨TG_CTL k c, 9, 1, .rw, 0⟩
def TG_CTL_RATE (k c : Nat) : Fld := ⟨TG_CTL k c, 10, 8, .rw, 0x10⟩
/-- TG_CNT — Run length (R212). -/
def TG_CNT (k c : Nat) : Nat := 0x408008 + 0x10000 * k + 0x100 * c
def TG_CNT_SECT (k c : Nat) : Fld := ⟨TG_CNT k c, 0, 40, .rw, 0⟩
/-- TG_SEED — Pattern seed (R212). -/
def TG_SEED (k c : Nat) : Nat := 0x408010 + 0x10000 * k + 0x100 * c
def TG_SEED_SEED (k c : Nat) : Fld := ⟨TG_SEED k c, 0, 31, .rw, 1⟩
/-- TG_STAT — Generator status (R212). -/
def TG_STAT (k c : Nat) : Nat := 0x408018 + 0x10000 * k + 0x100 * c
def TG_STAT_RUN (k c : Nat) : Fld := ⟨TG_STAT k c, 0, 1, .ro, 0⟩
def TG_STAT_REFUSED (k c : Nat) : Fld := ⟨TG_STAT k c, 1, 1, .rw1c, 0⟩
def TG_STAT_FAILS (k c : Nat) : Fld := ⟨TG_STAT k c, 32, 32, .ro, 0⟩
/-- TG_FAIL — First mismatch (R212). -/
def TG_FAIL (k c : Nat) : Nat := 0x408020 + 0x10000 * k + 0x100 * c
def TG_FAIL_L (k c : Nat) : Fld := ⟨TG_FAIL k c, 0, 25, .ro, 0⟩
def TG_FAIL_PCH (k c : Nat) : Fld := ⟨TG_FAIL k c, 25, 1, .ro, 0⟩
def TG_FAIL_VALID (k c : Nat) : Fld := ⟨TG_FAIL k c, 26, 1, .ro, 0⟩
/-- HBM_SEED — Hash seed, partition p = 0 to 7 (R212). -/
def HBM_SEED (p : Nat) : Nat := 0x40f000 + 0x8 * p
def HBM_SEED_SEED (p : Nat) : Fld := ⟨HBM_SEED p, 0, 25, .ro, 0⟩
/-- HBM_REHASH — Seed change (R212). -/
def HBM_REHASH : Nat := 0x40f040
def HBM_REHASH_NEWSEED : Fld := ⟨HBM_REHASH, 0, 25, .rw, 0⟩
def HBM_REHASH_PART : Fld := ⟨HBM_REHASH, 25, 3, .rw, 0⟩
def HBM_REHASH_GO : Fld := ⟨HBM_REHASH, 28, 1, .wo, 0⟩
def HBM_REHASH_BUSY : Fld := ⟨HBM_REHASH, 29, 1, .ro, 0⟩
/-- LNK_CTL — Link control (R235). -/
def LNK_CTL (l : Nat) : Nat := 0x600000 + 0x4000 * l
def LNK_CTL_EN (l : Nat) : Fld := ⟨LNK_CTL l, 0, 1, .rw, 0⟩
def LNK_CTL_RETRAIN (l : Nat) : Fld := ⟨LNK_CTL l, 1, 1, .wo, 0⟩
def LNK_CTL_RESET (l : Nat) : Fld := ⟨LNK_CTL l, 2, 1, .wo, 0⟩
def LNK_CTL_READMIT (l : Nat) : Fld := ⟨LNK_CTL l, 3, 1, .wo, 0⟩
def LNK_CTL_AUTORD (l : Nat) : Fld := ⟨LNK_CTL l, 4, 1, .rw, 0⟩
def LNK_CTL_LANEOK (l : Nat) : Fld := ⟨LNK_CTL l, 8, 4, .rw, 0xf⟩
def LNK_CTL_NAKMAX (l : Nat) : Fld := ⟨LNK_CTL l, 16, 8, .rw, 8⟩
def LNK_CTL_NAKTMO (l : Nat) : Fld := ⟨LNK_CTL l, 24, 8, .rw, 0x10⟩
def LNK_CTL_LOSPAUSE (l : Nat) : Fld := ⟨LNK_CTL l, 32, 16, .rw, 0xfa⟩
/-- LNK_STAT — Link status (R235). -/
def LNK_STAT (l : Nat) : Nat := 0x600008 + 0x4000 * l
def LNK_STAT_STATE (l : Nat) : Fld := ⟨LNK_STAT l, 0, 4, .ro, 0⟩
def LNK_STAT_TXLANES (l : Nat) : Fld := ⟨LNK_STAT l, 4, 4, .ro, 0⟩
def LNK_STAT_RXLANES (l : Nat) : Fld := ⟨LNK_STAT l, 8, 4, .ro, 0⟩
def LNK_STAT_NQUIET (l : Nat) : Fld := ⟨LNK_STAT l, 12, 1, .ro, 0⟩
def LNK_STAT_MISWIRED (l : Nat) : Fld := ⟨LNK_STAT l, 13, 1, .ro, 0⟩
def LNK_STAT_FEED (l : Nat) : Fld := ⟨LNK_STAT l, 14, 2, .ro, 2⟩
/-- LNK_EXPECT — Expected neighbour (R235). -/
def LNK_EXPECT (l : Nat) : Nat := 0x600010 + 0x4000 * l
def LNK_EXPECT_DEV (l : Nat) : Fld := ⟨LNK_EXPECT l, 0, 20, .rw, 0⟩
def LNK_EXPECT_LINK (l : Nat) : Fld := ⟨LNK_EXPECT l, 20, 5, .rw, 0⟩
def LNK_EXPECT_VALID (l : Nat) : Fld := ⟨LNK_EXPECT l, 25, 1, .rw, 0⟩
/-- LNK_NBR — Discovered neighbour (R235). -/
def LNK_NBR (l : Nat) : Nat := 0x600018 + 0x4000 * l
def LNK_NBR_DEV (l : Nat) : Fld := ⟨LNK_NBR l, 0, 20, .ro, 0⟩
def LNK_NBR_LINK (l : Nat) : Fld := ⟨LNK_NBR l, 20, 5, .ro, 0⟩
def LNK_NBR_CAPLANES (l : Nat) : Fld := ⟨LNK_NBR l, 25, 4, .ro, 0⟩
def LNK_NBR_VALID (l : Nat) : Fld := ⟨LNK_NBR l, 29, 1, .ro, 0⟩
def LNK_NBR_TCOUNT (l : Nat) : Fld := ⟨LNK_NBR l, 30, 16, .ro, 0⟩
/-- LNK_TIMECFG — Time exchange configuration (R235). -/
def LNK_TIMECFG (l : Nat) : Nat := 0x600020 + 0x4000 * l
def LNK_TIMECFG_ASYM (l : Nat) : Fld := ⟨LNK_TIMECFG l, 0, 16, .rw, 0⟩
def LNK_TIMECFG_TEN (l : Nat) : Fld := ⟨LNK_TIMECFG l, 16, 1, .rw, 1⟩
def LNK_TIMECFG_TINT (l : Nat) : Fld := ⟨LNK_TIMECFG l, 32, 16, .rw, 0xfa⟩
/-- LNK_TIME — Last exchange (R235). -/
def LNK_TIME (l : Nat) : Nat := 0x600028 + 0x4000 * l
def LNK_TIME_OFFSET (l : Nat) : Fld := ⟨LNK_TIME l, 0, 32, .ro, 0⟩
def LNK_TIME_DELAY (l : Nat) : Fld := ⟨LNK_TIME l, 32, 32, .ro, 0⟩
/-- LNK_TSEQ — Exchange counts (R235). -/
def LNK_TSEQ (l : Nat) : Nat := 0x600030 + 0x4000 * l
def LNK_TSEQ_TDONE (l : Nat) : Fld := ⟨LNK_TSEQ l, 0, 32, .ro, 0⟩
def LNK_TSEQ_TDISC (l : Nat) : Fld := ⟨LNK_TSEQ l, 32, 32, .rc, 0⟩
/-- LNK_FECCNT — FEC counts (R235). -/
def LNK_FECCNT (l : Nat) : Nat := 0x600038 + 0x4000 * l
def LNK_FECCNT_CSYM (l : Nat) : Fld := ⟨LNK_FECCNT l, 0, 40, .rc, 0⟩
def LNK_FECCNT_UNCW (l : Nat) : Fld := ⟨LNK_FECCNT l, 40, 24, .rc, 0⟩
/-- LNK_RETRYCNT — Retry counts (R235). -/
def LNK_RETRYCNT (l : Nat) : Nat := 0x600040 + 0x4000 * l
def LNK_RETRYCNT_BADFLIT (l : Nat) : Fld := ⟨LNK_RETRYCNT l, 0, 24, .rc, 0⟩
def LNK_RETRYCNT_NAKTX (l : Nat) : Fld := ⟨LNK_RETRYCNT l, 24, 20, .rc, 0⟩
def LNK_RETRYCNT_NAKRX (l : Nat) : Fld := ⟨LNK_RETRYCNT l, 44, 20, .rc, 0⟩
/-- LNK_EVCNT — Link events (R235). -/
def LNK_EVCNT (l : Nat) : Nat := 0x600048 + 0x4000 * l
def LNK_EVCNT_DEGRADE (l : Nat) : Fld := ⟨LNK_EVCNT l, 0, 16, .rc, 0⟩
def LNK_EVCNT_RETRAINS (l : Nat) : Fld := ⟨LNK_EVCNT l, 16, 16, .rc, 0⟩
def LNK_EVCNT_PAUSES (l : Nat) : Fld := ⟨LNK_EVCNT l, 32, 16, .rc, 0⟩
def LNK_EVCNT_DOWNS (l : Nat) : Fld := ⟨LNK_EVCNT l, 48, 16, .rc, 0⟩
/-- LNK_RXBODY — Received body bytes (R235). -/
def LNK_RXBODY (l : Nat) : Nat := 0x600050 + 0x4000 * l
def LNK_RXBODY_BYTES (l : Nat) : Fld := ⟨LNK_RXBODY l, 0, 64, .ro, 0⟩
/-- LNK_LANE — Receive lane k, k = 0 to 3 (R235). -/
def LNK_LANE (l k : Nat) : Nat := 0x600100 + 0x4000 * l + 0x8 * k
def LNK_LANE_RXPWR (l k : Nat) : Fld := ⟨LNK_LANE l k, 0, 16, .ro, 0⟩
def LNK_LANE_ACTIVE (l k : Nat) : Fld := ⟨LNK_LANE l k, 16, 1, .ro, 0⟩
def LNK_LANE_FAILED (l k : Nat) : Fld := ⟨LNK_LANE l k, 17, 1, .ro, 0⟩
def LNK_LANE_SYMERR (l k : Nat) : Fld := ⟨LNK_LANE l k, 32, 32, .rc, 0⟩
/-- RTE_ID — Device ID (R253). -/
def RTE_ID : Nat := 0x700000
def RTE_ID_DEV : Fld := ⟨RTE_ID, 0, 20, .rw, 0⟩
def RTE_ID_VALID : Fld := ⟨RTE_ID, 20, 1, .rw, 0⟩
/-- RTE_CTL — Routing control (R253). -/
def RTE_CTL : Nat := 0x700008
def RTE_CTL_BANK : Fld := ⟨RTE_CTL, 0, 1, .ro, 0⟩
def RTE_CTL_ADAPT : Fld := ⟨RTE_CTL, 1, 1, .rw, 1⟩
def RTE_CTL_SHAPE : Fld := ⟨RTE_CTL, 2, 1, .rw, 0⟩
def RTE_CTL_NMTHR : Fld := ⟨RTE_CTL, 8, 8, .rw, 0x20⟩
/-- RTE_SWAPAT — Swap time (R253). -/
def RTE_SWAPAT : Nat := 0x700010
def RTE_SWAPAT_T : Fld := ⟨RTE_SWAPAT, 0, 64, .rw, 0⟩
/-- RTE_RESHAPE — Reshape control (R253). -/
def RTE_RESHAPE : Nat := 0x700018
def RTE_RESHAPE_LINKS : Fld := ⟨RTE_RESHAPE, 0, 32, .rw, 0⟩
def RTE_RESHAPE_DRAIN : Fld := ⟨RTE_RESHAPE, 32, 16, .rw, 0xc8⟩
def RTE_RESHAPE_ARM : Fld := ⟨RTE_RESHAPE, 48, 1, .wo, 0⟩
def RTE_RESHAPE_ARMED : Fld := ⟨RTE_RESHAPE, 49, 1, .ro, 0⟩
def RTE_RESHAPE_DONE : Fld := ⟨RTE_RESHAPE, 50, 1, .rw1c, 0⟩
def RTE_RESHAPE_CANCEL : Fld := ⟨RTE_RESHAPE, 51, 1, .wo, 0⟩
/-- RTE_TELCFG — Telemetry (R253). -/
def RTE_TELCFG : Nat := 0x700020
def RTE_TELCFG_EN : Fld := ⟨RTE_TELCFG, 0, 1, .rw, 0⟩
def RTE_TELCFG_RINGLOG : Fld := ⟨RTE_TELCFG, 1, 5, .rw, 0xc⟩
def RTE_TELCFG_INTERVAL : Fld := ⟨RTE_TELCFG, 16, 32, .rw, 0x28⟩
def RTE_TELCFG_TELDROP : Fld := ⟨RTE_TELCFG, 48, 16, .rc, 0⟩
/-- RTE_TELBASE — Telemetry ring base (R253). -/
def RTE_TELBASE : Nat := 0x700028
def RTE_TELBASE_BASE : Fld := ⟨RTE_TELBASE, 12, 52, .rw, 0⟩
/-- RTE_TELPTR — Telemetry ring pointers (R253). -/
def RTE_TELPTR : Nat := 0x700030
def RTE_TELPTR_TAIL : Fld := ⟨RTE_TELPTR, 0, 32, .ro, 0⟩
def RTE_TELPTR_HEAD : Fld := ⟨RTE_TELPTR, 32, 32, .rw, 0⟩
/-- RTE_DROPCNT — Router discards (R253). -/
def RTE_DROPCNT : Nat := 0x700038
def RTE_DROPCNT_NOROUTE : Fld := ⟨RTE_DROPCNT, 0, 16, .rc, 0⟩
def RTE_DROPCNT_LATE : Fld := ⟨RTE_DROPCNT, 16, 16, .rc, 0⟩
def RTE_DROPCNT_BADPKT : Fld := ⟨RTE_DROPCNT, 32, 16, .rc, 0⟩
def RTE_DROPCNT_BADCTX : Fld := ⟨RTE_DROPCNT, 48, 16, .rc, 0⟩
/-- RTE_GRP — Group route, bank b, group n (R253). -/
def RTE_GRP (b n : Nat) : Nat := 0x701000 + 0x1000 * b + 0x8 * n
def RTE_GRP_L0 (b n : Nat) : Fld := ⟨RTE_GRP b n, 0, 6, .rw, 0⟩
def RTE_GRP_K0 (b n : Nat) : Fld := ⟨RTE_GRP b n, 6, 4, .rw, 0⟩
def RTE_GRP_V0 (b n : Nat) : Fld := ⟨RTE_GRP b n, 10, 1, .rw, 0⟩
def RTE_GRP_L1 (b n : Nat) : Fld := ⟨RTE_GRP b n, 16, 6, .rw, 0⟩
def RTE_GRP_K1 (b n : Nat) : Fld := ⟨RTE_GRP b n, 22, 4, .rw, 0⟩
def RTE_GRP_V1 (b n : Nat) : Fld := ⟨RTE_GRP b n, 26, 1, .rw, 0⟩
def RTE_GRP_ALT0 (b n : Nat) : Fld := ⟨RTE_GRP b n, 32, 9, .rw, 0⟩
def RTE_GRP_ALT1 (b n : Nat) : Fld := ⟨RTE_GRP b n, 41, 9, .rw, 0⟩
def RTE_GRP_AV (b n : Nat) : Fld := ⟨RTE_GRP b n, 50, 1, .rw, 0⟩
/-- RTE_POD — Pod route, bank b, pod n (R253). -/
def RTE_POD (b n : Nat) : Nat := 0x703000 + 0x100 * b + 0x8 * n
def RTE_POD_G0 (b n : Nat) : Fld := ⟨RTE_POD b n, 0, 12, .rw, 0⟩
def RTE_POD_G1 (b n : Nat) : Fld := ⟨RTE_POD b n, 12, 12, .rw, 0⟩
def RTE_POD_G2 (b n : Nat) : Fld := ⟨RTE_POD b n, 24, 12, .rw, 0⟩
def RTE_POD_G3 (b n : Nat) : Fld := ⟨RTE_POD b n, 36, 12, .rw, 0⟩
def RTE_POD_ALT (b n : Nat) : Fld := ⟨RTE_POD b n, 48, 9, .rw, 0⟩
def RTE_POD_AV (b n : Nat) : Fld := ⟨RTE_POD b n, 57, 1, .rw, 0⟩
/-- RTE_OCC — Port occupancy, link n (R253). -/
def RTE_OCC (n : Nat) : Nat := 0x704000 + 0x8 * n
def RTE_OCC_VC (n : Nat) : Fld := ⟨RTE_OCC n, 0, 64, .ro, 0⟩
/-- STM_SEL — Context select (R253). -/
def STM_SEL : Nat := 0x780000
def STM_SEL_CTX : Fld := ⟨STM_SEL, 0, 17, .rw, 0⟩
/-- STM_CFG — Context configuration (R253). -/
def STM_CFG : Nat := 0x780008
def STM_CFG_FDEV : Fld := ⟨STM_CFG, 0, 20, .rw, 0⟩
def STM_CFG_FCTX : Fld := ⟨STM_CFG, 20, 17, .rw, 0⟩
def STM_CFG_PART : Fld := ⟨STM_CFG, 37, 3, .rw, 0⟩
def STM_CFG_GCM : Fld := ⟨STM_CFG, 40, 1, .rw, 0⟩
/-- STM_STAT — Context status (R253). -/
def STM_STAT : Nat := 0x780010
def STM_STAT_STATE : Fld := ⟨STM_STAT, 0, 2, .ro, 0⟩
def STM_STAT_CONFIRMB : Fld := ⟨STM_STAT, 32, 32, .ro, 0⟩
/-- STM_SEQ — Context sequence (R253). -/
def STM_SEQ : Nat := 0x780018
def STM_SEQ_N : Fld := ⟨STM_SEQ, 0, 32, .ro, 0⟩
def STM_SEQ_B : Fld := ⟨STM_SEQ, 32, 32, .ro, 0⟩
/-- STM_CNT — Context counts (R253). -/
def STM_CNT : Nat := 0x780020
def STM_CNT_RETX : Fld := ⟨STM_CNT, 0, 24, .rc, 0⟩
def STM_CNT_DUPS : Fld := ⟨STM_CNT, 24, 24, .rc, 0⟩
def STM_CNT_OUTWIN : Fld := ⟨STM_CNT, 48, 16, .rc, 0⟩
/-- STM_CTL — Context control (R253). -/
def STM_CTL : Nat := 0x780028
def STM_CTL_OP : Fld := ⟨STM_CTL, 0, 2, .wo, 0⟩
/-- STM_TIME — Stream timing (R253). -/
def STM_TIME : Nat := 0x780030
def STM_TIME_TMO : Fld := ⟨STM_TIME, 0, 16, .rw, 0xa0⟩
def STM_TIME_LIFE : Fld := ⟨STM_TIME, 16, 16, .rw, 0x320⟩
def STM_TIME_ACKWAIT : Fld := ⟨STM_TIME, 32, 16, .rw, 0x50⟩
/-- STM_DEVCNT — Device stream counts (R253). -/
def STM_DEVCNT : Nat := 0x780038
def STM_DEVCNT_FAILS : Fld := ⟨STM_DEVCNT, 0, 32, .rc, 0⟩
def STM_DEVCNT_UNDELIV : Fld := ⟨STM_DEVCNT, 32, 32, .rc, 0⟩
/-- STM_BOARD — Board stream, partition p, device d (R253). -/
def STM_BOARD (p d : Nat) : Nat := 0x780100 + 0x40 * p + 0x8 * d
def STM_BOARD_CTX (p d : Nat) : Fld := ⟨STM_BOARD p d, 0, 17, .rw, 0⟩
def STM_BOARD_V (p d : Nat) : Fld := ⟨STM_BOARD p d, 17, 1, .rw, 0⟩
/-- CF_STAT — Engine status (R279). -/
def CF_STAT (e : Nat) : Nat := 0x800000 + 0x40000 * e
def CF_STAT_ARMED (e : Nat) : Fld := ⟨CF_STAT e, 0, 6, .ro, 0⟩
def CF_STAT_RUNNING (e : Nat) : Fld := ⟨CF_STAT e, 6, 6, .ro, 0⟩
/-- CF_TIME — Watchdogs (R279). -/
def CF_TIME (e : Nat) : Nat := 0x800008 + 0x40000 * e
def CF_TIME_HOPTMO (e : Nat) : Fld := ⟨CF_TIME e, 0, 32, .rw, 0x3b9aca⟩
def CF_TIME_CWD (e : Nat) : Fld := ⟨CF_TIME e, 32, 32, .rw, 0x2540be4⟩
/-- CF_CNT — Endings (R279). -/
def CF_CNT (e : Nat) : Nat := 0x800010 + 0x40000 * e
def CF_CNT_DONE (e : Nat) : Fld := ⟨CF_CNT e, 0, 32, .ro, 0⟩
def CF_CNT_BYPASS (e : Nat) : Fld := ⟨CF_CNT e, 32, 16, .rc, 0⟩
def CF_CNT_FAILS (e : Nat) : Fld := ⟨CF_CNT e, 48, 16, .rc, 0⟩
/-- CF_NUMCNT — Local conversions (R279). -/
def CF_NUMCNT (e : Nat) : Nat := 0x800018 + 0x40000 * e
def CF_NUMCNT_FLUSH (e : Nat) : Fld := ⟨CF_NUMCNT e, 0, 32, .rc, 0⟩
def CF_NUMCNT_WOVF (e : Nat) : Fld := ⟨CF_NUMCNT e, 32, 32, .rc, 0⟩
/-- CF_PLANCFG — Plan, k = 0 to 7 (R279). -/
def CF_PLANCFG (e k : Nat) : Nat := 0x800100 + 0x40000 * e + 0x8 * k
def CF_PLANCFG_PART (e k : Nat) : Fld := ⟨CF_PLANCFG e k, 0, 3, .rw, 0⟩
def CF_PLANCFG_V (e k : Nat) : Fld := ⟨CF_PLANCFG e k, 3, 1, .rw, 0⟩
def CF_PLANCFG_NLEV (e k : Nat) : Fld := ⟨CF_PLANCFG e k, 4, 2, .rw, 0⟩
/-- CF_LVL — Level, l = 0 to 3 (R279). -/
def CF_LVL (e k l : Nat) : Nat := 0x800800 + 0x40000 * e + 0x20 * k + 0x8 * l
def CF_LVL_N (e k l : Nat) : Fld := ⟨CF_LVL e k l, 0, 20, .rw, 0⟩
def CF_LVL_NRING (e k l : Nat) : Fld := ⟨CF_LVL e k l, 20, 5, .rw, 0⟩
/-- CF_RINGA — Ring streams, r = 0 to 15 (R279). -/
def CF_RINGA (e k l r : Nat) : Nat := 0x801000 + 0x40000 * e + 0x400 * k + 0x100 * l + 0x10 * r
def CF_RINGA_NEXT (e k l r : Nat) : Fld := ⟨CF_RINGA e k l r, 0, 17, .rw, 0⟩
def CF_RINGA_BYP (e k l r : Nat) : Fld := ⟨CF_RINGA e k l r, 17, 17, .rw, 0⟩
def CF_RINGA_V (e k l r : Nat) : Fld := ⟨CF_RINGA e k l r, 34, 1, .rw, 0⟩
/-- CF_RINGB — Ring positions (R279). -/
def CF_RINGB (e k l r : Nat) : Nat := 0x801008 + 0x40000 * e + 0x400 * k + 0x100 * l + 0x10 * r
def CF_RINGB_POS (e k l r : Nat) : Fld := ⟨CF_RINGB e k l r, 0, 20, .rw, 0⟩
def CF_RINGB_PREV (e k l r : Nat) : Fld := ⟨CF_RINGB e k l r, 20, 20, .rw, 0⟩
/-- CF_SLOT — Slot, s = 0 to 31 (R279). -/
def CF_SLOT (e s : Nat) : Nat := 0x803000 + 0x40000 * e + 0x40 * s
def CF_SLOT_PART (e s : Nat) : Fld := ⟨CF_SLOT e s, 0, 3, .rw, 0⟩
def CF_SLOT_V (e s : Nat) : Fld := ⟨CF_SLOT e s, 3, 1, .rw, 0⟩
def CF_SLOT_STATE (e s : Nat) : Fld := ⟨CF_SLOT e s, 4, 2, .ro, 0⟩
def CF_SLOT_GEN (e s : Nat) : Fld := ⟨CF_SLOT e s, 32, 32, .ro, 0⟩
/-- CF_SLOTBID — Slot identity (R279). -/
def CF_SLOTBID (e s : Nat) : Nat := 0x803008 + 0x40000 * e + 0x40 * s
def CF_SLOTBID_BID (e s : Nat) : Fld := ⟨CF_SLOTBID e s, 0, 32, .ro, 0⟩
def CF_SLOTBID_STATUS (e s : Nat) : Fld := ⟨CF_SLOTBID e s, 32, 8, .ro, 0⟩
/-- CF_SLOTCTL — Slot control (R279). -/
def CF_SLOTCTL (e s : Nat) : Nat := 0x803010 + 0x40000 * e + 0x40 * s
def CF_SLOTCTL_GO (e s : Nat) : Fld := ⟨CF_SLOTCTL e s, 0, 1, .wo, 0⟩
def CF_SLOTCTL_ABORT (e s : Nat) : Fld := ⟨CF_SLOTCTL e s, 1, 1, .wo, 0⟩
/-- CF_SLOTWAIT — Slot waits (R279). -/
def CF_SLOTWAIT (e s : Nat) : Nat := 0x803018 + 0x40000 * e + 0x40 * s
def CF_SLOTWAIT_WAITMAX (e s : Nat) : Fld := ⟨CF_SLOTWAIT e s, 0, 32, .ro, 0⟩
def CF_SLOTWAIT_WAITPOS (e s : Nat) : Fld := ⟨CF_SLOTWAIT e s, 32, 20, .ro, 0⟩
/-- FRY_STAT — Ferry status (R294). -/
def FRY_STAT : Nat := 0xc00000
def FRY_STAT_RUNNING : Fld := ⟨FRY_STAT, 0, 5, .ro, 0⟩
def FRY_STAT_OPEN : Fld := ⟨FRY_STAT, 5, 9, .ro, 0⟩
/-- FRY_BDL — Batch deadline and job watchdog (R294). -/
def FRY_BDL : Nat := 0xc00008
def FRY_BDL_BDL : Fld := ⟨FRY_BDL, 0, 24, .rw, 0x1f40⟩
def FRY_BDL_JWD : Fld := ⟨FRY_BDL, 32, 32, .rw, 0x2540be4⟩
/-- FRY_CNT — Slot counts (R294). -/
def FRY_CNT : Nat := 0xc00010
def FRY_CNT_REFUSED : Fld := ⟨FRY_CNT, 0, 32, .rc, 0⟩
def FRY_CNT_NOROUTE : Fld := ⟨FRY_CNT, 32, 32, .rc, 0⟩
/-- FRY_BCNT — Batch counts (R294). -/
def FRY_BCNT : Nat := 0xc00018
def FRY_BCNT_BATCHES : Fld := ⟨FRY_BCNT, 0, 32, .ro, 0⟩
def FRY_BCNT_SHORT : Fld := ⟨FRY_BCNT, 32, 32, .rc, 0⟩
/-- FRY_LATMAX — Longest round trip (R294). -/
def FRY_LATMAX : Nat := 0xc00020
def FRY_LATMAX_LAT : Fld := ⟨FRY_LATMAX, 0, 32, .rc, 0⟩
def FRY_LATMAX_STREAM : Fld := ⟨FRY_LATMAX, 32, 17, .rc, 0⟩
/-- FRY_RT — Routing table, partition p = 0 to 7 (R294). -/
def FRY_RT (p : Nat) : Nat := 0xc00100 + 0x8 * p
def FRY_RT_BASE (p : Nat) : Fld := ⟨FRY_RT p, 5, 43, .rw, 0⟩
def FRY_RT_ENTRIES (p : Nat) : Fld := ⟨FRY_RT p, 48, 16, .rw, 0⟩
/-- FRY_LAG — Laggard mark, n = 0 to 15 (R294). -/
def FRY_LAG (n : Nat) : Nat := 0xc00200 + 0x8 * n
def FRY_LAG_STREAM (n : Nat) : Fld := ⟨FRY_LAG n, 0, 17, .rw, 0⟩
def FRY_LAG_SHIFT (n : Nat) : Fld := ⟨FRY_LAG n, 17, 3, .rw, 0⟩
def FRY_LAG_V (n : Nat) : Fld := ⟨FRY_LAG n, 20, 1, .rw, 0⟩
/-- FRY_JOB — Job, j = 0 to 15 (R294). -/
def FRY_JOB (j : Nat) : Nat := 0xc01000 + 0x10 * j
def FRY_JOB_PART (j : Nat) : Fld := ⟨FRY_JOB j, 0, 3, .rw, 0⟩
def FRY_JOB_V (j : Nat) : Fld := ⟨FRY_JOB j, 3, 1, .rw, 0⟩
def FRY_JOB_STATE (j : Nat) : Fld := ⟨FRY_JOB j, 4, 2, .ro, 0⟩
def FRY_JOB_GEN (j : Nat) : Fld := ⟨FRY_JOB j, 32, 32, .ro, 0⟩
/-- FRY_JOBCTL — Job control (R294). -/
def FRY_JOBCTL (j : Nat) : Nat := 0xc01008 + 0x10 * j
def FRY_JOBCTL_GO (j : Nat) : Fld := ⟨FRY_JOBCTL j, 0, 1, .wo, 0⟩
def FRY_JOBCTL_ABORT (j : Nat) : Fld := ⟨FRY_JOBCTL j, 1, 1, .wo, 0⟩
/-- FRY_EQA — Queue configuration, q = 0 to 255 (R294). -/
def FRY_EQA (q : Nat) : Nat := 0xc04000 + 0x20 * q
def FRY_EQA_V (q : Nat) : Fld := ⟨FRY_EQA q, 0, 1, .rw, 0⟩
def FRY_EQA_PART (q : Nat) : Fld := ⟨FRY_EQA q, 1, 3, .rw, 0⟩
def FRY_EQA_NSLOT (q : Nat) : Fld := ⟨FRY_EQA q, 4, 8, .rw, 0⟩
def FRY_EQA_ROWB (q : Nat) : Fld := ⟨FRY_EQA q, 12, 10, .rw, 0⟩
def FRY_EQA_RROWB (q : Nat) : Fld := ⟨FRY_EQA q, 22, 10, .rw, 0⟩
def FRY_EQA_NCORE (q : Nat) : Fld := ⟨FRY_EQA q, 32, 8, .rw, 0⟩
def FRY_EQA_NFLAG (q : Nat) : Fld := ⟨FRY_EQA q, 40, 8, .rw, 0⟩
def FRY_EQA_RFLAG (q : Nat) : Fld := ⟨FRY_EQA q, 48, 8, .rw, 0⟩
/-- FRY_EQB — Queue buffer (R294). -/
def FRY_EQB (q : Nat) : Nat := 0xc04008 + 0x20 * q
def FRY_EQB_BUF (q : Nat) : Fld := ⟨FRY_EQB q, 6, 42, .rw, 0⟩
/-- FRY_EQS — Queue status (R294). -/
def FRY_EQS (q : Nat) : Nat := 0xc04010 + 0x20 * q
def FRY_EQS_NEXTRET (q : Nat) : Fld := ⟨FRY_EQS q, 0, 32, .ro, 0⟩
def FRY_EQS_CLOSED (q : Nat) : Fld := ⟨FRY_EQS q, 32, 8, .ro, 0⟩
def FRY_EQS_OPENROWS (q : Nat) : Fld := ⟨FRY_EQS q, 40, 7, .ro, 0⟩
/-- BL_CTL — Bell control (R314). -/
def BL_CTL : Nat := 0x60000
def BL_CTL_EN : Fld := ⟨BL_CTL, 0, 1, .rw, 0⟩
def BL_CTL_SRCSEL : Fld := ⟨BL_CTL, 1, 1, .rw, 0⟩
def BL_CTL_FALLBK : Fld := ⟨BL_CTL, 2, 1, .rw, 1⟩
def BL_CTL_FORCE : Fld := ⟨BL_CTL, 3, 1, .wo, 0⟩
def BL_CTL_HOLDLIM : Fld := ⟨BL_CTL, 8, 32, .rw, 0x2540be4⟩
/-- BL_STAT — Bell status (R314). -/
def BL_STAT : Nat := 0x60008
def BL_STAT_STATE : Fld := ⟨BL_STAT, 0, 3, .ro, 0⟩
def BL_STAT_SLEWING : Fld := ⟨BL_STAT, 3, 1, .ro, 0⟩
def BL_STAT_DEPTH : Fld := ⟨BL_STAT, 4, 4, .ro, 0⟩
def BL_STAT_SRCLINK : Fld := ⟨BL_STAT, 8, 5, .ro, 0⟩
def BL_STAT_BIGERR : Fld := ⟨BL_STAT, 13, 1, .rw1c, 0⟩
def BL_STAT_FREEEV : Fld := ⟨BL_STAT, 14, 1, .rw1c, 0⟩
/-- BL_NOW — Bell counter (R314). -/
def BL_NOW : Nat := 0x60010
def BL_NOW_NOW : Fld := ⟨BL_NOW, 0, 64, .ro, 0⟩
/-- BL_SRC — Candidate links (R314). -/
def BL_SRC : Nat := 0x60018
def BL_SRC_CAND : Fld := ⟨BL_SRC, 0, 32, .rw, 0⟩
/-- BL_REFDLY — Reference cable delay (R314). -/
def BL_REFDLY : Nat := 0x60020
def BL_REFDLY_DLY : Fld := ⟨BL_REFDLY, 0, 32, .rw, 0⟩
/-- BL_ERR — Source error (R314). -/
def BL_ERR : Nat := 0x60028
def BL_ERR_ERR : Fld := ⟨BL_ERR, 0, 32, .ro, 0⟩
def BL_ERR_ERRMAX : Fld := ⟨BL_ERR, 32, 32, .rc, 0⟩
/-- BL_CNT — Bell counts (R314). -/
def BL_CNT : Nat := 0x60030
def BL_CNT_BADFRAME : Fld := ⟨BL_CNT, 0, 16, .rc, 0⟩
def BL_CNT_MISSEDGE : Fld := ⟨BL_CNT, 16, 16, .rc, 0⟩
def BL_CNT_SWITCHES : Fld := ⟨BL_CNT, 32, 16, .rc, 0⟩
def BL_CNT_HOLDS : Fld := ⟨BL_CNT, 48, 16, .rc, 0⟩
/-- BL_DKEY0 — Determinism key, low (R314). -/
def BL_DKEY0 : Nat := 0x60040
def BL_DKEY0_STEP : Fld := ⟨BL_DKEY0, 0, 8, .ro, 0⟩
def BL_DKEY0_FWREL : Fld := ⟨BL_DKEY0, 8, 24, .ro, 0⟩
def BL_DKEY0_NUMDEF : Fld := ⟨BL_DKEY0, 32, 8, .ro, 0⟩
def BL_DKEY0_PROFILE : Fld := ⟨BL_DKEY0, 40, 2, .ro, 1⟩
/-- BL_DKEY1 — Determinism key, high (R314). -/
def BL_DKEY1 : Nat := 0x60048
def BL_DKEY1_SETID : Fld := ⟨BL_DKEY1, 0, 64, .ro, 0⟩
/-- TT_TIME — Entry time, n = 0 to 255 (R315). -/
def TT_TIME (p n : Nat) : Nat := 0x64000 + 0x1800 * p + 0x10 * n
def TT_TIME_TIME (p n : Nat) : Fld := ⟨TT_TIME p n, 0, 64, .rw, 0⟩
/-- TT_ACT — Entry action (R315). -/
def TT_ACT (p n : Nat) : Nat := 0x64008 + 0x1800 * p + 0x10 * n
def TT_ACT_EN (p n : Nat) : Fld := ⟨TT_ACT p n, 0, 1, .rw, 0⟩
def TT_ACT_ACT (p n : Nat) : Fld := ⟨TT_ACT p n, 1, 3, .rw, 0⟩
def TT_ACT_MISSPOL (p n : Nat) : Fld := ⟨TT_ACT p n, 4, 1, .rw, 0⟩
def TT_ACT_ERR (p n : Nat) : Fld := ⟨TT_ACT p n, 5, 1, .rw1c, 0⟩
def TT_ACT_LATE (p n : Nat) : Fld := ⟨TT_ACT p n, 6, 1, .rw1c, 0⟩
def TT_ACT_REP (p n : Nat) : Fld := ⟨TT_ACT p n, 8, 8, .rw, 0⟩
def TT_ACT_ARG (p n : Nat) : Fld := ⟨TT_ACT p n, 16, 16, .rw, 0⟩
def TT_ACT_PER (p n : Nat) : Fld := ⟨TT_ACT p n, 32, 32, .rw, 0⟩
/-- TT_CTL — Timetable control (R315). -/
def TT_CTL (p : Nat) : Nat := 0x65000 + 0x1800 * p
def TT_CTL_DISALL (p : Nat) : Fld := ⟨TT_CTL p, 0, 1, .wo, 0⟩
/-- TT_STAT — Timetable status (R315). -/
def TT_STAT (p : Nat) : Nat := 0x65008 + 0x1800 * p
def TT_STAT_FIRED (p : Nat) : Fld := ⟨TT_STAT p, 0, 16, .ro, 0⟩
def TT_STAT_MISSED (p : Nat) : Fld := ⟨TT_STAT p, 16, 16, .rc, 0⟩
def TT_STAT_FAIL (p : Nat) : Fld := ⟨TT_STAT p, 32, 16, .rc, 0⟩
def TT_STAT_FENCED (p : Nat) : Fld := ⟨TT_STAT p, 48, 1, .ro, 0⟩
def TT_STAT_BSTATE (p : Nat) : Fld := ⟨TT_STAT p, 49, 3, .ro, 0⟩
/-- TT_PACE — Pace level (R315). -/
def TT_PACE (p : Nat) : Nat := 0x65010 + 0x1800 * p
def TT_PACE_LEVEL (p : Nat) : Fld := ⟨TT_PACE p, 0, 5, .rw, 0x10⟩
/-- TT_NOW — Bell counter (R315). -/
def TT_NOW (p : Nat) : Nat := 0x65018 + 0x1800 * p
def TT_NOW_NOW (p : Nat) : Fld := ⟨TT_NOW p, 0, 64, .ro, 0⟩
/-- TT_DKEY0 — Determinism key, low (R315). -/
def TT_DKEY0 (p : Nat) : Nat := 0x65020 + 0x1800 * p
def TT_DKEY0_KEY (p : Nat) : Fld := ⟨TT_DKEY0 p, 0, 64, .ro, 0⟩
/-- TT_DKEY1 — Determinism key, high (R315). -/
def TT_DKEY1 (p : Nat) : Nat := 0x65028 + 0x1800 * p
def TT_DKEY1_KEY (p : Nat) : Fld := ⟨TT_DKEY1 p, 0, 64, .ro, 0⟩
/-- RING_BASE — Submission ring (R334). -/
def RING_BASE (p r : Nat) : Nat := 0x300000 + 0x10000 * p + 0x40 * r
def RING_BASE_BASE (p r : Nat) : Fld := ⟨RING_BASE p r, 6, 42, .rw, 0⟩
def RING_BASE_SIZELOG (p r : Nat) : Fld := ⟨RING_BASE p r, 48, 5, .rw, 4⟩
/-- RING_CFG — Ring configuration (R334). -/
def RING_CFG (p r : Nat) : Nat := 0x300008 + 0x10000 * p + 0x40 * r
def RING_CFG_EN (p r : Nat) : Fld := ⟨RING_CFG p r, 0, 1, .rw, 0⟩
def RING_CFG_TTSTEP (p r : Nat) : Fld := ⟨RING_CFG p r, 8, 8, .rw, 1⟩
/-- CQ_BASE — Completion ring (R334). -/
def CQ_BASE (p r : Nat) : Nat := 0x300010 + 0x10000 * p + 0x40 * r
def CQ_BASE_BASE (p r : Nat) : Fld := ⟨CQ_BASE p r, 6, 42, .rw, 0⟩
/-- RING_DB — Doorbell (R334). -/
def RING_DB (p r : Nat) : Nat := 0x300018 + 0x10000 * p + 0x40 * r
def RING_DB_V (p r : Nat) : Fld := ⟨RING_DB p r, 0, 64, .wo, 0⟩
/-- RING_ACC — Accepted (R334). -/
def RING_ACC (p r : Nat) : Nat := 0x300020 + 0x10000 * p + 0x40 * r
def RING_ACC_ACC (p r : Nat) : Fld := ⟨RING_ACC p r, 0, 64, .ro, 0⟩
/-- RING_DONE — Reported (R334). -/
def RING_DONE (p r : Nat) : Nat := 0x300028 + 0x10000 * p + 0x40 * r
def RING_DONE_DONE (p r : Nat) : Fld := ⟨RING_DONE p r, 0, 64, .ro, 0⟩
/-- CQ_HEAD — Completion head (R334). -/
def CQ_HEAD (p r : Nat) : Nat := 0x300030 + 0x10000 * p + 0x40 * r
def CQ_HEAD_HEAD (p r : Nat) : Fld := ⟨CQ_HEAD p r, 0, 64, .rw, 0⟩
/-- RING_STAT — Ring status (R334). -/
def RING_STAT (p r : Nat) : Nat := 0x300038 + 0x10000 * p + 0x40 * r
def RING_STAT_STOPPED (p r : Nat) : Fld := ⟨RING_STAT p r, 0, 1, .ro, 0⟩
def RING_STAT_SEQERR (p r : Nat) : Fld := ⟨RING_STAT p r, 1, 1, .rw1c, 0⟩
def RING_STAT_DBERR (p r : Nat) : Fld := ⟨RING_STAT p r, 2, 1, .rw1c, 0⟩
def RING_STAT_WAIT (p r : Nat) : Fld := ⟨RING_STAT p r, 32, 32, .rc, 0⟩
/-- JNL_PCFG — Partition journal configuration (R334). -/
def JNL_PCFG (p : Nat) : Nat := 0x301000 + 0x10000 * p
def JNL_PCFG_REPLAYMAX (p : Nat) : Fld := ⟨JNL_PCFG p, 0, 4, .rw, 3⟩
/-- JNL_PSTAT — Partition journal status (R334). -/
def JNL_PSTAT (p : Nat) : Nat := 0x301008 + 0x10000 * p
def JNL_PSTAT_INUSE (p : Nat) : Fld := ⟨JNL_PSTAT p, 0, 13, .ro, 0⟩
def JNL_PSTAT_RSVFREE (p : Nat) : Fld := ⟨JNL_PSTAT p, 32, 32, .ro, 0⟩
/-- JNL_PCTL — Partition journal control (R334). -/
def JNL_PCTL (p : Nat) : Nat := 0x301010 + 0x10000 * p
def JNL_PCTL_RING (p : Nat) : Fld := ⟨JNL_PCTL p, 0, 6, .wo, 0⟩
def JNL_PCTL_ABANDON (p : Nat) : Fld := ⟨JNL_PCTL p, 8, 1, .wo, 0⟩
/-- JNL_JSEQ — Next JSEQ (R334). -/
def JNL_JSEQ (p : Nat) : Nat := 0x301018 + 0x10000 * p
def JNL_JSEQ_JSEQ (p : Nat) : Fld := ⟨JNL_JSEQ p, 0, 64, .ro, 0⟩
/-- JNL_CTL — Intake control (R335). -/
def JNL_CTL : Nat := 0x200000
def JNL_CTL_EN : Fld := ⟨JNL_CTL, 0, 1, .rw, 0⟩
def JNL_CTL_IDLE : Fld := ⟨JNL_CTL, 1, 1, .ro, 1⟩
/-- JNL_STAT — Journal status (R335). -/
def JNL_STAT : Nat := 0x200008
def JNL_STAT_LOSTPAIR : Fld := ⟨JNL_STAT, 0, 6, .ro, 0⟩
def JNL_STAT_REMIRROR : Fld := ⟨JNL_STAT, 6, 1, .ro, 0⟩
def JNL_STAT_JLOST : Fld := ⟨JNL_STAT, 7, 1, .rw1c, 0⟩
/-- JNL_PSIZE — Partition slots, p = 0 to 7 (R335). -/
def JNL_PSIZE (p : Nat) : Nat := 0x200100 + 0x8 * p
def JNL_PSIZE_SLOTS (p : Nat) : Fld := ⟨JNL_PSIZE p, 0, 13, .rw, 0⟩
/-- PT_CTL — Partition control (R358). -/
def PT_CTL (p : Nat) : Nat := 0x100000 + 0x10000 * p
def PT_CTL_OP (p : Nat) : Fld := ⟨PT_CTL p, 0, 3, .wo, 0⟩
/-- PT_STAT — Partition status (R358). -/
def PT_STAT (p : Nat) : Nat := 0x100008 + 0x10000 * p
def PT_STAT_STATE (p : Nat) : Fld := ⟨PT_STAT p, 0, 3, .ro, 0⟩
def PT_STAT_QUIET (p : Nat) : Fld := ⟨PT_STAT p, 3, 1, .ro, 0⟩
def PT_STAT_REFUSED (p : Nat) : Fld := ⟨PT_STAT p, 4, 1, .rw1c, 0⟩
def PT_STAT_REFCODE (p : Nat) : Fld := ⟨PT_STAT p, 8, 4, .ro, 0⟩
def PT_STAT_HSRC (p : Nat) : Fld := ⟨PT_STAT p, 12, 2, .ro, 0⟩
def PT_STAT_LSRC (p : Nat) : Fld := ⟨PT_STAT p, 14, 2, .ro, 0⟩
def PT_STAT_FENCES (p : Nat) : Fld := ⟨PT_STAT p, 32, 32, .ro, 0⟩
/-- PT_CORES — Cores, n = 0 to 2 (R358). -/
def PT_CORES (p n : Nat) : Nat := 0x100010 + 0x10000 * p + 0x8 * n
def PT_CORES_MASK (p n : Nat) : Fld := ⟨PT_CORES p n, 0, 64, .rw, 0⟩
/-- PT_S2BASE — Stage-2 root (R358). -/
def PT_S2BASE (p : Nat) : Nat := 0x100028 + 0x10000 * p
def PT_S2BASE_L1LOG (p : Nat) : Fld := ⟨PT_S2BASE p, 0, 5, .rw, 0⟩
def PT_S2BASE_BASE (p : Nat) : Fld := ⟨PT_S2BASE p, 12, 40, .rw, 0⟩
/-- PT_EXTOP — Extent operation (R358). -/
def PT_EXTOP (p : Nat) : Nat := 0x100030 + 0x10000 * p
def PT_EXTOP_FIRST (p : Nat) : Fld := ⟨PT_EXTOP p, 0, 17, .wo, 0⟩
def PT_EXTOP_COUNT (p : Nat) : Fld := ⟨PT_EXTOP p, 17, 17, .wo, 0⟩
def PT_EXTOP_OP (p : Nat) : Fld := ⟨PT_EXTOP p, 34, 2, .wo, 0⟩
def PT_EXTOP_BUSY (p : Nat) : Fld := ⟨PT_EXTOP p, 36, 1, .ro, 0⟩
/-- PT_EXTCNT — Extent counts (R358). -/
def PT_EXTCNT (p : Nat) : Nat := 0x100038 + 0x10000 * p
def PT_EXTCNT_OWNED (p : Nat) : Fld := ⟨PT_EXTCNT p, 0, 17, .ro, 0⟩
def PT_EXTCNT_RSVPG (p : Nat) : Fld := ⟨PT_EXTCNT p, 17, 20, .ro, 0⟩
/-- PT_RSVOP — Reserve operation (R358). -/
def PT_RSVOP (p : Nat) : Nat := 0x100040 + 0x10000 * p
def PT_RSVOP_FIRST (p : Nat) : Fld := ⟨PT_RSVOP p, 0, 17, .wo, 0⟩
def PT_RSVOP_COUNT (p : Nat) : Fld := ⟨PT_RSVOP p, 17, 17, .wo, 0⟩
def PT_RSVOP_ADD (p : Nat) : Fld := ⟨PT_RSVOP p, 34, 1, .wo, 0⟩
def PT_RSVOP_TAKE (p : Nat) : Fld := ⟨PT_RSVOP p, 35, 1, .wo, 0⟩
/-- PT_POOLMAP — Granule map, die d, j = 0 to 11 (R358). -/
def PT_POOLMAP (p d j : Nat) : Nat := 0x100100 + 0x10000 * p + 0x80 * d + 0x8 * j
def PT_POOLMAP_MAP (p d j : Nat) : Fld := ⟨PT_POOLMAP p d j, 0, 64, .rw, 0⟩
/-- PT_WEIR — Weir, r = 0 to 7 (R358). -/
def PT_WEIR (p r : Nat) : Nat := 0x100200 + 0x10000 * p + 0x8 * r
def PT_WEIR_MIN (p r : Nat) : Fld := ⟨PT_WEIR p r, 0, 8, .rw, 0⟩
def PT_WEIR_MAX (p r : Nat) : Fld := ⟨PT_WEIR p r, 8, 8, .rw, 0xff⟩
/-- PT_SUSP — Share suspension (R358). -/
def PT_SUSP (p : Nat) : Nat := 0x100280 + 0x10000 * p
def PT_SUSP_RES (p : Nat) : Fld := ⟨PT_SUSP p, 0, 3, .ro, 0⟩
def PT_SUSP_ONGOING (p : Nat) : Fld := ⟨PT_SUSP p, 3, 1, .ro, 0⟩
def PT_SUSP_CAUSE (p : Nat) : Fld := ⟨PT_SUSP p, 4, 4, .ro, 0⟩
def PT_SUSP_DUR (p : Nat) : Fld := ⟨PT_SUSP p, 32, 32, .ro, 0⟩
/-- PT_KEYCTL — Key control (R358). -/
def PT_KEYCTL (p : Nat) : Nat := 0x100300 + 0x10000 * p
def PT_KEYCTL_GENH (p : Nat) : Fld := ⟨PT_KEYCTL p, 0, 1, .wo, 0⟩
def PT_KEYCTL_LOADH (p : Nat) : Fld := ⟨PT_KEYCTL p, 1, 1, .wo, 0⟩
def PT_KEYCTL_LOADL (p : Nat) : Fld := ⟨PT_KEYCTL p, 2, 1, .wo, 0⟩
def PT_KEYCTL_CLRH (p : Nat) : Fld := ⟨PT_KEYCTL p, 3, 1, .wo, 0⟩
def PT_KEYCTL_CLRL (p : Nat) : Fld := ⟨PT_KEYCTL p, 4, 1, .wo, 0⟩
/-- PT_KEYDATA — Key data, n = 0 to 7 (R358). -/
def PT_KEYDATA (p n : Nat) : Nat := 0x100308 + 0x10000 * p + 0x8 * n
def PT_KEYDATA_DATA (p n : Nat) : Fld := ⟨PT_KEYDATA p n, 0, 64, .wo, 0⟩
/-- PT_SECCNT — Security counts (R358). -/
def PT_SECCNT (p : Nat) : Nat := 0x100350 + 0x10000 * p
def PT_SECCNT_AUTHFAIL (p : Nat) : Fld := ⟨PT_SECCNT p, 0, 32, .rc, 0⟩
def PT_SECCNT_OWNVIOL (p : Nat) : Fld := ⟨PT_SECCNT p, 32, 32, .rc, 0⟩
/-- PT_S1BASE — Stage-1 root (R359). -/
def PT_S1BASE (p : Nat) : Nat := 0x100400 + 0x10000 * p
def PT_S1BASE_L1LOG (p : Nat) : Fld := ⟨PT_S1BASE p, 0, 5, .rw, 0⟩
def PT_S1BASE_BASE (p : Nat) : Fld := ⟨PT_S1BASE p, 12, 36, .rw, 0⟩
/-- PT_S1INV — Stage-1 invalidation (R359). -/
def PT_S1INV (p : Nat) : Nat := 0x100408 + 0x10000 * p
def PT_S1INV_ALL (p : Nat) : Fld := ⟨PT_S1INV p, 0, 1, .wo, 0⟩
def PT_S1INV_BUSY (p : Nat) : Fld := ⟨PT_S1INV p, 1, 1, .ro, 0⟩
def PT_S1INV_VA (p : Nat) : Fld := ⟨PT_S1INV p, 21, 27, .wo, 0⟩
/-- QT_STAT — Quiet status (R374). -/
def QT_STAT : Nat := 0x50000
def QT_STAT_DEVQ : Fld := ⟨QT_STAT, 0, 1, .ro, 0⟩
def QT_STAT_BELLQ : Fld := ⟨QT_STAT, 1, 1, .ro, 0⟩
def QT_STAT_PARTQ : Fld := ⟨QT_STAT, 2, 8, .ro, 0⟩
def QT_STAT_PIN : Fld := ⟨QT_STAT, 10, 1, .ro, 1⟩
def QT_STAT_DEVCAUSE : Fld := ⟨QT_STAT, 16, 8, .ro, 0⟩
/-- QT_CTL — Quiet control (R374). -/
def QT_CTL : Nat := 0x50008
def QT_CTL_PART : Fld := ⟨QT_CTL, 0, 3, .wo, 0⟩
def QT_CTL_ENTER : Fld := ⟨QT_CTL, 3, 1, .wo, 0⟩
def QT_CTL_EXIT : Fld := ⟨QT_CTL, 4, 1, .wo, 0⟩
def QT_CTL_DEVENTER : Fld := ⟨QT_CTL, 5, 1, .wo, 0⟩
def QT_CTL_REFUSED : Fld := ⟨QT_CTL, 6, 1, .rw1c, 0⟩
/-- QT_PCAUSE — Partition causes, p = 0 to 7 (R374). -/
def QT_PCAUSE (p : Nat) : Nat := 0x50010 + 0x8 * p
def QT_PCAUSE_FIRST (p : Nat) : Fld := ⟨QT_PCAUSE p, 0, 8, .ro, 0⟩
def QT_PCAUSE_BLOCK (p : Nat) : Fld := ⟨QT_PCAUSE p, 8, 4, .ro, 0⟩
/-- ERR_SUMMARY — Banks with a primary (R374). -/
def ERR_SUMMARY : Nat := 0x50050
def ERR_SUMMARY_PV : Fld := ⟨ERR_SUMMARY, 0, 64, .ro, 0⟩
/-- SP_STAT — Spares (R374). -/
def SP_STAT : Nat := 0x50100
def SP_STAT_AVAIL : Fld := ⟨SP_STAT, 0, 8, .ro, 0xff⟩
def SP_STAT_OFFLINE : Fld := ⟨SP_STAT, 8, 8, .ro, 0⟩
def SP_STAT_PAIRRET : Fld := ⟨SP_STAT, 16, 6, .ro, 0⟩
/-- SP_MAP — Quadrant map, q = 0 to 7 (R374). -/
def SP_MAP (q : Nat) : Nat := 0x50108 + 0x8 * q
def SP_MAP_RET (q : Nat) : Fld := ⟨SP_MAP q, 0, 5, .ro, 0⟩
def SP_MAP_RV (q : Nat) : Fld := ⟨SP_MAP q, 5, 1, .ro, 0⟩
def SP_MAP_OFFL (q : Nat) : Fld := ⟨SP_MAP q, 16, 8, .ro, 0⟩
def SP_MAP_OV (q : Nat) : Fld := ⟨SP_MAP q, 24, 1, .ro, 0⟩
/-- SP_CTL — Spare control (R374). -/
def SP_CTL : Nat := 0x50148
def SP_CTL_LCORE : Fld := ⟨SP_CTL, 0, 8, .wo, 0⟩
def SP_CTL_RETIRE : Fld := ⟨SP_CTL, 8, 1, .wo, 0⟩
def SP_CTL_CLRLIST : Fld := ⟨SP_CTL, 9, 1, .wo, 0⟩
def SP_CTL_PAIR : Fld := ⟨SP_CTL, 16, 3, .wo, 0⟩
def SP_CTL_RETPAIR : Fld := ⟨SP_CTL, 19, 1, .wo, 0⟩
/-- LG_CFG — Laggard thresholds (R374). -/
def LG_CFG : Nat := 0x50200
def LG_CFG_LGWIN : Fld := ⟨LG_CFG, 0, 16, .rw, 0x3d1⟩
def LG_CFG_LGCORE : Fld := ⟨LG_CFG, 16, 8, .rw, 0x20⟩
def LG_CFG_LGLINK : Fld := ⟨LG_CFG, 24, 8, .rw, 0x20⟩
def LG_CFG_LGSHIFT : Fld := ⟨LG_CFG, 32, 3, .rw, 2⟩
def LG_CFG_ACTRET : Fld := ⟨LG_CFG, 35, 1, .rw, 0⟩
def LG_CFG_ACTREROUTE : Fld := ⟨LG_CFG, 36, 1, .rw, 0⟩
def LG_CFG_ACTDEW : Fld := ⟨LG_CFG, 37, 1, .rw, 0⟩
/-- LG_CFG2 — Laggard latencies (R374). -/
def LG_CFG2 : Nat := 0x50208
def LG_CFG2_LGFRY : Fld := ⟨LG_CFG2, 0, 32, .rw, 0x7d00⟩
def LG_CFG2_LGCF : Fld := ⟨LG_CFG2, 32, 32, .rw, 0xf42⟩
/-- LG_STAT — Laggard state (R374). -/
def LG_STAT : Nat := 0x50210
def LG_STAT_AVOID : Fld := ⟨LG_STAT, 0, 32, .ro, 0⟩
def LG_STAT_DEW : Fld := ⟨LG_STAT, 32, 16, .ro, 0⟩
/-- ERR_CFG — Bank configuration (R375). -/
def ERR_CFG (b : Nat) : Nat := 0x51000 + 0x80 * b
def ERR_CFG_ESCT (b : Nat) : Fld := ⟨ERR_CFG b, 0, 32, .rw, 0x3d09⟩
def ERR_CFG_OVFESC (b : Nat) : Fld := ⟨ERR_CFG b, 32, 16, .rw, 0x10⟩
/-- ERR_CTL — Bank control (R375). -/
def ERR_CTL (b : Nat) : Nat := 0x51008 + 0x80 * b
def ERR_CTL_ACK (b : Nat) : Fld := ⟨ERR_CTL b, 0, 1, .wo, 0⟩
def ERR_CTL_CLROVF (b : Nat) : Fld := ⟨ERR_CTL b, 1, 1, .wo, 0⟩
/-- ERR_STAT — Bank status (R375). -/
def ERR_STAT (b : Nat) : Nat := 0x51010 + 0x80 * b
def ERR_STAT_PVALID (b : Nat) : Fld := ⟨ERR_STAT b, 0, 1, .ro, 0⟩
def ERR_STAT_QVALID (b : Nat) : Fld := ⟨ERR_STAT b, 1, 1, .ro, 0⟩
def ERR_STAT_ESC (b : Nat) : Fld := ⟨ERR_STAT b, 2, 1, .rw1c, 0⟩
def ERR_STAT_PREEMPT (b : Nat) : Fld := ⟨ERR_STAT b, 3, 1, .rw1c, 0⟩
def ERR_STAT_OVF (b : Nat) : Fld := ⟨ERR_STAT b, 32, 32, .ro, 0⟩
/-- ERR_P — Primary record, word w = 0 to 3 (R375). -/
def ERR_P (b w : Nat) : Nat := 0x51020 + 0x80 * b + 0x8 * w
def ERR_P_WORD (b w : Nat) : Fld := ⟨ERR_P b w, 0, 64, .ro, 0⟩
/-- ERR_Q — Pending record, word w = 0 to 3 (R375). -/
def ERR_Q (b w : Nat) : Nat := 0x51040 + 0x80 * b + 0x8 * w
def ERR_Q_WORD (b w : Nat) : Fld := ⟨ERR_Q b w, 0, 64, .ro, 0⟩
/-- IRQ_SEL — Source select (R386). -/
def IRQ_SEL : Nat := 0x40000
def IRQ_SEL_SRC : Fld := ⟨IRQ_SEL, 0, 12, .rw, 0⟩
/-- IRQ_SCFG — Source configuration (R386). -/
def IRQ_SCFG : Nat := 0x40008
def IRQ_SCFG_EN : Fld := ⟨IRQ_SCFG, 0, 1, .rw, 0⟩
def IRQ_SCFG_MODE : Fld := ⟨IRQ_SCFG, 1, 1, .rw, 0⟩
def IRQ_SCFG_CLASS : Fld := ⟨IRQ_SCFG, 2, 2, .rw, 0⟩
def IRQ_SCFG_PRIO : Fld := ⟨IRQ_SCFG, 4, 3, .rw, 0⟩
/-- IRQ_STMASK — Source target mask (R386). -/
def IRQ_STMASK : Nat := 0x40010
def IRQ_STMASK_TMASK : Fld := ⟨IRQ_STMASK, 0, 64, .rw, 0⟩
/-- IRQ_SSTAT — Source status (R386). -/
def IRQ_SSTAT : Nat := 0x40018
def IRQ_SSTAT_STATE : Fld := ⟨IRQ_SSTAT, 0, 2, .ro, 0⟩
def IRQ_SSTAT_RAW : Fld := ⟨IRQ_SSTAT, 2, 1, .rw1c, 0⟩
def IRQ_SSTAT_OWNV : Fld := ⟨IRQ_SSTAT, 3, 1, .ro, 0⟩
def IRQ_SSTAT_OWNER : Fld := ⟨IRQ_SSTAT, 4, 3, .ro, 0⟩
def IRQ_SSTAT_CNT : Fld := ⟨IRQ_SSTAT, 8, 8, .ro, 0⟩
/-- IRQ_MCLAIM — Management claim, pair m = 0 to 1 (R386). -/
def IRQ_MCLAIM (m : Nat) : Nat := 0x40100 + 0x8 * m
def IRQ_MCLAIM_CLAIM (m : Nat) : Fld := ⟨IRQ_MCLAIM m, 0, 64, .ro, 0xfff⟩
/-- IRQ_MCOMP — Management completion (R386). -/
def IRQ_MCOMP (m : Nat) : Nat := 0x40110 + 0x8 * m
def IRQ_MCOMP_SRC (m : Nat) : Fld := ⟨IRQ_MCOMP m, 0, 12, .wo, 0⟩
/-- IRQ_MPRIO — Running priority (R386). -/
def IRQ_MPRIO (m : Nat) : Nat := 0x40120 + 0x8 * m
def IRQ_MPRIO_RUNPRIO (m : Nat) : Fld := ⟨IRQ_MPRIO m, 0, 3, .rw, 0⟩
/-- IRQ_MCFG — Management offer time (R386). -/
def IRQ_MCFG : Nat := 0x40130
def IRQ_MCFG_MTMO : Fld := ⟨IRQ_MCFG, 0, 32, .rw, 0x62⟩
/-- IRQ_PEND — Pending map, n = 0 to 63 (R386). -/
def IRQ_PEND (n : Nat) : Nat := 0x41000 + 0x8 * n
def IRQ_PEND_PEND (n : Nat) : Fld := ⟨IRQ_PEND n, 0, 64, .ro, 0⟩
/-- IC_CLAIM — Claim, vector v = 0 to 63 (R387). -/
def IC_CLAIM (p v : Nat) : Nat := 0x10030000 + 0x1000000 * p + 0x8 * v
def IC_CLAIM_CLAIM (p v : Nat) : Fld := ⟨IC_CLAIM p v, 0, 64, .ro, 0xfff⟩
/-- IC_COMPLETE — Completion (R387). -/
def IC_COMPLETE (p : Nat) : Nat := 0x10030200 + 0x1000000 * p
def IC_COMPLETE_SRC (p : Nat) : Fld := ⟨IC_COMPLETE p, 0, 12, .wo, 0⟩
/-- IC_VCOAL — Vector coalescing (R387). -/
def IC_VCOAL (p v : Nat) : Nat := 0x10030400 + 0x1000000 * p + 0x8 * v
def IC_VCOAL_CCOUNT (p v : Nat) : Fld := ⟨IC_VCOAL p v, 0, 8, .rw, 1⟩
def IC_VCOAL_CTIME (p v : Nat) : Fld := ⟨IC_VCOAL p v, 8, 32, .rw, 0x1f40⟩
/-- IC_PSEL — Window select (R387). -/
def IC_PSEL (p : Nat) : Nat := 0x10030800 + 0x1000000 * p
def IC_PSEL_SRC (p : Nat) : Fld := ⟨IC_PSEL p, 0, 12, .rw, 0⟩
/-- IC_PCFG — Window configuration (R387). -/
def IC_PCFG (p : Nat) : Nat := 0x10030808 + 0x1000000 * p
def IC_PCFG_EN (p : Nat) : Fld := ⟨IC_PCFG p, 0, 1, .rw, 0⟩
def IC_PCFG_MODE (p : Nat) : Fld := ⟨IC_PCFG p, 1, 1, .rw, 0⟩
def IC_PCFG_CLASS (p : Nat) : Fld := ⟨IC_PCFG p, 2, 2, .ro, 0⟩
def IC_PCFG_PRIO (p : Nat) : Fld := ⟨IC_PCFG p, 4, 3, .rw, 0⟩
/-- IC_PTMASK — Window target mask (R387). -/
def IC_PTMASK (p : Nat) : Nat := 0x10030810 + 0x1000000 * p
def IC_PTMASK_TMASK (p : Nat) : Fld := ⟨IC_PTMASK p, 0, 64, .rw, 0⟩
/-- IC_PSTAT — Window status (R387). -/
def IC_PSTAT (p : Nat) : Nat := 0x10030818 + 0x1000000 * p
def IC_PSTAT_STATE (p : Nat) : Fld := ⟨IC_PSTAT p, 0, 2, .ro, 0⟩
def IC_PSTAT_RAW (p : Nat) : Fld := ⟨IC_PSTAT p, 2, 1, .rw1c, 0⟩
def IC_PSTAT_CNT (p : Nat) : Fld := ⟨IC_PSTAT p, 8, 8, .ro, 0⟩
/-- LAS_CFG — Laser configuration (R408). -/
def LAS_CFG : Nat := 0x70000
def LAS_CFG_PLAN : Fld := ⟨LAS_CFG, 0, 8, .rw, 1⟩
def LAS_CFG_AUTOON : Fld := ⟨LAS_CFG, 8, 1, .rw, 1⟩
def LAS_CFG_POLL : Fld := ⟨LAS_CFG, 16, 8, .rw, 0xa⟩
/-- LAS_CTL — Laser control (R408). -/
def LAS_CTL : Nat := 0x70008
def LAS_CTL_SLOT : Fld := ⟨LAS_CTL, 0, 3, .wo, 0⟩
def LAS_CTL_OP : Fld := ⟨LAS_CTL, 4, 3, .wo, 0⟩
def LAS_CTL_FORCE : Fld := ⟨LAS_CTL, 7, 1, .wo, 0⟩
/-- LAS_STAT — Laser status (R408). -/
def LAS_STAT : Nat := 0x70010
def LAS_STAT_REFUSED : Fld := ⟨LAS_STAT, 0, 1, .rw1c, 0⟩
def LAS_STAT_REFCODE : Fld := ⟨LAS_STAT, 4, 4, .ro, 0⟩
def LAS_STAT_ALLOFF : Fld := ⟨LAS_STAT, 8, 1, .ro, 0⟩
/-- LAS_FEEDCTL — Feed move (R408). -/
def LAS_FEEDCTL : Nat := 0x70018
def LAS_FEEDCTL_ENGINE : Fld := ⟨LAS_FEEDCTL, 0, 3, .wo, 0⟩
def LAS_FEEDCTL_GROUP : Fld := ⟨LAS_FEEDCTL, 3, 1, .wo, 0⟩
def LAS_FEEDCTL_TO : Fld := ⟨LAS_FEEDCTL, 4, 1, .wo, 0⟩
def LAS_FEEDCTL_GO : Fld := ⟨LAS_FEEDCTL, 5, 1, .wo, 0⟩
/-- LAS_FEED — Feed status (R408). -/
def LAS_FEED : Nat := 0x70020
def LAS_FEED_FEED : Fld := ⟨LAS_FEED, 0, 32, .ro, 0xaaaaaaaa⟩
/-- LAS_SLOT — Slot status, c = 0 to 7 (R408). -/
def LAS_SLOT (c : Nat) : Nat := 0x70100 + 0x8 * c
def LAS_SLOT_STATE (c : Nat) : Fld := ⟨LAS_SLOT c, 0, 4, .ro, 0⟩
def LAS_SLOT_PRSNT (c : Nat) : Fld := ⟨LAS_SLOT c, 4, 1, .ro, 0⟩
def LAS_SLOT_LEGACY (c : Nat) : Fld := ⟨LAS_SLOT c, 5, 1, .ro, 0⟩
def LAS_SLOT_EOL90 (c : Nat) : Fld := ⟨LAS_SLOT c, 6, 1, .ro, 0⟩
def LAS_SLOT_EOL98 (c : Nat) : Fld := ⟨LAS_SLOT c, 7, 1, .ro, 0⟩
def LAS_SLOT_HEALTH (c : Nat) : Fld := ⟨LAS_SLOT c, 8, 2, .ro, 3⟩
def LAS_SLOT_OVERLIFE (c : Nat) : Fld := ⟨LAS_SLOT c, 10, 1, .ro, 0⟩
def LAS_SLOT_TEMP (c : Nat) : Fld := ⟨LAS_SLOT c, 16, 8, .ro, 0⟩
def LAS_SLOT_BIAS (c : Nat) : Fld := ⟨LAS_SLOT c, 24, 16, .ro, 0⟩
/-- LAS_ID — Identity, word w = 0 to 3 (R408). -/
def LAS_ID (c w : Nat) : Nat := 0x70200 + 0x20 * c + 0x8 * w
def LAS_ID_ID (c w : Nat) : Fld := ⟨LAS_ID c w, 0, 64, .ro, 0⟩
/-- LAS_WEAR — Wear (R408). -/
def LAS_WEAR (c : Nat) : Nat := 0x70300 + 0x8 * c
def LAS_WEAR_EHMIN (c : Nat) : Fld := ⟨LAS_WEAR c, 0, 32, .ro, 0⟩
def LAS_WEAR_LIFE (c : Nat) : Fld := ⟨LAS_WEAR c, 32, 16, .ro, 0⟩
def LAS_WEAR_REMAIN (c : Nat) : Fld := ⟨LAS_WEAR c, 48, 16, .ro, 0⟩
/-- SBB_STAT — Port status, p = 0 to 1 (R408). -/
def SBB_STAT (p : Nat) : Nat := 0x70400 + 0x8 * p
def SBB_STAT_STATE (p : Nat) : Fld := ⟨SBB_STAT p, 0, 3, .ro, 0⟩
def SBB_STAT_TRIES (p : Nat) : Fld := ⟨SBB_STAT p, 3, 2, .ro, 0⟩
def SBB_STAT_SDALOW (p : Nat) : Fld := ⟨SBB_STAT p, 5, 1, .ro, 0⟩
/-- SBB_CNT — Port counts (R408). -/
def SBB_CNT (p : Nat) : Nat := 0x70410 + 0x8 * p
def SBB_CNT_NACK (p : Nat) : Fld := ⟨SBB_CNT p, 0, 16, .rc, 0⟩
def SBB_CNT_HOTJOIN (p : Nat) : Fld := ⟨SBB_CNT p, 16, 16, .rc, 0⟩
def SBB_CNT_RECOV (p : Nat) : Fld := ⟨SBB_CNT p, 32, 16, .rc, 0⟩
def SBB_CNT_STUCKS (p : Nat) : Fld := ⟨SBB_CNT p, 48, 16, .rc, 0⟩
/-- SBB_CTL — Port control (R408). -/
def SBB_CTL : Nat := 0x70420
def SBB_CTL_PORT : Fld := ⟨SBB_CTL, 0, 1, .wo, 0⟩
def SBB_CTL_RECOVER : Fld := ⟨SBB_CTL, 1, 1, .wo, 0⟩
def SBB_CTL_RESET : Fld := ⟨SBB_CTL, 2, 1, .wo, 0⟩
/-- MGT_ID0 — Identity (R432). -/
def MGT_ID0 : Nat := 0x0
def MGT_ID0_STEP : Fld := ⟨MGT_ID0, 0, 8, .ro, 0⟩
def MGT_ID0_FWREL : Fld := ⟨MGT_ID0, 8, 24, .ro, 0⟩
def MGT_ID0_PARTNO : Fld := ⟨MGT_ID0, 32, 16, .ro, 0x7140⟩
/-- MGT_SERIAL — Serial number (R432). -/
def MGT_SERIAL : Nat := 0x8
def MGT_SERIAL_SERIAL : Fld := ⟨MGT_SERIAL, 0, 64, .ro, 0⟩
/-- MGT_MBCTL — Mailbox command (R432). -/
def MGT_MBCTL : Nat := 0x10
def MGT_MBCTL_OP : Fld := ⟨MGT_MBCTL, 0, 8, .rw, 0⟩
def MGT_MBCTL_LEN : Fld := ⟨MGT_MBCTL, 8, 7, .rw, 0⟩
def MGT_MBCTL_GO : Fld := ⟨MGT_MBCTL, 16, 1, .wo, 0⟩
/-- MGT_MBSTAT — Mailbox status (R432). -/
def MGT_MBSTAT : Nat := 0x18
def MGT_MBSTAT_BUSY : Fld := ⟨MGT_MBSTAT, 0, 1, .ro, 0⟩
def MGT_MBSTAT_DONE : Fld := ⟨MGT_MBSTAT, 1, 1, .rw1c, 0⟩
def MGT_MBSTAT_RESULT : Fld := ⟨MGT_MBSTAT, 8, 8, .ro, 0⟩
def MGT_MBSTAT_RLEN : Fld := ⟨MGT_MBSTAT, 16, 7, .ro, 0⟩
/-- MGT_MBDATA — Mailbox data, n = 0 to 63 (R432). -/
def MGT_MBDATA (n : Nat) : Nat := 0x100 + 0x8 * n
def MGT_MBDATA_DATA (n : Nat) : Fld := ⟨MGT_MBDATA n, 0, 64, .rw, 0⟩
/-- MGT_LOCK — Lockstep status (R432). -/
def MGT_LOCK : Nat := 0x20
def MGT_LOCK_P0UP : Fld := ⟨MGT_LOCK, 0, 1, .ro, 1⟩
def MGT_LOCK_P1UP : Fld := ⟨MGT_LOCK, 1, 1, .ro, 1⟩
def MGT_LOCK_MISM0 : Fld := ⟨MGT_LOCK, 16, 24, .ro, 0⟩
def MGT_LOCK_MISM1 : Fld := ⟨MGT_LOCK, 40, 24, .ro, 0⟩
/-- MGT_BOOT — Boot images (R432). -/
def MGT_BOOT : Nat := 0x28
def MGT_BOOT_SEL : Fld := ⟨MGT_BOOT, 0, 1, .rw, 0⟩
def MGT_BOOT_RUN : Fld := ⟨MGT_BOOT, 1, 1, .ro, 0⟩
def MGT_BOOT_RECOV : Fld := ⟨MGT_BOOT, 2, 1, .ro, 0⟩
def MGT_BOOT_SVN : Fld := ⟨MGT_BOOT, 8, 16, .ro, 0⟩
/-- PWR_PROFILE — Profile (R432). -/
def PWR_PROFILE : Nat := 0x10000
def PWR_PROFILE_CUR : Fld := ⟨PWR_PROFILE, 0, 2, .ro, 1⟩
def PWR_PROFILE_REQ : Fld := ⟨PWR_PROFILE, 2, 2, .rw, 1⟩
def PWR_PROFILE_GO : Fld := ⟨PWR_PROFILE, 4, 1, .wo, 0⟩
def PWR_PROFILE_BUSY : Fld := ⟨PWR_PROFILE, 5, 1, .ro, 0⟩
def PWR_PROFILE_REFUSED : Fld := ⟨PWR_PROFILE, 6, 1, .rw1c, 0⟩
/-- PWR_DOMCTL — Domain control (R432). -/
def PWR_DOMCTL : Nat := 0x10008
def PWR_DOMCTL_DOM : Fld := ⟨PWR_DOMCTL, 0, 5, .wo, 0⟩
def PWR_DOMCTL_OP : Fld := ⟨PWR_DOMCTL, 5, 2, .wo, 0⟩
def PWR_DOMCTL_REFUSED : Fld := ⟨PWR_DOMCTL, 7, 1, .rw1c, 0⟩
def PWR_DOMCTL_REFCODE : Fld := ⟨PWR_DOMCTL, 8, 4, .ro, 0⟩
/-- PWR_DOMSTAT — Domain state (R432). -/
def PWR_DOMSTAT : Nat := 0x10010
def PWR_DOMSTAT_ON : Fld := ⟨PWR_DOMSTAT, 0, 25, .ro, 0⟩
/-- PWR_VIN — Input (R432). -/
def PWR_VIN : Nat := 0x10018
def PWR_VIN_VIN : Fld := ⟨PWR_VIN, 0, 16, .ro, 0⟩
def PWR_VIN_PIN : Fld := ⟨PWR_VIN, 16, 16, .ro, 0⟩
def PWR_VIN_LOWV : Fld := ⟨PWR_VIN, 32, 1, .rw1c, 0⟩
/-- PWR_CAP — Power cap (R432). -/
def PWR_CAP : Nat := 0x10020
def PWR_CAP_CAP : Fld := ⟨PWR_CAP, 0, 16, .rw, 0x960⟩
def PWR_CAP_LEVEL : Fld := ⟨PWR_CAP, 16, 5, .ro, 0x10⟩
/-- PWR_ENERGY — Energy, g = 0 to 6 (R432). -/
def PWR_ENERGY (g : Nat) : Nat := 0x10100 + 0x8 * g
def PWR_ENERGY_UJ (g : Nat) : Fld := ⟨PWR_ENERGY g, 0, 64, .ro, 0⟩
/-- RST_CTL — Reset control (R432). -/
def RST_CTL : Nat := 0x20000
def RST_CTL_OP : Fld := ⟨RST_CTL, 0, 3, .wo, 0⟩
def RST_CTL_PART : Fld := ⟨RST_CTL, 4, 3, .wo, 0⟩
def RST_CTL_LCORE : Fld := ⟨RST_CTL, 8, 8, .wo, 0⟩
/-- RST_STAT — Reset status (R432). -/
def RST_STAT : Nat := 0x20008
def RST_STAT_LAST : Fld := ⟨RST_STAT, 0, 3, .ro, 1⟩
def RST_STAT_CAUSE : Fld := ⟨RST_STAT, 4, 4, .ro, 0⟩
def RST_STAT_READY : Fld := ⟨RST_STAT, 8, 1, .ro, 0⟩
def RST_STAT_INRESET : Fld := ⟨RST_STAT, 9, 1, .ro, 1⟩
def RST_STAT_REFUSED : Fld := ⟨RST_STAT, 10, 1, .rw1c, 0⟩
def RST_STAT_WARMS : Fld := ⟨RST_STAT, 32, 32, .ro, 0⟩
/-- THM_CFG — Thermal thresholds (R432). -/
def THM_CFG : Nat := 0x30000
def THM_CFG_DTHROT : Fld := ⟨THM_CFG, 0, 8, .rw, 0x69⟩
def THM_CFG_DHYST : Fld := ⟨THM_CFG, 8, 4, .rw, 3⟩
def THM_CFG_WARN : Fld := ⟨THM_CFG, 16, 8, .rw, 0x64⟩
def THM_CFG_TRIP : Fld := ⟨THM_CFG, 24, 8, .rw, 0x78⟩
def THM_CFG_STRIP : Fld := ⟨THM_CFG, 32, 8, .rw, 0x69⟩
/-- THM_STAT — Thermal status (R432). -/
def THM_STAT : Nat := 0x30008
def THM_STAT_LVL0 : Fld := ⟨THM_STAT, 0, 5, .ro, 0x10⟩
def THM_STAT_LVL1 : Fld := ⟨THM_STAT, 8, 5, .ro, 0x10⟩
def THM_STAT_DTHR : Fld := ⟨THM_STAT, 13, 1, .ro, 0⟩
def THM_STAT_TRIPPED : Fld := ⟨THM_STAT, 14, 1, .ro, 0⟩
def THM_STAT_TRIPSRC : Fld := ⟨THM_STAT, 16, 8, .ro, 0⟩
/-- THM_SENS — Sensor, s = 0 to 47 (R432). -/
def THM_SENS (s : Nat) : Nat := 0x30100 + 0x8 * s
def THM_SENS_TEMP (s : Nat) : Fld := ⟨THM_SENS s, 0, 16, .ro, 0⟩
def THM_SENS_MAX (s : Nat) : Fld := ⟨THM_SENS s, 16, 16, .rc, 0⟩
/-- DBG_STAT — Debug status (R444). -/
def DBG_STAT : Nat := 0xd00000
def DBG_STAT_JUNLOCK : Fld := ⟨DBG_STAT, 0, 1, .ro, 0⟩
def DBG_STAT_APERR : Fld := ⟨DBG_STAT, 1, 1, .rw1c, 0⟩
/-- DBG_CHAL — Unlock challenge (R444). -/
def DBG_CHAL : Nat := 0xd00008
def DBG_CHAL_CHAL : Fld := ⟨DBG_CHAL, 0, 64, .ro, 0⟩
/-- DBG_CORECTL — Core stop (R444). -/
def DBG_CORECTL : Nat := 0xd00010
def DBG_CORECTL_LCORE : Fld := ⟨DBG_CORECTL, 0, 8, .rw, 0⟩
def DBG_CORECTL_STOP : Fld := ⟨DBG_CORECTL, 8, 1, .wo, 0⟩
def DBG_CORECTL_RESUME : Fld := ⟨DBG_CORECTL, 9, 1, .wo, 0⟩
def DBG_CORECTL_STOPPED : Fld := ⟨DBG_CORECTL, 10, 1, .ro, 0⟩
/-- DBG_HEAD — Head instruction, E = 0 to 3 (R444). -/
def DBG_HEAD (E : Nat) : Nat := 0xd00020 + 0x8 * E
def DBG_HEAD_WORD (E : Nat) : Fld := ⟨DBG_HEAD E, 0, 64, .ro, 0⟩
/-- DBG_APADDR — Access-port address (R444). -/
def DBG_APADDR : Nat := 0xd00040
def DBG_APADDR_ADDR : Fld := ⟨DBG_APADDR, 0, 48, .rw, 0⟩
def DBG_APADDR_SPACE : Fld := ⟨DBG_APADDR, 48, 1, .rw, 0⟩
def DBG_APADDR_PART : Fld := ⟨DBG_APADDR, 49, 3, .rw, 0⟩
/-- DBG_APDATA — Access-port data (R444). -/
def DBG_APDATA : Nat := 0xd00048
def DBG_APDATA_DATA : Fld := ⟨DBG_APDATA, 0, 64, .rw, 0⟩
/-- TRC_REGION — Trace region, p = 0 to 7 (R444). -/
def TRC_REGION (p : Nat) : Nat := 0xe00000 + 0x8 * p
def TRC_REGION_EN (p : Nat) : Fld := ⟨TRC_REGION p, 0, 1, .rw, 0⟩
def TRC_REGION_WRAP (p : Nat) : Fld := ⟨TRC_REGION p, 1, 1, .rw, 1⟩
def TRC_REGION_REFUSED (p : Nat) : Fld := ⟨TRC_REGION p, 2, 1, .rw1c, 0⟩
def TRC_REGION_REFCODE (p : Nat) : Fld := ⟨TRC_REGION p, 4, 4, .ro, 0⟩
def TRC_REGION_PAGES (p : Nat) : Fld := ⟨TRC_REGION p, 8, 13, .rw, 0⟩
def TRC_REGION_BASE (p : Nat) : Fld := ⟨TRC_REGION p, 21, 19, .rw, 0⟩
/-- CNT_CTL — Counter control (R444). -/
def CNT_CTL : Nat := 0xf00000
def CNT_CTL_CLR : Fld := ⟨CNT_CTL, 0, 1, .wo, 0⟩
/-- CNT_SNAP — Capture (R444). -/
def CNT_SNAP : Nat := 0xf00008
def CNT_SNAP_GROUP : Fld := ⟨CNT_SNAP, 0, 5, .wo, 0⟩
def CNT_SNAP_GO : Fld := ⟨CNT_SNAP, 5, 1, .wo, 0⟩
/-- CNT_GRP — Group, g = 0 to 31 (R444). -/
def CNT_GRP (g : Nat) : Nat := 0xf00100 + 0x10 * g
def CNT_GRP_KIND (g : Nat) : Fld := ⟨CNT_GRP g, 0, 4, .rw, 0⟩
def CNT_GRP_CLR (g : Nat) : Fld := ⟨CNT_GRP g, 4, 1, .rw, 0⟩
def CNT_GRP_OV (g : Nat) : Fld := ⟨CNT_GRP g, 5, 1, .rw, 0⟩
def CNT_GRP_OWNER (g : Nat) : Fld := ⟨CNT_GRP g, 6, 3, .rw, 0⟩
def CNT_GRP_DSTERR (g : Nat) : Fld := ⟨CNT_GRP g, 9, 1, .rw1c, 0⟩
def CNT_GRP_SEL (g : Nat) : Fld := ⟨CNT_GRP g, 16, 8, .rw, 0⟩
def CNT_GRP_NUM (g : Nat) : Fld := ⟨CNT_GRP g, 24, 4, .rw, 1⟩
def CNT_GRP_MERGED (g : Nat) : Fld := ⟨CNT_GRP g, 32, 16, .rc, 0⟩
/-- CNT_GDST — Group destination (R444). -/
def CNT_GDST (g : Nat) : Nat := 0xf00108 + 0x10 * g
def CNT_GDST_VA (g : Nat) : Fld := ⟨CNT_GDST g, 0, 48, .rw, 0⟩
/-- CNT_REC — Record word n = 0 to 1,023 (R444). -/
def CNT_REC (g n : Nat) : Nat := 0xf80000 + 0x2000 * g + 0x8 * n
def CNT_REC_WORD (g n : Nat) : Fld := ⟨CNT_REC g n, 0, 64, .ro, 0⟩
/-- CNT_BUSY — Counters of device logical core c (R444). -/
def CNT_BUSY (c E : Nat) : Nat := 0xf10000 + 0x400 * c + 0x100 * E
def CNT_BUSY_BUSY (c E : Nat) : Fld := ⟨CNT_BUSY c E, 0, 64, .ro, 0⟩
/-- CNT_STALL — Counters of device logical core c (R444). -/
def CNT_STALL (c E : Nat) : Nat := 0xf10008 + 0x400 * c + 0x100 * E
def CNT_STALL_STALL (c E : Nat) : Fld := ⟨CNT_STALL c E, 0, 64, .ro, 0⟩
/-- CNT_IDLE — Counters of device logical core c (R444). -/
def CNT_IDLE (c E : Nat) : Nat := 0xf10010 + 0x400 * c + 0x100 * E
def CNT_IDLE_IDLE (c E : Nat) : Fld := ⟨CNT_IDLE c E, 0, 64, .ro, 0⟩
/-- CNT_REASON — Counters of device logical core c (R444). -/
def CNT_REASON (c E k : Nat) : Nat := 0xf10040 + 0x400 * c + 0x100 * E + 0x8 * k
def CNT_REASON_REASON (c E k : Nat) : Fld := ⟨CNT_REASON c E k, 0, 64, .ro, 0⟩
/-- PD_STEP — Command stepping (R445). -/
def PD_STEP (p : Nat) : Nat := 0xe01000 + 0x1000 * p
def PD_STEP_EN (p : Nat) : Fld := ⟨PD_STEP p, 0, 1, .rw, 0⟩
def PD_STEP_GO (p : Nat) : Fld := ⟨PD_STEP p, 1, 1, .wo, 0⟩
def PD_STEP_HELD (p : Nat) : Fld := ⟨PD_STEP p, 2, 2, .ro, 0⟩
def PD_STEP_HJSEQ (p : Nat) : Fld := ⟨PD_STEP p, 32, 32, .ro, 0⟩
/-- PD_DUMPTAB — Name table (R445). -/
def PD_DUMPTAB (p : Nat) : Nat := 0xe01008 + 0x1000 * p
def PD_DUMPTAB_VA (p : Nat) : Fld := ⟨PD_DUMPTAB p, 0, 48, .rw, 0⟩
def PD_DUMPTAB_ENTRIES (p : Nat) : Fld := ⟨PD_DUMPTAB p, 48, 12, .rw, 0⟩
/-- PD_DUMPNAME — Name, n = 0 to 3 (R445). -/
def PD_DUMPNAME (p n : Nat) : Nat := 0xe01010 + 0x1000 * p + 0x8 * n
def PD_DUMPNAME_BYTES (p n : Nat) : Fld := ⟨PD_DUMPNAME p n, 0, 64, .rw, 0⟩
/-- PD_DUMPCFG — Dump step (R445). -/
def PD_DUMPCFG (p : Nat) : Nat := 0xe01030 + 0x1000 * p
def PD_DUMPCFG_STEP (p : Nat) : Fld := ⟨PD_DUMPCFG p, 0, 32, .rw, 0⟩
def PD_DUMPCFG_ARM (p : Nat) : Fld := ⟨PD_DUMPCFG p, 32, 1, .wo, 0⟩
/-- PD_DUMPDST — Dump destination (R445). -/
def PD_DUMPDST (p : Nat) : Nat := 0xe01038 + 0x1000 * p
def PD_DUMPDST_VA (p : Nat) : Fld := ⟨PD_DUMPDST p, 0, 48, .rw, 0⟩
/-- PD_DUMPSTAT — Dump status (R445). -/
def PD_DUMPSTAT (p : Nat) : Nat := 0xe01040 + 0x1000 * p
def PD_DUMPSTAT_ARMED (p : Nat) : Fld := ⟨PD_DUMPSTAT p, 0, 1, .ro, 0⟩
def PD_DUMPSTAT_DONE (p : Nat) : Fld := ⟨PD_DUMPSTAT p, 1, 1, .rw1c, 0⟩
def PD_DUMPSTAT_ARMERR (p : Nat) : Fld := ⟨PD_DUMPSTAT p, 2, 1, .rw1c, 0⟩
def PD_DUMPSTAT_MISSED (p : Nat) : Fld := ⟨PD_DUMPSTAT p, 3, 1, .rw1c, 0⟩
def PD_DUMPSTAT_PSN (p : Nat) : Fld := ⟨PD_DUMPSTAT p, 4, 1, .rw1c, 0⟩
/-- PD_TRC — Trace pointers (R445). -/
def PD_TRC (p : Nat) : Nat := 0xe01048 + 0x1000 * p
def PD_TRC_TAIL (p : Nat) : Fld := ⟨PD_TRC p, 0, 32, .ro, 0⟩
def PD_TRC_HEAD (p : Nat) : Fld := ⟨PD_TRC p, 32, 32, .rw, 0⟩
/-- PD_TRCMARK — Trace mark (R445). -/
def PD_TRCMARK (p : Nat) : Nat := 0xe01050 + 0x1000 * p
def PD_TRCMARK_VALUE (p : Nat) : Fld := ⟨PD_TRCMARK p, 0, 64, .wo, 0⟩
/-- HIF_STAT — Host link status (R471). -/
def HIF_STAT : Nat := 0x80000
def HIF_STAT_SPEED : Fld := ⟨HIF_STAT, 0, 3, .ro, 0⟩
def HIF_STAT_WIDTH : Fld := ⟨HIF_STAT, 3, 5, .ro, 0⟩
def HIF_STAT_FLIT : Fld := ⟨HIF_STAT, 8, 1, .ro, 0⟩
def HIF_STAT_L0 : Fld := ⟨HIF_STAT, 9, 1, .ro, 0⟩
def HIF_STAT_VFEN : Fld := ⟨HIF_STAT, 10, 8, .ro, 0⟩
def HIF_STAT_PFBME : Fld := ⟨HIF_STAT, 18, 1, .ro, 0⟩
def HIF_STAT_ATSEN : Fld := ⟨HIF_STAT, 19, 1, .ro, 0⟩
/-- HIF_ERRCNT — Host link errors (R471). -/
def HIF_ERRCNT : Nat := 0x80008
def HIF_ERRCNT_CTO : Fld := ⟨HIF_ERRCNT, 0, 16, .rc, 0⟩
def HIF_ERRCNT_URCA : Fld := ⟨HIF_ERRCNT, 16, 16, .rc, 0⟩
def HIF_ERRCNT_PSNRX : Fld := ⟨HIF_ERRCNT, 32, 16, .rc, 0⟩
def HIF_ERRCNT_RETRAIN : Fld := ⟨HIF_ERRCNT, 48, 16, .rc, 0⟩
/-- HIF_MODID — Module identity (R471). -/
def HIF_MODID : Nat := 0x80010
def HIF_MODID_CODE : Fld := ⟨HIF_MODID, 0, 4, .ro, 0⟩
def HIF_MODID_BALMAX : Fld := ⟨HIF_MODID, 4, 1, .ro, 0⟩
def HIF_MODID_FLEET : Fld := ⟨HIF_MODID, 5, 1, .ro, 0⟩
def HIF_MODID_SMBADDR : Fld := ⟨HIF_MODID, 6, 2, .ro, 0⟩
def HIF_MODID_LPRS : Fld := ⟨HIF_MODID, 8, 8, .ro, 0⟩
/-- EXR_PC — exception record word (R64). -/
def EXR_PC (c E : Nat) : Nat := 0x1000108 + 0x10000 * c + 0x40 * E
def EXR_PC_VAL (c E : Nat) : Fld := ⟨EXR_PC c E, 0, 48, .ro, 0⟩
/-- EXR_INSN — exception record word (R64). -/
def EXR_INSN (c E : Nat) : Nat := 0x1000110 + 0x10000 * c + 0x40 * E
def EXR_INSN_VAL (c E : Nat) : Fld := ⟨EXR_INSN c E, 0, 64, .ro, 0⟩
/-- EXR_EXT — exception record word (R64). -/
def EXR_EXT (c E : Nat) : Nat := 0x1000118 + 0x10000 * c + 0x40 * E
def EXR_EXT_VAL (c E : Nat) : Fld := ⟨EXR_EXT c E, 0, 64, .ro, 0⟩
/-- EXR_ADDR — exception record word (R64). -/
def EXR_ADDR (c E : Nat) : Nat := 0x1000120 + 0x10000 * c + 0x40 * E
def EXR_ADDR_VAL (c E : Nat) : Fld := ⟨EXR_ADDR c E, 0, 64, .ro, 0⟩
/-- EXR_PROG — exception record word (R64). -/
def EXR_PROG (c E : Nat) : Nat := 0x1000128 + 0x10000 * c + 0x40 * E
def EXR_PROG_VAL (c E : Nat) : Fld := ⟨EXR_PROG c E, 0, 64, .ro, 0⟩
/-- EXR_MODE — exception record word (R64). -/
def EXR_MODE (c E : Nat) : Nat := 0x1000130 + 0x10000 * c + 0x40 * E
def EXR_MODE_VAL (c E : Nat) : Fld := ⟨EXR_MODE c E, 0, 64, .ro, 0⟩

end Reg

/-- The fields of a register, given its name and its indices in the order of its dimensions. -/
def fieldsOf (r : RegName) (i : List Nat) : List Fld :=
  match r with
  | .ST_CFG => [Reg.ST_CFG_EN (i.getD 0 0) (i.getD 1 0), Reg.ST_CFG_SLOT (i.getD 0 0) (i.getD 1 0), Reg.ST_CFG_CAP (i.getD 0 0) (i.getD 1 0), Reg.ST_CFG_BASE (i.getD 0 0) (i.getD 1 0), Reg.ST_CFG_PROD (i.getD 0 0) (i.getD 1 0), Reg.ST_CFG_CONS (i.getD 0 0) (i.getD 1 0)]
  | .ST_STAT => [Reg.ST_STAT_OCC (i.getD 0 0) (i.getD 1 0), Reg.ST_STAT_HEAD (i.getD 0 0) (i.getD 1 0), Reg.ST_STAT_PSTALL (i.getD 0 0) (i.getD 1 0), Reg.ST_STAT_CSTALL (i.getD 0 0) (i.getD 1 0), Reg.ST_STAT_IDLE (i.getD 0 0) (i.getD 1 0), Reg.ST_STAT_EMPTY_EV (i.getD 0 0) (i.getD 1 0), Reg.ST_STAT_FULL_EV (i.getD 0 0) (i.getD 1 0), Reg.ST_STAT_CFGERR (i.getD 0 0) (i.getD 1 0), Reg.ST_STAT_CFGERR_CODE (i.getD 0 0) (i.getD 1 0)]
  | .ST_EVCFG => [Reg.ST_EVCFG_EFLAG_EN (i.getD 0 0) (i.getD 1 0), Reg.ST_EVCFG_FFLAG_EN (i.getD 0 0) (i.getD 1 0), Reg.ST_EVCFG_IRQ_EMPTY (i.getD 0 0) (i.getD 1 0), Reg.ST_EVCFG_IRQ_FULL (i.getD 0 0) (i.getD 1 0), Reg.ST_EVCFG_FLAG (i.getD 0 0) (i.getD 1 0)]
  | .EXR_CAUSE => [Reg.EXR_CAUSE_VALID (i.getD 0 0) (i.getD 1 0), Reg.EXR_CAUSE_CAUSE (i.getD 0 0) (i.getD 1 0), Reg.EXR_CAUSE_SUB (i.getD 0 0) (i.getD 1 0), Reg.EXR_CAUSE_DS (i.getD 0 0) (i.getD 1 0), Reg.EXR_CAUSE_LEND (i.getD 0 0) (i.getD 1 0), Reg.EXR_CAUSE_LDEPTH (i.getD 0 0) (i.getD 1 0), Reg.EXR_CAUSE_STATION (i.getD 0 0) (i.getD 1 0), Reg.EXR_CAUSE_PVALID (i.getD 0 0) (i.getD 1 0), Reg.EXR_CAUSE_ASPACE (i.getD 0 0) (i.getD 1 0)]
  | .SQ_TRAP => [Reg.SQ_TRAP_TRET (i.getD 0 0), Reg.SQ_TRAP_INTRAP (i.getD 0 0), Reg.SQ_TRAP_PEND (i.getD 0 0)]
  | .SQ_RESUME => [Reg.SQ_RESUME_RES (i.getD 0 0), Reg.SQ_RESUME_SKP (i.getD 0 0)]
  | .MX_STAT => [Reg.MX_STAT_IDLE (i.getD 0 0), Reg.MX_STAT_B0BUSY (i.getD 0 0), Reg.MX_STAT_B1BUSY (i.getD 0 0), Reg.MX_STAT_DRBUSY (i.getD 0 0), Reg.MX_STAT_ACCDENY (i.getD 0 0), Reg.MX_STAT_CHKST (i.getD 0 0), Reg.MX_STAT_TAGS (i.getD 0 0)]
  | .MX_SIDE => [Reg.MX_SIDE_BASE (i.getD 0 0), Reg.MX_SIDE_CNT (i.getD 0 0), Reg.MX_SIDE_NEXT (i.getD 0 0)]
  | .MX_CHKCNT => [Reg.MX_CHKCNT_MISMATCH (i.getD 0 0), Reg.MX_CHKCNT_RETRY (i.getD 0 0)]
  | .MX_CHKSKIP => [Reg.MX_CHKSKIP_SKIP (i.getD 0 0), Reg.MX_CHKSKIP_PERSIST (i.getD 0 0)]
  | .MX_CHKLOC => [Reg.MX_CHKLOC_ROW (i.getD 0 0), Reg.MX_CHKLOC_COL (i.getD 0 0), Reg.MX_CHKLOC_KIND (i.getD 0 0), Reg.MX_CHKLOC_LOCV (i.getD 0 0)]
  | .MX_LADDER => [Reg.MX_LADDER_OCC0 (i.getD 0 0), Reg.MX_LADDER_OCC1 (i.getD 0 0)]
  | .MX_ACCSEL => [Reg.MX_ACCSEL_SLOT (i.getD 0 0), Reg.MX_ACCSEL_SRC (i.getD 0 0), Reg.MX_ACCSEL_RUNG (i.getD 0 0), Reg.MX_ACCSEL_BANK (i.getD 0 0), Reg.MX_ACCSEL_ROW (i.getD 0 0)]
  | .MX_ACCDATA => [Reg.MX_ACCDATA_ELEM_LO (i.getD 0 0) (i.getD 1 0), Reg.MX_ACCDATA_ELEM_HI (i.getD 0 0) (i.getD 1 0)]
  | .GAU_CNT => [Reg.GAU_CNT_SAT (i.getD 0 0) (i.getD 1 0), Reg.GAU_CNT_FLUSH (i.getD 0 0) (i.getD 1 0)]
  | .GAU_NAN => [Reg.GAU_NAN_NAN (i.getD 0 0) (i.getD 1 0)]
  | .GAU_CTL => [Reg.GAU_CTL_CLRCNT (i.getD 0 0), Reg.GAU_CTL_CLRH (i.getD 0 0)]
  | .GAU_WATCH => [Reg.GAU_WATCH_MASK (i.getD 0 0)]
  | .GAU_HCFG => [Reg.GAU_HCFG_EN (i.getD 0 0) (i.getD 1 0), Reg.GAU_HCFG_STATION (i.getD 0 0) (i.getD 1 0)]
  | .GAU_HAUX => [Reg.GAU_HAUX_ZERO (i.getD 0 0) (i.getD 1 0), Reg.GAU_HAUX_NAN (i.getD 0 0) (i.getD 1 0)]
  | .GAU_HBIN => [Reg.GAU_HBIN_BIN_LO (i.getD 0 0) (i.getD 1 0) (i.getD 2 0), Reg.GAU_HBIN_BIN_HI (i.getD 0 0) (i.getD 1 0) (i.getD 2 0)]
  | .LS_CFG => [Reg.LS_CFG_N (i.getD 0 0), Reg.LS_CFG_LSE_MIN (i.getD 0 0), Reg.LS_CFG_LSE_MAX (i.getD 0 0), Reg.LS_CFG_LSE_INIT (i.getD 0 0), Reg.LS_CFG_EN (i.getD 0 0)]
  | .LS_STAT => [Reg.LS_STAT_LSE (i.getD 0 0), Reg.LS_STAT_CLEAN (i.getD 0 0), Reg.LS_STAT_OVF_LOCAL (i.getD 0 0), Reg.LS_STAT_OVF_PEND (i.getD 0 0), Reg.LS_STAT_CLOSING (i.getD 0 0), Reg.LS_STAT_INCOMPLETE (i.getD 0 0), Reg.LS_STAT_FLOOR (i.getD 0 0), Reg.LS_STAT_MIRRORERR (i.getD 0 0), Reg.LS_STAT_SEQ (i.getD 0 0)]
  | .LS_CTL => [Reg.LS_CTL_SETLSE (i.getD 0 0), Reg.LS_CTL_SETOVF (i.getD 0 0), Reg.LS_CTL_EVAL (i.getD 0 0), Reg.LS_CTL_VAL (i.getD 0 0)]
  | .LS_MIRROR => [Reg.LS_MIRROR_EN (i.getD 0 0), Reg.LS_MIRROR_ADDR (i.getD 0 0)]
  | .SR_SEED => [Reg.SR_SEED_SEED (i.getD 0 0)]
  | .PH_SEL => [Reg.PH_SEL_UNIT (i.getD 0 0)]
  | .PH_AUX => [Reg.PH_AUX_ZERO (i.getD 0 0), Reg.PH_AUX_NAN (i.getD 0 0)]
  | .PH_BIN => [Reg.PH_BIN_BIN_LO (i.getD 0 0) (i.getD 1 0), Reg.PH_BIN_BIN_HI (i.getD 0 0) (i.getD 1 0)]
  | .VX_STAT => [Reg.VX_STAT_IDLE (i.getD 0 0), Reg.VX_STAT_NIN (i.getD 0 0), Reg.VX_STAT_NOUT (i.getD 0 0), Reg.VX_STAT_COMPAT (i.getD 0 0)]
  | .SFU_SETID => [Reg.SFU_SETID_SETID (i.getD 0 0)]
  | .SFU_FNMAP => [Reg.SFU_FNMAP_DEF (i.getD 0 0) (i.getD 1 0)]
  | .SFU_EVCNT => [Reg.SFU_EVCNT_NRMNEG (i.getD 0 0), Reg.SFU_EVCNT_SMXZERO (i.getD 0 0)]
  | .SFU_CTXSEL => [Reg.SFU_CTXSEL_CTX (i.getD 0 0), Reg.SFU_CTXSEL_KIND (i.getD 0 0), Reg.SFU_CTXSEL_QTY (i.getD 0 0)]
  | .SFU_CTXDATA => [Reg.SFU_CTXDATA_ROW_LO (i.getD 0 0) (i.getD 1 0), Reg.SFU_CTXDATA_ROW_HI (i.getD 0 0) (i.getD 1 0)]
  | .SY_FLAG => [Reg.SY_FLAG_VALUE (i.getD 0 0) (i.getD 1 0)]
  | .RC_CFG => [Reg.RC_CFG_EN (i.getD 0 0) (i.getD 1 0), Reg.RC_CFG_MEMBER (i.getD 0 0) (i.getD 1 0), Reg.RC_CFG_SCOPE (i.getD 0 0) (i.getD 1 0), Reg.RC_CFG_HDEV (i.getD 0 0) (i.getD 1 0), Reg.RC_CFG_HCORE (i.getD 0 0) (i.getD 1 0), Reg.RC_CFG_EXPECT (i.getD 0 0) (i.getD 1 0)]
  | .RC_NET => [Reg.RC_NET_STREAM (i.getD 0 0) (i.getD 1 0), Reg.RC_NET_WDLIM (i.getD 0 0) (i.getD 1 0), Reg.RC_NET_WDFENCE (i.getD 0 0) (i.getD 1 0)]
  | .RC_STAT => [Reg.RC_STAT_GEN (i.getD 0 0) (i.getD 1 0), Reg.RC_STAT_COUNT (i.getD 0 0) (i.getD 1 0), Reg.RC_STAT_ARRIVED (i.getD 0 0) (i.getD 1 0), Reg.RC_STAT_WDFIRED (i.getD 0 0) (i.getD 1 0), Reg.RC_STAT_OVER (i.getD 0 0) (i.getD 1 0)]
  | .RC_CTL => [Reg.RC_CTL_OBJ (i.getD 0 0), Reg.RC_CTL_OP (i.getD 0 0)]
  | .HP => [Reg.HP_HELD (i.getD 0 0) (i.getD 1 0), Reg.HP_ORPHANED (i.getD 0 0) (i.getD 1 0), Reg.HP_OWNER (i.getD 0 0) (i.getD 1 0), Reg.HP_OEPOCH (i.getD 0 0) (i.getD 1 0), Reg.HP_WAITERS (i.getD 0 0) (i.getD 1 0)]
  | .HP_CTL => [Reg.HP_CTL_OBJ (i.getD 0 0), Reg.HP_CTL_OP (i.getD 0 0)]
  | .SY_WDCFG => [Reg.SY_WDCFG_LIMIT (i.getD 0 0), Reg.SY_WDCFG_FENCE (i.getD 0 0)]
  | .SY_WDSTAT => [Reg.SY_WDSTAT_FIRED (i.getD 0 0), Reg.SY_WDSTAT_STALLING (i.getD 0 0)]
  | .SY_EPOCH => [Reg.SY_EPOCH_EPOCH (i.getD 0 0)]
  | .DMA_STAT => [Reg.DMA_STAT_IDLE (i.getD 0 0), Reg.DMA_STAT_INFLIGHT (i.getD 0 0)]
  | .DMA_FRAGCNT => [Reg.DMA_FRAGCNT_FAILED (i.getD 0 0), Reg.DMA_FRAGCNT_NOPUSH (i.getD 0 0)]
  | .SPW_IN => [Reg.SPW_IN_BYTES (i.getD 0 0)]
  | .SPW_OUT => [Reg.SPW_OUT_BYTES (i.getD 0 0)]
  | .SPW_RAWROW => [Reg.SPW_RAWROW_RAW (i.getD 0 0), Reg.SPW_RAWROW_BADREC (i.getD 0 0)]
  | .SPW_POS => [Reg.SPW_POS_POS (i.getD 0 0)]
  | .HBM_STAT => [Reg.HBM_STAT_STATE (i.getD 0 0), Reg.HBM_STAT_THROT (i.getD 0 0), Reg.HBM_STAT_LEVEL (i.getD 0 0), Reg.HBM_STAT_TEMP (i.getD 0 0), Reg.HBM_STAT_LANEREP (i.getD 0 0)]
  | .HBM_THERM => [Reg.HBM_THERM_THROT_T (i.getD 0 0), Reg.HBM_THERM_HYST (i.getD 0 0)]
  | .HBM_ECCCNT => [Reg.HBM_ECCCNT_CE1 (i.getD 0 0), Reg.HBM_ECCCNT_CE2 (i.getD 0 0)]
  | .HBM_UECNT => [Reg.HBM_UECNT_UE (i.getD 0 0), Reg.HBM_UECNT_PRD (i.getD 0 0), Reg.HBM_UECNT_QDROP (i.getD 0 0)]
  | .HBM_REFCNT => [Reg.HBM_REFCNT_REFWAIT (i.getD 0 0), Reg.HBM_REFCNT_MRMW (i.getD 0 0)]
  | .HBM_HOTCFG => [Reg.HBM_HOTCFG_WINDOW (i.getD 0 0), Reg.HBM_HOTCFG_HOTPCT (i.getD 0 0)]
  | .HBM_HOT => [Reg.HBM_HOT_SECT (i.getD 0 0) (i.getD 1 0), Reg.HBM_HOT_HOT (i.getD 0 0) (i.getD 1 0)]
  | .SCR_BASE => [Reg.SCR_BASE_BASE (i.getD 0 0)]
  | .SCR_LEN => [Reg.SCR_LEN_LEN (i.getD 0 0)]
  | .SCR_CTL => [Reg.SCR_CTL_START (i.getD 0 0), Reg.SCR_CTL_ABORT (i.getD 0 0), Reg.SCR_CTL_WB (i.getD 0 0), Reg.SCR_CTL_LOCAL (i.getD 0 0), Reg.SCR_CTL_RATE (i.getD 0 0)]
  | .SCR_STAT => [Reg.SCR_STAT_RUN (i.getD 0 0), Reg.SCR_STAT_DONE (i.getD 0 0), Reg.SCR_STAT_ABORTED (i.getD 0 0)]
  | .SCR_SUM0 => [Reg.SCR_SUM0_READ (i.getD 0 0)]
  | .SCR_SUM1 => [Reg.SCR_SUM1_CORR (i.getD 0 0), Reg.SCR_SUM1_UNCORR (i.getD 0 0), Reg.SCR_SUM1_POIS (i.getD 0 0)]
  | .TG_CTL => [Reg.TG_CTL_START (i.getD 0 0) (i.getD 1 0), Reg.TG_CTL_STOP (i.getD 0 0) (i.getD 1 0), Reg.TG_CTL_MODE (i.getD 0 0) (i.getD 1 0), Reg.TG_CTL_PAT (i.getD 0 0) (i.getD 1 0), Reg.TG_CTL_SCOPE (i.getD 0 0) (i.getD 1 0), Reg.TG_CTL_RATE (i.getD 0 0) (i.getD 1 0)]
  | .TG_CNT => [Reg.TG_CNT_SECT (i.getD 0 0) (i.getD 1 0)]
  | .TG_SEED => [Reg.TG_SEED_SEED (i.getD 0 0) (i.getD 1 0)]
  | .TG_STAT => [Reg.TG_STAT_RUN (i.getD 0 0) (i.getD 1 0), Reg.TG_STAT_REFUSED (i.getD 0 0) (i.getD 1 0), Reg.TG_STAT_FAILS (i.getD 0 0) (i.getD 1 0)]
  | .TG_FAIL => [Reg.TG_FAIL_L (i.getD 0 0) (i.getD 1 0), Reg.TG_FAIL_PCH (i.getD 0 0) (i.getD 1 0), Reg.TG_FAIL_VALID (i.getD 0 0) (i.getD 1 0)]
  | .HBM_SEED => [Reg.HBM_SEED_SEED (i.getD 0 0)]
  | .HBM_REHASH => [Reg.HBM_REHASH_NEWSEED, Reg.HBM_REHASH_PART, Reg.HBM_REHASH_GO, Reg.HBM_REHASH_BUSY]
  | .LNK_CTL => [Reg.LNK_CTL_EN (i.getD 0 0), Reg.LNK_CTL_RETRAIN (i.getD 0 0), Reg.LNK_CTL_RESET (i.getD 0 0), Reg.LNK_CTL_READMIT (i.getD 0 0), Reg.LNK_CTL_AUTORD (i.getD 0 0), Reg.LNK_CTL_LANEOK (i.getD 0 0), Reg.LNK_CTL_NAKMAX (i.getD 0 0), Reg.LNK_CTL_NAKTMO (i.getD 0 0), Reg.LNK_CTL_LOSPAUSE (i.getD 0 0)]
  | .LNK_STAT => [Reg.LNK_STAT_STATE (i.getD 0 0), Reg.LNK_STAT_TXLANES (i.getD 0 0), Reg.LNK_STAT_RXLANES (i.getD 0 0), Reg.LNK_STAT_NQUIET (i.getD 0 0), Reg.LNK_STAT_MISWIRED (i.getD 0 0), Reg.LNK_STAT_FEED (i.getD 0 0)]
  | .LNK_EXPECT => [Reg.LNK_EXPECT_DEV (i.getD 0 0), Reg.LNK_EXPECT_LINK (i.getD 0 0), Reg.LNK_EXPECT_VALID (i.getD 0 0)]
  | .LNK_NBR => [Reg.LNK_NBR_DEV (i.getD 0 0), Reg.LNK_NBR_LINK (i.getD 0 0), Reg.LNK_NBR_CAPLANES (i.getD 0 0), Reg.LNK_NBR_VALID (i.getD 0 0), Reg.LNK_NBR_TCOUNT (i.getD 0 0)]
  | .LNK_TIMECFG => [Reg.LNK_TIMECFG_ASYM (i.getD 0 0), Reg.LNK_TIMECFG_TEN (i.getD 0 0), Reg.LNK_TIMECFG_TINT (i.getD 0 0)]
  | .LNK_TIME => [Reg.LNK_TIME_OFFSET (i.getD 0 0), Reg.LNK_TIME_DELAY (i.getD 0 0)]
  | .LNK_TSEQ => [Reg.LNK_TSEQ_TDONE (i.getD 0 0), Reg.LNK_TSEQ_TDISC (i.getD 0 0)]
  | .LNK_FECCNT => [Reg.LNK_FECCNT_CSYM (i.getD 0 0), Reg.LNK_FECCNT_UNCW (i.getD 0 0)]
  | .LNK_RETRYCNT => [Reg.LNK_RETRYCNT_BADFLIT (i.getD 0 0), Reg.LNK_RETRYCNT_NAKTX (i.getD 0 0), Reg.LNK_RETRYCNT_NAKRX (i.getD 0 0)]
  | .LNK_EVCNT => [Reg.LNK_EVCNT_DEGRADE (i.getD 0 0), Reg.LNK_EVCNT_RETRAINS (i.getD 0 0), Reg.LNK_EVCNT_PAUSES (i.getD 0 0), Reg.LNK_EVCNT_DOWNS (i.getD 0 0)]
  | .LNK_RXBODY => [Reg.LNK_RXBODY_BYTES (i.getD 0 0)]
  | .LNK_LANE => [Reg.LNK_LANE_RXPWR (i.getD 0 0) (i.getD 1 0), Reg.LNK_LANE_ACTIVE (i.getD 0 0) (i.getD 1 0), Reg.LNK_LANE_FAILED (i.getD 0 0) (i.getD 1 0), Reg.LNK_LANE_SYMERR (i.getD 0 0) (i.getD 1 0)]
  | .RTE_ID => [Reg.RTE_ID_DEV, Reg.RTE_ID_VALID]
  | .RTE_CTL => [Reg.RTE_CTL_BANK, Reg.RTE_CTL_ADAPT, Reg.RTE_CTL_SHAPE, Reg.RTE_CTL_NMTHR]
  | .RTE_SWAPAT => [Reg.RTE_SWAPAT_T]
  | .RTE_RESHAPE => [Reg.RTE_RESHAPE_LINKS, Reg.RTE_RESHAPE_DRAIN, Reg.RTE_RESHAPE_ARM, Reg.RTE_RESHAPE_ARMED, Reg.RTE_RESHAPE_DONE, Reg.RTE_RESHAPE_CANCEL]
  | .RTE_TELCFG => [Reg.RTE_TELCFG_EN, Reg.RTE_TELCFG_RINGLOG, Reg.RTE_TELCFG_INTERVAL, Reg.RTE_TELCFG_TELDROP]
  | .RTE_TELBASE => [Reg.RTE_TELBASE_BASE]
  | .RTE_TELPTR => [Reg.RTE_TELPTR_TAIL, Reg.RTE_TELPTR_HEAD]
  | .RTE_DROPCNT => [Reg.RTE_DROPCNT_NOROUTE, Reg.RTE_DROPCNT_LATE, Reg.RTE_DROPCNT_BADPKT, Reg.RTE_DROPCNT_BADCTX]
  | .RTE_GRP => [Reg.RTE_GRP_L0 (i.getD 0 0) (i.getD 1 0), Reg.RTE_GRP_K0 (i.getD 0 0) (i.getD 1 0), Reg.RTE_GRP_V0 (i.getD 0 0) (i.getD 1 0), Reg.RTE_GRP_L1 (i.getD 0 0) (i.getD 1 0), Reg.RTE_GRP_K1 (i.getD 0 0) (i.getD 1 0), Reg.RTE_GRP_V1 (i.getD 0 0) (i.getD 1 0), Reg.RTE_GRP_ALT0 (i.getD 0 0) (i.getD 1 0), Reg.RTE_GRP_ALT1 (i.getD 0 0) (i.getD 1 0), Reg.RTE_GRP_AV (i.getD 0 0) (i.getD 1 0)]
  | .RTE_POD => [Reg.RTE_POD_G0 (i.getD 0 0) (i.getD 1 0), Reg.RTE_POD_G1 (i.getD 0 0) (i.getD 1 0), Reg.RTE_POD_G2 (i.getD 0 0) (i.getD 1 0), Reg.RTE_POD_G3 (i.getD 0 0) (i.getD 1 0), Reg.RTE_POD_ALT (i.getD 0 0) (i.getD 1 0), Reg.RTE_POD_AV (i.getD 0 0) (i.getD 1 0)]
  | .RTE_OCC => [Reg.RTE_OCC_VC (i.getD 0 0)]
  | .STM_SEL => [Reg.STM_SEL_CTX]
  | .STM_CFG => [Reg.STM_CFG_FDEV, Reg.STM_CFG_FCTX, Reg.STM_CFG_PART, Reg.STM_CFG_GCM]
  | .STM_STAT => [Reg.STM_STAT_STATE, Reg.STM_STAT_CONFIRMB]
  | .STM_SEQ => [Reg.STM_SEQ_N, Reg.STM_SEQ_B]
  | .STM_CNT => [Reg.STM_CNT_RETX, Reg.STM_CNT_DUPS, Reg.STM_CNT_OUTWIN]
  | .STM_CTL => [Reg.STM_CTL_OP]
  | .STM_TIME => [Reg.STM_TIME_TMO, Reg.STM_TIME_LIFE, Reg.STM_TIME_ACKWAIT]
  | .STM_DEVCNT => [Reg.STM_DEVCNT_FAILS, Reg.STM_DEVCNT_UNDELIV]
  | .STM_BOARD => [Reg.STM_BOARD_CTX (i.getD 0 0) (i.getD 1 0), Reg.STM_BOARD_V (i.getD 0 0) (i.getD 1 0)]
  | .CF_STAT => [Reg.CF_STAT_ARMED (i.getD 0 0), Reg.CF_STAT_RUNNING (i.getD 0 0)]
  | .CF_TIME => [Reg.CF_TIME_HOPTMO (i.getD 0 0), Reg.CF_TIME_CWD (i.getD 0 0)]
  | .CF_CNT => [Reg.CF_CNT_DONE (i.getD 0 0), Reg.CF_CNT_BYPASS (i.getD 0 0), Reg.CF_CNT_FAILS (i.getD 0 0)]
  | .CF_NUMCNT => [Reg.CF_NUMCNT_FLUSH (i.getD 0 0), Reg.CF_NUMCNT_WOVF (i.getD 0 0)]
  | .CF_PLANCFG => [Reg.CF_PLANCFG_PART (i.getD 0 0) (i.getD 1 0), Reg.CF_PLANCFG_V (i.getD 0 0) (i.getD 1 0), Reg.CF_PLANCFG_NLEV (i.getD 0 0) (i.getD 1 0)]
  | .CF_LVL => [Reg.CF_LVL_N (i.getD 0 0) (i.getD 1 0) (i.getD 2 0), Reg.CF_LVL_NRING (i.getD 0 0) (i.getD 1 0) (i.getD 2 0)]
  | .CF_RINGA => [Reg.CF_RINGA_NEXT (i.getD 0 0) (i.getD 1 0) (i.getD 2 0) (i.getD 3 0), Reg.CF_RINGA_BYP (i.getD 0 0) (i.getD 1 0) (i.getD 2 0) (i.getD 3 0), Reg.CF_RINGA_V (i.getD 0 0) (i.getD 1 0) (i.getD 2 0) (i.getD 3 0)]
  | .CF_RINGB => [Reg.CF_RINGB_POS (i.getD 0 0) (i.getD 1 0) (i.getD 2 0) (i.getD 3 0), Reg.CF_RINGB_PREV (i.getD 0 0) (i.getD 1 0) (i.getD 2 0) (i.getD 3 0)]
  | .CF_SLOT => [Reg.CF_SLOT_PART (i.getD 0 0) (i.getD 1 0), Reg.CF_SLOT_V (i.getD 0 0) (i.getD 1 0), Reg.CF_SLOT_STATE (i.getD 0 0) (i.getD 1 0), Reg.CF_SLOT_GEN (i.getD 0 0) (i.getD 1 0)]
  | .CF_SLOTBID => [Reg.CF_SLOTBID_BID (i.getD 0 0) (i.getD 1 0), Reg.CF_SLOTBID_STATUS (i.getD 0 0) (i.getD 1 0)]
  | .CF_SLOTCTL => [Reg.CF_SLOTCTL_GO (i.getD 0 0) (i.getD 1 0), Reg.CF_SLOTCTL_ABORT (i.getD 0 0) (i.getD 1 0)]
  | .CF_SLOTWAIT => [Reg.CF_SLOTWAIT_WAITMAX (i.getD 0 0) (i.getD 1 0), Reg.CF_SLOTWAIT_WAITPOS (i.getD 0 0) (i.getD 1 0)]
  | .FRY_STAT => [Reg.FRY_STAT_RUNNING, Reg.FRY_STAT_OPEN]
  | .FRY_BDL => [Reg.FRY_BDL_BDL, Reg.FRY_BDL_JWD]
  | .FRY_CNT => [Reg.FRY_CNT_REFUSED, Reg.FRY_CNT_NOROUTE]
  | .FRY_BCNT => [Reg.FRY_BCNT_BATCHES, Reg.FRY_BCNT_SHORT]
  | .FRY_LATMAX => [Reg.FRY_LATMAX_LAT, Reg.FRY_LATMAX_STREAM]
  | .FRY_RT => [Reg.FRY_RT_BASE (i.getD 0 0), Reg.FRY_RT_ENTRIES (i.getD 0 0)]
  | .FRY_LAG => [Reg.FRY_LAG_STREAM (i.getD 0 0), Reg.FRY_LAG_SHIFT (i.getD 0 0), Reg.FRY_LAG_V (i.getD 0 0)]
  | .FRY_JOB => [Reg.FRY_JOB_PART (i.getD 0 0), Reg.FRY_JOB_V (i.getD 0 0), Reg.FRY_JOB_STATE (i.getD 0 0), Reg.FRY_JOB_GEN (i.getD 0 0)]
  | .FRY_JOBCTL => [Reg.FRY_JOBCTL_GO (i.getD 0 0), Reg.FRY_JOBCTL_ABORT (i.getD 0 0)]
  | .FRY_EQA => [Reg.FRY_EQA_V (i.getD 0 0), Reg.FRY_EQA_PART (i.getD 0 0), Reg.FRY_EQA_NSLOT (i.getD 0 0), Reg.FRY_EQA_ROWB (i.getD 0 0), Reg.FRY_EQA_RROWB (i.getD 0 0), Reg.FRY_EQA_NCORE (i.getD 0 0), Reg.FRY_EQA_NFLAG (i.getD 0 0), Reg.FRY_EQA_RFLAG (i.getD 0 0)]
  | .FRY_EQB => [Reg.FRY_EQB_BUF (i.getD 0 0)]
  | .FRY_EQS => [Reg.FRY_EQS_NEXTRET (i.getD 0 0), Reg.FRY_EQS_CLOSED (i.getD 0 0), Reg.FRY_EQS_OPENROWS (i.getD 0 0)]
  | .BL_CTL => [Reg.BL_CTL_EN, Reg.BL_CTL_SRCSEL, Reg.BL_CTL_FALLBK, Reg.BL_CTL_FORCE, Reg.BL_CTL_HOLDLIM]
  | .BL_STAT => [Reg.BL_STAT_STATE, Reg.BL_STAT_SLEWING, Reg.BL_STAT_DEPTH, Reg.BL_STAT_SRCLINK, Reg.BL_STAT_BIGERR, Reg.BL_STAT_FREEEV]
  | .BL_NOW => [Reg.BL_NOW_NOW]
  | .BL_SRC => [Reg.BL_SRC_CAND]
  | .BL_REFDLY => [Reg.BL_REFDLY_DLY]
  | .BL_ERR => [Reg.BL_ERR_ERR, Reg.BL_ERR_ERRMAX]
  | .BL_CNT => [Reg.BL_CNT_BADFRAME, Reg.BL_CNT_MISSEDGE, Reg.BL_CNT_SWITCHES, Reg.BL_CNT_HOLDS]
  | .BL_DKEY0 => [Reg.BL_DKEY0_STEP, Reg.BL_DKEY0_FWREL, Reg.BL_DKEY0_NUMDEF, Reg.BL_DKEY0_PROFILE]
  | .BL_DKEY1 => [Reg.BL_DKEY1_SETID]
  | .TT_TIME => [Reg.TT_TIME_TIME (i.getD 0 0) (i.getD 1 0)]
  | .TT_ACT => [Reg.TT_ACT_EN (i.getD 0 0) (i.getD 1 0), Reg.TT_ACT_ACT (i.getD 0 0) (i.getD 1 0), Reg.TT_ACT_MISSPOL (i.getD 0 0) (i.getD 1 0), Reg.TT_ACT_ERR (i.getD 0 0) (i.getD 1 0), Reg.TT_ACT_LATE (i.getD 0 0) (i.getD 1 0), Reg.TT_ACT_REP (i.getD 0 0) (i.getD 1 0), Reg.TT_ACT_ARG (i.getD 0 0) (i.getD 1 0), Reg.TT_ACT_PER (i.getD 0 0) (i.getD 1 0)]
  | .TT_CTL => [Reg.TT_CTL_DISALL (i.getD 0 0)]
  | .TT_STAT => [Reg.TT_STAT_FIRED (i.getD 0 0), Reg.TT_STAT_MISSED (i.getD 0 0), Reg.TT_STAT_FAIL (i.getD 0 0), Reg.TT_STAT_FENCED (i.getD 0 0), Reg.TT_STAT_BSTATE (i.getD 0 0)]
  | .TT_PACE => [Reg.TT_PACE_LEVEL (i.getD 0 0)]
  | .TT_NOW => [Reg.TT_NOW_NOW (i.getD 0 0)]
  | .TT_DKEY0 => [Reg.TT_DKEY0_KEY (i.getD 0 0)]
  | .TT_DKEY1 => [Reg.TT_DKEY1_KEY (i.getD 0 0)]
  | .RING_BASE => [Reg.RING_BASE_BASE (i.getD 0 0) (i.getD 1 0), Reg.RING_BASE_SIZELOG (i.getD 0 0) (i.getD 1 0)]
  | .RING_CFG => [Reg.RING_CFG_EN (i.getD 0 0) (i.getD 1 0), Reg.RING_CFG_TTSTEP (i.getD 0 0) (i.getD 1 0)]
  | .CQ_BASE => [Reg.CQ_BASE_BASE (i.getD 0 0) (i.getD 1 0)]
  | .RING_DB => [Reg.RING_DB_V (i.getD 0 0) (i.getD 1 0)]
  | .RING_ACC => [Reg.RING_ACC_ACC (i.getD 0 0) (i.getD 1 0)]
  | .RING_DONE => [Reg.RING_DONE_DONE (i.getD 0 0) (i.getD 1 0)]
  | .CQ_HEAD => [Reg.CQ_HEAD_HEAD (i.getD 0 0) (i.getD 1 0)]
  | .RING_STAT => [Reg.RING_STAT_STOPPED (i.getD 0 0) (i.getD 1 0), Reg.RING_STAT_SEQERR (i.getD 0 0) (i.getD 1 0), Reg.RING_STAT_DBERR (i.getD 0 0) (i.getD 1 0), Reg.RING_STAT_WAIT (i.getD 0 0) (i.getD 1 0)]
  | .JNL_PCFG => [Reg.JNL_PCFG_REPLAYMAX (i.getD 0 0)]
  | .JNL_PSTAT => [Reg.JNL_PSTAT_INUSE (i.getD 0 0), Reg.JNL_PSTAT_RSVFREE (i.getD 0 0)]
  | .JNL_PCTL => [Reg.JNL_PCTL_RING (i.getD 0 0), Reg.JNL_PCTL_ABANDON (i.getD 0 0)]
  | .JNL_JSEQ => [Reg.JNL_JSEQ_JSEQ (i.getD 0 0)]
  | .JNL_CTL => [Reg.JNL_CTL_EN, Reg.JNL_CTL_IDLE]
  | .JNL_STAT => [Reg.JNL_STAT_LOSTPAIR, Reg.JNL_STAT_REMIRROR, Reg.JNL_STAT_JLOST]
  | .JNL_PSIZE => [Reg.JNL_PSIZE_SLOTS (i.getD 0 0)]
  | .PT_CTL => [Reg.PT_CTL_OP (i.getD 0 0)]
  | .PT_STAT => [Reg.PT_STAT_STATE (i.getD 0 0), Reg.PT_STAT_QUIET (i.getD 0 0), Reg.PT_STAT_REFUSED (i.getD 0 0), Reg.PT_STAT_REFCODE (i.getD 0 0), Reg.PT_STAT_HSRC (i.getD 0 0), Reg.PT_STAT_LSRC (i.getD 0 0), Reg.PT_STAT_FENCES (i.getD 0 0)]
  | .PT_CORES => [Reg.PT_CORES_MASK (i.getD 0 0) (i.getD 1 0)]
  | .PT_S2BASE => [Reg.PT_S2BASE_L1LOG (i.getD 0 0), Reg.PT_S2BASE_BASE (i.getD 0 0)]
  | .PT_EXTOP => [Reg.PT_EXTOP_FIRST (i.getD 0 0), Reg.PT_EXTOP_COUNT (i.getD 0 0), Reg.PT_EXTOP_OP (i.getD 0 0), Reg.PT_EXTOP_BUSY (i.getD 0 0)]
  | .PT_EXTCNT => [Reg.PT_EXTCNT_OWNED (i.getD 0 0), Reg.PT_EXTCNT_RSVPG (i.getD 0 0)]
  | .PT_RSVOP => [Reg.PT_RSVOP_FIRST (i.getD 0 0), Reg.PT_RSVOP_COUNT (i.getD 0 0), Reg.PT_RSVOP_ADD (i.getD 0 0), Reg.PT_RSVOP_TAKE (i.getD 0 0)]
  | .PT_POOLMAP => [Reg.PT_POOLMAP_MAP (i.getD 0 0) (i.getD 1 0) (i.getD 2 0)]
  | .PT_WEIR => [Reg.PT_WEIR_MIN (i.getD 0 0) (i.getD 1 0), Reg.PT_WEIR_MAX (i.getD 0 0) (i.getD 1 0)]
  | .PT_SUSP => [Reg.PT_SUSP_RES (i.getD 0 0), Reg.PT_SUSP_ONGOING (i.getD 0 0), Reg.PT_SUSP_CAUSE (i.getD 0 0), Reg.PT_SUSP_DUR (i.getD 0 0)]
  | .PT_KEYCTL => [Reg.PT_KEYCTL_GENH (i.getD 0 0), Reg.PT_KEYCTL_LOADH (i.getD 0 0), Reg.PT_KEYCTL_LOADL (i.getD 0 0), Reg.PT_KEYCTL_CLRH (i.getD 0 0), Reg.PT_KEYCTL_CLRL (i.getD 0 0)]
  | .PT_KEYDATA => [Reg.PT_KEYDATA_DATA (i.getD 0 0) (i.getD 1 0)]
  | .PT_SECCNT => [Reg.PT_SECCNT_AUTHFAIL (i.getD 0 0), Reg.PT_SECCNT_OWNVIOL (i.getD 0 0)]
  | .PT_S1BASE => [Reg.PT_S1BASE_L1LOG (i.getD 0 0), Reg.PT_S1BASE_BASE (i.getD 0 0)]
  | .PT_S1INV => [Reg.PT_S1INV_ALL (i.getD 0 0), Reg.PT_S1INV_BUSY (i.getD 0 0), Reg.PT_S1INV_VA (i.getD 0 0)]
  | .QT_STAT => [Reg.QT_STAT_DEVQ, Reg.QT_STAT_BELLQ, Reg.QT_STAT_PARTQ, Reg.QT_STAT_PIN, Reg.QT_STAT_DEVCAUSE]
  | .QT_CTL => [Reg.QT_CTL_PART, Reg.QT_CTL_ENTER, Reg.QT_CTL_EXIT, Reg.QT_CTL_DEVENTER, Reg.QT_CTL_REFUSED]
  | .QT_PCAUSE => [Reg.QT_PCAUSE_FIRST (i.getD 0 0), Reg.QT_PCAUSE_BLOCK (i.getD 0 0)]
  | .ERR_SUMMARY => [Reg.ERR_SUMMARY_PV]
  | .SP_STAT => [Reg.SP_STAT_AVAIL, Reg.SP_STAT_OFFLINE, Reg.SP_STAT_PAIRRET]
  | .SP_MAP => [Reg.SP_MAP_RET (i.getD 0 0), Reg.SP_MAP_RV (i.getD 0 0), Reg.SP_MAP_OFFL (i.getD 0 0), Reg.SP_MAP_OV (i.getD 0 0)]
  | .SP_CTL => [Reg.SP_CTL_LCORE, Reg.SP_CTL_RETIRE, Reg.SP_CTL_CLRLIST, Reg.SP_CTL_PAIR, Reg.SP_CTL_RETPAIR]
  | .LG_CFG => [Reg.LG_CFG_LGWIN, Reg.LG_CFG_LGCORE, Reg.LG_CFG_LGLINK, Reg.LG_CFG_LGSHIFT, Reg.LG_CFG_ACTRET, Reg.LG_CFG_ACTREROUTE, Reg.LG_CFG_ACTDEW]
  | .LG_CFG2 => [Reg.LG_CFG2_LGFRY, Reg.LG_CFG2_LGCF]
  | .LG_STAT => [Reg.LG_STAT_AVOID, Reg.LG_STAT_DEW]
  | .ERR_CFG => [Reg.ERR_CFG_ESCT (i.getD 0 0), Reg.ERR_CFG_OVFESC (i.getD 0 0)]
  | .ERR_CTL => [Reg.ERR_CTL_ACK (i.getD 0 0), Reg.ERR_CTL_CLROVF (i.getD 0 0)]
  | .ERR_STAT => [Reg.ERR_STAT_PVALID (i.getD 0 0), Reg.ERR_STAT_QVALID (i.getD 0 0), Reg.ERR_STAT_ESC (i.getD 0 0), Reg.ERR_STAT_PREEMPT (i.getD 0 0), Reg.ERR_STAT_OVF (i.getD 0 0)]
  | .ERR_P => [Reg.ERR_P_WORD (i.getD 0 0) (i.getD 1 0)]
  | .ERR_Q => [Reg.ERR_Q_WORD (i.getD 0 0) (i.getD 1 0)]
  | .IRQ_SEL => [Reg.IRQ_SEL_SRC]
  | .IRQ_SCFG => [Reg.IRQ_SCFG_EN, Reg.IRQ_SCFG_MODE, Reg.IRQ_SCFG_CLASS, Reg.IRQ_SCFG_PRIO]
  | .IRQ_STMASK => [Reg.IRQ_STMASK_TMASK]
  | .IRQ_SSTAT => [Reg.IRQ_SSTAT_STATE, Reg.IRQ_SSTAT_RAW, Reg.IRQ_SSTAT_OWNV, Reg.IRQ_SSTAT_OWNER, Reg.IRQ_SSTAT_CNT]
  | .IRQ_MCLAIM => [Reg.IRQ_MCLAIM_CLAIM (i.getD 0 0)]
  | .IRQ_MCOMP => [Reg.IRQ_MCOMP_SRC (i.getD 0 0)]
  | .IRQ_MPRIO => [Reg.IRQ_MPRIO_RUNPRIO (i.getD 0 0)]
  | .IRQ_MCFG => [Reg.IRQ_MCFG_MTMO]
  | .IRQ_PEND => [Reg.IRQ_PEND_PEND (i.getD 0 0)]
  | .IC_CLAIM => [Reg.IC_CLAIM_CLAIM (i.getD 0 0) (i.getD 1 0)]
  | .IC_COMPLETE => [Reg.IC_COMPLETE_SRC (i.getD 0 0)]
  | .IC_VCOAL => [Reg.IC_VCOAL_CCOUNT (i.getD 0 0) (i.getD 1 0), Reg.IC_VCOAL_CTIME (i.getD 0 0) (i.getD 1 0)]
  | .IC_PSEL => [Reg.IC_PSEL_SRC (i.getD 0 0)]
  | .IC_PCFG => [Reg.IC_PCFG_EN (i.getD 0 0), Reg.IC_PCFG_MODE (i.getD 0 0), Reg.IC_PCFG_CLASS (i.getD 0 0), Reg.IC_PCFG_PRIO (i.getD 0 0)]
  | .IC_PTMASK => [Reg.IC_PTMASK_TMASK (i.getD 0 0)]
  | .IC_PSTAT => [Reg.IC_PSTAT_STATE (i.getD 0 0), Reg.IC_PSTAT_RAW (i.getD 0 0), Reg.IC_PSTAT_CNT (i.getD 0 0)]
  | .LAS_CFG => [Reg.LAS_CFG_PLAN, Reg.LAS_CFG_AUTOON, Reg.LAS_CFG_POLL]
  | .LAS_CTL => [Reg.LAS_CTL_SLOT, Reg.LAS_CTL_OP, Reg.LAS_CTL_FORCE]
  | .LAS_STAT => [Reg.LAS_STAT_REFUSED, Reg.LAS_STAT_REFCODE, Reg.LAS_STAT_ALLOFF]
  | .LAS_FEEDCTL => [Reg.LAS_FEEDCTL_ENGINE, Reg.LAS_FEEDCTL_GROUP, Reg.LAS_FEEDCTL_TO, Reg.LAS_FEEDCTL_GO]
  | .LAS_FEED => [Reg.LAS_FEED_FEED]
  | .LAS_SLOT => [Reg.LAS_SLOT_STATE (i.getD 0 0), Reg.LAS_SLOT_PRSNT (i.getD 0 0), Reg.LAS_SLOT_LEGACY (i.getD 0 0), Reg.LAS_SLOT_EOL90 (i.getD 0 0), Reg.LAS_SLOT_EOL98 (i.getD 0 0), Reg.LAS_SLOT_HEALTH (i.getD 0 0), Reg.LAS_SLOT_OVERLIFE (i.getD 0 0), Reg.LAS_SLOT_TEMP (i.getD 0 0), Reg.LAS_SLOT_BIAS (i.getD 0 0)]
  | .LAS_ID => [Reg.LAS_ID_ID (i.getD 0 0) (i.getD 1 0)]
  | .LAS_WEAR => [Reg.LAS_WEAR_EHMIN (i.getD 0 0), Reg.LAS_WEAR_LIFE (i.getD 0 0), Reg.LAS_WEAR_REMAIN (i.getD 0 0)]
  | .SBB_STAT => [Reg.SBB_STAT_STATE (i.getD 0 0), Reg.SBB_STAT_TRIES (i.getD 0 0), Reg.SBB_STAT_SDALOW (i.getD 0 0)]
  | .SBB_CNT => [Reg.SBB_CNT_NACK (i.getD 0 0), Reg.SBB_CNT_HOTJOIN (i.getD 0 0), Reg.SBB_CNT_RECOV (i.getD 0 0), Reg.SBB_CNT_STUCKS (i.getD 0 0)]
  | .SBB_CTL => [Reg.SBB_CTL_PORT, Reg.SBB_CTL_RECOVER, Reg.SBB_CTL_RESET]
  | .MGT_ID0 => [Reg.MGT_ID0_STEP, Reg.MGT_ID0_FWREL, Reg.MGT_ID0_PARTNO]
  | .MGT_SERIAL => [Reg.MGT_SERIAL_SERIAL]
  | .MGT_MBCTL => [Reg.MGT_MBCTL_OP, Reg.MGT_MBCTL_LEN, Reg.MGT_MBCTL_GO]
  | .MGT_MBSTAT => [Reg.MGT_MBSTAT_BUSY, Reg.MGT_MBSTAT_DONE, Reg.MGT_MBSTAT_RESULT, Reg.MGT_MBSTAT_RLEN]
  | .MGT_MBDATA => [Reg.MGT_MBDATA_DATA (i.getD 0 0)]
  | .MGT_LOCK => [Reg.MGT_LOCK_P0UP, Reg.MGT_LOCK_P1UP, Reg.MGT_LOCK_MISM0, Reg.MGT_LOCK_MISM1]
  | .MGT_BOOT => [Reg.MGT_BOOT_SEL, Reg.MGT_BOOT_RUN, Reg.MGT_BOOT_RECOV, Reg.MGT_BOOT_SVN]
  | .PWR_PROFILE => [Reg.PWR_PROFILE_CUR, Reg.PWR_PROFILE_REQ, Reg.PWR_PROFILE_GO, Reg.PWR_PROFILE_BUSY, Reg.PWR_PROFILE_REFUSED]
  | .PWR_DOMCTL => [Reg.PWR_DOMCTL_DOM, Reg.PWR_DOMCTL_OP, Reg.PWR_DOMCTL_REFUSED, Reg.PWR_DOMCTL_REFCODE]
  | .PWR_DOMSTAT => [Reg.PWR_DOMSTAT_ON]
  | .PWR_VIN => [Reg.PWR_VIN_VIN, Reg.PWR_VIN_PIN, Reg.PWR_VIN_LOWV]
  | .PWR_CAP => [Reg.PWR_CAP_CAP, Reg.PWR_CAP_LEVEL]
  | .PWR_ENERGY => [Reg.PWR_ENERGY_UJ (i.getD 0 0)]
  | .RST_CTL => [Reg.RST_CTL_OP, Reg.RST_CTL_PART, Reg.RST_CTL_LCORE]
  | .RST_STAT => [Reg.RST_STAT_LAST, Reg.RST_STAT_CAUSE, Reg.RST_STAT_READY, Reg.RST_STAT_INRESET, Reg.RST_STAT_REFUSED, Reg.RST_STAT_WARMS]
  | .THM_CFG => [Reg.THM_CFG_DTHROT, Reg.THM_CFG_DHYST, Reg.THM_CFG_WARN, Reg.THM_CFG_TRIP, Reg.THM_CFG_STRIP]
  | .THM_STAT => [Reg.THM_STAT_LVL0, Reg.THM_STAT_LVL1, Reg.THM_STAT_DTHR, Reg.THM_STAT_TRIPPED, Reg.THM_STAT_TRIPSRC]
  | .THM_SENS => [Reg.THM_SENS_TEMP (i.getD 0 0), Reg.THM_SENS_MAX (i.getD 0 0)]
  | .DBG_STAT => [Reg.DBG_STAT_JUNLOCK, Reg.DBG_STAT_APERR]
  | .DBG_CHAL => [Reg.DBG_CHAL_CHAL]
  | .DBG_CORECTL => [Reg.DBG_CORECTL_LCORE, Reg.DBG_CORECTL_STOP, Reg.DBG_CORECTL_RESUME, Reg.DBG_CORECTL_STOPPED]
  | .DBG_HEAD => [Reg.DBG_HEAD_WORD (i.getD 0 0)]
  | .DBG_APADDR => [Reg.DBG_APADDR_ADDR, Reg.DBG_APADDR_SPACE, Reg.DBG_APADDR_PART]
  | .DBG_APDATA => [Reg.DBG_APDATA_DATA]
  | .TRC_REGION => [Reg.TRC_REGION_EN (i.getD 0 0), Reg.TRC_REGION_WRAP (i.getD 0 0), Reg.TRC_REGION_REFUSED (i.getD 0 0), Reg.TRC_REGION_REFCODE (i.getD 0 0), Reg.TRC_REGION_PAGES (i.getD 0 0), Reg.TRC_REGION_BASE (i.getD 0 0)]
  | .CNT_CTL => [Reg.CNT_CTL_CLR]
  | .CNT_SNAP => [Reg.CNT_SNAP_GROUP, Reg.CNT_SNAP_GO]
  | .CNT_GRP => [Reg.CNT_GRP_KIND (i.getD 0 0), Reg.CNT_GRP_CLR (i.getD 0 0), Reg.CNT_GRP_OV (i.getD 0 0), Reg.CNT_GRP_OWNER (i.getD 0 0), Reg.CNT_GRP_DSTERR (i.getD 0 0), Reg.CNT_GRP_SEL (i.getD 0 0), Reg.CNT_GRP_NUM (i.getD 0 0), Reg.CNT_GRP_MERGED (i.getD 0 0)]
  | .CNT_GDST => [Reg.CNT_GDST_VA (i.getD 0 0)]
  | .CNT_REC => [Reg.CNT_REC_WORD (i.getD 0 0) (i.getD 1 0)]
  | .CNT_BUSY => [Reg.CNT_BUSY_BUSY (i.getD 0 0) (i.getD 1 0)]
  | .CNT_STALL => [Reg.CNT_STALL_STALL (i.getD 0 0) (i.getD 1 0)]
  | .CNT_IDLE => [Reg.CNT_IDLE_IDLE (i.getD 0 0) (i.getD 1 0)]
  | .CNT_REASON => [Reg.CNT_REASON_REASON (i.getD 0 0) (i.getD 1 0) (i.getD 2 0)]
  | .PD_STEP => [Reg.PD_STEP_EN (i.getD 0 0), Reg.PD_STEP_GO (i.getD 0 0), Reg.PD_STEP_HELD (i.getD 0 0), Reg.PD_STEP_HJSEQ (i.getD 0 0)]
  | .PD_DUMPTAB => [Reg.PD_DUMPTAB_VA (i.getD 0 0), Reg.PD_DUMPTAB_ENTRIES (i.getD 0 0)]
  | .PD_DUMPNAME => [Reg.PD_DUMPNAME_BYTES (i.getD 0 0) (i.getD 1 0)]
  | .PD_DUMPCFG => [Reg.PD_DUMPCFG_STEP (i.getD 0 0), Reg.PD_DUMPCFG_ARM (i.getD 0 0)]
  | .PD_DUMPDST => [Reg.PD_DUMPDST_VA (i.getD 0 0)]
  | .PD_DUMPSTAT => [Reg.PD_DUMPSTAT_ARMED (i.getD 0 0), Reg.PD_DUMPSTAT_DONE (i.getD 0 0), Reg.PD_DUMPSTAT_ARMERR (i.getD 0 0), Reg.PD_DUMPSTAT_MISSED (i.getD 0 0), Reg.PD_DUMPSTAT_PSN (i.getD 0 0)]
  | .PD_TRC => [Reg.PD_TRC_TAIL (i.getD 0 0), Reg.PD_TRC_HEAD (i.getD 0 0)]
  | .PD_TRCMARK => [Reg.PD_TRCMARK_VALUE (i.getD 0 0)]
  | .HIF_STAT => [Reg.HIF_STAT_SPEED, Reg.HIF_STAT_WIDTH, Reg.HIF_STAT_FLIT, Reg.HIF_STAT_L0, Reg.HIF_STAT_VFEN, Reg.HIF_STAT_PFBME, Reg.HIF_STAT_ATSEN]
  | .HIF_ERRCNT => [Reg.HIF_ERRCNT_CTO, Reg.HIF_ERRCNT_URCA, Reg.HIF_ERRCNT_PSNRX, Reg.HIF_ERRCNT_RETRAIN]
  | .HIF_MODID => [Reg.HIF_MODID_CODE, Reg.HIF_MODID_BALMAX, Reg.HIF_MODID_FLEET, Reg.HIF_MODID_SMBADDR, Reg.HIF_MODID_LPRS]
  | .EXR_PC => [Reg.EXR_PC_VAL (i.getD 0 0) (i.getD 1 0)]
  | .EXR_INSN => [Reg.EXR_INSN_VAL (i.getD 0 0) (i.getD 1 0)]
  | .EXR_EXT => [Reg.EXR_EXT_VAL (i.getD 0 0) (i.getD 1 0)]
  | .EXR_ADDR => [Reg.EXR_ADDR_VAL (i.getD 0 0) (i.getD 1 0)]
  | .EXR_PROG => [Reg.EXR_PROG_VAL (i.getD 0 0) (i.getD 1 0)]
  | .EXR_MODE => [Reg.EXR_MODE_VAL (i.getD 0 0) (i.getD 1 0)]

/-- A row of the address map: the register, its base address and its dimensions, widest stride first. -/
structure RegRow where
  name : RegName
  base : Nat
  dims : List Dim
  deriving DecidableEq, Repr

/-- Rows of the address map, part 0. -/
def regRows0 : List RegRow := [
  ⟨.ST_CFG, 0x1000800, [⟨144, 0x10000, 0⟩, ⟨48, 0x8, 16⟩]⟩,
  ⟨.ST_STAT, 0x1000a00, [⟨144, 0x10000, 0⟩, ⟨48, 0x8, 16⟩]⟩,
  ⟨.ST_EVCFG, 0x1000c00, [⟨144, 0x10000, 0⟩, ⟨48, 0x8, 16⟩]⟩,
  ⟨.EXR_CAUSE, 0x1000100, [⟨144, 0x10000, 0⟩, ⟨4, 0x40, 0⟩]⟩,
  ⟨.SQ_TRAP, 0x1000000, [⟨144, 0x10000, 0⟩]⟩,
  ⟨.SQ_RESUME, 0x1000010, [⟨144, 0x10000, 0⟩]⟩,
  ⟨.MX_STAT, 0x1002000, [⟨144, 0x10000, 0⟩]⟩,
  ⟨.MX_SIDE, 0x1002008, [⟨144, 0x10000, 0⟩]⟩,
  ⟨.MX_CHKCNT, 0x1002010, [⟨144, 0x10000, 0⟩]⟩,
  ⟨.MX_CHKSKIP, 0x1002018, [⟨144, 0x10000, 0⟩]⟩,
  ⟨.MX_CHKLOC, 0x1002020, [⟨144, 0x10000, 0⟩]⟩,
  ⟨.MX_LADDER, 0x1002028, [⟨144, 0x10000, 0⟩]⟩,
  ⟨.MX_ACCSEL, 0x1002030, [⟨144, 0x10000, 0⟩]⟩,
  ⟨.MX_ACCDATA, 0x1002100, [⟨144, 0x10000, 0⟩, ⟨32, 0x8, 0⟩]⟩,
  ⟨.GAU_CNT, 0x1007000, [⟨144, 0x10000, 0⟩, ⟨3, 0x10, 1⟩]⟩,
  ⟨.GAU_NAN, 0x1007008, [⟨144, 0x10000, 0⟩, ⟨3, 0x10, 1⟩]⟩,
  ⟨.GAU_CTL, 0x1007040, [⟨144, 0x10000, 0⟩]⟩,
  ⟨.GAU_WATCH, 0x1007048, [⟨144, 0x10000, 0⟩]⟩,
  ⟨.GAU_HCFG, 0x1007080, [⟨144, 0x10000, 0⟩, ⟨4, 0x8, 0⟩]⟩,
  ⟨.GAU_HAUX, 0x10070a0, [⟨144, 0x10000, 0⟩, ⟨4, 0x8, 0⟩]⟩,
  ⟨.GAU_HBIN, 0x1007400, [⟨144, 0x10000, 0⟩, ⟨4, 0x200, 0⟩, ⟨64, 0x8, 0⟩]⟩,
  ⟨.LS_CFG, 0x10020000, [⟨8, 0x1000000, 0⟩]⟩,
  ⟨.LS_STAT, 0x10020008, [⟨8, 0x1000000, 0⟩]⟩,
  ⟨.LS_CTL, 0x10020010, [⟨8, 0x1000000, 0⟩]⟩,
  ⟨.LS_MIRROR, 0x10020018, [⟨8, 0x1000000, 0⟩]⟩,
  ⟨.SR_SEED, 0x10020020, [⟨8, 0x1000000, 0⟩]⟩,
  ⟨.PH_SEL, 0x10020040, [⟨8, 0x1000000, 0⟩]⟩,
  ⟨.PH_AUX, 0x10020048, [⟨8, 0x1000000, 0⟩]⟩,
  ⟨.PH_BIN, 0x10020400, [⟨8, 0x1000000, 0⟩, ⟨64, 0x8, 0⟩]⟩,
  ⟨.VX_STAT, 0x1003000, [⟨144, 0x10000, 0⟩]⟩,
  ⟨.SFU_SETID, 0x1004000, [⟨144, 0x10000, 0⟩]⟩,
  ⟨.SFU_FNMAP, 0x1004008, [⟨144, 0x10000, 0⟩, ⟨4, 0x8, 0⟩]⟩,
  ⟨.SFU_EVCNT, 0x1004028, [⟨144, 0x10000, 0⟩]⟩,
  ⟨.SFU_CTXSEL, 0x1004030, [⟨144, 0x10000, 0⟩]⟩,
  ⟨.SFU_CTXDATA, 0x1004100, [⟨144, 0x10000, 0⟩, ⟨32, 0x8, 0⟩]⟩,
  ⟨.SY_FLAG, 0x1001000, [⟨144, 0x10000, 0⟩, ⟨256, 0x8, 0⟩]⟩,
  ⟨.RC_CFG, 0x1001800, [⟨144, 0x10000, 0⟩, ⟨32, 0x8, 0⟩]⟩,
  ⟨.RC_NET, 0x1001900, [⟨144, 0x10000, 0⟩, ⟨32, 0x8, 0⟩]⟩,
  ⟨.RC_STAT, 0x1001a00, [⟨144, 0x10000, 0⟩, ⟨32, 0x8, 0⟩]⟩,
  ⟨.RC_CTL, 0x1001b00, [⟨144, 0x10000, 0⟩]⟩]
/-- Rows of the address map, part 1. -/
def regRows1 : List RegRow := [
  ⟨.HP, 0x1001c00, [⟨144, 0x10000, 0⟩, ⟨64, 0x8, 0⟩]⟩,
  ⟨.HP_CTL, 0x1001e00, [⟨144, 0x10000, 0⟩]⟩,
  ⟨.SY_WDCFG, 0x1001e08, [⟨144, 0x10000, 0⟩]⟩,
  ⟨.SY_WDSTAT, 0x1001e10, [⟨144, 0x10000, 0⟩]⟩,
  ⟨.SY_EPOCH, 0x1001e18, [⟨144, 0x10000, 0⟩]⟩,
  ⟨.DMA_STAT, 0x1005000, [⟨144, 0x10000, 0⟩]⟩,
  ⟨.DMA_FRAGCNT, 0x1005008, [⟨144, 0x10000, 0⟩]⟩,
  ⟨.SPW_IN, 0x1006000, [⟨144, 0x10000, 0⟩]⟩,
  ⟨.SPW_OUT, 0x1006008, [⟨144, 0x10000, 0⟩]⟩,
  ⟨.SPW_RAWROW, 0x1006010, [⟨144, 0x10000, 0⟩]⟩,
  ⟨.SPW_POS, 0x1006018, [⟨144, 0x10000, 0⟩]⟩,
  ⟨.HBM_STAT, 0x400000, [⟨12, 0x10000, 0⟩]⟩,
  ⟨.HBM_THERM, 0x400008, [⟨12, 0x10000, 0⟩]⟩,
  ⟨.HBM_ECCCNT, 0x400010, [⟨12, 0x10000, 0⟩]⟩,
  ⟨.HBM_UECNT, 0x400018, [⟨12, 0x10000, 0⟩]⟩,
  ⟨.HBM_REFCNT, 0x400020, [⟨12, 0x10000, 0⟩]⟩,
  ⟨.HBM_HOTCFG, 0x400028, [⟨12, 0x10000, 0⟩]⟩,
  ⟨.HBM_HOT, 0x401000, [⟨12, 0x10000, 0⟩, ⟨64, 0x8, 0⟩]⟩,
  ⟨.SCR_BASE, 0x404000, [⟨12, 0x10000, 0⟩]⟩,
  ⟨.SCR_LEN, 0x404008, [⟨12, 0x10000, 0⟩]⟩,
  ⟨.SCR_CTL, 0x404010, [⟨12, 0x10000, 0⟩]⟩,
  ⟨.SCR_STAT, 0x404018, [⟨12, 0x10000, 0⟩]⟩,
  ⟨.SCR_SUM0, 0x404020, [⟨12, 0x10000, 0⟩]⟩,
  ⟨.SCR_SUM1, 0x404028, [⟨12, 0x10000, 0⟩]⟩,
  ⟨.TG_CTL, 0x408000, [⟨12, 0x10000, 0⟩, ⟨32, 0x100, 0⟩]⟩,
  ⟨.TG_CNT, 0x408008, [⟨12, 0x10000, 0⟩, ⟨32, 0x100, 0⟩]⟩,
  ⟨.TG_SEED, 0x408010, [⟨12, 0x10000, 0⟩, ⟨32, 0x100, 0⟩]⟩,
  ⟨.TG_STAT, 0x408018, [⟨12, 0x10000, 0⟩, ⟨32, 0x100, 0⟩]⟩,
  ⟨.TG_FAIL, 0x408020, [⟨12, 0x10000, 0⟩, ⟨32, 0x100, 0⟩]⟩,
  ⟨.HBM_SEED, 0x40f000, [⟨8, 0x8, 0⟩]⟩,
  ⟨.HBM_REHASH, 0x40f040, []⟩,
  ⟨.LNK_CTL, 0x600000, [⟨32, 0x4000, 0⟩]⟩,
  ⟨.LNK_STAT, 0x600008, [⟨32, 0x4000, 0⟩]⟩,
  ⟨.LNK_EXPECT, 0x600010, [⟨32, 0x4000, 0⟩]⟩,
  ⟨.LNK_NBR, 0x600018, [⟨32, 0x4000, 0⟩]⟩,
  ⟨.LNK_TIMECFG, 0x600020, [⟨32, 0x4000, 0⟩]⟩,
  ⟨.LNK_TIME, 0x600028, [⟨32, 0x4000, 0⟩]⟩,
  ⟨.LNK_TSEQ, 0x600030, [⟨32, 0x4000, 0⟩]⟩,
  ⟨.LNK_FECCNT, 0x600038, [⟨32, 0x4000, 0⟩]⟩,
  ⟨.LNK_RETRYCNT, 0x600040, [⟨32, 0x4000, 0⟩]⟩]
/-- Rows of the address map, part 2. -/
def regRows2 : List RegRow := [
  ⟨.LNK_EVCNT, 0x600048, [⟨32, 0x4000, 0⟩]⟩,
  ⟨.LNK_RXBODY, 0x600050, [⟨32, 0x4000, 0⟩]⟩,
  ⟨.LNK_LANE, 0x600100, [⟨32, 0x4000, 0⟩, ⟨4, 0x8, 0⟩]⟩,
  ⟨.RTE_ID, 0x700000, []⟩,
  ⟨.RTE_CTL, 0x700008, []⟩,
  ⟨.RTE_SWAPAT, 0x700010, []⟩,
  ⟨.RTE_RESHAPE, 0x700018, []⟩,
  ⟨.RTE_TELCFG, 0x700020, []⟩,
  ⟨.RTE_TELBASE, 0x700028, []⟩,
  ⟨.RTE_TELPTR, 0x700030, []⟩,
  ⟨.RTE_DROPCNT, 0x700038, []⟩,
  ⟨.RTE_GRP, 0x701000, [⟨2, 0x1000, 0⟩, ⟨512, 0x8, 0⟩]⟩,
  ⟨.RTE_POD, 0x703000, [⟨2, 0x100, 0⟩, ⟨32, 0x8, 0⟩]⟩,
  ⟨.RTE_OCC, 0x704000, [⟨32, 0x8, 0⟩]⟩,
  ⟨.STM_SEL, 0x780000, []⟩,
  ⟨.STM_CFG, 0x780008, []⟩,
  ⟨.STM_STAT, 0x780010, []⟩,
  ⟨.STM_SEQ, 0x780018, []⟩,
  ⟨.STM_CNT, 0x780020, []⟩,
  ⟨.STM_CTL, 0x780028, []⟩,
  ⟨.STM_TIME, 0x780030, []⟩,
  ⟨.STM_DEVCNT, 0x780038, []⟩,
  ⟨.STM_BOARD, 0x780100, [⟨8, 0x40, 0⟩, ⟨8, 0x8, 0⟩]⟩,
  ⟨.CF_STAT, 0x800000, [⟨2, 0x40000, 0⟩]⟩,
  ⟨.CF_TIME, 0x800008, [⟨2, 0x40000, 0⟩]⟩,
  ⟨.CF_CNT, 0x800010, [⟨2, 0x40000, 0⟩]⟩,
  ⟨.CF_NUMCNT, 0x800018, [⟨2, 0x40000, 0⟩]⟩,
  ⟨.CF_PLANCFG, 0x800100, [⟨2, 0x40000, 0⟩, ⟨8, 0x8, 0⟩]⟩,
  ⟨.CF_LVL, 0x800800, [⟨2, 0x40000, 0⟩, ⟨8, 0x20, 0⟩, ⟨4, 0x8, 0⟩]⟩,
  ⟨.CF_RINGA, 0x801000, [⟨2, 0x40000, 0⟩, ⟨8, 0x400, 0⟩, ⟨4, 0x100, 0⟩, ⟨16, 0x10, 0⟩]⟩,
  ⟨.CF_RINGB, 0x801008, [⟨2, 0x40000, 0⟩, ⟨8, 0x400, 0⟩, ⟨4, 0x100, 0⟩, ⟨16, 0x10, 0⟩]⟩,
  ⟨.CF_SLOT, 0x803000, [⟨2, 0x40000, 0⟩, ⟨32, 0x40, 0⟩]⟩,
  ⟨.CF_SLOTBID, 0x803008, [⟨2, 0x40000, 0⟩, ⟨32, 0x40, 0⟩]⟩,
  ⟨.CF_SLOTCTL, 0x803010, [⟨2, 0x40000, 0⟩, ⟨32, 0x40, 0⟩]⟩,
  ⟨.CF_SLOTWAIT, 0x803018, [⟨2, 0x40000, 0⟩, ⟨32, 0x40, 0⟩]⟩,
  ⟨.FRY_STAT, 0xc00000, []⟩,
  ⟨.FRY_BDL, 0xc00008, []⟩,
  ⟨.FRY_CNT, 0xc00010, []⟩,
  ⟨.FRY_BCNT, 0xc00018, []⟩,
  ⟨.FRY_LATMAX, 0xc00020, []⟩]
/-- Rows of the address map, part 3. -/
def regRows3 : List RegRow := [
  ⟨.FRY_RT, 0xc00100, [⟨8, 0x8, 0⟩]⟩,
  ⟨.FRY_LAG, 0xc00200, [⟨16, 0x8, 0⟩]⟩,
  ⟨.FRY_JOB, 0xc01000, [⟨16, 0x10, 0⟩]⟩,
  ⟨.FRY_JOBCTL, 0xc01008, [⟨16, 0x10, 0⟩]⟩,
  ⟨.FRY_EQA, 0xc04000, [⟨256, 0x20, 0⟩]⟩,
  ⟨.FRY_EQB, 0xc04008, [⟨256, 0x20, 0⟩]⟩,
  ⟨.FRY_EQS, 0xc04010, [⟨256, 0x20, 0⟩]⟩,
  ⟨.BL_CTL, 0x60000, []⟩,
  ⟨.BL_STAT, 0x60008, []⟩,
  ⟨.BL_NOW, 0x60010, []⟩,
  ⟨.BL_SRC, 0x60018, []⟩,
  ⟨.BL_REFDLY, 0x60020, []⟩,
  ⟨.BL_ERR, 0x60028, []⟩,
  ⟨.BL_CNT, 0x60030, []⟩,
  ⟨.BL_DKEY0, 0x60040, []⟩,
  ⟨.BL_DKEY1, 0x60048, []⟩,
  ⟨.TT_TIME, 0x64000, [⟨8, 0x1800, 0⟩, ⟨256, 0x10, 0⟩]⟩,
  ⟨.TT_ACT, 0x64008, [⟨8, 0x1800, 0⟩, ⟨256, 0x10, 0⟩]⟩,
  ⟨.TT_CTL, 0x65000, [⟨8, 0x1800, 0⟩]⟩,
  ⟨.TT_STAT, 0x65008, [⟨8, 0x1800, 0⟩]⟩,
  ⟨.TT_PACE, 0x65010, [⟨8, 0x1800, 0⟩]⟩,
  ⟨.TT_NOW, 0x65018, [⟨8, 0x1800, 0⟩]⟩,
  ⟨.TT_DKEY0, 0x65020, [⟨8, 0x1800, 0⟩]⟩,
  ⟨.TT_DKEY1, 0x65028, [⟨8, 0x1800, 0⟩]⟩,
  ⟨.RING_BASE, 0x300000, [⟨8, 0x10000, 0⟩, ⟨64, 0x40, 0⟩]⟩,
  ⟨.RING_CFG, 0x300008, [⟨8, 0x10000, 0⟩, ⟨64, 0x40, 0⟩]⟩,
  ⟨.CQ_BASE, 0x300010, [⟨8, 0x10000, 0⟩, ⟨64, 0x40, 0⟩]⟩,
  ⟨.RING_DB, 0x300018, [⟨8, 0x10000, 0⟩, ⟨64, 0x40, 0⟩]⟩,
  ⟨.RING_ACC, 0x300020, [⟨8, 0x10000, 0⟩, ⟨64, 0x40, 0⟩]⟩,
  ⟨.RING_DONE, 0x300028, [⟨8, 0x10000, 0⟩, ⟨64, 0x40, 0⟩]⟩,
  ⟨.CQ_HEAD, 0x300030, [⟨8, 0x10000, 0⟩, ⟨64, 0x40, 0⟩]⟩,
  ⟨.RING_STAT, 0x300038, [⟨8, 0x10000, 0⟩, ⟨64, 0x40, 0⟩]⟩,
  ⟨.JNL_PCFG, 0x301000, [⟨8, 0x10000, 0⟩]⟩,
  ⟨.JNL_PSTAT, 0x301008, [⟨8, 0x10000, 0⟩]⟩,
  ⟨.JNL_PCTL, 0x301010, [⟨8, 0x10000, 0⟩]⟩,
  ⟨.JNL_JSEQ, 0x301018, [⟨8, 0x10000, 0⟩]⟩,
  ⟨.JNL_CTL, 0x200000, []⟩,
  ⟨.JNL_STAT, 0x200008, []⟩,
  ⟨.JNL_PSIZE, 0x200100, [⟨8, 0x8, 0⟩]⟩,
  ⟨.PT_CTL, 0x100000, [⟨8, 0x10000, 0⟩]⟩]
/-- Rows of the address map, part 4. -/
def regRows4 : List RegRow := [
  ⟨.PT_STAT, 0x100008, [⟨8, 0x10000, 0⟩]⟩,
  ⟨.PT_CORES, 0x100010, [⟨8, 0x10000, 0⟩, ⟨3, 0x8, 0⟩]⟩,
  ⟨.PT_S2BASE, 0x100028, [⟨8, 0x10000, 0⟩]⟩,
  ⟨.PT_EXTOP, 0x100030, [⟨8, 0x10000, 0⟩]⟩,
  ⟨.PT_EXTCNT, 0x100038, [⟨8, 0x10000, 0⟩]⟩,
  ⟨.PT_RSVOP, 0x100040, [⟨8, 0x10000, 0⟩]⟩,
  ⟨.PT_POOLMAP, 0x100100, [⟨8, 0x10000, 0⟩, ⟨2, 0x80, 0⟩, ⟨12, 0x8, 0⟩]⟩,
  ⟨.PT_WEIR, 0x100200, [⟨8, 0x10000, 0⟩, ⟨8, 0x8, 0⟩]⟩,
  ⟨.PT_SUSP, 0x100280, [⟨8, 0x10000, 0⟩]⟩,
  ⟨.PT_KEYCTL, 0x100300, [⟨8, 0x10000, 0⟩]⟩,
  ⟨.PT_KEYDATA, 0x100308, [⟨8, 0x10000, 0⟩, ⟨8, 0x8, 0⟩]⟩,
  ⟨.PT_SECCNT, 0x100350, [⟨8, 0x10000, 0⟩]⟩,
  ⟨.PT_S1BASE, 0x100400, [⟨8, 0x10000, 0⟩]⟩,
  ⟨.PT_S1INV, 0x100408, [⟨8, 0x10000, 0⟩]⟩,
  ⟨.QT_STAT, 0x50000, []⟩,
  ⟨.QT_CTL, 0x50008, []⟩,
  ⟨.QT_PCAUSE, 0x50010, [⟨8, 0x8, 0⟩]⟩,
  ⟨.ERR_SUMMARY, 0x50050, []⟩,
  ⟨.SP_STAT, 0x50100, []⟩,
  ⟨.SP_MAP, 0x50108, [⟨8, 0x8, 0⟩]⟩,
  ⟨.SP_CTL, 0x50148, []⟩,
  ⟨.LG_CFG, 0x50200, []⟩,
  ⟨.LG_CFG2, 0x50208, []⟩,
  ⟨.LG_STAT, 0x50210, []⟩,
  ⟨.ERR_CFG, 0x51000, [⟨64, 0x80, 0⟩]⟩,
  ⟨.ERR_CTL, 0x51008, [⟨64, 0x80, 0⟩]⟩,
  ⟨.ERR_STAT, 0x51010, [⟨64, 0x80, 0⟩]⟩,
  ⟨.ERR_P, 0x51020, [⟨64, 0x80, 0⟩, ⟨4, 0x8, 0⟩]⟩,
  ⟨.ERR_Q, 0x51040, [⟨64, 0x80, 0⟩, ⟨4, 0x8, 0⟩]⟩,
  ⟨.IRQ_SEL, 0x40000, []⟩,
  ⟨.IRQ_SCFG, 0x40008, []⟩,
  ⟨.IRQ_STMASK, 0x40010, []⟩,
  ⟨.IRQ_SSTAT, 0x40018, []⟩,
  ⟨.IRQ_MCLAIM, 0x40100, [⟨2, 0x8, 0⟩]⟩,
  ⟨.IRQ_MCOMP, 0x40110, [⟨2, 0x8, 0⟩]⟩,
  ⟨.IRQ_MPRIO, 0x40120, [⟨2, 0x8, 0⟩]⟩,
  ⟨.IRQ_MCFG, 0x40130, []⟩,
  ⟨.IRQ_PEND, 0x41000, [⟨64, 0x8, 0⟩]⟩,
  ⟨.IC_CLAIM, 0x10030000, [⟨9, 0x1000000, 0⟩, ⟨64, 0x8, 0⟩]⟩,
  ⟨.IC_COMPLETE, 0x10030200, [⟨9, 0x1000000, 0⟩]⟩]
/-- Rows of the address map, part 5. -/
def regRows5 : List RegRow := [
  ⟨.IC_VCOAL, 0x10030400, [⟨9, 0x1000000, 0⟩, ⟨64, 0x8, 0⟩]⟩,
  ⟨.IC_PSEL, 0x10030800, [⟨9, 0x1000000, 0⟩]⟩,
  ⟨.IC_PCFG, 0x10030808, [⟨9, 0x1000000, 0⟩]⟩,
  ⟨.IC_PTMASK, 0x10030810, [⟨9, 0x1000000, 0⟩]⟩,
  ⟨.IC_PSTAT, 0x10030818, [⟨9, 0x1000000, 0⟩]⟩,
  ⟨.LAS_CFG, 0x70000, []⟩,
  ⟨.LAS_CTL, 0x70008, []⟩,
  ⟨.LAS_STAT, 0x70010, []⟩,
  ⟨.LAS_FEEDCTL, 0x70018, []⟩,
  ⟨.LAS_FEED, 0x70020, []⟩,
  ⟨.LAS_SLOT, 0x70100, [⟨8, 0x8, 0⟩]⟩,
  ⟨.LAS_ID, 0x70200, [⟨8, 0x20, 0⟩, ⟨4, 0x8, 0⟩]⟩,
  ⟨.LAS_WEAR, 0x70300, [⟨8, 0x8, 0⟩]⟩,
  ⟨.SBB_STAT, 0x70400, [⟨2, 0x8, 0⟩]⟩,
  ⟨.SBB_CNT, 0x70410, [⟨2, 0x8, 0⟩]⟩,
  ⟨.SBB_CTL, 0x70420, []⟩,
  ⟨.MGT_ID0, 0x0, []⟩,
  ⟨.MGT_SERIAL, 0x8, []⟩,
  ⟨.MGT_MBCTL, 0x10, []⟩,
  ⟨.MGT_MBSTAT, 0x18, []⟩,
  ⟨.MGT_MBDATA, 0x100, [⟨64, 0x8, 0⟩]⟩,
  ⟨.MGT_LOCK, 0x20, []⟩,
  ⟨.MGT_BOOT, 0x28, []⟩,
  ⟨.PWR_PROFILE, 0x10000, []⟩,
  ⟨.PWR_DOMCTL, 0x10008, []⟩,
  ⟨.PWR_DOMSTAT, 0x10010, []⟩,
  ⟨.PWR_VIN, 0x10018, []⟩,
  ⟨.PWR_CAP, 0x10020, []⟩,
  ⟨.PWR_ENERGY, 0x10100, [⟨7, 0x8, 0⟩]⟩,
  ⟨.RST_CTL, 0x20000, []⟩,
  ⟨.RST_STAT, 0x20008, []⟩,
  ⟨.THM_CFG, 0x30000, []⟩,
  ⟨.THM_STAT, 0x30008, []⟩,
  ⟨.THM_SENS, 0x30100, [⟨48, 0x8, 0⟩]⟩,
  ⟨.DBG_STAT, 0xd00000, []⟩,
  ⟨.DBG_CHAL, 0xd00008, []⟩,
  ⟨.DBG_CORECTL, 0xd00010, []⟩,
  ⟨.DBG_HEAD, 0xd00020, [⟨4, 0x8, 0⟩]⟩,
  ⟨.DBG_APADDR, 0xd00040, []⟩,
  ⟨.DBG_APDATA, 0xd00048, []⟩]
/-- Rows of the address map, part 6. -/
def regRows6 : List RegRow := [
  ⟨.TRC_REGION, 0xe00000, [⟨8, 0x8, 0⟩]⟩,
  ⟨.CNT_CTL, 0xf00000, []⟩,
  ⟨.CNT_SNAP, 0xf00008, []⟩,
  ⟨.CNT_GRP, 0xf00100, [⟨32, 0x10, 0⟩]⟩,
  ⟨.CNT_GDST, 0xf00108, [⟨32, 0x10, 0⟩]⟩,
  ⟨.CNT_REC, 0xf80000, [⟨32, 0x2000, 0⟩, ⟨1024, 0x8, 0⟩]⟩,
  ⟨.CNT_BUSY, 0xf10000, [⟨144, 0x400, 0⟩, ⟨4, 0x100, 0⟩]⟩,
  ⟨.CNT_STALL, 0xf10008, [⟨144, 0x400, 0⟩, ⟨4, 0x100, 0⟩]⟩,
  ⟨.CNT_IDLE, 0xf10010, [⟨144, 0x400, 0⟩, ⟨4, 0x100, 0⟩]⟩,
  ⟨.CNT_REASON, 0xf10040, [⟨144, 0x400, 0⟩, ⟨4, 0x100, 0⟩, ⟨16, 0x8, 0⟩]⟩,
  ⟨.PD_STEP, 0xe01000, [⟨8, 0x1000, 0⟩]⟩,
  ⟨.PD_DUMPTAB, 0xe01008, [⟨8, 0x1000, 0⟩]⟩,
  ⟨.PD_DUMPNAME, 0xe01010, [⟨8, 0x1000, 0⟩, ⟨4, 0x8, 0⟩]⟩,
  ⟨.PD_DUMPCFG, 0xe01030, [⟨8, 0x1000, 0⟩]⟩,
  ⟨.PD_DUMPDST, 0xe01038, [⟨8, 0x1000, 0⟩]⟩,
  ⟨.PD_DUMPSTAT, 0xe01040, [⟨8, 0x1000, 0⟩]⟩,
  ⟨.PD_TRC, 0xe01048, [⟨8, 0x1000, 0⟩]⟩,
  ⟨.PD_TRCMARK, 0xe01050, [⟨8, 0x1000, 0⟩]⟩,
  ⟨.HIF_STAT, 0x80000, []⟩,
  ⟨.HIF_ERRCNT, 0x80008, []⟩,
  ⟨.HIF_MODID, 0x80010, []⟩,
  ⟨.EXR_PC, 0x1000108, [⟨144, 0x10000, 0⟩, ⟨4, 0x40, 0⟩]⟩,
  ⟨.EXR_INSN, 0x1000110, [⟨144, 0x10000, 0⟩, ⟨4, 0x40, 0⟩]⟩,
  ⟨.EXR_EXT, 0x1000118, [⟨144, 0x10000, 0⟩, ⟨4, 0x40, 0⟩]⟩,
  ⟨.EXR_ADDR, 0x1000120, [⟨144, 0x10000, 0⟩, ⟨4, 0x40, 0⟩]⟩,
  ⟨.EXR_PROG, 0x1000128, [⟨144, 0x10000, 0⟩, ⟨4, 0x40, 0⟩]⟩,
  ⟨.EXR_MODE, 0x1000130, [⟨144, 0x10000, 0⟩, ⟨4, 0x40, 0⟩]⟩]

/-- The whole address map. -/
def regRows : List RegRow := regRows0 ++ regRows1 ++ regRows2 ++ regRows3 ++ regRows4 ++ regRows5 ++ regRows6

/-- Splits the distance from a row's base into the row's indices; none when it lies on no register of the row. -/
def splitDims : List Dim → Nat → Option (List Nat)
  | [], 0 => some []
  | [], _ => none
  | d :: ds, a =>
    if a / d.stride < d.count then
      (splitDims ds (a % d.stride)).map fun r => (a / d.stride + d.first) :: r
    else none

/-- The register at an address of the map, and its indices; none at an unmapped offset or a gap (R28). -/
def findReg (a : Nat) : List RegRow → Option (RegName × List Nat)
  | [] => none
  | r :: rs =>
    if r.base ≤ a then
      match splitDims r.dims (a - r.base) with
      | some i => some (r.name, i)
      | none => findReg a rs
    else findReg a rs

/-- The register at an address (R28). -/
def regAt (a : Nat) : Option (RegName × List Nat) := findReg a regRows

end Sys2Proof.Machine
end

