-- ==== Sys2Proof/Machine/UnitTypes.lean ====
section
/-!
DEFINITION. One structure per unit of the device for what its registers do not show: the host ports, interrupt
sources, hall passes and roll calls, partitions, the journal and the pins. Plain data throughout.
-/
namespace Sys2Proof.Machine

/-- A requester's read latch and write holding register (R12 to R14): the tagged address and the 32-bit word. -/
structure ReqPort where
  latch : Option (Nat × BitVec 32)
  hold : Option (Nat × BitVec 32)
  deriving DecidableEq, Repr

def ReqPort.reset : ReqPort := ⟨none, none⟩

/-- The requesters of R12, numbered for the table of ports: PF 0, VF p+1 at p+1, management pairs 9 and 10, debug path 11. -/
inductive Requester where
  | pf
  | vf (p : Fin 8)
  | mgmt (m : Fin 2)
  | dbg
  deriving DecidableEq, Repr

def Requester.num : Requester → Nat
  | .pf => 0
  | .vf p => p + 1
  | .mgmt m => m + 9
  | .dbg => 11

/-- What the block hands to the world outside it: the model's own field, newest first, so that what a command sends can be stated. -/
inductive Emit where
  | read (req : Nat) (v : Word)                       -- data returned to a requester
  | msix (fn vec : Nat)                               -- an MSI-X message of a function (R381)
  | notice (pair src : Nat)                           -- a source offered to a management pair (R384)
  | flit (link typ seq : Nat) (q av : Bool) (ack crvc crn : Nat) (body : List Byte)   -- a flit sent on a link (Table LK-2)
  | packet (p : Pkt)                                  -- a packet handed to the router (R242)
  | forward (link vc : Nat) (p : Pkt)                 -- a packet put on a link's virtual channel (R243)
  | deliver (p : Pkt)                                 -- a packet delivered to the stream layer (R242)
  | reply (chan : Nat) (code : Nat) (bytes : List Byte)     -- a mailbox, SPDM, DOE or PLDM response
  | mem (req : Nat) (v : Option (List Byte))          -- a memory controller's answer to a requester, none for POISON
  | pin (n : Nat) (level : Bool)                      -- a sideband or test pin driven
  | pcie (p : Nat) (write : Bool) (addr : Nat) (bytes : List Byte) -- a request of VF p + 1 to the host
  | sideband (slot reg : Nat) (bytes : List Byte)     -- a write of a cartridge's registers (R390)
  | lsen (slot : Nat) (level : Bool)                  -- a laser enable output driven (R388)
  | tdo (ir : Nat) (bits : Nat)                       -- a TAP data register shifted out (R443)
  | ats (fn : Nat)                                    -- an ATS invalidation completion (R459)
  deriving DecidableEq, Repr

/-- States of an interrupt source (Table IC-2). -/
inductive SrcState where
  | idle
  | pending
  | inService
  deriving DecidableEq, Repr

/-- An interrupt source (R376 to R379). -/
structure Src where
  en : Bool
  level : Bool
  cls : Nat
  prio : Nat
  tmask : Nat
  st : SrcState
  raw : Bool
  cnt : Nat
  page : Nat                    -- page that claimed it: 0-7 VF pages, 8 the PF page, 9 and 10 the management pairs
  offered : Nat                 -- bit m: offered to management pair m (R384)
  deriving DecidableEq, Repr

def Src.reset : Src := ⟨false, false, 0, 0, 0, .idle, false, 0, 0, 0⟩

/-- A hall pass record (R162). -/
structure HallPass where
  held : Bool
  owner : Nat
  epoch : Nat
  mark : Bool                   -- orphaned by hand or by a rebuild: no live epoch (R164, R174)
  waiters : List Nat            -- cores stalled in hp.acq, in the order their requests reached the pool
  deriving DecidableEq, Repr

def HallPass.reset : HallPass := ⟨false, 0, 0, false, []⟩

/-- A roll call's arrivals that this device's synchronisation unit holds, one count per generation (R167). -/
structure RollHold where
  held : List (Nat × Nat)
  deriving DecidableEq, Repr

def RollHold.reset : RollHold := ⟨[]⟩

/-- Where a fence of a partition stands (R345). -/
inductive FenceSt where
  | none
  | stopping                    -- steps 1 to 3; step 4 takes no time
  deriving DecidableEq, Repr

/-- A cached translation (R343): the page's target kind, base and grants. -/
structure Leaf where
  tgt : Nat                     -- 0 HBM, 1 host, 2 board domain
  base : Nat                    -- target address of the 2 MiB page
  r : Bool
  w : Bool
  x : Bool
  leafAddr : Nat                -- PA of the stage-2 leaf that maps it
  big : Bool                    -- the stage-2 leaf is a 1 GiB page
  deriving DecidableEq, Repr

def Leaf.reset : Leaf := ⟨3, 0, false, false, false, 0, false⟩

/-- A page declared INPLACE or OVERWRITE by an accepted command (R328, R343): the kept leaf's page and its shadow. -/
structure Shadow where
  slot : Nat                    -- journal slot within the partition
  va : Nat                      -- 2 MiB virtual page number
  leaf : Nat                    -- the kept stage-2 leaf
  shadow : Nat                  -- HBM page reserved for it
  leafAddr : Nat                -- PA of the stage-2 leaf
  ovw : List (Nat × Nat)        -- OVERWRITE ranges within the page, from and to: their bytes are not copied; empty for INPLACE
  copying : Bool                -- a write of the command waits for the copy
  filled : Bool                 -- the copy has been made
  copied : Bool                 -- the command's cores reach the shadow
  deriving DecidableEq, Repr

/-- An armed dump's table entry (R439). -/
structure Dump where
  name : List Byte
  va : Nat
  len : Nat
  fmt : Nat
  deriving DecidableEq, Repr

/-- A partition beside its PRT registers (R336 to R359). -/
structure Part where
  cores : Nat                   -- cores in effect, bit i device logical core i
  s2base : Nat                  -- stage-2 root in effect (PT_S2BASE's value)
  s1base : Nat                  -- stage-1 root in effect
  pool : Tab Nat                -- granule map in effect: die * 128 + index to the map byte
  pendS2 : Option Nat
  pendCores : Option Nat
  pendPool : Tab Nat            -- register index 12 d + j to value + 1
  pendRm : List (Nat × Nat)
  pendRsv : List (Nat × Nat × Bool)
  zeroing : List (Nat × Nat)    -- extents being zeroed
  fence : FenceSt
  quiesce : Bool                -- the fence ends QUIESCED
  creating : Bool               -- a CREATE waits for zeroing to end (R346)
  hkey : Option Nat
  lkey : Option Nat
  s1inv : List (Bool × Nat)     -- invalidations, the one in progress first: ALL and VA
  tlb : Tab Leaf                -- cached translations by 2 MiB virtual page
  shadows : List Shadow
  quiet : Bool                  -- partition scope active (R360)
  entering : Bool               -- entry begun, not yet complete (R362)
  held : Bool                   -- RUNNING commands are held (Table AW-5)
  susp : Tab Nat                -- resource r suspended: the bell time of its start + 1 (R349)
  deferred : List (Nat × Nat)   -- timetable actions that a fence holds: 8 * entry + ACT, and ARG (R345)
  ttMiss : Tab Nat              -- entry n: the missed time already counted, + 1 (R309)
  bme : Bool                    -- the VF's Bus Master Enable (R458)
  vfOn : Bool                   -- the VF is enabled (R457)
  accJseq : Nat                 -- ACCJSEQ: the highest JSEQ accepted (R323)
  abandoned : List Nat          -- rings abandoned while the partition is quiet (Table FT-2)
  lsHeld : List (Bool × Nat)    -- writes held while CLOSING (R124): true for LS_CFG, with the value
  trcBuf : List (Nat × List Byte) -- trace records not yet written, oldest first, with the I/O die that buffers them (R437)
  trcLost : Nat                 -- trace records dropped since the last LOST record
  dump : Option Dump            -- the armed dump (R439)
  deriving DecidableEq, Repr

def Part.reset : Part where
  cores := 0
  s2base := 0
  s1base := 0
  pool := []
  pendS2 := none
  pendCores := none
  pendPool := []
  pendRm := []
  pendRsv := []
  zeroing := []
  fence := .none
  quiesce := false
  creating := false
  hkey := none
  lkey := none
  s1inv := []
  tlb := []
  shadows := []
  quiet := false
  entering := false
  held := false
  susp := []
  deferred := []
  ttMiss := []
  bme := false
  vfOn := false
  accJseq := 0
  abandoned := []
  lsHeld := []
  trcBuf := []
  trcLost := 0
  dump := none

/-- States of a journal record (Table AW-5). -/
inductive JState where
  | free
  | accepted
  | running
  | committing
  | reporting
  deriving DecidableEq, Repr

/-- A journal record (Table AW-4): the fields that the intake keeps, its entry and the copies taken at acceptance. -/
structure JRec where
  st : JState
  replays : Nat
  status : Nat
  cause : Nat
  jseq : Nat
  ring : Nat
  detail : Nat
  npage : Nat
  tacc : Nat
  tstart : Nat
  tend : Nat
  entry : List Byte
  args : List Byte
  outl : List Byte
  failmap : Tab Nat
  list : List Byte
  marked : Bool                 -- a replayable event marked the attempt (R326)
  withheld : Bool               -- a collective it armed ended INCOMPLETE
  outcome : Option (Nat × Nat × Nat) -- the first event that is not replayable: status, CAUSE and DETAIL
  parts : List Nat              -- cores, slots or jobs whose part still runs
  copies : List (Nat × Nat)     -- where the record's copies stand: stack and offset (R323)
  replay : Bool                 -- an attempt was stopped: it is to be replayed (R329)
  poisoned : List (Nat × Nat)   -- virtual ranges that the attempt poisoned (R331)
  undecl : Nat                  -- poisoned fragments outside the virtual space
  dumpNow : Bool                -- an armed dump fires at this command (R439)
  rptDone : Bool                -- the failure report has been written (R331)
  step : Nat                    -- single-stepping (R440): 1 held BEFORE, 2 past it, 3 held AFTER, 4 past it
  seq : Nat                     -- the entry's SEQ
  deriving DecidableEq, Repr

def JRec.reset : JRec where
  st := .free
  replays := 0
  status := 0
  cause := 0
  jseq := 0
  ring := 0
  detail := 0
  npage := 0
  tacc := 0
  tstart := 0
  tend := 0
  entry := []
  args := []
  outl := []
  failmap := []
  list := []
  marked := false
  withheld := false
  outcome := none
  parts := []
  copies := []
  replay := false
  poisoned := []
  undecl := 0
  dumpNow := false
  rptDone := false
  step := 0
  seq := 0

/-- A submission ring beside its registers: the last doorbell value D and the enable not yet in effect (R317, R334). -/
structure Ring where
  d : Nat
  enReq : Bool
  rej : List (Nat × Nat × Nat × Bool) -- rejected entries not yet reported: sequence, CAUSE, USER, CIRQ (R321)
  headAt : Nat                  -- bell time at which the head command began to wait in ACCEPTED (RING_STAT.WAIT)
  deriving DecidableEq, Repr

def Ring.reset : Ring := ⟨0, false, [], 0⟩

/-- An entry of a merge buffer (R204): its sector, byte mask, and the last requester with its partition. -/
structure MergeEnt where
  sector : Nat
  mask : Nat
  req : Nat
  part : Option Nat
  deriving DecidableEq, Repr

/-- A scrub pass in progress (R208): the sectors of its range still to come, and rows that yielded UE. -/
structure Scrub where
  next : Nat                    -- sector index of the range's next sector, or of the offset
  left : Nat
  abort : Bool
  rows : List (Nat × Nat × Nat × Nat) -- channel, pch, bank, row of each UE
  deriving DecidableEq, Repr

def Scrub.reset : Scrub := ⟨0, 0, false, []⟩

/-- A seed change in progress (R197): rows below `row` are placed by the new seed. -/
structure Rehash where
  part : Nat
  old : Nat
  new : Nat
  row : Nat                     -- interleave row number, PA div 24,576
  left : List Nat               -- extents still to be rewritten, the one in progress first
  deriving DecidableEq, Repr

/-- A laser cartridge beside its slot's registers (R390, R397 to R399). Equivalent time is counted in units of 50 ms. -/
structure Cart where
  eh : Nat
  w2 : Nat                      -- twice the latest wear weight W
  lastSerial : Nat              -- the device's own last value for the slot, and the SERIAL it is for (R399)
  lastEh : Nat
  aEh : Nat                     -- wear log copy A: EHMIN and SEQ
  aSeq : Nat
  bEh : Nat
  bSeq : Nat
  pout : Nat                    -- POUT as last read
  deriving DecidableEq, Repr

def Cart.reset : Cart := ⟨0, 0, 0, 0, 0, 0, 0, 0, 0⟩

/-- A firmware image in the module flash (R413): the fields that the ROM checks, and what the signature covers. -/
structure FwImg where
  magic : Nat
  svn : Nat
  release : Nat
  body : List Byte
  sig : List Byte
  deriving DecidableEq, Repr

def FwImg.reset : FwImg := ⟨0x4D474657, 0, 0, [], []⟩

/-- The test access port (R443, R467): the instruction in its register, TRST_N, the boundary outputs that EXTEST or CLAMP drives (none in
normal operation), the boundary register as last loaded, and whether HIGHZ floats the outputs. -/
structure Tap where
  ir : Nat
  low : Bool
  pins : Option Nat
  bsr : Nat
  float : Bool
  deriving DecidableEq, Repr

/-- Test-logic reset loads IDCODE; the boundary register's contents are zero (log 60). -/
def Tap.reset : Tap := ⟨1, false, none, 0, false⟩

/-- A mailbox command that waits for a management pair (R410, R411): its mailbox, OP and request words. -/
structure MbCmd where
  mb : Nat
  op : Nat
  data : List Nat
  deriving DecidableEq, Repr

/-- The SPDM responder of one function's DOE mailbox (R356): what has been negotiated, and its sessions, true once established. -/
structure Spdm where
  ver : Nat
  caps : Bool
  algs : Bool
  sessions : List (Nat × Bool)
  deriving DecidableEq, Repr

def Spdm.reset : Spdm := ⟨0, false, false, []⟩

/-- The output pins of Table DV-5 that the block drives, true for asserted. -/
structure Pins where
  quietN : Bool
  alertN : Bool
  thermtripN : Bool
  deriving DecidableEq, Repr

/-- QUIET_N stands while a reset runs (R448). -/
def Pins.reset : Pins := ⟨true, false, false⟩
end Sys2Proof.Machine
end

