-- ==== Sys2Proof/Machine/Device.lean ====
section
/-!
DEFINITION. The device's state but for the queue of waiting commands: every register as its fields (Registers.lean),
the cores, the memories, and the units. State.lean adds the queue.
-/
namespace Sys2Proof.Machine

structure Dev where
  regs : Tab Nat                -- every register field under Fld.key, less its reset value's entry
  ports : Tab ReqPort
  ctr : Nat                     -- the free values taken so far (the model's own)
  now : Nat                     -- the bell counter (BL_NOW)
  out : List Emit
  pins : Pins
  cores : Tab Core
  hbm : Tab Byte                -- the hashed space by physical address
  hbmPoison : Tab Bool          -- by 32-byte sector
  loc : Tab Byte                -- stack-local regions: stack * 2^28 + offset (R192)
  pool : Tab Byte               -- die * 2^28 + physical pool address
  poolPoison : Tab Bool
  merge : List MergeEnt         -- merge buffer entries, oldest first (R204)
  hot : Tab Nat                 -- sectors served in the present window: stack * 64 + 32 * pch + channel (R196)
  scrubs : Tab Scrub
  rehash : Option Rehash
  hostPoison : Tab Bool         -- 4 KiB host pages whose next read ends in a completion error (R459)
  host : Tab Byte               -- host memory as the part has read and written it
  srcs : Tab Src
  undel : Tab Nat               -- undelivered counts: page * 64 + vector (R381)
  pba : Tab Bool                -- pending messages of masked vectors: page * 64 + vector
  vmask : Tab Bool              -- unmasked vectors: page * 64 + vector (a vector is masked at reset)
  msixEn : Nat                  -- bit page: the function's MSI-X is enabled
  bankSince : Tab Nat           -- bell time at which each bank's primary became primary (R367)
  hp : Tab HallPass             -- partition * 64 + pass
  rolls : Tab RollHold          -- partition * 32 + roll call
  parts : Tab Part
  owner : Tab Nat               -- extent to its owner + 1
  rsv : Tab Nat                 -- 2 MiB HBM page to the partition + 1 whose reserve it belongs to, free or as a shadow
  jrec : Tab JRec               -- global slot g
  rings : Tab Ring              -- partition * 64 + ring
  rrNext : Nat                  -- round-robin position of acceptance (R318)
  retList : List (Nat × Nat)    -- the non-volatile list: logical core and physical core, in order (R368)
  pairList : Nat                -- the pairs on the non-volatile list (R370)
  lgOk : Tab Nat                -- laggard responses: windows in a row below half the threshold, links, then 100 + FRY_LAG entries
  offline : Nat                 -- offline logical cores, bit c (R369)
  devQuiet : Bool               -- device scope active
  bellQuiet : Bool              -- bell scope active
  devEntering : Bool
  lastExit : Option Nat         -- bell time of the last EXIT after a self-check entry (Table FT-2)
  islandRings : Tab (Nat × Nat) -- the island's copy of ACC and DONE: partition * 64 + ring (R332)
  ctxs : Tab Ctx                -- stream contexts (R246)
  links : Tab Link
  inject : List Pkt             -- packets of this device's streams that wait for its router
  arrived : List Pkt            -- packets delivered to the stream layer and not yet taken
  msgs : List (Nat × List Byte) -- engine messages taken and not yet acted on: context and payload
  draining : Nat                -- links on which nothing new is sent before a reshape (R252)
  reshaped : Bool               -- a bank swap's links are retraining (R252)
  shape : Bool                  -- SHAPE in effect (R251)
  bootid : Nat                  -- BOOTID (R353), drawn at cold reset
  cfs : Tab CfSlot              -- confluence slots by device slot
  cfEnds : List (Nat × Nat × Nat) -- engine, BID and GEN of the last endings, newest first (R277)
  cfEarly : List (Nat × List Byte) -- confluence messages for a collective not yet armed here
  fry : Tab FryJob
  fryq : Tab FryQ
  fryOut : List FryOut
  bell : BellSt
  nocFlags : List (Nat × Nat × Nat × Nat) -- flag updates on the NoC: core, flag, SOP, value (R158)
  carts : Tab Cart              -- laser slots (R395)
  lsen : Nat                    -- bit c: LSEN[c] is high (R388)
  lasOff : Nat                  -- bit c: ALLOFF is in force for the slot until ON is written for it (R405)
  sbHj : Nat                    -- bit p: port p NACKed a Hot-Join during an assignment (R393)
  imgA : FwImg                  -- the firmware images in flash (R413)
  imgB : FwImg
  fwReady : Bool                -- the image that is not running was updated and checked (R430)
  sfuSet : List Byte            -- the microprogram image in force, empty with SETID 0 (R142)
  sfuPend : List Byte           -- an accepted image that waits for the drain (R143)
  sfuBuf : List Byte            -- pieces of an image so far (Table MG-1)
  sfuCand : List Byte           -- an image checked by an update and not yet activated (R430)
  mbq : List MbCmd              -- mailbox commands that wait for a pair (R410)
  vinLow : Bool                 -- the input holds the device in cold reset (R417)
  modLow : Bool                 -- MOD_RESET_N is low (R422)
  perstLow : Bool               -- PERST_N is low (R422)
  vstby : Bool                  -- VSTBY is valid (R451)
  accStop : Nat                 -- bit 0: a profile change, bit 1: an installation has stopped the intake (R23, R143)
  accWas : Bool                 -- JNL_CTL.EN as the stop found it
  caps : Tab Nat                -- group g: 1 a capture has been triggered, 2 and one further (R436)
  spdm : Tab Spdm               -- function to its SPDM responder (R356)
  profTo : Nat                  -- the profile that a change in progress goes to (R420)
  thmSeen : Nat                 -- bit s: sensor s was sampled since MAX was last read
  sensHot : Nat                 -- bit s: the last sample of sensor s was at or above TRIP (R427)
  log : List (List Byte)        -- the non-volatile log, oldest first
  deriving DecidableEq, Repr

def Dev.reset : Dev where
  regs := []
  ports := []
  ctr := 0
  now := 0
  out := []
  pins := Pins.reset
  cores := []
  hbm := []
  hbmPoison := []
  loc := []
  pool := []
  poolPoison := []
  merge := []
  hot := []
  scrubs := []
  rehash := none
  hostPoison := []
  host := []
  srcs := []
  undel := []
  pba := []
  vmask := []
  msixEn := 0
  bankSince := []
  hp := []
  rolls := []
  parts := []
  owner := []
  rsv := []
  jrec := []
  rings := []
  rrNext := 0
  retList := []
  pairList := 0
  lgOk := []
  offline := 0
  devQuiet := false
  bellQuiet := false
  devEntering := false
  lastExit := none
  islandRings := []
  ctxs := []
  links := []
  inject := []
  arrived := []
  msgs := []
  draining := 0
  reshaped := false
  shape := false
  bootid := 0
  cfs := []
  cfEnds := []
  cfEarly := []
  fry := []
  fryq := []
  fryOut := []
  bell := BellSt.reset
  nocFlags := []
  carts := []
  lsen := 0
  lasOff := 0
  sbHj := 0
  imgA := FwImg.reset
  imgB := FwImg.reset
  fwReady := false
  sfuSet := []
  sfuPend := []
  sfuBuf := []
  sfuCand := []
  mbq := []
  vinLow := false
  modLow := false
  perstLow := false
  vstby := true
  accStop := 0
  accWas := false
  caps := []
  spdm := []
  profTo := 0
  thmSeen := 0
  sensHot := 0
  log := []

end Sys2Proof.Machine
end

