-- ==== Sys2Proof/Machine/Ops.lean ====
section
/-!
DEFINITION. The named operations over the device: fields and registers (R9, R10), fresh free values, the per-unit
tables, interrupt source arrivals (R377 to R384), the error banks (R365 to R367), and the reach of quiet state (R360).
-/
namespace Sys2Proof.Machine

/-- A bit field of a number: bits hi:lo (R6). -/
def bits (x hi lo : Nat) : Nat := x / 2 ^ lo % 2 ^ (hi + 1 - lo)
def bit (x n : Nat) : Bool := x / 2 ^ n % 2 = 1
def b2n (b : Bool) : Nat := if b then 1 else 0
/-- A number with bit n set or cleared. -/
def setBit (x n : Nat) (v : Bool) : Nat := if bit x n = v then x else if v then x + 2 ^ n else x - 2 ^ n
/-- A two's complement field sign-extended to 64 bits (R56). -/
def sext (w x : Nat) : Word := if 2 ^ (w - 1) ≤ x then BitVec.ofNat 64 (x + 2 ^ 64 - 2 ^ w) else BitVec.ofNat 64 x
/-- Saturating addition to a counter of w bits. -/
def satAdd (w x k : Nat) : Nat := min (x + k) (2 ^ w - 1)

namespace Dev

/-- A register field's value: the value last stored, or its reset value (R10). -/
def rd (d : Dev) (f : Fld) : Nat := tabGet f.reset f.key d.regs
/-- Stores a field; the value is cut to the field's width. -/
def wr (f : Fld) (v : Nat) (d : Dev) : Dev := { d with regs := tabPut f.reset f.key (v % 2 ^ f.width) d.regs }
/-- A one-bit field as a truth value. -/
def flag (d : Dev) (f : Fld) : Bool := d.rd f = 1
def setF (f : Fld) (d : Dev) : Dev := d.wr f 1
def clrF (f : Fld) (d : Dev) : Dev := d.wr f 0
/-- Adds to a counter field that saturates at its width. -/
def incSat (f : Fld) (k : Nat) (d : Dev) : Dev := d.wr f (satAdd f.width (d.rd f) k)
/-- Adds to a counter field that wraps. -/
def incWrap (f : Fld) (k : Nat) (d : Dev) : Dev := d.wr f (d.rd f + k)

/-- The next free value and the state with the counter advanced (assumption log 2). -/
def fresh (d : Dev) : Nat × Dev := (Config.free d.ctr, { d with ctr := d.ctr + 1 })
def emit (e : Emit) (d : Dev) : Dev := { d with out := e :: d.out }

def port (d : Dev) (r : Nat) : ReqPort := tabGet ReqPort.reset r d.ports
def setPort (r : Nat) (p : ReqPort) (d : Dev) : Dev := { d with ports := tabPut ReqPort.reset r p d.ports }
def core (d : Dev) (c : Nat) : Core := tabGet Core.reset c d.cores
def setCore (c : Nat) (x : Core) (d : Dev) : Dev := { d with cores := tabPut Core.reset c x d.cores }
def updCore (c : Nat) (f : Core → Core) (d : Dev) : Dev := d.setCore c (f (d.core c))
def eng (d : Dev) (c e : Nat) : Eng := (d.core c).eng e
def updEng (c e : Nat) (f : Eng → Eng) (d : Dev) : Dev := d.updCore c fun x => x.setEng e (f (x.eng e))
def part (d : Dev) (p : Nat) : Part := tabGet Part.reset p d.parts
def setPart (p : Nat) (x : Part) (d : Dev) : Dev := { d with parts := tabPut Part.reset p x d.parts }
def updPart (p : Nat) (f : Part → Part) (d : Dev) : Dev := d.setPart p (f (d.part p))
def src (d : Dev) (n : Nat) : Src := tabGet Src.reset n d.srcs
def setSrc (n : Nat) (x : Src) (d : Dev) : Dev := { d with srcs := tabPut Src.reset n x d.srcs }
def pass (d : Dev) (p n : Nat) : HallPass := tabGet HallPass.reset (p * 64 + n) d.hp
def setPass (p n : Nat) (x : HallPass) (d : Dev) : Dev := { d with hp := tabPut HallPass.reset (p * 64 + n) x d.hp }
def roll (d : Dev) (p n : Nat) : RollHold := tabGet RollHold.reset (p * 32 + n) d.rolls
def setRoll (p n : Nat) (x : RollHold) (d : Dev) : Dev := { d with rolls := tabPut RollHold.reset (p * 32 + n) x d.rolls }
def jr (d : Dev) (g : Nat) : JRec := tabGet JRec.reset g d.jrec
def setJr (g : Nat) (x : JRec) (d : Dev) : Dev := { d with jrec := tabPut JRec.reset g x d.jrec }
def ring (d : Dev) (p r : Nat) : Ring := tabGet Ring.reset (p * 64 + r) d.rings
def setRing (p r : Nat) (x : Ring) (d : Dev) : Dev := { d with rings := tabPut Ring.reset (p * 64 + r) x d.rings }

/-- The partition whose cores in effect hold device logical core c (R336). -/
def coreOwner (d : Dev) (c : Nat) : Option Nat := (List.range 8).find? fun p => bit (d.part p).cores c
/-- The device logical cores of a partition, in partition-local order (Table PT-1). -/
def coresOf (d : Dev) (p : Nat) : List Nat := (List.range 144).filter fun c => bit (d.part p).cores c
/-- The partition-local number of a core: its rank in the partition's mask. -/
def localNo (d : Dev) (p c : Nat) : Nat := ((d.coresOf p).filter fun k => k < c).length
/-- The device logical core of a partition-local number. -/
def deviceNo (d : Dev) (p i : Nat) : Option Nat := (d.coresOf p)[i]?
/-- A partition's state (Table PT-5): 0 FREE, 1 ACTIVE, 2 FENCING, 3 QUIESCED, 4 RELEASING. -/
def ptState (d : Dev) (p : Nat) : Nat := d.rd (Reg.PT_STAT_STATE p)
/-- A fence or quiesce pauses a partition's slots and jobs at their next chunk or row (R345). -/
def paused (d : Dev) (p : Nat) : Bool := d.ptState p = 2 || d.ptState p = 3
/-- The first global journal slot of a partition (R323). -/
def slotBase (p : Nat) : Nat := 4096 * p
/-- A partition is quiet while either scope covers it (R360). -/
def isQuiet (d : Dev) (p : Nat) : Bool := (d.part p).quiet || d.devQuiet

/-- QUIET_N is asserted while any scope is active (R360), and while a reset runs, with standby power present (R448). -/
def quietPin (d : Dev) : Dev :=
  let on := d.vstby && (d.flag Reg.RST_STAT_INRESET || !d.flag Reg.RST_STAT_READY || d.devQuiet || d.bellQuiet
    || (List.range 8).any fun p => (d.part p).quiet)
  { d with pins := { d.pins with quietN := on } }

/-- The owner of an interrupt source (Table IC-1). -/
def srcOwner (d : Dev) (n : Nat) : Option Nat :=
  if 1152 ≤ n ∧ n < 1216 then
    (if d.flag (Reg.CF_SLOT_V ((n - 1152) / 32) ((n - 1152) % 32)) then
      some (d.rd (Reg.CF_SLOT_PART ((n - 1152) / 32) ((n - 1152) % 32))) else none)
  else if 1216 ≤ n ∧ n < 1232 then
    (if d.flag (Reg.FRY_JOB_V (n - 1216)) then some (d.rd (Reg.FRY_JOB_PART (n - 1216))) else none)
  else if 1408 ≤ n ∧ n < 1472 then some ((n - 1408) / 8)
  else if 1536 ≤ n ∧ n < 3840 then d.coreOwner ((n - 1536) / 16)
  else if 3840 ≤ n then some ((n - 3840) / 32)
  else none

/-- Whether a source number is not reserved (R376). -/
def srcReal (n : Nat) : Bool :=
  if n < 96 then true
  else if n < 256 then false
  else if n < 512 then n % 4 < 2
  else if n < 1024 then n % 16 < 6
  else if n < 1120 then n % 8 < 5 || (n = 1029)
  else if n < 1152 then false
  else if n < 1232 then true
  else if n < 1280 then false
  else if n < 1283 then true
  else if n < 1408 then false
  else if n < 1472 then n % 8 < 2
  else if n < 1536 then false
  else if n < 3840 then n % 16 < 3
  else if n < 4096 then n % 32 < 20
  else false

/-- The claim page that serves a source of host class (R378): the owner's page for CLASS 0b10, the PF's (8) for 0b01. -/
def srcPage (d : Dev) (n : Nat) : Option Nat :=
  match (d.src n).cls with
  | 1 => some 8
  | 2 => d.srcOwner n
  | _ => none

/-- Sends a vector's message and clears its undelivered count; a masked vector keeps it in the PBA (R381). -/
def vecSend (page v : Nat) (d : Dev) : Dev :=
  let k := page * 64 + v
  let d := { d with undel := tabPut 0 k 0 d.undel }
  if ¬ bit d.msixEn page then d
  else if tabGet false k d.vmask then d.emit (.msix page v)
  else { d with pba := tabPut false k true d.pba }

/-- Adds arrivals to a vector's undelivered count and sends when it reaches CCOUNT (R381). -/
def vecCount (page v k : Nat) (d : Dev) : Dev :=
  let n := tabGet 0 (page * 64 + v) d.undel + k
  let lim := max 1 (d.rd (Reg.IC_VCOAL_CCOUNT page v))
  let d := { d with undel := tabPut 0 (page * 64 + v) n d.undel }
  if n ≥ lim then d.vecSend page v else d

/-- Counts k arrivals at every vector at which a source is eligible (R381). -/
def eligibleCount (n k : Nat) (d : Dev) : Dev :=
  match d.srcPage n with
  | none => d
  | some page =>
    (List.range 64).foldl (fun d v => if bit (d.src n).tmask v then d.vecCount page v k else d) d

/-- A source of CLASS 0b00 that becomes PENDING is offered to the pair of lower RUNPRIO, pair 0 when equal (R384);
while one pair restarts the other serves (R409). -/
def offer (n : Nat) (d : Dev) : Dev :=
  let s := d.src n
  if s.cls ≠ 0 then d
  else
    let m := if ¬ d.flag Reg.MGT_LOCK_P0UP then 1
      else if d.flag Reg.MGT_LOCK_P1UP ∧ d.rd (Reg.IRQ_MPRIO_RUNPRIO 1) < d.rd (Reg.IRQ_MPRIO_RUNPRIO 0) then 1 else 0
    (d.setSrc n { s with offered := 2 ^ m }).emit (.notice m n)

/-- The arrival itself at an enabled source (Table IC-2). -/
def srcArrive (n : Nat) (d : Dev) : Dev :=
  let s := d.src n
  if ¬ s.en then d
  else
    match s.st with
    | .idle => ((d.setSrc n { s with st := .pending, cnt := 1 }).eligibleCount n 1).offer n
    | .pending => (d.setSrc n { s with cnt := satAdd 8 s.cnt 1 }).eligibleCount n 1
    | .inService => if s.level then d else d.setSrc n { s with cnt := satAdd 8 s.cnt 1 }

/-- An event at an event source: RAW is set, and each event is one arrival (R377). -/
def irqEvent (n : Nat) (d : Dev) : Dev :=
  if ¬ srcReal n then d else (d.setSrc n { d.src n with raw := true }).srcArrive n

/-- A condition source follows its condition; its rising edge is one arrival (R377). -/
def irqCond (n : Nat) (c : Bool) (d : Dev) : Dev :=
  let was := (d.src n).raw
  let d := d.setSrc n { d.src n with raw := c }
  if c && !was then d.srcArrive n else d

/-- A change of a source's owner returns it to IDLE, unrouted and disabled (R378). -/
def srcDisown (n : Nat) (d : Dev) : Dev :=
  d.setSrc n { d.src n with cls := 0, en := false, tmask := 0, st := .idle, cnt := 0, offered := 0 }

/-- A source returned to IDLE with its configuration kept (R385). -/
def srcIdle (n : Nat) (d : Dev) : Dev :=
  d.setSrc n { d.src n with st := .idle, cnt := 0, offered := 0 }

/-- The severities of Table FT-4. -/
def bankPrim (d : Dev) (b : Nat) : Bool := bit (d.rd (Reg.ERR_P_WORD b 0)) 0
def bankPend (d : Dev) (b : Nat) : Bool := bit (d.rd (Reg.ERR_Q_WORD b 0)) 0
def bankSev (d : Dev) (b : Nat) : Nat := bits (d.rd (Reg.ERR_P_WORD b 0)) 2 1

/-- ALERT_N is asserted while a bank has ESC = 1 or a FATAL primary remains (R367); while a reset runs, only for the latter (R448). -/
def alertPin (d : Dev) : Dev :=
  let normal := d.flag Reg.RST_STAT_READY && !d.flag Reg.RST_STAT_INRESET
  let on := d.vstby && (List.range 64).any fun b =>
    (normal && d.flag (Reg.ERR_STAT_ESC b)) || (d.bankPrim b && decide (d.bankSev b = 3))
  { d with pins := { d.pins with alertN := on } }

def setPrim (b w0 w1 w2 w3 : Nat) (d : Dev) : Dev :=
  ((((d.wr (Reg.ERR_P_WORD b 0) w0).wr (Reg.ERR_P_WORD b 1) w1).wr (Reg.ERR_P_WORD b 2) w2).wr (Reg.ERR_P_WORD b 3) w3)
def setPend (b w0 w1 w2 w3 : Nat) (d : Dev) : Dev :=
  ((((d.wr (Reg.ERR_Q_WORD b 0) w0).wr (Reg.ERR_Q_WORD b 1) w1).wr (Reg.ERR_Q_WORD b 2) w2).wr (Reg.ERR_Q_WORD b 3) w3)

/-- A bank escalates: ESC, the escalation event, ALERT_N (R367). -/
def escalate (b : Nat) (d : Dev) : Dev :=
  ((d.setF (Reg.ERR_STAT_ESC b)).irqEvent (256 + 4 * b + 1)).alertPin

/-- One more record dropped; reaching OVFESC escalates (R365, R367). -/
def bankDrop (b : Nat) (d : Dev) : Dev :=
  let d := d.incSat (Reg.ERR_STAT_OVF b) 1
  let lim := d.rd (Reg.ERR_CFG_OVFESC b)
  if lim ≠ 0 ∧ d.rd (Reg.ERR_STAT_OVF b) ≥ lim ∧ ¬ d.flag (Reg.ERR_STAT_ESC b) then d.escalate b else d

/-- A record becomes primary: the new-error event, and ALERT_N at once when it is FATAL (R365, R367). -/
def becomePrim (b w0 w1 w2 w3 : Nat) (d : Dev) : Dev :=
  let d := (d.setPrim b w0 w1 w2 w3)
  (({ d with bankSince := tabPut 0 b d.now d.bankSince }).irqEvent (256 + 4 * b)).alertPin

/-- A record arrives at bank b (R365). -/
def bankArrive (b w0 w1 w2 w3 : Nat) (d : Dev) : Dev :=
  if ¬ d.bankPrim b then d.becomePrim b w0 w1 w2 w3
  else if bits w0 2 1 = 3 ∧ d.bankSev b < 3 then
    -- pre-emption: the displaced record becomes pending, a record pushed out is dropped and counted
    let pushed := d.bankPend b
    let d := d.setPend b (d.rd (Reg.ERR_P_WORD b 0)) (d.rd (Reg.ERR_P_WORD b 1)) (d.rd (Reg.ERR_P_WORD b 2))
      (d.rd (Reg.ERR_P_WORD b 3))
    let d := (d.becomePrim b w0 w1 w2 w3).setF (Reg.ERR_STAT_PREEMPT b)
    if pushed then d.bankDrop b else d
  else if ¬ d.bankPend b then d.setPend b w0 w1 w2 w3
  else d.bankDrop b

end Dev

/-- The parts of an error record that its maker gives (Table FT-4). -/
structure ErrArgs where
  sev : Nat := 1
  cls : Nat
  part : Option Nat := none
  qscope : Nat := 0
  unit : Nat := 0
  info : Nat := 0
  addr : Nat := 0
  extra : Nat := 0

/-- Word 0 of Table FT-4. -/
def ErrArgs.word0 (a : ErrArgs) : Nat :=
  1 + a.sev % 4 * 2 + a.cls % 256 * 2 ^ 3 + (a.part.getD 0) % 8 * 2 ^ 11 + b2n a.part.isSome * 2 ^ 14
    + a.qscope % 4 * 2 ^ 15 + a.unit % 2 ^ 15 * 2 ^ 17 + a.info % 2 ^ 32 * 2 ^ 32

namespace Dev

/-- Makes a record of Table FT-4 at the present bell time and hands it to its bank. -/
def err (b : Nat) (a : ErrArgs) (d : Dev) : Dev := d.bankArrive b a.word0 (a.addr % 2 ^ 64) d.now (a.extra % 2 ^ 64)

/-- A host access error (R16): a record in bank 4 naming the address. The spec gives it no class of Table FT-5 (log 9). -/
def hostErr (addr : Nat) (d : Dev) : Dev :=
  let (k, d) := d.fresh
  d.err 4 { cls := k, addr := addr }

end Dev
end Sys2Proof.Machine
end

