-- ==== Sys2Proof/Machine/Irq.lean ====
section
/-!
DEFINITION. The interrupt controller's claims, completions and configuration (R376 to R387); arrivals and the
counting of Ops.lean are shared with every unit. Pages are numbered 0 to 7 for the VF pages, 8 for the PF's,
9 and 10 for the management pairs.
-/
namespace Sys2Proof.Machine.Dev

/-- Whether page v's claim may take source n (R381, R382): PENDING, served by the page, and vector v in its TMASK. -/
def eligible (d : Dev) (page v n : Nat) : Bool :=
  let s := d.src n
  decide (s.st = .pending) && decide (d.srcPage n = some page) && bit s.tmask v

/-- The best of a list of sources in rising number: the highest PRIO, and of equals the first (R382). -/
def bestSource (d : Dev) : List Nat → Option Nat
  | [] => none
  | n :: ns =>
    match d.bestSource ns with
    | none => some n
    | some m => if (d.src n).prio < (d.src m).prio then some m else some n

/-- The numbers of the sources that State lists, in rising order. -/
def listedSources (d : Dev) : List Nat := d.srcs.map (·.1)

/-- Claims source n for a page: Table IC-3's value, CNT := 0, INSERVICE (Table IC-2). -/
def claimSource (page n : Nat) (d : Dev) : Nat × Dev :=
  let s := d.src n
  (n + s.cnt * 2 ^ 12 + b2n s.level * 2 ^ 20,
    d.setSrc n { s with st := .inService, cnt := 0, page := page, offered := 0 })

/-- A read of IC_CLAIM_v of a page (R382). -/
def claim (page v : Nat) (d : Dev) : Nat × Dev :=
  match d.bestSource (d.listedSources.filter (d.eligible page v)) with
  | none => (0xFFF, d)
  | some n => d.claimSource page n

/-- A read of IRQ_MCLAIM_m: the sources of CLASS 0b00 offered to the pair (R384). -/
def mclaim (m : Nat) (d : Dev) : Nat × Dev :=
  match d.bestSource (d.listedSources.filter fun n =>
      decide ((d.src n).st = .pending) && decide ((d.src n).cls = 0) && bit (d.src n).offered m) with
  | none => (0xFFF, d)
  | some n => d.claimSource (9 + m) n

/-- A source becomes PENDING with CNT = k other than by an arrival: it is counted at its vectors or offered (R381, R384). -/
def becomePending (n k : Nat) (d : Dev) : Dev :=
  ((d.setSrc n { d.src n with st := .pending, cnt := k }).eligibleCount n k).offer n

/-- A write of source n to a page's completion register at `addr` (R383, Table IC-2). -/
def complete (page n addr : Nat) (d : Dev) : Dev :=
  let s := d.src n
  if s.st ≠ .inService ∨ s.page ≠ page then d.hostErr addr
  else if s.level then
    if s.raw then d.becomePending n 1 else d.setSrc n { s with st := .idle, cnt := 0 }
  else if s.cnt > 0 then d.becomePending n s.cnt
  else d.setSrc n { s with st := .idle }

/-- The completion register's address of a page. -/
def completeAddr (page : Nat) : Nat :=
  if page < 9 then Reg.IC_COMPLETE page else Reg.IRQ_MCOMP (page - 9)

/-- MTMO passed: a CLASS 0b00 source still PENDING is offered to the other pair as well (R384). -/
def offerTimeout (n : Nat) (d : Dev) : Dev :=
  let s := d.src n
  if s.st ≠ .pending ∨ s.cls ≠ 0 ∨ s.offered = 3 ∨ s.offered = 0 then d
  else (d.setSrc n { s with offered := 3 }).emit (.notice (if s.offered = 1 then 1 else 0) n)

/-- CTIME passed since the first undelivered arrival (R381). -/
def coalesceTimeout (page v : Nat) (d : Dev) : Dev :=
  if tabGet 0 (page * 64 + v) d.undel = 0 then d else d.vecSend page v

/-- A write of a source's configuration: EN, MODE, CLASS and PRIO (R378, R379). -/
def sourceConfig (n : Nat) (en level : Bool) (cls prio : Nat) (d : Dev) : Dev :=
  let s := d.src n
  let cls := if cls = 3 ∨ (cls = 2 ∧ (d.srcOwner n).isNone) then s.cls else cls
  let d := d.setSrc n { s with en := en, level := level, cls := cls, prio := prio }
  if ¬ en then d.srcIdle n
  else if ¬ s.en ∧ level ∧ s.raw ∧ s.st = .idle then d.becomePending n 1
  else d

/-- Whether a source's RAW bit follows a condition (R377). -/
def condSource (n : Nat) : Bool := 1024 ≤ n && n < 1120 && n % 8 = 1

/-- A write of 1 to a source's RAW (R377): ignored at a condition source. -/
def rawClear (n : Nat) (d : Dev) : Dev :=
  if condSource n then d else d.setSrc n { d.src n with raw := false }

/-- A write of a vector's control in the MSI-X table with the function's MSI-X Enable as given (R381, R456): an
unmasked vector of an enabled function sends the message its PBA bit keeps. -/
def vectorControl (page v : Nat) (mask en : Bool) (d : Dev) : Dev :=
  let k := page * 64 + v
  let d := { d with vmask := tabPut false k (!mask) d.vmask, msixEn := setBit d.msixEn page en }
  if !mask && en && tabGet false k d.pba then
    ({ d with pba := tabPut false k false d.pba }).emit (.msix page v)
  else d

/-- The value of a source's configuration register (R386). -/
def srcCfgValue (d : Dev) (n : Nat) : Nat :=
  let s := d.src n
  b2n s.en + b2n s.level * 2 + s.cls * 4 + s.prio * 16

/-- The value of a source's status register (R386): the owner's fields are IRQ_SSTAT's alone. -/
def srcStatValue (d : Dev) (n : Nat) (own : Bool) : Nat :=
  let s := d.src n
  let st := match s.st with | .idle => 0 | .pending => 1 | .inService => 2
  let o := match d.srcOwner n with | some p => 8 + p * 16 | none => 0
  st + b2n s.raw * 4 + (if own then o else 0) + s.cnt * 2 ^ 8

/-- Whether a page's window reaches source n (R387). -/
def windowReach (d : Dev) (page n : Nat) : Bool :=
  if page = 8 then (d.src n).cls = 1 else (d.src n).cls = 2 && d.srcOwner n = some page

/-- IRQ_PEND_n (R386): bit i is 1 while source 64n + i is PENDING. -/
def pendMap (d : Dev) (n : Nat) : Nat :=
  (d.srcs.filter fun x => decide (x.1 / 64 = n) && decide (x.2.st = .pending)).foldl (fun a x => a + 2 ^ (x.1 % 64)) 0

/-- The controller at a warm device reset (R385): configuration is kept, and a condition's RAW follows it. -/
def irqWarm (d : Dev) : Dev :=
  let d := d.listedSources.foldl (fun (d : Dev) n =>
    (d.srcIdle n).setSrc n { (d.srcIdle n).src n with raw := condSource n && (d.src n).raw }) d
  { d with undel := [] }

end Sys2Proof.Machine.Dev
end

