-- ==== Sys2Proof/Machine/JournalBase.lean ====
section
/-!
DEFINITION. What the units report to the journal record of the command that they work for (R326, R327): a part that has ended,
an event that marks the attempt, the first event that is not replayable, and what the attempt poisoned. An event of an attempt that
no longer runs changes nothing (Table AW-5).
-/
namespace Sys2Proof.Machine.Dev

def updJr (g : Nat) (f : JRec → JRec) (d : Dev) : Dev := d.setJr g (f (d.jr g))

/-- Parts of a command: cores by device logical number, slots from 1,000, jobs from 2,000. -/
def partSlot (s : Nat) : Nat := 1000 + s
def partJob (j : Nat) : Nat := 2000 + j

/-- A part of the command in global journal slot g has ended. -/
def jrPartEnd (g : Option Nat) (id : Nat) (d : Dev) : Dev :=
  match g with
  | some g => d.updJr g fun r => { r with parts := r.parts.erase id }
  | none => d

/-- The first event that is not replayable decides the outcome (R326): STATUS, CAUSE and DETAIL. -/
def jrOutcome (g : Option Nat) (o : Nat × Nat × Nat) (d : Dev) : Dev :=
  match g with
  | some g => if (d.jr g).st ≠ .running then d else d.updJr g fun r => { r with outcome := r.outcome.orElse fun _ => some o }
  | none => d

/-- An event that marks the attempt, to be replayed at its end; met where no replay is left or allowed, it takes its own outcome,
FAILED_PARTIAL with FABRIC (R326). -/
def jrMark (g : Option Nat) (d : Dev) : Dev :=
  match g with
  | some g =>
    let r := d.jr g
    if r.st ≠ .running then d
    else if r.replays < d.rd (Reg.JNL_PCFG_REPLAYMAX (g / 4096)) ∧ ¬ bit (byteField r.entry 9 1) 2 then d.setJr g { r with marked := true }
    else d.jrOutcome (some g) (2, 0x08, 0)
  | none => d

/-- A collective that the command armed ended INCOMPLETE (R326). -/
def jrWithheld (g : Option Nat) (d : Dev) : Dev :=
  match g with
  | some g => if (d.jr g).st ≠ .running then d else d.updJr g fun r => { r with withheld := true }
  | none => d

/-- An output-list entry (R320): ADDR, KIND, LEN, and whether it breaks R320. -/
structure OutEnt where
  addr : Nat
  kind : Nat
  len : Nat
  bad : Bool
  deriving DecidableEq, Repr

def outEnt (b : List Byte) : OutEnt :=
  let w := byteField b 0 8
  let n := byteField b 8 8
  let k := bits w 49 48
  { addr := bits w 47 0, kind := k, len := n, bad := bits w 63 50 ≠ 0 || k = 0 || n = 0 || decide (2 ^ 40 < n) }

/-- The output list of n entries. -/
def outEnts (n : Nat) (b : List Byte) : List OutEnt := (List.range n).map fun i => outEnt (b.drop (16 * i))

/-- Whether two byte ranges meet. -/
def rangesMeet (a n b m : Nat) : Bool := decide (a < b + m ∧ b < a + n)

/-- The declared outputs of a record: NOUT is byte 10 of the entry. -/
def recOuts (r : JRec) : List OutEnt := outEnts (byteField r.entry 10 1) r.outl

/-- Fragments that the attempt poisoned, each as its virtual ranges; one that lies outside every declared output is counted (R331). -/
def jrPoison (g : Option Nat) (frs : List (List (Nat × Nat))) (d : Dev) : Dev :=
  match g with
  | some g =>
    if (d.jr g).st ≠ .running then d
    else
      d.updJr g fun r =>
        let hit (f : List (Nat × Nat)) : Bool := f.any fun x => (recOuts r).any fun o => rangesMeet x.1 x.2 o.addr o.len
        { r with poisoned := r.poisoned ++ frs.flatten, undecl := r.undecl + (frs.filter fun f => !(hit f)).length }
  | none => d

/-- The global journal slot of the command whose part core c runs. -/
def coreCmd (d : Dev) (c : Nat) : Option Nat := ((d.core c).cmd).map fun x => slotBase x.1 + x.2

end Sys2Proof.Machine.Dev
end

