-- ==== Sys2Proof/Machine/Memory.lean ====
section
/-!
DEFINITION. The memories: bytes and poison of the hashed space, the pools and host memory (R192, R183, R198 to R202),
ownership checks (R337), the placement of sectors (R194), the two-stage translation (R340 to R343), and an agent's read
or write at a partition virtual address or a pool address.
-/
namespace Sys2Proof.Machine

/-- Why an access is not performed: the causes of Table GL-13 that memory raises, and the two waits of R328 and R239. -/
inductive MFault where
  | translation
  | protection
  | ownership               -- PROTECTION, counted in OWNVIOL: a leaf outside the partition's extents or in its reserve (R342)
  | poison
  | cow (va : Nat)          -- a declared page not yet copied (R328)
  | board (addr : Nat)      -- a board-domain address: the access goes to another device (R239)
  | overlap                 -- a board-domain address whose device is not in the board domain
  deriving DecidableEq, Repr

/-- The kind of an access (R342). -/
inductive Acc where
  | read
  | write
  | atomic
  | fetch
  deriving DecidableEq, Repr

def pageBytes : Nat := 0x200000
def extentBytes : Nat := 0x600000

namespace Dev

/-- The owner of a physical address: partition + 1, or 0 for none (R336). -/
def ownerOf (d : Dev) (pa : Nat) : Nat := tabGet 0 (pa / extentBytes) d.owner

/-- The seed that places an extent: its owner's, or 0 for an unowned extent (R194). -/
def seedOf (d : Dev) (pa : Nat) : Nat :=
  match d.ownerOf pa with
  | 0 => 0
  | p + 1 =>
    match d.rehash with
    | some r => if r.part = p ∧ pa / 24576 < r.row then r.new else d.rd (Reg.HBM_SEED_SEED p)
    | none => d.rd (Reg.HBM_SEED_SEED p)

end Dev

/-- A sector's place (R194). -/
structure Place where
  stack : Nat
  channel : Nat
  pch : Nat
  col : Nat
  bank : Nat
  row : Nat
  deriving DecidableEq, Repr

/-- The hash of R194. -/
def placeOf (seed pa : Nat) : Place :=
  let s := pa / 32
  let q := s / 3
  let g := s % 3
  let x := Nat.xor (bits q 32 8) (seed % 2 ^ 25)
  let f := Nat.xor (Nat.xor (bits x 7 0) (bits x 15 8)) (Nat.xor (bits x 23 16) (bits x 24 24))
  let c := Nat.xor (bits q 7 0) f
  let l := bits q 32 8
  { stack := 3 * bits c 1 0 + (g + x % 3) % 3, channel := bits c 6 2, pch := bits c 7 7,
    col := bits l 4 0, bank := Nat.xor (bits l 10 5) (bits l 16 11), row := bits l 24 11 }

namespace Dev

/-- The stack that holds a physical address. -/
def stackOf (d : Dev) (pa : Nat) : Nat := (placeOf (d.seedOf pa) pa).stack

/-- A stack can be read while it is ready or in self-refresh (R201). -/
def stackUp (d : Dev) (k : Nat) : Bool := d.rd (Reg.HBM_STAT_STATE k) = 2 || d.rd (Reg.HBM_STAT_STATE k) = 3

/-- A sector reads as POISON when it carries poison or its stack cannot be read (R199, R201). -/
def hbmBad (d : Dev) (sector : Nat) : Bool :=
  tabGet false sector d.hbmPoison || !(d.stackUp (d.stackOf (sector * 32)))

/-- The 32-byte sectors that n bytes from a touch. -/
def sectorsOf (a n : Nat) : List Nat := (List.range ((a + n + 31) / 32 - a / 32)).map fun i => a / 32 + i

/-- A read of the hashed space: POISON when any sector carries it. -/
def hbmRead (d : Dev) (pa n : Nat) : Except MFault (List Byte) :=
  if (sectorsOf pa n).any d.hbmBad then .error .poison else .ok (tabGetList 0 pa n d.hbm)

/-- The sectors that n bytes from a cover whole. -/
def wholeSectors (a n : Nat) : List Nat := (sectorsOf a n).filter fun s => a ≤ s * 32 ∧ s * 32 + 32 ≤ a + n

/-- The sectors of a range whose stack cannot be written (R201). -/
def downSectors (d : Dev) (pa n : Nat) : List Nat := (sectorsOf pa n).filter fun s => !(d.stackUp (d.stackOf (s * 32)))

/-- A write of the hashed space; a sector written whole loses its poison, a sector written in part keeps it (R200). What falls on
a stack that cannot be written is discarded and counted (R201). -/
def hbmWrite (pa : Nat) (bs : List Byte) (d : Dev) : Dev :=
  let down := d.downSectors pa bs.length
  let d' := down.foldl (fun d s => d.incSat (Reg.HBM_UECNT_UE (d.stackOf (s * 32))) 1) d
  { d' with
    hbm :=
      if down.isEmpty then tabPutList 0 pa bs d.hbm
      else bs.zipIdx.foldl (fun t (b, i) => if down.contains ((pa + i) / 32) then t else tabPut 0 (pa + i) b t) d.hbm
    hbmPoison := (wholeSectors pa bs.length).foldl
      (fun t s => if down.contains s then t else tabPut false s false t) d.hbmPoison }

/-- Marks every sector that a range touches as poisoned (R180). -/
def hbmPoisonRange (pa n : Nat) (d : Dev) : Dev :=
  { d with hbmPoison := (sectorsOf pa n).foldl (fun t s => tabPut false s true t) d.hbmPoison }

/-- The pool, by die * 2^28 + physical pool address (R182, R183). -/
def poolRead (d : Dev) (k n : Nat) : Except MFault (List Byte) :=
  if (sectorsOf k n).any fun s => tabGet false s d.poolPoison then .error .poison
  else .ok (tabGetList 0 k n d.pool)
def poolWrite (k : Nat) (bs : List Byte) (d : Dev) : Dev :=
  { d with
    pool := tabPutList 0 k bs d.pool
    poolPoison := (wholeSectors k bs.length).foldl (fun t s => tabPut false s false t) d.poolPoison }
def poolPoisonRange (k n : Nat) (d : Dev) : Dev :=
  { d with poolPoison := (sectorsOf k n).foldl (fun t s => tabPut false s true t) d.poolPoison }

/-- Host memory as the part reads it; a read that ends in a completion error is POISON (R459). -/
def hostBad (d : Dev) (a n : Nat) : Bool :=
  (List.range ((a + n + 4095) / 4096 - a / 4096)).any fun i => tabGet false (a / 4096 + i) d.hostPoison
def hostRead (d : Dev) (a n : Nat) : List Byte := tabGetList 0 a n d.host
def hostWrite (a : Nat) (bs : List Byte) (d : Dev) : Dev := { d with host := tabPutList 0 a bs d.host }

/-- The stack-local regions (R192). -/
def locRead (d : Dev) (stack o n : Nat) : List Byte := tabGetList 0 (stack * 2 ^ 28 + o) n d.loc
def locWrite (stack o : Nat) (bs : List Byte) (d : Dev) : Dev :=
  { d with loc := tabPutList 0 (stack * 2 ^ 28 + o) bs d.loc }

/-- Counts an ownership violation of a partition (R337, R342). -/
def ownViol (p : Nat) (d : Dev) : Dev := d.incSat (Reg.PT_SECCNT_OWNVIOL p) 1

/-- The pool key of a pool address of partition p (R182); TRANSLATION when the granule is unmapped or a bit above 28 is set. -/
def poolKey (d : Dev) (p a : Nat) : Except MFault Nat :=
  let die := bits a 28 28
  let idx := bits a 27 21
  let m := tabGet 0 (die * 128 + idx) (d.part p).pool
  if a ≥ 2 ^ 29 ∨ idx > 95 ∨ ¬ bit m 7 then .error .translation
  else .ok (die * 2 ^ 28 + (m % 128) * pageBytes + a % pageBytes)

end Dev

/-- A checked entry of Table PT-3. -/
inductive Entry where
  | bad
  | table (addr : Nat)
  | leaf (tgt base : Nat) (r w x : Bool)
  deriving DecidableEq, Repr

/-- Decodes a translation entry of a stage and a level (R341). -/
def entryOf (stage level e : Nat) : Entry :=
  let addr := bits e 51 12 * 4096
  let size := if level = 1 then 2 ^ 30 else pageBytes
  let tgt := bits e 6 5
  if ¬ bit e 0 ∨ bits e 11 7 ≠ 0 ∨ bits e 63 52 ≠ 0 ∨ tgt = 3 ∨ (stage = 1 ∧ (tgt ≠ 0 ∨ bits e 51 48 ≠ 0)) then .bad
  else if bit e 1 then
    if addr % size ≠ 0 ∨ (tgt = 2 ∧ bits e 51 43 ≠ 0) then .bad
    else .leaf tgt addr (bit e 2) (bit e 3) (bit e 4)
  else if level = 2 ∨ bits e 6 2 ≠ 0 then .bad
  else .table addr

namespace Dev

/-- Reads an 8-byte table entry in HBM. -/
def entryAt (d : Dev) (pa : Nat) : Except MFault Nat := (d.hbmRead pa 8).map leNat

/-- Stage 2 (R340): the leaf that maps an intermediate address. The value is a 2 MiB piece. -/
def walk2 (d : Dev) (p ipa : Nat) : Except MFault Leaf :=
  let root := (d.part p).s2base
  let l1 := min (bits root 4 0) 18
  let base := bits root 51 12 * 4096
  if ipa / 2 ^ 30 ≥ 2 ^ l1 then .error .translation
  else
    let a1 := base + 8 * (ipa / 2 ^ 30)
    let keep (a : Nat) (e : Nat) : Nat :=
      match (d.part p).shadows.find? fun s => s.leafAddr = a with
      | some s => s.leaf
      | none => e
    match d.entryAt a1 with
    | .error f => .error f
    | .ok e1 =>
      match entryOf 2 1 e1 with
      | .bad => .error .translation
      | .leaf t b r w x => .ok ⟨t, b + ipa % 2 ^ 30 / pageBytes * pageBytes, r, w, x, a1, true⟩
      | .table tb =>
        let a2 := tb + 8 * bits ipa 29 21
        match d.entryAt a2 with
        | .error f => .error f
        | .ok e2 =>
          match entryOf 2 2 (keep a2 e2) with
          | .leaf t b r w x => .ok ⟨t, b, r, w, x, a2, false⟩
          | _ => .error .translation

/-- A stage-2 HBM leaf must lie inside the partition's extents and outside the free reserve (R342). -/
def leafOwned (d : Dev) (p : Nat) (l : Leaf) : Bool :=
  l.tgt ≠ 0 || (d.ownerOf l.base = p + 1 && tabGet 0 (l.base / pageBytes) d.rsv = 0)

/-- The walker's read of a stage-1 entry at an intermediate address, through stage 2 (R340, R342). -/
def entry1At (d : Dev) (p ipa : Nat) : Except MFault Nat :=
  match d.walk2 p ipa with
  | .error f => .error f
  | .ok l =>
    if ¬ d.leafOwned p l then .error .ownership
    else if ¬ l.r then .error .protection
    else
      match l.tgt with
      | 0 => d.entryAt (l.base + ipa % pageBytes)
      | 1 => .ok (leNat (d.hostRead (l.base + ipa % pageBytes) 8))
      | _ => .error (.board (l.base + ipa % pageBytes))

/-- Stage 1 (R340): the intermediate address of the 2 MiB piece that holds a virtual address, with its grants. -/
def walk1 (d : Dev) (p va : Nat) : Except MFault (Nat × Bool × Bool × Bool) :=
  let root := (d.part p).s1base
  let l1 := min (bits root 4 0) 18
  let base := bits root 47 12 * 4096
  if va / 2 ^ 30 ≥ 2 ^ l1 then .error .translation
  else
    match d.entry1At p (base + 8 * (va / 2 ^ 30)) with
    | .error f => .error f
    | .ok e1 =>
      match entryOf 1 1 e1 with
      | .bad => .error .translation
      | .leaf _ b r w x => .ok (b + va % 2 ^ 30 / pageBytes * pageBytes, r, w, x)
      | .table tb =>
        match d.entry1At p (tb + 8 * bits va 29 21) with
        | .error f => .error f
        | .ok e2 =>
          match entryOf 1 2 e2 with
          | .leaf _ b r w x => .ok (b, r, w, x)
          | _ => .error .translation

/-- Both stages (R340): the 2 MiB piece that holds a virtual address, with the grants of both leaves (R342). -/
def walk (d : Dev) (p va : Nat) : Except MFault Leaf :=
  match d.walk1 p va with
  | .error f => .error f
  | .ok (ipa, r, w, x) =>
    match d.walk2 p ipa with
    | .error f => .error f
    | .ok l =>
      if ¬ d.leafOwned p l then .error .ownership
      else .ok { l with r := l.r && r, w := l.w && w, x := l.x && x }

/-- The walk with the agents' cached translations (R343): an access through an entry that has changed since it was cached uses
the old entry or the new one, and a free value says which. -/
def xlate (p va : Nat) (d : Dev) : Except MFault Leaf × Dev :=
  let w := d.walk p va
  let pt := d.part p
  let old := tabGet Leaf.reset (va / pageBytes) pt.tlb
  if old = Leaf.reset then
    match w with
    | .ok l => (w, d.setPart p { pt with tlb := tabPut Leaf.reset (va / pageBytes) l pt.tlb })
    | .error _ => (w, d)
  else if w = .ok old then (w, d)
  else
    let (k, d) := d.fresh
    if k % 2 = 0 then (.ok old, d) else (w, d)

def granted (l : Leaf) : Acc → Bool
  | .read => l.r
  | .write => l.w
  | .atomic => l.r && l.w
  | .fetch => l.x

/-- The command whose shadow pages an access of core c reaches (R328): its journal slot. -/
def cmdSlot (d : Dev) (c : Nat) : Option Nat := ((d.core c).cmd).map Prod.snd

/-- Where an access lands: HBM, host memory, or the board domain. -/
inductive Phys where
  | hbm (pa : Nat)
  | host (a : Nat)
  | board (a : Nat)
  deriving DecidableEq, Repr

/-- One 2 MiB piece of an access resolved: translated, checked, and redirected to a shadow page of the command (R328). -/
def resolve (p : Nat) (slot : Option Nat) (acc : Acc) (va : Nat) (d : Dev) : Except MFault Phys × Dev :=
  let (w, d) := d.xlate p va
  match w with
  | .error .ownership => (.error .protection, d.ownViol p)
  | .error f => (.error f, d)
  | .ok l =>
    if ¬ granted l acc then (.error .protection, d)
    else
      let off := va % pageBytes
      match l.tgt with
      | 1 => (.ok (.host (l.base + off)), d)
      | 2 => (.ok (.board (l.base + off)), d)
      | _ =>
        match (d.part p).shadows.find? fun s => s.va = va / pageBytes ∧ some s.slot = slot with
        | some s =>
          if s.copied then (.ok (.hbm (s.shadow * pageBytes + off)), d)
          else if acc = .write ∨ acc = .atomic then (.error (.cow (va / pageBytes)), d)
          else (.ok (.hbm (l.base + off)), d)
        | none => (.ok (.hbm (l.base + off)), d)

/-- Splits n bytes from va at the 2 MiB pages. -/
def pieces (va n : Nat) : List (Nat × Nat) :=
  (List.range ((va + n + pageBytes - 1) / pageBytes - va / pageBytes)).map fun i =>
    let lo := max va ((va / pageBytes + i) * pageBytes)
    (lo, min (va + n) ((va / pageBytes + i + 1) * pageBytes) - lo)

/-- Whether the host answers a partition's requests: Bus Master Enable and VF Enable are set (R458). -/
def hostOpen (d : Dev) (p : Nat) : Bool := (d.part p).bme && (d.part p).vfOn

/-- Whether an access waits for the host (R458): a piece of it lies on the host, which takes no request of the partition. -/
def hostHeld (d : Dev) (p va n : Nat) : Bool :=
  !(d.hostOpen p) && (pieces va n).any fun x =>
    match d.walk p x.1 with
    | .ok l => decide (l.tgt = 1)
    | .error _ => false

/-- Whether a resolved access has a piece on the host while the host takes no request (R458). -/
def hostWaits (d : Dev) (p : Nat) (l : List (Phys × Nat)) : Bool :=
  !(d.hostOpen p) && l.any fun x => match x.1 with | .host _ => true | _ => false

/-- Resolves every piece of an access before any is performed; the first failing piece gives the fault and its address. -/
def resolveAll (p : Nat) (slot : Option Nat) (acc : Acc) : List (Nat × Nat) → Dev →
    Except (MFault × Nat) (List (Phys × Nat)) × Dev
  | [], d => (.ok [], d)
  | (a, n) :: r, d =>
    match d.resolve p slot acc a with
    | (.error f, d) => (.error (f, a), d)
    | (.ok ph, d) =>
      match resolveAll p slot acc r d with
      | (.error f, d) => (.error f, d)
      | (.ok l, d) => (.ok ((ph, n) :: l), d)

/-- Reads resolved pieces. -/
def physRead (d : Dev) : List (Phys × Nat) → Except MFault (List Byte)
  | [] => .ok []
  | (ph, n) :: r =>
    let one : Except MFault (List Byte) :=
      match ph with
      | .hbm pa => d.hbmRead pa n
      | .host a => if d.hostBad a n then .error .poison else .ok (d.hostRead a n)
      | .board a => .error (.board a)
    match one with
    | .error f => .error f
    | .ok b => (physRead d r).map fun x => b ++ x

/-- A host read that has returned POISON is over: the next read of its pages asks the host again (R458). -/
def hostSpend (l : List (Phys × Nat)) (d : Dev) : Dev :=
  l.foldl (fun d x =>
    match x.1 with
    | .host a => { d with hostPoison := tabClear (a / 4096) ((a + x.2 + 4095) / 4096 - a / 4096) d.hostPoison }
    | _ => d) d

/-- A partition's write to the hashed space while it is quiet is discarded and counted; so is one to host memory (R202, Table FT-1). -/
def partWrite (p : Nat) (ph : Phys) (bs : List Byte) (d : Dev) : Dev :=
  match ph with
  | .hbm pa => if d.isQuiet p then d.incSat (Reg.HBM_UECNT_QDROP (d.stackOf pa)) 1 else d.hbmWrite pa bs
  | .host a => if d.isQuiet p then d else d.hostWrite a bs
  | .board _ => d

/-- Counts the sectors that a demand access is served from (R196). -/
def serve (pa n : Nat) (d : Dev) : Dev :=
  { d with
    hot := (sectorsOf pa n).foldl (fun t s =>
      let pl := placeOf (d.seedOf (s * 32)) (s * 32)
      let k := pl.stack * 64 + 32 * pl.pch + pl.channel
      tabPut 0 k (tabGet 0 k t + 1) t) d.hot }

/-- A sector written whole holds data again (R200). -/
def unpoison (s : Nat) (d : Dev) : Dev := { d with hbmPoison := tabPut false s false d.hbmPoison }

/-- The read-modify-write of a partial entry (R204): its sector is poisoned when the read is uncorrectable or poisoned. -/
def mergeRmw (e : MergeEnt) (ue : Bool) (d : Dev) : Dev :=
  let pl := placeOf (d.seedOf (e.sector * 32)) (e.sector * 32)
  let d := d.incSat (Reg.HBM_REFCNT_MRMW pl.stack) 1
  if ue ∨ d.hbmBad e.sector then
    (d.hbmPoisonRange (e.sector * 32) 1).err (20 + pl.stack)
      { cls := 0x05, part := e.part, unit := 32 * pl.pch + pl.channel, info := e.req, addr := e.sector * 32 }
  else d

/-- Retires a merge buffer entry (R204). -/
def mergeRetire (e : MergeEnt) (ue : Bool) (d : Dev) : Dev :=
  let d : Dev := { d with merge := d.merge.filter fun x => x.sector ≠ e.sector }
  if e.mask = 0xFFFFFFFF then d.unpoison e.sector else d.mergeRmw e ue

/-- Retires the merge entry of a sector, if it has one, before an access that needs the sector (R204). -/
def mergeFlush (s : Nat) (d : Dev) : Dev :=
  match d.merge.find? fun x => x.sector = s with
  | some e => d.mergeRetire e false
  | none => d

/-- Before a write: the entries of the sectors that it covers whole retire (R204). -/
def mergeWhole (pa n : Nat) (d : Dev) : Dev := (wholeSectors pa n).foldl (fun d s => d.mergeFlush s) d

/-- The controllers' part of a read: the entries of its sectors retire first, and each sector is counted (R196, R204). -/
def readTouch (l : List (Phys × Nat)) (d : Dev) : Dev :=
  l.foldl (fun d x =>
    match x.1 with
    | .hbm pa => ((sectorsOf pa x.2).foldl (fun d s => d.mergeFlush s) d).serve pa x.2
    | _ => d) d

/-- Counts the reads that met a poisoned sector (R199). -/
def poisonHit (l : List (Phys × Nat)) (d : Dev) : Dev :=
  l.foldl (fun d x =>
    match x.1 with
    | .hbm pa => (sectorsOf pa x.2).foldl (fun d s =>
        if tabGet false s d.hbmPoison then d.incSat (Reg.HBM_UECNT_PRD (d.stackOf (s * 32))) 1 else d) d
    | _ => d) d

/-- The merge buffer's part of a write that is stored (R204): a partly covered sector merges or takes an entry, the oldest of a full
channel retiring first; an entry whose mask becomes full retires. -/
def mergeNote (req : Nat) (p : Option Nat) (pa n : Nat) (d : Dev) : Dev :=
  (sectorsOf pa n).foldl (fun d s =>
    let lo := max pa (s * 32) - s * 32
    let hi := min (pa + n) (s * 32 + 32) - s * 32
    let m := 2 ^ hi - 2 ^ lo
    if m = 2 ^ 32 - 1 ∨ ¬ d.stackUp (d.stackOf (s * 32)) then d
    else
    match d.merge.find? fun x => x.sector = s with
    | some e =>
      let e' : MergeEnt := { e with mask := Nat.lor e.mask m, req := req, part := p }
      if e'.mask = 2 ^ 32 - 1 then d.mergeRetire e' false
      else { d with merge := d.merge.map fun x => if x.sector = s then e' else x }
    | none =>
      let chan (x : Nat) : Nat := let pl := placeOf (d.seedOf (x * 32)) (x * 32); pl.stack * 32 + pl.channel
      let same := d.merge.filter fun x => chan x.sector = chan s
      let d := match same with
        | e :: _ => if 64 ≤ same.length then d.mergeRetire e false else d
        | [] => d
      { d with merge := d.merge ++ [⟨s, m, req, p⟩] }) d

/-- Writes resolved pieces. -/
def physWrite (p : Nat) : List (Phys × Nat) → List Byte → Dev → Dev
  | [], _, d => d
  | (ph, n) :: r, bs, d => physWrite p r (bs.drop n) (d.partWrite p ph (bs.take n))

/-- An agent's read at a partition virtual address (R340, R342). -/
def vaRead (p : Nat) (slot : Option Nat) (va n : Nat) (d : Dev) : Except (MFault × Nat) (List Byte) × Dev :=
  match d.resolveAll p slot .read (pieces va n) with
  | (.error f, d) => (.error f, d)
  | (.ok l, d) =>
    match d.physRead l with
    | .error f => (.error (f, va), (d.poisonHit l).hostSpend l)
    | .ok b => (.ok b, d)

/-- An agent's write at a partition virtual address. -/
def vaWrite (p : Nat) (slot : Option Nat) (va : Nat) (bs : List Byte) (d : Dev) : Except (MFault × Nat) Unit × Dev :=
  match d.resolveAll p slot .write (pieces va bs.length) with
  | (.error f, d) => (.error f, d)
  | (.ok l, d) =>
    match l.find? fun x => match x.1 with | .board _ => true | _ => false with
    | some (.board a, _) => (.error (.board a, va), d)
    | _ => (.ok (), d.physWrite p l bs)

/-- A partition virtual range marked poisoned where it lies in HBM (R180, R276). -/
def vaPoison (p : Nat) (slot : Option Nat) (va n : Nat) (d : Dev) : Dev :=
  match d.resolveAll p slot .write (pieces va n) with
  | (.error _, d) => d
  | (.ok l, d) => l.foldl (fun d x => match x.1 with | .hbm pa => d.hbmPoisonRange pa x.2 | _ => d) d

end Dev
end Sys2Proof.Machine
end

