-- ==== Sys2Proof/Machine/Operands.lean ====
section
/-!
DEFINITION. The instruction word (R47, R48): its fields, the operand layouts of Tables GL-4 to GL-10 with the bits each
opcode may use, the words the scalar commands stand for, and the resolution of a station operand (R33 to R35).
-/
namespace Sys2Proof.Machine

/-- The guard of an instruction (R49): the complement bit PN and the predicate register PR. -/
structure Guard where
  pn : Bool
  pr : BitVec 3
  deriving DecidableEq, Repr

/-- Fields of an instruction word (Table GL-1). -/
def wEng (w : Word) : Nat := bits w.toNat 63 62
def wLong (w : Word) : Bool := bit w.toNat 61
def wOp (w : Word) : Nat := bits w.toNat 60 53
def wPn (w : Word) : Bool := bit w.toNat 52
def wPr (w : Word) : Nat := bits w.toNat 51 49
/-- Operand bits hi:lo of an instruction word. -/
def wF (w : Word) (hi lo : Nat) : Nat := bits w.toNat hi lo

/-- A word from its fields (Table GL-1); `opnds` holds operand bits [48:0]. -/
def mkWord (eng : Nat) (long : Bool) (op : Nat) (g : Guard) (opnds : Nat) : Word :=
  BitVec.ofNat 64 (eng % 4 * 2 ^ 62 + b2n long * 2 ^ 61 + op % 256 * 2 ^ 53 + b2n g.pn * 2 ^ 52
    + g.pr.toNat * 2 ^ 49 + opnds % 2 ^ 49)

/-- The operand formats of Table GL-4 put together. -/
def opSR (rd ra rb : BitVec 5) : Nat := rd.toNat * 2 ^ 44 + ra.toNat * 2 ^ 39 + rb.toNat * 2 ^ 34
def opSI (rd ra : BitVec 5) (imm : BitVec 39) : Nat := rd.toNat * 2 ^ 44 + ra.toNat * 2 ^ 39 + imm.toNat
def opSM (rd ra : BitVec 5) (spc : BitVec 2) (imm : BitVec 37) : Nat :=
  rd.toNat * 2 ^ 44 + ra.toNat * 2 ^ 39 + spc.toNat * 2 ^ 37 + imm.toNat
def opSB (rd ra : BitVec 5) (off : BitVec 39) : Nat := rd.toNat * 2 ^ 44 + ra.toNat * 2 ^ 39 + off.toNat

/-- The second operand of format SC (R56): a register, or an immediate. -/
inductive RegImm where
  | reg (rb : BitVec 5)
  | imm (i : BitVec 39)
  deriving DecidableEq, Repr

def opSC (pd : BitVec 3) (ra : BitVec 5) : RegImm → Nat
  | .reg rb => pd.toNat * 2 ^ 46 + ra.toNat * 2 ^ 39 + rb.toNat * 2 ^ 34
  | .imm i => pd.toNat * 2 ^ 46 + 2 ^ 45 + ra.toNat * 2 ^ 39 + i.toNat

/-- The count of format SL (R58): a register, or an immediate count. -/
inductive LoopCnt where
  | reg (ra : BitVec 5)
  | imm (cnt : BitVec 16)
  deriving DecidableEq, Repr

def opSL (lc : BitVec 2) (n : LoopCnt) (e : BitVec 25) : Nat :=
  match n with
  | .reg ra => lc.toNat * 2 ^ 47 + ra.toNat * 2 ^ 41 + e.toNat
  | .imm c => lc.toNat * 2 ^ 47 + 2 ^ 46 + c.toNat * 2 ^ 25 + e.toNat

/-- The value of setm (R56): a register, or an immediate. -/
inductive SetmVal where
  | reg (ra : BitVec 5)
  | imm (i : BitVec 35)
  deriving DecidableEq, Repr

def opSETM (e : BitVec 2) (fld : BitVec 6) : SetmVal → Nat
  | .reg ra => e.toNat * 2 ^ 47 + fld.toNat * 2 ^ 41 + ra.toNat * 2 ^ 35
  | .imm i => e.toNat * 2 ^ 47 + fld.toNat * 2 ^ 41 + 2 ^ 40 + i.toNat

/-- The fields of a synchronisation instruction (Table GL-10). -/
structure SyF where
  flag : BitVec 8
  sop : BitVec 3
  ra : BitVec 5
  rem : Bool
  rb : BitVec 5
  deriving DecidableEq, Repr

def opSY (f : SyF) : Nat :=
  f.flag.toNat * 2 ^ 41 + f.sop.toNat * 2 ^ 38 + f.ra.toNat * 2 ^ 33 + b2n f.rem * 2 ^ 32 + f.rb.toNat * 2 ^ 27

/-- The mask of a list of bit ranges. -/
def maskOf : List (Nat × Nat) → Nat
  | [] => 0
  | (hi, lo) :: r => (2 ^ (hi + 1) - 2 ^ lo) + maskOf r

/-- The operand bits a listed opcode may have nonzero (R48, R56, R59 to R62); none for an opcode not listed for its engine. The
layouts that an I or IC bit selects (R56) depend on the word. -/
def usedBits (eng op : Nat) (w : Word) : Option (List (Nat × Nat)) :=
  let v3 : List (Nat × Nat) := [(48, 44), (43, 39), (38, 34), (33, 32), (31, 27), (26, 26)]
  let setm : List (Nat × Nat) :=
    if wF w 40 40 = 1 then [(48, 47), (46, 41), (40, 40), (34, 0)] else [(48, 47), (46, 41), (39, 35)]
  if op = 0x00 then some []
  else if op = 0x50 then some setm
  else if op = 0x70 ∨ op = 0x71 ∨ op = 0x72 ∨ op = 0x73 then
    some [(48, 41), (40, 38), (37, 33), (32, 32), (31, 27)]
  else
    match eng with
    | 0 =>
      if 0x01 ≤ op ∧ op ≤ 0x0B then some [(48, 44), (43, 39), (38, 34)]
      else if op = 0x11 ∨ (0x13 ≤ op ∧ op ≤ 0x1B) then some [(48, 44), (43, 39), (38, 0)]
      else if op = 0x20 then (if wLong w then some [(48, 44)] else some [(48, 44), (38, 0)])
      else if op = 0x21 then some [(48, 44), (43, 39)]
      else if 0x28 ≤ op ∧ op ≤ 0x2D then
        (if wF w 45 45 = 1 then some [(48, 46), (45, 45), (43, 39), (38, 0)]
         else some [(48, 46), (43, 39), (38, 34)])
      else if op = 0x2E then some [(48, 46), (45, 43), (42, 40), (39, 38)]
      else if op = 0x30 ∨ op = 0x31 then some [(48, 0)]
      else if op = 0x40 then some [(38, 0)]
      else if op = 0x41 then some [(48, 44), (38, 0)]
      else if op = 0x42 then some [(43, 39)]
      else if op = 0x43 then some [(48, 44), (43, 39)]
      else if op = 0x48 then
        (if wF w 46 46 = 1 then some [(48, 47), (46, 46), (40, 25), (24, 0)] else some [(48, 47), (45, 41), (24, 0)])
      else if op = 0x49 then some [(48, 44), (43, 42)]
      else if op = 0x4A then some [(48, 47), (46, 42)]
      else if op = 0x51 then some [(48, 44), (43, 42), (41, 36)]
      else if op = 0x58 then some [(47, 45), (44, 42), (41, 41)]
      else if op = 0x59 then some [(48, 44), (43, 42), (41, 39)]
      else if op = 0x5A then some []
      else if op = 0x5B then some [(15, 0)]
      else if op = 0x60 then some [(48, 43), (42, 38)]
      else if op = 0x61 then some [(48, 44), (43, 38)]
      else if op = 0x74 then some [(48, 44), (43, 38)]
      else if op = 0x75 then some [(48, 43)]
      else if op = 0x76 ∨ op = 0x77 then some [(48, 44)]
      else none
    | 1 =>
      if op = 0x01 then some [(48, 16)]
      else if op = 0x02 then some [(48, 43), (36, 33), (32, 28), (18, 17)]
      else if op = 0x03 then some [(48, 43), (36, 33), (32, 28)]
      else if op = 0x04 then some [(48, 43), (42, 37), (32, 28)]
      else none
    | 2 =>
      if 0x01 ≤ op ∧ op ≤ 0x0B then some v3
      else if op = 0x10 then some (v3 ++ [(25, 23)])
      else if op = 0x11 then some [(48, 44), (43, 39), (38, 34), (31, 27), (26, 26)]
      else if op = 0x12 then some [(48, 44), (43, 39), (31, 27), (26, 26)]
      else if op = 0x18 then some [(48, 44), (43, 39), (31, 27), (26, 26), (22, 18), (17, 13)]
      else if op = 0x20 ∨ op = 0x21 then some [(48, 44), (43, 39), (38, 20), (19, 15), (14, 14), (13, 12)]
      else if op = 0x22 ∨ op = 0x23 then some [(48, 5)]
      else if op = 0x28 ∨ op = 0x29 then some [(48, 44), (43, 38), (37, 32), (31, 27), (26, 22), (21, 21)]
      else if op = 0x2A then some [(43, 38)]
      else if op = 0x2B then some [(43, 38), (31, 27)]
      else if op = 0x30 ∨ op = 0x31 then some [(48, 44), (43, 39), (33, 32), (31, 27), (26, 26)]
      else if op = 0x40 then some [(48, 44), (43, 39), (38, 34), (33, 26), (25, 21), (20, 20)]
      else if op = 0x41 then some [(48, 43), (42, 37), (36, 29), (28, 24)]
      else none
    | _ =>
      if op = 0x01 then some [(48, 44), (38, 0)]
      else if op = 0x02 then some [(48, 44), (43, 36), (35, 0)]
      else if op = 0x08 ∨ op = 0x09 then some [(48, 43), (42, 38), (37, 33), (32, 31), (30, 30)]
      else none

/-- The four opcodes that have a long form (R48). -/
def longForm (eng op : Nat) : Bool :=
  (eng = 0 && op = 0x20) || (eng = 1 && op = 0x01) || (eng = 3 && (op = 0x08 || op = 0x09))

/-- Whether a word, with its extension, is well formed; a malformed one raises ILLEGAL at decode (R48). -/
def legalWord (w ext : Word) : Bool :=
  match usedBits (wEng w) (wOp w) w with
  | none => false
  | some rs =>
    Nat.land (w.toNat % 2 ^ 49) (maskOf rs) = w.toNat % 2 ^ 49
      && (!(wLong w) || longForm (wEng w) (wOp w))
      && !(wLong w && wEng w = 1 && decide (bits ext.toNat 63 24 ≠ 0))

/-- The scalar registers that an engine instruction names as RA and RB (R53): where its format places them. -/
def namesRa (eng op : Nat) (w : Word) : Nat :=
  if 0x70 ≤ op ∧ op ≤ 0x73 then wF w 37 33
  else if op = 0x50 then wF w 39 35
  else if eng = 2 then wF w 43 39
  else if op = 0x01 ∨ op = 0x02 then wF w 48 44
  else wF w 42 38
def namesRb (w : Word) : Nat := wF w 31 27

/-- Ports: the engine that owns a port and whether it is a consumer (Table TS-2). -/
def portEng (st : Nat) : Nat := if st ≤ 3 then 1 else if st ≤ 7 then 2 else 3
def portConsumes (st : Nat) : Bool := st ≤ 2 || st = 4 || st = 5 || st = 7 || (12 ≤ st && st ≤ 15)

/-- The station causes of Table TS-4. -/
inductive StCause where
  | disabled
  | ambiguous
  | direction
  | tileSize
  deriving DecidableEq, Repr

def StCause.code : StCause → Nat
  | .disabled => 1
  | .ambiguous => 2
  | .direction => 3
  | .tileSize => 4

namespace Dev

def fifoOn (d : Dev) (c n : Nat) : Bool := d.flag (Reg.ST_CFG_EN c n)
def fifoProd (d : Dev) (c n : Nat) : Nat := d.rd (Reg.ST_CFG_PROD c n)
def fifoCons (d : Dev) (c n : Nat) : Nat := d.rd (Reg.ST_CFG_CONS c n)
def fifoCap (d : Dev) (c n : Nat) : Nat := d.rd (Reg.ST_CFG_CAP c n)
def fifoSlot (d : Dev) (c n : Nat) : Nat := d.rd (Reg.ST_CFG_SLOT c n)
def fifoBase (d : Dev) (c n : Nat) : Nat := d.rd (Reg.ST_CFG_BASE c n)

/-- Resolves a tile operand to one enabled FIFO (R35). `ok` says which consumer or producer ports the instruction may use. -/
def resolveSt (d : Dev) (c : Nat) (pop : Bool) (ok : Nat → Bool) (st : Nat) : Except StCause Nat :=
  let fits (n : Nat) : Bool := ok (if pop then d.fifoCons c n else d.fifoProd c n)
  if 16 ≤ st then
    if ¬ d.fifoOn c st then .error .disabled
    else if fits st then .ok st else .error .direction
  else if portConsumes st ≠ pop ∨ ¬ ok st then .error .direction
  else
    let named := (List.range 48).map (· + 16) |>.filter fun n =>
      d.fifoOn c n && (if pop then d.fifoCons c n else d.fifoProd c n) = st
    match named with
    | [] => .error .disabled
    | [n] => .ok n
    | _ => .error .ambiguous

end Dev
end Sys2Proof.Machine
end

