-- ==== Sys2Proof/Machine/Trace.lean ====
section
/-!
DEFINITION. The command trace (R437, R438): the records of Table DB-3, the buffer of each I/O die, and the region they are
written to.
-/
namespace Sys2Proof.Machine

/-- Trace events (Table DB-4). -/
def teCMD_BEGIN : Nat := 0x01
def teCMD_END : Nat := 0x02
def teENG_BEGIN : Nat := 0x03
def teENG_END : Nat := 0x04
def teFAULT : Nat := 0x05
def teSTOP : Nat := 0x06
def teRESUME : Nat := 0x07
def teREPLAY : Nat := 0x08
def teRETIRE : Nat := 0x09
def teDUMP : Nat := 0x0A
def teMARK : Nat := 0x0B
def teLOST : Nat := 0x0C
def teRESTART : Nat := 0x0D

/-- A trace record (Table DB-3). -/
def traceBytes (now evt src lcore : Nat) (r : JRec) (data : Nat) : List Byte :=
  leBytes 8 now ++ leBytes 1 evt ++ leBytes 1 src ++ leBytes 1 lcore ++ leBytes 1 r.replays ++ leBytes 4 r.jseq
    ++ leBytes 1 r.ring ++ leBytes 7 0 ++ leBytes 8 data

namespace Dev

/-- Records that the trace region holds. -/
def trcCap (d : Dev) (p : Nat) : Nat := d.rd (Reg.TRC_REGION_PAGES p) * 65536

/-- Whether every page of a trace region lies in the partition's extents and outside its reserve (R437). -/
def trcOk (d : Dev) (p base pages : Nat) : Bool :=
  (List.range pages).all fun i =>
    d.ownerOf ((base + i) * pageBytes) = p + 1 && tabGet 0 (base + i) d.rsv = 0

/-- Whether a record can be written: writes are open, and a region that stops at HEAD has space (R437). -/
def trcRoom (d : Dev) (p : Nat) : Bool :=
  !(d.isQuiet p) && d.trcCap p ≠ 0 &&
    (d.flag (Reg.TRC_REGION_WRAP p) || (d.rd (Reg.PD_TRC_TAIL p) + 1) % d.trcCap p ≠ d.rd (Reg.PD_TRC_HEAD p))

/-- Writes one record at TAIL. -/
def trcPut (p : Nat) (b : List Byte) (d : Dev) : Dev :=
  let t := d.rd (Reg.PD_TRC_TAIL p)
  (d.hbmWrite (d.rd (Reg.TRC_REGION_BASE p) * pageBytes + 32 * t) b).wr (Reg.PD_TRC_TAIL p) ((t + 1) % d.trcCap p)

/-- Writes buffered records while there is room; a LOST record goes first after drops (R437). -/
def trcFlush : Nat → Nat → Dev → Dev
  | 0, _, d => d
  | n + 1, p, d =>
    let x := d.part p
    if ¬ d.trcRoom p then d
    else
      match x.trcBuf with
      | b :: r => trcFlush n p ((d.setPart p { x with trcBuf := r }).trcPut p b.2)
      | [] =>
        if x.trcLost = 0 ∨ ¬ d.flag (Reg.TRC_REGION_EN p) then d
        else (d.setPart p { x with trcLost := 0 }).trcPut p (traceBytes d.now teLOST 4 0xFF JRec.reset x.trcLost)

/-- A trace record of partition p (R437): buffered on an I/O die and written as soon as there is room, or dropped. -/
def trace (p die evt src lcore : Nat) (r : JRec) (data : Nat) (d : Dev) : Dev :=
  if ¬ d.flag (Reg.TRC_REGION_EN p) ∨ ¬ bit (d.rd Reg.PWR_DOMSTAT_ON) 24 then d
  else
    let x := d.part p
    let used := ((List.range 8).map fun q => ((d.part q).trcBuf.filter fun b => b.1 = die).length).sum
    if d.isQuiet p ∨ 4096 ≤ used then d.setPart p { x with trcLost := x.trcLost + 1 }
    else
      let lost := if x.trcLost = 0 then [] else [(0, traceBytes d.now teLOST 4 0xFF JRec.reset x.trcLost)]
      let y := { x with trcBuf := x.trcBuf ++ lost ++ [(die, traceBytes d.now evt src lcore r data)], trcLost := 0 }
      trcFlush (y.trcBuf.length + 1) p (d.setPart p y)

/-- A record of the intake. -/
def traceCmd (p evt : Nat) (r : JRec) (data : Nat) (d : Dev) : Dev := d.trace p 0 evt 4 0xFF r data

/-- A record of engine e of core c, for the command whose part the core runs. -/
def traceEng (c e evt data : Nat) (d : Dev) : Dev :=
  match d.coreOwner c with
  | none => d
  | some p =>
    let r := match d.coreCmd c with
      | some g => d.jr g
      | none => JRec.reset
    d.trace p (c / 72) evt e (d.localNo p c) r data

/-- ENG_BEGIN: the engine takes its first instruction of the attempt. -/
def traceTake (c e : Nat) (a : BitVec 48) (d : Dev) : Dev :=
  if (d.eng c e).took then d
  else (d.updEng c e fun g => { g with took := true }).traceEng c e teENG_BEGIN a.toNat

end Dev
end Sys2Proof.Machine
end

