-- ==== Sys2Proof/Machine/Except.lean ====
section
/-!
DEFINITION. How a core completes an instruction, faults, traps, stops and resumes (R57, R58, R64 to R75): retiring a
scalar instruction with its delay slot and loop-end handling, the exception records, the trap entry and return, and the
readiness of the sequencer and of an engine to take their next step.
-/
namespace Sys2Proof.Machine

/-- What a fault puts into its record (R64). -/
structure FArgs where
  cause : Nat
  sub : Nat := 0
  station : Nat := 0
  addr : Nat := 0
  aspace : Nat := 0
  pvalid : Bool := false
  prog : Nat := 0
  mode : Option Nat := none     -- EXR_MODE where it differs from the fields now in effect (R138)
  deriving DecidableEq, Repr

/-- Cause codes (Table GL-13). -/
def cILLEGAL : Nat := 0x01
def cOPERAND : Nat := 0x02
def cALIGN : Nat := 0x03
def cTRANSLATION : Nat := 0x04
def cPROTECTION : Nat := 0x05
def cPOISON : Nat := 0x06
def cSTATION : Nat := 0x07
def cLOOPFORM : Nat := 0x08
def cLOOPDEPTH : Nat := 0x09
def cTRAP : Nat := 0x0A
def cWATCHDOG : Nat := 0x0B
def cFABRIC : Nat := 0x0C
def cDOUBLE : Nat := 0x0D

/-- The cause a memory fault raises. -/
def MFault.cause : MFault → Nat
  | .translation => cTRANSLATION
  | .protection => cPROTECTION
  | .ownership => cPROTECTION
  | .poison => cPOISON
  | _ => cTRANSLATION

/-- Mode fields in effect, at the bits of Table GL-12 (EXR_MODE). -/
def modeBits (x : Core) : Nat → Nat
  | 0 => b2n x.fdisp
  | e =>
    let g := x.eng e
    b2n g.rnd + 2 * b2n g.e4m3nan + (if e = 2 then 4 * b2n g.compat + 2 ^ 8 * g.vstart else 0)

namespace Dev

def valid (d : Dev) (c e : Nat) : Bool := d.flag (Reg.EXR_CAUSE_VALID c e)
def inTrap (d : Dev) (c : Nat) : Bool := d.flag (Reg.SQ_TRAP_INTRAP c)
def anyValid (d : Dev) (c : Nat) : Bool := (List.range 4).any (d.valid c)
/-- PEND follows the VALID bits (R65). -/
def setValid (c e : Nat) (v : Bool) (d : Dev) : Dev :=
  (d.wr (Reg.EXR_CAUSE_VALID c e) (b2n v)).wr (Reg.SQ_TRAP_PEND c) (setBit (d.rd (Reg.SQ_TRAP_PEND c)) e v)

/-- An EXR_CAUSE's value (R64). -/
def exrCause (d : Dev) (c e : Nat) : Nat :=
  d.rd (Reg.EXR_CAUSE_VALID c e) + d.rd (Reg.EXR_CAUSE_CAUSE c e) * 2 ^ 8 + d.rd (Reg.EXR_CAUSE_SUB c e) * 2 ^ 16
    + d.rd (Reg.EXR_CAUSE_DS c e) * 2 ^ 20 + d.rd (Reg.EXR_CAUSE_LEND c e) * 2 ^ 21 + d.rd (Reg.EXR_CAUSE_LDEPTH c e) * 2 ^ 22
    + d.rd (Reg.EXR_CAUSE_STATION c e) * 2 ^ 32 + d.rd (Reg.EXR_CAUSE_PVALID c e) * 2 ^ 40 + d.rd (Reg.EXR_CAUSE_ASPACE c e) * 2 ^ 42

/-- Fills an exception record (R64). -/
def fillRec (c e : Nat) (pc : BitVec 48) (w ext : Word) (ds lend : Bool) (a : FArgs) (d : Dev) : Dev :=
  let x := d.core c
  let d := (((d.wr (Reg.EXR_CAUSE_CAUSE c e) a.cause).wr (Reg.EXR_CAUSE_SUB c e) a.sub).wr (Reg.EXR_CAUSE_DS c e) (b2n ds))
  let d := ((d.wr (Reg.EXR_CAUSE_LEND c e) (b2n lend)).wr (Reg.EXR_CAUSE_LDEPTH c e) x.loops.length)
  let d := ((d.wr (Reg.EXR_CAUSE_STATION c e) a.station).wr (Reg.EXR_CAUSE_PVALID c e) (b2n a.pvalid))
  let d := ((d.wr (Reg.EXR_CAUSE_ASPACE c e) a.aspace).wr (Reg.EXR_PC_VAL c e) pc.toNat)
  let d := ((d.wr (Reg.EXR_INSN_VAL c e) w.toNat).wr (Reg.EXR_EXT_VAL c e) ext.toNat)
  let d := ((d.wr (Reg.EXR_ADDR_VAL c e) a.addr).wr (Reg.EXR_PROG_VAL c e) a.prog)
  let d := (d.wr (Reg.EXR_MODE_VAL c e) (a.mode.getD (modeBits x e))).setValid c e true
  d.traceEng c e teFAULT (d.exrCause c e)

/-- The core's fault interrupt source (R67, Table IC-1). -/
def faultIrq (c : Nat) (d : Dev) : Dev := d.irqEvent (1536 + 16 * c)

/-- A core's part of its command ends in failure with a CAUSE of Table AW-6. -/
def failPart (c cause : Nat) (d : Dev) : Dev :=
  (d.updCore c fun x => { x with run := false, part := .failed cause, slot := none, obj := none, loadWait := none }).jrOutcome
    (d.coreCmd c) (3, cause, 0)

/-- The disposition of a fault while traps are disabled (R67): every engine stops, the source is raised, END fails the part. -/
def noTrap (c cause : Nat) (d : Dev) : Dev :=
  let d := (d.updCore c fun x => { x with faultStop := true }).faultIrq c
  if (d.core c).fdisp then d else d.failPart c (if cause = cWATCHDOG then 0x06 else 0x05)

/-- Whether a stop applies to a core: a stop request (R73), or a fault with traps disabled (R67). -/
def stopAsked (d : Dev) (c : Nat) : Bool := (d.core c).stopReq ≠ 0 || (d.core c).faultStop

/-- Whether engine e of core c is at a boundary (R72): a matrix pass at a 256-of-K boundary or before its drain, with no repeat of a
check owed; the DMA engine once its local units have resolved (R181); any engine stalled on a credit or a flag; any other engine between
its instructions. -/
def atBoundary (d : Dev) (c e : Nat) : Bool :=
  match e with
  | 0 => (d.core c).slot.isNone
  | 1 =>
    (d.eng c 1).stall.isSome ||
      match (d.core c).mx.pass with
      | some p => (p.phase = .broadcast && p.popped % 4 = 0) || (p.phase = .drain && (d.core c).mx.chk = .try0)
      | none => !(d.eng c 1).begun
  | 3 =>
    match (d.core c).dm.job with
    | some j => j.inflight.all DUnit.sent || (j.desc.dk = 3 && (d.eng c 3).stall.isSome)
    | none => true
  | _ => true

/-- The progress an engine's context holds (EXR_PROG, R64, R73): a matrix pass's segments, a DMA transfer's completed prefix with its
descriptor's index, the start lane of a gather or scatter. -/
def progOf (d : Dev) (c e : Nat) : Bool × Nat :=
  let x := d.core c
  match e with
  | 1 =>
    match x.mx.pass with
    | some p => (true, p.popped / 4 % 2 ^ 16)
    | none => (false, 0)
  | 2 => (decide (x.e2.vstart ≠ 0), x.e2.vstart)
  | 3 =>
    match x.dm.job with
    | some j => (true, j.prefixBytes % 2 ^ 40 + x.dm.descNo % 256 * 2 ^ 40)
    | none => (decide (x.dm.descNo ≠ 0), x.dm.descNo % 256 * 2 ^ 40)
  | _ => (false, 0)

/-- Whether the instruction at the head of an engine's queue is in progress and goes on from it when it is restarted (R72). -/
def inProgress (d : Dev) (c e : Nat) : Bool :=
  (e = 1 && (d.core c).mx.pass.isSome) || (e = 3 && ((d.core c).dm.job.isSome || decide ((d.core c).dm.descNo ≠ 0)))

/-- A fault that no trap takes ends the part (R66, R67): the other engines stop, the source is raised. -/
def failStop (c cause : Nat) (d : Dev) : Dev :=
  ((d.updCore c fun x => { x with faultStop := true }).faultIrq c).failPart c cause

/-- A fault of the matrix, vector or DMA engine at the head of its queue (R54, R64, R65, R67). The record holds the progress, and an
instruction that has none begins afresh when it is restarted. After halt no handler can run: the part ends as halt ends it with a record
VALID (R66). -/
def engFault (c e : Nat) (a : FArgs) (d : Dev) : Dev :=
  let x := d.core c
  match (x.eng e).queue with
  | [] => d
  | q :: _ =>
    let pr := d.progOf c e
    let d := d.fillRec c e q.pc q.word q.ext false false (if a.pvalid ∨ e = 2 then a else { a with pvalid := pr.1, prog := pr.2 })
    let d := d.updEng c e fun g =>
      if d.inProgress c e then { g with stall := none }
      else { g with begun := false, resolved := [], stall := none, got := [], seed := none }
    if x.tvec = 0 then d.noTrap c a.cause else if x.run then d else d.failStop c 0x05

/-- Whether loop-end handling is owed after the instruction at pc (R58). -/
def owesLoop (x : Core) : Bool :=
  match x.loops with
  | l :: _ => x.slot.isNone && l.last = x.pc
  | [] => false

/-- The trap entry (R65): INTRAP is set, TRET holds the resume address, and the sequencer continues at TVEC. -/
def enterTrap (c : Nat) (tret : BitVec 48) (d : Dev) : Dev :=
  let d := (d.setF (Reg.SQ_TRAP_INTRAP c)).wr (Reg.SQ_TRAP_TRET c) tret.toNat
  d.updCore c fun x => { x with pc := x.tvec, slot := none }

/-- A scalar fault (R65, R67, R68, R70). -/
def seqFault (c : Nat) (w ext : Word) (a : FArgs) (d : Dev) : Dev :=
  let x := d.core c
  let lend := owesLoop x
  let (pc, ds) := match x.slot with
    | some s => (s.branchPc, true)
    | none => (x.pc, false)
  if d.inTrap c then
    -- the handler faulted: DOUBLE under disposition END
    let d := d.fillRec c 0 pc w ext ds lend { a with cause := cDOUBLE, sub := a.cause }
    d.failStop c 0x05
  else
    let d := d.fillRec c 0 pc w ext ds lend a
    if x.tvec ≠ 0 then d.enterTrap c pc
    else (d.noTrap c a.cause).updCore c fun x => { x with pc := pc, slot := none }

/-- Drops the loops that a jump to t leaves: every loop inside the outermost loop whose body does not hold t, and that loop (R58). -/
def leaveLoops (t : BitVec 48) : List LoopAct → List LoopAct
  | [] => []
  | l :: r =>
    let r' := leaveLoops t r
    if r'.length < r.length then r'
    else if l.first ≤ t ∧ t ≤ l.last then l :: r else r

/-- Completes the scalar instruction of len bytes at pc: the delay slot's branch, or loop-end handling, or the next address (R57, R58). -/
def retire (c len : Nat) (d : Dev) : Dev :=
  d.updCore c fun x =>
    let nxt := x.pc + BitVec.ofNat 48 len
    match x.slot with
    | some s =>
      match s.target with
      | some t => { x with pc := t, slot := none, loops := leaveLoops t x.loops }
      | none => { x with pc := nxt, slot := none }
    | none =>
      match x.loops with
      | l :: r =>
        if l.last = x.pc then
          let n := x.lcr l.lc - 1
          let x := x.setLc l.lc n
          if n ≠ 0 then { x with pc := l.first } else { x with pc := nxt, loops := r }
        else { x with pc := nxt }
      | [] => { x with pc := nxt }

/-- A trap that the sequencer is about to enter for an engine's record (R65): not between a branch and its slot. -/
def trapDue (d : Dev) (c : Nat) : Bool :=
  (d.core c).tvec ≠ 0 && !(d.inTrap c) && d.anyValid c && (d.core c).slot.isNone && (d.core c).run

/-- The sequencer takes its next instruction: it runs, is not stopped, held or faulted, and waits for nothing. Asked to stop, it takes
only the slot of its branch (R72, R73). -/
def seqReady (d : Dev) (c : Nat) : Bool :=
  let x := d.core c
  x.run && !x.e0.stopped && !(d.stopAsked c && x.slot.isNone) && !x.stepHold && x.obj.isNone && x.loadWait.isNone
    && x.e0.wait.isNone && x.e0.releasing.isNone && x.e0.cow.isNone
    && (d.inTrap c || !(d.valid c 0)) && !(d.trapDue c)

/-- An engine takes a step: it is not stopped, its record is not VALID, and it is not at a boundary at which it was asked to stop (R73). -/
def engReady (d : Dev) (c e : Nat) : Bool :=
  !(d.eng c e).stopped && !(d.valid c e) && !(d.stopAsked c && d.atBoundary c e) && !(d.core c).stepHold && (d.eng c e).wait.isNone
    && (d.eng c e).releasing.isNone && (d.eng c e).cow.isNone && (d.eng c e).rwait.isNone
    && !(e = 1 && (d.core c).mx.chk = .persistent)

/-- The instruction at the head of an engine's queue. -/
def qHead (d : Dev) (c e : Nat) : Option QEntry := (d.eng c e).queue.head?

/-- Completes the instruction at the head of an engine's queue; RSEQ advances when it rounded stochastically (R110). -/
def engDone (c e : Nat) (stoch : Bool) (d : Dev) : Dev :=
  d.updEng c e fun g =>
    { g with queue := g.queue.tail, begun := false, resolved := [], stall := none, got := [], seed := none,
             rseq := if stoch then (g.rseq + 1) % 2 ^ 32 else g.rseq }

/-- Runs `f` on the head of an engine's queue when the engine is ready and the head has one of the opcodes; an event that
does not apply changes nothing. -/
def onHead (c e : Nat) (op : Nat) (f : QEntry → Dev → Dev) (d : Dev) : Dev :=
  match d.qHead c e with
  | some q => if d.engReady c e && wOp q.word = op then f q (d.traceTake c e q.pc) else d
  | none => d

end Dev

/-- What a scalar instruction does beyond its address. -/
inductive SRes where
  | done (d : Dev)                 -- completed: retire it
  | fault (a : FArgs) (d : Dev)
  | stall (d : Dev)                -- stays at this instruction
  | jumped (d : Dev)               -- has set the sequencer itself (branch, loop, return, halt)

namespace Dev

/-- How the fetch of an instruction goes (R48, R342). -/
inductive Fetched where
  | ok
  | wait                                                                  -- the host takes no request (R458)
  | fault (a : FArgs) (first own : Bool) (l : List (Phys × Nat))          -- first: the first word was not fetched
  deriving DecidableEq, Repr

/-- Where the word at an instruction address lies (R328, R340, R342). -/
def fetchPhys (d : Dev) (c p va : Nat) : Except MFault Phys :=
  match d.walk p va with
  | .error f => .error f
  | .ok l =>
    let off := va % pageBytes
    if ¬ l.x then .error .protection
    else
      match l.tgt with
      | 1 => .ok (.host (l.base + off))
      | 2 => .ok (.board (l.base + off))
      | _ =>
        match (d.part p).shadows.find? fun s => s.va = va / pageBytes ∧ some s.slot = d.cmdSlot c with
        | some s => .ok (.hbm ((if s.copied then s.shadow * pageBytes else l.base) + off))
        | none => .ok (.hbm (l.base + off))

/-- The fetch of one word of an instruction. A command states what was fetched; here stands whether it could be. -/
def fetchWord (d : Dev) (c p va : Nat) (first : Bool) : Fetched :=
  match d.fetchPhys c p va with
  | .error f => .fault { cause := f.cause, addr := va, aspace := 2 } first (f = .ownership) []
  | .ok ph =>
    let l := [(ph, 8)]
    if d.hostWaits p l then .wait
    else
      match d.physRead l with
      | .error (.board _) => .ok
      | .error f => .fault { cause := f.cause, addr := va, aspace := 2 } first false l
      | .ok _ => .ok

/-- The fetch of the instruction at pc (R48, R342). -/
def fetched (d : Dev) (c : Nat) (long : Bool) : Fetched :=
  match d.coreOwner c with
  | none => .ok
  | some p =>
    let pc := (d.core c).pc.toNat
    if pc % 8 ≠ 0 then .fault { cause := cALIGN, addr := pc, aspace := 2 } true false []
    else
      match d.fetchWord c p pc true with
      | .ok => if long then d.fetchWord c p ((pc + 8) % 2 ^ 48) false else .ok
      | r => r

/-- A fetch that fails is a scalar fault (R64, R342): the words not fetched are free in the record. -/
def fetchFault (c : Nat) (w : Word) (a : FArgs) (first own : Bool) (l : List (Phys × Nat)) (d : Dev) : Dev :=
  let d := match d.coreOwner c with
    | some p => if own then d.ownViol p else (d.poisonHit l).hostSpend l
    | none => d
  let r := d.fresh
  let x := r.2.fresh
  x.2.seqFault c (if first then BitVec.ofNat 64 r.1 else w) (BitVec.ofNat 64 x.1) a

/-- Runs one scalar instruction of core c: its fetch, the checks of R57 and R58, the guard (R49), its effect, and its retirement. -/
def scalar (c : Nat) (g : Guard) (w ext : Word) (flow : Bool) (body : Dev → SRes) (d : Dev) : Dev :=
  if ¬ d.seqReady c then d
  else
    match d.fetched c (wLong w) with
    | .wait => d
    | .fault a first own l => d.fetchFault c w a first own l
    | .ok =>
    let d := d.traceTake c 0 (d.core c).pc
    let x := d.core c
    let len := if wLong w then 16 else 8
    let last := match x.loops with
      | l :: _ => decide (l.last = x.pc)
      | [] => false
    if flow && x.slot.isSome then d.seqFault c w ext { cause := cILLEGAL }
    else if last && (flow || x.slot.isSome) then d.seqFault c w ext { cause := cLOOPFORM }
    else if xor (x.pred g.pr.toNat) g.pn = false ∧ ¬ flow then d.retire c len
    else
      match body d with
      | .done d => d.retire c len
      | .fault a d => d.seqFault c w ext a
      | .stall d => d
      | .jumped d => d

/-- Whether a guard is true (R49). -/
def guardOn (d : Dev) (c : Nat) (g : Guard) : Bool := xor ((d.core c).pred g.pr.toNat) g.pn

/-- A branch (R57): the next instruction is its delay slot, which a return from its fault may skip (R66, R68). -/
def branch (c : Nat) (taken : Bool) (t : BitVec 48) (d : Dev) : Dev :=
  d.updCore c fun x =>
    match x.skipSlot with
    | none => { x with slot := some ⟨x.pc, if taken then some t else none⟩, pc := x.pc + 8 }
    | some n =>
      if taken then { x with skipSlot := none, pc := t, loops := leaveLoops t x.loops }
      else { x with skipSlot := none, pc := x.pc + 8 + BitVec.ofNat 48 n }

/-- Clears an engine's record and restarts it (R66): after its faulting instruction with `skip`, or at it, from its progress. A
skipped gather or scatter sets VSTART to 0 (R138). -/
def restart (c e : Nat) (skip : Bool) (d : Dev) : Dev :=
  if ¬ d.valid c e then d
  else
    let d := (d.setValid c e false).traceEng c e teRESUME 0
    if ¬ skip then
      -- a descriptor that was not admitted is read again
      (if e = 3 ∧ ((d.core c).dm.job.map DmaJob.checked) = some false then
        d.updCore c fun x => { x with dm := { x.dm with job := none } } else d)
    else
      let d := d.engDone c e false
      match e with
      | 1 => d.updCore c fun x => { x with mx := { x.mx with pass := none, lad0 := [], lad1 := [] } }
      | 2 => d.updEng c 2 fun g => { g with vstart := 0 }
      | 3 => d.updCore c fun x => { x with dm := Dm.reset }
      | _ => d

/-- After a resume, the engines that stopped only because another faulted run again (R67). -/
def releaseFaultStop (c : Nat) (d : Dev) : Dev :=
  d.updCore c fun x =>
    let go (g : Eng) : Eng := if x.stopReq = 0 then { g with stopped := false } else g
    if x.faultStop then { x with faultStop := false, e0 := go x.e0, e1 := go x.e1, e2 := go x.e2, e3 := go x.e3 } else x

/-- Continues the sequencer at a fault's resume address, with the faulting instruction skipped or not (R66, R68, R70). -/
def seqContinue (c : Nat) (tret : BitVec 48) (hadScalar skip : Bool) (d : Dev) : Dev :=
  let len := if wLong (BitVec.ofNat 64 (d.rd (Reg.EXR_INSN_VAL c 0))) then 16 else 8
  let ds := d.flag (Reg.EXR_CAUSE_DS c 0)
  let d := if hadScalar then (d.setValid c 0 false).traceEng c 0 teRESUME 0 else d
  let d := d.updCore c fun x => { x with pc := tret, slot := none }
  if ¬ (hadScalar && skip) then d
  else if ds then d.updCore c fun x => { x with skipSlot := some len }
  else d.retire c len

/-- rtx and SQ_RESUME on the engines of a mask whose bit E stands for engine E (R66, R67). -/
def restartMask (c res skp : Nat) (d : Dev) : Dev :=
  [1, 2, 3].foldl (fun d e => if bit res e then d.restart c e (bit skp e) else d) d

/-- A trap is entered again at once while any record is VALID (R65). -/
def retrap (c : Nat) (d : Dev) : Dev := if d.trapDue c then d.enterTrap c (d.core c).pc else d

end Dev
end Sys2Proof.Machine
end

