-- ==== Sys2Proof/Machine/Flags.lean ====
section
/-!
DEFINITION. Flag updates and tests (R151, R156, R157) and the gauge's counting (R116, R117, R121): every flag computation
of the part.
-/
namespace Sys2Proof.Machine

/-- The flag operations of Table SY-1: an update. -/
def flagOp (sop : Nat) (f v : Nat) : Nat :=
  match sop with
  | 0 => v
  | 1 => (f + v) % 2 ^ 64
  | _ => (f + 2 ^ 64 - v) % 2 ^ 64

/-- A test of Table SY-1, unsigned. -/
def flagTest (sop : Nat) (f v : Nat) : Bool :=
  match sop with
  | 1 => f = v
  | 2 => f ≠ v
  | _ => v ≤ f

namespace Dev

def flagVal (d : Dev) (c n : Nat) : Nat := d.rd (Reg.SY_FLAG_VALUE c n)

/-- Completes the stalled test of engine e: the sequencer retires its instruction, an engine its queue's head. -/
def testDone (c e : Nat) (t : TestWait) (d : Dev) : Dev :=
  let f := d.flagVal c t.flag
  let d := if t.sop = 3 then d.wr (Reg.SY_FLAG_VALUE c t.flag) (flagOp 2 f t.v.toNat) else d
  let d := d.updEng c e fun g => { g with wait := none }
  if e = 0 then d.retire c 8 else d.engDone c e false

/-- Grants the stalled tests on flag n that are now true, in engine order; each sees the value the one before it left (R157). -/
def grantTests (c n : Nat) (d : Dev) : Dev :=
  [0, 1, 2, 3].foldl (fun d e =>
    match (d.eng c e).wait with
    | some t =>
      if t.flag = n ∧ flagTest t.sop (d.flagVal c n) t.v.toNat ∧ ¬ (d.eng c e).stopped ∧ ¬ d.stopAsked c
        ∧ ¬ (e ≠ 0 ∧ d.valid c e) then d.testDone c e t else d
    | none => d) d

/-- One update of a flag in its update order (R151), with the tests it frees. -/
def flagUpdate (c n sop v : Nat) (d : Dev) : Dev :=
  (d.wr (Reg.SY_FLAG_VALUE c n) (flagOp sop (d.flagVal c n) v)).grantTests c n

/-- A flag test (R156): completes at once, or stalls its engine in place. -/
def startTest (c e : Nat) (t : TestWait) (d : Dev) : Dev :=
  if flagTest t.sop (d.flagVal c t.flag) t.v.toNat then d.testDone c e t
  else d.updEng c e fun g => { g with wait := some t }

/-- An overflow event of R121 of partition p: OVF_PEND while the controller is CLOSING, OVF_LOCAL otherwise (R123). -/
def ovfEvent (p : Nat) (d : Dev) : Dev :=
  if d.flag (Reg.LS_STAT_CLOSING p) then d.setF (Reg.LS_STAT_OVF_PEND p) else d.setF (Reg.LS_STAT_OVF_LOCAL p)

/-- Counts converted elements in engine n's gauge counters, n = 1 matrix, 2 vector, 3 DMA (R116). -/
def gaugeCount (c n : Nat) (l : List GCls) (d : Dev) : Dev :=
  let k (g : GCls) : Nat := (l.filter fun x => x = g).length
  ((d.incSat (Reg.GAU_CNT_SAT c n) (k .sat)).incSat (Reg.GAU_CNT_FLUSH c n) (k .flush)).incSat (Reg.GAU_NAN_NAN c n) (k .nan)

/-- A tile is marked when one of its elements was counted NAN or SAT (R117). -/
def marks (l : List GCls) : Bool := l.any fun x => x = .nan || x = .sat

/-- The histogram bin of an element (R119): 0 to 127, or 128 for ZERO and 129 for NAN. -/
def histBin (v : Num) : Nat :=
  match v with
  | .nan => 129
  | .inf _ => 127
  | .fin _ m e =>
    if m = 0 then 128
    else
      let x := magExp m e
      if x < -63 then 0 else if x > 62 then 127 else (x + 64).toNat

/-- The field of bin b of histogram unit k. -/
def histFld (c k b : Nat) : Fld :=
  if b = 128 then Reg.GAU_HAUX_ZERO c k
  else if b = 129 then Reg.GAU_HAUX_NAN c k
  else if b % 2 = 0 then Reg.GAU_HBIN_BIN_LO c k (b / 2) else Reg.GAU_HBIN_BIN_HI c k (b / 2)

/-- A pushed floating-point tile adds its 4,096 decoded elements to every unit bound to the station (R119, R120). -/
def histogram (c n : Nat) (fmt : Nat) (bytes : List Byte) (d : Dev) : Dev :=
  match fmtOf fmt with
  | none => d
  | some f =>
    if ¬ f.isFloat then d
    else
      let bins := (tileVals f bytes).map histBin
      (List.range 4).foldl (fun d k =>
        if d.flag (Reg.GAU_HCFG_EN c k) ∧ d.rd (Reg.GAU_HCFG_STATION c k) = n then
          (List.range 130).foldl (fun d b => d.incSat (histFld c k b) (bins.filter fun x => x = b).length) d
        else d) d

/-- The rounding of one element by engine e (R109, R110): IDX is the element or lane number. -/
def rndOf (d : Dev) (c e idx : Nat) : Rnd :=
  let g := d.eng c e
  if ¬ g.rnd then .rne
  else
    let p := (d.coreOwner c).getD 0
    .stoch (genR (BitVec.ofNat 64 (g.seed.getD (d.rd (Reg.SR_SEED_SEED p)))) (d.localNo p c) e g.rseq idx)

/-- A watched station's marked tile is an overflow event (R121). -/
def watchPush (c n : Nat) (marked : Bool) (d : Dev) : Dev :=
  match d.coreOwner c with
  | some p => if marked ∧ bit (d.rd (Reg.GAU_WATCH_MASK c)) (n - 16) then d.ovfEvent p else d
  | none => d

end Dev
end Sys2Proof.Machine
end

