-- ==== Sys2Proof/Machine/Stations.lean ====
section
/-!
DEFINITION. Stations (R33 to R46): the configuration write with its refusals, enable and disable, a push and a pop with their
events, and the station faults of an engine's instruction.
-/
namespace Sys2Proof.Machine

def isProdPort (n : Nat) : Bool := n = 3 || n = 6 || (8 ≤ n && n ≤ 11)
def isConsPort (n : Nat) : Bool := n = 0 || n = 1 || n = 2 || n = 4 || n = 5 || n = 7 || (12 ≤ n && n ≤ 15)

namespace Dev

/-- Whether two FIFOs' regions overlap (R36). -/
def overlaps (d : Dev) (c n m : Nat) : Bool :=
  let lo (k : Nat) : Nat := d.fifoBase c k
  let hi (k : Nat) : Nat := d.fifoBase c k + d.fifoCap c k * d.fifoSlot c k
  lo n < hi m && lo m < hi n

/-- The lowest refusal code that applies to an enable request (R36, ST_STAT.CFGERR_CODE); 0 when it is accepted. -/
def enableCode (d : Dev) (c n : Nat) : Nat :=
  let slot := d.fifoSlot c n
  let cap := d.fifoCap c n
  if slot = 0 ∨ 64 < slot ∨ cap = 0 then 1
  else if (d.fifoBase c n + cap * slot) * 256 > 0x800000 then 2
  else if (List.range 48).any fun k => k + 16 ≠ n && d.fifoOn c (k + 16) && d.overlaps c n (k + 16) then 3
  else if ¬ isProdPort (d.fifoProd c n) then 4
  else if ¬ isConsPort (d.fifoCons c n) then 5
  else 0

/-- Disables a FIFO: every tile it holds is discarded and OCC becomes 0 (R43). -/
def stDisable (c n : Nat) (d : Dev) : Dev :=
  (d.clrF (Reg.ST_CFG_EN c n)).updCore c fun x => x.setFifo n Fifo.reset

/-- An enable request (R36): refused with its lowest code, or the FIFO is enabled and empty. -/
def stEnable (c n : Nat) (d : Dev) : Dev :=
  let k := d.enableCode c n
  if k = 0 then (d.setF (Reg.ST_CFG_EN c n)).updCore c fun x => x.setFifo n Fifo.reset
  else (d.setF (Reg.ST_STAT_CFGERR c n)).wr (Reg.ST_STAT_CFGERR_CODE c n) k

/-- A write of ST_CFG_n, by a requester or by stcfg (R43, R45, R46): while EN = 1 only its EN bit applies. -/
def stCfgWrite (c n v : Nat) (d : Dev) : Dev :=
  if d.fifoOn c n then (if bit v 0 then d else d.stDisable c n)
  else
    let d := ((d.wr (Reg.ST_CFG_SLOT c n) (bits v 14 8)).wr (Reg.ST_CFG_CAP c n) (bits v 23 16)).wr
      (Reg.ST_CFG_BASE c n) (bits v 38 24)
    let d := (d.wr (Reg.ST_CFG_PROD c n) (bits v 43 40)).wr (Reg.ST_CFG_CONS c n) (bits v 51 48)
    if bit v 0 then d.stEnable c n else d

/-- A station event (R46): signal.add 1 on the configured flag, and the core's station-event source. -/
def stEvent (c n : Nat) (full : Bool) (d : Dev) : Dev :=
  let d := d.setF (if full then Reg.ST_STAT_FULL_EV c n else Reg.ST_STAT_EMPTY_EV c n)
  let d := if d.flag (if full then Reg.ST_EVCFG_FFLAG_EN c n else Reg.ST_EVCFG_EFLAG_EN c n) then
    d.flagUpdate c (d.rd (Reg.ST_EVCFG_FLAG c n)) 1 1 else d
  if d.flag (if full then Reg.ST_EVCFG_IRQ_FULL c n else Reg.ST_EVCFG_IRQ_EMPTY c n) then d.irqEvent (1536 + 16 * c + 1) else d

def occ (d : Dev) (c n : Nat) : Nat := ((d.core c).fifo n).tiles.length

/-- The tile-store address of a slot of FIFO n. -/
def slotAddr (d : Dev) (c n i : Nat) : Nat := (d.fifoBase c n + i % (max 1 (d.fifoCap c n)) * d.fifoSlot c n) * 256

/-- A push (R38, R40, R41): the tile's bytes enter its slot, OCC counts it, and what the push causes follows: the FULL event, the
histograms (R119) and the watched overflow (R121). The caller has the credit and has checked the size. -/
def push (c n fmt : Nat) (bytes : List Byte) (marked : Bool) (d : Dev) : Dev :=
  let f := (d.core c).fifo n
  let a := d.slotAddr c n (f.head + f.tiles.length)
  let d := d.updCore c fun x =>
    (x.tsWrite a bytes).setFifo n { f with tiles := f.tiles ++ [⟨bytes.length, marked⟩] }
  let d := if f.tiles.length + 1 = d.fifoCap c n then d.stEvent c n true else d
  (d.histogram c n fmt bytes).watchPush c n marked

/-- A pop (R38, R40): the oldest tile's bytes and mark, and OCC stops counting it. -/
def pop (c n : Nat) (d : Dev) : Option (List Byte × Bool) × Dev :=
  let x := d.core c
  let f := x.fifo n
  match f.tiles with
  | [] => (none, d)
  | t :: r =>
    let bs := x.tsRead (d.slotAddr c n f.head) t.len
    let d := d.setCore c (x.setFifo n ⟨r, (f.head + 1) % max 1 (d.fifoCap c n)⟩)
    (some (bs, t.marked), if r.isEmpty then d.stEvent c n false else d)

/-- The recorded byte count of the oldest tile (R41). -/
def headLen (d : Dev) (c n : Nat) : Option Nat := ((d.core c).fifo n).tiles.head?.map TileRec.len

/-- A push would exceed the slot (R41). -/
def tooBig (d : Dev) (c n len : Nat) : Bool := d.fifoSlot c n * 256 < len

/-- Whether FIFO n has a credit for its producer, and for its consumer (R37). -/
def canPush (d : Dev) (c n : Nat) : Bool := d.fifoOn c n && d.occ c n < d.fifoCap c n
def canPop (d : Dev) (c n : Nat) : Bool := d.fifoOn c n && 0 < d.occ c n

/-- A station fault of the instruction at the head of engine e's queue (R42). -/
def stFault (c e st : Nat) (k : StCause) (d : Dev) : Dev :=
  d.engFault c e { cause := cSTATION, sub := k.code, station := st }

/-- Stalls engine e on a station's credit (R37): `push` stalls are held as station + 64. -/
def stallOn (c e n : Nat) (isPush : Bool) (d : Dev) : Dev :=
  d.updEng c e fun g => { g with stall := some (if isPush then n + 64 else n) }

/-- The resolution of tile operand i of the head instruction: once it has begun, what it resolved then (R35). -/
def resolveHeld (d : Dev) (c e i : Nat) (pop : Bool) (ok : Nat → Bool) (st : Nat) : Except StCause Nat :=
  match (if (d.eng c e).begun then (d.eng c e).resolved[i]? else none) with
  | some n => .ok n
  | none => d.resolveSt c pop ok st

/-- Marks the head instruction of engine e as begun, with the FIFOs it has resolved (R35) and the seed it found (R128). -/
def begin (c e : Nat) (l : List Nat) (d : Dev) : Dev :=
  let seed := d.rd (Reg.SR_SEED_SEED ((d.coreOwner c).getD 0))
  d.updEng c e fun g => { g with begun := true, resolved := l, stall := none, seed := if g.begun then g.seed else some seed }

/-- PUSH (R38, R41, R42): a station accepts a complete tile from its producer when the FIFO has a free slot; a tile larger than
the slot faults the producer's engine and leaves OCC unchanged. -/
def stationPush (c n fmt : Nat) (bytes : List Byte) (marked : Bool) (d : Dev) : Dev :=
  if ¬ d.canPush c n then d
  else if d.tooBig c n bytes.length then d.stFault c (portEng (d.fifoProd c n)) n .tileSize
  else d.push c n fmt bytes marked

/-- POP (R38): the consumer is granted the oldest tile. -/
def stationPop (c n : Nat) (d : Dev) : Dev := if d.canPop c n then (d.pop c n).2 else d

end Dev
end Sys2Proof.Machine
end

