-- ==== Sys2Proof/Machine/StreamOps.lean ====
section
/-!
DEFINITION. Handing an operation to a fabric stream (R239, R246 to R248): the shared part of every agent's remote write,
read, flag update and message.
-/
namespace Sys2Proof.Machine.Dev

def ctx (d : Dev) (k : Nat) : Ctx := tabGet Ctx.reset k d.ctxs
def setCtx (k : Nat) (x : Ctx) (d : Dev) : Dev := { d with ctxs := tabPut Ctx.reset k x d.ctxs }
def updCtx (k : Nat) (f : Ctx → Ctx) (d : Dev) : Dev := d.setCtx k (f (d.ctx k))
def myDev (d : Dev) : Nat := d.rd Reg.RTE_ID_DEV

/-- Whether context k is open for partition p and takes new operations (R249). -/
def ctxOpen (d : Dev) (k p : Nat) : Bool :=
  let x := d.ctx k
  x.st = .opened && !x.closing && x.part = p

/-- Whether n more packets fit the window (R247). -/
def winFits (d : Dev) (k n : Nat) : Bool :=
  let x := d.ctx k
  (x.n + n + 2 ^ 32 - x.o) % 2 ^ 32 ≤ 256

/-- The direction key of R353, from the sender's identity, BOOTID and OPENCNT. -/
def dirKey (d : Dev) (part sdev sctx ddev dctx boot opencnt : Nat) : Nat :=
  Config.kdf (((d.part part).lkey).getD 0)
    (leBytes 4 0x3156504A ++ leBytes 4 sdev ++ leBytes 4 sctx ++ leBytes 4 ddev ++ leBytes 4 dctx ++ leBytes 8 boot ++ leBytes 8 opencnt)

/-- Seals a packet's payload under R353: TCTR, the cipher text and the tag. -/
def sealPkt (k : Nat) (p : Pkt) (d : Dev) : Pkt × Dev :=
  let x := d.ctx k
  if ¬ x.gcm then (p, d)
  else
    let key := d.dirKey x.part d.myDev k x.fdev x.fctx d.bootid x.opencnt
    -- LEN of the additional data counts the counter and the tag
    let aad := Pkt.aad { p with payload := List.replicate (p.payload.length + 24) 0 }
    ({ p with payload := leBytes 8 x.tctr ++ Config.gcm key x.tctr aad p.payload }, d.setCtx k { x with tctr := x.tctr + 1 })

/-- Hands a packet to this device's router. -/
def injectPkt (p : Pkt) (d : Dev) : Dev := ({ d with inject := d.inject ++ [p] }).emit (.packet p)

/-- The bell time plus a number of units of 1,024 ticks, as a DEADLINE (R248). -/
def deadlineIn (d : Dev) (u : Nat) : Nat := (d.now / 1024 + u) % 2 ^ 32

/-- Sends an unsequenced packet on context k: an ACK, an RDATA or a SYNC. -/
def sendRaw (k ptype seq : Nat) (sealed : Bool) (payload : List Byte) (d : Dev) : Dev :=
  let x := d.ctx k
  let p : Pkt :=
    { ptype := ptype, flg := false, path := 0, nm := false, phase := 0, ddev := x.fdev, sdev := d.myDev, dctx := x.fctx, seq := seq,
      opend := seq, deadline := d.deadlineIn (d.rd Reg.STM_TIME_LIFE), inter := 0, addr := 0, frbase := 0, frlog := 0,
      payload := payload }
  let (p, d) := if sealed then d.sealPkt k p else (p, d)
  d.injectPkt p

/-- Sends one operation on context k: one block of consecutive numbers, one packet per payload (R246, R248). The caller has
checked that the context is open and that the window holds the packets. -/
def sendOp (k ptype : Nat) (flg : Bool) (owner : OpOwner) (addr frbase frlog : Nat) (payloads : List (Nat × List Byte))
    (d : Dev) : Dev :=
  let x := d.ctx k
  let first := x.n
  let last := (x.n + payloads.length + 2 ^ 32 - 1) % 2 ^ 32
  let dl := d.deadlineIn (d.rd Reg.STM_TIME_LIFE)
  let d := d.setCtx k { x with n := (x.n + payloads.length) % 2 ^ 32,
                               ops := x.ops ++ [⟨first, last, owner, frbase, frlog⟩] }
  (payloads.zipIdx).foldl (fun d (a, i) =>
    let p : Pkt :=
      { ptype := ptype, flg := flg, path := 0, nm := false, phase := 0, ddev := x.fdev, sdev := d.myDev, dctx := x.fctx,
        seq := (first + i) % 2 ^ 32, opend := last, deadline := dl, inter := 0, addr := addr + a.1, frbase := frbase,
        frlog := frlog, payload := a.2 }
    let (p, d) := d.sealPkt k p
    (d.updCtx k fun x => { x with unacked := x.unacked ++ [p] }).injectPkt p) d

/-- Splits bytes into packets: 4,096 bytes at most, or 2,048 on an encrypted context (R354), with their offsets. -/
def splitPayload (gcm : Bool) (bs : List Byte) : List (Nat × List Byte) :=
  let m := if gcm then 2048 else 4096
  (List.range (max 1 ((bs.length + m - 1) / m))).map fun i => (i * m, (bs.drop (i * m)).take m)

/-- Where a board-domain address of partition p leads (R238): this device's own window, a stream, or nowhere. -/
def boardTarget (d : Dev) (p a : Nat) : Except MFault (Option Nat × Nat) :=
  let dv := bits a 42 40
  let off := a % 2 ^ 40
  if dv = d.myDev % 8 then .ok (none, off)
  else if d.flag (Reg.STM_BOARD_V p dv) then .ok (some (d.rd (Reg.STM_BOARD_CTX p dv)), off)
  else .error .translation

end Sys2Proof.Machine.Dev
end

