-- ==== Sys2Proof/Machine/CoreMem.lean ====
section
/-!
DEFINITION. A core engine's memory accesses (R56, R60, R149, R182, R183, R199, R239, R342): the tile store, the pool and the
partition's virtual space, local, on the host, or on another device of the board domain.
-/
namespace Sys2Proof.Machine

/-- The outcome of a core engine's access. -/
inductive MRes (α : Type) where
  | ok (a : α)
  | fault (a : FArgs)
  | cow (va : Nat)              -- waits for a declared page's copy (R328)
  | sent                        -- a READ is on its stream: the access waits for its RDATA (R239)
  | full                        -- the access waits: the stream's window is full (R247), or the host takes no request (R458)

namespace Dev

/-- The partition whose accesses core c makes; 8 names none, and nothing is mapped for it. -/
def partOf (d : Dev) (c : Nat) : Nat := (d.coreOwner c).getD 8

/-- The requester code of a core engine (Table FT-9). -/
def reqCode (d : Dev) (c e : Nat) : Nat :=
  2 ^ 28 + c / 18 * 2 ^ 15 + (if (d.core c).onSpare then 18 else c % 18) * 2 ^ 10 + c * 4 + e

/-- An uncorrectable pool read (R183): the sector is rewritten as poisoned and the error recorded. -/
def poolUE (p req key : Nat) (d : Dev) : Dev :=
  (d.poolPoisonRange key 1).err (40 + key / 2 ^ 28) { cls := 0x08, part := some p, info := req, addr := key }

/-- An uncorrectable HBM read with its sector and requester known (R199): poisoned, counted and recorded. -/
def hbmUE (p : Option Nat) (req pa : Nat) (d : Dev) : Dev :=
  let pl := placeOf (d.seedOf pa) pa
  let d := ((d.hbmPoisonRange pa 1).incSat (Reg.HBM_UECNT_UE pl.stack) 1).irqEvent (1024 + 8 * pl.stack)
  d.err (20 + pl.stack) { cls := 0x03, part := p, info := req, unit := 32 * pl.pch + pl.channel, addr := pa }

def fabricFault (addr : Nat) : FArgs := { cause := cFABRIC, addr := addr, aspace := 2 }

def memFault (f : MFault) (addr spc : Nat) : FArgs := { cause := f.cause, addr := addr % 2 ^ 64, aspace := spc }

/-- The physical pieces of a pool access, each within one granule (R182); the failing piece's address with its fault. -/
def poolPieces (d : Dev) (p : Nat) : List (Nat × Nat) → Except (MFault × Nat) (List (Nat × Nat))
  | [] => .ok []
  | (a, n) :: r =>
    match d.poolKey p a with
    | .error f => .error (f, a)
    | .ok k => (poolPieces d p r).map fun l => (k, n) :: l

def poolReadAll (d : Dev) : List (Nat × Nat) → Except MFault (List Byte)
  | [] => .ok []
  | (k, n) :: r =>
    match d.poolRead k n with
    | .error f => .error f
    | .ok b => (poolReadAll d r).map fun x => b ++ x

def poolWriteAll : List (Nat × Nat) → List Byte → Dev → Dev
  | [], _, d => d
  | (k, n) :: r, bs, d => poolWriteAll r (bs.drop n) (d.poolWrite k (bs.take n))

/-- n free bytes. -/
def freshBytes (n : Nat) (d : Dev) : List Byte × Dev :=
  ((List.range n).map fun i => BitVec.ofNat 8 (Config.free (d.ctr + i)), { d with ctr := d.ctr + n })

/-- Whether a tile-store range meets the region of enabled FIFO n. -/
def hitsFifo (d : Dev) (c addr len n : Nat) : Bool :=
  d.fifoOn c n && decide (addr < (d.fifoBase c n + d.fifoCap c n * d.fifoSlot c n) * 256)
    && decide (d.fifoBase c n * 256 < addr + len)

/-- A direct write to the tile store (R32, R44): one that meets an enabled FIFO's region leaves that FIFO's contents unpredictable. -/
def tileWrite (c addr : Nat) (bs : List Byte) (d : Dev) : Dev :=
  let d := d.updCore c fun x => x.tsWrite addr bs
  ((List.range 48).map (· + 16)).foldl (fun d n =>
    if d.hitsFifo c addr bs.length n then
      let r := d.freshBytes (d.fifoCap c n * d.fifoSlot c n * 256)
      r.2.updCore c fun x => x.tsWrite (d.fifoBase c n * 256) r.1
    else d) d

/-- A read of n bytes by engine e of core c in space spc (R56). `ue` says that the memory's codes find the sector uncorrectable
at this read. -/
def coreRead (c e spc addr n : Nat) (ue : Bool) (d : Dev) : MRes (List Byte) × Dev :=
  let p := d.partOf c
  match spc with
  | 0 =>
    if addr + n > 0x800000 then (.fault (memFault .translation addr 0), d)
    else (.ok ((d.core c).tsRead addr n), d)
  | 1 =>
    match d.poolPieces p (pieces addr n) with
    | .error (f, a) => (.fault (memFault f a 1), d)
    | .ok ks =>
      let d := if ue then (match ks with | (k, _) :: _ => d.poolUE p (d.reqCode c e) k | _ => d) else d
      match d.poolReadAll ks with
      | .error f => (.fault (memFault f addr 1), d)
      | .ok b => (.ok b, d)
  | 2 =>
    match d.resolveAll p (d.cmdSlot c) .read (pieces addr n) with
    | (.error (.cow v, _), d) => (.cow v, d)
    | (.error (f, a), d) => (.fault (memFault f a 2), d)
    | (.ok l, d) =>
      match l with
      | (.board a, _) :: _ =>
        match d.boardTarget p a with
        | .error f => (.fault (memFault f addr 2), d)
        | .ok (none, off) =>
          match d.vaRead p (d.cmdSlot c) off n with
          | (.ok b, d) => (.ok b, d)
          | (.error (.board _, _), d) => (.fault (memFault .translation addr 2), d)
          | (.error (f, _), d) => (.fault (memFault f addr 2), d)
        | .ok (some k, off) =>
          if ((d.eng c e).got.lookup addr).isSome then (.ok (((d.eng c e).got.lookup addr).getD []), d)
          else if ¬ (d.ctxOpen k p) then (.fault (fabricFault addr), d)
          else if ¬ (d.winFits k 1) then (.full, d)
          else (.sent, d.sendOp k ptREAD true (.load c e) off 0 0 [(0, leBytes 8 n)])
      | _ =>
        if d.hostWaits p l then (.full, d) else
        let d := (d.readTouch l).poisonHit l
        let d := if ue then (match l with | (.hbm pa, _) :: _ => d.hbmUE (some p) (d.reqCode c e) pa | _ => d) else d
        match d.physRead l with
        | .error f => (.fault (memFault f addr 2), d.hostSpend l)
        | .ok b => (.ok b, d)
  | _ => (.fault { cause := cOPERAND }, d)

/-- A write by engine e of core c. -/
def coreWrite (c e spc addr : Nat) (bs : List Byte) (d : Dev) : MRes Unit × Dev :=
  let p := d.partOf c
  match spc with
  | 0 =>
    if addr + bs.length > 0x800000 then (.fault (memFault .translation addr 0), d)
    else (.ok (), d.tileWrite c addr bs)
  | 1 =>
    match d.poolPieces p (pieces addr bs.length) with
    | .error (f, a) => (.fault (memFault f a 1), d)
    | .ok ks => (.ok (), poolWriteAll ks bs d)
  | 2 =>
    match d.resolveAll p (d.cmdSlot c) .write (pieces addr bs.length) with
    | (.error (.cow v, _), d) => (.cow v, d)
    | (.error (f, a), d) => (.fault (memFault f a 2), d)
    | (.ok l, d) =>
      match l with
      | (.board a, _) :: _ =>
        match d.boardTarget p a with
        | .error f => (.fault (memFault f addr 2), d)
        | .ok (none, off) =>
          match d.vaWrite p (d.cmdSlot c) off bs with
          | (.ok _, d) => (.ok (), d)
          | (.error (.board _, _), d) => (.fault (memFault .translation addr 2), d)
          | (.error (.cow v, _), d) => (.cow v, d)
          | (.error (f, _), d) => (.fault (memFault f addr 2), d)
        | .ok (some k, off) =>
          let ps := splitPayload (d.ctx k).gcm bs
          if ¬ (d.ctxOpen k p) then (.fault (fabricFault addr), d)
          else if ¬ (d.winFits k ps.length) then (.full, d)
          else
            let last := ((d.ctx k).n + ps.length + 2 ^ 32 - 1) % 2 ^ 32
            let d := d.sendOp k ptWRITE false (.store c e) off off 0 ps
            (.ok (), d.updEng c e fun g => { g with remote := g.remote ++ [(k, last)] })
      | _ =>
        if d.hostWaits p l then (.full, d) else
        let bad := !(d.isQuiet p) && l.any fun x => match x.1 with | .hbm pa => !((d.downSectors pa x.2).isEmpty) | _ => false
        let d := l.foldl (fun d x => match x.1 with | .hbm pa => d.mergeWhole pa x.2 | _ => d) d
        let d := d.physWrite p l bs
        let d := if d.isQuiet p then d
          else l.foldl (fun d x => match x.1 with | .hbm pa => (d.serve pa x.2).mergeNote (d.reqCode c e) (some p) pa x.2 | _ => d) d
        (if bad then .fault (memFault .poison addr 2) else .ok (), d)
  | _ => (.fault { cause := cOPERAND }, d)

/-- A write waits for the copy of its declared page: the first such write asks for it (R328). -/
def waitCow (c e va : Nat) (d : Dev) : Dev :=
  let p := d.partOf c
  let d := d.updEng c e fun g => { g with cow := some va }
  let sl := d.cmdSlot c
  let mark (y : Shadow) : Shadow := if y.va = va ∧ some y.slot = sl then { y with copying := true } else y
  d.updPart p fun x => { x with shadows := x.shadows.map mark }

/-- An engine waits for the RDATA of a board-domain load (R239); the instruction runs again with what it has received. -/
def waitRemote (c e addr : Nat) (d : Dev) : Dev := d.updEng c e fun g => { g with rwait := some addr }

end Dev
end Sys2Proof.Machine
end

