-- ==== Sys2Proof/Machine/Scalar.lean ====
section
/-!
DEFINITION. The sequencer's scalar instructions (R56 to R58, R63 to R66): each takes the core, its guard and its decoded
fields, and acts on the instruction at the core's program counter.
-/
namespace Sys2Proof.Machine.Dev

/-- Format SR (Table GL-4): rd := f ra rb. -/
def aluSR (op c : Nat) (g : Guard) (rd ra rb : BitVec 5) (f : Word → Word → Word) (d : Dev) : Dev :=
  d.scalar c g (mkWord 0 false op g (opSR rd ra rb)) 0 false fun d =>
    .done (d.updCore c fun x => x.setSr rd.toNat (f (x.sr ra.toNat) (x.sr rb.toNat)))

/-- Format SI: rd := f ra imm, the immediate sign-extended (R56). -/
def aluSI (op c : Nat) (g : Guard) (rd ra : BitVec 5) (imm : BitVec 39) (f : Word → Word → Word) (d : Dev) : Dev :=
  d.scalar c g (mkWord 0 false op g (opSI rd ra imm)) 0 false fun d =>
    .done (d.updCore c fun x => x.setSr rd.toNat (f (x.sr ra.toNat) (imm.signExtend 64)))

/-- The operations of opcodes 0x01 to 0x0B and 0x11 to 0x1B (Table GL-5). -/
def opShl (a b : Word) : Word := a <<< (b.toNat % 64)
def opShr (a b : Word) : Word := a >>> (b.toNat % 64)
def opSra (a b : Word) : Word := a.sshiftRight (b.toNat % 64)
def opMin (a b : Word) : Word := if b.slt a then b else a
def opMax (a b : Word) : Word := if a.slt b then b else a

/-- li and li.l (Table GL-5): rd := the immediate, or the extension word. -/
def li (c : Nat) (g : Guard) (rd : BitVec 5) (v : BitVec 39 ⊕ Word) (d : Dev) : Dev :=
  match v with
  | .inl imm =>
    d.scalar c g (mkWord 0 false 0x20 g (opSI rd 0 imm)) 0 false fun d =>
      .done (d.updCore c fun x => x.setSr rd.toNat (imm.signExtend 64))
  | .inr w =>
    d.scalar c g (mkWord 0 true 0x20 g (opSI rd 0 0)) w false fun d =>
      .done (d.updCore c fun x => x.setSr rd.toNat w)

/-- cmp (Table GL-5, format SC): pd := the comparison. -/
def cmp (op c : Nat) (g : Guard) (pd : BitVec 3) (ra : BitVec 5) (b : RegImm) (f : Word → Word → Bool) (d : Dev) : Dev :=
  d.scalar c g (mkWord 0 false op g (opSC pd ra b)) 0 false fun d =>
    .done (d.updCore c fun x =>
      let y := match b with
        | .reg rb => x.sr rb.toNat
        | .imm i => i.signExtend 64
      x.setPred pd.toNat (f (x.sr ra.toNat) y))

/-- plog (format SP): and, or, xor, and-not of two predicates. -/
def plog (c : Nat) (g : Guard) (pd pa pb : BitVec 3) (lop : BitVec 2) (d : Dev) : Dev :=
  d.scalar c g (mkWord 0 false 0x2E g (pd.toNat * 2 ^ 46 + pa.toNat * 2 ^ 43 + pb.toNat * 2 ^ 40 + lop.toNat * 2 ^ 38)) 0 false
    fun d => .done (d.updCore c fun x =>
      let a := x.pred pa.toNat
      let b := x.pred pb.toNat
      x.setPred pd.toNat (match lop.toNat with
        | 0 => a && b
        | 1 => a || b
        | 2 => xor a b
        | _ => a && !b))

/-- Faults of a scalar access's address (R56): an undefined space, a misaligned address. -/
def smCheck (spc addr : Nat) : Option FArgs :=
  if spc = 3 then some { cause := cOPERAND }
  else if addr % 8 ≠ 0 then some { cause := cALIGN, addr := addr, aspace := spc }
  else none

/-- ld (format SM): a 64-bit load into rd. -/
def ld (c : Nat) (g : Guard) (rd ra : BitVec 5) (spc : BitVec 2) (imm : BitVec 37) (ue : Bool) (d : Dev) : Dev :=
  let w := mkWord 0 false 0x30 g (opSM rd ra spc imm)
  d.scalar c g w 0 false fun d =>
    let a := ((d.core c).sr ra.toNat + imm.signExtend 64).toNat
    match smCheck spc.toNat a with
    | some f => .fault f d
    | none =>
      match d.coreRead c 0 spc.toNat a 8 ue with
      | (.ok b, d) => .done (d.updCore c fun x => x.setSr rd.toNat (BitVec.ofNat 64 (leNat b)))
      | (.fault f, d) => .fault f d
      | (.cow v, d) => .stall (d.waitCow c 0 v)
      | (.sent, d) => .stall (d.updCore c fun x => { x with loadWait := some (rd.toNat, a), stallWord := w })
      | (.full, d) => .stall d

/-- st (format SM): a 64-bit store of rd. -/
def st (c : Nat) (g : Guard) (rd ra : BitVec 5) (spc : BitVec 2) (imm : BitVec 37) (d : Dev) : Dev :=
  let w := mkWord 0 false 0x31 g (opSM rd ra spc imm)
  d.scalar c g w 0 false fun d =>
    let a := ((d.core c).sr ra.toNat + imm.signExtend 64).toNat
    match smCheck spc.toNat a with
    | some f => .fault f d
    | none =>
      match d.coreWrite c 0 spc.toNat a (leBytes 8 ((d.core c).sr rd.toNat).toNat) with
      | (.ok _, d) => .done d
      | (.fault f, d) => .fault f d
      | (.cow v, d) => .stall (d.waitCow c 0 v)
      | (_, d) => .stall d

/-- A branch target from a word offset (format SB): counted from the branch's own address (R56, R57). -/
def relTarget (pc : BitVec 48) (off : BitVec 39) : BitVec 48 := pc + ((off.signExtend 48) <<< 3)

/-- The return address that bl and blr write (R57): after the delay slot, which may be a long-form instruction. -/
def retAddr (pc : BitVec 48) (slotLong : Bool) : Word := (pc + (if slotLong then 24 else 16)).setWidth 64

/-- b, bl, br and blr (R57). `link` names the register that receives the return address. -/
def jump (op c : Nat) (g : Guard) (opnds : Nat) (link : Option (BitVec 5)) (slotLong : Bool)
    (target : Core → BitVec 48) (d : Dev) : Dev :=
  d.scalar c g (mkWord 0 false op g opnds) 0 true fun d =>
    let x := d.core c
    let taken := d.guardOn c g
    let t := target x
    let d := match link with
      | some rd => if taken then d.updCore c fun x => x.setSr rd.toNat (retAddr x.pc slotLong) else d
      | none => d
    .jumped (d.branch c taken t)

def b (c : Nat) (g : Guard) (off : BitVec 39) (d : Dev) : Dev :=
  d.jump 0x40 c g (opSB 0 0 off) none false fun x => relTarget x.pc off
def bl (c : Nat) (g : Guard) (rd : BitVec 5) (off : BitVec 39) (slotLong : Bool) (d : Dev) : Dev :=
  d.jump 0x41 c g (opSB rd 0 off) (some rd) slotLong fun x => relTarget x.pc off
def br (c : Nat) (g : Guard) (ra : BitVec 5) (d : Dev) : Dev :=
  d.jump 0x42 c g (opSB 0 ra 0) none false fun x => (x.sr ra.toNat).setWidth 48
/-- blr with RD equal to RA is ILLEGAL (R57). -/
def blr (c : Nat) (g : Guard) (rd ra : BitVec 5) (slotLong : Bool) (d : Dev) : Dev :=
  if rd = ra then
    d.scalar c ⟨false, 0⟩ (mkWord 0 false 0x43 g (opSB rd ra 0)) 0 true fun d => .fault { cause := cILLEGAL } d
  else d.jump 0x43 c g (opSB rd ra 0) (some rd) slotLong fun x => (x.sr ra.toNat).setWidth 48

/-- loop (R58): loads its counter and activates the body, or skips it for a count of zero. `lastLong` says whether the body's
last instruction has the long form. -/
def loop (c : Nat) (g : Guard) (lc : BitVec 2) (n : LoopCnt) (e : BitVec 25) (lastLong : Bool) (d : Dev) : Dev :=
  d.scalar c g (mkWord 0 false 0x48 g (opSL lc n e)) 0 true fun d =>
    if ¬ d.guardOn c g then .jumped (d.retire c 8)
    else
      let x := d.core c
      let cnt := match n with
        | .reg ra => x.sr ra.toNat
        | .imm k => k.setWidth 64
      let last := x.pc + BitVec.ofNat 48 (8 * e.toNat)
      if x.loops.length ≥ 4 then .fault { cause := cLOOPDEPTH } d
      else if (match x.loops with | l :: _ => decide (l.last ≤ last) | [] => false) then .fault { cause := cLOOPFORM } d
      else
        let d := d.updCore c fun x => x.setLc lc.toNat cnt
        if cnt = 0 then .jumped (d.updCore c fun x => { x with pc := last + (if lastLong then 16 else 8) })
        else .jumped (d.updCore c fun x =>
          { x with loops := ⟨lc.toNat, x.pc + 8, last⟩ :: x.loops, pc := x.pc + 8 })

/-- mflc, mtlc (Table GL-5). -/
def mflc (c : Nat) (g : Guard) (rd : BitVec 5) (lc : BitVec 2) (d : Dev) : Dev :=
  d.scalar c g (mkWord 0 false 0x49 g (rd.toNat * 2 ^ 44 + lc.toNat * 2 ^ 42)) 0 false fun d =>
    .done (d.updCore c fun x => x.setSr rd.toNat (x.lcr lc.toNat))
def mtlc (c : Nat) (g : Guard) (lc : BitVec 2) (ra : BitVec 5) (d : Dev) : Dev :=
  d.scalar c g (mkWord 0 false 0x4A g (lc.toNat * 2 ^ 47 + ra.toNat * 2 ^ 42)) 0 false fun d =>
    .done (d.updCore c fun x => x.setLc lc.toNat (x.sr ra.toNat))

/-- Writes a mode field of Table GL-12; none for an unlisted field or a value out of range (R63). -/
def modeSet (x : Core) (e fld : Nat) (v : Word) : Option Core :=
  let n := v.toNat
  let g := x.eng e
  if e = 0 then
    match fld with
    | 0 => if n < 2 ^ 48 ∧ n % 8 = 0 then some { x with tvec := BitVec.ofNat 48 n } else none
    | 1 => if n ≤ 1 then some { x with fdisp := n = 1 } else none
    | _ => none
  else
    match fld with
    | 0 => if n ≤ 1 then some (x.setEng e { g with rnd := n = 1 }) else none
    | 1 => if n ≤ 1 then some (x.setEng e { g with e4m3nan := n = 1 }) else none
    | 2 => if e = 2 ∧ n ≤ 1 then some (x.setEng e { g with compat := n = 1 }) else none
    | 3 => if e = 2 ∧ n ≤ 127 then some (x.setEng e { g with vstart := n }) else none
    | _ => none

/-- Reads a mode field; none for one that the engine does not have. -/
def modeGet (x : Core) (e fld : Nat) : Option Word :=
  let g := x.eng e
  if e = 0 then
    match fld with
    | 0 => some (x.tvec.setWidth 64)
    | 1 => some (BitVec.ofNat 64 (b2n x.fdisp))
    | _ => none
  else
    match fld with
    | 0 => some (BitVec.ofNat 64 (b2n g.rnd))
    | 1 => some (BitVec.ofNat 64 (b2n g.e4m3nan))
    | 2 => if e = 2 then some (BitVec.ofNat 64 (b2n g.compat)) else none
    | 3 => if e = 2 then some (BitVec.ofNat 64 g.vstart) else none
    | _ => none

/-- Places an instruction in an engine's queue of 32, with its scalar values (R53); none when the queue is full. -/
def enqueue (c e : Nat) (w ext : Word) (d : Dev) : Option Dev :=
  let x := d.core c
  let g := x.eng e
  if 32 ≤ g.queue.length then none
  else
    let q : QEntry := ⟨x.pc, w, ext, x.sr (namesRa e (wOp w) w), x.sr (namesRb w)⟩
    some (d.setCore c (x.setEng e { g with queue := g.queue ++ [q] }))

/-- setm by the sequencer (R63): its own mode fields at once; another engine's through that engine's queue. -/
def setmSeq (c : Nat) (g : Guard) (e : BitVec 2) (fld : BitVec 6) (v : SetmVal) (d : Dev) : Dev :=
  let w := mkWord 0 false 0x50 g (opSETM e fld v)
  d.scalar c g w 0 false fun d =>
    let x := d.core c
    let val := match v with
      | .reg ra => x.sr ra.toNat
      | .imm i => i.signExtend 64
    if e = 0 then
      match modeSet x 0 fld.toNat val with
      | some x => .done (d.setCore c x)
      | none => .fault { cause := cOPERAND } d
    else
      match d.enqueue c e.toNat w 0 with
      | some d => .done d
      | none => .stall d

/-- setm at the head of an engine's queue (R63, R69): effective for the next instruction of that queue. -/
def setmEng (c e : Nat) (d : Dev) : Dev :=
  d.onHead c e 0x50 (fun q d =>
    let v := if wF q.word 40 40 = 1 then sext 35 (wF q.word 34 0) else q.ra
    match modeSet (d.core c) e (wF q.word 46 41) v with
    | some x => (d.setCore c x).engDone c e false
    | none => d.engFault c e { cause := cOPERAND })

/-- getm (R63). -/
def getm (c : Nat) (g : Guard) (rd : BitVec 5) (e : BitVec 2) (fld : BitVec 6) (d : Dev) : Dev :=
  d.scalar c g (mkWord 0 false 0x51 g (rd.toNat * 2 ^ 44 + e.toNat * 2 ^ 42 + fld.toNat * 2 ^ 36)) 0 false fun d =>
    match modeGet (d.core c) e.toNat fld.toNat with
    | some v => .done (d.updCore c fun x => x.setSr rd.toNat v)
    | none => .fault { cause := cOPERAND } d

/-- A nop of the sequencer, or at the head of an engine's queue: no effect (Tables GL-5, GL-6, GL-9). -/
def nopSeq (c : Nat) (g : Guard) (d : Dev) : Dev := d.scalar c g (mkWord 0 false 0 g 0) 0 false .done
def nopEng (c e : Nat) (d : Dev) : Dev := d.onHead c e 0x00 fun _ d => d.engDone c e false

/-- Word W of engine E's exception record (R64, mfx): EXR_CAUSE and the registers after it. -/
def exrWord (d : Dev) (c e w : Nat) : Nat :=
  match w with
  | 0 => d.rd (Reg.EXR_CAUSE_VALID c e) + 2 ^ 8 * d.rd (Reg.EXR_CAUSE_CAUSE c e) + 2 ^ 16 * d.rd (Reg.EXR_CAUSE_SUB c e)
      + 2 ^ 20 * d.rd (Reg.EXR_CAUSE_DS c e) + 2 ^ 21 * d.rd (Reg.EXR_CAUSE_LEND c e)
      + 2 ^ 22 * d.rd (Reg.EXR_CAUSE_LDEPTH c e) + 2 ^ 32 * d.rd (Reg.EXR_CAUSE_STATION c e)
      + 2 ^ 40 * d.rd (Reg.EXR_CAUSE_PVALID c e) + 2 ^ 42 * d.rd (Reg.EXR_CAUSE_ASPACE c e)
  | 1 => d.rd (Reg.EXR_PC_VAL c e)
  | 2 => d.rd (Reg.EXR_INSN_VAL c e)
  | 3 => d.rd (Reg.EXR_EXT_VAL c e)
  | 4 => d.rd (Reg.EXR_ADDR_VAL c e)
  | 5 => d.rd (Reg.EXR_PROG_VAL c e)
  | 6 => d.rd (Reg.EXR_MODE_VAL c e)
  | _ => 0

/-- mfx (Table GL-5). -/
def mfx (c : Nat) (g : Guard) (rd : BitVec 5) (e : BitVec 2) (w : BitVec 3) (d : Dev) : Dev :=
  d.scalar c g (mkWord 0 false 0x59 g (rd.toNat * 2 ^ 44 + e.toNat * 2 ^ 42 + w.toNat * 2 ^ 39)) 0 false fun d =>
    .done (d.updCore c fun x => x.setSr rd.toNat (BitVec.ofNat 64 (d.exrWord c e.toNat w.toNat)))

/-- halt (Table GL-5, R66, R327): ends the core's program; with any record VALID it ends the command as failed. -/
def halt (c : Nat) (g : Guard) (d : Dev) : Dev :=
  d.scalar c g (mkWord 0 false 0x5A g 0) 0 false fun d =>
    if d.anyValid c then .jumped (d.failStop c 0x05)
    else .jumped (d.updCore c fun x => { x with run := false, slot := none })

/-- trap (Table GL-5): raises TRAP; CODE is read in EXR_INSN. -/
def trap (c : Nat) (g : Guard) (code : BitVec 16) (d : Dev) : Dev :=
  d.scalar c g (mkWord 0 false 0x5B g code.toNat) 0 false fun d => .fault { cause := cTRAP } d

/-- stcfg (R43, R46): writes ra to ST_CFG of a FIFO station; ST must lie in 16 to 63. -/
def stcfg (c : Nat) (g : Guard) (n : BitVec 6) (ra : BitVec 5) (d : Dev) : Dev :=
  d.scalar c g (mkWord 0 false 0x60 g (n.toNat * 2 ^ 43 + ra.toNat * 2 ^ 38)) 0 false fun d =>
    if n.toNat < 16 then .fault { cause := cOPERAND } d
    else .done (d.stCfgWrite c n.toNat ((d.core c).sr ra.toNat).toNat)

/-- Whether an instruction that has begun holds FIFO n resolved, in any engine (ST_STAT.IDLE). -/
def stIdle (d : Dev) (c n : Nat) : Bool :=
  !([1, 2, 3].any fun e => (d.eng c e).begun && (d.eng c e).resolved.contains n)
    && !((d.core c).vx.ins.any fun t => t.fifo = n) && !((d.core c).vx.outs.any fun t => t.fifo = n)

/-- ST_STAT's value (R46): its live fields from the FIFO and the engines, its event bits as stored. -/
def stStat (d : Dev) (c n : Nat) : Nat :=
  let f := (d.core c).fifo n
  f.tiles.length + 2 ^ 8 * (if d.fifoOn c n then f.head else 0)
    + 2 ^ 16 * b2n ([1, 2, 3].any fun e => (d.eng c e).stall = some (n + 64))
    + 2 ^ 17 * b2n ([1, 2, 3].any fun e => (d.eng c e).stall = some n)
    + 2 ^ 18 * b2n (d.stIdle c n)
    + 2 ^ 32 * d.rd (Reg.ST_STAT_EMPTY_EV c n) + 2 ^ 33 * d.rd (Reg.ST_STAT_FULL_EV c n)
    + 2 ^ 34 * d.rd (Reg.ST_STAT_CFGERR c n) + 2 ^ 36 * d.rd (Reg.ST_STAT_CFGERR_CODE c n)

/-- ststat (Table GL-5). -/
def ststat (c : Nat) (g : Guard) (rd : BitVec 5) (n : BitVec 6) (d : Dev) : Dev :=
  d.scalar c g (mkWord 0 false 0x61 g (rd.toNat * 2 ^ 44 + n.toNat * 2 ^ 38)) 0 false fun d =>
    if n.toNat < 16 then .fault { cause := cOPERAND } d
    else .done (d.updCore c fun x => x.setSr rd.toNat (BitVec.ofNat 64 (d.stStat c n.toNat)))

/-- ENGINE_INSTRUCTION_DISPATCH (R47 to R50, R53): a malformed word raises ILLEGAL; a well-formed engine instruction whose guard
is true enters its engine's queue with its scalar values, once the queue has room; a false guard dispatches nothing. A
well-formed word of the sequencer's own engine is executed by that instruction's command and does nothing here. -/
def dispatch (c : Nat) (w ext : Word) (d : Dev) : Dev :=
  let g : Guard := ⟨wPn w, BitVec.ofNat 3 (wPr w)⟩
  if ¬ legalWord w ext then
    d.scalar c ⟨false, 0⟩ w (if wLong w then ext else 0) false fun d => .fault { cause := cILLEGAL } d
  else if wEng w = 0 then d
  else
    d.scalar c g w (if wLong w then ext else 0) false fun d =>
      match d.enqueue c (wEng w) w (if wLong w then ext else 0) with
      | some d => .done d
      | none => .stall d

/-! Traps, stops and resumes. -/

/-- rtx (R66, R68, R70): clears and restarts the engines of RES, ends the handler and continues at TRET; a trap is entered
again at once if a record is still VALID (R65). -/
def rtx (c : Nat) (g : Guard) (res skp : BitVec 3) (sks : Bool) (d : Dev) : Dev :=
  let w := mkWord 0 false 0x58 g (res.toNat * 2 ^ 45 + skp.toNat * 2 ^ 42 + b2n sks * 2 ^ 41)
  d.scalar c g w 0 false fun d =>
    let tret := BitVec.ofNat 48 (d.rd (Reg.SQ_TRAP_TRET c))
    let had := d.valid c 0
    let d := d.restartMask c (res.toNat * 2) (skp.toNat * 2)
    let d := (d.clrF (Reg.SQ_TRAP_INTRAP c)).seqContinue c tret had sks
    .jumped (d.retrap c)

/-- TRAP_ENTRY (R65): after its current instruction the sequencer enters the handler for an engine's record. -/
def trapEntry (c : Nat) (d : Dev) : Dev :=
  if d.trapDue c ∧ ¬ (d.core c).e0.stopped ∧ (d.core c).obj.isNone ∧ (d.core c).loadWait.isNone
      ∧ (d.core c).e0.wait.isNone ∧ (d.core c).e0.releasing.isNone
  then d.enterTrap c (d.core c).pc else d

/-- Stalled tests are evaluated again by engines that go on. -/
def retest (c : Nat) (d : Dev) : Dev :=
  [0, 1, 2, 3].foldl (fun d e =>
    match (d.eng c e).wait with
    | some t => d.grantTests c t.flag
    | none => d) d

/-- Whether a core's part has ended in failure: nothing of it restarts (R67). -/
def partFailed (d : Dev) (c : Nat) : Bool := match (d.core c).part with | .failed _ => true | _ => false

/-- A write to SQ_RESUME (R67): as rtx; while INTRAP = 1 it acts on the other engines only; with no record VALID, or after the part has
ended, it has no effect. -/
def sqResume (c res skp : Nat) (d : Dev) : Dev :=
  if ¬ d.anyValid c ∨ d.partFailed c then d
  else
    let d := d.restartMask c res skp
    if d.inTrap c then d
    else
      let had := d.valid c 0
      let d := if bit res 0 ∧ had then
        d.seqContinue c (BitVec.ofNat 48 (d.rd (Reg.EXR_PC_VAL c 0))) true (bit skp 0) else d
      (d.releaseFaultStop c).retest c

/-- The stop source (Table IC-1, e = 2): raised when every engine has stopped under a stop request (R73). -/
def stoppedIrq (c : Nat) (d : Dev) : Dev :=
  let x := d.core c
  if x.stopReq ≠ 0 ∧ x.e0.stopped ∧ x.e1.stopped ∧ x.e2.stopped ∧ x.e3.stopped then d.irqEvent (1536 + 16 * c + 2) else d

/-- Asks every engine of a core to stop at its next boundary, for the cause whose bit is given (R73). -/
def stopReq (c why : Nat) (d : Dev) : Dev :=
  d.updCore c fun x => { x with stopReq := Nat.lor x.stopReq why }

/-- Withdraws a stop request; with none left the engines continue, and stalled tests are evaluated again. -/
def stopEnd (c why : Nat) (d : Dev) : Dev :=
  let x := d.core c
  let r := Nat.land x.stopReq (255 - why)
  let d := d.setCore c { x with stopReq := r }
  if r ≠ 0 ∨ x.faultStop then d
  else
    let d := d.updCore c fun x =>
      { x with e0 := { x.e0 with stopped := false }, e1 := { x.e1 with stopped := false },
               e2 := { x.e2 with stopped := false }, e3 := { x.e3 with stopped := false } }
    d.retest c

/-- ENGINE_STOP (R54, R67, R73): an engine asked to stop, or whose core stopped for a fault, stops at its boundary, its context
readable with its progress in EXR_PROG. -/
def engineStop (c e : Nat) (d : Dev) : Dev :=
  if ¬ (d.stopAsked c && d.atBoundary c e && !(d.eng c e).stopped) then d
  else
    let pr := d.progOf c e
    let d := (d.wr (Reg.EXR_CAUSE_PVALID c e) (b2n pr.1)).wr (Reg.EXR_PROG_VAL c e) pr.2
    ((d.updEng c e fun g => { g with stopped := true }).traceEng c e teSTOP pr.2).stoppedIrq c

end Sys2Proof.Machine.Dev
end

