-- ==== Sys2Proof/Machine/Matrix.lean ====
section
/-!
DEFINITION. The matrix array (R76 to R101): the pass with its ladder, the segment, collapse and drain with their checks, the
drain, preload and transpose instructions, and the accumulator read.
-/
namespace Sys2Proof.Machine

/-- The groups of Table MX-1. -/
inductive MxGroup where
  | f32 | f16 | f8 | f6 | f4 | i8 | i4 | other
  deriving DecidableEq, Repr

/-- The group of a format code (Tables MX-1 and GL-3). -/
def mxGroup : Nat → MxGroup
  | 0x00 => .f32
  | 0x01 => .f16
  | 0x02 => .f16
  | 0x03 => .f8
  | 0x04 => .f8
  | 0x05 => .f8
  | 0x06 => .f8
  | 0x07 => .f6
  | 0x08 => .f6
  | 0x09 => .f4
  | 0x0A => .f8
  | 0x0B => .f8
  | 0x0C => .f6
  | 0x0D => .f4
  | 0x0E => .i8
  | 0x0F => .i8
  | 0x10 => .i4
  | 0x11 => .i4
  | _ => .other

def MxGroup.small : MxGroup → Bool
  | .f8 => true
  | .f6 => true
  | .f4 => true
  | _ => false

/-- Whether AUTO may resolve to 16 for a pair: F8 with F8, or I8 with I8 (R22). -/
def narrowPair (a b : MxGroup) : Bool := (a = .f8 && b = .f8) || (a = .i8 && b = .i8)

/-- T and the ladder format of an accepted pair (Table MX-1); `narrow` for AW resolved to 16. -/
def mxPair (a b : MxGroup) (narrow : Bool) : Option (Nat × SlotTag) :=
  if narrow then
    (if a = .f8 ∧ b = .f8 then some (16, .f16) else if a = .i8 ∧ b = .i8 then some (16, .i16) else none)
  else if a = .f32 ∧ b = .f32 then some (1, .f32)
  else if a = .f16 ∧ b = .f16 then some (4, .f32)
  else if a.small && b.small then (if a = .f4 ∧ b = .f4 then some (16, .f32) else some (8, .f32))
  else if a = .i4 ∧ b = .i4 then some (16, .i32)
  else if (a = .i8 ∨ a = .i4) ∧ (b = .i8 ∨ b = .i4) then some (8, .i32)
  else none

def SlotTag.isInt : SlotTag → Bool
  | .i32 => true
  | .i16 => true
  | _ => false

/-- The width of an integer ladder. -/
def SlotTag.width : SlotTag → Nat
  | .i16 => 16
  | _ => 32

/-- An integer brought into w signed bits, saturated or wrapped, and whether it was out of range (R80, R111). -/
def clipInt (w : Nat) (wrap : Bool) (x : Int) : Int × Bool :=
  if -(2 ^ (w - 1) : Int) ≤ x ∧ x < 2 ^ (w - 1) then (x, false)
  else if wrap then ((x + 2 ^ (w - 1)) % 2 ^ w - 2 ^ (w - 1), true)
  else (if x < 0 then -(2 ^ (w - 1)) else 2 ^ (w - 1) - 1, true)

/-- The exact value a cell holds under its tag. -/
def cellNum (t : SlotTag) (x : Lane) : Num :=
  match t with
  | .f16 => layFP16.decode x.toNat
  | .i32 => numOfI x.toInt
  | .i16 => numOfI x.toInt
  | _ => f32 x

/-- An exact value rounded to a floating-point ladder format (R80). -/
def accRound (t : SlotTag) (v : Num) : Lane :=
  match t with
  | .f16 => BitVec.ofNat 32 (layFP16.encode .rne false v).1
  | _ => toF32 v

/-- One addition in the ladder format (R81, R82). -/
def cellAdd (t : SlotTag) (wrap : Bool) (a b : Cell) : Cell :=
  if t.isInt then
    let r := clipInt t.width wrap (a.1.toInt + b.1.toInt)
    (BitVec.ofInt 32 r.1, a.2 || b.2 || r.2)
  else (accRound t ((cellNum t a.1).add (cellNum t b.1)), false)

/-- The exact sum of the products of one chunk: +0 for an exact zero unless every product is -0 (R80). -/
def sumNum : List Num → Num
  | [] => .fin false 0 0
  | v :: r => r.foldl Num.add v

/-- Cell (i, j)'s exact chunk q of T terms (R77, R80). -/
def chunkNum (fa fb : Fmt) (a b : List Byte) (t q i j : Nat) : Num :=
  sumNum ((List.range t).map fun k => (tileVal fa a (64 * i + t * q + k)).mul (tileVal fb b (64 * j + t * q + k)))

/-- Element n of an integer tile. -/
def elemInt (f : Fmt) (bytes : List Byte) (n : Nat) : Int :=
  match f with
  | .int w s => intOf w s (elemAt w bytes n)
  | _ => 0

def chunkInt (fa fb : Fmt) (a b : List Byte) (t q i j : Nat) : Int :=
  (List.range t).foldl (fun s k => s + elemInt fa a (64 * i + t * q + k) * elemInt fb b (64 * j + t * q + k)) 0

/-- Chunk q of a tile pair as 4,096 cells, row by row (R76, R80). -/
def chunkCells (tag : SlotTag) (wrap : Bool) (fa fb : Fmt) (a b : List Byte) (t q : Nat) : List Cell :=
  (List.range 4096).map fun n =>
    if tag.isInt then
      let r := clipInt tag.width wrap (chunkInt fa fb a b t q (n / 64) (n % 64))
      (BitVec.ofInt 32 r.1, r.2)
    else (accRound tag (chunkNum fa fb a b t q (n / 64) (n % 64)), false)

/-- Row and column comparisons skipped in chunk q for a tree value that is not finite (R93). -/
def chunkSkips (tag : SlotTag) (fa fb : Fmt) (a b : List Byte) (t q : Nat) : Nat :=
  if tag.isInt then 0
  else
    let bad (i j : Nat) : Bool := (chunkNum fa fb a b t q i j).nonfinite
    ((List.range 64).filter fun i => (List.range 64).any fun j => bad i j).length
      + ((List.range 64).filter fun j => (List.range 64).any fun i => bad i j).length

/-- A chunk enters the ladder from rung i upward (R81). -/
def ladEnter (tag : SlotTag) (wrap : Bool) : Nat → Nat → List Cell → Ladder → Ladder
  | 0, i, x, l => tabPut [] i x l
  | n + 1, i, x, l =>
    match tabGet [] i l with
    | [] => tabPut [] i x l
    | r => ladEnter tag wrap n (i + 1) (List.zipWith (cellAdd tag wrap) r x) (tabPut [] i [] l)

/-- The collapse of a ladder (R82): rung by rung from rung 0, then the carry. -/
def ladCollapse (tag : SlotTag) (wrap : Bool) (l : Ladder) : List Cell :=
  (List.range 13).foldl (fun t i =>
    match tabGet [] i l with
    | [] => t
    | r => if t.isEmpty then r else List.zipWith (cellAdd tag wrap) r t) []

/-- Which rungs of a ladder are occupied (MX_LADDER). -/
def ladOcc (l : Ladder) : Nat := (List.range 12).foldl (fun n i => if (tabGet [] i l).isEmpty then n else n + 2 ^ i) 0

def Mx.lad (m : Mx) (bank : Nat) : Ladder := if bank = 0 then m.lad0 else m.lad1
def Mx.setLad (m : Mx) (bank : Nat) (l : Ladder) : Mx := if bank = 0 then { m with lad0 := l } else { m with lad1 := l }
def Mx.tag (m : Mx) (s : Nat) : SlotTag := tabGet .untagged s m.tags
/-- A slot's elements; a slot never written holds zeros (R83). -/
def Mx.slot (m : Mx) (s : Nat) : List Cell :=
  match tabGet [] s m.slots with
  | [] => List.replicate 4096 (0, false)
  | l => l
def Mx.setSlot (m : Mx) (s : Nat) (l : List Cell) (t : SlotTag) (wrap : Bool) : Mx :=
  { m with slots := tabPut [] s l m.slots, tags := tabPut .untagged s t m.tags, slotWrap := tabPut false s wrap m.slotWrap }

/-- The outcome of the array's checks at a segment, collapse or drain (R92, R93), and for a mismatch its location. -/
inductive ChkOut where
  | clean
  | mismatch (row col : BitVec 6) (kind : BitVec 3) (locv : Bool)
  deriving DecidableEq, Repr

/-- Formats that a drain accepts for a tag (R85). -/
def drainFmts (t : SlotTag) : List Nat :=
  match t with
  | .untagged => []
  | .f32 => [0x00, 0x01, 0x02, 0x03, 0x04, 0x05, 0x06, 0x0B]
  | .f16 => [0x00, 0x01, 0x02, 0x03, 0x04, 0x05, 0x06, 0x0B]
  | _ => [0x13, 0x12, 0x0E]

/-- The format code of a slot's own format. -/
def SlotTag.code : SlotTag → Nat
  | .f16 => 0x02
  | .i32 => 0x13
  | .i16 => 0x12
  | _ => 0x00

/-- Whether a drain can discard bits by rounding, and so rounds stochastically under RND = 1 (R110). -/
def drainRounds (t : SlotTag) (fo : Nat) : Bool := !t.isInt && fo ≠ 0 && !(t = .f16 && fo = 2)

/-- A slot drained to a format (R85, R111, R116): the tile's bytes and the count of every element. -/
def drainTile (t : SlotTag) (wrap : Bool) (fo : Fmt) (rm : Nat → Rnd) (e4nan : Bool) (l : List Cell) : List Byte × List GCls :=
  match fo with
  | .int w _ =>
    let r := l.map fun x => (clipInt w wrap x.1.toInt, x.2)
    (leBytes (512 * w) (packElems w (r.map fun x => (BitVec.ofInt 32 x.1.1).toNat)),
      r.map fun x => if x.1.2 || x.2 then .sat else .none)
  | _ => encodeTile fo rm e4nan (l.map fun x => cellNum t x.1)

/-- A row's maximum and balanced-tree sum in a side record (R86). -/
def sideMax (t : SlotTag) (l : List Cell) : Lane :=
  if t.isInt then BitVec.ofInt 32 (l.foldl (fun m x => if m < x.1.toInt then x.1.toInt else m) (-2147483648))
  else (l.map fun x => toF32 (cellNum t x.1)).foldl fMax 0xFF800000
def sideSum (t : SlotTag) (wrap : Bool) (l : List Cell) : Lane :=
  if t.isInt then tree64 (fun a b => BitVec.ofInt 32 (clipInt 32 wrap (a.toInt + b.toInt)).1) 0 (l.map Prod.fst)
  else tree64 fAdd 0 (l.map fun x => toF32 (cellNum t x.1))

/-- The halves of a side record, 64 rows each (R86). -/
def sideHalf (f : List Cell → Lane) (l : List Cell) : List Byte :=
  (List.range 64).flatMap fun i => leBytes 4 (f ((l.drop (64 * i)).take 64)).toNat

namespace Dev

def updMx (c : Nat) (f : Mx → Mx) (d : Dev) : Dev := d.updCore c fun x => { x with mx := f x.mx }
def updPass (c : Nat) (f : Pass → Pass) (d : Dev) : Dev := d.updMx c fun m => { m with pass := m.pass.map f }

/-- A FUSE that its ring cannot hold (R87). -/
def fuseBad (d : Dev) (c fuse : Nat) : Bool :=
  fuse ≠ 0 && (d.rd (Reg.MX_SIDE_CNT c) = 0 || 16384 < d.rd (Reg.MX_SIDE_BASE c) + d.rd (Reg.MX_SIDE_CNT c))

/-- Whether the economy profile is selected (R21, R22). -/
def economy (d : Dev) : Bool := d.rd Reg.PWR_PROFILE_CUR = 2

/-- An MMA's operand checks before any pop (R22, R59, R78, R79, R83, R87): the pass it starts, or none for OPERAND. -/
def mmaPass (d : Dev) (c : Nat) (q : QEntry) : Option Pass :=
  let w := q.word
  let fa := wF w 32 28
  let fb := wF w 27 23
  let ga := mxGroup fa
  let gb := mxGroup fb
  let aw := wF w 21 20
  let narrow := aw = 1 || (aw = 2 && d.economy && narrowPair ga gb)
  let k := if wLong w then bits q.ext.toNat 23 0 else 64
  let slot := wF w 36 33
  match mxPair ga gb narrow with
  | none => none
  | some (t, tag) =>
    if aw = 3 ∨ k = 0 ∨ k % 64 ≠ 0 ∨ 4096 * t < k then none
    else if wF w 22 22 = 1 ∧ (d.core c).mx.tag slot ≠ .untagged ∧ (d.core c).mx.tag slot ≠ tag then none
    else if d.fuseBad c (wF w 18 17) then none
    else some { a := wF w 48 43, b := wF w 42 37, slot := slot, fa := fa, fb := fb, acc := wF w 22 22 = 1,
                wrap := wF w 19 19 = 1, fuse := wF w 18 17, drn := wF w 16 16 = 1, out := 0, k := k, terms := t, tag := tag,
                popped := 0, replay := [], shadow := [], phase := .broadcast }

/-- Begins a pass: its operands checked, then its stations resolved (R35, R59). -/
def mmaBegin (c : Nat) (q : QEntry) (d : Dev) : Dev :=
  match d.mmaPass c q with
  | none => d.engFault c 1 { cause := cOPERAND }
  | some p =>
    match d.resolveSt c true (fun n => n ≤ 2) p.a, d.resolveSt c true (fun n => n ≤ 2) p.b,
        (if p.drn then d.resolveSt c false (fun n => n = 3) 3 else .ok 0) with
    | .error k, _, _ => d.stFault c 1 p.a k
    | _, .error k, _ => d.stFault c 1 p.b k
    | _, _, .error k => d.stFault c 1 3 k
    | .ok a, .ok b, .ok o =>
      (d.begin c 1 (if p.drn then [a, b, o] else [a, b])).updMx c fun m =>
        { m with pass := some { p with a := a, b := b, out := o, shadow := m.lad (p.slot / 8) } }

/-- One tile pair enters the bank's ladder chunk by chunk (R81), with the skipped comparisons counted (R93). -/
def mmaPair (c : Nat) (p : Pass) (a b : List Byte) (d : Dev) : Dev :=
  match fmtOf p.fa, fmtOf p.fb with
  | some fa, some fb =>
    (List.range (64 / p.terms)).foldl (fun d q =>
      (d.incSat (Reg.MX_CHKSKIP_SKIP c) (chunkSkips p.tag fa fb a b p.terms q)).updMx c fun m =>
        m.setLad (p.slot / 8) (ladEnter p.tag p.wrap 12 0 (chunkCells p.tag p.wrap fa fb a b p.terms q) (m.lad (p.slot / 8)))) d
  | _, _ => d

/-- Pops and broadcasts tile pairs up to the next 256-of-K boundary or the last pair (R72, R77, R94), as far as tiles are
present; a missing tile stalls the engine (R37). -/
def mmaRun (c : Nat) : Nat → Dev → Dev
  | 0, d => d
  | n + 1, d =>
    match (d.core c).mx.pass with
    | none => d
    | some p =>
      if p.phase ≠ .broadcast then d
      else
        let la := (fmtOf p.fa).map Fmt.tileBytes
        let lb := (fmtOf p.fb).map Fmt.tileBytes
        if ¬ d.canPop c p.a then d.stallOn c 1 p.a false
        else if ¬ d.canPop c p.b ∨ (p.a = p.b ∧ d.occ c p.a < 2) then d.stallOn c 1 p.b false
        else if d.headLen c p.a ≠ la then d.stFault c 1 p.a .tileSize
        else if p.a ≠ p.b ∧ d.headLen c p.b ≠ lb then d.stFault c 1 p.b .tileSize
        else if p.a = p.b ∧ (((d.core c).fifo p.b).tiles.getD 1 ⟨0, false⟩).len ≠ lb.getD 0 then d.stFault c 1 p.b .tileSize
        else
          let (ta, d) := d.pop c p.a
          let (tb, d) := d.pop c p.b
          let a := (ta.map Prod.fst).getD []
          let b := (tb.map Prod.fst).getD []
          let d := (d.mmaPair c p a b).updEng c 1 fun g => { g with stall := none }
          let n' := p.popped + 1
          let ends := n' % 4 = 0 || n' = p.k / 64
          let d := d.updPass c fun p =>
            { p with popped := n', replay := p.replay ++ [(a, b)], phase := if ends then .check else .broadcast }
          mmaRun c n d

/-- MMA (R59, R76 to R84, R94): begins the pass, or continues it, to its next boundary. -/
def mma (c : Nat) (d : Dev) : Dev :=
  d.onHead c 1 0x01 fun q d =>
    let d := if (d.core c).mx.pass.isNone then d.mmaBegin c q else d
    if d.valid c 1 then d else d.mmaRun c 4

/-- A persistent mismatch (R94, R95): the count, the location, the engine stopped, the core's error recorded. -/
def mxPersist (c : Nat) (row col : BitVec 6) (kind : BitVec 3) (locv : Bool) (d : Dev) : Dev :=
  let d := ((d.incSat (Reg.MX_CHKSKIP_PERSIST c) 1).wr (Reg.MX_CHKLOC_ROW c) row.toNat).wr (Reg.MX_CHKLOC_COL c) col.toNat
  let d := (d.wr (Reg.MX_CHKLOC_KIND c) kind.toNat).wr (Reg.MX_CHKLOC_LOCV c) (b2n locv)
  let d := (d.updMx c fun m => { m with chk := .persistent }).updEng c 1 fun g => { g with stopped := true }
  d.err (32 + c / 18)
    { cls := 0x10, part := d.coreOwner c, unit := if (d.core c).onSpare then 18 else c % 18,
      info := row.toNat + 2 ^ 8 * col.toNat + 2 ^ 16 * kind.toNat + 2 ^ 19 * b2n locv }

/-- One outcome of the checks through Table MX-3: `next` continues a clean phase, `again` restores and repeats it. -/
def chkStep (c : Nat) (o : ChkOut) (next again : Dev → Dev) (d : Dev) : Dev :=
  match o, (d.core c).mx.chk with
  | _, .persistent => d
  | .clean, _ => next (d.updMx c fun m => { m with chk := .try0 })
  | .mismatch .., .try0 =>
    again (((d.incSat (Reg.MX_CHKCNT_MISMATCH c) 1).incSat (Reg.MX_CHKCNT_RETRY c) 1).updMx c fun m => { m with chk := .try1 })
  | .mismatch .., .try1 => again ((d.incSat (Reg.MX_CHKCNT_RETRY c) 1).updMx c fun m => { m with chk := .try2 })
  | .mismatch r k n l, .try2 => d.mxPersist c r k n l

/-- Broadcasts a segment again from the replay buffer, the ladder restored from its shadow (R94). -/
def replaySegment (c : Nat) (d : Dev) : Dev :=
  match (d.core c).mx.pass with
  | none => d
  | some p =>
    let d := d.updMx c fun m => m.setLad (p.slot / 8) p.shadow
    p.replay.foldl (fun d t => d.mmaPair c p t.1 t.2) d

/-- Runs `f` for the pass at the head of the matrix queue when it stands in the given phase. -/
def onPhase (c : Nat) (ph : PassPhase) (f : Pass → Dev → Dev) (d : Dev) : Dev :=
  d.onHead c 1 0x01 fun _ d =>
    match (d.core c).mx.pass with
    | some p => if p.phase = ph then f p d else d
    | none => d

/-- MMA_SEGMENT_END (R92 to R97): the segment's checks resolve. -/
def mmaSegmentEnd (c : Nat) (o : ChkOut) (d : Dev) : Dev :=
  d.onPhase c .check fun p d =>
    d.chkStep c o
      (fun d => d.updMx c fun m =>
        { m with pass := some { p with replay := [], shadow := m.lad (p.slot / 8),
                                       phase := if p.popped = p.k / 64 then .collapse else .broadcast } })
      (fun d => d.replaySegment c)

/-- The slot that a collapse leaves (R82). -/
def collapsed (m : Mx) (p : Pass) : List Cell :=
  let t := ladCollapse p.tag p.wrap (m.lad (p.slot / 8))
  if p.acc then List.zipWith (cellAdd p.tag p.wrap) (m.slot p.slot) t else t

/-- COLLAPSE (R82, R83, R90): after the last chunk, the ladder collapses into the slot. -/
def collapse (c : Nat) (o : ChkOut) (d : Dev) : Dev :=
  d.onPhase c .collapse fun p d =>
    d.chkStep c o
      (fun d =>
        let d := d.updMx c fun m =>
          (m.setSlot p.slot (collapsed m p) p.tag p.wrap).setLad (p.slot / 8) []
        if p.drn then d.updPass c fun p => { p with phase := .drain }
        else (d.updMx c fun m => { m with pass := none }).engDone c 1 false)
      (fun d => d)

/-- SIDE_RECORD_WRITE (R86, R87): the record at 512 * (BASE + NEXT), and NEXT advances. A record whose ring was rewritten while
the engine was not idle goes to an unpredictable place of the working tile space (R98). -/
def sideRecord (c s fuse : Nat) (d : Dev) : Dev :=
  if fuse = 0 then d
  else
    let m := (d.core c).mx
    let (fr, d) := if m.sideLoose then d.fresh else (d.rd (Reg.MX_SIDE_BASE c) + d.rd (Reg.MX_SIDE_NEXT c), d)
    let a := 512 * (fr % 16384)
    let l := m.slot s
    let t := m.tag s
    let d := if bit fuse 0 then d.tileWrite c a (sideHalf (sideMax t) l) else d
    let d := if bit fuse 1 then d.tileWrite c (a + 256) (sideHalf (sideSum t (tabGet false s m.slotWrap)) l) else d
    (d.wr (Reg.MX_SIDE_NEXT c) ((d.rd (Reg.MX_SIDE_NEXT c) + 1) % max 1 (d.rd (Reg.MX_SIDE_CNT c)))).updMx c fun m =>
      { m with sideLoose := m.sideLoose && decide (1 < (d.eng c 1).queue.length) }

/-- The drain of a slot to FIFO o in a format, once its checks are clean (R85, R86, R116): counts, push, side record. -/
def drainTo (c s n : Nat) (fo fuse st : Nat) (done : Dev → Dev) (d : Dev) : Dev :=
  match fmtOf fo with
  | none => d.engFault c 1 { cause := cOPERAND }
  | some f =>
    if ¬ d.canPush c n then d.stallOn c 1 n true
    else if d.tooBig c n f.tileBytes then d.stFault c 1 st .tileSize
    else
      let m := (d.core c).mx
      let r := drainTile (m.tag s) (tabGet false s m.slotWrap) f (d.rndOf c 1) (d.eng c 1).e4m3nan (m.slot s)
      done (((d.gaugeCount c 1 r.2).push c n fo r.1 (marks r.2)).sideRecord c s fuse)

/-- DRAIN (R85, R86, R90): the drain of a pass with DRN = 1, in the slot's own format. -/
def drain (c : Nat) (o : ChkOut) (d : Dev) : Dev :=
  d.onPhase c .drain fun p d =>
    d.chkStep c o
      (fun d => d.drainTo c p.slot p.out p.tag.code p.fuse 3 fun d =>
        (d.updMx c fun m => { m with pass := none }).engDone c 1 false)
      (fun d => d)

/-- mdrain (R59, R85, R86). -/
def mdrain (c : Nat) (o : ChkOut) (d : Dev) : Dev :=
  d.onHead c 1 0x02 fun q d =>
    let s := wF q.word 36 33
    let fo := wF q.word 32 28
    let st := wF q.word 48 43
    let t := (d.core c).mx.tag s
    if ¬ (d.eng c 1).begun ∧ (¬ (drainFmts t).contains fo ∨ d.fuseBad c (wF q.word 18 17)) then d.engFault c 1 { cause := cOPERAND }
    else
      match d.resolveHeld c 1 0 false (fun n => n = 3) st with
      | .error k => d.stFault c 1 st k
      | .ok n =>
        (d.begin c 1 [n]).chkStep c o
          (fun d => d.drainTo c s n fo (wF q.word 18 17) st fun d =>
            d.engDone c 1 ((d.eng c 1).rnd && drainRounds t fo))
          (fun d => d)

/-- Pops one tile for an instruction of an engine: stalls without a tile, faults when its length is not the format's (R37, R41). -/
def popTile (c e n st : Nat) (f : Fmt) (go : List Byte → Bool → Dev → Dev) (d : Dev) : Dev :=
  if ¬ d.canPop c n then d.stallOn c e n false
  else if d.headLen c n ≠ some f.tileBytes then d.stFault c e st .tileSize
  else
    match d.pop c n with
    | (some (b, m), d) => go b m d
    | (none, d) => d

/-- The tag that mpre gives a slot (R88). -/
def mpreTag : Nat → Option SlotTag
  | 0x00 => some .f32
  | 0x01 => some .f32
  | 0x02 => some .f16
  | 0x13 => some .i32
  | 0x12 => some .i16
  | _ => none

/-- An element field widened exactly into a cell (R88). -/
def mpreCell (fi : Nat) (x : Nat) : Lane :=
  match fi with
  | 0x01 => BitVec.ofNat 32 (x * 65536)
  | 0x12 => BitVec.ofInt 32 (intOf 16 true x)
  | _ => BitVec.ofNat 32 x

/-- mpre (R88). -/
def mpre (c : Nat) (d : Dev) : Dev :=
  d.onHead c 1 0x03 fun q d =>
    let fi := wF q.word 32 28
    let s := wF q.word 36 33
    let st := wF q.word 48 43
    match mpreTag fi, fmtOf fi with
    | some t, some f =>
      match d.resolveHeld c 1 0 true (fun n => n = 2) st with
      | .error k => d.stFault c 1 st k
      | .ok n =>
        (d.begin c 1 [n]).popTile c 1 n st f fun b _ d =>
          (d.updMx c fun m => m.setSlot s ((List.range 4096).map fun i => (mpreCell fi (elemAt f.bits b i), false)) t false).engDone c 1 false
    | _, _ => d.engFault c 1 { cause := cOPERAND }

/-- The transpose of a tile of a plain format (R89). -/
def transposed (f : Fmt) (b : List Byte) : List Byte :=
  leBytes f.tileBytes (packElems f.bits ((List.range 4096).map fun n => elemAt f.bits b (64 * (n % 64) + n / 64)))

/-- mtrans (R89): the tile is popped once the transpose can be pushed. -/
def mtrans (c : Nat) (d : Dev) : Dev :=
  d.onHead c 1 0x04 fun q d =>
    let fc := wF q.word 32 28
    let src := wF q.word 48 43
    let dst := wF q.word 42 37
    match fmtOf fc with
    | none => d.engFault c 1 { cause := cOPERAND }
    | some f =>
      if f.scaleBytes ≠ 0 then d.engFault c 1 { cause := cOPERAND }
      else
        match d.resolveHeld c 1 0 true (fun n => n ≤ 2) src, d.resolveHeld c 1 1 false (fun n => n = 3) dst with
        | .error k, _ => d.stFault c 1 src k
        | _, .error k => d.stFault c 1 dst k
        | .ok n, .ok o =>
          let d := d.begin c 1 [n, o]
          if ¬ d.canPush c o then d.stallOn c 1 o true
          else if d.tooBig c o f.tileBytes then d.stFault c 1 dst .tileSize
          else d.popTile c 1 n src f fun b _ d => (d.push c o fc (transposed f b) false).engDone c 1 false

/-- A cell as MX_ACCDATA returns it: FP16 widened exactly (R99). -/
def accLane (t : SlotTag) (x : Lane) : Nat := (if t = .f16 then toF32 (layFP16.decode x.toNat) else x).toNat

/-- MX_ACCDATA_n's value in debug mode (R99): two elements of the selected row of a slot or rung. -/
def accData (d : Dev) (c n : Nat) : Nat :=
  let m := (d.core c).mx
  let row := d.rd (Reg.MX_ACCSEL_ROW c)
  let s := d.rd (Reg.MX_ACCSEL_SLOT c)
  let (t, l) : SlotTag × List Cell :=
    match d.rd (Reg.MX_ACCSEL_SRC c) with
    | 0 => (m.tag s, m.slot s)
    | 1 =>
      if 12 ≤ d.rd (Reg.MX_ACCSEL_RUNG c) then (.f32, [])
      else ((m.pass.map Pass.tag).getD .f32, tabGet [] (d.rd (Reg.MX_ACCSEL_RUNG c)) (m.lad (d.rd (Reg.MX_ACCSEL_BANK c))))
    | _ => (.f32, [])
  let el (i : Nat) : Nat := accLane t (l.getD (64 * row + i) (0, false)).1
  el (2 * n) + 2 ^ 32 * el (2 * n + 1)

/-- A read of MX_ACCDATA_n (R99): zero outside debug mode, with ACCDENY set. -/
def accRead (c n : Nat) (d : Dev) : Nat × Dev :=
  if (d.core c).inDebug then (d.accData c n, d) else (0, d.setF (Reg.MX_STAT_ACCDENY c))

/-- ACCUMULATOR_READ: the read as a command of its own; the value goes to the requester. -/
def accumulatorRead (r : Requester) (c n : Nat) (d : Dev) : Dev :=
  let x := d.accRead c n
  x.2.emit (.read r.num (BitVec.ofNat 64 x.1))

end Dev
end Sys2Proof.Machine
end

