-- ==== Sys2Proof/Machine/Vector.lean ====
section
/-!
DEFINITION. The vector engine (R129 to R139): lane arithmetic, conversion, loads and stores, gather and scatter, the tile
accesses and the reductions. Each command acts on the instruction at the head of the vector queue.
-/
namespace Sys2Proof.Machine

/-- How an FP32 operation acts on two lanes, with the old lane for vfma (R130). -/
inductive VOp where
  | add | sub | mul | fma | min | max | and | or | xor | shl | shr
  deriving DecidableEq, Repr

/-- An integer lane as a number, by T (R129). -/
def laneInt (t : Nat) (x : Lane) : Int := if t = 1 then x.toInt else x.toNat

/-- One lane of formats' lane arithmetic (R129 to R131). -/
def VOp.lane (o : VOp) (t : Nat) (a b old : Lane) : Lane :=
  match o with
  | .and => a &&& b
  | .or => a ||| b
  | .xor => a ^^^ b
  | .shl => a <<< (b.toNat % 32)
  | .shr => if t = 1 then a.sshiftRight (b.toNat % 32) else a >>> (b.toNat % 32)
  | .add => if t = 0 then fAdd a b else a + b
  | .sub => if t = 0 then fSub a b else a - b
  | .mul => if t = 0 then fMul a b else a * b
  | .fma => if t = 0 then fFma old a b else old + a * b
  | .min => if t = 0 then fMin a b else if laneInt t b < laneInt t a then b else a
  | .max => if t = 0 then fMax a b else if laneInt t a < laneInt t b then b else a

/-- A comparison of two lanes (R60, R130): none for a condition not listed. -/
def laneCmp (cnd t : Nat) (a b : Lane) : Option Bool :=
  let nan := t = 0 && (fIsNan a || fIsNan b)
  let eq := if t = 0 then (f32 a).eqv (f32 b) else a = b
  let lt := if t = 0 then (f32 a).lt (f32 b) else decide (laneInt t a < laneInt t b)
  match cnd with
  | 0 => some (!nan && eq)
  | 1 => some (nan || !eq)
  | 2 => some (!nan && lt)
  | 3 => some (!nan && (lt || eq))
  | 4 => some (!nan && !lt && !eq)
  | 5 => some (!nan && !lt)
  | _ => none

/-- Formats that vcvt takes (R133). -/
def cvtFmt (f : Nat) : Bool := f ≤ 4 || (0x0E ≤ f && f ≤ 0x14)

/-- Whether a conversion between element kinds can discard bits, and so is stochastic under RND = 1 (R110). -/
def canDiscard : Fmt → Fmt → Bool
  | .int .., .int .. => false
  | .int w s, .flt l => l.mbits + 1 < (if s then w - 1 else w)
  | .flt a, .flt b => b.mbits < a.mbits || b.ebits < a.ebits
  | _, _ => true

/-- The value a lane gives to a conversion into format f (R135). -/
def laneVal (f : Fmt) (x : Lane) : Num :=
  match f with
  | .int _ true => numOfI x.toInt
  | .int _ false => numOfI x.toNat
  | _ => f32 x

/-- An element widened into a lane (R134). -/
def widen (f : Fmt) (bytes : List Byte) (n : Nat) : Lane :=
  match f with
  | .int w s => BitVec.ofInt 32 (intOf w s (elemAt w bytes n))
  | .flt ⟨8, 23, _, _, _, _⟩ => BitVec.ofNat 32 (elemAt 32 bytes n)
  | _ => toF32 (tileVal f bytes n)

namespace Dev

/-- The active lanes of a mask field (R132). -/
def active (d : Dev) (c mk : Nat) (mke : Bool) (i : Nat) : Bool := !mke || decide ((d.core c).lane mk i ≠ 0)

/-- Writes the active lanes of a vector register; the others keep their values (R60, R132). -/
def putLanes (c vd : Nat) (act : Nat → Bool) (f : Nat → Lane) (d : Dev) : Dev :=
  d.updCore c fun x => (List.range 128).foldl (fun y i => if act i then y.setLane vd i (f i) else y) x

/-- Format V with a type field: OPERAND for T = 0b11 (R60). -/
def vecOp (op c : Nat) (bad : Nat → Bool) (f : Nat → Lane → Lane → Lane → Lane) (d : Dev) : Dev :=
  d.onHead c 2 op fun q d =>
    let w := q.word
    let t := wF w 33 32
    if t = 3 ∨ bad t then d.engFault c 2 { cause := cOPERAND }
    else
      let x := d.core c
      (d.putLanes c (wF w 48 44) (d.active c (wF w 31 27) (wF w 26 26 = 1)) fun i =>
        f t (x.lane (wF w 43 39) i) (x.lane (wF w 38 34) i) (x.lane (wF w 48 44) i)).engDone c 2 false

/-- vadd to vshr (opcodes 0x01 to 0x0B); vshr of FP32 lanes is OPERAND (R131). -/
def vArith (op c : Nat) (o : VOp) (d : Dev) : Dev := d.vecOp op c (fun t => o = .shr && t = 0) (fun t a b old => o.lane t a b old)

/-- vcmp (R60). -/
def vcmp (c : Nat) (d : Dev) : Dev :=
  d.onHead c 2 0x10 fun q d =>
    let w := q.word
    let t := wF w 33 32
    if t = 3 ∨ 5 < wF w 25 23 then d.engFault c 2 { cause := cOPERAND }
    else
      let x := d.core c
      (d.putLanes c (wF w 48 44) (d.active c (wF w 31 27) (wF w 26 26 = 1)) fun i =>
        if laneCmp (wF w 25 23) t (x.lane (wF w 43 39) i) (x.lane (wF w 38 34) i) = some true then 1 else 0).engDone c 2 false

/-- vsel (R60): every lane of vd takes va where the mask is nonzero, vb elsewhere; MKE must be 1. -/
def vsel (c : Nat) (d : Dev) : Dev :=
  d.onHead c 2 0x11 fun q d =>
    let w := q.word
    if wF w 26 26 = 0 then d.engFault c 2 { cause := cOPERAND }
    else
      let x := d.core c
      (d.putLanes c (wF w 48 44) (fun _ => true) fun i =>
        if x.lane (wF w 31 27) i ≠ 0 then x.lane (wF w 43 39) i else x.lane (wF w 38 34) i).engDone c 2 false

/-- vbcast (R60): ra[31:0] captured at dispatch. -/
def vbcast (c : Nat) (d : Dev) : Dev :=
  d.onHead c 2 0x12 fun q d =>
    let w := q.word
    (d.putLanes c (wF w 48 44) (d.active c (wF w 31 27) (wF w 26 26 = 1)) fun _ => q.ra.setWidth 32).engDone c 2 false

/-- vcvt (R133, R108 to R110, R116). -/
def vcvt (c : Nat) (d : Dev) : Dev :=
  d.onHead c 2 0x18 fun q d =>
    let w := q.word
    match cvtFmt (wF w 22 18) && cvtFmt (wF w 17 13), fmtOf (wF w 22 18), fmtOf (wF w 17 13) with
    | true, some fi, some fo =>
      let x := d.core c
      let act := d.active c (wF w 31 27) (wF w 26 26 = 1)
      let r := (List.range 128).map fun i =>
        encodePlain fo (d.rndOf c 2 i) x.e2.e4m3nan (plainVal fi ((x.lane (wF w 43 39) i).toNat % 2 ^ fi.bits))
      let d := d.gaugeCount c 2 (((List.range 128).filter act).map fun i => (r.getD i (0, .none)).2)
      (d.putLanes c (wF w 48 44) act fun i => BitVec.ofNat 32 (r.getD i (0, .none)).1).engDone c 2 (x.e2.rnd && canDiscard fi fo)
    | _, _, _ => d.engFault c 2 { cause := cOPERAND }

/-! Memory. -/

/-- How a run of lane accesses ended. -/
inductive LaneRes where
  | ok (d : Dev)
  | fault (lane : Nat) (a : FArgs) (d : Dev)
  | wait (d : Dev)

/-- Reads runs of bytes for lanes, in order: the lanes' values, stopping at the first that does not complete. -/
def laneReads (c spc : Nat) (ue : Bool) : List (Nat × Nat × Nat) → Dev → List (Nat × List Byte) × LaneRes
  | [], d => ([], .ok d)
  | (i, a, n) :: r, d =>
    match d.coreRead c 2 spc a n ue with
    | (.ok b, d') =>
      let x := laneReads c spc ue r d'
      ((i, b) :: x.1, x.2)
    | (.fault f, d') => ([], .fault i f d')
    | (.cow v, d') => ([], .wait (d'.waitCow c 2 v))
    | (.sent, d') => ([], .wait (d'.waitRemote c 2 a))
    | (.full, d') => ([], .wait d')

/-- Writes lanes' bytes, in order. A wait leaves the state as it was before the instruction. -/
def laneWrites (c spc : Nat) (d0 : Dev) : List (Nat × Nat × List Byte) → Dev → LaneRes
  | [], d => .ok d
  | (i, a, b) :: r, d =>
    match d.coreWrite c 2 spc a b with
    | (.ok _, d') => laneWrites c spc d0 r d'
    | (.fault f, d') => .fault i f d'
    | (.cow v, _) => .wait (d0.waitCow c 2 v)
    | (_, _) => .wait d0

/-- Fields of format VM. -/
def vmAddr (q : QEntry) : Nat := (q.ra + sext 19 (wF q.word 38 20)).toNat
def vmSpc (q : QEntry) : Nat := wF q.word 13 12

/-- Faults of a vector access's base address (R60, R149). -/
def vmCheck (q : QEntry) : Option FArgs :=
  if vmSpc q = 3 then some { cause := cOPERAND }
  else if vmAddr q % 4 ≠ 0 then some { cause := cALIGN, addr := vmAddr q, aspace := vmSpc q }
  else none

/-- The byte runs of a 512-byte access: one run, or one per active lane under a mask (R132). -/
def vmRuns (d : Dev) (c : Nat) (q : QEntry) : List (Nat × Nat × Nat) :=
  if wF q.word 14 14 = 0 then [(0, vmAddr q, 512)]
  else
    let act := d.active c (wF q.word 19 15) true
    ((List.range 128).filter act).map fun i => (i, (vmAddr q + 4 * i) % 2 ^ 64, 4)

/-- vld (R60, R132): the whole instruction faults before any lane is written. -/
def vld (c : Nat) (ue : Bool) (d : Dev) : Dev :=
  d.onHead c 2 0x20 fun q d =>
    match vmCheck q with
    | some f => d.engFault c 2 f
    | none =>
      match laneReads c (vmSpc q) ue (d.vmRuns c q) d with
      | (l, .ok d') =>
        (d'.updCore c fun x => l.foldl (fun y (i, b) =>
          (List.range (b.length / 4)).foldl (fun y k =>
            y.setLane (wF q.word 48 44) (i + k) (BitVec.ofNat 32 (leNat ((b.drop (4 * k)).take 4)))) y) x).engDone c 2 false
      | (_, .fault _ f d') => d'.engFault c 2 f
      | (_, .wait d') => d'

/-- vst (R60, R132). -/
def vst (c : Nat) (d : Dev) : Dev :=
  d.onHead c 2 0x21 fun q d =>
    match vmCheck q with
    | some f => d.engFault c 2 f
    | none =>
      let x := d.core c
      let bytes (i n : Nat) : List Byte :=
        (List.range (n / 4)).flatMap fun k => leBytes 4 (x.lane (wF q.word 48 44) (i + k)).toNat
      match laneWrites c (vmSpc q) d ((d.vmRuns c q).map fun (i, a, n) => (i, a, bytes i n)) d with
      | .ok d' => d'.engDone c 2 false
      | .fault i f _ =>
        -- no lane is written; the access that faulted leaves what it leaves
        match (d.vmRuns c q).find? fun y => y.1 = i with
        | some (_, a, n) => (d.coreWrite c 2 (vmSpc q) a (bytes i n)).2.engFault c 2 f
        | none => d.engFault c 2 f
      | .wait d' => d'

/-- The address of lane i of a gather or scatter (R137). -/
def laneAddr (d : Dev) (c : Nat) (q : QEntry) (i : Nat) : Nat :=
  (q.ra + sext 19 (wF q.word 38 20)
    + ((d.core c).lane (wF q.word 11 7) i).signExtend 64 * BitVec.ofNat 64 (2 ^ wF q.word 6 5)).toNat

/-- The lanes of a gather or scatter still to be done, from VSTART upward (R137), up to the first misaligned one. -/
def gsLanes (d : Dev) (c : Nat) (q : QEntry) : List Nat :=
  (List.range 128).filter fun i => d.active c (wF q.word 19 15) (wF q.word 14 14 = 1) i && (d.eng c 2).vstart ≤ i

/-- GATHER_LANE_FAULT (R138). -/
def laneFault (c lane v0 : Nat) (f : FArgs) (d : Dev) : Dev :=
  let m := modeBits (d.core c) 2
  let mode := m % 2 ^ 8 + 2 ^ 8 * v0
  (d.updEng c 2 fun g => { g with vstart := lane }).engFault c 2 { f with pvalid := true, prog := lane, mode := some mode }

/-- The access of each lane before the first misaligned one, and that lane. -/
def gsSplit (d : Dev) (c : Nat) (q : QEntry) : List Nat × Option Nat :=
  let l := d.gsLanes c q
  (l.takeWhile fun i => d.laneAddr c q i % 4 = 0, l.find? fun i => d.laneAddr c q i % 4 ≠ 0)

def alignFault (d : Dev) (c : Nat) (q : QEntry) (i : Nat) : FArgs :=
  { cause := cALIGN, addr := d.laneAddr c q i, aspace := vmSpc q }

/-- A gather's lanes written into vd; a lane read from an enabled FIFO's region is unpredictable (R139). -/
def gatherPut (c : Nat) (q : QEntry) (l : List (Nat × List Byte)) (d : Dev) : Dev :=
  l.foldl (fun d (i, b) =>
    let a := d.laneAddr c q i
    let loose := vmSpc q = 0 && ((List.range 48).any fun n => d.hitsFifo c a 4 (n + 16))
    let (v, d) := if loose then d.fresh else (leNat b, d)
    d.updCore c fun x => x.setLane (wF q.word 48 44) i (BitVec.ofNat 32 v)) d

/-- vgather (R137, R138). -/
def vgather (c : Nat) (ue : Bool) (d : Dev) : Dev :=
  d.onHead c 2 0x22 fun q d =>
    if vmSpc q = 3 ∨ wF q.word 48 44 = wF q.word 11 7 then d.engFault c 2 { cause := cOPERAND }
    else
      let v0 := (d.eng c 2).vstart
      let (go, bad) := d.gsSplit c q
      match laneReads c (vmSpc q) ue (go.map fun i => (i, d.laneAddr c q i, 4)) d with
      | (l, .ok d') =>
        let d' := d'.gatherPut c q l
        match bad with
        | some i => d'.laneFault c i v0 (d.alignFault c q i)
        | none => (d'.updEng c 2 fun g => { g with vstart := 0 }).engDone c 2 false
      | (l, .fault i f d') => (d'.gatherPut c q l).laneFault c i v0 f
      | (_, .wait d') => d'

/-- vscatter (R137, R138). -/
def vscatter (c : Nat) (d : Dev) : Dev :=
  d.onHead c 2 0x23 fun q d =>
    if vmSpc q = 3 then d.engFault c 2 { cause := cOPERAND }
    else
      let v0 := (d.eng c 2).vstart
      let (go, bad) := d.gsSplit c q
      let x := d.core c
      match laneWrites c (vmSpc q) d
          (go.map fun i => (i, d.laneAddr c q i, leBytes 4 (x.lane (wF q.word 48 44) i).toNat)) d with
      | .ok d' =>
        match bad with
        | some i => d'.laneFault c i v0 (d.alignFault c q i)
        | none => (d'.updEng c 2 fun g => { g with vstart := 0 }).engDone c 2 false
      | .fault i f d' => d'.laneFault c i v0 f
      | .wait d' => d'

/-! Tile access. -/

def updVx (c : Nat) (f : Vx → Vx) (d : Dev) : Dev := d.updCore c fun x => { x with vx := f x.vx }

/-- The open tile of a station among a list: tied to what its first access resolved to (R135). -/
def openAt (st : Nat) (l : List OpenTile) : Option OpenTile := l.find? fun t => t.named = st || t.fifo = st

/-- Replaces the open tile of a FIFO. -/
def putOpen (t : OpenTile) (l : List OpenTile) : List OpenTile := l.map fun u => if u.fifo = t.fifo then t else u

/-- Elements 64 * row + i, i < 128, of an open tile as lanes. -/
def rowsLanes (f : Fmt) (bytes : List Byte) (row i : Nat) : Lane := widen f bytes (64 * row + i)

/-- Reads two rows of an open tile into the active lanes of vd and completes vtrd. -/
def vtrdRows (c : Nat) (q : QEntry) (f : Fmt) (t : OpenTile) (d : Dev) : Dev :=
  (d.putLanes c (wF q.word 48 44) (d.active c (wF q.word 26 22) (wF q.word 21 21 = 1)) fun i =>
    rowsLanes f (t.elems ++ t.scales) (wF q.word 37 32) i).engDone c 2 false

/-- vtrd (R60, R134, R135): the first access pops the tile. -/
def vtrd (c : Nat) (d : Dev) : Dev :=
  d.onHead c 2 0x28 fun q d =>
    let st := wF q.word 43 38
    let fc := wF q.word 31 27
    match fmtOf fc with
    | none => d.engFault c 2 { cause := cOPERAND }
    | some f =>
      let ins := (d.core c).vx.ins
      if wF q.word 37 32 % 2 = 1 then d.engFault c 2 { cause := cOPERAND }
      else
        match openAt st ins with
        | some t => if t.fmt ≠ fc then d.engFault c 2 { cause := cOPERAND } else d.vtrdRows c q f t
        | none =>
          match d.resolveHeld c 2 0 true (fun n => n = 4 || n = 5) st with
          | .error k => d.stFault c 2 st k
          | .ok n =>
            match openAt n ins with
            | some t => if t.fmt ≠ fc then d.engFault c 2 { cause := cOPERAND } else d.vtrdRows c q f t
            | none =>
              if 4 ≤ ins.length then d.engFault c 2 { cause := cOPERAND }
              else
                (d.begin c 2 [n]).popTile c 2 n st f fun b m d =>
                  let t : OpenTile := ⟨st, n, fc, b.take (512 * f.bits), b.drop (512 * f.bits), m⟩
                  (d.updVx c fun v => { v with ins := v.ins ++ [t] }).vtrdRows c q f t

/-- Puts bytes into a list of bytes at an offset. -/
def spliceBytes (l : List Byte) (o : Nat) (b : List Byte) : List Byte := l.take o ++ b ++ l.drop (o + b.length)

/-- Two rows narrowed into an open output tile (R135): an inactive lane keeps its element. -/
def vtwrRows (c : Nat) (q : QEntry) (f : Fmt) (t : OpenTile) (d : Dev) : Dev :=
  let x := d.core c
  let row := wF q.word 37 32
  let act := d.active c (wF q.word 26 22) (wF q.word 21 21 = 1)
  let vals := (List.range 128).map fun i =>
    if act i then laneVal f (x.lane (wF q.word 48 44) i) else tileVal f (t.elems ++ t.scales) (64 * row + i)
  let r := encodeRows f (fun i => d.rndOf c 2 (64 * row + i)) x.e2.e4m3nan vals
  let cnt := ((List.range 128).filter act).map fun i => r.2.2.getD i .none
  let t' := { t with elems := spliceBytes t.elems (8 * f.bits * row) r.1,
                     scales := spliceBytes t.scales (f.scaleBytes / 64 * row) r.2.1, marked := t.marked || marks cnt }
  ((d.gaugeCount c 2 cnt).updVx c fun v => { v with outs := putOpen t' v.outs }).engDone c 2
    (x.e2.rnd && f.isFloat && decide (f ≠ .flt layFP32))

/-- vtwr (R60, R135): the first access opens a tile slot of zero elements. -/
def vtwr (c : Nat) (d : Dev) : Dev :=
  d.onHead c 2 0x29 fun q d =>
    let st := wF q.word 43 38
    let fc := wF q.word 31 27
    match fmtOf fc with
    | none => d.engFault c 2 { cause := cOPERAND }
    | some f =>
      let outs := (d.core c).vx.outs
      let go (t : OpenTile) (d : Dev) : Dev :=
        if t.fmt ≠ fc then d.engFault c 2 { cause := cOPERAND } else d.vtwrRows c q f t
      if wF q.word 37 32 % 2 = 1 then d.engFault c 2 { cause := cOPERAND }
      else
        match openAt st outs with
        | some t => go t d
        | none =>
          match d.resolveSt c false (fun n => n = 6) st with
          | .error k => d.stFault c 2 st k
          | .ok n =>
            match openAt n outs with
            | some t => go t d
            | none =>
              if 2 ≤ outs.length then d.engFault c 2 { cause := cOPERAND }
              else
                let t : OpenTile := ⟨st, n, fc, List.replicate (512 * f.bits) 0, List.replicate f.scaleBytes 0, false⟩
                (d.updVx c fun v => { v with outs := v.outs ++ [t] }).vtwrRows c q f t

/-- The open tile that a station operand names: by its name, or through the FIFO it resolves to. -/
def openNamed (d : Dev) (c : Nat) (pop : Bool) (ok : Nat → Bool) (st : Nat) (l : List OpenTile) : Option OpenTile :=
  match openAt st l with
  | some t => some t
  | none =>
    match d.resolveSt c pop ok st with
    | .ok n => openAt n l
    | .error _ => none

/-- vtclose (R60, R135): no effect on a station with no open input tile. -/
def vtclose (c : Nat) (d : Dev) : Dev :=
  d.onHead c 2 0x2A fun q d =>
    match d.openNamed c true (fun n => n = 4 || n = 5) (wF q.word 43 38) (d.core c).vx.ins with
    | some t => (d.updVx c fun v => { v with ins := v.ins.filter fun u => u.fifo ≠ t.fifo }).engDone c 2 false
    | none => d.engDone c 2 false

/-- vtpush (R60, R135): pushes exactly what the slot holds. -/
def vtpush (c : Nat) (d : Dev) : Dev :=
  d.onHead c 2 0x2B fun q d =>
    let st := wF q.word 43 38
    let outs := (d.core c).vx.outs
    match (if (d.eng c 2).begun then openAt ((d.eng c 2).resolved.headD 0) outs else d.openNamed c false (fun n => n = 6) st outs) with
    | none => d.engFault c 2 { cause := cOPERAND }
    | some t =>
      if t.fmt ≠ wF q.word 31 27 then d.engFault c 2 { cause := cOPERAND }
      else
      let d := d.begin c 2 [t.fifo]
      if ¬ d.canPush c t.fifo then d.stallOn c 2 t.fifo true
      else if d.tooBig c t.fifo (t.elems.length + t.scales.length) then d.stFault c 2 st .tileSize
      else
        ((d.push c t.fifo t.fmt (t.elems ++ t.scales) t.marked).updVx c fun v =>
          { v with outs := v.outs.filter fun u => u.fifo ≠ t.fifo }).engDone c 2 false

/-! Reductions (R136). -/

/-- One half's 64 lanes with the identity in place of inactive ones. -/
def halfLanes (x : Core) (va : Nat) (act : Nat → Bool) (ident : Lane) (h : Nat) : List Lane :=
  (List.range 64).map fun i => if act (64 * h + i) then x.lane va (64 * h + i) else ident

/-- vredsum and vredmax: `f` reduces a half's lanes. -/
def vred (op c : Nat) (ident : Nat → Lane) (f : Nat → List Lane → Lane) (d : Dev) : Dev :=
  d.onHead c 2 op fun q d =>
    let w := q.word
    let t := wF w 33 32
    if t = 3 then d.engFault c 2 { cause := cOPERAND }
    else
      let x := d.core c
      let act := d.active c (wF w 31 27) (wF w 26 26 = 1)
      let r (h : Nat) : Lane := f t (halfLanes x (wF w 43 39) act (ident t) h)
      (d.putLanes c (wF w 48 44) act fun i => r (i / 64)).engDone c 2 false

def vredsum (c : Nat) (d : Dev) : Dev :=
  d.vred 0x30 c (fun _ => 0) fun t l => tree64 (fun a b => VOp.add.lane t a b 0) 0 l
def vredmax (c : Nat) (d : Dev) : Dev :=
  d.vred 0x31 c (fun t => if t = 0 then 0xFF800000 else if t = 1 then 0x80000000 else 0) fun t l =>
    tree64 (fun a b => VOp.max.lane t a b 0) 0 l

end Dev
end Sys2Proof.Machine
end

