-- ==== Sys2Proof/Machine/Sfu.lean ====
section
/-!
DEFINITION. The special function unit (R140 to R148): the elementary and loaded functions, and the softmax and normalisation
contexts. The rounding of a function that Table VX-1 bounds and does not fix is free (Config.sfu).
-/
namespace Sys2Proof.Machine

/-- The sign of a lane, zeros included. -/
def laneNeg (a : Lane) : Bool := a.msb

/-- Special operands of Table VX-1: the result where the table states one. -/
def sfuSpecial (fn : Nat) (a b : Lane) : Option Lane :=
  let x := f32 a
  let y := f32 b
  let nan : Lane := 0x7FC00000
  let inf (n : Bool) : Lane := if n then 0xFF800000 else 0x7F800000
  let zero (n : Bool) : Lane := if n then 0x80000000 else 0
  if x = .nan ∨ (fn = 9 ∧ y = .nan) then some nan
  else
    match fn, x with
    | 0x00, .inf n => some (if n then zero false else inf false)
    | 0x01, .inf n => some (if n then zero false else inf false)
    | 0x02, .inf n => some (if n then nan else inf false)
    | 0x03, .inf n => some (if n then nan else inf false)
    | 0x02, .fin n m _ => if m = 0 then some (inf true) else if n then some nan else none
    | 0x03, .fin n m _ => if m = 0 then some (inf true) else if n then some nan else none
    | 0x04, _ => some (fRecip a)
    | 0x05, .inf n => some (if n then nan else zero false)
    | 0x05, .fin n m _ => if m = 0 then some (inf n) else if n then some nan else none
    | 0x06, _ => some (fSqrt a)
    | 0x07, .inf n => some (if n then 0xBF800000 else 0x3F800000)
    | 0x08, .inf n => some (if n then zero false else 0x3F800000)
    | 0x09, _ =>
      let s := xor (laneNeg a) (laneNeg b)
      match x, y with
      | .inf _, .inf _ => some nan
      | .fin _ m _, .fin _ k _ => if k = 0 then some (if m = 0 then nan else inf s) else none
      | .inf _, .fin _ k _ => if k = 0 then some (inf s) else none
      | .fin .., .inf _ => some (zero s)
      | _, _ => none
    | 0x0A, .inf n => some (if n then zero true else inf false)
    | 0x0B, .inf n => some (if n then zero true else inf false)
    | 0x0C, .inf n => some (if n then 0xBF800000 else 0x3F800000)
    | 0x0D, .inf _ => some nan
    | 0x0E, .inf _ => some nan
    | _, _ => none

/-- A subnormal operand taken as zero of the same sign, as the VB5120 takes it (R144). -/
def flushSub (a : Lane) : Lane := if a.toNat / 2 ^ 23 % 256 = 0 then a &&& 0x80000000 else a

namespace Dev

/-- The FP32 result of FN for two operands (R141, R144). -/
def sfuFn (d : Dev) (c fn : Nat) (a b : Lane) : Lane :=
  let setid := d.rd (Reg.SFU_SETID_SETID c)
  if (d.core c).e2.compat then
    (if fIsNan a || (fn = 9 && fIsNan b) then 0x7FC00000 else Config.sfu fn setid true (flushSub a) (flushSub b))
  else if 0x80 ≤ fn then Config.sfu fn setid false a b
  else
    match sfuSpecial fn a b with
    | some v => v
    | none => Config.sfu fn setid false a (if fn = 9 then b else 0)

/-- Whether FN is an elementary or loaded function that is defined (R140 to R143). -/
def fnPlain (d : Dev) (c fn : Nat) : Bool :=
  fn ≤ 0x0E || (0x80 ≤ fn && bit (d.rd (Reg.SFU_FNMAP_DEF c (fn / 64))) (fn % 64))

/-- Whether COMPAT lets FN run (R144). -/
def fnCompat (d : Dev) (c fn : Nat) : Bool := !(d.core c).e2.compat || fn ≤ 9

/-- Whether FN names a vector-form softmax or normalisation operation. -/
def fnCtxVec (fn : Nat) : Bool := (0x20 ≤ fn && fn ≤ 0x27) || (0x40 ≤ fn && fn ≤ 0x43) || (0x4C ≤ fn && fn ≤ 0x4F)
/-- Whether FN names a tile-form softmax or normalisation operation. -/
def fnCtxTile (fn : Nat) : Bool := (0x28 ≤ fn && fn ≤ 0x33) || (0x44 ≤ fn && fn ≤ 0x4B) || (0x50 ≤ fn && fn ≤ 0x53)

/-- The function code of an sfu (Table GL-8, SF) and of an sfu.t (ST). -/
def sfFn (q : QEntry) : Nat := wF q.word 33 26
def stFn (q : QEntry) : Nat := wF q.word 36 29

/-- Runs `f` on an sfu at the head whose FN lies in the four codes from `base`, with its context; OPERAND under COMPAT. -/
def ctxVec (c base : Nat) (f : Nat → QEntry → Dev → Dev) (d : Dev) : Dev :=
  d.onHead c 2 0x40 fun q d =>
    if sfFn q < base ∨ base + 4 ≤ sfFn q then d
    else if (d.core c).e2.compat then d.engFault c 2 { cause := cOPERAND }
    else f (sfFn q - base) q d

/-- sfu (R140, R141, R144): the elementary and loaded functions; an undefined or tile-form FN is OPERAND. -/
def sfu (c : Nat) (d : Dev) : Dev :=
  d.onHead c 2 0x40 fun q d =>
    let fn := sfFn q
    if fnCtxVec fn then d
    else if ¬ (d.fnPlain c fn && d.fnCompat c fn) then d.engFault c 2 { cause := cOPERAND }
    else
      let w := q.word
      let x := d.core c
      (d.putLanes c (wF w 48 44) (d.active c (wF w 25 21) (wF w 20 20 = 1)) fun i =>
        d.sfuFn c fn (x.lane (wF w 43 39) i) (x.lane (wF w 38 34) i)).engDone c 2 false

/-- The active-lane test of an sfu. -/
def sfAct (d : Dev) (c : Nat) (q : QEntry) (i : Nat) : Bool := d.active c (wF q.word 25 21) (wF q.word 20 20 = 1) i

/-- The tile form (R140): pops one FP32 tile, applies `f` to its 4,096 elements, narrows the results to F, counts and pushes. -/
def sfuTile (c : Nat) (q : QEntry) (f : List Lane → Dev → List Lane × Dev) (d : Dev) : Dev :=
  let w := q.word
  let sti := wF w 48 43
  let sto := wF w 42 37
  let fc := wF w 28 24
  match fmtOf fc with
  | none => d.engFault c 2 { cause := cOPERAND }
  | some fo =>
    match d.resolveHeld c 2 0 true (fun n => n = 4 || n = 5 || n = 7) sti, d.resolveHeld c 2 1 false (fun n => n = 6) sto with
    | .error k, _ => d.stFault c 2 sti k
    | _, .error k => d.stFault c 2 sto k
    | .ok n, .ok o =>
      let d := d.begin c 2 [n, o]
      if ¬ d.canPush c o then d.stallOn c 2 o true
      else if d.tooBig c o fo.tileBytes then d.stFault c 2 sto .tileSize
      else
        d.popTile c 2 n sti (.flt layFP32) fun b _ d =>
          let (l, d) := f ((List.range 4096).map fun i => BitVec.ofNat 32 (elemAt 32 b i)) d
          let r := encodeTile fo (d.rndOf c 2) (d.eng c 2).e4m3nan (l.map f32)
          ((d.gaugeCount c 2 r.2).push c o fc r.1 (marks r.2)).engDone c 2 ((d.eng c 2).rnd && decide (fo ≠ .flt layFP32))

/-- sfu.t (R140): the elementary and loaded functions of one operand; an undefined or vector-form FN is OPERAND. -/
def sfuT (c : Nat) (d : Dev) : Dev :=
  d.onHead c 2 0x41 fun q d =>
    let fn := stFn q
    if fnCtxTile fn then d
    else if ¬ (d.fnPlain c fn && d.fnCompat c fn) then d.engFault c 2 { cause := cOPERAND }
    else d.sfuTile c q fun l d => (l.map fun a => d.sfuFn c fn a 0, d)

/-- Runs `f` on an sfu.t at the head whose FN lies in the four codes from `base`; OPERAND under COMPAT. -/
def ctxTile (c base : Nat) (f : Nat → List Lane → Dev → List Lane × Dev) (d : Dev) : Dev :=
  d.onHead c 2 0x41 fun q d =>
    if stFn q < base ∨ base + 4 ≤ stFn q then d
    else if (d.core c).e2.compat then d.engFault c 2 { cause := cOPERAND }
    else d.sfuTile c q (f (stFn q - base))

def smx (d : Dev) (c k r : Nat) : SmxRow := tabGet SmxRow.reset (64 * k + r) (d.core c).vx.smx
def setSmx (c k r : Nat) (x : SmxRow) (d : Dev) : Dev :=
  d.updVx c fun v => { v with smx := tabPut SmxRow.reset (64 * k + r) x v.smx }
def nrm (d : Dev) (c k r : Nat) : NrmRow := tabGet NrmRow.reset (64 * k + r) (d.core c).vx.nrm
def setNrm (c k r : Nat) (x : NrmRow) (d : Dev) : Dev :=
  d.updVx c fun v => { v with nrm := tabPut NrmRow.reset (64 * k + r) x v.nrm }
def rows64 (f : Nat → Dev → Dev) (d : Dev) : Dev := (List.range 64).foldl (fun d r => f r d) d

/-- The balanced row sum of R136. -/
def rowSum (l : List Lane) : Lane := tree64 fAdd 0 l
/-- Row r of a tile's elements. -/
def rowOf (l : List Lane) (r : Nat) : List Lane := (l.drop (64 * r)).take 64
/-- Applies a function of the row to every element. -/
def byRow (f : Nat → Lane → Lane) (l : List Lane) : List Lane := l.zipIdx.map fun (x, i) => f (i / 64) x

/-- smx.init (Table VX-4): the start state of R145; VD is unchanged. -/
def smxInit (c : Nat) (d : Dev) : Dev :=
  d.ctxVec c 0x20 fun k _ d => (d.rows64 fun r d => d.setSmx c k r SmxRow.reset).engDone c 2 false

/-- One row of smx.max. -/
def smxRow (d : Dev) (c : Nat) (s : SmxRow) (q : Lane) : SmxRow :=
  let n := fMax s.m q
  let k := if n = 0xFF800000 then 0x3F800000 else d.sfuFn c 0x00 (fSub s.m n) 0
  ⟨n, fMul s.l k, k⟩

/-- smx.max (Table VX-4): an inactive va lane counts as -infinity. -/
def smxMax (c : Nat) (d : Dev) : Dev :=
  d.ctxVec c 0x24 fun k q d =>
    let x := d.core c
    let act := d.sfAct c q
    let new := (List.range 64).map fun r =>
      d.smxRow c (d.smx c k r) (if act r then x.lane (wF q.word 43 39) r else 0xFF800000)
    let d := d.rows64 fun r d => d.setSmx c k r (new.getD r SmxRow.reset)
    (d.putLanes c (wF q.word 48 44) act fun i =>
      if i < 64 then (new.getD i SmxRow.reset).k else (new.getD (i - 64) SmxRow.reset).m).engDone c 2 false

/-- smx.exp (Table VX-4). -/
def smxExp (c : Nat) (d : Dev) : Dev :=
  d.ctxTile c 0x28 fun k l d =>
    let e := byRow (fun r x =>
      let m := (d.smx c k r).m
      if m = 0xFF800000 then 0 else d.sfuFn c 0x00 (fSub x m) 0) l
    (e, d.rows64 fun r d =>
      let s := d.smx c k r
      d.setSmx c k r { s with l := fAdd s.l (rowSum (rowOf e r)) })

/-- smx.rescale (Table VX-4). -/
def smxRescale (c : Nat) (d : Dev) : Dev :=
  d.ctxTile c 0x2C fun k l d => (byRow (fun r y => fMul y (d.smx c k r).k) l, d)

/-- smx.norm (Table VX-4): rows with l = +0 give zeros and are counted in SMXZERO. -/
def smxNorm (c : Nat) (d : Dev) : Dev :=
  d.ctxTile c 0x30 fun k l d =>
    (byRow (fun r y =>
      let s := (d.smx c k r).l
      if s = 0 then 0 else fMul y (fRecip s)) l,
     d.incSat (Reg.SFU_EVCNT_SMXZERO c) ((List.range 64).filter fun r => (d.smx c k r).l = 0).length)

/-- nrm.init (Table VX-5). -/
def nrmInit (c : Nat) (d : Dev) : Dev :=
  d.ctxVec c 0x40 fun k _ d =>
    ((d.rows64 fun r d => d.setNrm c k r NrmRow.reset).updVx c fun v =>
      { v with shiftTaken := tabPut false k false v.shiftTaken }).engDone c 2 false

/-- The sums of nrm.acc over a tile (R146). -/
def nrmSums (c k : Nat) (l : List Lane) (d : Dev) : Dev :=
  d.rows64 fun r d =>
    let s := d.nrm c k r
    let dv := (rowOf l r).map fun x => fSub x s.c
    d.setNrm c k r { s with s := fAdd s.s (rowSum dv), q := fAdd s.q (rowSum (dv.map fun x => fMul x x)),
                            n := (s.n + 64) % 2 ^ 32 }

/-- nrm.acc (Table VX-5): the tile is pushed unchanged in format F. -/
def nrmAcc (c : Nat) (d : Dev) : Dev := d.ctxTile c 0x44 fun k l d => (l, d.nrmSums c k l)

/-- nrm.accs (Table VX-5): the first tile's row means become the shifts. -/
def nrmAccs (c : Nat) (d : Dev) : Dev :=
  d.ctxTile c 0x48 fun k l d =>
    let d :=
      if tabGet false k (d.core c).vx.shiftTaken then d
      else
        (d.rows64 fun r d => d.setNrm c k r { d.nrm c k r with c := fMul (rowSum (rowOf l r)) 0x3C800000 }).updVx c fun v =>
          { v with shiftTaken := tabPut false k true v.shiftTaken }
    (l, d.nrmSums c k l)

/-- One row of nrm.fin: the finished row and whether its variance was clamped. -/
def nrmFinRow (d : Dev) (c : Nat) (s : NrmRow) (eps : Lane) : NrmRow × Bool :=
  let rn := fRecip (toF32 (numOfI s.n))
  let a := if s.n = 0 then 0 else fMul s.s rn
  let v := if s.n = 0 then 0 else fSub (fMul s.q rn) (fMul a a)
  let neg := (f32 v).lt (.fin false 0 0)
  let v := if neg then 0 else v
  ({ s with mu := if s.n = 0 then s.c else fAdd s.c a, rho := d.sfuFn c 0x05 (fAdd v eps) 0 }, neg)

/-- nrm.fin (Table VX-5). -/
def nrmFin (c : Nat) (d : Dev) : Dev :=
  d.ctxVec c 0x4C fun k q d =>
    let eps := (d.core c).lane (wF q.word 43 39) 0
    let new := (List.range 64).map fun r => d.nrmFinRow c (d.nrm c k r) eps
    let d := (d.rows64 fun r d => d.setNrm c k r (new.getD r (NrmRow.reset, false)).1).incSat (Reg.SFU_EVCNT_NRMNEG c)
      (new.filter Prod.snd).length
    (d.putLanes c (wF q.word 48 44) (d.sfAct c q) fun i =>
      if i < 64 then (new.getD i (NrmRow.reset, false)).1.mu else (new.getD (i - 64) (NrmRow.reset, false)).1.rho).engDone c 2 false

/-- nrm.apply (Table VX-5). -/
def nrmApply (c : Nat) (d : Dev) : Dev :=
  d.ctxTile c 0x50 fun k l d => (byRow (fun r x => fMul (fSub x (d.nrm c k r).mu) (d.nrm c k r).rho) l, d)

/-- SFU_CTXDATA_n in debug mode (R148): two rows of the selected quantity. -/
def ctxData (d : Dev) (c n : Nat) : Nat :=
  let k := d.rd (Reg.SFU_CTXSEL_CTX c)
  let qty := d.rd (Reg.SFU_CTXSEL_QTY c)
  let el (r : Nat) : Nat :=
    if d.rd (Reg.SFU_CTXSEL_KIND c) = 0 then
      let s := d.smx c k r
      (match qty with
        | 0 => s.m.toNat
        | 1 => s.l.toNat
        | 2 => s.k.toNat
        | _ => 0)
    else
      let s := d.nrm c k r
      (match qty with
        | 0 => s.c.toNat
        | 1 => s.n
        | 2 => s.s.toNat
        | 3 => s.q.toNat
        | 4 => s.mu.toNat
        | 5 => s.rho.toNat
        | _ => 0)
  if (d.core c).inDebug then el (2 * n) + 2 ^ 32 * el (2 * n + 1) else 0

/-- SFU_FNMAP_n: the built-in codes, and the loaded ones (R140, R143). -/
def fnMap (d : Dev) (c n : Nat) : Nat :=
  match n with
  | 0 => 2 ^ 15 - 1 + (2 ^ 20 - 1) * 2 ^ 32
  | 1 => 2 ^ 20 - 1
  | _ => d.rd (Reg.SFU_FNMAP_DEF c n)

end Dev
end Sys2Proof.Machine
end

