-- ==== Sys2Proof/Machine/Dma.lean ====
section
/-!
DEFINITION. The core DMA engine and the spillway (R175 to R190): descriptors, units, fragments, records, completion.
-/
namespace Sys2Proof.Machine

/-- Parses the 64 bytes of a descriptor (Table DM-1). -/
def parseDesc (b : List Byte) : Desc :=
  let w (i : Nat) : Nat := leNat ((b.drop (8 * i)).take 8)
  let c := w 0
  { op := bits c 3 0, sk := bits c 6 4, dk := bits c 9 7, fmt := bits c 14 10, fmto := bits c 19 15, cvt := bit c 20,
    nsf := bit c 21, rawout := bit c 22, fof := bit c 23, frag := bits c 27 24, sig := bit c 28, cflag := bits c 39 32,
    csop := bits c 41 40, src := w 1, dst := w 2, rowlen := bits (w 3) 31 0, rows := bits (w 3) 63 32,
    sstride := bits (w 4) 31 0, dstride := bits (w 4) 63 32, remote := w 5, tag := w 6, cval := bits (w 7) 31 0,
    staddr := bits (w 7) 54 32, sten := bit (w 7) 55,
    rsv := bits c 31 29 ≠ 0 || bits c 63 42 ≠ 0 || bits (w 7) 63 56 ≠ 0 }

/-- The space of an endpoint's addresses, coded as SPC (EXR_CAUSE.ASPACE): a remote destination's are virtual. -/
def spcOf (kind : Nat) : Nat := if kind = 4 then 2 else kind % 4

def unitBytes : Nat := 4096
def Desc.fragBytes (x : Desc) : Nat := 2 ^ (x.frag + 12)

/-- Bytes of each address space (R32, R182, R340); a row that crosses the end faults (R177). -/
def spaceEnd : Nat → Nat
  | 0 => 0x800000
  | 1 => 2 ^ 29
  | _ => 2 ^ 48

/-- The rows, offsets and byte counts that hold destination bytes [lo, hi) of a transfer of `drow`-byte rows. -/
def rowPieces (drow lo hi : Nat) : List (Nat × Nat × Nat) :=
  if drow = 0 then []
  else (List.range ((hi + drow - 1) / drow - lo / drow)).map fun i =>
    let r := lo / drow + i
    let a := max lo (r * drow)
    (r, a - r * drow, min hi ((r + 1) * drow) - a)

/-! The spillway's records (R184 to R189). -/

/-- The plain float formats that a save codes. -/
def codedLay : Nat → Option FLay
  | 0x00 => some layFP32
  | 0x01 => some layBF16
  | 0x02 => some layFP16
  | _ => none

def packBits (w : Nat) (l : List Nat) : List Byte := leBytes ((l.length * w + 7) / 8) (packElems w l)

/-- One row coded (R186): its bytes, and whether it was kept raw. `e0` stands for EBASE where the row has only +0 elements,
which the spec does not state. -/
def codeRow (l : FLay) (e0 : Nat) (xs : List Nat) : List Byte × Bool :=
  let nz := xs.filter fun x => x ≠ 0
  let exps := nz.map fun x => x / 2 ^ l.mbits % 2 ^ l.ebits
  let eb := match exps with
    | [] => e0 % 256
    | e :: r => r.foldl min e
  let w := ((List.range 9).find? fun w => exps.all fun e => e - eb < 2 ^ w).getD 8
  let sig := nz.map fun x => x / 2 ^ (l.ebits + l.mbits) * 2 ^ l.mbits + x % 2 ^ l.mbits
  let z := xs.zipIdx.foldl (fun s (x, i) => if x = 0 then s + 2 ^ i else s) 0
  let body := [BitVec.ofNat 8 w, BitVec.ofNat 8 eb] ++ leBytes 8 z ++ packBits w (exps.map fun e => e - eb) ++ packBits (l.mbits + 1) sig
  let raw := leBytes (8 * l.width) (packElems l.width xs)
  if raw.length + 2 < body.length then ([0xFF, 0x00] ++ raw, true) else (body, false)

/-- Puts the coded elements back into the columns that the zero mask leaves. -/
def unmask (z : Nat) : Nat → Nat → List Nat → List Nat
  | 0, _, _ => []
  | n + 1, c, xs =>
    if bit z c then 0 :: unmask z n (c + 1) xs else xs.headD 0 :: unmask z n (c + 1) xs.tail

/-- One coded row restored, with the rest of the body. -/
def uncodeRow (l : FLay) (b : List Byte) : List Nat × List Byte :=
  let w := (b.getD 0 0).toNat
  let eb := (b.getD 1 0).toNat
  let b := b.drop 2
  if w = 0xFF then ((List.range 64).map fun i => elemAt l.width b i, b.drop (8 * l.width))
  else
    let z := leNat (b.take 8)
    let b := b.drop 8
    let n := ((List.range 64).filter fun i => !(bit z i)).length
    let nd := (n * w + 7) / 8
    let ns := (n * (l.mbits + 1) + 7) / 8
    let dn := leNat (b.take nd)
    let sn := leNat ((b.drop nd).take ns)
    let xs := (List.range n).map fun i =>
      let e := (eb + dn / 2 ^ (i * w) % 2 ^ w) % 2 ^ l.ebits
      let s := sn / 2 ^ (i * (l.mbits + 1)) % 2 ^ (l.mbits + 1)
      s / 2 ^ l.mbits * 2 ^ (l.ebits + l.mbits) + e * 2 ^ l.mbits + s % 2 ^ l.mbits
    (unmask z 64 0 xs, b.drop (nd + ns))

def uncodeRows (l : FLay) : Nat → List Byte → List Nat
  | 0, _ => []
  | n + 1, b =>
    let r := uncodeRow l b
    r.1 ++ uncodeRows l n r.2

/-- Pads a body with zeros to a multiple of 32 bytes. -/
def pad32 (b : List Byte) : List Byte := b ++ List.replicate ((32 - b.length % 32) % 32) 0

/-- One byte taken into a CRC-32C register. -/
def crcByte (c : Nat) (b : Byte) : Nat :=
  (List.range 8).foldl (fun c _ => if c % 2 = 1 then Nat.xor (c / 2) 0x82F63B78 else c / 2) (Nat.xor c b.toNat)

/-- CRC-32C (R185). The spec names the check and not its polynomial: PRESUMED as in RFC 3720 (assumption log 30). -/
def crc32c (b : List Byte) : Nat := Nat.xor (b.foldl crcByte 0xFFFFFFFF) 0xFFFFFFFF

/-- A record (Table DM-3): header and body. -/
def record (fmt mode tag olen : Nat) (body : List Byte) : List Byte :=
  let body := pad32 body
  leBytes 2 0xA5C3 ++ leBytes 1 fmt ++ leBytes 1 mode ++ leBytes 4 (32 + body.length) ++ leBytes 8 tag
    ++ leBytes 4 (crc32c body) ++ leBytes 4 olen ++ leBytes 8 0 ++ body

/-- Table DM-4. -/
def maxRecord (fmt mode : Nat) : Nat :=
  match mode with
  | 0 => if fmt = 0 then 16544 else 8352
  | 1 => 4384
  | _ => 32 + ((fmtOf fmt).map Fmt.tileBytes).getD 0

/-- The mode in which a tile is saved (R186, R187). -/
def saveMode (fmt : Nat) (nsf : Bool) : Nat := if (codedLay fmt).isSome then (if nsf then 1 else 0) else 2

def fmtNSF8 : Fmt := .blk layE4M3 true

/-- The body of a saved tile, its raw rows and, for NSF, its counts. -/
def saveBody (fmt : Nat) (nsf : Bool) (e0 : Nat → Nat) (rm : Nat → Rnd) (e4nan : Bool) (tile : List Byte) :
    List Byte × Nat × List GCls :=
  match codedLay fmt with
  | none => (tile, 0, [])
  | some l =>
    if nsf then
      let r := encodeTile fmtNSF8 rm e4nan (tileVals (.flt l) tile)
      (r.1, 0, r.2)
    else
      let rows := (List.range 64).map fun i => codeRow l (e0 i) ((List.range 64).map fun j => elemAt l.width tile (64 * i + j))
      (rows.flatMap Prod.fst, (rows.filter Prod.snd).length, [])

/-- The tile of a record's body, its format and its counts (R186 to R188). -/
def restoreBody (fmt mode : Nat) (rawout : Bool) (rm : Nat → Rnd) (e4nan : Bool) (body : List Byte) :
    List Byte × Nat × List GCls :=
  match mode, codedLay fmt, fmtOf fmt with
  | 0, some l, _ => (leBytes (512 * l.width) (packElems l.width (uncodeRows l 64 body)), fmt, [])
  | 1, _, some f =>
    if rawout then (body.take fmtNSF8.tileBytes, 0x0B, [])
    else
      let r := encodeTile f rm e4nan (tileVals fmtNSF8 (body.take fmtNSF8.tileBytes))
      (r.1, fmt, r.2)
  | _, _, f => (body.take ((f.map Fmt.tileBytes).getD 0), fmt, [])

namespace Dev

def updJob (c : Nat) (f : DmaJob → DmaJob) (d : Dev) : Dev :=
  d.updCore c fun x => { x with dm := { x.dm with job := x.dm.job.map f } }

/-- A fault of the DMA engine. -/
def dmaFault (c : Nat) (a : FArgs) (d : Dev) : Dev := d.engFault c 3 a

def jobOf (x : Desc) (direct : Bool) : DmaJob :=
  { desc := x, direct := direct, checked := false, rin := 0, rout := 0, total := 0, drow := 0, loose := false, next := 0,
    nunits := 0, inflight := [], done := [], failed := [], cause := 0, off := 0, recOut := 0, srcPos := 0, stoch := false }

def setJob (c : Nat) (j : DmaJob) (d : Dev) : Dev := d.updCore c fun x => { x with dm := { x.dm with job := some j } }

/-- Fetches the descriptor that the head instruction has come to (R61, R176). -/
def fetchDesc (c a : Nat) (d : Dev) : Dev :=
  if a % 64 ≠ 0 then d.dmaFault c { cause := cALIGN, addr := a }
  else
    let at_ := a + 64 * (d.core c).dm.descNo
    if 0x800000 < at_ + 64 then d.dmaFault c { cause := cOPERAND }
    else d.setJob c (jobOf (parseDesc ((d.core c).tsRead at_ 64)) false)

/-- dexec and dexecn (R61, R176): the next descriptor becomes the engine's job. -/
def dexec (c : Nat) (d : Dev) : Dev :=
  d.onHead c 3 0x01 fun q d =>
    if (d.core c).dm.job.isSome then d else d.fetchDesc c (q.ra + sext 39 (wF q.word 38 0)).toNat
def dexecn (c : Nat) (d : Dev) : Dev :=
  d.onHead c 3 0x02 fun q d =>
    if (d.core c).dm.job.isSome then d else d.fetchDesc c (q.ra + sext 36 (wF q.word 35 0)).toNat

/-! Admission: the checks before any unit (R176, R177, R180). -/

/-- Fields that an operation leaves unused must be zero (R176). -/
def unusedOk (x : Desc) : Bool :=
  let stn := x.sk = 3 || x.dk = 3
  !x.rsv &&
  match x.op with
  | 1 => !x.nsf && !x.rawout && x.tag = 0 && (x.cvt || x.fmto = 0) && (stn || x.cvt || x.fmt = 0)
      && (x.sk ≠ 3 || x.sstride = 0) && (x.dk ≠ 3 || x.dstride = 0) && (x.dk = 4 || x.remote = 0)
  | 2 => !x.nsf && !x.rawout && x.tag = 0 && x.sk = 0 && x.sstride = 0 && !x.cvt && x.fmto = 0 && (x.dk = 3 || x.fmt = 0)
      && (x.dk ≠ 3 || x.dstride = 0) && (x.dk = 4 || x.remote = 0)
  | 3 => !x.rawout && !x.cvt && x.fmto = 0 && x.sstride = 0 && x.dstride = 0
  | 4 => !x.nsf && !x.cvt && x.fmto = 0 && x.sstride = 0 && x.dstride = 0 && x.remote = 0
  | _ => false

/-- The tile formats of a station endpoint: what is popped or read, and what is pushed or written. -/
def tileIn (x : Desc) : Option Fmt := fmtOf x.fmt
def tileOut (x : Desc) : Option Fmt := if x.cvt then fmtOf x.fmto else fmtOf x.fmt

def fSize (f : Option Fmt) : Nat := (f.map Fmt.tileBytes).getD 0

/-- Element widths of a conversion between memories: plain formats only; 1 and 1 without CVT. -/
def cvtWidths (x : Desc) : Option (Nat × Nat) :=
  if ¬ x.cvt then some (1, 1)
  else
    match fmtOf x.fmt, fmtOf x.fmto with
    | some a, some b => if a.scaleBytes = 0 ∧ b.scaleBytes = 0 then some (a.bits, b.bits) else none
    | _, _ => none

/-- Resolves the station endpoints, completes the admission and begins the job (R35). -/
def admitJob (c : Nat) (j : DmaJob) (d : Dev) : Dev :=
  let x := j.desc
  match (if x.sk = 3 ∧ x.op ≠ 2 then d.resolveSt c true (fun n => 12 ≤ n && n ≤ 15) (x.src % 64) else .ok 0),
      (if x.dk = 3 then d.resolveSt c false (fun n => 8 ≤ n && n ≤ 11) (x.dst % 64) else .ok 0) with
  | .error k, _ => d.stFault c 3 (x.src % 64) k
  | _, .error k => d.stFault c 3 (x.dst % 64) k
  | .ok a, .ok b =>
    (d.begin c 3 ((if x.sk = 3 ∧ x.op ≠ 2 then [a] else []) ++ (if x.dk = 3 then [b] else []))).setJob c
      { j with rin := a, rout := b, checked := true }

/-- A remote destination's stream (R177): open for the partition to the named device. -/
def remoteBad (d : Dev) (c : Nat) (x : Desc) : Bool :=
  x.dk = 4 && (bits x.remote 31 20 ≠ 0 || bits x.remote 63 49 ≠ 0 || !(d.ctxOpen (bits x.remote 48 32) (d.partOf c))
    || decide ((d.ctx (bits x.remote 48 32)).fdev ≠ bits x.remote 19 0))

/-- The alignment and range of one side of a copy or fill (R177). -/
def sideBad (kind a stride len rows : Nat) : Option FArgs :=
  if a % 4 ≠ 0 ∨ stride % 4 ≠ 0 then some { cause := cALIGN, addr := a, aspace := spcOf kind }
  else if spaceEnd kind < a + (rows - 1) * stride + len then some { cause := cOPERAND }
  else none

/-- Admits a copy or fill of op `op` (R176 to R178, R180). -/
def admitMove (c op : Nat) (d : Dev) : Dev :=
  match (d.core c).dm.job with
  | none => d
  | some j =>
    let x := j.desc
    if j.checked ∨ j.direct ∨ x.op ≠ op then d
    else
      let stn := (x.sk = 3 && op ≠ 2) || x.dk = 3
      if ¬ unusedOk x ∨ 3 < x.sk ∨ 4 < x.dk ∨ x.csop = 3 ∨ x.rows = 0 ∨ (stn ∧ x.rows ≠ 1) ∨ d.remoteBad c x then
        d.dmaFault c { cause := cOPERAND }
      else if stn ∧ (tileIn x = none ∨ tileOut x = none) then d.dmaFault c { cause := cOPERAND }
      else
        match cvtWidths x, stn with
        | none, false => d.dmaFault c { cause := cOPERAND }
        | w, _ =>
          let (wi, wo) := w.getD (1, 1)
          let drow := if stn then x.rowlen * fSize (tileOut x) else x.rowlen * wo / wi
          let total := if stn then drow else x.rows * drow
          let srcLen := if stn then x.rowlen * fSize (tileIn x) else x.rowlen
          let units := if stn then x.rowlen else (total + unitBytes - 1) / unitBytes
          let bad :=
            if ¬ stn ∧ (x.rowlen % 4 ≠ 0 ∨ drow * wi ≠ x.rowlen * wo ∨ drow % 4 ≠ 0) then
              some { cause := cALIGN, addr := x.dst }
            else
              match (if x.dk = 3 then none else sideBad x.dk x.dst x.dstride (if x.sk = 3 then 0 else drow) x.rows) with
              | some f => some f
              | none => if op = 2 ∨ x.sk = 3 then none else sideBad x.sk x.src x.sstride srcLen x.rows
          match bad with
          | some f => d.dmaFault c f
          | none =>
            if 64 < (total + x.fragBytes - 1) / x.fragBytes then d.dmaFault c { cause := cOPERAND }
            else if x.sten ∧ x.staddr % 16 ≠ 0 then d.dmaFault c { cause := cALIGN, addr := x.staddr }
            else
              let loose := !stn && op = 1 && x.sk = x.dk && x.src < x.dst + (x.rows - 1) * x.dstride + drow
                && x.dst < x.src + (x.rows - 1) * x.sstride + x.rowlen
              d.admitJob c { j with total := total, drow := if stn then max 1 total else drow, nunits := units, loose := loose }

/-- COPY and FILL. -/
def copy (c : Nat) (d : Dev) : Dev := if d.engReady c 3 then d.admitMove c 1 else d
def fill (c : Nat) (d : Dev) : Dev := if d.engReady c 3 then d.admitMove c 2 else d

/-- Admits a spill save (op 3) or restore (op 4) (R176, R184). -/
def admitSpill (c op : Nat) (d : Dev) : Dev :=
  match (d.core c).dm.job with
  | none => d
  | some j =>
    let x := j.desc
    if j.checked ∨ j.direct ∨ x.op ≠ op then d
    else
      let mk := if op = 3 then x.dk else x.sk
      let sk := if op = 3 then x.sk else x.dk
      let most := x.rowlen * maxRecord x.fmt (saveMode x.fmt x.nsf)
      let total := if op = 3 then min x.remote most else x.rowlen * fSize (fmtOf x.fmt)
      if ¬ unusedOk x ∨ 2 < mk ∨ sk ≠ 3 ∨ x.csop = 3 ∨ x.rows ≠ 1 ∨ fmtOf x.fmt = none
        ∨ 64 < (total + x.fragBytes - 1) / x.fragBytes then d.dmaFault c { cause := cOPERAND }
      else if x.sten ∧ x.staddr % 16 ≠ 0 then d.dmaFault c { cause := cALIGN, addr := x.staddr }
      else d.admitJob c { j with total := total, drow := max 1 total, nunits := x.rowlen }

/-- SPILL_SAVE and SPILL_RESTORE. -/
def spillSave (c : Nat) (d : Dev) : Dev := if d.engReady c 3 then d.admitSpill c 3 else d
def spillRestore (c : Nat) (d : Dev) : Dev := if d.engReady c 3 then d.admitSpill c 4 else d

/-- dld and dst (R61, R184): one tile between memory and a station, through the spillway with SPW = 1. -/
def dldst (op c : Nat) (load : Bool) (d : Dev) : Dev :=
  d.onHead c 3 op fun q d =>
    if (d.core c).dm.job.isSome then d
    else
      let w := q.word
      let spc := wF w 32 31
      let f := wF w 37 33
      let a := (q.ra + (if wLong w then q.ext else 0)).toNat
      let spw := wF w 30 30 = 1
      if spc = 3 ∨ fmtOf f = none then d.dmaFault c { cause := cOPERAND }
      else if a % 4 ≠ 0 then d.dmaFault c { cause := cALIGN, addr := a, aspace := spc }
      else
        let x : Desc := { parseDesc [] with
          op := if spw then (if load then 4 else 3) else 1, sk := if load then spc else 3, dk := if load then 3 else spc,
          fmt := f, src := if load then a else wF w 48 43, dst := if load then wF w 48 43 else a, rowlen := 1, rows := 1,
          remote := if spw && !load then 2 ^ 48 else 0, frag := 15 }
        d.admitJob c { jobOf x true with total := fSize (fmtOf f), drow := max 1 (fSize (fmtOf f)), nunits := 1 }

def dld (c : Nat) (d : Dev) : Dev := d.dldst 0x08 c true
def dst (c : Nat) (d : Dev) : Dev := d.dldst 0x09 c false

/-! Units (R178, R180). -/

/-- The addresses of destination bytes [off, off + len), and of the source bytes that fill them. -/
def dstPieces (j : DmaJob) (off len : Nat) : List (Nat × Nat) :=
  (rowPieces j.drow off (off + len)).map fun (r, o, n) => (j.desc.dst + r * j.desc.dstride + o, n)
def srcPieces (j : DmaJob) (off len : Nat) : List (Nat × Nat) :=
  let (wi, wo) := (cvtWidths j.desc).getD (1, 1)
  (rowPieces j.drow off (off + len)).map fun (r, o, n) => (j.desc.src + r * j.desc.sstride + o * wi / wo, n * wi / wo)

/-- Translation and protection of a unit's pieces at its issue (R178): the first failing byte, or a page to copy. -/
def checkPieces (d : Dev) (c kind : Nat) (acc : Acc) : List (Nat × Nat) → Option (MFault × Nat)
  | [] => none
  | (a, n) :: r =>
    let one : Option (MFault × Nat) :=
      match kind with
      | 0 => if 0x800000 < a + n then some (.translation, a) else none
      | 1 =>
        match d.poolPieces (d.partOf c) (pieces a n) with
        | .error f => some f
        | .ok _ => none
      | 2 =>
        match (d.resolveAll (d.partOf c) (d.cmdSlot c) acc (pieces a n)).1 with
        | .error f => some f
        | .ok _ => none
      | _ => none
    match one with
    | some f => some f
    | none => checkPieces d c kind acc r

/-- Reads the pieces of a unit's source. -/
def readRuns (c kind : Nat) (ue : Bool) : List (Nat × Nat) → Dev → MRes (List Byte) × Dev
  | [], d => (.ok [], d)
  | (a, n) :: r, d =>
    match d.coreRead c 3 kind a n ue with
    | (.ok b, d) =>
      match readRuns c kind ue r d with
      | (.ok b', d) => (.ok (b ++ b'), d)
      | x => x
    | (.sent, d) => (.sent, d.waitRemote c 3 a)
    | x => x

/-- Reads pieces in runs of at most 512 bytes, the most that one READ packet asks for (Table RT-3). -/
def readPieces (c kind : Nat) (ue : Bool) (l : List (Nat × Nat)) (d : Dev) : MRes (List Byte) × Dev :=
  readRuns c kind ue (l.flatMap fun (a, n) => (List.range ((n + 511) / 512)).map fun i => (a + 512 * i, min 512 (n - 512 * i))) d

/-- Writes the pieces of a unit's destination; a wait leaves what was written in place, for the repeated unit writes the same bytes. -/
def writePieces (c kind : Nat) : List (Nat × Nat) → List Byte → Dev → MRes Unit × Dev
  | [], _, d => (.ok (), d)
  | (a, n) :: r, bs, d =>
    match d.coreWrite c 3 kind a (bs.take n) with
    | (.ok _, d) => writePieces c kind r (bs.drop n) d
    | x => x

/-- Pushes a unit into flight. -/
def launch (c : Nat) (u : DUnit) (f : DmaJob → DmaJob) (d : Dev) : Dev :=
  d.updJob c fun j => f { j with next := j.next + 1, inflight := j.inflight ++ [u], off := j.off + u.len }

/-- A fill pattern's bytes at an address (R176): byte i of the pattern stands where the address is i modulo 8. -/
def patBytes (pat a n : Nat) : List Byte := (List.range n).map fun i => BitVec.ofNat 8 (pat / 256 ^ ((a + i) % 8))

/-- A conversion between memories (R108 to R110): plain elements, IDX counted in the destination stream. -/
def cvtBytes (d : Dev) (c : Nat) (fi fo : Fmt) (base : Nat) (b : List Byte) : List Byte × List GCls :=
  let n := b.length * 8 / fi.bits
  let r := (List.range n).map fun i =>
    encodePlain fo (d.rndOf c 3 ((base + i) % 4096)) (d.eng c 3).e4m3nan (plainVal fi (elemAt fi.bits b i))
  (leBytes (n * fo.bits / 8) (packElems fo.bits (r.map Prod.fst)), r.map Prod.snd)

/-- A whole tile converted for a station endpoint with CVT. -/
def cvtTile (c : Nat) (x : Desc) (b : List Byte) (d : Dev) : List Byte × Bool × Dev :=
  match x.cvt, fmtOf x.fmt, fmtOf x.fmto with
  | true, some fi, some fo =>
    let r := encodeTile fo (d.rndOf c 3) (d.eng c 3).e4m3nan (tileVals fi b)
    (r.1, marks r.2, (d.gaugeCount c 3 r.2).updJob c fun j => { j with stoch := j.stoch || ((d.eng c 3).rnd && canDiscard fi fo) })
  | _, _, _ => (b, false, d)

/-- Issues a unit that pops a tile (R178): the length is checked where a format is named (R41), the destination before the pop. -/
def issuePop (c : Nat) (j : DmaJob) (d : Dev) : Dev :=
  let x := j.desc
  let n := j.rin
  if ¬ d.canPop c n then d.stallOn c 3 n false
  else
  let d := d.updEng c 3 fun g => if g.stall = some n then { g with stall := none } else g
  if (x.cvt || j.direct || x.op = 3) && decide (d.headLen c n ≠ some (fSize (fmtOf x.fmt))) then
    d.stFault c 3 (x.src % 64) .tileSize
  else
    match (d.pop c n) with
    | (none, d) => d
    | (some (b, m), d') =>
      if x.op = 3 then
        let mode := saveMode x.fmt x.nsf
        let s := saveBody x.fmt x.nsf (fun i => Config.free (d.ctr + i)) (d.rndOf c 3) (d.eng c 3).e4m3nan b
        let r := record x.fmt mode x.tag b.length s.1
        if x.remote < j.recOut + r.length then d.dmaFault c { cause := cOPERAND }
        else
          match checkPieces d c x.dk .write [(x.dst + j.recOut, r.length)] with
          | some (.cow v, _) => d.waitCow c 3 v
          | some (f, a) => d.dmaFault c (memFault f a x.dk)
          | none =>
            let d' := { d' with ctr := d'.ctr + 64 }
            let d' := ((d'.gaugeCount c 3 s.2.2).incWrap (Reg.SPW_IN_BYTES c) b.length).incWrap (Reg.SPW_OUT_BYTES c) r.length
            (d'.incSat (Reg.SPW_RAWROW_RAW c) s.2.1).launch c ⟨j.next, j.recOut, r.length, r, m, false⟩ fun j =>
              { j with recOut := j.recOut + r.length, stoch := j.stoch || (mode = 1 && (d.eng c 3).rnd) }
      else
        let (out, m', d') := d'.cvtTile c x b
        match (if x.dk = 3 then none else checkPieces d c x.dk .write [(x.dst + j.off, out.length)]) with
        | some (.cow v, _) => d.waitCow c 3 v
        | some (f, a) => d.dmaFault c (memFault f a x.dk)
        | none => d'.launch c ⟨j.next, j.off, out.length, out, m', false⟩ id

/-- Checks a record read by a restore (R188): its tile, or the fault. -/
def checkRecord (x : Desc) (a : Nat) (r : List Byte) : Except FArgs Unit :=
  let f (lo n : Nat) : Nat := leNat ((r.drop lo).take n)
  let spc := x.sk
  if f 0 2 ≠ 0xA5C3 ∨ maxRecord x.fmt (f 3 1) < f 4 4 ∨ 2 < f 3 1 ∨ f 16 4 ≠ crc32c (r.drop 32) then
    .error { cause := cPOISON, addr := a, aspace := spc }
  else if f 2 1 ≠ x.fmt ∨ f 8 8 ≠ x.tag then .error { cause := cOPERAND, addr := a, aspace := spc }
  else .ok ()

/-- Issues a unit that restores a record: the record is read and checked before anything is pushed (R188). -/
def issueRestore (c : Nat) (ue : Bool) (j : DmaJob) (d : Dev) : Dev :=
  let x := j.desc
  let a := x.src + j.srcPos
  match d.coreRead c 3 x.sk a 32 ue with
  | (.fault f, d) => d.dmaFault c f
  | (.cow v, d) => d.waitCow c 3 v
  | (.sent, d) => d.waitRemote c 3 a
  | (.full, d) => d
  | (.ok h, d) =>
    let clen := leNat ((h.drop 4).take 4)
    let clen := if clen < 32 ∨ maxRecord x.fmt (leNat ((h.drop 3).take 1)) < clen then 32 else clen
    match (if clen = 32 then (MRes.ok [], d) else d.coreRead c 3 x.sk (a + 32) (clen - 32) false) with
    | (.fault f, d) => d.dmaFault c f
    | (.cow v, d) => d.waitCow c 3 v
    | (.sent, d) => d.waitRemote c 3 (a + 32)
    | (.full, d) => d
    | (.ok b, d) =>
      match checkRecord x a (h ++ b) with
      | .error f => (d.incSat (Reg.SPW_RAWROW_BADREC c) 1).dmaFault c f
      | .ok _ =>
        -- a record shorter than its body's code asks for leaves the bytes beyond it open
        let mode := leNat ((h.drop 3).take 1)
        let (z, d) := d.freshBytes (maxRecord x.fmt mode - 32 - b.length)
        let t := restoreBody x.fmt mode x.rawout (d.rndOf c 3) (d.eng c 3).e4m3nan (b ++ z)
        (d.gaugeCount c 3 t.2.2).launch c ⟨j.next, j.off, t.1.length, t.1, marks t.2.2, false⟩ fun j =>
          { j with srcPos := j.srcPos + clen,
                   stoch := j.stoch || ((d.eng c 3).rnd && mode = 1 && !x.rawout && decide (x.fmt ≠ 0)) }

/-- Issues a unit of memory bytes: a source tile for a station, or up to 4 KiB between memories (R178). -/
def issueMem (c : Nat) (j : DmaJob) (d : Dev) : Dev :=
  let x := j.desc
  let toSt := x.dk = 3
  let len := if toSt then fSize (tileIn x) else min unitBytes (j.total - j.next * unitBytes)
  let off := if toSt then j.next * fSize (tileIn x) else j.next * unitBytes
  let sp := if x.op = 2 then [] else if toSt then [(x.src + off, len)] else srcPieces j off len
  let dp := if toSt then [] else dstPieces j off len
  match checkPieces d c x.dk .write dp with
  | some (.cow v, _) => d.waitCow c 3 v
  | some (f, a) => d.dmaFault c (memFault f a x.dk)
  | none =>
    match checkPieces d c x.sk .read sp with
    | some (.cow v, _) => d.waitCow c 3 v
    | some (f, a) => d.dmaFault c (memFault f a x.sk)
    | none => d.launch c ⟨j.next, if toSt then j.off else off, if toSt then fSize (tileOut x) else len, [], false, false⟩ id

/-- DMA_UNIT_ISSUE (R178, R181): the next unit, while fewer than 16 are in flight and no stop is asked. -/
def dmaUnitIssue (c : Nat) (ue : Bool) (d : Dev) : Dev :=
  match (d.core c).dm.job with
  | none => d
  | some j =>
    if ¬ (j.checked && d.engReady c 3 && !(d.stopAsked c) && decide (j.inflight.length < 16) && decide (j.next < j.nunits)) then d
    else
      let r :=
        if j.desc.op = 4 then d.issueRestore c ue j
        else if j.desc.sk = 3 ∧ j.desc.op ≠ 2 then d.issuePop c j
        else d.issueMem c j
      -- a fault is precise: the local units in flight resolve first (R54, R178)
      if r.valid c 3 ∧ j.inflight.any (fun u => !u.sent) then d else r

/-- The bank of the unit that failed (Table FT-3): the stack or pool that holds the bytes, or the core's quadrant. -/
def failBank (d : Dev) (c kind a : Nat) : Nat :=
  match kind with
  | 1 => 40 + bits a 28 28
  | 2 =>
    match (d.resolve (d.partOf c) (d.cmdSlot c) .read a).1 with
    | .ok (.hbm pa) => 20 + d.stackOf pa
    | _ => 32 + c / 18
  | _ => 32 + c / 18

/-- Poisons destination bytes [off, off + len) of a job in HBM or the pool (R180). -/
def poisonDst (c : Nat) (j : DmaJob) (off len : Nat) (d : Dev) : Dev :=
  (if j.desc.sk = 3 then [(j.desc.dst + off, len)] else dstPieces j off len).foldl (fun d (a, n) =>
    match j.desc.dk with
    | 1 =>
      match d.poolPieces (d.partOf c) (pieces a n) with
      | .ok l => l.foldl (fun d (k, m) => d.poolPoisonRange k m) d
      | .error _ => d
    | 2 => d.vaPoison (d.partOf c) (d.cmdSlot c) a n
    | _ => d) d

/-- The destination bytes a job has, as far as they are known. -/
def jobTotal (j : DmaJob) : Nat := if j.desc.op = 3 then j.recOut else j.total

/-- The JSEQ of the command whose part core c runs; 0 when it runs none. -/
def cmdSeq (d : Dev) (c : Nat) : Nat :=
  match (d.core c).cmd with
  | some (p, s) => (d.jr (slotBase p + s)).jseq
  | none => 0

/-- FRAGMENT_FAIL (R180, R373): the unit's fragments fail, their whole ranges are poisoned, the failure is recorded. -/
def fragFail (c : Nat) (j : DmaJob) (u : DUnit) (cause kind a : Nat) (d : Dev) : Dev :=
  let fs := j.desc.fragBytes
  let fr := (List.range ((u.off + max 1 u.len + fs - 1) / fs - u.off / fs)).map fun i => u.off / fs + i
  let d := d.err (d.failBank c kind a)
    { cls := 0x44, part := d.coreOwner c, unit := if (d.core c).onSpare then 18 else c % 18, info := cause, addr := a,
      extra := d.cmdSeq c }
  let d := fr.foldl (fun d i => d.poisonDst c j (i * fs) (min fs (jobTotal j - i * fs))) d
  -- FABRIC marks the attempt, POISON decides its outcome (Table AW-6)
  let d := if cause = cFABRIC then d.jrMark (d.coreCmd c) else d.jrOutcome (d.coreCmd c) (2, 0x07, 0)
  d.updJob c fun j =>
    { j with failed := j.failed ++ fr.filter fun i => !(j.failed.contains i), cause := if j.cause = 0 then cause else j.cause }

/-- Takes a unit out of flight as resolved. -/
def land (c : Nat) (u : DUnit) (d : Dev) : Dev :=
  d.updJob c fun j => { j with inflight := j.inflight.filter fun v => v.idx ≠ u.idx, done := j.done ++ [(u.idx, u.len)] }

/-- A unit whose push is withheld for failed bytes (R180): NOPUSH, the record, and POISON whatever FOF holds. -/
def noPush (c : Nat) (j : DmaJob) (a : Nat) (d : Dev) : Dev :=
  let d := (d.incSat (Reg.DMA_FRAGCNT_NOPUSH c) 1).err (d.failBank c j.desc.sk a)
    { cls := 0x44, part := d.coreOwner c, unit := if (d.core c).onSpare then 18 else c % 18, info := cPOISON, addr := a,
      extra := d.cmdSeq c }
  d.dmaFault c { cause := cPOISON, addr := a, aspace := spcOf j.desc.sk }

/-- Hands a unit to its remote stream (R177, R248): it completes at its acknowledgement. -/
def remoteUnit (c : Nat) (j : DmaJob) (u : DUnit) (b : List Byte) (d : Dev) : Dev :=
  let k := bits j.desc.remote 48 32
  let ps := splitPayload (d.ctx k).gcm b
  if ¬ (d.winFits k ps.length) then d
  else
    let fs := j.desc.fragBytes
    let a := match dstPieces j u.off u.len with
      | (a, _) :: _ => a
      | [] => j.desc.dst + u.off
    (d.sendOp k ptWRITE false (.dma c u.idx) a (j.desc.dst + u.off / fs * fs) (j.desc.frag + 12) ps).updJob c fun j =>
      { j with inflight := j.inflight.map fun v => if v.idx = u.idx then { v with sent := true } else v }

/-- Writes a unit's bytes to its destination and lands it; a destination that cannot be reached fails its fragment. -/
def unitWrite (c : Nat) (j : DmaJob) (u : DUnit) (b : List Byte) (d : Dev) : Dev :=
  let x := j.desc
  let (b, d) := if j.loose then d.freshBytes b.length else (b, d)
  if x.dk = 4 then d.remoteUnit c j u b
  else
    match writePieces c x.dk (if x.sk = 3 then [(x.dst + u.off, u.len)] else dstPieces j u.off u.len) b d with
    | (.ok _, d) => d.land c u
    | (.cow v, d) => d.waitCow c 3 v
    | (.fault f, d') => if f.cause = cPOISON ∨ f.cause = cFABRIC then (d'.fragFail c j u f.cause x.dk f.addr).land c u else d.dmaFault c f
    | (_, d) => d

/-- The source bytes of a memory-to-memory unit, converted as CVT says. -/
def unitCvt (c : Nat) (j : DmaJob) (u : DUnit) (b : List Byte) (d : Dev) : List Byte × Dev :=
  match j.desc.cvt, fmtOf j.desc.fmt, fmtOf j.desc.fmto with
  | true, some fi, some fo =>
    let r := d.cvtBytes c fi fo (u.off * 8 / fo.bits) b
    (r.1, (d.gaugeCount c 3 r.2).updJob c fun j => { j with stoch := j.stoch || ((d.eng c 3).rnd && canDiscard fi fo) })
  | _, _, _ => (b, d)

/-- Pushes a unit's tile to the station destination, in unit order (R178). -/
def unitPush (c : Nat) (j : DmaJob) (u : DUnit) (fmt : Nat) (b : List Byte) (marked : Bool) (d : Dev) : Dev :=
  if ((j.inflight.head?).map DUnit.idx) ≠ some u.idx then d
  else if ¬ d.canPush c j.rout then d.stallOn c 3 j.rout true
  else if d.tooBig c j.rout b.length then d.stFault c 3 (j.desc.dst % 64) .tileSize
  else ((d.updEng c 3 fun g => { g with stall := none }).push c j.rout fmt b marked).land c { u with len := b.length }

/-- A unit whose destination is a station and whose source is memory or a pattern. -/
def unitTile (c : Nat) (j : DmaJob) (u : DUnit) (ue : Bool) (d : Dev) : Dev :=
  let x := j.desc
  let len := fSize (tileIn x)
  let a := x.src + u.idx * len
  if ((j.inflight.head?).map DUnit.idx) ≠ some u.idx then d
  else if ¬ d.canPush c j.rout then d.stallOn c 3 j.rout true
  else if x.op = 2 then d.unitPush c j u x.fmt (patBytes x.src 0 len) false
  else
    match readPieces c x.sk ue [(a, len)] d with
    | (.ok b, d) =>
      let (b, m, d) := d.cvtTile c x b
      d.unitPush c j u (if x.cvt then x.fmto else x.fmt) b m
    | (.cow v, d) => d.waitCow c 3 v
    | (.fault f, d) => if f.cause = cPOISON then d.noPush c j f.addr else d.dmaFault c f
    | (_, d) => d

/-- DMA_UNIT_COMPLETE (R178 to R180): the unit is performed; `fail` says that the memory or the stream could not complete it,
and `ue` that a source sector is uncorrectable. -/
def dmaUnitComplete (c idx : Nat) (fail ue : Bool) (d : Dev) : Dev :=
  match (d.core c).dm.job with
  | none => d
  | some j =>
    match j.inflight.find? fun u => u.idx = idx with
    | none => d
    | some u =>
      let x := j.desc
      if d.valid c 3 ∨ (d.eng c 3).rwait.isSome ∨ (d.eng c 3).cow.isSome ∨ (x.dk = 3 ∧ (d.eng c 3).stopped) then d
      else if u.sent then (if fail then (d.fragFail c j u cFABRIC x.dk (x.dst + u.off)).land c u else d)
      else if x.dk = 3 then
        (if fail then d.noPush c j (x.src + u.idx * fSize (tileIn x))
         else if x.op = 4 ∨ x.sk = 3 then d.unitPush c j u (if x.rawout ∧ (codedLay x.fmt).isSome ∧ u.bytes.length = fmtNSF8.tileBytes then 0x0B
              else if x.cvt then x.fmto else x.fmt) u.bytes u.marked
         else d.unitTile c j u ue)
      else if fail then (d.fragFail c j u cPOISON x.dk (x.dst + u.off)).land c u
      else if x.op = 3 ∨ x.sk = 3 then d.unitWrite c j u u.bytes
      else if x.op = 2 then
        d.unitWrite c j u ((dstPieces j u.off u.len).flatMap fun (a, n) => patBytes x.src a n)
      else
        match readPieces c x.sk ue (srcPieces j u.off u.len) d with
        | (.ok b, d) =>
          let (b, d) := d.unitCvt c j u b
          d.unitWrite c j u b
        | (.cow v, d) => d.waitCow c 3 v
        | (.fault f, d') =>
          if f.cause = cPOISON then (d'.fragFail c j u cPOISON x.sk f.addr).land c u else d.dmaFault c f
        | (_, d) => d

/-- The acknowledgement of a remote unit, or its failure (R248): the unit resolves. -/
def dmaUnitAcked (c idx : Nat) (ok : Bool) (d : Dev) : Dev :=
  match (d.core c).dm.job with
  | none => d
  | some j =>
    match j.inflight.find? fun u => u.idx = idx && u.sent with
    | none => d
    | some u => if ok then d.land c u else (d.fragFail c j u cFABRIC j.desc.dk (j.desc.dst + u.off)).land c u

/-- The status block (Table DM-2). -/
def statusBlock (j : DmaJob) : List Byte :=
  let fs := j.desc.fragBytes
  let n := (jobTotal j + fs - 1) / fs
  let map := j.failed.foldl (fun s i => s + 2 ^ i) 0
  let code := if j.failed.isEmpty then 0 else if j.failed.length = n then 2 else 1
  leBytes 8 map ++ leBytes 4 (if j.desc.op = 3 then j.recOut else 0) ++ leBytes 2 n ++ leBytes 1 code ++ leBytes 1 j.cause

/-- The virtual ranges of fragment i (R331). -/
def fragRanges (j : DmaJob) (i : Nat) : List (Nat × Nat) :=
  let off := i * j.desc.fragBytes
  let len := min j.desc.fragBytes (jobTotal j - off)
  if j.desc.sk = 3 then [(j.desc.dst + off, len)] else dstPieces j off len

/-- Ends a job: the next descriptor of a dexecn, or the instruction completes (R61, R110). -/
def endJob (c : Nat) (stoch : Bool) (d : Dev) : Dev :=
  match d.qHead c 3 with
  | none => d
  | some q =>
    let i := (d.core c).dm.descNo
    let more := wOp q.word = 0x02 && decide (i < wF q.word 43 36)
    let st := stoch || (d.core c).dm.stoch
    if more then d.updCore c fun x => { x with dm := ⟨none, i + 1, st⟩ }
    else (d.updCore c fun x => { x with dm := Dm.reset }).engDone c 3 st

/-- DESCRIPTOR_COMPLETE (R179, R180): every unit has resolved; failed ranges are poisoned and counted, the status block is
written, then the completion update as a release; with FOF and a failed fragment the instruction faults with POISON. -/
def descriptorComplete (c : Nat) (d : Dev) : Dev :=
  match (d.core c).dm.job with
  | none => d
  | some j =>
    let x := j.desc
    if ¬ (j.checked && j.inflight.isEmpty && decide (j.nunits ≤ j.next) && d.engReady c 3)
      ∨ (x.sig ∧ (d.eng c 3).remote ≠ []) then d
    else
      let fs := x.fragBytes
      let d := j.failed.foldl (fun d i => d.poisonDst c j (i * fs) (min fs (jobTotal j - i * fs))) d
      let d := (d.incSat (Reg.DMA_FRAGCNT_FAILED c) j.failed.length).jrPoison (d.coreCmd c)
        (if x.dk = 2 then j.failed.map (fragRanges j) else if x.dk = 0 then [] else j.failed.map fun _ => [])
      let d := if x.sten then d.tileWrite c x.staddr (statusBlock j) else d
      let d := if x.sig then d.flagUpdate c x.cflag x.csop x.cval else d
      if x.fof ∧ j.failed ≠ [] then
        -- every unit is complete: a restart continues after the descriptor
        (d.dmaFault c { cause := cPOISON, addr := x.dst + (j.failed.foldl min 64) * fs, aspace := spcOf x.dk }).updJob c fun j =>
          { j with desc := { x with fof := false, sig := false, sten := false }, failed := [] }
      else d.endJob c j.stoch

end Dev
end Sys2Proof.Machine
end

