-- ==== Sys2Proof/Machine/Quiet.lean ====
section
/-!
DEFINITION. Entering and leaving quiet state (R360 to R364): the scopes, the causes that block an exit, the records. What the
units do when an entry completes stands with them and is put together in Faults.lean.
-/
namespace Sys2Proof.Machine.Dev

/-- The kinds of cause that block a partition's exit (QT_PCAUSE.BLOCK). -/
def qMANUAL : Nat := 0
def qNOSPARE : Nat := 1
def qJLOSS : Nat := 2

/-- Asks every core of a list to stop for a cause (R73). -/
def stopCores (l : List Nat) (why : Nat) (d : Dev) : Dev := l.foldl (fun d c => d.stopReq c why) d

/-- Entry to partition scope (R361 to R364): the record in bank 48 + p, the blocking cause, and from the trigger on the writes
closed, the intake stopped, QUIET_N asserted and the cores asked to stop. -/
def quietPart (p cls block info extra : Nat) (d : Dev) : Dev :=
  let d := d.err (48 + p) { sev := 2, cls := cls, part := some p, qscope := 1, info := info, extra := extra }
  let d := d.wr (Reg.QT_PCAUSE_BLOCK p) (Nat.lor (d.rd (Reg.QT_PCAUSE_BLOCK p)) (2 ^ block))
  if (d.part p).quiet then d
  else
    ((d.wr (Reg.QT_PCAUSE_FIRST p) cls).updPart p fun x => { x with quiet := true, entering := true, held := true }).quietPin
      |>.stopCores (d.coresOf p) 8

/-- Entry to device scope: every partition is quiet, every core is asked to stop (R360 to R362). -/
def quietDevice (cls bank info addr : Nat) (unit : Nat := 0) (d : Dev) : Dev :=
  let d := d.err bank { sev := 3, cls := cls, qscope := 3, info := info, addr := addr, unit := unit }
  if d.devQuiet then d
  else
    let d := (d.wr Reg.QT_STAT_DEVCAUSE cls)
    let d := ({ d with devQuiet := true, devEntering := true }).quietPin
    let d := (List.range 8).foldl (fun d p => d.updPart p fun x => { x with held := true }) d
    d.stopCores (List.range 144) 8

end Sys2Proof.Machine.Dev
end

