-- ==== Sys2Proof/Machine/Sync.lean ====
section
/-!
DEFINITION. Flags, hall passes, roll calls and watchdogs (R149 to R174). Writes are visible as soon as they are made, so a
release waits only for what other devices have not acknowledged (R152).
-/
namespace Sys2Proof.Machine

/-- Who issues a synchronisation instruction: the sequencer, with its fields, or the head of an engine's queue. -/
inductive SyncAt where
  | seq (g : Guard) (f : SyF)
  | eng (e : Fin 3)             -- engines 1 to 3 as 0 to 2
  deriving DecidableEq, Repr

/-- The operands of a synchronisation instruction, taken at dispatch (R53, R62). -/
structure SyOp where
  flag : Nat
  sop : Nat
  rem : Bool
  v : Word
  target : Word

/-- The payloads of the fabric's synchronisation packets. The spec names their contents and not their places. -/
def flagPayload (lcore flag sop v : Nat) : List Byte :=
  leBytes 1 lcore ++ leBytes 1 flag ++ leBytes 1 sop ++ leBytes 5 0 ++ leBytes 8 v
def rollPayload (n count gen : Nat) : List Byte := leBytes 1 n ++ leBytes 3 0 ++ leBytes 4 count ++ leBytes 4 gen ++ leBytes 4 0

namespace Dev

/-- Fields of a flag target word (Table SY-2). -/
def tgDev (w : Word) : Nat := bits w.toNat 19 0
def tgCore (w : Word) : Nat := bits w.toNat 27 20
def tgStream (w : Word) : Nat := bits w.toNat 48 32

/-- Whether a flag target word may be used by partition p (R158). -/
def targetOk (d : Dev) (p : Nat) (w : Word) : Bool :=
  bits w.toNat 31 28 = 0 && bits w.toNat 63 49 = 0 &&
  (if tgDev w = d.myDev then (d.deviceNo p (tgCore w)).isSome
   else tgCore w < 144 && d.ctxOpen (tgStream w) p && decide ((d.ctx (tgStream w)).fdev = tgDev w))

/-- Hands a remote update to the NoC or to its stream (R158, R159); none while the stream's window is full. -/
def sendFlag (c e : Nat) (o : SyOp) (d : Dev) : Option Dev :=
  let p := d.partOf c
  if tgDev o.target = d.myDev then
    match d.deviceNo p (tgCore o.target) with
    | some k => some { d with nocFlags := d.nocFlags ++ [(k, o.flag, o.sop, o.v.toNat)] }
    | none => some d
  else if ¬ (d.winFits (tgStream o.target) 1) then none
  else some (d.sendOp (tgStream o.target) ptFLAG true (.update c e) 0 0 0
    [(0, flagPayload (tgCore o.target) o.flag o.sop o.v.toNat)])

/-- What a synchronisation instruction came to. -/
inductive SyRes where
  | done (d : Dev)
  | fault (a : FArgs)
  | stall (d : Dev)
  | own (d : Dev)               -- has completed, or waits, by itself

/-- signal (R156, R158): an update without ordering. -/
def signalOp (c e : Nat) (o : SyOp) (d : Dev) : SyRes :=
  if 2 < o.sop then .fault { cause := cOPERAND }
  else if ¬ o.rem then .done (d.flagUpdate c o.flag o.sop o.v.toNat)
  else if ¬ (d.targetOk (d.partOf c) o.target) then .fault { cause := cOPERAND }
  else
    match d.sendFlag c e o with
    | some d => .done d
    | none => .stall d

/-- wait and acquire (R153, R154, R156): the test completes, or stalls its engine in place. -/
def testOp (c e : Nat) (o : SyOp) (w : Word) (d : Dev) : SyRes :=
  if o.rem ∨ 3 < o.sop then .fault { cause := cOPERAND }
  else .own ((if e = 0 then d.updCore c fun x => { x with stallWord := w } else d).startTest c e ⟨o.flag, o.sop, o.v⟩)

/-- release (R152): RELEASE_PERFORM applies the update once the engine's earlier writes allow it. -/
def releaseOp (c e : Nat) (o : SyOp) (d : Dev) : SyRes :=
  if 2 < o.sop ∨ (o.rem ∧ ¬ (d.targetOk (d.partOf c) o.target)) then .fault { cause := cOPERAND }
  else .own (d.updEng c e fun g => { g with releasing := some ⟨o.flag, o.sop, o.v, if o.rem then some o.target else none⟩ })

/-- Runs a synchronisation instruction from where it was issued. -/
def syncOp (op c : Nat) (at_ : SyncAt) (f : Nat → SyOp → Word → Dev → SyRes) (d : Dev) : Dev :=
  match at_ with
  | .seq g y =>
    let w := mkWord 0 false op g (opSY y)
    d.scalar c g w 0 false fun d =>
      let x := d.core c
      match f 0 ⟨y.flag.toNat, y.sop.toNat, y.rem, x.sr y.ra.toNat, x.sr y.rb.toNat⟩ w d with
      | .done d => .done d
      | .fault a => .fault a d
      | .stall d => .stall d
      | .own d => .jumped d
  | .eng e =>
    d.onHead c (e + 1) op fun q d =>
      match f (e + 1) ⟨wF q.word 48 41, wF q.word 40 38, wF q.word 32 32 = 1, q.ra, q.rb⟩ q.word d with
      | .done d => d.engDone c (e + 1) false
      | .fault a => d.engFault c (e + 1) a
      | .stall d => d
      | .own d => d

def signal (c : Nat) (a : SyncAt) (d : Dev) : Dev := d.syncOp 0x70 c a fun e o _ d => d.signalOp c e o
def wait (c : Nat) (a : SyncAt) (d : Dev) : Dev := d.syncOp 0x71 c a fun e o w d => d.testOp c e o w
def release (c : Nat) (a : SyncAt) (d : Dev) : Dev := d.syncOp 0x72 c a fun e o _ d => d.releaseOp c e o
def acquire (c : Nat) (a : SyncAt) (d : Dev) : Dev := d.syncOp 0x73 c a fun e o w d => d.testOp c e o w

/-- A nop or setm from where it was issued. -/
def nop (c : Nat) (g : Option Guard) (e : Nat) (d : Dev) : Dev :=
  match g with
  | some g => d.nopSeq c g
  | none => d.nopEng c e

/-- RELEASE_PERFORM (R152, R160): every write of the engine to another device is acknowledged, but for the stream that carries
the release itself. -/
def releasePerform (c e : Nat) (d : Dev) : Dev :=
  match (d.eng c e).releasing with
  | none => d
  | some r =>
    let own : Option Nat := r.remote.bind fun w => if tgDev w = d.myDev then none else some (tgStream w)
    if (d.eng c e).remote.any fun x => some x.1 ≠ own then d
    else
      let fin (d : Dev) : Dev :=
        let d := d.updEng c e fun g => { g with releasing := none }
        if e = 0 then d.retire c 8 else d.engDone c e false
      match r.remote with
      | none => fin (d.flagUpdate c r.flag r.sop r.v.toNat)
      | some w =>
        match d.sendFlag c e ⟨r.flag, r.sop, true, r.v, w⟩ with
        | some d => fin d
        | none => d

/-- FLAG over the NoC (R157, R158): the oldest update on the NoC reaches its home. -/
def flagNoc (d : Dev) : Dev :=
  match d.nocFlags with
  | [] => d
  | (c, n, sop, v) :: r => ({ d with nocFlags := r }).flagUpdate c n sop v

/-- FLAG from a packet applied at its home (R158): a target that is no core of the stream's partition is not applied. -/
def flagPacket (p : Nat) (b : List Byte) (d : Dev) : Dev :=
  match d.deviceNo p (byteField b 0 1) with
  | some c => d.flagUpdate c (byteField b 1 1) (byteField b 2 1) (byteField b 8 8)
  | none => d

/-- HAND_UPDATE (R151, R173): a set update. -/
def handUpdate (c n v : Nat) (d : Dev) : Dev := d.flagUpdate c n 0 v

/-! Hall passes (R162 to R164). -/

def epochOf (d : Dev) (c : Nat) : Nat := d.rd (Reg.SY_EPOCH_EPOCH c)

/-- Whether a held pass is orphaned (R162): no live epoch, or its owner's epoch has moved. -/
def orphaned (d : Dev) (p : Nat) (h : HallPass) : Bool :=
  h.held && (h.mark ||
    match d.deviceNo p h.owner with
    | some c => decide (d.epochOf c ≠ h.epoch)
    | none => true)

/-- Whether every instruction dispatched before a core-wide release has completed and its writes allow it (R155). -/
def coreWideReady (d : Dev) (c : Nat) : Bool :=
  [1, 2, 3].all (fun e => (d.eng c e).queue.isEmpty) && [0, 1, 2, 3].all (fun e => (d.eng c e).remote.isEmpty)

/-- Gives a pass to a core and its status to rd (Table SY-3). -/
def passTake (p n c rd : Nat) (d : Dev) : Dev :=
  let h := d.pass p n
  let status : Word := if h.held then 1 else 0
  (d.setPass p n { h with held := true, owner := d.localNo p c, epoch := d.epochOf c, mark := false }).updCore c fun x =>
    x.setSr rd status

/-- hp.acq (R155, R163). -/
def hpAcq (c : Nat) (g : Guard) (rd : BitVec 5) (n : BitVec 6) (d : Dev) : Dev :=
  let w := mkWord 0 false 0x74 g (rd.toNat * 2 ^ 44 + n.toNat * 2 ^ 38)
  d.scalar c g w 0 false fun d =>
    let p := d.partOf c
    let h := d.pass p n.toNat
    if h.held ∧ ¬ (d.orphaned p h) ∧ h.owner = d.localNo p c then
      .done (d.updCore c fun x => x.setSr rd.toNat 2)
    else if h.waiters.isEmpty ∧ (¬ h.held ∨ d.orphaned p h) then .done (d.passTake p n.toNat c rd.toNat)
    else .jumped ((d.setPass p n.toNat { h with waiters := h.waiters ++ [c] }).updCore c fun x =>
      { x with obj := some (.hallPass n.toNat rd.toNat), stallWord := w })

/-- HALL_PASS_GRANT (R163): a pass that is free or orphaned goes to the first waiter. -/
def hallPassGrant (p n : Nat) (d : Dev) : Dev :=
  let h := d.pass p n
  match h.waiters with
  | [] => d
  | c :: r =>
    match (d.core c).obj with
    | some (.hallPass _ rd) =>
      if ¬ h.held ∨ d.orphaned p h then
        (((d.passTake p n c rd).setPass p n
          { (d.passTake p n c rd).pass p n with waiters := r }).updCore c fun x => { x with obj := none }).retire c 8
      else d
    | _ => d.setPass p n { h with waiters := r }

/-- hp.rel (R155, R163): OPERAND for a pass the core does not hold at its current epoch. -/
def hpRel (c : Nat) (g : Guard) (n : BitVec 6) (d : Dev) : Dev :=
  d.scalar c g (mkWord 0 false 0x75 g (n.toNat * 2 ^ 43)) 0 false fun d =>
    let p := d.partOf c
    let h := d.pass p n.toNat
    if ¬ (d.coreWideReady c) then .stall d
    else if ¬ h.held ∨ d.orphaned p h ∨ h.owner ≠ d.localNo p c then .fault { cause := cOPERAND } d
    else .done (d.setPass p n.toNat { h with held := false, owner := 0, epoch := 0, mark := false })

/-- HP_CTL through core c's window (R173): frees a pass, or marks a held one orphaned. -/
def hpFree (c n : Nat) (d : Dev) : Dev :=
  let p := d.partOf c
  let h := d.pass p n
  if h.held then d.setPass p n { h with held := false, owner := 0, epoch := 0, mark := false } else d
def hpMark (c n : Nat) (d : Dev) : Dev :=
  let p := d.partOf c
  let h := d.pass p n
  if h.held then d.setPass p n { h with owner := 0xFF, mark := true } else d

/-! Roll calls (R165 to R168). -/

def rcEn (d : Dev) (c n : Nat) : Bool := d.flag (Reg.RC_CFG_EN c n)
def rcMember (d : Dev) (c n : Nat) : Bool := d.rcEn c n && d.flag (Reg.RC_CFG_MEMBER c n)
def rcGen (d : Dev) (c n : Nat) : Nat := d.rd (Reg.RC_STAT_GEN c n)
/-- The core that carries roll call n for partition p on this device: the first with EN = 1. -/
def rcCarrier (d : Dev) (p n : Nat) : Option Nat := (d.coresOf p).find? fun c => d.rcEn c n
/-- Whether core c is the roll call's home. -/
def rcHome (d : Dev) (c n : Nat) : Bool :=
  let p := d.partOf c
  d.rcEn c n && d.rd (Reg.RC_CFG_HDEV c n) = d.myDev && d.rd (Reg.RC_CFG_HCORE c n) = d.localNo p c

/-- Completes a core's rc.wait when its generation has moved (R166). -/
def rcWake (c n : Nat) (d : Dev) : Dev :=
  if (d.core c).obj = some (.rollCall n) ∧ d.rcGen c n ≠ tabGet 0 n (d.core c).rcRec then
    ((d.clrF (Reg.RC_STAT_ARRIVED c n)).updCore c fun x => { x with obj := none }).retire c 8
  else d

/-- Sets a core's view of the generation. -/
def rcSetGen (c n gen : Nat) (d : Dev) : Dev := (d.wr (Reg.RC_STAT_GEN c n) gen).rcWake c n

/-- A release reaches this device (R168): its member cores' GEN is set. -/
def rcRelease (p n gen : Nat) (d : Dev) : Dev :=
  (d.coresOf p).foldl (fun d c => if d.rcMember c n then d.rcSetGen c n gen else d) d

/-- ROLL_CALL_RELEASE (R168): the home advances GEN, clears COUNT and broadcasts the release; OVER marks an excess. A release that
the stream cannot take is recorded (R159). -/
def rcFire (c n : Nat) (excess : Bool) (d : Dev) : Dev :=
  let p := d.partOf c
  let gen := (d.rcGen c n + 1) % 2 ^ 32
  let d := if excess then d.setF (Reg.RC_STAT_OVER c n) else d
  let d := ((d.wr (Reg.RC_STAT_COUNT c n) 0).rcSetGen c n gen).rcRelease p n gen
  let k := d.rd (Reg.RC_NET_STREAM c n)
  if d.rd (Reg.RC_CFG_SCOPE c n) = 0 then d
  else if d.ctxOpen k p ∧ d.winFits k 1 then d.sendOp k ptRCREL true .roll 0 0 0 [(0, rollPayload n 0 gen)]
  else d.err (48 + p) { cls := 0x31, part := some p, extra := k }

/-- Arrivals of one generation counted at the home core (R167, R168). -/
def rcCount (c n k gen : Nat) (d : Dev) : Dev :=
  if gen ≠ d.rcGen c n then d
  else
    let e := d.rd (Reg.RC_CFG_EXPECT c n)
    let s := d.rd (Reg.RC_STAT_COUNT c n) + k
    if s < e then d.wr (Reg.RC_STAT_COUNT c n) s else d.rcFire c n (decide (e < s))

/-- Adds arrivals to what this device's synchronisation unit holds, one count per generation. -/
def rcHold (p n k gen : Nat) (d : Dev) : Dev :=
  let l := (d.roll p n).held
  let l' := if l.any fun x => x.1 = gen then l.map fun x => if x.1 = gen then (gen, x.2 + k) else x else l ++ [(gen, k)]
  d.setRoll p n ⟨l'⟩

/-- rc.arr (R155, R166). -/
def rcArr (c : Nat) (g : Guard) (n : BitVec 5) (d : Dev) : Dev :=
  d.scalar c g (mkWord 0 false 0x76 g (n.toNat * 2 ^ 44)) 0 false fun d =>
    if ¬ (d.rcMember c n.toNat) then .fault { cause := cOPERAND } d
    else if ¬ (d.coreWideReady c) then .stall d
    else
      let gen := d.rcGen c n.toNat
      .done (((d.rcHold (d.partOf c) n.toNat 1 gen).setF (Reg.RC_STAT_ARRIVED c n.toNat)).updCore c fun x =>
        { x with rcRec := tabPut 0 n.toNat gen x.rcRec })

/-- rc.wait (R155, R166). -/
def rcWait (c : Nat) (g : Guard) (n : BitVec 5) (d : Dev) : Dev :=
  let w := mkWord 0 false 0x77 g (n.toNat * 2 ^ 44)
  d.scalar c g w 0 false fun d =>
    if ¬ (d.rcMember c n.toNat) then .fault { cause := cOPERAND } d
    else if ¬ (d.flag (Reg.RC_STAT_ARRIVED c n.toNat)) then .done d
    else if d.rcGen c n.toNat ≠ tabGet 0 n.toNat (d.core c).rcRec then .done (d.clrF (Reg.RC_STAT_ARRIVED c n.toNat))
    else .jumped (d.updCore c fun x => { x with obj := some (.rollCall n.toNat), stallWord := w })

/-- RCARR (R167, R168): arrivals from a packet are combined here, or counted when this device is the home. -/
def rcArrPacket (p : Nat) (b : List Byte) (d : Dev) : Dev := d.rcHold p (byteField b 0 1 % 32) (byteField b 4 4) (byteField b 8 4)

/-- RCREL from a packet. -/
def rcRelPacket (p : Nat) (b : List Byte) (d : Dev) : Dev := d.rcRelease p (byteField b 0 1 % 32) (byteField b 8 4)

/-- ARRIVAL_FORWARD (R167): the held counts go to the home core here, or on STREAM toward the home's device or its deputy. They
stay held while its window is full; what a stream that is not open cannot take is recorded as undelivered (R159). -/
def arrivalForward (p n : Nat) (d : Dev) : Dev :=
  match d.rcCarrier p n with
  | none => d
  | some c =>
    let l := (d.roll p n).held
    let d := d.setRoll p n ⟨[]⟩
    if d.rd (Reg.RC_CFG_HDEV c n) = d.myDev then
      match d.deviceNo p (d.rd (Reg.RC_CFG_HCORE c n)) with
      | some h => l.foldl (fun d x => d.rcCount h n x.2 x.1) d
      | none => d
    else
      let k := d.rd (Reg.RC_NET_STREAM c n)
      l.foldl (fun d x =>
        if d.ctxOpen k p ∧ ¬ d.winFits k 1 then d.rcHold p n x.2 x.1
        else if d.ctxOpen k p then d.sendOp k ptRCARR true .roll 0 0 0 [(0, rollPayload n x.2 x.1)]
        else d.err (48 + p) { cls := 0x31, part := some p, extra := k }) d

/-- RC_CTL through core c's window (R174). -/
def releaseNow (c n : Nat) (d : Dev) : Dev := if d.rcHome c n then d.rcFire c n false else d.hostErr (Reg.RC_CTL c)
def countClear (c n : Nat) (d : Dev) : Dev := if d.rcHome c n then d.wr (Reg.RC_STAT_COUNT c n) 0 else d.hostErr (Reg.RC_CTL c)
def advanceGen (c n : Nat) (d : Dev) : Dev := d.rcSetGen c n (d.rcGen c n + 1)

/-! Watchdogs (R170 to R172). -/

/-- Whether an engine is stalling (R170). -/
def stalling (d : Dev) (c e : Nat) : Bool :=
  (d.eng c e).wait.isSome || (d.eng c e).stall.isSome || (e = 0 && (d.core c).obj.isSome)

/-- Withdraws what the stalled engine waits for; a restart waits again (R170). -/
def unstall (c e : Nat) (d : Dev) : Dev :=
  let d := match e, (d.core c).obj with
    | 0, some (.hallPass n _) =>
      let p := d.partOf c
      let h := d.pass p n
      d.setPass p n { h with waiters := h.waiters.filter fun k => k ≠ c }
    | _, _ => d
  let d := if e = 0 then d.updCore c fun x => { x with obj := none } else d
  d.updEng c e fun g => { g with wait := none, stall := none }

/-- WATCHDOG (R170, R171): the stall has reached LIMIT; a stopped core's count is paused. -/
def watchdog (c e : Nat) (d : Dev) : Dev :=
  if d.rd (Reg.SY_WDCFG_LIMIT c) = 0 ∨ ¬ (d.stalling c e) ∨ (d.eng c e).stopped ∨ (e ≠ 0 ∧ d.valid c e) then d
  else
    let st := (d.eng c e).stall.map fun k => k % 64
    let w := (d.core c).stallWord
    let p := d.coreOwner c
    let d := (d.unstall c e).wr (Reg.SY_WDSTAT_FIRED c) (setBit (d.rd (Reg.SY_WDSTAT_FIRED c)) e true)
    let insn := if e = 0 then w else ((d.qHead c e).map QEntry.word).getD 0
    let a : FArgs := { cause := cWATCHDOG, station := st.getD 0 }
    let d := if e = 0 then d.seqFault c w 0 a else d.engFault c e a
    match d.flag (Reg.SY_WDCFG_FENCE c), p with
    | true, some p => d.quietPart p 0x13 qMANUAL e insn.toNat
    | _, _ => d

/-- ROLL_CALL_WATCHDOG (R172): at the home, a generation with an arrival and no release within WDLIM. -/
def rollCallWatchdog (c n : Nat) (d : Dev) : Dev :=
  if ¬ (d.rcHome c n) ∨ d.rd (Reg.RC_NET_WDLIM c n) = 0 ∨ d.rd (Reg.RC_STAT_COUNT c n) = 0 then d
  else
    let p := d.partOf c
    let info := n + 2 ^ 5 * d.rd (Reg.RC_CFG_HCORE c n)
    let extra := d.rcGen c n + 2 ^ 32 * d.rd (Reg.RC_STAT_COUNT c n)
    let d := d.setF (Reg.RC_STAT_WDFIRED c n)
    if d.flag (Reg.RC_NET_WDFENCE c n) then d.quietPart p 0x14 qMANUAL info extra
    else d.err (48 + p) { cls := 0x15, part := some p, info := info, extra := extra }

/-- HP_n as a core window shows it (R174). -/
def hpReg (d : Dev) (c n : Nat) : Nat :=
  let p := d.partOf c
  let h := d.pass p n
  b2n h.held + 2 * b2n (d.orphaned p h) + 2 ^ 8 * (h.owner % 256) + 2 ^ 16 * (h.epoch % 2 ^ 32) + 2 ^ 48 * (h.waiters.length % 256)

end Dev
end Sys2Proof.Machine
end

