-- ==== Sys2Proof/Machine/Hbm.lean ====
section
/-!
DEFINITION. Stacked memory (R191 to R212): the controllers' reads and writes, refresh and throttling, scrubbing, the traffic
generators, seed changes, near-memory atomics, and the states of a stack.
-/
namespace Sys2Proof.Machine

/-- How the codes classify a sector that is read (Table HB-2); `lost` is a check that identifies no sector. -/
inductive EccClass where
  | clean | ce1 | ce2 | ue | lost
  deriving DecidableEq, Repr

/-- The operations of Table HB-3. -/
inductive AtomOp where
  | fadd | ax64 | iadd | smin | smax | umin | umax | and | or | xor | swap | cas
  deriving DecidableEq, Repr

/-- A w-byte two's complement value. -/
def sgn (w x : Nat) : Int := if 2 ^ (8 * w - 1) ≤ x then (x : Int) - 2 ^ (8 * w) else x

/-- The new value of an atomic's operand of w bytes (Table HB-3); `cmp` is the compare value. -/
def AtomOp.apply (o : AtomOp) (w old v cmp : Nat) : Nat :=
  match o with
  | .fadd => (fAdd (BitVec.ofNat 32 old) (BitVec.ofNat 32 v)).toNat
  | .ax64 => (old + v) % 2 ^ 64
  | .iadd => (old + v) % 2 ^ (8 * w)
  | .smin => if sgn w v < sgn w old then v else old
  | .smax => if sgn w old < sgn w v then v else old
  | .umin => min old v
  | .umax => max old v
  | .and => Nat.land old v
  | .or => Nat.lor old v
  | .xor => Nat.xor old v
  | .swap => v
  | .cas => if old = cmp then v else old

/-- The operand width that an atomic takes: 4 or 8 bytes, fixed for the first two. -/
def AtomOp.width (o : AtomOp) (wide : Bool) : Nat :=
  match o with
  | .fadd => 4
  | .ax64 => 8
  | _ => if wide then 8 else 4

namespace Dev

def scrub (d : Dev) (k : Nat) : Scrub := tabGet Scrub.reset k d.scrubs
def setScrub (k : Nat) (x : Scrub) (d : Dev) : Dev := { d with scrubs := tabPut Scrub.reset k x d.scrubs }

/-- One sector read classified (R199): the counts, the poison and the record. -/
def classify (p : Option Nat) (req pa : Nat) (cls : EccClass) (d : Dev) : Dev :=
  let k := d.stackOf pa
  match cls with
  | .clean => if tabGet false (pa / 32) d.hbmPoison then d.incSat (Reg.HBM_UECNT_PRD k) 1 else d
  | .ce1 => d.incSat (Reg.HBM_ECCCNT_CE1 k) 1
  | .ce2 => d.incSat (Reg.HBM_ECCCNT_CE2 k) 1
  | .ue => d.hbmUE p req pa
  | .lost => d.quietDevice 0x04 (20 + k) 0 0

/-- OWNERSHIP_VIOLATION (R337): an access for a partition to memory it does not own. -/
def notOwned (d : Dev) (p : Option Nat) (pa : Nat) : Bool :=
  match p with
  | some p => decide (d.ownerOf pa ≠ p + 1)
  | none => false

/-- HBM_READ (R199, R201, R203, R204, R337): one sector read for a requester. -/
def hbmReadCmd (p : Option Nat) (req pa : Nat) (cls : EccClass) (d : Dev) : Dev :=
  let pa := pa / 32 * 32
  if d.notOwned p pa then d.ownViol (p.getD 0)
  else if ¬ (d.stackUp (d.stackOf pa)) then d.emit (.mem req none)
  else
    let d := ((d.mergeFlush (pa / 32)).serve pa 32).classify p req pa cls
    match d.hbmRead pa 32 with
    | .ok b => d.emit (.mem req (if cls = .lost then none else some b))
    | .error _ => d.emit (.mem req none)

/-- HBM_WRITE (R200 to R204, R337): a write of up to one sector accepted by its controller, or discarded: in quiet state, or by a
stack that cannot be written, which its requester is told. -/
def hbmWriteCmd (p : Option Nat) (req pa : Nat) (bs : List Byte) (d : Dev) : Dev :=
  let bs := bs.take (32 - pa % 32)
  if d.notOwned p pa then d.ownViol (p.getD 0)
  else if d.devQuiet ∨ (p.map d.isQuiet).getD false then d.incSat (Reg.HBM_UECNT_QDROP (d.stackOf pa)) 1
  else if ¬ (d.stackUp (d.stackOf pa)) then (d.hbmWrite pa bs).emit (.mem req none)
  else (((d.mergeWhole pa bs.length).hbmWrite pa bs).serve pa bs.length).mergeNote req p pa bs.length

/-- MERGE_ENTRY_RETIRE (R204). -/
def mergeEntryRetire (sector : Nat) (ue : Bool) (d : Dev) : Dev :=
  match d.merge.find? fun x => x.sector = sector with
  | some e => d.mergeRetire e ue
  | none => d

/-- REFRESH (R205): a bank's refresh; a demand access that it delays is counted. -/
def refresh (k : Nat) (delayed : Bool) (d : Dev) : Dev := if delayed then d.incSat (Reg.HBM_REFCNT_REFWAIT k) 1 else d

/-- HOT_SPOT_WINDOW (R196): the window's counts are latched with their HOT bits, and counting starts anew. -/
def hotSpotWindow (k : Nat) (d : Dev) : Dev :=
  let cnt (n : Nat) : Nat := tabGet 0 (k * 64 + n) d.hot
  let total := ((List.range 64).map cnt).sum
  let pct := d.rd (Reg.HBM_HOTCFG_HOTPCT k)
  let d' := (List.range 64).foldl (fun d n =>
    (d.wr (Reg.HBM_HOT_SECT k n) (cnt n)).wr (Reg.HBM_HOT_HOT k n) (b2n (total * pct < cnt n * 256))) d
  let d' := { d' with hot := tabClear (k * 64) 64 d'.hot }
  if (List.range 64).any fun n => d'.flag (Reg.HBM_HOT_HOT k n) then d'.irqEvent (1024 + 8 * k + 2) else d'

/-- TEMPERATURE_REPORT (Table HB-1, R207). -/
def temperatureReport (k t : Nat) (d : Dev) : Dev :=
  let d := d.wr (Reg.HBM_STAT_TEMP k) t
  if d.rd (Reg.HBM_THERM_THROT_T k) ≤ d.rd (Reg.HBM_STAT_TEMP k) ∧ ¬ (d.flag (Reg.HBM_STAT_THROT k)) then
    ((d.setF (Reg.HBM_STAT_THROT k)).wr (Reg.HBM_STAT_LEVEL k) 7).irqCond (1024 + 8 * k + 1) true
  else d

/-- THROTTLE_STEP (R207). -/
def throttleStep (k : Nat) (d : Dev) : Dev :=
  let t := d.rd (Reg.HBM_STAT_TEMP k)
  let thr := d.rd (Reg.HBM_THERM_THROT_T k)
  let l := d.rd (Reg.HBM_STAT_LEVEL k)
  if ¬ (d.flag (Reg.HBM_STAT_THROT k)) then d
  else if thr ≤ t then d.wr (Reg.HBM_STAT_LEVEL k) (max 1 (l - 1))
  else if t + d.rd (Reg.HBM_THERM_HYST k) < thr then
    (if l + 1 ≥ 8 then ((d.wr (Reg.HBM_STAT_LEVEL k) 8).clrF (Reg.HBM_STAT_THROT k)).irqCond (1024 + 8 * k + 1) false else d.wr (Reg.HBM_STAT_LEVEL k) (l + 1))
  else d

/-- SCRUB_START (R208): ignored while a pass runs; the summary is cleared. -/
def scrubStart (k : Nat) (d : Dev) : Dev :=
  if d.flag (Reg.SCR_STAT_RUN k) then d
  else
    let d := ((d.setF (Reg.SCR_STAT_RUN k)).clrF (Reg.SCR_STAT_DONE k)).clrF (Reg.SCR_STAT_ABORTED k)
    let d := ((d.wr (Reg.SCR_SUM0_READ k) 0).wr (Reg.SCR_SUM1_CORR k) 0).wr (Reg.SCR_SUM1_UNCORR k) 0
    (d.wr (Reg.SCR_SUM1_POIS k) 0).setScrub k ⟨d.rd (Reg.SCR_BASE_BASE k), d.rd (Reg.SCR_LEN_LEN k), false, []⟩

/-- A write of SCR_CTL with START, its other fields stored. -/
def scrubStartCmd (k : Nat) (wb loc : Bool) (rate : Nat) (d : Dev) : Dev :=
  (((d.wr (Reg.SCR_CTL_WB k) (b2n wb)).wr (Reg.SCR_CTL_LOCAL k) (b2n loc)).wr (Reg.SCR_CTL_RATE k) rate).scrubStart k

/-- SCRUB_ABORT (R208): the pass stops at its next sector. -/
def scrubAbort (k : Nat) (d : Dev) : Dev :=
  if d.flag (Reg.SCR_STAT_RUN k) then d.setScrub k { d.scrub k with abort := true } else d

/-- The requester code of the scrubber of stack k (Table FT-9). -/
def scrubReq (k : Nat) : Nat := 6 * 2 ^ 28 + k

/-- SCRUB_SECTOR (R208): the next sector of the range that lies on this stack is read and classified; one on another stack is
passed over. A row that yields UE twice is offered for repair and reported. -/
def scrubSector (k : Nat) (cls : EccClass) (d : Dev) : Dev :=
  let s := d.scrub k
  if ¬ (d.flag (Reg.SCR_STAT_RUN k)) ∨ s.left = 0 ∨ s.abort then d
  else
    let d := d.setScrub k { s with next := s.next + 1, left := s.left - 1 }
    let loc := d.flag (Reg.SCR_CTL_LOCAL k)
    let pa := s.next * 32
    if ¬ loc ∧ d.stackOf pa ≠ k then d
    else
      let d := d.incSat (Reg.SCR_SUM0_READ k) 1
      let poisoned := !loc && tabGet false s.next d.hbmPoison
      if poisoned ∨ ¬ (d.stackUp k) then
        (d.incSat (Reg.SCR_SUM1_POIS k) 1).incSat (Reg.HBM_UECNT_PRD k) (b2n poisoned)
      else
        match cls with
        | .clean => d
        | .ce1 => (d.incSat (Reg.SCR_SUM1_CORR k) 1).incSat (Reg.HBM_ECCCNT_CE1 k) 1
        | .ce2 => (d.incSat (Reg.SCR_SUM1_CORR k) 1).incSat (Reg.HBM_ECCCNT_CE2 k) 1
        | .lost => d.quietDevice 0x04 (20 + k) 0 0
        | .ue =>
          let pl := if loc then placeOf 0 pa else placeOf (d.seedOf pa) pa
          let row := (pl.channel, pl.pch, pl.bank, pl.row)
          let d := (d.incSat (Reg.SCR_SUM1_UNCORR k) 1)
          let d := if loc then d.incSat (Reg.HBM_UECNT_UE k) 1 else d.hbmUE none (scrubReq k) pa
          let again := (d.scrub k).rows.contains row
          let d := d.setScrub k { d.scrub k with rows := row :: (d.scrub k).rows }
          if again then d.err (20 + k) { cls := 0x06, unit := 32 * pl.pch + pl.channel, info := pl.row, addr := pa } else d

/-- SCRUB_PASS_END (R208). -/
def scrubPassEnd (k : Nat) (d : Dev) : Dev :=
  let s := d.scrub k
  if ¬ (d.flag (Reg.SCR_STAT_RUN k)) then d
  else if s.abort then (((d.clrF (Reg.SCR_STAT_RUN k)).setF (Reg.SCR_STAT_ABORTED k)).setScrub k Scrub.reset).irqEvent (1024 + 8 * k + 3)
  else if s.left = 0 then (((d.clrF (Reg.SCR_STAT_RUN k)).setF (Reg.SCR_STAT_DONE k)).setScrub k Scrub.reset).irqEvent (1024 + 8 * k + 3)
  else d

/-- GENERATOR_START (R211): refused for a mode not listed, and for whole-channel scope while a partition exists. -/
def generatorStart (k c : Nat) (d : Dev) : Dev :=
  let scope := d.flag (Reg.TG_CTL_SCOPE k c)
  if 3 < d.rd (Reg.TG_CTL_MODE k c) ∨ (scope ∧ (List.range 8).any fun p => d.ptState p ≠ 0) then d.setF (Reg.TG_STAT_REFUSED k c)
  else d.setF (Reg.TG_STAT_RUN k c)

/-- A write of TG_CTL with START, its other fields stored. -/
def generatorStartCmd (k c mode pat : Nat) (scope : Bool) (rate : Nat) (d : Dev) : Dev :=
  ((((d.wr (Reg.TG_CTL_MODE k c) mode).wr (Reg.TG_CTL_PAT k c) pat).wr (Reg.TG_CTL_SCOPE k c) (b2n scope)).wr
    (Reg.TG_CTL_RATE k c) rate).generatorStart k c

/-- GENERATOR_STOP (R211). -/
def generatorStop (k c : Nat) (d : Dev) : Dev := d.clrF (Reg.TG_STAT_RUN k c)

/-- GENERATOR_RUN_END (R211): the run's mismatches are counted and the first captured. -/
def generatorRunEnd (k c fails l pch : Nat) (d : Dev) : Dev :=
  if ¬ (d.flag (Reg.TG_STAT_RUN k c)) then d
  else
    let d := ((d.clrF (Reg.TG_STAT_RUN k c)).incSat (Reg.TG_STAT_FAILS k c) fails).irqEvent (1024 + 8 * k + 4)
    if fails = 0 ∨ d.flag (Reg.TG_FAIL_VALID k c) then d
    else ((d.wr (Reg.TG_FAIL_L k c) l).wr (Reg.TG_FAIL_PCH k c) pch).setF (Reg.TG_FAIL_VALID k c)

/-- The extents of a partition, in ascending order. -/
def extentsOf (d : Dev) (p : Nat) : List Nat := (d.owner.filter fun e => e.2 = p + 1).map Prod.fst

/-- REHASH (R197): ignored unless the partition is quiesced, or while a pass runs. -/
def rehashGo (p seed : Nat) (d : Dev) : Dev :=
  let d := (d.wr Reg.HBM_REHASH_NEWSEED seed).wr Reg.HBM_REHASH_PART p
  if d.ptState p ≠ 3 ∨ d.rehash.isSome then d
  else
    let l := d.extentsOf p
    let r : Rehash := ⟨p, d.rd (Reg.HBM_SEED_SEED p), seed % 2 ^ 25, l.headD 0 * 256, l⟩
    ({ d with rehash := some r }).setF Reg.HBM_REHASH_BUSY

/-- The 64-byte position record of a row (R197). -/
def positionRecord (r : Rehash) : List Byte :=
  leBytes 4 0x52485331 ++ leBytes 1 r.part ++ leBytes 3 0 ++ leBytes 8 (r.row * 24576) ++ leBytes 4 r.old ++ leBytes 4 r.new
    ++ leBytes 1 1 ++ leBytes 39 0

/-- REHASH_ROW (R197): one row is read, copied to stacks 0 and 11 with its position record, and rewritten under the new seed; the
seed takes effect when the last row is done. `ue` names a sector of the row that read uncorrectable. -/
def rehashRow (ue : Option Nat) (d : Dev) : Dev :=
  match d.rehash with
  | none => d
  | some r =>
    match r.left with
    | [] =>
      (({ d with rehash := none }).clrF Reg.HBM_REHASH_BUSY |>.wr (Reg.HBM_SEED_SEED r.part) r.new).irqEvent 1029
    | e :: rest =>
      let a := r.row * 24576
      let d := match ue with
        | some i => d.hbmUE (some r.part) (5 * 2 ^ 28) (a + 32 * (i % 768))
        | none => d
      -- a sector that cannot be read becomes poisoned where it is rewritten
      let d := (List.range 768).foldl (fun d i => if d.hbmBad (a / 32 + i) then d.hbmPoisonRange (a + 32 * i) 1 else d) d
      let b : List Byte := tabGetList 0 a 24576 d.hbm
      let d := [0, 11].foldl (fun d k => (d.locWrite k 0x2000000 b).locWrite k 0x2006000 (positionRecord r)) d
      let row := r.row + 1
      if row < (e + 1) * 256 then { d with rehash := some { r with row := row } }
      else
        match rest with
        | [] => (({ d with rehash := none }).clrF Reg.HBM_REHASH_BUSY |>.wr (Reg.HBM_SEED_SEED r.part) r.new).irqEvent 1029
        | e' :: _ => { d with rehash := some { r with row := e' * 256, left := rest } }

/-- One atomic applied to memory (R209): the old value, or none for POISON. -/
def atomic (p pa : Nat) (o : AtomOp) (wide : Bool) (v cmp : Nat) (d : Dev) : Option Nat × Dev :=
  let w := o.width wide
  let d := (d.mergeFlush (pa / 32)).serve pa w
  match d.hbmRead (pa / 32 * 32) 32 with
  | .error _ => (none, if tabGet false (pa / 32) d.hbmPoison then d.incSat (Reg.HBM_UECNT_PRD (d.stackOf pa)) 1 else d)
  | .ok _ =>
    let old := leNat (tabGetList (0 : Byte) pa w d.hbm)
    (some old,
      if d.isQuiet p then d.incSat (Reg.HBM_UECNT_QDROP (d.stackOf pa)) 1
      else d.hbmWrite pa (leBytes w (o.apply w old (v % 2 ^ (8 * w)) (cmp % 2 ^ (8 * w)))))

/-- NEAR_MEMORY_ATOMIC (R209): a naturally aligned operand; the old value returns to the requester. A misaligned or unowned target
is not performed. -/
def nearMemoryAtomic (p req pa : Nat) (o : AtomOp) (wide : Bool) (v cmp : Nat) (ue : Bool) (d : Dev) : Dev :=
  if pa % o.width wide ≠ 0 then d
  else if d.notOwned (some p) pa then d.ownViol p
  else if ue ∧ ¬ d.hbmBad (pa / 32) then
    (((d.mergeFlush (pa / 32)).serve pa (o.width wide)).hbmUE (some p) req pa).emit (.mem req none)
  else
    let r := d.atomic p pa o wide v cmp
    r.2.emit (.mem req (r.1.map fun x => leBytes (o.width wide) x))

/-- INTERFACE_FAULT (R201): the controller retrains the stack. -/
def interfaceFault (k : Nat) (d : Dev) : Dev :=
  if d.stackUp k then d.wr (Reg.HBM_STAT_STATE k) 1 else d

/-- A stack becomes failed (R201): its record, and its pair marked lost. -/
def stackFailed (k : Nat) (d : Dev) : Dev :=
  let d := (d.wr (Reg.HBM_STAT_STATE k) 5).err (20 + k) { cls := 0x07 }
  d.wr Reg.JNL_STAT_LOSTPAIR (setBit (d.rd Reg.JNL_STAT_LOSTPAIR) (k / 2) true)

/-- STACK_RETRAINING_END (R201): the stack is ready again, with the lanes that are repaired, or failed. -/
def stackRetrainingEnd (k : Nat) (ok : Bool) (lanes : Nat) (d : Dev) : Dev :=
  if d.rd (Reg.HBM_STAT_STATE k) ≠ 1 then d
  else if ok then (d.wr (Reg.HBM_STAT_STATE k) 2).wr (Reg.HBM_STAT_LANEREP k) lanes
  else d.stackFailed k

end Dev
end Sys2Proof.Machine
end

