-- ==== Sys2Proof/Machine/Link.lean ====
section
/-!
DEFINITION. Jenpalvo links (R213 to R235): training and identity, flits, link-level retry, lane degradation and the time flits.
What a link does to the bell unit stands in Bell.lean, and what its laser feeds do in Laser.lean.
-/
namespace Sys2Proof.Machine

/-- Table LK-4's states, as LNK_STAT.STATE codes them. -/
def lkDOWN : Nat := 0
def lkTRAIN : Nat := 1
def lkIDENT : Nat := 2
def lkHELD : Nat := 3
def lkACTIVE : Nat := 4
def lkPAUSE : Nat := 5
def lkRETRAIN : Nat := 6

/-- The fields of a received flit that every flit carries (Table LK-2), and whether it is corrupted (R216). -/
structure FlitHdr where
  bad : Bool
  q : Bool
  av : Bool
  ack : BitVec 12
  crvc : Fin 8
  crn : BitVec 5
  deriving DecidableEq, Repr

/-- A neighbour's identity (R219). -/
structure NbrId where
  dev : BitVec 20
  link : Fin 32
  lanes : BitVec 4
  tcount : BitVec 16
  deriving DecidableEq, Repr

namespace Dev

def link (d : Dev) (l : Nat) : Link := tabGet Link.reset l d.links
def setLink (l : Nat) (x : Link) (d : Dev) : Dev := { d with links := tabPut Link.reset l x d.links }
def updLink (l : Nat) (f : Link → Link) (d : Dev) : Dev := d.setLink l (f (d.link l))
def updVc (l v : Nat) (f : LinkVc → LinkVc) (d : Dev) : Dev := d.updLink l fun x => x.setVc v (f (x.vc v))
def lkState (d : Dev) (l : Nat) : Nat := d.rd (Reg.LNK_STAT_STATE l)
def lkIrq (l e : Nat) (d : Dev) : Dev := d.irqEvent (512 + 16 * l + e)
/-- A power domain is on (Table MG-3). -/
def domOn (d : Dev) (n : Nat) : Bool := bit (d.rd Reg.PWR_DOMSTAT_ON) n

/-- Sets the receive lanes; LNK_LANE shows them (R235). -/
def setRxLanes (l m : Nat) (d : Dev) : Dev :=
  (List.range 4).foldl (fun d k => d.wr (Reg.LNK_LANE_ACTIVE l k) (b2n (bit m k))) (d.wr (Reg.LNK_STAT_RXLANES l) m)

/-- DONE of a reshape is set when none of its links is left in RETRAIN (R252). -/
def reshapeCheck (d : Dev) : Dev :=
  if d.reshaped ∧ (List.range 32).all (fun l => !(bit (d.rd Reg.RTE_RESHAPE_LINKS) l && d.lkState l = lkRETRAIN)) then
    ({ d with reshaped := false }).setF Reg.RTE_RESHAPE_DONE
  else d

/-- A change of a link's state, with its event (Table IC-1). -/
def lkGo (l st : Nat) (d : Dev) : Dev :=
  if d.lkState l = st then d else ((d.wr (Reg.LNK_STAT_STATE l) st).lkIrq l 0).reshapeCheck

/-- Frees input flits of a virtual channel: their credits are owed to the neighbour (R217, R244). -/
def freeFlits (l v n : Nat) (d : Dev) : Dev :=
  d.updVc l v fun y => { y with occ := y.occ - n, owed := y.owed + min n y.occ }

/-- An exchange that crosses a degrade, a readmission, a PAUSE or a RETRAIN is discarded: its stamps are no longer held (R232). -/
def timeCross (l : Nat) (d : Dev) : Dev := d.updLink l fun x => { x with departs := [], arrives := [] }

/-- Entry into DOWN (R219, R220): the replay buffer and what was received in part are discarded. -/
def lkDown (l : Nat) (d : Dev) : Dev :=
  let st := d.lkState l
  if st = lkDOWN then d
  else
    let was := st = lkACTIVE ∨ st = lkPAUSE ∨ st = lkRETRAIN
    let d := if was then (d.incSat (Reg.LNK_EVCNT_DOWNS l) 1).err (14 + l / 8) { cls := 0x32, unit := l, info := st } else d
    let d := (List.range 8).foldl (fun d v =>
      let begun := ((d.link l).vc v).txq.filter fun t => t.left.length < t.p.bytes.length
      let d := begun.foldl (fun d t => match t.from_ with | some (a, b, n) => d.freeFlits a b n | none => d) d
      d.updVc l v fun y => { y with part := [], held := 0, occ := y.occ - y.held,
                                    txq := y.txq.filter fun t => !(decide (t.left.length < t.p.bytes.length)) }) d
    (d.updLink l fun x => { x with replay := [], degrade := none, trying := 0, nakOut := false }).timeCross l |>.lkGo l lkDOWN

/-- Entry into TRAIN (Table LK-4). -/
def lkTrain (l : Nat) (d : Dev) : Dev :=
  ((d.updLink l fun x => { x with train := (x.train + 1) % 2 ^ 16, hold := false }).clrF (Reg.LNK_NBR_VALID l)).lkGo l lkTRAIN

/-- A link in DOWN trains once EN = 1, light is on at least one lane, the device has an ID and the link has power (R219, R236). -/
def tryTrain (l : Nat) (d : Dev) : Dev :=
  if d.lkState l = lkDOWN ∧ d.flag (Reg.LNK_CTL_EN l) ∧ (d.link l).light ≠ 0 ∧ d.flag Reg.RTE_ID_VALID ∧ d.domOn (16 + l / 8) then
    d.lkTrain l
  else d

/-- The credits, at most 31, that the next flit returns, and to which virtual channel (Table LK-2). The spec does not say which
channel is served first. -/
def takeOwed (l : Nat) (d : Dev) : Nat × Nat × Dev :=
  let r := d.fresh
  match ((List.range 8).map fun i => (r.1 + i) % 8).find? fun v => ((d.link l).vc v).owed ≠ 0 with
  | none => (0, 0, d)
  | some v =>
    let n := min 31 ((d.link l).vc v).owed
    (v, n, r.2.updVc l v fun y => { y with owed := y.owed - n, creditOut := (y.creditOut + n) % 2 ^ 16 })

/-- Sends a flit of a type with a body (R216): the acknowledgement and returned credits travel in every flit. -/
def sendFlit (l typ seq : Nat) (body : List Byte) (d : Dev) : Dev :=
  let r := d.takeOwed l
  let x := r.2.2.link l
  r.2.2.emit (.flit l typ seq d.devQuiet x.got ((x.e + 4095) % 4096) r.1 r.2.1 body)

/-- A CTRL flit's body (Table LK-3). -/
def ctrlBody (sub : Nat) (b : List Byte) : List Byte := leBytes 2 sub ++ b ++ List.replicate (244 - b.length) 0

/-- Entry into RETRAIN (Table LK-4): the replay buffer and sequence numbers are kept. -/
def lkRetrain (l : Nat) (d : Dev) : Dev :=
  ((d.incSat (Reg.LNK_EVCNT_RETRAINS l) 1).timeCross l).lkGo l lkRETRAIN

/-- Sends a NAK carrying E (R222); NAKMAX in a row for one E retrain the link. -/
def sendNak (l : Nat) (d : Dev) : Dev :=
  let x := d.link l
  let d := ((d.sendFlit l 2 0 (ctrlBody 1 (leBytes 2 x.e))).incSat (Reg.LNK_RETRYCNT_NAKTX l) 1).updLink l fun x =>
    { x with nakOut := true, naks := x.naks + 1 }
  if max 1 (d.rd (Reg.LNK_CTL_NAKMAX l)) ≤ (d.link l).naks then d.lkRetrain l else d

/-- Sends a TIME flit (R231); `sub` is the sixteenth of a tick at which its first bit leaves. -/
def sendTime (l sub : Nat) (d : Dev) : Dev :=
  let x := d.link l
  let stamp := (16 * d.now + sub % 16) % 2 ^ 64
  let num := (x.tnum + 1) % 2 ^ 16
  let st := d.rd Reg.BL_STAT_STATE
  let dep := if st = 1 then 0 else d.rd Reg.BL_STAT_DEPTH
  let body := leBytes 2 num ++ leBytes 2 x.tnum ++ leBytes 2 (x.tlast.getD 0)
    ++ leBytes 1 (b2n x.tprev + 2 * b2n x.tlast.isSome) ++ leBytes 3 0 ++ leBytes 8 x.tdep ++ leBytes 8 x.tarr ++ leBytes 8 0
    ++ leBytes 1 st ++ leBytes 1 dep ++ List.replicate 210 0
  (d.sendFlit l 3 0 body).updLink l fun x =>
    { x with tnum := num, tdep := stamp, tprev := true, departs := ((num, stamp) :: x.departs).take 4 }

/-- Entry into ACTIVE from IDENT (R217, R219): counts start at 0, each VC holds 64 credits, the first TIME exchange starts. -/
def lkActivate (l : Nat) (d : Dev) : Dev :=
  let d := (List.range 8).foldl (fun d v =>
    d.updVc l v fun y => { y with credits := 64, creditIn := 0, creditOut := 0, owed := 0, occ := 0,
                                  rxq := y.rxq.map fun a => (a.1, 0) }) d
  let d := (d.updLink l fun x =>
    { x with o := 0, n := 0, replay := [], e := 0, got := false, nakOut := false, naks := 0, tprev := false, departs := [],
             arrives := [], tlast := none, lastEx := none, exchanges := 0 }).lkGo l lkACTIVE
  if d.flag (Reg.LNK_TIMECFG_TEN l) then
    let r := d.fresh
    r.2.sendTime l (r.1 % 16)
  else d

/-- Entry into a later ACTIVE from PAUSE or RETRAIN: no TIME flit has been sent or received since (Table LK-7). -/
def lkBack (l : Nat) (d : Dev) : Dev :=
  (d.updLink l fun x => { x with tprev := false, tlast := none }).lkGo l lkACTIVE

/-- Entry into IDENT (R219): an IDENT flit goes out with the device's ID, the link number, the lanes received and the training count. -/
def lkIdent (l : Nat) (d : Dev) : Dev :=
  let d := d.lkGo l lkIDENT
  d.sendFlit l 4 0 (leBytes 3 (d.rd Reg.RTE_ID_DEV) ++ leBytes 1 l ++ leBytes 1 (d.rd (Reg.LNK_STAT_RXLANES l))
    ++ leBytes 2 (d.link l).train ++ List.replicate 239 0)

/-- Compares the identity in LNK_NBR with LNK_EXPECT (Table LK-4). -/
def identCompare (l : Nat) (d : Dev) : Dev :=
  if ¬ d.flag (Reg.LNK_EXPECT_VALID l) ∨
      (d.rd (Reg.LNK_EXPECT_DEV l) = d.rd (Reg.LNK_NBR_DEV l) ∧ d.rd (Reg.LNK_EXPECT_LINK l) = d.rd (Reg.LNK_NBR_LINK l)) then
    d.lkActivate l
  else ((d.setF (Reg.LNK_STAT_MISWIRED l)).lkIrq l 2).lkGo l lkHELD

/-- A link in HELD compares its identity again (Table LK-4). -/
def heldAgain (l : Nat) (d : Dev) : Dev :=
  if d.lkState l = lkHELD then ((d.clrF (Reg.LNK_STAT_MISWIRED l)).lkIdent l).identCompare l else d

/-- LINK_ENABLE, LINK_DISABLE (Table LK-4). -/
def linkEnable (l : Nat) (d : Dev) : Dev := (d.setF (Reg.LNK_CTL_EN l)).tryTrain l
def linkDisable (l : Nat) (d : Dev) : Dev := (d.clrF (Reg.LNK_CTL_EN l)).lkDown l

/-- RETRAIN (Table LK-4): from DOWN, or in HELD. -/
def retrain (l : Nat) (d : Dev) : Dev :=
  if d.lkState l = lkDOWN then (if d.flag Reg.RTE_ID_VALID ∧ d.domOn (16 + l / 8) then d.lkTrain l else d)
  else d.heldAgain l

/-- LINK_RESET (R234). -/
def linkReset (l : Nat) (d : Dev) : Dev := (d.lkDown l).tryTrain l

/-- READMIT (R227): the dropped lanes that LANEOK allows go on trial. -/
def readmit (l : Nat) (d : Dev) : Dev :=
  if d.lkState l = lkACTIVE then
    d.updLink l fun x => { x with trying := Nat.land (d.rd (Reg.LNK_CTL_LANEOK l)) (15 - d.rd (Reg.LNK_STAT_RXLANES l)) }
  else d

/-- AUTO_READMIT (R227). -/
def autoReadmit (l : Nat) (d : Dev) : Dev := if d.flag (Reg.LNK_CTL_AUTORD l) then d.readmit l else d

/-- TRAINING_DONE (Table LK-4): the lanes that locked each way, of those allowed. -/
def trainingDone (l tx rx : Nat) (d : Dev) : Dev :=
  let ok := d.rd (Reg.LNK_CTL_LANEOK l)
  let tx := Nat.land tx ok
  let rx := Nat.land rx ok
  if d.lkState l ≠ lkTRAIN ∨ tx = 0 ∨ rx = 0 then d
  else
    let d := (List.range 4).foldl (fun d k => if bit rx k then d.clrF (Reg.LNK_LANE_FAILED l k) else d) d
    ((d.wr (Reg.LNK_STAT_TXLANES l) tx).setRxLanes l rx).lkIdent l

/-- TRAIN_TIMEOUT, TRAIN_RETRY (Table LK-4). -/
def trainTimeout (l : Nat) (d : Dev) : Dev :=
  if d.lkState l = lkTRAIN then (d.lkDown l).updLink l fun x => { x with hold := true } else d
def trainRetry (l : Nat) (d : Dev) : Dev := d.tryTrain l

/-- LIGHT_ON_LANE (Table LK-4). -/
def lightOnLane (l k : Nat) (d : Dev) : Dev :=
  let d := d.updLink l fun x => { x with light := setBit x.light k true }
  if (d.link l).hold then d else d.tryTrain l

/-- RTE_ID_VALID (R236): links held in DOWN begin to train. A change of DEV while a link is out of DOWN is ignored. -/
def rteId (dev : Nat) (valid : Bool) (d : Dev) : Dev :=
  let busy := (List.range 32).any fun l => d.lkState l ≠ lkDOWN
  let d := if busy ∧ dev ≠ d.rd Reg.RTE_ID_DEV then d else (d.wr Reg.RTE_ID_DEV dev).wr Reg.RTE_ID_VALID (b2n valid)
  if d.flag Reg.RTE_ID_VALID then (List.range 32).foldl (fun d l => if (d.link l).hold then d else d.tryTrain l) d else d

/-! Flits received. -/

/-- NQUIET follows the Q of the last flit (R218). -/
def noteQuiet (l : Nat) (q : Bool) (d : Dev) : Dev :=
  if d.flag (Reg.LNK_STAT_NQUIET l) = q then d else (d.wr (Reg.LNK_STAT_NQUIET l) (b2n q)).lkIrq l 5

/-- An ACK frees the replay buffer up to its number (R221); a stale one is ignored. -/
def takeAck (l a : Nat) (d : Dev) : Dev :=
  let x := d.link l
  let k := (a + 4096 - x.o) % 4096
  if k < (x.n + 4096 - x.o) % 4096 then d.setLink l { x with o := (a + 1) % 4096, replay := x.replay.drop (k + 1) } else d

/-- What every uncorrupted flit brings (R216, R217): Q, its ACK and its returned credits. -/
def takeHdr (l : Nat) (h : FlitHdr) (d : Dev) : Dev :=
  let d := d.noteQuiet l h.q
  if d.lkState l ≠ lkACTIVE then d
  else
    let d := if h.av then d.takeAck l h.ack.toNat else d
    d.updVc l h.crvc fun y =>
      { y with credits := y.credits + h.crn.toNat, creditIn := (y.creditIn + h.crn.toNat) % 2 ^ 16 }

/-- A corrupted flit is counted (R216). -/
def badFlit (l : Nat) (d : Dev) : Dev := d.incSat (Reg.LNK_RETRYCNT_BADFLIT l) 1

/-- NAK unless one is outstanding (R222). -/
def nakOnce (l : Nat) (d : Dev) : Dev := if (d.link l).nakOut then d else d.sendNak l

/-- The packets in a byte stream, with their flits; the bytes left over; flits of discarded packets; how many were malformed
(R241). The flits that an incomplete packet began with stand to its first packet's account; a zero byte where a packet would begin
pads the rest. -/
def parseStream : Nat → Nat → List Byte → List (Pkt × Nat) → Nat → Nat → List (Pkt × Nat) × List Byte × Nat × Nat
  | 0, _, b, acc, dr, bad => (acc, b, dr, bad)
  | n + 1, fl, b, acc, dr, bad =>
    match b with
    | [] => (acc, [], dr, bad)
    | h :: _ =>
      if h = 0 then (acc, [], dr, bad)
      else
        match Pkt.parse b with
        | none => (acc, b, dr, bad)
        | some (p, true, r) => parseStream n 0 r (acc ++ [(p, fl)]) dr bad
        | some (_, false, r) => parseStream n 0 r acc (dr + fl) (bad + 1)

/-- The body of an accepted DATA flit joins its virtual channel's stream of packets (R241). -/
def takeBody (l v : Nat) (bytes : List Byte) (d : Dev) : Dev :=
  let y := (d.link l).vc v
  let r := parseStream 246 y.held (y.part ++ bytes) [] 0 0
  let d := (d.incSat Reg.RTE_DROPCNT_BADPKT r.2.2.2).updVc l v fun y => { y with occ := y.occ + 1, maxOcc := max y.maxOcc (y.occ + 1) }
  -- this flit stands to the account of the packet that holds its last bytes
  let d :=
    if r.2.1 ≠ [] then
      let same := decide (r.1 = [] ∧ r.2.2.2 = 0)
      d.updVc l v fun y => { y with part := r.2.1, held := (if same then y.held else 0) + 1, rxq := y.rxq ++ r.1 }
    else
      match r.1.reverse with
      | (p, n) :: rest => d.updVc l v fun y => { y with part := [], held := 0, rxq := y.rxq ++ (rest.reverse ++ [(p, n + 1)]) }
      | [] => (d.updVc l v fun y => { y with part := [], held := 0 }).freeFlits l v 1
  d.freeFlits l v r.2.2.1

/-- DATA_FLIT (R222): accepted, discarded as a duplicate, or answered with a NAK. A direction that is degrading treats every flit
as corrupted (R226). -/
def dataFlit (l : Nat) (h : FlitHdr) (seq v : Nat) (bytes : List Byte) (d : Dev) : Dev :=
  if d.lkState l ≠ lkACTIVE then d
  else if h.bad ∨ (d.link l).degrade.isSome then (d.badFlit l).nakOnce l
  else
    let d := d.takeHdr l h
    let k := (seq + 4096 - (d.link l).e) % 4096
    if k = 0 then
      ((d.updLink l fun x => { x with e := (x.e + 1) % 4096, got := true, nakOut := false, naks := 0 }).incWrap
        (Reg.LNK_RXBODY_BYTES l) 246).takeBody l v ((bytes ++ List.replicate 245 0).take 245)
    else if k < 2048 then d.nakOnce l
    else d

/-- A control flit that a link acts on: corrupted ones are counted and nothing else happens (R217). -/
def ctrlFlit (l : Nat) (h : FlitHdr) (f : Dev → Dev) (d : Dev) : Dev :=
  if d.lkState l = lkDOWN ∨ d.lkState l = lkTRAIN then d
  else if h.bad then d.badFlit l
  else f (d.takeHdr l h)

/-- IDLE (R217). -/
def idleFlit (l : Nat) (h : FlitHdr) (d : Dev) : Dev := d.ctrlFlit l h fun d => d

/-- IDENT (R219): the identity is written to LNK_NBR; in IDENT it is compared. -/
def identFlit (l : Nat) (h : FlitHdr) (i : NbrId) (d : Dev) : Dev :=
  d.ctrlFlit l h fun d =>
    if d.lkState l ≠ lkIDENT ∧ d.lkState l ≠ lkHELD then d
    else
      let d := ((d.wr (Reg.LNK_NBR_DEV l) i.dev.toNat).wr (Reg.LNK_NBR_LINK l) i.link).wr (Reg.LNK_NBR_CAPLANES l) i.lanes.toNat
      let d := (d.wr (Reg.LNK_NBR_TCOUNT l) i.tcount.toNat).setF (Reg.LNK_NBR_VALID l)
      if d.lkState l = lkIDENT then d.identCompare l else d

/-- LNK_EXPECT (Table LK-4): stored, and a held link compares again. -/
def lnkExpect (l dev link : Nat) (valid : Bool) (d : Dev) : Dev :=
  (((d.wr (Reg.LNK_EXPECT_DEV l) dev).wr (Reg.LNK_EXPECT_LINK l) link).wr (Reg.LNK_EXPECT_VALID l) (b2n valid)).heldAgain l

/-- Whether the link may send DATA flits (R218, R220, R252). -/
def mayData (d : Dev) (l : Nat) : Bool :=
  d.lkState l = lkACTIVE && !(bit d.draining l) && !(d.devQuiet && !d.devEntering)

/-- Sends a DATA flit already held (R221). -/
def resend (l : Nat) (k : Nat) (d : Dev) : Dev :=
  let x := d.link l
  let from_ := (k + 4096 - x.o) % 4096
  (x.replay.drop from_).zipIdx.foldl (fun d b => d.sendFlit l 1 ((k + b.2) % 4096) b.1) d

/-- A NAK (R221): sending restarts at its E, or the link retrains when E is out of window. -/
def takeNak (l e : Nat) (d : Dev) : Dev :=
  let x := d.link l
  if d.lkState l ≠ lkACTIVE then d
  else if (e + 4096 - x.o) % 4096 ≤ (x.n + 4096 - x.o) % 4096 then
    let d := d.incSat (Reg.LNK_RETRYCNT_NAKRX l) 1
    if d.devQuiet ∧ ¬ d.devEntering then d else d.resend l e
  else d.lkRetrain l

def nakFlit (l : Nat) (h : FlitHdr) (e : Nat) (d : Dev) : Dev := d.ctrlFlit l h fun d => d.takeNak l e

/-- NAK_RESEND (R222): NAKTMO has passed and flit E has not come. -/
def nakResend (l : Nat) (d : Dev) : Dev :=
  if d.lkState l = lkACTIVE ∧ (d.link l).nakOut then d.sendNak l else d

/-- DATA_FLIT_TRANSMIT (R221, R241): a new DATA flit of virtual channel v. -/
def dataTransmit (l v : Nat) (d : Dev) : Dev :=
  let x := d.link l
  let y := x.vc v
  if ¬ d.mayData l ∨ y.txq = [] ∨ y.credits = 0 ∨ 1024 ≤ x.replay.length ∨ 2047 < (x.n + 4096 - x.o) % 4096 + 1 then d
  else
    let all := y.txq.flatMap TxPkt.left
    let body := (leBytes 1 v ++ all.take 245 ++ List.replicate 245 0).take 246
    -- what the flit takes from each packet in turn
    let r := y.txq.foldl (fun (a : Nat × List TxPkt × List TxPkt) t =>
      if t.left.length ≤ a.1 then (a.1 - t.left.length, a.2.1 ++ [t], a.2.2)
      else (0, a.2.1, a.2.2 ++ [{ t with left := t.left.drop a.1 }])) (245, [], [])
    let d := r.2.1.foldl (fun d t => match t.from_ with | some (a, b, n) => d.freeFlits a b n | none => d) d
    let d := d.updVc l v fun y => { y with txq := r.2.2, credits := y.credits - 1 }
    (d.updLink l fun x => { x with n := (x.n + 1) % 4096, replay := x.replay ++ [body], sent := x.sent + 1 }).sendFlit l 1 x.n body

/-- CREDSYNC (R217). -/
def credSync (l : Nat) (h : FlitHdr) (counts : List (BitVec 16)) (d : Dev) : Dev :=
  d.ctrlFlit l h fun d =>
    (List.range 8).foldl (fun d v =>
      let c := (counts.getD v 0).toNat
      d.updVc l v fun y => { y with credits := y.credits + (c + 2 ^ 16 - y.creditIn) % 2 ^ 16, creditIn := c }) d

/-- CREDSYNC_SEND (R217). -/
def credSyncSend (l : Nat) (d : Dev) : Dev :=
  if d.lkState l ≠ lkACTIVE then d
  else d.sendFlit l 2 0 (ctrlBody 5 ((List.range 8).flatMap fun v => leBytes 2 ((d.link l).vc v).creditOut))

/-- Asks the neighbour to restripe on a mask (R226). -/
def askMask (l m : Nat) (d : Dev) : Dev :=
  (((d.incSat (Reg.LNK_EVCNT_DEGRADE l) 1).lkIrq l 1).timeCross l |>.updLink l fun x => { x with degrade := some m }).sendFlit l 2 0
    (ctrlBody 2 (leBytes 1 m))

/-- LANE_FAIL (R225, R226): receive lane k is dropped; a direction with no lane left takes the link to DOWN. -/
def laneFail (l k : Nat) (d : Dev) : Dev :=
  let rx := d.rd (Reg.LNK_STAT_RXLANES l)
  if d.lkState l ≠ lkACTIVE ∨ ¬ bit rx k then d
  else
    let m := setBit rx k false
    let d := (d.setF (Reg.LNK_LANE_FAILED l k)).setRxLanes l m
    if m = 0 then d.lkDown l else d.askMask l m

/-- DEGRADE (R226): the transmitter acknowledges, marks the new mask and stripes over it. -/
def degradeFlit (l : Nat) (h : FlitHdr) (m : Nat) (d : Dev) : Dev :=
  d.ctrlFlit l h fun d =>
    if d.lkState l ≠ lkACTIVE then d
    else if m = 0 then d.lkDown l
    else
      let d := d.sendFlit l 2 0 (ctrlBody 3 (leBytes 1 m))
      if d.rd (Reg.LNK_STAT_TXLANES l) = m then d
      else
        (((d.sendFlit l 2 0 (ctrlBody 4 [])).wr (Reg.LNK_STAT_TXLANES l) m).incSat (Reg.LNK_EVCNT_DEGRADE l) 1).lkIrq l 1 |>.timeCross l

/-- DEGACK (R226): the request is no longer repeated. -/
def degAckFlit (l : Nat) (h : FlitHdr) (_m : Nat) (d : Dev) : Dev := d.ctrlFlit l h fun d => d

/-- LANEMARK (R226): the receiver locks to the new mask and sends a NAK carrying E. -/
def laneMark (l : Nat) (h : FlitHdr) (d : Dev) : Dev :=
  d.ctrlFlit l h fun d =>
    match (d.link l).degrade with
    | none => d
    | some m =>
      let d := (List.range 4).foldl (fun d k => if bit m k then d.clrF (Reg.LNK_LANE_FAILED l k) else d) (d.setRxLanes l m)
      (d.updLink l fun x => { x with degrade := none, trying := Nat.land x.trying (15 - m) }).sendNak l

/-- LANE_READMISSION (R227). -/
def laneReadmission (l k : Nat) (d : Dev) : Dev :=
  if d.lkState l ≠ lkACTIVE ∨ ¬ bit (d.link l).trying k ∨ ¬ bit (d.rd (Reg.LNK_CTL_LANEOK l)) k then d
  else d.askMask l (setBit (d.rd (Reg.LNK_STAT_RXLANES l)) k true)

/-- LIGHT_LOSS (Table LK-4): the transmitter sends IDLE. -/
def lightLoss (l : Nat) (d : Dev) : Dev :=
  let d := d.updLink l fun x => { x with light := 0 }
  if d.lkState l = lkACTIVE then ((d.incSat (Reg.LNK_EVCNT_PAUSES l) 1).timeCross l).lkGo l lkPAUSE |>.sendFlit l 0 0 []
  else d

/-- Whether an identity is that of the link's neighbour (R220). -/
def sameNbr (d : Dev) (l : Nat) (i : NbrId) : Bool :=
  d.rd (Reg.LNK_NBR_DEV l) = i.dev.toNat && d.rd (Reg.LNK_NBR_LINK l) = i.link.val

/-- LIGHT_RETURN (Table LK-4). -/
def lightReturn (l : Nat) (i : NbrId) (d : Dev) : Dev :=
  let d := d.updLink l fun x => { x with light := d.rd (Reg.LNK_STAT_RXLANES l) }
  if d.lkState l ≠ lkPAUSE then d.tryTrain l
  else if d.sameNbr l i then (d.lkBack l).sendNak l
  else (d.lkDown l).tryTrain l

/-- PAUSE_TIMEOUT, RETRAIN_TIMEOUT (Table LK-4). -/
def pauseTimeout (l : Nat) (d : Dev) : Dev := if d.lkState l = lkPAUSE then (d.lkDown l).tryTrain l else d
def retrainTimeout (l : Nat) (d : Dev) : Dev := if d.lkState l = lkRETRAIN then (d.lkDown l).tryTrain l else d

/-- RETRAIN_DONE (Table LK-4): replay from the neighbour's E, or DOWN for another neighbour. -/
def retrainDone (l : Nat) (i : NbrId) (e : Nat) (d : Dev) : Dev :=
  if d.lkState l ≠ lkRETRAIN then d
  else if d.sameNbr l i then
    ((d.updLink l fun x => { x with nakOut := false, naks := 0, degrade := none }).lkBack l).takeNak l e
  else (d.lkDown l).tryTrain l

/-- TIME_FLIT_SEND (R231). -/
def timeFlitSend (l sub : Nat) (d : Dev) : Dev :=
  if d.lkState l = lkACTIVE ∧ d.flag (Reg.LNK_TIMECFG_TEN l) then d.sendTime l sub else d

end Dev

/-- The fields of a TIME flit (Table LK-7). -/
structure TimeBody where
  tnum : BitVec 16
  pnum : BitVec 16
  rnum : BitVec 16
  valid : BitVec 2
  tdep : BitVec 64
  tarr : BitVec 64
  bstate : Fin 8
  depth : BitVec 8
  deriving DecidableEq, Repr

namespace Dev

/-- An exchange discarded (R231, R232). -/
def timeDisc (l : Nat) (d : Dev) : Dev := (d.incSat (Reg.LNK_TSEQ_TDISC l) 1).lkIrq l 4

/-- A signed number halved; the spec does not say how a half is rounded. -/
def halve (x : Int) (d : Dev) : Int × Dev :=
  if x % 2 = 0 then (x / 2, d) else
    let r := d.fresh
    (x / 2 + (r.1 % 2 : Nat), r.2)

/-- A TIME flit received (R231): its stamp, and the exchange that it completes, as offset and delay in 1/16 tick. -/
def takeTime (l : Nat) (h : FlitHdr) (b : TimeBody) (sub : Nat) (d : Dev) : Option (Int × Int) × Dev :=
  if d.lkState l ≠ lkACTIVE then (none, d)
  else if h.bad then (none, (d.badFlit l).timeDisc l)
  else
    let d := d.takeHdr l h
    let x := d.link l
    let stamp := (16 * d.now + sub % 16) % 2 ^ 64
    let d := d.setLink l { x with arrives := ((b.tnum.toNat, stamp) :: x.arrives).take 4, tarr := stamp,
                                  tlast := some b.tnum.toNat, nbState := b.bstate, nbDepth := b.depth.toNat }
    if b.valid.toNat ≠ 3 then (none, d)
    else
      match x.departs.lookup b.rnum.toNat, x.arrives.lookup b.pnum.toNat with
      | some t1, some t4 =>
        let f := (b.tarr - BitVec.ofNat 64 t1).toInt
        let g := (BitVec.ofNat 64 t4 - b.tdep).toInt
        let asym := (BitVec.ofNat 16 (d.rd (Reg.LNK_TIMECFG_ASYM l))).toInt
        let (off, d) := d.halve (f - g + asym)
        let (del, d) := d.halve (f + g)
        let d := ((d.wr (Reg.LNK_TIME_OFFSET l) (BitVec.ofInt 32 off).toNat).wr (Reg.LNK_TIME_DELAY l) (BitVec.ofInt 32 del).toNat).incWrap
          (Reg.LNK_TSEQ_TDONE l) 1
        (some (off, del), d.updLink l fun x => { x with lastEx := some d.now, exchanges := x.exchanges + 1 })
      | _, _ => (none, d.timeDisc l)

end Dev
end Sys2Proof.Machine
end

