-- ==== Sys2Proof/Machine/Laser.lean ====
section
/-!
DEFINITION. Laser cartridges, feed groups and the sideband bus (R228 to R230, R388 to R408).
-/
namespace Sys2Proof.Machine

/-- Slot states, as LAS_SLOT.STATE codes them (Table LC-2). -/
def slEMPTY : Nat := 0
def slJOINING : Nat := 1
def slREADY : Nat := 2
def slWARMING : Nat := 3
def slON : Nat := 4
def slDRAINED : Nat := 5
def slREFUSED : Nat := 6
def slFAILED : Nat := 7
def slUNKNOWN : Nat := 8
def slOFF : Nat := 9

/-- Port states, as SBB_STAT.STATE codes them. -/
def sbDAA : Nat := 1
def sbACTIVE : Nat := 2
def sbRECOVERING : Nat := 3
def sbSTUCK : Nat := 4

/-- The cartridge that feeds group g of engine e as its primary (TO = 0) or secondary (Table LK-5). -/
def feedCart (e g side : Nat) : Nat := (e + g + 4 * side) % 8

/-- A cartridge's wear weight, doubled (Table LC-3). -/
def wearW2 (bias : Nat) : Nat := if bias ≤ 1000 then 2 else if bias ≤ 1100 then 3 else if bias ≤ 1200 then 5 else 8

namespace Dev

def cart (d : Dev) (c : Nat) : Cart := tabGet Cart.reset c d.carts
def setCart (c : Nat) (x : Cart) (d : Dev) : Dev := { d with carts := tabPut Cart.reset c x d.carts }
def slState (d : Dev) (c : Nat) : Nat := d.rd (Reg.LAS_SLOT_STATE c)
/-- A change of a slot's state, with its event (R407). -/
def slGo (c st : Nat) (d : Dev) : Dev :=
  if d.slState c = st then d else (d.wr (Reg.LAS_SLOT_STATE c) st).irqEvent (64 + 4 * c)
/-- Drives LSEN[c] (R388). -/
def setLsen (c : Nat) (v : Bool) (d : Dev) : Dev :=
  if bit d.lsen c = v then d else ({ d with lsen := setBit d.lsen c v }).emit (.lsen c v)
def lasRefuse (code : Nat) (d : Dev) : Dev := (d.setF Reg.LAS_STAT_REFUSED).wr Reg.LAS_STAT_REFCODE code

/-! Feed groups (R228 to R230, R400). -/

/-- The feed in use by group g of engine e: 0 primary, 1 secondary, 2 dark. -/
def feed (d : Dev) (e g : Nat) : Nat := bits (d.rd Reg.LAS_FEED_FEED) (4 * e + 2 * g + 1) (4 * e + 2 * g)
/-- The links of a feed group (Table LK-5). -/
def feedLinks (e g : Nat) : List Nat := [4 * e + 2 * g, 4 * e + 2 * g + 1]
/-- A feed group takes a feed: LAS_FEED, LNK_STAT.FEED and the links' events. -/
def setFeed (e g f : Nat) (d : Dev) : Dev :=
  if d.feed e g = f then d
  else
    let sh := 4 * e + 2 * g
    let d := d.wr Reg.LAS_FEED_FEED (d.rd Reg.LAS_FEED_FEED - d.feed e g * 2 ^ sh + f * 2 ^ sh)
    (feedLinks e g).foldl (fun (d : Dev) l => (d.wr (Reg.LNK_STAT_FEED l) f).lkIrq l 3) d

/-- A cartridge that the sideband bus reports healthy: on, its last STATUS OK or DEGRADED (R370, assumption log 40). -/
def cartHealthy (d : Dev) (c : Nat) : Bool := d.slState c = slON && d.rd (Reg.LAS_SLOT_HEALTH c) < 2
/-- The two cartridges of a group, as a record names them. -/
def cartsInfo (e g : Nat) : Nat := feedCart e g 0 + 16 * feedCart e g 1

/-- A slot shut down (Table LC-2): in every state but EMPTY. -/
def slShut (c : Nat) (d : Dev) : Dev := if d.slState c = slEMPTY then d else (d.setLsen c false).slGo c slOFF

/-- A feed group is dark (R230, R370): its links go DOWN; with both cartridges healthy every cartridge that feeds the engine is shut
down and the device enters quiet state. -/
def feedDark (e g : Nat) (d : Dev) : Dev :=
  let both := d.cartHealthy (feedCart e g 0) && d.cartHealthy (feedCart e g 1)
  let d := (feedLinks e g).foldl (fun (d : Dev) l => d.lkDown l) (d.setFeed e g 2)
  if both then
    ([feedCart e 0 0, feedCart e 0 1, feedCart e 1 0, feedCart e 1 1].foldl (fun (d : Dev) c => d.slShut c) d).quietDevice
      0x34 18 (cartsInfo e g) 0 (2 * e + g)
  else d.err 18 { cls := 0x33, unit := 2 * e + g, info := cartsInfo e g }

/-- The group leaves its cartridge for the other one, or goes dark; `lit` when the other one's light reaches the engine (R229). -/
def feedLeave (e g : Nat) (lit : Bool) (d : Dev) : Dev :=
  if d.feed e g = 2 then d
  else
    let side := 1 - d.feed e g
    if lit ∧ d.slState (feedCart e g side) = slON then d.setFeed e g side else d.feedDark e g

/-- FEED_SWITCH (R229, R230): a group's light falls below the engine's threshold. -/
def feedSwitch (e g : Nat) (lit : Bool) (d : Dev) : Dev := d.feedLeave e g lit

/-- The groups, as engine and group. -/
def feedGroups : List (Nat × Nat) := (List.range 16).map fun i => (i / 2, i % 2)
/-- The groups whose feed in use is cartridge c. -/
def groupsOn (d : Dev) (c : Nat) : List (Nat × Nat) :=
  feedGroups.filter fun x => d.feed x.1 x.2 < 2 && feedCart x.1 x.2 (d.feed x.1 x.2) = c
/-- Every group on c leaves it (R229). -/
def groupsLeave (c : Nat) (d : Dev) : Dev := (d.groupsOn c).foldl (fun (d : Dev) x => d.feedLeave x.1 x.2 true) d

/-- FEED_MOVE (R400): a write of LAS_FEEDCTL with GO. -/
def feedMove (e g side : Nat) (d : Dev) : Dev :=
  if d.feed e g = side then d
  else if d.slState (feedCart e g side) ≠ slON then d.lasRefuse 3
  else
    let dark := d.feed e g = 2
    let d := d.setFeed e g side
    if dark then (feedLinks e g).foldl (fun (d : Dev) l => d.tryTrain l) d else d

/-- Dark groups that name c take its light, and their links train (Table LC-2). -/
def feedLight (c : Nat) (d : Dev) : Dev :=
  feedGroups.foldl (fun (d : Dev) x =>
    if d.feed x.1 x.2 = 2 ∧ (feedCart x.1 x.2 0 = c ∨ feedCart x.1 x.2 1 = c) then
      (feedLinks x.1 x.2).foldl (fun (d : Dev) l => d.tryTrain l) (d.setFeed x.1 x.2 (if feedCart x.1 x.2 0 = c then 0 else 1))
    else d) d

/-! Wear (R398, R399). -/

/-- RATED in hours and SERIAL, from the identity read (Table LC-1). -/
def cartRated (d : Dev) (c : Nat) : Nat := bits (d.rd (Reg.LAS_ID_ID c 1)) 63 32
def cartSerial (d : Dev) (c : Nat) : Nat := bits (d.rd (Reg.LAS_ID_ID c 0)) 63 16 + bits (d.rd (Reg.LAS_ID_ID c 1)) 15 0 * 2 ^ 48
/-- Units of equivalent time in an hour. -/
def ehHour : Nat := 72000

/-- A warning flag set once, with the slot's warning event. -/
def eolSet (c : Nat) (f : Fld) (on : Bool) (d : Dev) : Dev :=
  if on ∧ ¬ d.flag f then (d.setF f).irqEvent (64 + 4 * c + 1) else d

/-- EHMIN, the end-of-life warnings and OVERLIFE follow the equivalent time (R398, R399). -/
def wearMarks (c : Nat) (d : Dev) : Dev :=
  let x := d.cart c
  let rated := d.cartRated c * ehHour
  let d := d.wr (Reg.LAS_WEAR_EHMIN c) (x.eh / 1200)
  let d := d.eolSet c (Reg.LAS_SLOT_EOL90 c) (rated * 90 ≤ x.eh * 100)
  let d := d.eolSet c (Reg.LAS_SLOT_EOL98 c) (rated * 98 ≤ x.eh * 100)
  let d := if rated ≤ x.eh then d.setF (Reg.LAS_SLOT_OVERLIFE c) else d
  d.setCart c { x with lastSerial := d.cartSerial c, lastEh := x.eh }

/-- LIFE and REMAIN, recomputed at a poll (R398). -/
def wearPoll (c : Nat) (d : Dev) : Dev :=
  let x := d.cart c
  let rated := d.cartRated c * ehHour
  let life := min 0xFFFF (x.eh * 1024 / rated)
  let rem := if rated ≤ x.eh then 0 else min 0xFFFF ((rated - x.eh) * 2 / (x.w2 * ehHour))
  (d.wr (Reg.LAS_WEAR_LIFE c) life).wr (Reg.LAS_WEAR_REMAIN c) rem

/-- Writes the wear log to the copy with the lower SEQ (R390, R399). -/
def wearWrite (c : Nat) (d : Dev) : Dev :=
  let x := d.cart c
  let eh := x.eh / 1200 % 2 ^ 32
  let sq := (max x.aSeq x.bSeq + 1) % 2 ^ 32
  if x.aSeq ≤ x.bSeq then
    (d.setCart c { x with aEh := eh, aSeq := sq }).emit (.sideband c 0x20 (leBytes 4 eh ++ leBytes 4 sq))
  else (d.setCart c { x with bEh := eh, bSeq := sq }).emit (.sideband c 0x28 (leBytes 4 eh ++ leBytes 4 sq))

/-- A slot that holds an identified cartridge. -/
def identified (d : Dev) (c : Nat) : Bool :=
  let s := d.slState c
  s = slREADY || s = slWARMING || s = slON || s = slDRAINED || s = slFAILED || s = slOFF

/-- WEAR_WRITEBACK (R399): every identified cartridge whose port is in service. -/
def wearWriteback (d : Dev) : Dev :=
  (List.range 8).foldl (fun (d : Dev) c =>
    if d.identified c ∧ d.rd (Reg.SBB_STAT_STATE (c / 4)) = sbACTIVE then d.wearWrite c else d) d

/-! Control (R395, R401, R405). -/

/-- LAS_CTL ON (R408): refused with 0x1 outside READY and OFF. -/
def laserOn (c : Nat) (d : Dev) : Dev :=
  if d.slState c ≠ slREADY ∧ d.slState c ≠ slOFF then d.lasRefuse 1
  else (({ d with lasOff := setBit d.lasOff c false }).clrF Reg.LAS_STAT_ALLOFF).setLsen c true |>.slGo c slWARMING

/-- LAS_CTL OFF: groups leave, the wear log is written, LSEN falls. -/
def laserOff (c : Nat) (d : Dev) : Dev :=
  if d.slState c ≠ slON then d else (((d.groupsLeave c).wearWrite c).setLsen c false).slGo c slOFF

/-- LAS_CTL PREP (R401). -/
def prep (c : Nat) (force : Bool) (d : Dev) : Dev :=
  let s := d.slState c
  if s ≠ slON ∧ s ≠ slREADY ∧ s ≠ slOFF then d.lasRefuse 1
  else
    let stuck := (d.groupsOn c).any fun x => d.slState (feedCart x.1 x.2 (1 - d.feed x.1 x.2)) ≠ slON
    if stuck ∧ ¬ force then d.lasRefuse 2
    else (((d.groupsLeave c).wearWrite c).setLsen c false).slGo c slDRAINED

/-- ALLOFF (R405): every LSEN falls; the lasers stay off until ON is written for each slot. -/
def allOff (d : Dev) : Dev :=
  ((List.range 8).foldl (fun (d : Dev) c => (d.slShut c).setLsen c false) { d with lasOff := 0xFF }).setF Reg.LAS_STAT_ALLOFF

/-- A write of LAS_CTL (R408): ON, OFF, PREP, ALLOFF; other codes are refused. -/
def lasCtl (c op : Nat) (force : Bool) (d : Dev) : Dev :=
  match op with
  | 0 => d
  | 1 => d.laserOn c
  | 2 => d.laserOff c
  | 3 => d.prep c force
  | 4 => d.allOff
  | _ => d.lasRefuse 1

/-- WARMING_TIMEOUT (Table LC-2). -/
def warmingTimeout (c : Nat) (d : Dev) : Dev :=
  if d.slState c = slWARMING then (d.setLsen c false).slGo c slFAILED else d

/-! Presence, assignment and identity (R392 to R396). -/

/-- PRESENCE (R395): a presence input falls. -/
def presence (c : Nat) (d : Dev) : Dev := d.setF (Reg.LAS_SLOT_PRSNT c)

/-- PRESENCE_LOST (Table LC-2): LSEN low, the entry cleared. The device keeps its own last wear value. -/
def presenceLost (c : Nat) (d : Dev) : Dev :=
  let x := d.cart c
  let d := (d.setLsen c false).slGo c slEMPTY
  let d := [Reg.LAS_SLOT_PRSNT c, Reg.LAS_SLOT_LEGACY c, Reg.LAS_SLOT_EOL90 c, Reg.LAS_SLOT_EOL98 c, Reg.LAS_SLOT_OVERLIFE c,
    Reg.LAS_SLOT_TEMP c, Reg.LAS_SLOT_BIAS c, Reg.LAS_ID_ID c 0, Reg.LAS_ID_ID c 1, Reg.LAS_ID_ID c 2, Reg.LAS_ID_ID c 3,
    Reg.LAS_WEAR_EHMIN c, Reg.LAS_WEAR_LIFE c, Reg.LAS_WEAR_REMAIN c].foldl (fun (d : Dev) f => d.wr f 0) d
  (d.wr (Reg.LAS_SLOT_HEALTH c) 3).setCart c { Cart.reset with lastSerial := x.lastSerial, lastEh := x.lastEh }

/-- A port begins an assignment (R392). -/
def startDaa (p : Nat) (d : Dev) : Dev := d.wr (Reg.SBB_STAT_STATE p) sbDAA

/-- HOT_JOIN (R393): NACKed during an assignment, and served by a further one as soon as that one ends. -/
def hotJoin (p : Nat) (d : Dev) : Dev :=
  if d.rd (Reg.SBB_STAT_STATE p) = sbDAA then { d with sbHj := setBit d.sbHj p true }
  else if d.rd (Reg.SBB_STAT_STATE p) = sbACTIVE then (d.incSat (Reg.SBB_CNT_HOTJOIN p) 1).startDaa p
  else d

/-- ENTDAA (R392, R393): the assignment ends; the present slots among those that won an address join, and a NACKed Hot-Join starts
a further one. -/
def entdaa (p : Nat) (won : Nat) (d : Dev) : Dev :=
  if d.rd (Reg.SBB_STAT_STATE p) ≠ sbDAA then d
  else
    let d := (List.range 4).foldl (fun (d : Dev) i =>
      let c := 4 * p + i
      if bit won i ∧ d.flag (Reg.LAS_SLOT_PRSNT c) ∧ ¬ d.flag (Reg.LAS_SLOT_LEGACY c)
          ∧ (d.slState c = slEMPTY ∨ d.slState c = slREFUSED ∨ d.slState c = slUNKNOWN) then d.slGo c slJOINING else d) d
    let d := d.wr (Reg.SBB_STAT_STATE p) sbACTIVE
    if bit d.sbHj p then (({ d with sbHj := setBit d.sbHj p false }).incSat (Reg.SBB_CNT_HOTJOIN p) 1).startDaa p else d

/-- LEGACY_DETECT (R394). -/
def legacyDetect (c : Nat) (d : Dev) : Dev :=
  if d.slState c = slEMPTY ∧ d.flag (Reg.LAS_SLOT_PRSNT c) ∧ d.rd (Reg.SBB_STAT_STATE (c / 4)) ≠ sbSTUCK then
    (d.setF (Reg.LAS_SLOT_LEGACY c)).slGo c slJOINING
  else d

/-- What an identity is refused for (R396): the REFCODE, in the order of the rule. -/
def idRefused (d : Dev) (c : Nat) (id : List Byte) : Option Nat :=
  let s := byteField id 0xB 1 % 8
  if byteField id 0xA 1 ≠ d.rd Reg.LAS_CFG_PLAN then some 4
  else if s / 4 ≠ c / 4 ∨ ¬ d.flag (Reg.LAS_SLOT_PRSNT s) ∨ d.identified s then some 5
  else if byteField id 2 8 = 0 ∨ byteField id 0xC 4 = 0 then some 6
  else none

/-- IDENTITY_READ (R396, R399): the registers 0x00 to 0x1F and the two wear copies of the cartridge in slot c. -/
def identityRead (c : Nat) (id : List Byte) (a b : Nat × Nat) (d : Dev) : Dev :=
  if d.slState c ≠ slJOINING then d
  else
    match d.idRefused c id with
    | some k => (d.lasRefuse k).slGo c slREFUSED
    | none =>
      let s := byteField id 0xB 1 % 8
      let d := (List.range 4).foldl (fun (d : Dev) w => d.wr (Reg.LAS_ID_ID s w) (byteField id (8 * w) 8)) d
      let x := d.cart s
      let log := (if a.2 < b.2 then b.1 else a.1) * 1200
      let eh := if x.lastSerial = d.cartSerial s then max log x.lastEh else log
      let d := (d.setCart s { x with eh := eh, aEh := a.1, aSeq := a.2, bEh := b.1, bSeq := b.2, w2 := 2 }).wearMarks s
      let d := d.slGo s slREADY
      if d.flag Reg.LAS_CFG_AUTOON ∧ ¬ bit d.lasOff s then d.laserOn s else d

/-! Health (R397) and recovery (R403, R404). -/

/-- A cartridge of a port that became STUCK is UNKNOWN, and its groups leave it (R404). -/
def portStuck (p : Nat) (d : Dev) : Dev :=
  let d := ((d.wr (Reg.SBB_STAT_STATE p) sbSTUCK).setF (Reg.SBB_STAT_SDALOW p)).incSat (Reg.SBB_CNT_STUCKS p) 1
  let cs := (List.range 4).map (4 * p + ·)
  let d := cs.foldl (fun (d : Dev) c => if d.slState c = slEMPTY then d else (d.setLsen c false).slGo c slUNKNOWN) d
  cs.foldl (fun (d : Dev) c => d.groupsLeave c) d

/-- A recovery that succeeded runs the assignment again (R403): an UNKNOWN slot's identity is read again. -/
def recovered (p : Nat) (d : Dev) : Dev :=
  let d := (d.clrF (Reg.SBB_STAT_SDALOW p)).incSat (Reg.SBB_CNT_RECOV p) 1
  let d := (List.range 4).foldl (fun (d : Dev) i =>
    if d.slState (4 * p + i) = slUNKNOWN then d.slGo (4 * p + i) slJOINING else d) d
  d.startDaa p

/-- The procedure of R403 starts: with SDA high the bus is free at once. -/
def recover (p : Nat) (sdaLow : Bool) (d : Dev) : Dev :=
  let d := (d.wr (Reg.SBB_STAT_STATE p) sbRECOVERING).wr (Reg.SBB_STAT_TRIES p) 0
  if sdaLow then d.setF (Reg.SBB_STAT_SDALOW p) else d.recovered p

/-- PORT_RESET (R403): the controller's own state is lost first. -/
def portReset (p : Nat) (sdaLow : Bool) (d : Dev) : Dev := ({ d with sbHj := setBit d.sbHj p false }).recover p sdaLow

/-- RECOVERY_ATTEMPT (R403): one attempt of at most three. -/
def recoveryAttempt (p : Nat) (ok : Bool) (d : Dev) : Dev :=
  if d.rd (Reg.SBB_STAT_STATE p) ≠ sbRECOVERING then d
  else
    let n := d.rd (Reg.SBB_STAT_TRIES p) + 1
    let d := d.wr (Reg.SBB_STAT_TRIES p) n
    if ok then d.recovered p else if 3 ≤ n then d.portStuck p else d

/-- A health read of an identified cartridge (R397, Table LC-2). -/
def healthRead (c status temp bias pout : Nat) (d : Dev) : Dev :=
  let d := if d.rd (Reg.LAS_SLOT_HEALTH c) = status then d else (d.wr (Reg.LAS_SLOT_HEALTH c) status).irqEvent (64 + 4 * c + 2)
  let d := (d.wr (Reg.LAS_SLOT_TEMP c) temp).wr (Reg.LAS_SLOT_BIAS c) bias
  let d := d.setCart c { d.cart c with pout := pout, w2 := wearW2 bias }
  if d.slState c = slWARMING ∧ status < 2 then (d.slGo c slON).feedLight c
  else if d.slState c = slON ∧ status = 2 then ((d.setLsen c false).slGo c slFAILED).groupsLeave c
  else d

/-- A read that was NACKed three times in a row (R397): counted, and the port recovers. -/
def healthNack (c : Nat) (sdaLow : Bool) (d : Dev) : Dev := (d.incSat (Reg.SBB_CNT_NACK (c / 4)) 1).recover (c / 4) sdaLow

/-- Whether the port reads a cartridge's health. -/
def polled (d : Dev) (c : Nat) : Bool := d.identified c && d.rd (Reg.SBB_STAT_STATE (c / 4)) = sbACTIVE

/-- POLL (R397, R398): health and wear; `nack` when the read was NACKed three times in a row, with SDA low or high. -/
def poll (c status temp bias pout : Nat) (nack : Option Bool) (d : Dev) : Dev :=
  if ¬ d.polled c then d
  else
    match nack with
    | some low => d.healthNack c low
    | none =>
      let lit := d.slState c = slWARMING ∨ d.slState c = slON
      let d := d.healthRead c status temp bias pout
      let x := d.cart c
      let d := if lit then d.setCart c { x with eh := x.eh + max 1 (d.rd Reg.LAS_CFG_POLL) * x.w2 } else d
      (d.wearMarks c).wearPoll c

/-- IN_BAND_INTERRUPT (R397): a cartridge served as I3C announces a change of STATUS. -/
def inBandInterrupt (c status temp bias pout : Nat) (nack : Option Bool) (d : Dev) : Dev :=
  if ¬ d.polled c ∨ d.flag (Reg.LAS_SLOT_LEGACY c) then d
  else
    match nack with
    | some low => d.healthNack c low
    | none => d.healthRead c status temp bias pout

end Dev
end Sys2Proof.Machine
end

