-- ==== Sys2Proof/Machine/Route.lean ====
section
/-!
DEFINITION. The router (R236 to R245, R250 to R252): which output a packet takes, discards, congestion telemetry and reshaping.
-/
namespace Sys2Proof.Machine

/-- Where a packet to be forwarded stands: the i-th of this device's own packets, or the front of a link's virtual channel. -/
inductive FwdFrom where
  | own (i : Nat)
  | port (l : Fin 32) (vc : Fin 8)
  deriving DecidableEq, Repr

/-- Fields of a device ID (R236). -/
def idDev (x : Nat) : Nat := bits x 2 0
def idL (x : Nat) : Nat := bits x 5 0
def idGrp (x : Nat) : Nat := bits x 14 6
def idPod (x : Nat) : Nat := bits x 19 15

/-- The class of a packet type (Table RT-3): 0 data, 1 control. -/
def Pkt.cls (p : Pkt) : Nat := if p.ptype = ptWRITE ∨ p.ptype = ptREAD ∨ p.ptype = ptENGINE then 0 else 1

/-- An output that a candidate offers: the link, whether the crossing advances PHASE. -/
structure RtOut where
  link : Nat
  inc : Bool
  deriving DecidableEq, Repr

namespace Dev

/-- The links from this device toward index L of its group, in dimension order (R242 rule 3, Table RT-1). -/
def inGroup (d : Dev) (l : Nat) : List Nat :=
  let me := d.myDev
  if bits l 2 0 ≠ idDev me then
    let m := (bits l 2 0 + 16 - idDev me - 1) % 8
    [2 * m, 2 * m + 1]
  else if l ≠ idL me then [14 + (bits l 5 3 + 16 - bits me 5 3 - 1) % 8]
  else []

/-- The outputs toward a gateway: its global port where this device is it, else the way within the group (R242 rule 4). -/
def viaGateway (d : Dev) (l k : Nat) (inc : Bool) : List RtOut :=
  if l = idL d.myDev then [⟨21 + k, inc⟩] else (d.inGroup l).map fun x => ⟨x, false⟩

/-- The candidates for a destination, each with its outputs, in table order (R242 rules 3 to 5, R251). -/
def candidates (d : Dev) (pod grp l : Nat) : List (List RtOut) :=
  let me := d.myDev
  let b := d.rd Reg.RTE_CTL_BANK
  if pod = idPod me ∧ grp = idGrp me then (d.inGroup l).map fun x => [⟨x, false⟩]
  else if pod = idPod me then
    (if d.flag (Reg.RTE_GRP_V0 b grp) then [d.viaGateway (d.rd (Reg.RTE_GRP_L0 b grp)) (d.rd (Reg.RTE_GRP_K0 b grp)) (!d.shape)] else [])
      ++ (if d.flag (Reg.RTE_GRP_V1 b grp) then [d.viaGateway (d.rd (Reg.RTE_GRP_L1 b grp)) (d.rd (Reg.RTE_GRP_K1 b grp)) (!d.shape)]
          else [])
  else
    [d.rd (Reg.RTE_POD_G0 b pod), d.rd (Reg.RTE_POD_G1 b pod), d.rd (Reg.RTE_POD_G2 b pod), d.rd (Reg.RTE_POD_G3 b pod)].filterMap
      fun g => if bit g 10 then some (d.viaGateway (bits g 5 0) (bits g 9 6) (!d.shape || bit g 11)) else none

/-- A link that a packet may be given: ACTIVE, and not leaving in a reshape (R245, R252). -/
def usable (d : Dev) (l : Nat) : Bool := d.lkState l = lkACTIVE && !(bit d.draining l) && decide (l < 32)

/-- Flits that wait on an output (R245). -/
def outFlits (d : Dev) (l : Nat) : Nat :=
  ((List.range 8).map fun v => ((((d.link l).vc v).txq.flatMap TxPkt.left).length + 244) / 245).sum

/-- The output with the most free credits in a virtual channel; which of equals is not stated. -/
def mostCredits (v : Nat) (os : List RtOut) (d : Dev) : Option RtOut × Dev :=
  let best := (os.map fun o => ((d.link o.link).vc v).credits).foldl max 0
  let top := os.filter fun o => ((d.link o.link).vc v).credits = best
  match top with
  | [] => (none, d)
  | [o] => (some o, d)
  | _ =>
    let r := d.fresh
    (top[r.1 % top.length]?, r.2)

/-- The non-minimal intermediate group of PATH 2 or 3 for a destination (R245): POD and GROUP in 14 bits. -/
def altOf (d : Dev) (pod grp which : Nat) : Option Nat :=
  let b := d.rd Reg.RTE_CTL_BANK
  if pod = idPod d.myDev then
    (if d.flag (Reg.RTE_GRP_AV b grp) then
      some (pod * 512 + (if which = 0 then d.rd (Reg.RTE_GRP_ALT0 b grp) else d.rd (Reg.RTE_GRP_ALT1 b grp))) else none)
  else if d.flag (Reg.RTE_POD_AV b pod) then some (idPod d.myDev * 512 + d.rd (Reg.RTE_POD_ALT b pod)) else none

/-- An avoided link is used only when no other candidate is ACTIVE (R371). -/
def notAvoided (d : Dev) (l : List RtOut) : List RtOut :=
  let g := l.filter fun o => !(bit (d.rd Reg.LG_STAT_AVOID) o.link)
  if g.isEmpty then l else g

/-- The minimal outputs of a path class (R245). -/
def pathOutputs (d : Dev) (path : Nat) (cs : List (List RtOut)) : List RtOut :=
  d.notAvoided ((if path = 0 then cs else cs.drop 1).flatten.filter fun o => d.usable o.link)

/-- The outputs toward an intermediate group. -/
def towards (d : Dev) (i : Nat) : List RtOut :=
  d.notAvoided (((d.candidates (i / 512) (i % 512) (idL d.myDev)).flatten).filter fun o => d.usable o.link)

/-- Chooses the output of a packet (R242, R245, R251); `src` when this device is its source. The packet comes back with NM and INTER
as they go on. -/
def route (src : Bool) (p : Pkt) (d : Dev) : Option (RtOut × Pkt) × Dev :=
  let here := idPod d.myDev * 512 + idGrp d.myDev
  let p := if p.nm ∧ p.inter = here then { p with nm := false } else p
  let v := 2 * p.phase + p.cls
  if p.nm then
    let r := d.mostCredits v (d.towards p.inter)
    (r.1.map fun o => (o, p), r.2)
  else
    let pod := idPod p.ddev
    let grp := idGrp p.ddev
    let cs := d.candidates pod grp (idL p.ddev)
    let path := if d.shape ∧ 2 ≤ p.path then 1 else p.path
    let minimal := d.pathOutputs path cs
    let goAlt (which : Nat) (d : Dev) : Option (RtOut × Pkt) × Dev :=
      match d.altOf pod grp which with
      | none => (none, d)
      | some i =>
        let q := { p with nm := true, inter := i }
        let r := d.mostCredits v (d.towards i)
        (r.1.map fun o => (o, q), r.2)
    if path = 0 ∧ ¬ d.flag Reg.RTE_CTL_ADAPT then (minimal.head?.map fun o => (o, p), d)
    else if path = 0 then
      let r := d.mostCredits v minimal
      let d := r.2
      match r.1 with
      | none => (none, d)
      | some o =>
        -- the source may go non-minimal when its minimal output is much fuller than the output toward ALT0
        match (if src ∧ ¬ d.shape then d.altOf pod grp 0 else none) with
        | none => (some (o, p), d)
        | some i =>
          let r := d.mostCredits v (d.towards i)
          let d := r.2
          match r.1 with
          | none => (some (o, p), d)
          | some o' =>
            if d.outFlits o'.link + d.rd Reg.RTE_CTL_NMTHR < d.outFlits o.link then
              let r := d.fresh
              if r.1 % 2 = 0 then (some (o', { p with nm := true, inter := i }), r.2) else (some (o, p), r.2)
            else (some (o, p), d)
    else if path = 1 ∨ ¬ src then
      (if minimal ≠ [] then
        let r := d.mostCredits v minimal
        (r.1.map fun o => (o, p), r.2)
      else if d.shape then (none, d)
      else if src then goAlt 0 d
      else
        let r := d.mostCredits v (d.pathOutputs 0 cs)
        (r.1.map fun o => (o, p), r.2))
    else goAlt (path - 2) d

/-- The partition of a packet that this device sent, and whether it carries a WITHHELD message. -/
def ownPacket (d : Dev) (p : Pkt) : Option (Nat × Bool) :=
  (d.ctxs.find? fun e => e.2.fdev = p.ddev ∧ e.2.fctx = p.dctx ∧ e.2.st ≠ .closed).map fun e =>
    (e.2.part, e.2.ops.any fun o => (p.seq + 2 ^ 32 - o.first) % 2 ^ 32 ≤ (o.last + 2 ^ 32 - o.first) % 2 ^ 32
      && (match o.owner with | .withheld _ => true | _ => false))

/-- Whether the link layer takes one of this device's packets in the present quiet state (R218). -/
def taken (d : Dev) (p : Pkt) : Bool :=
  p.ptype = ptACK ||
    match d.ownPacket p with
    | some (q, wh) => wh || !(d.isQuiet q)
    | none => !d.devQuiet

/-- The packet that PACKET_FORWARD names, the flits it holds, and the state without it. -/
def takeFwd (f : FwdFrom) (d : Dev) : Option (Pkt × Option (Nat × Nat × Nat) × Dev) :=
  match f with
  | .own i =>
    match d.inject[i]? with
    | some p => if d.taken p then some (p, none, { d with inject := d.inject.eraseIdx i }) else none
    | none => none
  | .port l v =>
    match ((d.link l).vc v).rxq with
    | [] => none
    | (p, n) :: r =>
      if d.devQuiet ∧ p.ddev ≠ d.myDev ∧ p.ptype ≠ ptACK then none
      else some (p, some (l.val, v.val, n), d.updVc l v fun y => { y with rxq := r })

def freeFrom (f : Option (Nat × Nat × Nat)) (d : Dev) : Dev :=
  match f with
  | some (l, v, n) => d.freeFlits l v n
  | none => d

/-- PACKET_FORWARD (R242 to R245): delivered here, queued on an output in its virtual channel, or discarded as a no-route. -/
def packetForward (f : FwdFrom) (d : Dev) : Dev :=
  match d.takeFwd f with
  | none => d
  | some (p, fl, d) =>
    if p.ddev = d.myDev then (({ d with arrived := d.arrived ++ [p] }).freeFrom fl).emit (.deliver p)
    else
      let src := match f with | .own _ => true | _ => false
      let r := d.route src p
      match r.1 with
      | none => (r.2.freeFrom fl).incSat Reg.RTE_DROPCNT_NOROUTE 1
      | some (o, p) =>
        let v := 2 * p.phase + p.cls
        let q := if 21 ≤ o.link ∧ o.inc then { p with phase := (p.phase + 1) % 4 } else p
        let d := r.2.updVc o.link v fun y => { y with txq := y.txq ++ [⟨q, q.bytes, fl⟩] }
        (d.updLink o.link fun x => { x with nmSent := x.nmSent + b2n p.nm }).emit (.forward o.link v q)

/-- A DEADLINE has passed (Table RT-2: units of 1,024 ticks modulo 2^32). -/
def pastDeadline (d : Dev) (dl : Nat) : Bool :=
  let k := (d.now / 1024 + 2 ^ 32 - dl) % 2 ^ 32
  decide (0 < k ∧ k < 2 ^ 31)

/-- The counter reaches a value, unless it is past it: what a command that stands for a moment of bell time says of the counter. -/
def advanceTo (n : Nat) (d : Dev) : Dev := { d with now := max d.now n }

/-- The first counter value from now on at which a DEADLINE has passed. -/
def pastAt (d : Dev) (dl : Nat) : Nat :=
  if d.pastDeadline dl then d.now else 1024 * (d.now / 1024 + (dl + 1 + 2 ^ 32 - d.now / 1024 % 2 ^ 32) % 2 ^ 32)

/-- PACKET_DEADLINE (R244): the DEADLINE of the packet at the front of an output's virtual channel, none of which has gone, passes. -/
def packetDeadline (l v : Nat) (d : Dev) : Dev :=
  match ((d.link l).vc v).txq with
  | [] => d
  | t :: r =>
    let d := d.advanceTo (d.pastAt t.p.deadline)
    if t.left.length = t.p.bytes.length then
      ((d.updVc l v fun y => { y with txq := r }).freeFrom t.from_).incSat Reg.RTE_DROPCNT_LATE 1
    else d

/-- One telemetry record (Table RT-5); mean occupancies and waiting times are free. -/
def telRecord (l : Nat) (d : Dev) : List Byte × Dev :=
  let x := d.link l
  let r := d.fresh
  let r2 := r.2.fresh
  (leBytes 8 d.now ++ leBytes 1 l
    ++ leBytes 1 (d.lkState l + 16 * d.rd (Reg.LNK_STAT_TXLANES l)) ++ leBytes 2 0 ++ leBytes 4 x.sent
    ++ (List.range 8).flatMap (fun v => leBytes 1 (x.vc v).maxOcc) ++ leBytes 8 r.1 ++ leBytes 4 r2.1 ++ leBytes 4 x.nmSent
    ++ List.replicate 24 0, r2.2)

/-- TELEMETRY_RECORD (R250): the end of an interval writes one record per port, or counts a drop. -/
def telemetryRecord (d : Dev) : Dev :=
  if ¬ d.flag Reg.RTE_TELCFG_EN then d
  else
    (List.range 32).foldl (fun d l =>
      let r := d.telRecord l
      let d := r.2
      let size := 2 ^ d.rd Reg.RTE_TELCFG_RINGLOG
      let tail := d.rd Reg.RTE_TELPTR_TAIL
      let d :=
        if (tail + 1) % size = d.rd Reg.RTE_TELPTR_HEAD % size then d.incSat Reg.RTE_TELCFG_TELDROP 1
        else (d.hostWrite (d.rd Reg.RTE_TELBASE_BASE * 4096 + 64 * (tail % size)) r.1).wr Reg.RTE_TELPTR_TAIL ((tail + 1) % size)
      d.updLink l fun x =>
        { x with sent := 0, nmSent := 0, vcs := x.vcs.map fun e => (e.1, { e.2 with maxOcc := e.2.occ }) }) d

/-- The bank swap (Table RT-6): the active bank and SHAPE change, and the LINKS retrain. -/
def doSwap (d : Dev) : Dev :=
  let d := (d.clrF Reg.RTE_RESHAPE_ARMED).wr Reg.RTE_CTL_BANK (1 - d.rd Reg.RTE_CTL_BANK)
  let d := { d with shape := d.flag Reg.RTE_CTL_SHAPE, draining := 0, reshaped := true }
  ((List.range 32).foldl (fun d l =>
    if bit (d.rd Reg.RTE_RESHAPE_LINKS) l ∧ (d.lkState l = lkACTIVE ∨ d.lkState l = lkPAUSE) then d.lkRetrain l else d) d).reshapeCheck

/-- A swap that falls due while bell-dependent actions are fenced or the device is quiet is cancelled and recorded (R304, Table FT-1). -/
def swapDue (d : Dev) : Dev :=
  let st := d.rd Reg.BL_STAT_STATE
  if st = 0 ∨ st = 4 ∨ d.devQuiet then
    ({ d with draining := 0 }.clrF Reg.RTE_RESHAPE_ARMED).err 13 { cls := 0x35, extra := d.rd Reg.RTE_SWAPAT_T }
  else d.doSwap

/-- A swap whose T has passed. -/
def swapIfDue (d : Dev) : Dev :=
  if d.flag Reg.RTE_RESHAPE_ARMED ∧ d.rd Reg.RTE_SWAPAT_T ≤ d.now then d.swapDue else d

/-- BANK_SWAP (R252, R304): the counter reaches T, and the swap falls due. -/
def bankSwap (d : Dev) : Dev :=
  if d.flag Reg.RTE_RESHAPE_ARMED then (d.advanceTo (d.rd Reg.RTE_SWAPAT_T)).swapDue else d

/-- ARM (R252): a write of RTE_RESHAPE with ARM; a T already passed swaps at once. -/
def arm (links drain : Nat) (d : Dev) : Dev :=
  (((d.wr Reg.RTE_RESHAPE_LINKS links).wr Reg.RTE_RESHAPE_DRAIN drain).setF Reg.RTE_RESHAPE_ARMED).swapIfDue

/-- CANCEL (R252). -/
def cancel (links drain : Nat) (d : Dev) : Dev :=
  let d := ((d.wr Reg.RTE_RESHAPE_LINKS links).wr Reg.RTE_RESHAPE_DRAIN drain).clrF Reg.RTE_RESHAPE_ARMED
  { d with draining := 0 }

/-- The counter reaches T − DRAIN (R252). -/
def drainLinks (d : Dev) : Dev :=
  if d.flag Reg.RTE_RESHAPE_ARMED then
    { d.advanceTo (d.rd Reg.RTE_SWAPAT_T - 1024 * d.rd Reg.RTE_RESHAPE_DRAIN) with draining := d.rd Reg.RTE_RESHAPE_LINKS }
  else d

end Dev
end Sys2Proof.Machine
end

