-- ==== Sys2Proof/Machine/Streams.lean ====
section
/-!
DEFINITION. Fabric streams (R246 to R249, R353): what the stream layer does with each packet that reaches it, acknowledgement,
retransmission, failure and the states of a context. What a failed stream does to the confluence and the ferry stands in
StreamEvents.lean.
-/
namespace Sys2Proof.Machine.Dev

/-- Contexts are numbered in 17 bits. -/
def seqDist (a b : Nat) : Nat := (b + 2 ^ 32 - a) % 2 ^ 32

/-- The receiver's report (R247): B, and the fault to report. The spec names the fields and not their widths. -/
def ackPayload (x : Ctx) : List Byte :=
  leBytes 4 x.b ++ leBytes 4 ((x.err.map Prod.fst).getD 0) ++ leBytes 8 ((x.err.map Prod.snd).getD 0)

/-- Sends an ACK on context k (R247). -/
def sendAck (k : Nat) (d : Dev) : Dev :=
  let x := d.ctx k
  (d.sendRaw k ptACK 0 true (ackPayload x)).updCtx k fun x => { x with sinceAck := 0, err := none }

/-- Sends a SYNC: the new base and the last B received (R249), with BOOTID and OPENCNT in clear on an encrypted context (R353). -/
def sendSync (k : Nat) (d : Dev) : Dev :=
  let x := d.ctx k
  d.sendRaw k ptSYNC 0 false
    (leBytes 8 x.n ++ leBytes 8 x.b ++ (if x.gcm then leBytes 8 d.bootid ++ leBytes 8 x.opencnt else []))

/-- A packet opened under R353: its TCTR and plain text; none where authentication fails. -/
def openPkt (d : Dev) (k : Nat) (p : Pkt) : Option Pkt :=
  let x := d.ctx k
  if ¬ x.gcm ∨ p.ptype = ptSYNC then some p
  else
    let key := d.dirKey x.part p.sdev x.fctx d.myDev k x.fboot x.fopen
    (Config.gcmOpen key (byteField p.payload 0 8) p.aad (p.payload.drop 8)).map fun b => { p with payload := b }

/-- AUTHENTICATION_FAILURE (R353). -/
def authFail (k : Nat) (d : Dev) : Dev :=
  let p := (d.ctx k).part
  (d.incSat (Reg.PT_SECCNT_AUTHFAIL p) 1).err 13 { cls := 0x22, part := some p, extra := k }

/-- A packet leaves the stream layer's input. -/
def unqueue (p : Pkt) (d : Dev) : Dev := { d with arrived := d.arrived.erase p }

/-- A packet for a context that is not OPEN, or from another device, is discarded (R249). -/
def badCtx (d : Dev) : Dev := d.incSat Reg.RTE_DROPCNT_BADCTX 1

/-- The operation of a taken packet, for the fragment that it marks if it fails (R248). -/
def notePartial (k : Nat) (p : Pkt) (d : Dev) : Dev :=
  d.updCtx k fun x =>
    { x with partial_ := x.partial_ ++ [⟨p.seq, p.opend, decide (p.ptype = ptWRITE), p.frbase, p.frlog, p.deadline⟩] }

/-- B after the numbers in a set are received (R246), by fuel. -/
def advanceB : Nat → Nat → List Nat → Nat
  | 0, b, _ => b
  | n + 1, b, l => if l.contains b then advanceB n ((b + 1) % 2 ^ 32) l else b

/-- Whether number s lies below B (R246). -/
def below (b s : Nat) : Bool := decide (0 < seqDist s b ∧ seqDist s b ≤ 2 ^ 31)

/-- Marks number s received: its bit is set and B advances; finished operations are forgotten. -/
def markTaken (k s : Nat) (d : Dev) : Dev :=
  d.updCtx k fun x =>
    let l := s :: x.taken
    let b := advanceB 256 x.b l
    { x with b := b, taken := l.filter (fun t => !(below b t)), sinceAck := x.sinceAck + 1,
             partial_ := x.partial_.filter fun e => !(below b e.opend) }

/-- A fault at the receiver (R247): not applied, recorded, and reported in the next ACK. The spec gives the record no class (log 9). -/
def streamFault (k seq : Nat) (f : MFault) (addr : Nat) (d : Dev) : Dev :=
  let r := d.fresh
  (r.2.err 13 { cls := r.1, part := some (d.ctx k).part, addr := addr, extra := k }).updCtx k fun x => { x with err := some (seq, f.cause) }

/-- A far partition's write at a virtual address here (R238): at most one board-domain hop. -/
def applyWrite (k : Nat) (p : Pkt) (d : Dev) : Dev :=
  match d.vaWrite (d.ctx k).part none p.addr p.payload with
  | (.ok _, d) => d
  | (.error (.board _, a), d) => d.streamFault k p.seq .translation a
  | (.error (f, a), d) => d.streamFault k p.seq f a

/-- A READ applied and answered with RDATA under its own number (R239); `ue` says that a source sector is found uncorrectable. -/
def applyRead (k : Nat) (p : Pkt) (ue : Bool) (d : Dev) : Dev :=
  let n := byteField p.payload 0 8
  let part := (d.ctx k).part
  let d := match ue, d.resolveAll part none .read (pieces p.addr n) with
    | true, (.ok ((.hbm pa, _) :: _), d) => d.hbmUE (some part) 0 pa
    | _, _ => d
  match d.vaRead part none p.addr n with
  | (.ok b, d) => d.sendRaw k ptRDATA p.seq true b
  | (.error (f, _), d) => d.sendRaw k ptRDATA p.seq true (leBytes 8 (match f with | .board _ => cTRANSLATION | f => f.cause))

/-- POISON (R248): the named fragment, every sector that it touches. -/
def applyPoison (k : Nat) (p : Pkt) (d : Dev) : Dev :=
  d.vaPoison (d.ctx k).part none (byteField p.payload 0 8) (2 ^ (byteField p.payload 8 8 % 64))

/-- Applies a taken packet (R246): its effect at this device. An ENGINE message waits for its engine. -/
def applyPkt (k : Nat) (p : Pkt) (ue : Bool) (d : Dev) : Dev :=
  let part := (d.ctx k).part
  match p.ptype with
  | 1 => d.applyWrite k p
  | 2 => d.applyRead k p ue
  | 4 => d.flagPacket part p.payload
  | 5 => d.rcArrPacket part p.payload
  | 6 => d.rcRelPacket part p.payload
  | 7 => { d with msgs := d.msgs ++ [(k, p.payload)] }
  | 10 => d.applyPoison k p
  | _ => d

/-- Applies a flagged packet whose lower numbers have all been received, and acknowledges it at once (R246, R247). -/
def applyFlagged (k : Nat) (p : Pkt) (ue : Bool) (d : Dev) : Dev :=
  if d.pastDeadline p.deadline then d else ((d.applyPkt k p ue).sendAck k)

/-- A sequenced packet reaches the stream layer (R246 to R249): discarded, a duplicate, taken and applied, or taken and held. -/
def takePkt (p : Pkt) (ue : Bool) (d : Dev) : Dev :=
  let d := d.unqueue p
  let k := p.dctx
  let x := d.ctx k
  if x.st ≠ .opened ∨ p.sdev ≠ x.fdev then d.badCtx
  else
    match d.openPkt k p with
    | none => d.authFail k
    | some p =>
      let t := seqDist x.b p.seq
      if t < 256 ∧ ¬ x.taken.contains p.seq then
        if d.pastDeadline p.deadline then d
        else
          let d := (d.notePartial k p).markTaken k p.seq
          if ¬ p.flg then
            let d := d.applyPkt k p ue
            if 32 ≤ (d.ctx k).sinceAck then d.sendAck k else d
          else if below (d.ctx k).b p.seq ∧ (d.ctx k).held = [] then d.applyFlagged k p ue
          else d.updCtx k fun x => { x with held := x.held ++ [p] }
      else if t < 256 ∨ 2 ^ 31 ≤ t then
        (if p.ptype = ptREAD then
          -- a READ is executed again each time it arrives (R239), once it may be applied
          (if x.held.any (fun q => q.seq = p.seq) then d else (d.applyRead k p ue).sendAck k)
        else (d.updCtx k fun x => { x with dups := satAdd 24 x.dups 1 }).sendAck k)
      else d.updCtx k fun x => { x with outwin := satAdd 16 x.outwin 1 }

/-- Runs `f` on a packet of one type. -/
def onType (t : Nat) (p : Pkt) (f : Dev → Dev) (d : Dev) : Dev := if p.ptype = t then f d else d

/-- A packet whose host target takes no request stays with the stream layer (R458). -/
def pktHeld (d : Dev) (p : Pkt) : Bool := d.hostHeld (d.ctx p.dctx).part p.addr (max 1 p.payload.length)
def writePkt (p : Pkt) (d : Dev) : Dev := d.onType ptWRITE p fun d => if d.pktHeld p then d else d.takePkt p false
def readPkt (p : Pkt) (ue : Bool) (d : Dev) : Dev := d.onType ptREAD p fun d => if d.pktHeld p then d else d.takePkt p ue
def enginePkt (p : Pkt) (d : Dev) : Dev := d.onType ptENGINE p fun d => d.takePkt p false
def poisonPkt (p : Pkt) (d : Dev) : Dev := d.onType ptPOISON p fun d => d.takePkt p false
def rcArrPkt (p : Pkt) (d : Dev) : Dev := d.onType ptRCARR p fun d => d.takePkt p false
def rcRelPkt (p : Pkt) (d : Dev) : Dev := d.onType ptRCREL p fun d => d.takePkt p false
def flagPkt (p : Pkt) (d : Dev) : Dev := d.onType ptFLAG p fun d => d.takePkt p false

/-- FLAGGED_PACKET_APPLY (R246): the held packet of lowest number, once every lower number has been received. -/
def flaggedApply (k : Nat) (ue : Bool) (d : Dev) : Dev :=
  let x := d.ctx k
  if x.st ≠ .opened then d
  else
    match x.held.find? fun p => below x.b p.seq && x.held.all fun q => p.seq = q.seq || below q.seq p.seq with
    | none => d
    | some p =>
      if p.ptype = ptREAD ∧ d.pktHeld p then d
      else (d.updCtx k fun x => { x with held := x.held.erase p }).applyFlagged k p ue

/-- A board-domain access that ends in failure faults its instruction with FABRIC (R239). -/
def loadFail (c e : Nat) (d : Dev) : Dev :=
  if e = 0 then
    match (d.core c).loadWait with
    | some (_, a) => (d.updCore c fun x => { x with loadWait := none }).seqFault c (d.core c).stallWord 0 (fabricFault a)
    | none => d
  else
    match (d.eng c e).rwait with
    | some a => (d.updEng c e fun g => { g with rwait := none, got := [] }).engFault c e (fabricFault a)
    | none => d

/-- The data of a board-domain load arrive (R239). -/
def loadDone (c e : Nat) (b : List Byte) (d : Dev) : Dev :=
  if e = 0 then
    match (d.core c).loadWait with
    | some (rd, _) =>
      (d.updCore c fun x => { x.setSr rd (BitVec.ofNat 64 (leNat b)) with loadWait := none }).retire c 8
    | none => d
  else
    match (d.eng c e).rwait with
    | some a => d.updEng c e fun g => { g with rwait := none, got := (a, b) :: g.got }
    | none => d

/-- RDATA (R239): the first that matches its READ completes the load, or faults it. `code` says that the payload is an error code. -/
def rdataPkt (p : Pkt) (code : Bool) (d : Dev) : Dev :=
  d.onType ptRDATA p fun d =>
    let d := d.unqueue p
    let k := p.dctx
    let x := d.ctx k
    if x.st ≠ .opened ∨ p.sdev ≠ x.fdev then d.badCtx
    else
      match d.openPkt k p with
      | none => d.authFail k
      | some p =>
        if d.pastDeadline p.deadline then d
        else
          match x.ops.find? fun o => o.first = p.seq && (match o.owner with | .load _ _ => true | _ => false) with
          | some o =>
            let d := d.updCtx k fun x => { x with ops := x.ops.erase o }
            match o.owner with
            | .load c e => if code then d.loadFail c e else d.loadDone c e p.payload
            | _ => d
          | none => d

/-- An update, arrival or release that the stream cannot deliver (R159). -/
def undelivered (k : Nat) (d : Dev) : Dev :=
  let p := (d.ctx k).part
  d.err (48 + p) { cls := 0x31, part := some p, extra := k }

/-- Tells an operation's owner that the far device has all of it, or that it failed (R248). -/
def ownerTold (k : Nat) (o : SOp) (ok : Bool) (d : Dev) : Dev :=
  match o.owner with
  | .dma c u => d.dmaUnitAcked c u ok
  | .load c e => if ok then d else d.loadFail c e
  | .store c e => if ok then d.updEng c e fun g => { g with remote := g.remote.erase (k, o.last) } else d
  | .update _ _ => if ok then d else d.undelivered k
  | .roll => if ok then d else d.undelivered k
  | _ => d

/-- The POISON that a resynchronised context owes for its failed fragments (R248). -/
def sendOwed (k : Nat) (d : Dev) : Dev :=
  let x := d.ctx k
  if x.st ≠ .opened then d
  else
    (d.updCtx k fun x => { x with failedFrags := [] }) |> fun d =>
    x.failedFrags.foldl (fun d e => d.sendOp k ptPOISON true .none 0 0 0 [(0, leBytes 8 e.1 ++ leBytes 8 e.2)]) d

/-- A context opens once a SYNC has come and its own is acknowledged (Table RT-4). -/
def openNow (k : Nat) (d : Dev) : Dev :=
  let x := d.ctx k
  if x.st = .opening ∧ x.syncIn ∧ x.syncAck then (d.setCtx k { x with st := .opened }).sendOwed k else d

/-- ACK (R247): packets below B are acknowledged; operations that it covers are complete, the one it names has faulted. -/
def ackPkt (p : Pkt) (d : Dev) : Dev :=
  d.onType ptACK p fun d =>
    let d := d.unqueue p
    let k := p.dctx
    let x := d.ctx k
    if (x.st ≠ .opened ∧ x.st ≠ .opening) ∨ p.sdev ≠ x.fdev then d.badCtx
    else
      match d.openPkt k p with
      | none => d.authFail k
      | some p =>
        let b := byteField p.payload 0 4
        if x.st = .opening then
          let d := if b = x.n then d.updCtx k fun x => { x with syncAck := true } else d
          d.openNow k
        else if seqDist x.o b ≤ seqDist x.o x.n then
          let errSeq := byteField p.payload 4 4
          let code := byteField p.payload 8 8
          let done := x.ops.filter fun o => seqDist x.o o.last < seqDist x.o b
          let isLoad (o : SOp) : Bool := match o.owner with | .load _ _ => true | _ => false
          let d := d.updCtx k fun x =>
            { x with o := b, unacked := x.unacked.filter (fun q => !(decide (seqDist x.o q.seq < seqDist x.o b))),
                     ops := x.ops.filter fun o => !(done.contains o) || isLoad o }
          done.foldl (fun d o =>
            let bad := code ≠ 0 ∧ seqDist o.first errSeq ≤ seqDist o.first o.last
            -- a store whose write faulted at the receiver is acknowledged all the same (R152, R247)
            let isStore : Bool := match o.owner with | .store _ _ => true | _ => false
            if isLoad o then d else d.ownerTold k o (isStore || !(decide bad))) d
        else d

/-- SYNC (R249): the base for opening or resynchronising. -/
def syncPkt (p : Pkt) (d : Dev) : Dev :=
  d.onType ptSYNC p fun d =>
    let d := d.unqueue p
    let k := p.dctx
    let x := d.ctx k
    if x.st = .closed ∨ p.sdev ≠ x.fdev then d.badCtx
    else
      let base := byteField p.payload 0 8 % 2 ^ 32
      let far := byteField p.payload 8 8 % 2 ^ 32
      let fb := byteField p.payload 16 8
      let fo := byteField p.payload 24 8
      match x.st with
      | .opening =>
        let d := d.updCtx k fun x =>
          { x with b := base, taken := [], held := [], partial_ := [], syncBase := base, syncIn := true, confirmB := far,
                   fboot := fb, fopen := fo }
        let d := d.sendAck k
        d.openNow k
      | .failed => d.updCtx k fun x => { x with syncBase := base, syncIn := true, confirmB := far, fboot := fb, fopen := fo }
      | _ => d.sendAck k

/-- ACK_SEND (R247). -/
def ackSend (k : Nat) (d : Dev) : Dev := if (d.ctx k).st = .opened ∧ (d.ctx k).sinceAck ≠ 0 then d.sendAck k else d

/-- RETRANSMIT (R248): every unacknowledged packet goes again, its PATH one above its last, its deadline kept. -/
def retransmit (k : Nat) (d : Dev) : Dev :=
  let x := d.ctx k
  if x.st ≠ .opened then d
  else
    let l := x.unacked.map fun p => { p with path := min 3 (p.path + 1) }
    l.foldl (fun d p => d.injectPkt p) (d.setCtx k { x with unacked := l, retx := satAdd 24 x.retx l.length })

/-- A context fails (R248): the fragments of incomplete operations are poisoned here, and every operation not acknowledged fails. -/
def ctxFail (k : Nat) (d : Dev) : Dev :=
  let x := d.ctx k
  if x.st ≠ .opened then d
  else
    let d := (x.partial_.filter PartPkt.wr).foldl (fun d e => d.vaPoison x.part none e.frbase (2 ^ (e.frlog % 64))) d
    let frs := (x.ops.filter fun o => match o.owner with | .dma _ _ => true | _ => false).map fun o => (o.frbase, o.frlog)
    let d := d.setCtx k { x with st := .failed, taken := [], held := [], partial_ := [], unacked := [], ops := [], syncIn := false,
                                 syncAck := false, failedFrags := x.failedFrags ++ frs.eraseDups }
    let d := (d.incSat Reg.STM_DEVCNT_FAILS 1).incSat Reg.STM_DEVCNT_UNDELIV x.ops.length
    let d := d.err (48 + x.part) { cls := 0x30, part := some x.part, extra := k }
    x.ops.foldl (fun d o => d.ownerTold k o false) d

/-- Whether a context's deadline rules fail it now (R248): at the sender with ACKWAIT, at the receiver without. -/
def streamDue (d : Dev) (k : Nat) : Bool :=
  let x := d.ctx k
  x.unacked.any (fun p => d.pastDeadline ((p.deadline + d.rd Reg.STM_TIME_ACKWAIT) % 2 ^ 32))
    || x.held.any (fun p => d.pastDeadline p.deadline) || x.partial_.any (fun e => d.pastDeadline e.deadline)

/-- OPEN, CLOSE (Table RT-4). -/
def streamOpen (k : Nat) (d : Dev) : Dev :=
  let x := d.ctx k
  if x.st ≠ .closed then d
  else
    (d.setCtx k { Ctx.reset with st := .opening, fdev := x.fdev, fctx := x.fctx, part := x.part, gcm := x.gcm, opencnt := x.opencnt + 1,
                                 tctr := x.tctr, retx := x.retx, dups := x.dups, outwin := x.outwin }).sendSync k
/-- CLOSE_DONE (Table RT-4). -/
def closeDone (k : Nat) (d : Dev) : Dev :=
  let x := d.ctx k
  if x.closing ∧ ((x.st = .opened ∧ x.o = x.n) ∨ x.st = .failed) then
    d.setCtx k { x with st := .closed, closing := false, held := [], ops := [], unacked := [], partial_ := [] }
  else d
def streamClose (k : Nat) (d : Dev) : Dev :=
  if (d.ctx k).st = .opened then d.updCtx k fun x => { x with closing := true } else d

/-- RESYNC (Table RT-4): numbering goes on from N; a POISON is then sent for each failed fragment once the context opens. -/
def streamResync (k : Nat) (d : Dev) : Dev :=
  let x := d.ctx k
  if x.st ≠ .failed then d
  else
    let d := d.setCtx k { x with st := .opening, o := x.n, b := if x.syncIn then x.syncBase else x.b, opencnt := x.opencnt + 1 }
    let d := d.sendSync k
    if x.syncIn then d.sendAck k else d

/-- SYNC_SEND (R249). -/
def syncSend (k : Nat) (d : Dev) : Dev := if (d.ctx k).st = .opening then d.sendSync k else d

end Sys2Proof.Machine.Dev
end

