-- ==== Sys2Proof/Machine/Gauge.lean ====
section
/-!
DEFINITION. The gauge's controls (R118 to R120, R127) and the loss-scale controller (R121 to R126).
-/
namespace Sys2Proof.Machine.Dev

/-- CLRCNT, CLRH (R118, R127): the engines or units of a mask. -/
def clrCnt (c m : Nat) (d : Dev) : Dev :=
  [1, 2, 3].foldl (fun d n =>
    if bit m (n - 1) then ((d.wr (Reg.GAU_CNT_SAT c n) 0).wr (Reg.GAU_CNT_FLUSH c n) 0).wr (Reg.GAU_NAN_NAN c n) 0 else d) d
def clrH (c m : Nat) (d : Dev) : Dev :=
  (List.range 4).foldl (fun d k =>
    if bit m k then (List.range 130).foldl (fun d b => d.wr (histFld c k b) 0) d else d) d

/-- A signed 8-bit field. -/
def s8 (x : Nat) : Int := (BitVec.ofNat 8 x).toInt
def ofS8 (x : Int) : Nat := (BitVec.ofInt 8 x).toNat

/-- LSE clamped to [LSE_MIN, LSE_MAX] (R123, R124). -/
def lsClamp (d : Dev) (p : Nat) (x : Int) : Int := min (max x (s8 (d.rd (Reg.LS_CFG_LSE_MIN p)))) (s8 (d.rd (Reg.LS_CFG_LSE_MAX p)))

/-- LS_STAT as a word. -/
def lsStat (d : Dev) (p : Nat) : Nat :=
  d.rd (Reg.LS_STAT_LSE p) + 2 ^ 8 * d.rd (Reg.LS_STAT_CLEAN p) + 2 ^ 24 * d.rd (Reg.LS_STAT_OVF_LOCAL p)
    + 2 ^ 25 * d.rd (Reg.LS_STAT_OVF_PEND p) + 2 ^ 26 * d.rd (Reg.LS_STAT_CLOSING p) + 2 ^ 27 * d.rd (Reg.LS_STAT_INCOMPLETE p)
    + 2 ^ 28 * d.rd (Reg.LS_STAT_FLOOR p) + 2 ^ 29 * d.rd (Reg.LS_STAT_MIRRORERR p) + 2 ^ 32 * d.rd (Reg.LS_STAT_SEQ p)

/-- The mirror record (R125). -/
def lsMirror (p : Nat) (d : Dev) : Dev :=
  if ¬ d.flag (Reg.LS_MIRROR_EN p) then d
  else
    let e := s8 (d.rd (Reg.LS_STAT_LSE p))
    let f (x : Int) : List Byte := leBytes 4 ((x + 127).toNat * 2 ^ 23)
    let r := leBytes 8 (d.lsStat p) ++ f e ++ f (-e) ++ List.replicate 48 0
    match d.vaWrite p none (d.rd (Reg.LS_MIRROR_ADDR p) * 64) r with
    | (.ok _, d) => d
    | (.error _, d) => d.setF (Reg.LS_STAT_MIRRORERR p)

/-- LS_STAT.SEQ passes STEP with no firing (R439): an armed dump ends MISSED. -/
def dumpMiss (p old : Nat) (d : Dev) : Dev :=
  if (d.part p).dump.isSome ∧ old = d.rd (Reg.PD_DUMPCFG_STEP p) then
    ((d.updPart p fun x => { x with dump := none }).clrF (Reg.PD_DUMPSTAT_ARMED p)).setF (Reg.PD_DUMPSTAT_MISSED p)
  else d

/-- "Finish" of Table NF-4. -/
def lsFinish (p : Nat) (d : Dev) : Dev :=
  let d := (d.wr (Reg.LS_STAT_OVF_LOCAL p) (d.rd (Reg.LS_STAT_OVF_PEND p))).clrF (Reg.LS_STAT_OVF_PEND p)
  let d := (d.incWrap (Reg.LS_STAT_SEQ p) 1).dumpMiss p (d.rd (Reg.LS_STAT_SEQ p))
  (d.lsMirror p).irqEvent (3840 + 32 * p + 17)

/-- The move of LSE and CLEAN for an overflow flag (Table NF-4). -/
def lsMove (p : Nat) (ovf : Bool) (d : Dev) : Dev :=
  let e := s8 (d.rd (Reg.LS_STAT_LSE p))
  let clean := d.rd (Reg.LS_STAT_CLEAN p)
  if ovf then
    let lo := s8 (d.rd (Reg.LS_CFG_LSE_MIN p))
    let d := if e = lo then d.setF (Reg.LS_STAT_FLOOR p) else d
    (d.wr (Reg.LS_STAT_LSE p) (ofS8 (max (e - 1) lo))).wr (Reg.LS_STAT_CLEAN p) 0
  else if clean + 1 < d.rd (Reg.LS_CFG_N p) then d.wr (Reg.LS_STAT_CLEAN p) (clean + 1)
  else (d.wr (Reg.LS_STAT_LSE p) (ofS8 (min (e + 1) (s8 (d.rd (Reg.LS_CFG_LSE_MAX p)))))).wr (Reg.LS_STAT_CLEAN p) 0

/-- Whether an LS_CFG value is stored (R128): N from 1, LSE_MIN and LSE_MAX in range and in order. -/
def lsCfgOk (v : Nat) : Bool :=
  let n := bits v 15 0
  let lo := s8 (bits v 23 16)
  let hi := s8 (bits v 31 24)
  decide (n ≠ 0 ∧ -32 ≤ lo ∧ lo ≤ 48 ∧ -32 ≤ hi ∧ hi ≤ 48 ∧ lo ≤ hi)

/-- An LS_CFG write takes effect; EN going 0 to 1 loads LSE_INIT (R123). -/
def lsCfgApply (p v : Nat) (d : Dev) : Dev :=
  if ¬ lsCfgOk v then d
  else
    let was := d.flag (Reg.LS_CFG_EN p)
    let d := ((d.wr (Reg.LS_CFG_N p) (bits v 15 0)).wr (Reg.LS_CFG_LSE_MIN p) (bits v 23 16)).wr (Reg.LS_CFG_LSE_MAX p) (bits v 31 24)
    let d := (d.wr (Reg.LS_CFG_LSE_INIT p) (bits v 39 32)).wr (Reg.LS_CFG_EN p) (bits v 40 40)
    if was ∨ ¬ bit v 40 then d
    else
      let d := (d.wr (Reg.LS_STAT_LSE p) (ofS8 (d.lsClamp p (s8 (bits v 39 32))))).wr (Reg.LS_STAT_CLEAN p) 0
      (d.clrF (Reg.LS_STAT_OVF_LOCAL p)).clrF (Reg.LS_STAT_OVF_PEND p)

/-- EVAL in RUN (R123, R124): the flag is OVF_LOCAL, and the end leaves OVF_LOCAL 0. -/
def lsEval (p : Nat) (d : Dev) : Dev :=
  if ¬ d.flag (Reg.LS_CFG_EN p) then d else (d.lsMove p (d.flag (Reg.LS_STAT_OVF_LOCAL p))).lsFinish p

/-- An LS_CTL write takes effect: SETLSE, then SETOVF, then EVAL (R124). -/
def lsCtlApply (p v : Nat) (d : Dev) : Dev :=
  let d := if bit v 0 then
      (d.wr (Reg.LS_STAT_LSE p) (ofS8 (d.lsClamp p (s8 (bits v 15 8))))).wr (Reg.LS_STAT_CLEAN p) 0
    else d
  let d := if bit v 1 then d.ovfEvent p else d
  if bit v 2 then d.lsEval p else d

/-- A write of LS_CFG or LS_CTL: held while the controller is CLOSING (R124). -/
def lsWrite (p : Nat) (cfg : Bool) (v : Nat) (d : Dev) : Dev :=
  if d.flag (Reg.LS_STAT_CLOSING p) then d.updPart p fun x => { x with lsHeld := x.lsHeld ++ [(cfg, v)] }
  else if cfg then d.lsCfgApply p v
  else d.lsCtlApply p v

/-- The controller returns to RUN: held writes are applied in order (R124). -/
def lsRun (p : Nat) (d : Dev) : Dev :=
  let l := (d.part p).lsHeld
  let d := (d.clrF (Reg.LS_STAT_CLOSING p)).updPart p fun x => { x with lsHeld := [] }
  l.foldl (fun d w => d.lsWrite p w.1 w.2) d

/-- A closing result arrives: its overflow, or none for one marked incomplete (Table NF-4, R270). -/
def lsClosing (p : Nat) (ovf : Option Bool) (d : Dev) : Dev :=
  if ¬ d.flag (Reg.LS_STAT_CLOSING p) then d
  else
    match ovf with
    | some b => (((d.lsMove p b).clrF (Reg.LS_STAT_CLOSING p)).lsFinish p).lsRun p
    | none =>
      let d := d.setF (Reg.LS_STAT_INCOMPLETE p)
      let d := d.wr (Reg.LS_STAT_OVF_LOCAL p) (max (d.rd (Reg.LS_STAT_OVF_LOCAL p)) (d.rd (Reg.LS_STAT_OVF_PEND p)))
      (d.clrF (Reg.LS_STAT_OVF_PEND p)).lsRun p

/-- A contribution is taken (R258, Table NF-4): its overflow flag; the closing one moves the controller to CLOSING. -/
def lsTaken (p : Nat) (close : Bool) (d : Dev) : Bool × Dev :=
  (d.flag (Reg.LS_STAT_OVF_LOCAL p), if close ∧ d.flag (Reg.LS_CFG_EN p) then d.setF (Reg.LS_STAT_CLOSING p) else d)

/-- SETLSE, SETOVF, EVAL as single writes of LS_CTL. -/
def setLse (p v : Nat) (d : Dev) : Dev := d.lsWrite p false (1 + 2 ^ 8 * (v % 256))
def setOvf (p : Nat) (d : Dev) : Dev := d.lsWrite p false 2
def evalNow (p : Nat) (d : Dev) : Dev := d.lsWrite p false 4

/-- LS_ENABLE (R123): a write of LS_CFG with EN = 1. -/
def lsEnable (p n lo hi init : Nat) (d : Dev) : Dev :=
  d.lsWrite p true (n % 2 ^ 16 + 2 ^ 16 * (lo % 256) + 2 ^ 24 * (hi % 256) + 2 ^ 32 * (init % 256) + 2 ^ 40)

end Sys2Proof.Machine.Dev
end

