-- ==== Sys2Proof/Machine/JournalOps.lean ====
section
/-!
DEFINITION. The engines' completion updates, and the outcome that a failed collective or job gives its command (R326).
-/
namespace Sys2Proof.Machine.Dev

/-- Failed with 0x09 COLLECTIVE (Table AW-6). -/
def oCOLLECTIVE : Nat × Nat × Nat := (3, 0x09, 0)

/-- A completion update of a core of partition p, as a release (R152, R259): nothing where the partition has no such core. -/
def completionUpdate (p : Nat) (en : Bool) (core flag sop v : Nat) (d : Dev) : Dev :=
  if ¬ en then d
  else
    match d.deviceNo p core with
    | some c => d.flagUpdate c flag sop v
    | none => d

end Sys2Proof.Machine.Dev
end

