-- ==== Sys2Proof/Machine/Confluence.lean ====
section
/-!
DEFINITION. The confluence (R254 to R278): arming, AX64, the ring schedule, chunks, withheld members, endings, atomic reductions.
-/
namespace Sys2Proof.Machine

/-- Reads a collective descriptor (Table CF-1). -/
def cfDescOf (b : List Byte) : CfDesc :=
  let w := byteField b 0 8
  let c := byteField b 48 8
  { kind := bits w 3 0, arith := bits w 5 4, ifmt := bits w 10 6, ofmt := bits w 15 11, plan := bits w 18 16, rel := bit w 19,
    lsb := bit w 20, close := bit w 21, rearm := bit w 22, ret := bit w 23, anchor := bits w 31 24, aop := bits w 35 32,
    trig := bits w 37 36, tflag := bits w 45 38, tcore := bits w 53 46, arem := bit w 54, bid := byteField b 8 4,
    tval := byteField b 12 4, src := byteField b 16 8, dst := byteField b 24 8, count := byteField b 32 4, tinc := byteField b 36 4,
    staddr := byteField b 40 8, ccore := bits c 7 0, cflag := bits c 15 8, csop := bits c 17 16, cen := bit c 18,
    cval := bits c 63 32, astream := bits (byteField b 56 4) 16 0,
    rsv := bits w 63 55 ≠ 0 || bits c 31 19 ≠ 0 || bits (byteField b 56 4) 31 17 ≠ 0 || byteField b 60 4 ≠ 0 }

/-- Whether the collective sums in AX64 (R266). -/
def CfDesc.ax (c : CfDesc) : Bool := (c.kind = 1 || c.kind = 2) && c.arith = 0
/-- Bytes of a source element (R255). -/
def cfSize (f : Nat) : Nat := if f = 0x01 then 2 else if f = 0x1F then 8 else 4
/-- Bytes of an element in a chunk: 8 in AX64 form, 4 otherwise; an all-gather moves its elements unchanged. -/
def CfDesc.carried (c : CfDesc) : Nat := if c.ax || (c.kind = 3 && c.ifmt = 0x1F) then 8 else 4
/-- The target width of an atomic (Table CF-6). -/
def CfDesc.aw (c : CfDesc) : Nat := if c.aop = 0 then 4 else if c.aop = 1 then 8 else cfSize c.ifmt

/-- Whether the codes of a descriptor are listed and suit its KIND (R256, Table CF-6). -/
def CfDesc.codesOk (c : CfDesc) : Bool :=
  let inOk := c.ifmt = 0x00 || c.ifmt = 0x01 || c.ifmt = 0x13 || c.ifmt = 0x1F
  let outOk := c.ofmt = 0x00 || c.ofmt = 0x01 || c.ofmt = 0x1F
  inOk && c.trig ≤ 2 && c.csop ≤ 2 &&
  match c.kind with
  | 1 | 2 =>
    outOk && (if c.arith = 0 then c.ifmt ≠ 0x13 else if c.arith = 1 then (c.ifmt = 0x00 || c.ifmt = 0x01) && c.ofmt ≠ 0x1F else false)
      && !c.arem
  | 3 => outOk && c.arith = 0 && c.ofmt = c.ifmt && !c.arem
  | 4 =>
    c.arith = 0 && outOk && c.aop ≤ 0xC &&
      (match c.aop with
       | 0 => c.ifmt = 0x00 || c.ifmt = 0x01
       | 1 => c.ifmt ≠ 0x13
       | 2 => c.ifmt = 0x13
       | 3 => c.ifmt = 0x1F
       | _ => c.ifmt = 0x13 || c.ifmt = 0x1F)
      && (!c.ret || cfSize c.ifmt = c.aw)
  | _ => false

/-- Converts one source element to AX64 under anchor a (R261). -/
def axOf (a : Int) (v : Num) : BitVec 64 × CfCls :=
  match v with
  | .nan => (0, .nan)
  | .inf neg => (BitVec.ofInt 64 (if neg then -(2 ^ 43 - 1) else 2 ^ 43 - 1), .wovf)
  | .fin neg m e =>
    if m = 0 then (0, .plain)
    else if a ≤ magExp m e then (BitVec.ofInt 64 (if neg then -(2 ^ 43 - 1) else 2 ^ 43 - 1), .wovf)
    else
      let n := roundAt .rne m e (a - 43)
      (BitVec.ofInt 64 (if neg then -(n : Int) else n), if n = 0 then .flush else .plain)

/-- Converts a sum of AX64 to the result format (R263): the element's bytes and how the conversion is counted. -/
def axResult (a : Int) (ofmt : Nat) (n : BitVec 64) : List Byte × GCls :=
  if ofmt = 0x1F then (leBytes 8 n.toNat, .none)
  else
    let v := numOfInt n.toInt (a - 43) false
    let r := (if ofmt = 0x01 then layBF16 else layFP32).encode .rne false v
    (leBytes (cfSize ofmt) r.1, r.2)

/-- The header of a confluence message (Table CF-3). -/
def cfHeader (mtype : Nat) (c : CfChunk) : List Byte :=
  leBytes 1 mtype
    ++ leBytes 1 (c.level % 4 + 4 * (c.ph % 2) + 8 * b2n c.byp + 16 * b2n c.meta_.ovf + 32 * b2n c.meta_.mis + 64 * b2n c.close)
    ++ leBytes 1 c.ring ++ leBytes 1 c.a ++ leBytes 4 c.bid ++ leBytes 4 c.gen ++ leBytes 4 c.step ++ leBytes 4 (c.pos % 2 ^ 20)
    ++ leBytes 4 c.count ++ leBytes 4 (c.kind % 16 + 16 * (c.arith % 4)) ++ leBytes 4 c.meta_.wcount
    ++ leBytes 4 (c.meta_.wfirst % 2 ^ 20) ++ leBytes 4 c.meta_.flush ++ leBytes 4 c.meta_.wovf ++ leBytes 4 c.meta_.nan
    ++ leBytes 8 c.elem ++ leBytes 8 0

/-- A chunk's payload, its values w bytes each. -/
def cfPayload (w : Nat) (c : CfChunk) : List Byte := cfHeader 1 c ++ c.vals.flatMap fun v => leBytes w v.toNat

/-- Reads a message's header, with values of w bytes. -/
def cfParse (w : Nat) (b : List Byte) : CfChunk :=
  let f := byteField b 1 1
  let n := (b.length - 64) / w
  { level := bits f 1 0, ph := bits f 2 2, byp := bit f 3, close := bit f 6, ring := byteField b 2 1, a := byteField b 3 1,
    bid := byteField b 4 4, gen := byteField b 8 4, step := byteField b 12 4, pos := byteField b 16 4 % 2 ^ 20,
    count := byteField b 20 4, kind := bits (byteField b 24 4) 3 0, arith := bits (byteField b 24 4) 5 4, elem := byteField b 48 8,
    meta_ := { ovf := bit f 4, mis := bit f 5, flush := byteField b 36 4, wovf := byteField b 40 4, nan := byteField b 44 4,
               wcount := byteField b 28 4, wfirst := byteField b 32 4 % 2 ^ 20 },
    vals := (List.range n).map fun i => BitVec.ofNat 64 (byteField b (64 + w * i) w) }

/-- Combines metadata (R268): flags by OR, counts by saturating addition; the first member withheld is kept. -/
def CfMeta.add (x y : CfMeta) : CfMeta :=
  { ovf := x.ovf || y.ovf, mis := x.mis || y.mis, flush := satAdd 32 x.flush y.flush, wovf := satAdd 32 x.wovf y.wovf,
    nan := satAdd 32 x.nan y.nan, wcount := x.wcount + y.wcount, wfirst := if x.wcount = 0 then y.wfirst else x.wfirst }

/-- The part of a list of element ranges that list indices [lo, lo + n) name. -/
def sliceRanges : List (Nat × Nat) → Nat → Nat → List (Nat × Nat)
  | [], _, _ => []
  | (s, l) :: r, lo, n =>
    if n = 0 then []
    else if l ≤ lo then sliceRanges r (lo - l) n
    else
      let k := min (l - lo) n
      (s + lo, k) :: sliceRanges r 0 (n - k)

/-- The elements that ranges name, in order. -/
def rangeElems (l : List (Nat × Nat)) : List Nat := l.flatMap fun x => (List.range x.2).map fun i => x.1 + i
def rangeLen (l : List (Nat × Nat)) : Nat := (l.map Prod.snd).sum

/-- The block size Q of a list of E elements over R rings and N members (R265). -/
def blockQ (e r n : Nat) : Nat := 64 * ((e + 64 * r * n - 1) / (64 * r * n))

namespace Dev

def cfSlot (d : Dev) (s : Nat) : CfSlot := tabGet CfSlot.reset s d.cfs
def setCf (s : Nat) (x : CfSlot) (d : Dev) : Dev := { d with cfs := tabPut CfSlot.reset s x d.cfs }
def updCf (s : Nat) (f : CfSlot → CfSlot) (d : Dev) : Dev := d.setCf s (f (d.cfSlot s))
def cfSt (d : Dev) (s : Nat) : Nat := d.rd (Reg.CF_SLOT_STATE (s / 32) (s % 32))
def cfPart (d : Dev) (s : Nat) : Nat := d.rd (Reg.CF_SLOT_PART (s / 32) (s % 32))
def cfGen (d : Dev) (s : Nat) : Nat := d.rd (Reg.CF_SLOT_GEN (s / 32) (s % 32))
def cfSetSt (s st : Nat) (d : Dev) : Dev := d.wr (Reg.CF_SLOT_STATE (s / 32) (s % 32)) st

/-- The plan of a slot: levels, and at a level its members, rings and this device's position. -/
def cfLevels (d : Dev) (e k : Nat) : Nat := d.rd (Reg.CF_PLANCFG_NLEV e k) + 1
def cfN (d : Dev) (e k l : Nat) : Nat := max 1 (d.rd (Reg.CF_LVL_N e k l))
def cfR (d : Dev) (e k l : Nat) : Nat := max 1 (min 16 (d.rd (Reg.CF_LVL_NRING e k l)))
def cfPos (d : Dev) (e k l r : Nat) : Nat := d.rd (Reg.CF_RINGB_POS e k l r)

/-- The block of a piece on a ring, within a list of ranges (R265). -/
def cfBlock (d : Dev) (e k l : Nat) (list : List (Nat × Nat)) (r piece : Nat) : List (Nat × Nat) :=
  let q := blockQ (rangeLen list) (d.cfR e k l) (d.cfN e k l)
  sliceRanges list ((piece * d.cfR e k l + r) * q) q

/-- The list of each level (R265): the first is every element, a later one the blocks that this member finished below, ascending. -/
def cfList (d : Dev) (e k count : Nat) : Nat → List (Nat × Nat)
  | 0 => [(0, count)]
  | l + 1 =>
    let list := cfList d e k count l
    let n := d.cfN e k l
    let blocks := (List.range (d.cfR e k l)).map fun r => ((d.cfPos e k l r + 1) % n * d.cfR e k l + r, r)
    let asc := blocks.mergeSort fun a b => a.1 ≤ b.1
    asc.flatMap fun b => d.cfBlock e k l list b.2 (b.1 / d.cfR e k l)

/-- The product of N over the levels below l: the contributions that one member of level l carries (R274). -/
def cfBelow (d : Dev) (e k l : Nat) : Nat := ((List.range l).map fun i => d.cfN e k i).foldl (· * ·) 1

/-- Whether an arming is accepted (R256). -/
def cfArmOk (d : Dev) (p s : Nat) (c : CfDesc) : Bool :=
  let e := s / 32
  let i := s % 32
  s < 64 && d.flag (Reg.CF_SLOT_V e i) && d.rd (Reg.CF_SLOT_PART e i) = p && d.cfSt s = 0
    && d.flag (Reg.CF_PLANCFG_V e c.plan) && d.rd (Reg.CF_PLANCFG_PART e c.plan) = p
    && c.codesOk && decide (c.count ≠ 0) && c.src % 64 = 0 && c.dst % 64 = 0 && c.staddr % 64 = 0
    && c.src < 2 ^ 48 && c.dst < 2 ^ 48 && c.staddr < 2 ^ 48
    && !c.rsv && (!c.close || c.lsb) && (!c.ax || decide (d.cfBelow e c.plan (d.cfLevels e c.plan) ≤ 2 ^ 20))

/-- The longest hop wait is that of one generation (CF_SLOTWAIT). -/
def cfNoWait (s : Nat) (d : Dev) : Dev :=
  (d.wr (Reg.CF_SLOTWAIT_WAITMAX (s / 32) (s % 32)) 0).wr (Reg.CF_SLOTWAIT_WAITPOS (s / 32) (s % 32)) 0

/-- COLLECTIVE_ARM (R255, Table CF-2). -/
def cfArm (s : Nat) (c : CfDesc) (cmd : Option Nat) (d : Dev) : Dev :=
  ((d.setCf s { CfSlot.reset with desc := some c, cmd := cmd }).cfSetSt s 1).wr (Reg.CF_SLOT_GEN (s / 32) (s % 32)) 0
    |>.wr (Reg.CF_SLOTBID_BID (s / 32) (s % 32)) c.bid |>.cfNoWait s

/-- The value that a source element has on the ring, with its class (R261, R266): bf16 is widened exactly. -/
def cfValue (c : CfDesc) (a : Int) (x : Nat) : BitVec 64 × CfCls :=
  if c.ax then
    (if c.ifmt = 0x1F then (BitVec.ofNat 64 x, .plain)
     else axOf a ((if c.ifmt = 0x01 then layBF16 else layFP32).decode x))
  else if c.kind = 3 then (BitVec.ofNat 64 x, .plain)
  else if c.ifmt = 0x01 then (BitVec.ofNat 64 (x * 2 ^ 16), .plain)
  else (BitVec.ofNat 64 x, .plain)

/-- Reads one 64-byte line of the source: its elements, or that they are poisoned, or none for a fault. -/
def cfLine (p va n : Nat) (d : Dev) : Option (Option (List Byte)) × Dev :=
  match d.vaRead p none va n with
  | (.ok b, d) => (some (some b), d)
  | (.error (.poison, _), d) => (some none, d)
  | (.error _, d) => (none, d)

/-- Takes the contribution of the elements in a list of ranges (R258, R276), 32-byte sector by sector; none where an access faults. -/
def cfTake (s : Nat) (c : CfDesc) (a : Int) : List Nat → Dev → Bool × Dev
  | [], d => (true, d)
  | i :: r, d =>
    let w := cfSize c.ifmt
    match d.cfLine (d.cfPart s) (c.src + i * w) w with
    | (none, d) => (false, d)
    | (some none, d) => cfTake s c a r (d.updCf s fun x => { x with cls := tabPut .plain i .poison x.cls })
    | (some (some b), d) =>
      let v := cfValue c a (leNat b)
      let e := s / 32
      let d := match v.2 with
        | .flush => d.incSat (Reg.CF_NUMCNT_FLUSH e) 1
        | .wovf => d.incSat (Reg.CF_NUMCNT_WOVF e) 1
        | .nan => d.incSat (Reg.CF_NUMCNT_WOVF e) 1
        | _ => d
      cfTake s c a r (d.updCf s fun x => { x with vals := tabPut 0 i v.1 x.vals, cls := tabPut .plain i v.2 x.cls })

/-- This member's own metadata for a set of elements at the first level (R261, R268, R276). -/
def cfOwnMeta (d : Dev) (s : Nat) (els : List Nat) : CfMeta :=
  let x := d.cfSlot s
  let cnt (k : CfCls) : Nat := (els.filter fun i => tabGet .plain i x.cls = k).length
  let w := cnt .wovf + cnt .nan
  let bad := 0 < cnt .poison
  { ovf := x.ovf || decide (0 < w), mis := false, flush := cnt .flush, wovf := w, nan := cnt .nan, wcount := b2n bad,
    wfirst := if bad then d.myDev else 0 }

end Dev
end Sys2Proof.Machine
end

