-- ==== Sys2Proof/Machine/Collective.lean ====
section
/-!
DEFINITION. A running collective (R257 to R278): the ring schedule's sends and arrivals, bypassing a withheld member, endings, the
trigger and the messages.
-/
namespace Sys2Proof.Machine

/-- Metadata of several chunks over different elements, together: flags by OR, counts by addition, the largest WCOUNT (R269). -/
def CfMeta.join (x y : CfMeta) : CfMeta :=
  { ovf := x.ovf || y.ovf, mis := x.mis || y.mis, flush := satAdd 32 x.flush y.flush, wovf := satAdd 32 x.wovf y.wovf,
    nan := satAdd 32 x.nan y.nan, wcount := max x.wcount y.wcount, wfirst := if x.wcount < y.wcount then y.wfirst else x.wfirst }

/-- Metadata without its counts. -/
def CfMeta.flags (x : CfMeta) : CfMeta := { x with flush := 0, wovf := 0, nan := 0 }

/-- What finished chunks of a half and level say of a set of elements: each chunk's counts go with its first element. -/
def finMeta (l : List CfFin) (ph level : Nat) (els : List Nat) : CfMeta :=
  (l.filter fun f => f.ph = ph && f.level = level).foldl (fun m f =>
    let fe := rangeElems f.ranges
    if (fe.head?.map els.contains).getD false then m.join f.meta_
    else if fe.any els.contains then m.join f.meta_.flags
    else m) CfMeta.zero

namespace Dev

/-- A chunk of a slot with its label's fixed fields. -/
def cfLabel (d : Dev) (s l ph r step pos elem : Nat) (m : CfMeta) (vals : List (BitVec 64)) : CfChunk :=
  match (d.cfSlot s).desc with
  | none => ⟨l, ph, false, false, r, 0, 0, 0, step, pos, 0, 0, 0, elem, m, vals⟩
  | some c =>
    { level := l, ph := ph, byp := false, close := c.close, ring := r, a := (BitVec.ofInt 8 (d.cfSlot s).a).toNat, bid := c.bid,
      gen := d.cfGen s, step := step, pos := pos, count := c.count, kind := c.kind, arith := c.arith, elem := elem, meta_ := m,
      vals := vals }

/-- Sends a message without values on a context. -/
def cfSendMsg (s k mtype : Nat) (owner : OpOwner) (c : CfChunk) (d : Dev) : Dev :=
  if d.ctxOpen k (d.cfPart s) ∧ d.winFits k 1 then d.sendOp k ptENGINE false owner 0 0 0 [(0, cfHeader mtype c)] else d

/-- The open context that leads to a device for a partition. -/
def ctxTo (d : Dev) (p dev : Nat) : Option Nat :=
  (d.ctxs.find? fun e => e.2.st = .opened && !e.2.closing && e.2.part = p && e.2.fdev = dev).map Prod.fst

/-- Hands a chunk to its ring's stream (R258, R274): on NEXT once READY has come from the successor, on BYP when it is a bypass. -/
def cfPost (s : Nat) (c : CfChunk) (d : Dev) : Dev :=
  let x := d.cfSlot s
  match x.desc with
  | none => d
  | some ds =>
    let e := s / 32
    let k := if c.byp then d.rd (Reg.CF_RINGA_BYP e ds.plan c.level c.ring) else d.rd (Reg.CF_RINGA_NEXT e ds.plan c.level c.ring)
    if ¬ (d.ctxOpen k (d.cfPart s)) then
      (if c.byp then d.setCf s { x with broken := true }
       else d.setCf s { x with lost := (c.level, c.ring) :: x.lost, sent := x.sent ++ [c] })
    else if (¬ c.byp ∧ ¬ x.ready.contains (c.level, c.ring)) ∨ ¬ (d.winFits k 1) then d.setCf s { x with waiting := x.waiting ++ [c] }
    else
      (d.setCf s { x with sent := if c.byp then x.sent else x.sent ++ [c] }).sendOp k ptENGINE false (.cf s c.ring) 0 0 0
        [(0, cfPayload ds.carried c)]

/-- The chunks of a withheld member that follow from one of its predecessor's own (R274). -/
def cfBypass (d : Dev) (s : Nat) (c : CfChunk) : List CfChunk :=
  match (d.cfSlot s).desc with
  | none => []
  | some ds =>
    let e := s / 32
    let n := d.cfN e ds.plan c.level
    let m := (d.cfPos e ds.plan c.level c.ring + 1) % n
    let fdev := (d.ctx (d.rd (Reg.CF_RINGA_NEXT e ds.plan c.level c.ring))).fdev
    let w := { c.meta_ with wcount := c.meta_.wcount + d.cfBelow e ds.plan c.level,
                            wfirst := if c.meta_.wcount = 0 then fdev else c.meta_.wfirst }
    if c.ph = 0 then
      (if c.step + 2 < n then [{ c with byp := true, pos := m, step := c.step + 1, meta_ := w }]
       else [{ c with byp := true, ph := 1, pos := m, step := 0, meta_ := w }])
    else if c.step + 2 < n then [{ c with byp := true, pos := m, step := c.step + 1 }]
    else []

/-- Sends a chunk on its ring, or what it becomes where the successor is withheld. -/
def cfSend (s : Nat) (c : CfChunk) (d : Dev) : Dev :=
  if (d.cfSlot s).byp.contains (c.level, c.ring) then
    (d.cfBypass s c).foldl (fun d b => d.cfPost s b) (d.updCf s fun x => { x with sent := x.sent ++ [c] })
  else d.cfPost s c

/-- The most values a chunk carries on a ring (R268, R354). -/
def cfCap (d : Dev) (s l r : Nat) : Nat :=
  match (d.cfSlot s).desc with
  | none => 1
  | some c =>
    let g := (d.ctx (d.rd (Reg.CF_RINGA_NEXT (s / 32) c.plan l r))).gcm
    (if g then 4008 else 4032) / c.carried

/-- Sends a piece in chunks, with what `m` says of each chunk's elements; `zero` sends no values of this member's. -/
def cfSendPiece (s l ph r step pos piece : Nat) (byp : Bool) (m : List Nat → CfMeta) (zero : Bool) (d : Dev) : Dev :=
  match (d.cfSlot s).desc with
  | none => d
  | some c =>
    let e := s / 32
    let list := d.cfList e c.plan c.count l
    let q := blockQ (rangeLen list) (d.cfR e c.plan l) (d.cfN e c.plan l)
    let lo := (piece * d.cfR e c.plan l + r) * q
    let blk := d.cfBlock e c.plan l list r piece
    let cap := d.cfCap s l r
    (List.range ((rangeLen blk + cap - 1) / cap)).foldl (fun d i =>
      let els := rangeElems (sliceRanges blk (i * cap) cap)
      let vs := els.map fun j => if zero then 0 else tabGet 0 j (d.cfSlot s).vals
      let ch := { d.cfLabel s l ph r step pos (lo + i * cap) (m els) vs with byp := byp }
      if byp then d.cfPost s ch else d.cfSend s ch) d

/-- The whole of a piece is finished here: its chunks' ranges with their metadata. -/
def cfFinish (s l ph r piece : Nat) (m : List Nat → CfMeta) (d : Dev) : Dev :=
  match (d.cfSlot s).desc with
  | none => d
  | some c =>
    let e := s / 32
    let blk := d.cfBlock e c.plan l (d.cfList e c.plan c.count l) r piece
    let cap := d.cfCap s l r
    (List.range ((rangeLen blk + cap - 1) / cap)).foldl (fun d i =>
      let rg := sliceRanges blk (i * cap) cap
      d.updCf s fun x => { x with fin := x.fin ++ [⟨ph, l, rg, m (rangeElems rg)⟩] }) d

/-- What this member says of elements as it begins a half of a level. -/
def cfStart (d : Dev) (s l ph : Nat) (els : List Nat) : CfMeta :=
  match (d.cfSlot s).desc with
  | none => CfMeta.zero
  | some c =>
    let x := d.cfSlot s
    let last := d.cfLevels (s / 32) c.plan - 1
    if ph = 0 then (if l = 0 then d.cfOwnMeta s els else finMeta x.fin 0 (l - 1) els)
    else if l < last then finMeta x.fin 1 (l + 1) els
    else if c.kind = 3 then d.cfOwnMeta s els
    else finMeta x.fin 0 last els

/-- The device at the position before this one, on a ring: READY goes to it (R258). -/
def cfReady (s l : Nat) (d : Dev) : Dev :=
  match (d.cfSlot s).desc with
  | none => d
  | some c =>
    let e := s / 32
    (List.range (d.cfR e c.plan l)).foldl (fun d r =>
      if d.cfN e c.plan l < 2 then d
      else
        match d.ctxTo (d.cfPart s) (d.rd (Reg.CF_RINGB_PREV e c.plan l r)) with
        | some k => d.cfSendMsg s k 2 (.cf s r) (d.cfLabel s l 0 r 0 (d.cfPos e c.plan l r) 0 CfMeta.zero [])
        | none => d) d

/-- Begins a half of a level (R258, R265). -/
def cfBegin (s l ph : Nat) (ready : Bool) (d : Dev) : Dev :=
  match (d.cfSlot s).desc with
  | none => d
  | some c =>
    let e := s / 32
    let d := if ready then d.cfReady s l else d
    let d := d.updCf s fun x => { x with level := l, ph := ph }
    let n := d.cfN e c.plan l
    (List.range (d.cfR e c.plan l)).foldl (fun d r =>
      let i := d.cfPos e c.plan l r
      let m := d.cfStart s l ph
      if ph = 0 then
        (if n < 2 then d.cfFinish s l 0 r 0 m else d.cfSendPiece s l 0 r 0 i i false m false)
      else
        let d := d.cfFinish s l 1 r ((i + 1) % n) m
        if n < 2 then d else d.cfSendPiece s l 1 r 0 i ((i + 1) % n) false m false) d

/-- The elements still to come on each ring, set as the collective begins. -/
def cfCounts (s : Nat) (d : Dev) : Dev :=
  match (d.cfSlot s).desc with
  | none => d
  | some c =>
    let e := s / 32
    (List.range (d.cfLevels e c.plan)).foldl (fun d l =>
      let list := d.cfList e c.plan c.count l
      let n := d.cfN e c.plan l
      (List.range (d.cfR e c.plan l)).foldl (fun d r =>
        let own := (d.cfPos e c.plan l r + 1) % n
        let len (p : Nat) : Nat := rangeLen (d.cfBlock e c.plan l list r p)
        let others := (((List.range n).filter fun p => p ≠ own).map len).sum
        d.updCf s fun x => { x with rsLeft := tabPut 0 (l * 16 + r) (if n < 2 then 0 else len own) x.rsLeft,
                                    agLeft := tabPut 0 (l * 16 + r) others x.agLeft }) d) d

/-- The poison left by an ending that is not complete (R276): any part of what was finished may already have been written. -/
def cfPoisonDst (s : Nat) (d : Dev) : Dev :=
  match (d.cfSlot s).desc with
  | none => d
  | some c =>
    let w := cfSize c.ofmt
    if c.kind = 4 then d
    else
      ((d.cfSlot s).fin.flatMap fun f => f.ranges).foldl (fun d r =>
        let z := d.fresh
        if z.1 % 2 = 0 then z.2 else z.2.vaPoison (d.cfPart s) none (c.dst + r.1 * w) (r.2 * w)) d

/-- The result bytes of an element, with how its conversion is counted (R263, R266). -/
def cfResult (d : Dev) (s : Nat) (c : CfDesc) (i : Nat) : List Byte × GCls :=
  let v := tabGet 0 i (d.cfSlot s).vals
  if c.ax then axResult (d.cfSlot s).a c.ofmt v
  else if c.kind = 3 then (leBytes (cfSize c.ofmt) v.toNat, .none)
  else if c.ofmt = 0x01 then (leBytes 2 (layBF16.encode .rne false (layFP32.decode (v.toNat % 2 ^ 32))).1, .none)
  else (leBytes 4 v.toNat, .none)

/-- Writes DST (R259, R265): every element, or for a reduce-scatter the finished ones at their own offsets. The counts of R263, and
whether every write was performed. -/
def cfWriteDst (s : Nat) (d : Dev) : Bool × Nat × Nat × Dev :=
  match (d.cfSlot s).desc with
  | none => (true, 0, 0, d)
  | some c =>
    let w := cfSize c.ofmt
    let rs := if c.kind = 2 then d.cfList (s / 32) c.plan c.count (d.cfLevels (s / 32) c.plan) else [(0, c.count)]
    if c.kind = 4 then (true, 0, 0, d)
    else
      rs.foldl (fun (a : Bool × Nat × Nat × Dev) r =>
        let d := a.2.2.2
        let l := (List.range r.2).map fun i => d.cfResult s c (r.1 + i)
        let k (g : GCls) : Nat := (l.filter fun x => x.2 = g).length
        match d.vaWrite (d.cfPart s) none (c.dst + r.1 * w) (l.flatMap Prod.fst) with
        | (.ok _, d) => (a.1, satAdd 32 a.2.1 (k .sat), satAdd 32 a.2.2.1 (k .flush), d)
        | (.error _, d) => (false, a.2.1, a.2.2.1, d)) (true, 0, 0, d)

/-- Status codes (Table CF-4). -/
def csCOMPLETE : Nat := 0
def csINCOMPLETE : Nat := 1
def csEXCLUDED : Nat := 2
def csMISMATCH : Nat := 3
def csTIMEOUT : Nat := 4
def csFAILED : Nat := 5
def csABORTED : Nat := 6
def csSTALE : Nat := 7

/-- The totals of what was finished (R269). -/
def cfTotals (d : Dev) (s : Nat) : CfMeta :=
  let x := d.cfSlot s
  match x.desc with
  | none => CfMeta.zero
  | some c =>
    let f := if c.kind = 2 then (0, d.cfLevels (s / 32) c.plan - 1) else (1, 0)
    if c.kind = 4 then d.cfOwnMeta s (List.range c.count)
    else (x.fin.filter fun y => y.ph = f.1 && y.level = f.2).foldl (fun m y => m.join y.meta_) CfMeta.zero

/-- The status record (Table CF-4). -/
def cfStatus (d : Dev) (s st csat cflush : Nat) : List Byte :=
  let x := d.cfSlot s
  match x.desc with
  | none => []
  | some c =>
    let t := d.cfTotals s
    leBytes 4 c.bid ++ leBytes 4 (d.cfGen s) ++ leBytes 1 st
      ++ leBytes 1 (b2n t.ovf + 2 * b2n c.close + 4 * b2n x.bypassed) ++ leBytes 1 (BitVec.ofInt 8 x.a).toNat ++ leBytes 1 0
      ++ leBytes 4 t.wcount ++ leBytes 4 t.wfirst ++ leBytes 4 t.flush ++ leBytes 4 t.wovf ++ leBytes 4 t.nan
      ++ leBytes 4 csat ++ leBytes 4 cflush ++ leBytes 8 d.now ++ leBytes 16 0

/-- The rest of an ending (R259, R270, R276, Table CF-2): the status record, the loss-scale controller, the completion update, the
interrupt, the counts, and the slot's next state. -/
def cfClose (s st csat cflush : Nat) (d : Dev) : Dev :=
  let x := d.cfSlot s
  match x.desc with
  | none => d
  | some c =>
    let e := s / 32
    let p := d.cfPart s
    let gen := d.cfGen s
    let t := d.cfTotals s
    let d := if d.isQuiet p then d else (d.vaWrite p none c.staddr (d.cfStatus s st csat cflush)).2
    let d :=
      if ¬ c.lsb then d
      else if c.close then d.lsClosing p (if st = csCOMPLETE then some t.ovf else none)
      else if st = csCOMPLETE ∧ t.ovf then d.ovfEvent p
      else d
    let d := if d.isQuiet p then d else d.completionUpdate p c.cen c.ccore c.cflag c.csop c.cval
    let d := (d.wr (Reg.CF_SLOTBID_STATUS e (s % 32)) st)
    let d := if st ≤ 1 then d.incWrap (Reg.CF_CNT_DONE e) 1 else d.incSat (Reg.CF_CNT_FAILS e) 1
    let mine := ((e, c.bid, gen) :: (d.cfEnds.filter fun (y : Nat × Nat × Nat) => decide (y.1 = e))).take 64
    let d := { d with cfEnds := mine ++ (d.cfEnds.filter fun (y : Nat × Nat × Nat) => decide (y.1 ≠ e)) }
    -- the command that armed it: its part, and what the ending decides (R326, R327)
    let d :=
      if gen ≠ 0 then d
      else
        let d := if st = csINCOMPLETE then d.jrWithheld x.cmd else if 2 ≤ st ∧ st ≠ csABORTED then d.jrOutcome x.cmd oCOLLECTIVE else d
        d.jrPartEnd x.cmd (partSlot s)
    let again := st ≤ 1 ∧ c.rearm
    let d :=
      if again then (((d.setCf s { CfSlot.reset with desc := some c }).cfNoWait s).cfSetSt s 1).wr (Reg.CF_SLOT_GEN e (s % 32)) (gen + 1)
      else (d.setCf s CfSlot.reset).cfSetSt s 0
    d.irqEvent (1152 + s)

/-- An ending other than COMPLETE or INCOMPLETE (R276). -/
def cfFail (s st : Nat) (d : Dev) : Dev := if d.cfSt s = 0 then d else (d.cfPoisonDst s).cfClose s st 0 0

/-- Every piece is finished (R259): COMPLETE, INCOMPLETE, MISMATCH for a collective whose headers disagreed, or FAILED where DST
cannot be written. -/
def cfDone (s : Nat) (d : Dev) : Dev :=
  let t := d.cfTotals s
  if t.mis then d.cfFail s csMISMATCH
  else
    let r := d.cfWriteDst s
    if ¬ r.1 then r.2.2.2.cfFail s csFAILED
    else r.2.2.2.cfClose s (if t.wcount = 0 then csCOMPLETE else csINCOMPLETE) r.2.1 r.2.2.1

/-- Sends BROKEN downstream on this member's rings (R275). -/
def cfBroken (s : Nat) (d : Dev) : Dev :=
  match (d.cfSlot s).desc with
  | none => d
  | some c =>
    let e := s / 32
    (List.range (d.cfLevels e c.plan)).foldl (fun d l =>
      (List.range (d.cfR e c.plan l)).foldl (fun d r =>
        d.cfSendMsg s (d.rd (Reg.CF_RINGA_NEXT e c.plan l r)) 4 (.cf s r)
          (d.cfLabel s l 0 r 0 (d.cfPos e c.plan l r) 0 CfMeta.zero [])) d) d

/-- Sends WITHHELD about this member to its predecessor on every ring of every level (R273). -/
def cfWithhold (s : Nat) (d : Dev) : Dev :=
  match (d.cfSlot s).desc with
  | none => d
  | some c =>
    let e := s / 32
    (List.range (d.cfLevels e c.plan)).foldl (fun d l =>
      (List.range (d.cfR e c.plan l)).foldl (fun d r =>
        match d.ctxTo (d.cfPart s) (d.rd (Reg.CF_RINGB_PREV e c.plan l r)) with
        | some k => d.cfSendMsg s k 3 (.withheld s) (d.cfLabel s l 0 r 0 (d.cfPos e c.plan l r) 0 CfMeta.zero [])
        | none => d) d) d

/-- A member declares its successor on a ring withheld (R273, R274): it tells it, and sends on BYP what it would have sent. -/
def cfDeclare (s l r : Nat) (d : Dev) : Dev :=
  let x := d.cfSlot s
  match x.desc with
  | none => d
  | some c =>
    let e := s / 32
    let n := d.cfN e c.plan l
    if x.byp.contains (l, r) ∨ n < 2 ∨ c.kind = 4 then d
    else
      let k := d.rd (Reg.CF_RINGA_NEXT e c.plan l r)
      let m := (d.cfPos e c.plan l r + 1) % n
      let mine := (x.sent ++ x.waiting.filter fun w => !w.byp).filter fun w => w.level = l && w.ring = r
      let d := d.incSat (Reg.CF_CNT_BYPASS e) 1
      let d := d.setCf s { x with byp := (l, r) :: x.byp, bypassed := true, lost := x.lost.filter fun y => y ≠ (l, r),
                                  waiting := x.waiting.filter fun w => w.byp || !(w.level = l && w.ring = r),
                                  sent := x.sent ++ x.waiting.filter fun w => !w.byp && w.level = l && w.ring = r }
      let d := d.cfSendMsg s k 3 (.cf s r) (d.cfLabel s l 0 r 0 m 0 CfMeta.zero [])
      -- the first chunk that the withheld member would have sent carries none of its contribution
      let w : CfMeta := { CfMeta.zero with wcount := d.cfBelow e c.plan l, wfirst := (d.ctx k).fdev }
      let d := if c.kind = 3 then d else d.cfSendPiece s l 0 r 0 m m true (fun _ => w) true
      mine.foldl (fun d b => (d.cfBypass s b).foldl (fun d b => d.cfPost s b) d) d

/-- Goes on with what the last arrivals allow: a lost successor is declared withheld, a bypass that cannot be made ends FAILED, and
the next half or level begins (R265). -/
def cfSettle : Nat → Nat → Dev → Dev
  | 0, _, d => d
  | n + 1, s, d =>
    let x := d.cfSlot s
    match x.desc with
    | none => d
    | some c =>
      if d.cfSt s ≠ 2 ∨ c.kind = 4 then d
      else if x.broken then (d.cfBroken s).cfFail s csFAILED
      else
        match x.lost with
        | (l, r) :: _ => cfSettle n s ((d.cfDeclare s l r).updCf s fun y => { y with lost := y.lost.filter fun z => z ≠ (l, r) })
        | [] =>
          let e := s / 32
          let rings := List.range (d.cfR e c.plan x.level)
          let last := d.cfLevels e c.plan - 1
          let left (t : Tab Nat) : Bool := rings.any fun r => tabGet 0 (x.level * 16 + r) t ≠ 0
          if x.ph = 0 then
            (if left x.rsLeft then d
             else if x.level < last then cfSettle n s (d.cfBegin s (x.level + 1) 0 true)
             else if c.kind = 2 then d.cfDone s
             else cfSettle n s (d.cfBegin s x.level 1 false))
          else if left x.agLeft then d
          else if x.level = 0 then d.cfDone s
          else cfSettle n s (d.cfBegin s (x.level - 1) 1 (c.kind = 3))

/-- Sends again what waited for READY or for a window. -/
def cfFlush (s : Nat) (d : Dev) : Dev :=
  let w := (d.cfSlot s).waiting
  cfSettle 12 s (w.foldl (fun d c => if c.byp then d.cfPost s c else d.cfSend s c) (d.updCf s fun x => { x with waiting := [] }))

/-- The operation of an AOP code (Table CF-6). -/
def aopOf : Nat → AtomOp
  | 0 => .fadd
  | 1 => .ax64
  | 2 => .iadd
  | 3 => .iadd
  | 4 => .smin
  | 5 => .smax
  | 6 => .umin
  | 7 => .umax
  | 8 => .and
  | 9 => .or
  | 10 => .xor
  | 11 => .swap
  | _ => .cas

/-- One element's atomic at a virtual address of a partition (R209, R278): its old value; `none` a poisoned target, `error` a target
that cannot be reached. -/
def atomAt (p va : Nat) (o : AtomOp) (w : Nat) (v cmp : Nat) (d : Dev) : Except Unit (Option Nat) × Dev :=
  match d.resolve p none .atomic va with
  | (.ok (.hbm pa), d) =>
    let r := d.atomic p pa o (w = 8) v cmp
    (.ok r.1, r.2)
  | (_, d) => (.error (), d)

/-- The source element of an atomic: the operand, and the compare value of a compare-and-swap, whose elements are pairs. -/
def atomOperand (c : CfDesc) (a : Int) (b : List Byte) : (Nat × Nat) × CfCls :=
  let w := cfSize c.ifmt
  if c.aop = 0xC then ((byteField b w w, byteField b 0 w), .plain)
  else if c.aop = 1 ∧ c.ifmt ≠ 0x1F then
    let r := axOf a ((if c.ifmt = 0x01 then layBF16 else layFP32).decode (leNat b))
    ((r.1.toNat, 0), r.2)
  else if c.aop = 0 ∧ c.ifmt = 0x01 then ((leNat b * 2 ^ 16, 0), .plain)
  else ((leNat b, 0), .plain)

/-- ATOMIC_REDUCTION on this device (R278): element by element; false where one could not be applied. -/
def atomRun (s : Nat) (c : CfDesc) (a : Int) : List Nat → Dev → Bool × Dev
  | [], d => (true, d)
  | i :: r, d =>
    let p := d.cfPart s
    let w := cfSize c.ifmt * (if c.aop = 0xC then 2 else 1)
    match d.cfLine p (c.src + i * w) w with
    | (none, d) => (false, d)
    | (some none, d) => atomRun s c a r (d.updCf s fun x => { x with cls := tabPut .plain i .poison x.cls })
    | (some (some b), d) =>
      let o := atomOperand c a b
      let e := s / 32
      let d := match o.2 with
        | .flush => d.incSat (Reg.CF_NUMCNT_FLUSH e) 1
        | .wovf => d.incSat (Reg.CF_NUMCNT_WOVF e) 1
        | .nan => d.incSat (Reg.CF_NUMCNT_WOVF e) 1
        | _ => d
      let d := d.updCf s fun x => { x with cls := tabPut .plain i o.2 x.cls }
      match d.atomAt p (c.dst + i * c.aw) (aopOf c.aop) c.aw o.1.1 o.1.2 with
      | (.error _, d) => (false, d)
      | (.ok none, d) =>
        let z := atomRun s c a r (d.updCf s fun x => { x with pois := x.pois + 1 })
        (false, z.2)
      | (.ok (some old), d) =>
        if c.ret then
          match d.vaWrite p none (c.src + i * w) (leBytes c.aw old) with
          | (.ok _, d) => atomRun s c a r d
          | (.error _, d) => (false, d)
        else atomRun s c a r d

/-- The message of a remote atomic, and its answer (R278). The spec gives them no layout: 64 bytes of header with MTYPE 0x6 or 0x7,
then operands or old values. -/
def atomMsg (mtype : Nat) (d : Dev) (s : Nat) (c : CfDesc) (first n : Nat) : List Byte :=
  leBytes 1 mtype ++ leBytes 1 c.aop ++ leBytes 1 c.aw ++ leBytes 1 (b2n c.ret) ++ leBytes 4 c.bid ++ leBytes 4 (d.cfGen s)
    ++ leBytes 4 n ++ leBytes 8 (c.dst + first * c.aw) ++ leBytes 4 first ++ List.replicate 36 0

/-- Sends the elements of a remote atomic reduction on ASTREAM, a message for each, while its window has room; false where the stream
is not open or a source cannot be read. -/
def atomSend (s : Nat) (c : CfDesc) (a : Int) : List Nat → Dev → Bool × Dev
  | [], d => (true, d)
  | i :: r, d =>
    let p := d.cfPart s
    let w := cfSize c.ifmt * (if c.aop = 0xC then 2 else 1)
    if ¬ (d.ctxOpen c.astream p) then (false, d)
    else if ¬ (d.winFits c.astream 1) then (true, d)
    else
      let d := d.updCf s fun x => { x with aNext := i + 1 }
      match d.cfLine p (c.src + i * w) w with
      | (none, d) => (false, d)
      | (some none, d) => atomSend s c a r (d.updCf s fun x => { x with cls := tabPut .plain i .poison x.cls })
      | (some (some b), d) =>
        let o := atomOperand c a b
        let d := d.updCf s fun x => { x with cls := tabPut .plain i o.2 x.cls, back := x.back ++ [(i, 1)] }
        let m := d.atomMsg 6 s c i 1
        atomSend s c a r (d.sendOp c.astream ptENGINE true (.cf s 0) 0 0 0 [(0, m ++ leBytes c.aw o.1.1 ++ leBytes c.aw o.1.2)])

/-- The end of an atomic reduction (R278). -/
def atomDone (s : Nat) (ok : Bool) (d : Dev) : Dev :=
  if ok then d.cfClose s (if (d.cfTotals s).wcount = 0 then csCOMPLETE else csINCOMPLETE) 0 0
  else d.cfFail s csFAILED

/-- A remote atomic reduction sends what its window takes, and ends once every element is answered. -/
def atomPump (s : Nat) (d : Dev) : Dev :=
  match (d.cfSlot s).desc with
  | none => d
  | some c =>
    if c.kind ≠ 4 ∨ ¬ c.arem ∨ d.cfSt s ≠ 2 then d
    else
      let x := d.cfSlot s
      let z := atomSend s c x.a ((List.range c.count).drop x.aNext) d
      let y := z.2.cfSlot s
      if ¬ z.1 then z.2.cfFail s csFAILED
      else if y.back = [] ∧ c.count ≤ y.aNext then z.2.atomDone s (decide (y.pois = 0))
      else z.2

/-- Every slot that waits for a window tries again. -/
def cfFlushAll (d : Dev) : Dev :=
  (List.range 64).foldl (fun d s => if (d.cfSlot s).waiting = [] then d.atomPump s else d.cfFlush s) d

/-- Whether a collective's buffers lie on a host that takes no request (R458): its trigger waits. -/
def cfHeld (d : Dev) (s : Nat) (c : CfDesc) : Bool :=
  let n := c.count * cfSize c.ifmt
  d.hostHeld (d.cfPart s) c.src n || d.hostHeld (d.cfPart s) c.dst (c.count * cfSize c.ofmt) || d.hostHeld (d.cfPart s) c.staddr 64

/-- COLLECTIVE_TRIGGER (R257, R258, R264, R278): the anchor is resolved, the contribution is taken, READY is sent and the first level
begins. -/
def cfTrigger (s : Nat) (d : Dev) : Dev :=
  let x := d.cfSlot s
  match x.desc with
  | none => d
  | some c =>
    if d.cfSt s ≠ 1 ∨ d.cfHeld s c ∨ d.paused (d.cfPart s) then d
    else
      let p := d.cfPart s
      let a := s8 c.anchor + (if c.rel then s8 (d.rd (Reg.LS_STAT_LSE p)) else 0)
      let r := if c.lsb then d.lsTaken p c.close else (false, d)
      let d := r.2.cfSetSt s 2
      let d := d.updCf s fun y => { y with a := a, ovf := r.1 }
      if a < -126 ∨ 127 < a then d.cfFail s csMISMATCH
      else if c.kind = 4 then
        (if c.arem then d.atomPump s
        else
          let z := atomRun s c a (List.range c.count) d
          z.2.atomDone s z.1)
      else
        let e := s / 32
        let last := d.cfLevels e c.plan
        let els := if c.kind = 3 then rangeElems (d.cfList e c.plan c.count last) else List.range c.count
        let z := cfTake s c a els d
        let d := z.2
        if ¬ z.1 then d.cfFail s csFAILED
        else
          let d := d.cfCounts s
          cfSettle 12 s (if c.kind = 3 then d.cfBegin s (last - 1) 1 true else d.cfBegin s 0 0 true)

/-- A chunk's values joined to this member's (R266, R268): poisoned own elements add nothing. -/
def cfSum (d : Dev) (s : Nat) (c : CfDesc) (l i : Nat) (x : BitVec 64) : BitVec 64 :=
  let y := d.cfSlot s
  if l = 0 ∧ tabGet .plain i y.cls = .poison then x
  else if c.ax then x + tabGet 0 i y.vals
  else ((fAdd (x.setWidth 32) ((tabGet 0 i y.vals).setWidth 32)).setWidth 64)

/-- A chunk is accepted once per label (R268), combined or stored, and sent on (R265). -/
def cfChunk (s : Nat) (b : List Byte) (d : Dev) : Dev :=
  let x := d.cfSlot s
  match x.desc with
  | none => d
  | some c =>
    let e := s / 32
    let ch := cfParse c.carried b
    let l := ch.level
    let r := ch.ring
    let n := d.cfN e c.plan l
    let i := d.cfPos e c.plan l r
    let label := (l, r, ch.ph, ch.step, ch.pos, ch.elem)
    if x.labels.contains label ∨ d.cfLevels e c.plan ≤ l ∨ d.cfR e c.plan l ≤ r ∨ n < 2 then d
    else
      let mis := ch.kind ≠ c.kind ∨ ch.arith ≠ c.arith ∨ ch.count ≠ c.count ∨ ch.a ≠ (BitVec.ofInt 8 x.a).toNat
        ∨ (ch.pos ≠ (i + n - 1) % n ∧ ch.pos ≠ (i + 2 * n - 2) % n)
      let els := rangeElems (sliceRanges (d.cfList e c.plan c.count l) ch.elem ch.vals.length)
      let d := d.setCf s { x with labels := label :: x.labels }
      let put (vs : List (BitVec 64)) (d : Dev) : Dev :=
        (els.zip vs).foldl (fun d z => d.updCf s fun y => { y with vals := tabPut 0 z.1 z.2 y.vals }) d
      let rg := sliceRanges (d.cfList e c.plan c.count l) ch.elem ch.vals.length
      let key := l * 16 + r
      let down (t : Tab Nat) : Tab Nat := tabPut 0 key (tabGet 0 key t - els.length) t
      if ch.ph = 0 then
        let m := if mis then { ch.meta_ with mis := true } else ch.meta_.add (d.cfStart s l 0 els)
        let vs := if mis then ch.vals else (els.zip ch.vals).map fun z => d.cfSum s c l z.1 z.2
        let d := put vs d
        let out := { ch with byp := false, pos := i, step := ch.step + 1, meta_ := m, vals := vs }
        let d :=
          if ch.step + 2 < n then d.cfSend s out
          else
            -- the finished chunk; a bypass of the successor sends it as the first all-gather step of that member
            let d := d.updCf s fun y => { y with fin := y.fin ++ [⟨0, l, rg, m⟩], rsLeft := down y.rsLeft }
            d
        cfSettle 12 s d
      else
        let m := if mis then { ch.meta_ with mis := true } else ch.meta_
        let d := put ch.vals d
        let d := d.updCf s fun y => { y with fin := y.fin ++ [⟨1, l, rg, m⟩], agLeft := down y.agLeft }
        let d := if ch.step + 2 < n then d.cfSend s { ch with byp := false, pos := i, step := ch.step + 1, meta_ := m } else d
        cfSettle 12 s d

/-- The slot that a message of a context addresses: its partition's slot with the message's BID that is not IDLE. -/
def cfFind (d : Dev) (k bid : Nat) : Option Nat :=
  (List.range 64).find? fun s =>
    decide (d.cfSt s ≠ 0) && d.flag (Reg.CF_SLOT_V (s / 32) (s % 32)) && d.cfPart s = (d.ctx k).part
      && ((d.cfSlot s).desc.map fun c => decide (c.bid = bid)).getD false

/-- Acts on a confluence message for a RUNNING slot of its generation. -/
def cfAct (s : Nat) (b : List Byte) (d : Dev) : Dev :=
  let h := cfParse 8 (b.take 64)
  match (d.cfSlot s).desc with
  | none => d
  | some c =>
    match byteField b 0 1 with
    | 1 => d.cfChunk s b
    | 2 => (d.updCf s fun x => { x with ready := (h.level, h.ring) :: x.ready }).cfFlush s
    | 3 =>
      if h.pos = d.cfPos (s / 32) c.plan h.level h.ring then d.cfFail s csEXCLUDED
      else cfSettle 12 s (d.cfDeclare s h.level h.ring)
    | 4 => (d.cfBroken s).cfFail s csFAILED
    | 5 => d.cfFail s csSTALE
    | _ => d

/-- READY or a chunk for a collective that ended here within the last 64 endings is answered STALE (R277). -/
def cfStale (k : Nat) (b : List Byte) (d : Dev) : Dev :=
  if (byteField b 0 1 = 1 ∨ byteField b 0 1 = 2) ∧ d.ctxOpen k (d.ctx k).part ∧ d.winFits k 1 then
    d.sendOp k ptENGINE false .none 0 0 0 [(0, leBytes 1 5 ++ (b.drop 1).take 63)]
  else d

/-- A confluence message on context k (R268, R277): acted on, kept for a collective or a generation still to come, or answered STALE. -/
def cfMessage (k : Nat) (b : List Byte) (d : Dev) : Dev :=
  let bid := byteField b 4 4
  let gen := byteField b 8 4
  let ended := d.cfEnds.any fun y => y.2.1 = bid && y.2.2 = gen
  match d.cfFind k bid with
  | some s =>
    if d.cfSt s = 2 ∧ gen = d.cfGen s then d.cfAct s b
    else if gen = d.cfGen s ∨ gen = (d.cfGen s + 1) % 2 ^ 32 then { d with cfEarly := d.cfEarly ++ [(k, b)] }
    else if ended then d.cfStale k b
    else d
  | none =>
    if ended then d.cfStale k b
    else { d with cfEarly := d.cfEarly ++ [(k, b)] }

/-- The messages kept for a slot that has just begun to run. -/
def cfReplay (s : Nat) (d : Dev) : Dev :=
  let bid := ((d.cfSlot s).desc.map CfDesc.bid).getD 0
  let mine := d.cfEarly.filter fun m => byteField m.2 4 4 = bid && (d.ctx m.1).part = d.cfPart s && byteField m.2 8 4 = d.cfGen s
  mine.foldl (fun d m => d.cfMessage m.1 m.2) { d with cfEarly := d.cfEarly.filter fun m => !(mine.contains m) }

/-- A slot is triggered (R257). -/
def cfGo (s : Nat) (d : Dev) : Dev := if d.cfSt s = 1 then (d.cfTrigger s).cfReplay s else d

/-- A remote atomic arrives, or its answer (R278). -/
def atomMessage (k : Nat) (b : List Byte) (d : Dev) : Dev :=
  let aop := byteField b 1 1
  let w := byteField b 2 1
  let va := byteField b 16 8
  let first := byteField b 24 4
  if byteField b 0 1 = 6 then
    let r := d.atomAt (d.ctx k).part va (aopOf aop) w (byteField b 64 w) (byteField b (64 + w) w)
    let ok := match r.1 with | .ok (some _) => 1 | _ => 0
    let old := match r.1 with | .ok (some v) => v | _ => 0
    if r.2.ctxOpen k (r.2.ctx k).part ∧ r.2.winFits k 1 then
      r.2.sendOp k ptENGINE true .none 0 0 0 [(0, leBytes 1 7 ++ (b.drop 1).take 59 ++ leBytes 4 ok ++ leBytes w old)]
    else r.2
  else
    match d.cfFind k (byteField b 4 4) with
    | none => d
    | some s =>
      match (d.cfSlot s).desc with
      | none => d
      | some c =>
        let ok := byteField b 60 4 = 1
        let sw := cfSize c.ifmt * (if c.aop = 0xC then 2 else 1)
        let d := d.updCf s fun x => { x with back := x.back.filter fun y => y.1 ≠ first, pois := x.pois + (if ok then 0 else 1) }
        if ok ∧ c.ret then
          match d.vaWrite (d.cfPart s) none (c.src + first * sw) (leBytes w (byteField b 64 w)) with
          | (.ok _, d) => d.atomPump s
          | (.error _, d) => d.cfFail s csFAILED
        else d.atomPump s

/-- Takes an engine message from the queue and acts on it when it has one of the types. -/
def onMsg (types : List Nat) (k : Nat) (b : List Byte) (f : Dev → Dev) (d : Dev) : Dev :=
  let p := if 2 ^ 17 ≤ k then k - 2 ^ 17 else (d.ctx k).part
  if types.contains (byteField b 0 1) ∧ ¬ d.paused p then f { d with msgs := d.msgs.erase (k, b) } else d

/-- READY, CHUNK, WITHHELD, BROKEN, STALE (R258, R268, R273, R275, R277). -/
def cfReadyMsg (k : Nat) (b : List Byte) (d : Dev) : Dev := d.onMsg [2] k b fun d => d.cfMessage k b
def cfChunkMsg (k : Nat) (b : List Byte) (d : Dev) : Dev :=
  d.onMsg [1, 6, 7] k b fun d => if byteField b 0 1 = 1 then d.cfMessage k b else d.atomMessage k b
def cfWithheldMsg (k : Nat) (b : List Byte) (d : Dev) : Dev := d.onMsg [3] k b fun d => d.cfMessage k b
def cfBrokenMsg (k : Nat) (b : List Byte) (d : Dev) : Dev := d.onMsg [4] k b fun d => d.cfMessage k b
def cfStaleMsg (k : Nat) (b : List Byte) (d : Dev) : Dev := d.onMsg [5] k b fun d => d.cfMessage k b

/-- SLOT_GO: a write of GO (R257). -/
def slotGo (s : Nat) (d : Dev) : Dev := d.cfGo s

/-- SLOT_ABORT (Table CF-2, R273). -/
def slotAbort (s : Nat) (d : Dev) : Dev := if d.cfSt s = 0 then d else (d.cfWithhold s).cfFail s csABORTED

/-- HOPTMO (R272, R273): the wait for the READY of a ring's successor, or for its acknowledgement of a chunk; 0 disables. -/
def hoptmo (s r : Nat) (d : Dev) : Dev :=
  match (d.cfSlot s).desc with
  | none => d
  | some c =>
    let t := d.rd (Reg.CF_TIME_HOPTMO (s / 32))
    if d.cfSt s ≠ 2 ∨ t = 0 then d
    else
      let l := (d.cfSlot s).level
      let unacked := (d.ctx (d.rd (Reg.CF_RINGA_NEXT (s / 32) c.plan l r))).ops.any fun o => o.owner = .cf s r
      if (d.cfSlot s).ready.contains (l, r) ∧ ¬ unacked then d
      else
      let d := if d.rd (Reg.CF_SLOTWAIT_WAITMAX (s / 32) (s % 32)) < t then
          (d.wr (Reg.CF_SLOTWAIT_WAITMAX (s / 32) (s % 32)) t).wr (Reg.CF_SLOTWAIT_WAITPOS (s / 32) (s % 32))
            ((d.cfPos (s / 32) c.plan l r + 1) % d.cfN (s / 32) c.plan l)
        else d
      cfSettle 12 s (d.cfDeclare s l r)

/-- CWD (R275): 0 disables. -/
def cwd (s : Nat) (d : Dev) : Dev :=
  if d.cfSt s = 2 ∧ d.rd (Reg.CF_TIME_CWD (s / 32)) ≠ 0 then d.cfFail s csTIMEOUT else d

/-- The slots that watch a flag and find it at its value are triggered (R257). -/
def cfWatch (d : Dev) : Dev :=
  (List.range 64).foldl (fun d s =>
    match (d.cfSlot s).desc with
    | some c =>
      if c.trig = 1 ∧ d.cfSt s = 1 then
        match d.deviceNo (d.cfPart s) c.tcore with
        | some k => if (c.tval + d.cfGen s * c.tinc) % 2 ^ 64 ≤ d.flagVal k c.tflag then d.cfGo s else d
        | none => d
      else d
    | none => d) d

/-- A stream that fails withholds the successors it leads to (R273). -/
def cfStreamFail (k : Nat) (d : Dev) : Dev :=
  (List.range 64).foldl (fun d s =>
    match (d.cfSlot s).desc with
    | some c =>
      if d.cfSt s ≠ 2 then d
      else if c.kind = 4 then (if c.arem ∧ c.astream = k then d.cfFail s csFAILED else d)
      else
        let e := s / 32
        let lost := (List.range (d.cfLevels e c.plan)).flatMap fun l =>
          ((List.range (d.cfR e c.plan l)).filter fun r => d.rd (Reg.CF_RINGA_NEXT e c.plan l r) = k).map fun r => (l, r)
        cfSettle 80 s (d.updCf s fun x => { x with lost := lost.filter fun y => !(x.byp.contains y) })
    | none => d) d

end Dev
end Sys2Proof.Machine
end

