-- ==== Sys2Proof/Machine/Ferry.lean ====
section
/-!
DEFINITION. The ferry (R280 to R293): jobs, the routing walk, credits and grants, expert queues and batches, results and the combine.
A message between two agents of this device goes through the same queue of engine messages as one from a stream; the context that it
carries is 2^17 plus the partition.
-/
namespace Sys2Proof.Machine

/-- The dispatch descriptor (Table FY-2). -/
def fryDescOf (b : List Byte) : FryDesc :=
  let w := byteField b 0 8
  let c := byteField b 64 8
  { k := bits w 3 0, rfmt := bits w 8 4, ofmt := bits w 13 9, trig := bits w 15 14, tflag := bits w 23 16, tcore := bits w 31 24,
    cf := bits w 47 32, bid := byteField b 8 4, tval := byteField b 12 4, src := byteField b 16 8, route := byteField b 24 8,
    count := byteField b 32 4, rowb := byteField b 36 2, rrowb := byteField b 38 2, dst := byteField b 40 8,
    stage := byteField b 48 8, staddr := byteField b 56 8, ccore := bits c 7 0, cflag := bits c 15 8, csop := bits c 17 16,
    cen := bit c 18, cval := bits c 63 32,
    rsv := bits w 63 48 ≠ 0 || bits c 31 19 ≠ 0 || ((b.drop 72).take 56).any fun x => x ≠ 0 }

/-- The classes of fault that refuse an arming (R282, R256). -/
def FryDesc.ok (c : FryDesc) : Bool :=
  let al (a : Nat) : Bool := a % 64 = 0 && decide (a < 2 ^ 48)
  1 ≤ c.k && c.k ≤ 8 && 1 ≤ c.rowb && c.rowb ≤ 512 && 1 ≤ c.rrowb && c.rrowb ≤ 512 && c.rfmt ≤ 1 && c.ofmt ≤ 1 && c.trig ≤ 2
    && c.csop ≤ 2 && 1 ≤ c.count && decide (c.count ≤ 2 ^ 24) && al c.src && al c.route && al c.dst && al c.stage && al c.staddr && !c.rsv

/-- Bytes of an element of a row format: FP32 or bf16. -/
def fryElem (f : Nat) : Nat := if f = 0 then 4 else 2

/-- The 64-byte ferry header (R286). The spec names the fields and not their places. -/
structure FryHdr where
  mtype : Nat
  job : Nat
  queue : Nat
  k : Nat
  gen : Nat
  t : Nat
  dev : Nat
  code : Nat
  rowb : Nat
  rrowb : Nat
  batch : Nat
  rows : Nat
  off : Nat
  deriving DecidableEq, Repr

def FryHdr.bytes (h : FryHdr) : List Byte :=
  leBytes 1 h.mtype ++ leBytes 1 h.job ++ leBytes 1 h.queue ++ leBytes 1 h.k ++ leBytes 4 h.gen ++ leBytes 4 h.t ++ leBytes 3 h.dev
    ++ leBytes 1 h.code ++ leBytes 2 h.rowb ++ leBytes 2 h.rrowb ++ leBytes 4 h.batch ++ leBytes 4 h.rows ++ leBytes 4 h.off
    ++ List.replicate 32 0

def FryHdr.parse (b : List Byte) : FryHdr :=
  { mtype := byteField b 0 1, job := byteField b 1 1, queue := byteField b 2 1, k := byteField b 3 1, gen := byteField b 4 4,
    t := byteField b 8 4, dev := byteField b 12 3, code := byteField b 15 1, rowb := byteField b 16 2, rrowb := byteField b 18 2,
    batch := byteField b 20 4, rows := byteField b 24 4, off := byteField b 28 4 }

/-- Message types (R286). -/
def fyREQ : Nat := 0x11
def fyGRANT : Nat := 0x12
def fyROW : Nat := 0x13
def fyRESULT : Nat := 0x14
def fyRELEASE : Nat := 0x15

/-- The batch slot's size SB (R287). -/
def frySB (rowb rrowb : Nat) : Nat := 1088 + 64 * 64 * (rowb + rrowb)

/-- The capacity of an expert (R283): ceil(CF × COUNT × K / (16 × E)). -/
def fryCap (c : FryDesc) (e : Nat) : Nat := (c.cf * c.count * c.k + 16 * e - 1) / (16 * e)

/-- The hash of R284 over the sum of the effective weights. -/
def fryHash (t k bid w : Nat) : Nat := Nat.xor (Nat.xor (t * 0x9E3779B1) (k * 0x85EBCA77)) bid % 2 ^ 32 * w / 2 ^ 32

/-- The first copy whose running sum of weights exceeds x (R284). -/
def fryPick (x : Nat) : Nat → List Nat → Nat
  | _, [] => 0
  | s, w :: r => if x < s + w then 0 else fryPick x (s + w) r + 1

/-- A slot that is refused, by capacity or for want of a route (R283). -/
def FrySlot.refusedB : FrySlot → Bool
  | .refused => true
  | .noRoute => true
  | _ => false

/-- The number of elements of a result row, and the bytes of a combined row. -/
def FryDesc.elems (c : FryDesc) : Nat := c.rrowb * 64 / fryElem c.rfmt
def FryDesc.outRow (c : FryDesc) : Nat := c.elems * fryElem c.ofmt

/-- The rows that a batch can still be granted. -/
def FryBatch.room (b : FryBatch) : Nat := if b.late then 0 else 64 - b.rows - b.granted

namespace Dev

def fryJob (d : Dev) (j : Nat) : FryJob := tabGet FryJob.reset j d.fry
def setFry (j : Nat) (x : FryJob) (d : Dev) : Dev := { d with fry := tabPut FryJob.reset j x d.fry }
def updFry (j : Nat) (f : FryJob → FryJob) (d : Dev) : Dev := d.setFry j (f (d.fryJob j))
def fryQ (d : Dev) (q : Nat) : FryQ := tabGet FryQ.reset q d.fryq
def setFryQ (q : Nat) (x : FryQ) (d : Dev) : Dev := { d with fryq := tabPut FryQ.reset q x d.fryq }
def updFryQ (q : Nat) (f : FryQ → FryQ) (d : Dev) : Dev := d.setFryQ q (f (d.fryQ q))
def frySt (d : Dev) (j : Nat) : Nat := d.rd (Reg.FRY_JOB_STATE j)
def fryPart (d : Dev) (j : Nat) : Nat := d.rd (Reg.FRY_JOB_PART j)
def fryGen (d : Dev) (j : Nat) : Nat := d.rd (Reg.FRY_JOB_GEN j)

/-- The partition at the far end of a message's context; a context from 2^17 is this device's own (see the file's head). -/
def fryFar (d : Dev) (k : Nat) : Nat := if 2 ^ 17 ≤ k then k - 2 ^ 17 else (d.ctx k).part
/-- A destination, stream + 1 or 0, from a message's context, and back. -/
def fryDest (k : Nat) : Nat := if 2 ^ 17 ≤ k then 0 else k + 1
def fryCtx (p dest : Nat) : Nat := if dest = 0 then 2 ^ 17 + p else dest - 1

/-- Sends a ferry message for partition p: in this device's queue, on its stream, or held until the window has room (R247). -/
def frySend (p k : Nat) (job : Option Nat) (payloads : List (List Byte)) (d : Dev) : Dev :=
  let own : OpOwner := match job with | some j => .fry j | none => .none
  if 2 ^ 17 ≤ k then { d with msgs := d.msgs ++ payloads.map fun b => (k, b) }
  else if ¬ d.ctxOpen k p then d
  else if d.winFits k payloads.length ∧ ¬ (d.fryOut.any fun (o : FryOut) => o.ctx = k) then
    d.sendOp k ptENGINE false own 0 0 0 (payloads.map fun b => (0, b))
  else { d with fryOut := d.fryOut ++ [⟨k, job, payloads⟩] }

/-- Sends what waited for a window, in order (R247). -/
def fryFlush (d : Dev) : Dev :=
  d.fryOut.foldl (fun d o => d.frySend (d.fryFar o.ctx) o.ctx o.job o.payloads) { d with fryOut := [] }

/-- The pieces of a row with their headers (R286): 4,032 bytes each, 4,008 on an encrypted context. -/
def fryPieces (d : Dev) (k : Nat) (h : FryHdr) (b : List Byte) : List (List Byte) :=
  let m := if k < 2 ^ 17 ∧ (d.ctx k).gcm then 4008 else 4032
  (List.range (max 1 ((b.length + m - 1) / m))).map fun i => FryHdr.bytes { h with off := i * m } ++ (b.drop (i * m)).take m

/-- JOB_ARM (R282): the checks that do not read the descriptor's contents stand with its own. -/
def fryArmOk (d : Dev) (p j : Nat) (c : FryDesc) : Bool :=
  j < 16 && d.flag (Reg.FRY_JOB_V j) && d.fryPart j = p && d.frySt j = 0 && c.ok
def fryArm (j : Nat) (c : FryDesc) (cmd : Option Nat) (d : Dev) : Dev :=
  ((d.setFry j { FryJob.reset with desc := some c, cmd := cmd }).wr (Reg.FRY_JOB_STATE j) 1).incWrap (Reg.FRY_JOB_GEN j) 1

def frySlotOf (d : Dev) (j i : Nat) : FrySlot := tabGet .free i (d.fryJob j).slots
def setFrySlot (j i : Nat) (x : FrySlot) (d : Dev) : Dev := d.updFry j fun y => { y with slots := tabPut .free i x y.slots }

/-- The effective weight of a copy (R292): a marked stream's is shifted. -/
def fryEff (d : Dev) (c : Nat) : Nat :=
  let w := bits c 31 24
  if bit c 17 then w
  else
    match (List.range 16).find? fun n => d.flag (Reg.FRY_LAG_V n) && d.rd (Reg.FRY_LAG_STREAM n) = bits c 16 0 with
    | some n => w / 2 ^ d.rd (Reg.FRY_LAG_SHIFT n)
    | none => w

/-- COPY_CHOICE (R284, R292): the copy that serves a slot; none for an unrouted expert. -/
def fryChoose (d : Dev) (copies : List Nat) (t k bid : Nat) : Option Nat :=
  let ws := copies.map fun c => bits c 31 24
  let es := copies.map d.fryEff
  if ws.all fun w => w = 0 then none
  else if es.sum = 0 then
    let m := ws.foldl max 0
    copies[(ws.findIdx fun w => w = m)]?
  else copies[fryPick (fryHash t k bid es.sum) 0 es]?

/-- Asks a destination's queue for up to 64 rows (R285). -/
def fryAsk (j dest q : Nat) (d : Dev) : Dev :=
  let x := d.fryJob j
  match x.desc with
  | none => d
  | some c =>
    let n := (x.slots.filter fun e => e.2 = .waiting dest q).length
    if n = 0 ∨ x.asked.contains (dest, q) then d
    else
      let p := d.fryPart j
      (d.setFry j { x with asked := (dest, q) :: x.asked }).frySend p (fryCtx p dest) (some j)
        [FryHdr.bytes ⟨fyREQ, j, q, 0, d.fryGen j, 0, d.myDev, 0, c.rowb, c.rrowb, 0, min 64 n, 0⟩]

/-- The tokens that a failed slot leaves uncombined (R290). -/
def fryUncombined (d : Dev) (j : Nat) (c : FryDesc) : List Nat :=
  (List.range c.count).filter fun t => (List.range c.k).any fun k => d.frySlotOf j (c.k * t + k) = .failed

/-- COMBINE (R290): a token whose slots are all refused or hold their results. -/
def fryCombine (j t : Nat) (d : Dev) : Dev :=
  let x := d.fryJob j
  match x.desc with
  | none => d
  | some c =>
    let p := d.fryPart j
    let sts := (List.range c.k).map fun k => d.frySlotOf j (c.k * t + k)
    if tabGet false t x.done ∨ ¬ (sts.all fun s => s.refusedB || s = .result) then d
    else
      let z := (List.range c.k).foldl (fun (a : Option (List Lane) × Dev) k =>
        if (d.frySlotOf j (c.k * t + k)).refusedB then a
        else
          match a.1, a.2.vaRead p none (c.stage + (c.k * t + k) * c.rrowb * 64) (c.rrowb * 64) with
          | some acc, (.ok b, d) =>
            let w := BitVec.ofNat 32 (tabGet 0 (c.k * t + k) x.weights)
            (some (acc.zipIdx.map fun (y, i) =>
              let raw := byteField b (i * fryElem c.rfmt) (fryElem c.rfmt)
              fFma y w (BitVec.ofNat 32 (if c.rfmt = 0 then raw else raw * 2 ^ 16))), d)
          | _, (_, d) => (none, d)) (some (List.replicate c.elems 0), d)
      match z.1 with
      | none => (List.range c.k).foldl (fun d k =>
          if (d.frySlotOf j (c.k * t + k)).refusedB then d else d.setFrySlot j (c.k * t + k) .failed) z.2
      | some acc =>
        let out := acc.flatMap fun y =>
          if c.ofmt = 0 then leBytes 4 y.toNat else leBytes 2 (layBF16.encode .rne false (f32 y)).1
        match z.2.vaWrite p none (c.dst + t * c.outRow) out with
        | (.ok _, d) => d.updFry j fun y => { y with done := tabPut false t true y.done }
        | (.error _, d) =>
          let held := (List.range c.k).filter fun k => !(d.frySlotOf j (c.k * t + k)).refusedB
          (if held = [] then List.range c.k else held).foldl (fun d k => d.setFrySlot j (c.k * t + k) .failed) d

/-- The status record (Table FY-3) and the refusal bitmap. -/
def fryStatus (d : Dev) (j st : Nat) (c : FryDesc) : List Byte :=
  let all := (List.range (c.count * c.k)).map fun i => d.frySlotOf j i
  let n (f : FrySlot → Bool) : Nat := (all.filter f).length
  leBytes 4 c.bid ++ leBytes 4 (d.fryGen j) ++ leBytes 1 st ++ leBytes 7 0 ++ leBytes 4 (n fun s => s = .refused)
    ++ leBytes 4 (n fun s => s = .noRoute) ++ leBytes 4 (d.fryJob j).accepted
    ++ leBytes 4 (((d.fryJob j).done.map fun e => ((List.range c.k).filter fun k => d.frySlotOf j (c.k * e.1 + k) = .result).length).sum)
    ++ leBytes 8 d.now ++ leBytes 24 0
    ++ leBytes ((all.length + 7) / 8) (packElems 1 (all.map fun s => b2n s.refusedB))

/-- Status codes (Table FY-3). -/
def fsCOMPLETE : Nat := 0
def fsFAILED : Nat := 1
def fsTIMEOUT : Nat := 2
def fsABORTED : Nat := 3

/-- JOB_END (R293): unused grants go back, uncombined rows of failed slots are poisoned, then the status record and the bitmap, the
completion update and the interrupt; the command that armed the job is told (R326, R327). -/
def fryEnd (j st : Nat) (d : Dev) : Dev :=
  let x := d.fryJob j
  match x.desc with
  | none => d
  | some c =>
    let p := d.fryPart j
    let d := x.grants.foldl (fun d (dest, q, b, n) =>
      if n = 0 then d
      else d.frySend p (fryCtx p dest) none [FryHdr.bytes ⟨fyRELEASE, j, q, 0, d.fryGen j, 0, d.myDev, 0, c.rowb, c.rrowb, b, n, 0⟩]) d
    let d := (d.fryUncombined j c).foldl (fun d t =>
      (d.vaPoison p none (c.dst + t * c.outRow) c.outRow).jrPoison x.cmd [[(c.dst + t * c.outRow, c.outRow)]]) d
    let d := if d.isQuiet p then d else (d.vaWrite p none c.staddr (d.fryStatus j st c)).2
    let d := if d.isQuiet p then d else d.completionUpdate p c.cen c.ccore c.cflag c.csop c.cval
    let d :=
      if st = fsTIMEOUT ∨ (st = fsFAILED ∧ x.refusedQ) then d.jrOutcome x.cmd oCOLLECTIVE
      else if st = fsFAILED then d.jrMark x.cmd
      else d
    let d := d.jrPartEnd x.cmd (partJob j)
    let d := { d with fryOut := d.fryOut.filter fun o => !(o.job = some j) }
    ((d.setFry j FryJob.reset).wr (Reg.FRY_JOB_STATE j) 0).irqEvent (1216 + j)

/-- Combines what can be combined, asks for what still waits, and ends a job of which no slot is left (R285, R290). -/
def frySettle (j : Nat) (d : Dev) : Dev :=
  match (d.fryJob j).desc with
  | none => d
  | some c =>
    if d.frySt j ≠ 2 then d
    else
      let open_ (s : FrySlot) : Bool := match s with | .free => true | .waiting _ _ => true | .sent _ _ => true | _ => false
      let dq := ((d.fryJob j).slots.filterMap fun e => match e.2 with | .waiting a b => some (a, b) | _ => none).eraseDups
      let d := dq.foldl (fun d y =>
        if (d.fryJob j).grants.any fun g => g.1 = y.1 && g.2.1 = y.2 && decide (0 < g.2.2.2) then d else d.fryAsk j y.1 y.2) d
      if (List.range (c.count * c.k)).any fun i => open_ (d.frySlotOf j i) then d
      else d.fryEnd j (if (List.range (c.count * c.k)).any fun i => d.frySlotOf j i = .failed then fsFAILED else fsCOMPLETE)

/-- One slot of the routing walk (R283, R284): the counts per expert and the state. -/
def fryWalk (j : Nat) (c : FryDesc) (a : Tab Nat × Bool × Dev) (i : Nat) : Tab Nat × Bool × Dev :=
  let d := a.2.2
  let p := d.fryPart j
  if a.2.1 then a
  else
    match d.vaRead p none (c.route + 8 * i) 8 with
    | (.error _, d) => (a.1, true, d)
    | (.ok sel, d) =>
      let e := byteField sel 0 2
      let n := d.rd (Reg.FRY_RT_ENTRIES p) + 1
      let d := d.updFry j fun y => { y with weights := tabPut 0 i (byteField sel 4 4) y.weights }
      let entry := if e < n then d.vaRead p none (d.rd (Reg.FRY_RT_BASE p) * 32 + 32 * e) 32 else (.ok (List.replicate 32 0), d)
      match entry with
      | (.error _, d) => (a.1, true, d)
      | (.ok b, d) =>
        match d.fryChoose ((List.range 4).map fun y => byteField b (8 * y) 8) (i / c.k) (i % c.k) c.bid with
        | none => (a.1, false, (d.setFrySlot j i .noRoute).incSat Reg.FRY_CNT_NOROUTE 1)
        | some cp =>
          let taken := tabGet 0 e a.1
          if c.cf ≠ 0 ∧ fryCap c n ≤ taken then (a.1, false, (d.setFrySlot j i .refused).incSat Reg.FRY_CNT_REFUSED 1)
          else
            let dest := if bit cp 17 then 0 else bits cp 16 0 + 1
            let ok := dest = 0 ∨ d.ctxOpen (dest - 1) p
            (tabPut 0 e (taken + 1) a.1, false,
              d.setFrySlot j i (if ok then .waiting dest (bits cp 39 32) else .failed))

/-- Whether a job's buffers lie on a host that takes no request (R458): its trigger waits. -/
def fryHeld (d : Dev) (j : Nat) (c : FryDesc) : Bool :=
  let p := d.fryPart j
  d.hostHeld p c.src (c.count * c.rowb * 64) || d.hostHeld p c.route (c.count * c.k * 8) || d.hostHeld p c.dst (c.count * c.outRow)
    || d.hostHeld p c.stage (c.count * c.k * c.rrowb * 64) || d.hostHeld p c.staddr 64

/-- JOB_TRIGGER (R283): the walk over the slots in ascending order; a selection or an entry that cannot be read fails the job. -/
def fryTrigger (j : Nat) (d : Dev) : Dev :=
  match (d.fryJob j).desc with
  | none => d
  | some c =>
    if d.frySt j ≠ 1 ∨ d.fryHeld j c ∨ d.paused (d.fryPart j) then d
    else
      let d := d.wr (Reg.FRY_JOB_STATE j) 2
      let z := (List.range (c.count * c.k)).foldl (fryWalk j c) ([], false, d)
      let d := z.2.2
      if z.2.1 then
        ((List.range (c.count * c.k)).foldl (fun d i => if d.frySlotOf j i = .free then d.setFrySlot j i .failed else d) d).fryEnd j fsFAILED
      else
        ((List.range c.count).foldl (fun d t => d.fryCombine j t) d).frySettle j

/-- Sends rows against a grant (R285, R286), in slot order; a row that cannot be read fails its slot. -/
def fryUse (j dest q b : Nat) : List Nat → Nat → Dev → Nat × Dev
  | [], n, d => (n, d)
  | i :: r, n, d =>
    match (d.fryJob j).desc with
    | none => (n, d)
    | some c =>
      if n = 0 then (0, d)
      else
        let p := d.fryPart j
        -- the ferry reaches the original of a declared page (R328)
        match d.vaRead p none (c.src + i / c.k * c.rowb * 64) (c.rowb * 64) with
        | (.error _, d) => fryUse j dest q b r n (d.setFrySlot j i .failed)
        | (.ok row, d) =>
          let k := fryCtx p dest
          let d := (d.setFrySlot j i (.sent dest q)).updFry j fun y => { y with sentAt := tabPut 0 i d.now y.sentAt, accepted := y.accepted + 1 }
          let h : FryHdr := ⟨fyROW, j, q, i % c.k, d.fryGen j, i / c.k, d.myDev, 0, c.rowb, c.rrowb, b, 1, 0⟩
          fryUse j dest q b r (n - 1) (d.frySend p k (some j) (d.fryPieces k h row))

/-- QUEUE_REFUSED (R288): every slot routed to the queue fails, and the refusal is recorded in bank 12. -/
def fryRefused (j dest : Nat) (h : FryHdr) (d : Dev) : Dev :=
  let l := ((d.fryJob j).slots.filter fun e => e.2 = .waiting dest h.queue).map Prod.fst
  let d := l.foldl (fun d i => d.setFrySlot j i .failed) d
  (d.updFry j fun y => { y with refusedQ := true }).err 12
    { cls := 0x45, part := some (d.fryPart j), info := h.queue + 2 ^ 8 * h.code + 2 ^ 12 * j, extra := d.fryGen j }

/-- GRANT (R285, R288). -/
def fryGrant (k : Nat) (b : List Byte) (d : Dev) : Dev :=
  let h := FryHdr.parse b
  let j := h.job
  let dest := fryDest k
  if d.frySt j ≠ 2 ∨ h.gen ≠ d.fryGen j ∨ d.fryPart j ≠ d.fryFar k then
    -- a grant that no job can use goes back
    (if h.rows = 0 then d else d.frySend (d.fryFar k) k none [FryHdr.bytes { h with mtype := fyRELEASE }])
  else
    let d := d.updFry j fun y => { y with asked := y.asked.filter fun z => z ≠ (dest, h.queue) }
    if h.code ≠ 0 then (d.fryRefused j dest h).frySettle j
    else
      let l := ((d.fryJob j).slots.filter fun e => e.2 = .waiting dest h.queue).map Prod.fst
      let z := fryUse j dest h.queue h.batch l h.rows d
      (z.2.updFry j fun y => { y with grants := if z.1 = 0 then y.grants else y.grants ++ [(dest, h.queue, h.batch, z.1)] }).frySettle j

/-- Opens the next batch's entry when its batch slot is free: two batches at most take grants (R285, R287). -/
def fryNext (q : Nat) (d : Dev) : Dev :=
  let x := d.fryQ q
  if (x.open_.any fun (y : FryBatch) => decide (0 < y.room)) ∨ 2 ≤ x.open_.length ∨ d.rd (Reg.FRY_EQA_NSLOT q) ≤ x.open_.length + x.closed.length then d
  else d.setFryQ q { x with next := (x.next + 1) % 2 ^ 32, open_ := x.open_ ++ [⟨x.next, 0, 0, false, []⟩] }

/-- Answers a REQ that a batch has room for; otherwise it waits (R285). -/
def fryServe (k : Nat) (b : List Byte) (d : Dev) : Dev :=
  let h := FryHdr.parse b
  let q := h.queue
  let d := d.fryNext q
  let x := d.fryQ q
  match x.open_.find? fun (y : FryBatch) => decide (0 < y.room) with
  | none => d.setFryQ q { x with waitq := x.waitq ++ [(k, b)] }
  | some y =>
    let n := min (min h.rows 64) y.room
    (d.setFryQ q { x with open_ := x.open_.map fun (z : FryBatch) => if z.no = y.no then { z with granted := z.granted + n } else z }).frySend
      (d.fryFar k) k none [FryHdr.bytes { h with mtype := fyGRANT, batch := y.no, rows := n, code := 0, dev := d.myDev }]

/-- The REQ messages that waited are served again. -/
def fryWaiters (q : Nat) (d : Dev) : Dev :=
  let w := (d.fryQ q).waitq
  w.foldl (fun d m => d.fryServe m.1 m.2) (d.updFryQ q fun x => { x with waitq := [] })

/-- The refusal code of R288, 0 for none. -/
def fryCode (d : Dev) (k : Nat) (h : FryHdr) : Nat :=
  let q := h.queue
  if ¬ d.flag (Reg.FRY_EQA_V q) then 1
  else if d.rd (Reg.FRY_EQA_PART q) ≠ d.fryFar k then 2
  else if d.rd (Reg.FRY_EQA_ROWB q) ≠ h.rowb ∨ d.rd (Reg.FRY_EQA_RROWB q) ≠ h.rrowb then 3
  else 0

/-- REQ (R285, R288). -/
def fryReq (k : Nat) (b : List Byte) (d : Dev) : Dev :=
  let h := FryHdr.parse b
  let c := d.fryCode k h
  if c ≠ 0 then d.frySend (d.fryFar k) k none [FryHdr.bytes { h with mtype := fyGRANT, rows := 0, code := c, dev := d.myDev }]
  else d.fryServe k b

def fryRB (d : Dev) (q : Nat) : Nat := d.rd (Reg.FRY_EQA_ROWB q) * 64
def fryRRB (d : Dev) (q : Nat) : Nat := d.rd (Reg.FRY_EQA_RROWB q) * 64
/-- The address of a batch's slot (R287). -/
def frySlotAddr (d : Dev) (q b : Nat) : Nat :=
  d.rd (Reg.FRY_EQB_BUF q) * 64
    + b % max 1 (d.rd (Reg.FRY_EQA_NSLOT q)) * frySB (d.rd (Reg.FRY_EQA_ROWB q)) (d.rd (Reg.FRY_EQA_RROWB q))

def fryWr (q a : Nat) (b : List Byte) (d : Dev) : Dev := (d.vaWrite (d.rd (Reg.FRY_EQA_PART q)) none a b).2

/-- BATCH_CLOSE (R287): the oldest open batch closes when it is full, or late with no granted row outstanding; then the next may. -/
def fryClose : Nat → Nat → Dev → Dev
  | 0, _, d => d
  | n + 1, q, d =>
    let x := d.fryQ q
    match x.open_ with
    | [] => d
    | y :: r =>
      if ¬ (y.rows = 64 ∨ (y.late ∧ y.granted = 0 ∧ 0 < y.rows)) then d
      else
        let a := d.frySlotAddr q y.no
        let d := if y.rows = 64 then d else d.fryWr q (a + 1088 + y.rows * d.fryRB q) (List.replicate ((64 - y.rows) * d.fryRB q) 0)
        let d := d.fryWr q a (leBytes 4 y.no ++ leBytes 1 y.rows ++ List.replicate 59 0)
        let d := d.setFryQ q { d.fryQ q with open_ := r, closed := x.closed ++ [(y.no, y.rows)] }
        let d := d.incWrap Reg.FRY_BCNT_BATCHES 1
        let d := if y.rows < 64 then d.incSat Reg.FRY_BCNT_SHORT 1 else d
        let d := d.completionUpdate (d.rd (Reg.FRY_EQA_PART q)) true (d.rd (Reg.FRY_EQA_NCORE q)) (d.rd (Reg.FRY_EQA_NFLAG q)) 1 1
        fryClose n q (d.fryWaiters q)

/-- A row tag (R287), which only the ferry reads: source context, token, generation, job and k. -/
def fryTag (k : Nat) (h : FryHdr) : List Byte := leBytes 4 k ++ leBytes 4 h.t ++ leBytes 4 h.gen ++ leBytes 1 h.job ++ leBytes 1 h.k ++ leBytes 2 0

/-- ROW (R287): pieces of a row gather; a whole row lands in its batch. -/
def fryRow (k : Nat) (b : List Byte) (d : Dev) : Dev :=
  let h := FryHdr.parse b
  let q := h.queue
  let x := d.fryQ q
  match x.open_.find? fun (y : FryBatch) => y.no = h.batch with
  | none => d
  | some y =>
    let mine (z : FryPiece) : Bool := z.from_ = k && z.job = h.job && z.gen = h.gen && z.t = h.t && z.k = h.k
    let was := ((y.parts.find? mine).map FryPiece.pieces).getD []
    let ps := (h.off, b.drop 64) :: was
    let put (f : FryBatch → FryBatch) (d : Dev) : Dev :=
      d.updFryQ q fun x => { x with open_ := x.open_.map fun (z : FryBatch) => if z.no = y.no then f z else z }
    if (ps.map fun e => e.2.length).sum < d.fryRB q then
      put (fun z => { z with parts := ⟨k, h.job, h.gen, h.t, h.k, ps⟩ :: (z.parts.filter fun (e : FryPiece) => !(mine e)) }) d
    else
      let a := d.frySlotAddr q y.no
      let d := ps.foldl (fun d e => d.fryWr q (a + 1088 + y.rows * d.fryRB q + e.1) e.2) d
      let d := d.fryWr q (a + 64 + 16 * y.rows) (fryTag k h)
      fryClose 2 q (put (fun z => { z with rows := z.rows + 1, granted := z.granted - 1, parts := (z.parts.filter fun (e : FryPiece) => !(mine e)) }) d)

/-- BATCH_DEADLINE (R287): BDL has passed since a batch opened. -/
def batchDeadline (q no : Nat) (d : Dev) : Dev :=
  fryClose 2 q (d.updFryQ q fun x =>
    { x with open_ := x.open_.map fun (z : FryBatch) => if z.no = no ∧ 0 < z.rows then { z with late := true } else z })

/-- One result row of a returned batch goes back to its source (R289). -/
def fryReturnRow (q a : Nat) (j : Nat) (d : Dev) : Dev :=
  let p := d.rd (Reg.FRY_EQA_PART q)
  match d.vaRead p none (a + 64 + 16 * j) 16 with
  | (.error _, d) => d
  | (.ok tag, d) =>
    let k := byteField tag 0 4
    let h : FryHdr := ⟨fyRESULT, byteField tag 12 1, q, byteField tag 13 1, byteField tag 8 4, byteField tag 4 4, d.myDev, 0,
      d.rd (Reg.FRY_EQA_ROWB q), d.rd (Reg.FRY_EQA_RROWB q), 0, 1, 0⟩
    match d.vaRead p none (a + 1088 + 64 * d.fryRB q + j * d.fryRRB q) (d.fryRRB q) with
    | (.ok row, d) => d.frySend p k none (d.fryPieces k h row)
    | (.error _, d) => d.frySend p k none [FryHdr.bytes { h with code := 1 }]

/-- BATCH_RETURN (R289): one increment of RFLAG returns the oldest unreturned batch. -/
def batchReturn (q : Nat) (d : Dev) : Dev :=
  let x := d.fryQ q
  match x.closed, d.deviceNo (d.rd (Reg.FRY_EQA_PART q)) (d.rd (Reg.FRY_EQA_NCORE q)) with
  | (no, rows) :: r, some c =>
    if (d.flagVal c (d.rd (Reg.FRY_EQA_RFLAG q)) + 2 ^ 64 - x.seen) % 2 ^ 64 = 0 then d
    else
      let a := d.frySlotAddr q no
      let d := (List.range rows).foldl (fun d j => d.fryReturnRow q a j) d
      let d := d.setFryQ q { d.fryQ q with closed := r, seen := (x.seen + 1) % 2 ^ 64 }
      (d.wr (Reg.FRY_EQS_NEXTRET q) (no + 1)).fryWaiters q
  | _, _ => d

/-- A reset that reaches NCORE (R289): NFLAG shows the closed, unreturned batches and RFLAG is counted from 0. -/
def fryCoreReset (c : Nat) (d : Dev) : Dev :=
  (List.range 256).foldl (fun d q =>
    if d.flag (Reg.FRY_EQA_V q) ∧ d.deviceNo (d.rd (Reg.FRY_EQA_PART q)) (d.rd (Reg.FRY_EQA_NCORE q)) = some c then
      (d.updFryQ q fun x => { x with seen := 0 }).flagUpdate c (d.rd (Reg.FRY_EQA_NFLAG q)) 0 (d.fryQ q).closed.length
    else d) d

/-- RESULT (R290): written to STAGE at its slot's position; one of an old generation is discarded. -/
def fryResult (k : Nat) (b : List Byte) (d : Dev) : Dev :=
  let h := FryHdr.parse b
  let j := h.job
  match (d.fryJob j).desc with
  | none => d
  | some c =>
    let i := c.k * h.t + h.k
    let sentTo : Bool := match d.frySlotOf j i with | .sent a _ => decide (a = fryDest k) | _ => false
    if d.frySt j ≠ 2 ∨ h.gen ≠ d.fryGen j ∨ ¬ sentTo then d
    else if h.code ≠ 0 then (d.setFrySlot j i .failed).frySettle j
    else
      let ps := (h.off, b.drop 64) :: tabGet [] i (d.fryJob j).parts
      match d.vaWrite (d.fryPart j) none (c.stage + i * c.rrowb * 64 + h.off) (b.drop 64) with
      | (.error _, d) => (d.setFrySlot j i .failed).frySettle j
      | (.ok _, d) =>
        if (ps.map fun e => e.2.length).sum < c.rrowb * 64 then d.updFry j fun y => { y with parts := tabPut [] i ps y.parts }
        else
          let d := (d.setFrySlot j i .result).updFry j fun y => { y with parts := tabPut [] i [] y.parts }
          let lat := (d.now - tabGet 0 i (d.fryJob j).sentAt) / 64
          let d := if d.rd Reg.FRY_LATMAX_LAT < lat then
              (d.wr Reg.FRY_LATMAX_LAT (min lat (2 ^ 32 - 1))).wr Reg.FRY_LATMAX_STREAM (fryDest k - 1)
            else d
          (d.fryCombine j h.t).frySettle j

/-- FERRY_RELEASE (R285): unused grants come back. -/
def fryRelease (_k : Nat) (b : List Byte) (d : Dev) : Dev :=
  let h := FryHdr.parse b
  fryClose 2 h.queue ((d.updFryQ h.queue fun x =>
    { x with open_ := x.open_.map fun (z : FryBatch) => if z.no = h.batch then { z with granted := z.granted - h.rows } else z }).fryWaiters h.queue)

/-- The rows of the table that take a message. -/
def fryReqMsg (k : Nat) (b : List Byte) (d : Dev) : Dev := d.onMsg [fyREQ] k b fun d => d.fryReq k b
def fryGrantMsg (k : Nat) (b : List Byte) (d : Dev) : Dev := d.onMsg [fyGRANT] k b fun d => d.fryGrant k b
def fryRowMsg (k : Nat) (b : List Byte) (d : Dev) : Dev := d.onMsg [fyROW] k b fun d => d.fryRow k b
def fryResultMsg (k : Nat) (b : List Byte) (d : Dev) : Dev := d.onMsg [fyRESULT] k b fun d => d.fryResult k b
def fryReleaseMsg (k : Nat) (b : List Byte) (d : Dev) : Dev := d.onMsg [fyRELEASE] k b fun d => d.fryRelease k b

/-- JOB_GO (R282). -/
def jobGo (j : Nat) (d : Dev) : Dev := d.fryTrigger j
/-- JOB_WATCHDOG (R285): JWD after the trigger; 0 disables. -/
def jobWatchdog (j : Nat) (d : Dev) : Dev :=
  if d.frySt j = 2 ∧ d.rd Reg.FRY_BDL_JWD ≠ 0 then d.fryEnd j fsTIMEOUT else d
/-- JOB_ABORT (R293). -/
def jobAbort (j : Nat) (d : Dev) : Dev := if d.frySt j = 0 then d else d.fryEnd j fsABORTED

/-- ARMED jobs that watch a flag are triggered when it reaches TVAL (R282, R257). -/
def fryWatch (d : Dev) : Dev :=
  (List.range 16).foldl (fun d j =>
    match (d.fryJob j).desc with
    | some c =>
      if c.trig = 1 ∧ d.frySt j = 1 then
        match d.deviceNo (d.fryPart j) c.tcore with
        | some k => if c.tval ≤ d.flagVal k c.tflag then d.jobGo j else d
        | none => d
      else d
    | none => d) d

/-- A stream that fails (R248, R290): accepted slots on it fail, and so do those that still wait for it. -/
def fryStreamFail (k : Nat) (d : Dev) : Dev :=
  let d := { d with fryOut := d.fryOut.filter fun o => o.ctx ≠ k }
  (List.range 16).foldl (fun d j =>
    if d.frySt j ≠ 2 then d
    else
      let hit (s : FrySlot) : Bool := match s with | .sent a _ => decide (a = k + 1) | .waiting a _ => decide (a = k + 1) | _ => false
      let l := ((d.fryJob j).slots.filter fun e => hit e.2).map Prod.fst
      if l = [] then d else (l.foldl (fun d i => d.setFrySlot j i .failed) d).frySettle j) d

/-- A partition's jobs end ABORTED, its queues' open batches are discarded and their grants returned (R293). -/
def fryPartEnd (p : Nat) (d : Dev) : Dev :=
  let d := (List.range 16).foldl (fun d j => if d.frySt j ≠ 0 ∧ d.fryPart j = p then d.fryEnd j fsABORTED else d) d
  (List.range 256).foldl (fun d q =>
    if d.rd (Reg.FRY_EQA_PART q) = p ∧ (d.fryQ q) ≠ FryQ.reset then d.updFryQ q fun x => { x with open_ := [], waitq := [] } else d) d

end Dev
end Sys2Proof.Machine
end

