-- ==== Sys2Proof/Machine/StreamEvents.lean ====
section
/-!
DEFINITION. What stream events and flag updates start in the engines: a failed stream (R248, R273, R290), a freed window (R247), a
watched flag (R257, R282).
-/
namespace Sys2Proof.Machine.Dev

/-- Slots and jobs that watch a flag look again after an update (R257, R282). -/
def watch (d : Dev) : Dev := d.cfWatch.fryWatch

/-- The counter values at which a context's deadline rules fail it (R248). -/
def failTimes (d : Dev) (k : Nat) : List Nat :=
  let x := d.ctx k
  (x.unacked.map fun p => d.pastAt ((p.deadline + d.rd Reg.STM_TIME_ACKWAIT) % 2 ^ 32)) ++ (x.held.map fun p => d.pastAt p.deadline)
    ++ x.partial_.map fun e => d.pastAt e.deadline

/-- A context fails, and with it what its engines had sent on it. -/
def streamFailNow (k : Nat) (d : Dev) : Dev := ((d.ctxFail k).cfStreamFail k).fryStreamFail k

/-- STREAM_FAIL (R248): the earliest of a context's deadlines passes. -/
def streamFail (k : Nat) (d : Dev) : Dev :=
  match d.failTimes k with
  | [] => d
  | t :: r => (d.advanceTo (r.foldl min t)).streamFailNow k

/-- ACK with what it lets the engines send (R247). -/
def streamAck (p : Pkt) (d : Dev) : Dev := ((d.ackPkt p).cfFlushAll).fryFlush

/-- A FLAG packet, or a held packet applied, with the slots and jobs that watch (R158, R257). -/
def streamFlag (p : Pkt) (d : Dev) : Dev := (d.flagPkt p).watch
def streamFlagged (k : Nat) (ue : Bool) (d : Dev) : Dev := (d.flaggedApply k ue).watch

end Sys2Proof.Machine.Dev
end

