-- ==== Sys2Proof/Machine/Bell.lean ====
section
/-!
DEFINITION. The bell unit (R295 to R304): the counter's sources, Table BL-1, frames, holdover, and TIME flits. Steering changes only
the counter's rate, which is timing; the counter's value changes as Bell time tells it: by the ticks that a command carries, by the
load of Table BL-1 and by FORCE.
-/
namespace Sys2Proof.Machine

/-- CRC-16 of R297: polynomial 0x1021, initial value 0xFFFF, most significant bit first. -/
def crc16 (bits_ : List Nat) : Nat :=
  bits_.foldl (fun c b =>
    let top := (c / 2 ^ 15 + b) % 2
    let c := c * 2 % 2 ^ 16
    if top = 1 then Nat.xor c 0x1021 else c) 0xFFFF

/-- The value of bits, most significant first. -/
def msbNat (l : List Nat) : Nat := l.foldl (fun a b => 2 * a + b) 0

/-- The frame in 96 collected symbols: T, when it is valid (R297). -/
def frameOf (l : List Nat) : Option Nat :=
  let body := (l.drop 1).take 64
  let t := msbNat body
  if l.length = 96 ∧ l.headD 0 = 2 ∧ (l.drop 1).all (fun s => s < 2) ∧ msbNat ((l.drop 65).take 16) = crc16 body ∧ t % 4000 = 0 then some t
  else none

/-- SLEWMAX in 1/16 tick (R296). -/
def slewMax16 : Nat := 64000

namespace Dev

def blState (d : Dev) : Nat := d.rd Reg.BL_STAT_STATE
def bsUNLOCKED : Nat := 0
def bsREFLOCK : Nat := 1
def bsLINKLOCK : Nat := 2
def bsHOLDOVER : Nat := 3
def bsFREE : Nat := 4

/-- REFDLY, signed, in 1/16 tick (R298). -/
def refDly (d : Dev) : Int := (BitVec.ofNat 32 (d.rd Reg.BL_REFDLY_DLY)).toInt

/-- Changes the bell state (Table BL-1): the event, and what entering or leaving FREE does (R304, R363). -/
def blGo (st : Nat) (d : Dev) : Dev :=
  if d.blState = st then d
  else
    let was := d.blState
    let d := (d.wr Reg.BL_STAT_STATE st).irqEvent 1280
    let d := { d with bell := { d.bell with since := d.now } }
    let d := if st = bsHOLDOVER then d.incSat Reg.BL_CNT_HOLDS 1 else d
    if st = bsFREE then
      ((({ d with bellQuiet := true }.setF Reg.BL_STAT_FREEEV).irqEvent 1282).err 8 { sev := 2, cls := 0x40, qscope := 2 }).quietPin
    else if was = bsFREE then { d with bellQuiet := false }.quietPin
    else d

/-- A measured source error in 1/16 tick (R296): BL_ERR, and SLEWING above 16 ticks. -/
def blErr (e : Int) (d : Dev) : Dev :=
  let s := max (min e (2 ^ 31 - 1)) (-(2 ^ 31))
  let m := min e.natAbs (2 ^ 32 - 1)
  let d := (d.wr Reg.BL_ERR_ERR (BitVec.ofInt 32 s).toNat).wr Reg.BL_ERR_ERRMAX (max m (d.rd Reg.BL_ERR_ERRMAX))
  d.wr Reg.BL_STAT_SLEWING (b2n (decide (256 < e.natAbs)))

/-- A candidate of BL_SRC: its link, when V = 1 (R300). -/
def blCands (d : Dev) : List Nat :=
  ((List.range 4).filter fun i => bit (d.rd Reg.BL_SRC_CAND) (8 * i + 5)).map fun i => bits (d.rd Reg.BL_SRC_CAND) (8 * i + 4) (8 * i)

/-- A link's offset, signed, in 1/16 tick: the neighbour's time less the counter. -/
def lkOffset (d : Dev) (l : Nat) : Int := (BitVec.ofNat 32 (d.rd (Reg.LNK_TIME_OFFSET l))).toInt

/-- Usable apart from its error (R300): ACTIVE, an exchange within 100 µs, a locked neighbour with DEPTH below 15. -/
def lkUsable (d : Dev) (l : Nat) : Bool :=
  let x := d.link l
  d.lkState l = lkACTIVE && (x.nbState = bsREFLOCK || x.nbState = bsLINKLOCK) && decide (x.nbDepth < 15)
    && (match x.lastEx with | some t => decide (d.now ≤ t + 400000) | none => false)
def lkUsableErr (d : Dev) (l : Nat) : Bool := d.lkUsable l && decide ((d.lkOffset l).natAbs ≤ slewMax16)

/-- Takes a link as the source (R300). -/
def blLink (l : Nat) (d : Dev) : Dev :=
  ((d.wr Reg.BL_STAT_SRCLINK l).wr Reg.BL_STAT_DEPTH ((d.link l).nbDepth + 1)).blGo bsLINKLOCK
def blRef (d : Dev) : Dev := (d.wr Reg.BL_STAT_DEPTH 0).blGo bsREFLOCK

/-- The source is lost (Table BL-1): the first usable candidate outside `not`, when links may be taken, or HOLDOVER. -/
def blLost (links : Bool) (not : List Nat) (d : Dev) : Dev :=
  match (if links then d.blCands.find? fun l => d.lkUsableErr l && !(not.contains l) else none) with
  | some l => (d.incSat Reg.BL_CNT_SWITCHES 1).blLink l
  | none => d.blGo bsHOLDOVER

/-- A source error above SLEWMAX (Table BL-1). -/
def blBig (d : Dev) : Dev :=
  let d := (d.setF Reg.BL_STAT_BIGERR).irqEvent 1281
  if d.blState = bsREFLOCK then d.blLost (d.flag Reg.BL_CTL_FALLBK) []
  else if d.blState = bsLINKLOCK then d.blLost true [d.rd Reg.BL_STAT_SRCLINK]
  else d

/-- The error of the edge nearest to a multiple of 4,000 ticks, in 1/16 tick (R297, R298). -/
def edgeErr (d : Dev) : Int :=
  let x : Int := 16 * d.now - d.refDly
  (x + 32000) / 64000 * 64000 - x

/-- MARKER_EDGE (R297, R299): an edge `dt` ticks after the last one that the model saw, with the symbol of its high time: 0, 1, 2 the
frame mark, 3 undecodable. A locked counter is steered by it; an edge more than 50 ns from its time counts as misplaced. -/
def markerEdge (dt sym : Nat) (d : Dev) : Dev :=
  let d := { d with now := d.now + dt }
  let d := { d with bell := { d.bell with syms := if sym = 2 then [2] else if d.bell.syms = [] then [] else (d.bell.syms ++ [sym]).take 97 } }
  if d.blState ≠ bsREFLOCK then d
  else
    let e := d.edgeErr
    if 3200 < e.natAbs then { d with bell := { d.bell with missing := d.bell.missing + 1 } }.incSat Reg.BL_CNT_MISSEDGE 1
    else { d with bell := { d.bell with missing := 0 } }.blErr e

/-- A source's bell time against the counter, in 1/16 tick: ahead loads, behind steers (R295, R298). -/
def blStep (e : Int) (d : Dev) : Dev := if 0 ≤ e then { d with now := d.now + (e / 16).toNat }.blErr (e % 16) else d.blErr e

/-- FRAME (R298): the 96 periods since the frame mark end, at the next mark edge, `dt` ticks on. -/
def frame (dt : Nat) (d : Dev) : Dev :=
  let d := { d with now := d.now + dt }
  if d.bell.syms.length < 96 then d
  else
    match frameOf (d.bell.syms.take 96) with
    | none => { d with bell := { d.bell with syms := [], prevT := none } }.incSat Reg.BL_CNT_BADFRAME 1
    | some t =>
      let agree : Bool := d.bell.prevT = some (t - 384000) && decide (384000 ≤ t)
      let e : Int := 16 * t + d.refDly - 16 * d.now
      let d := { d with bell := { d.bell with syms := [], prevT := some t, ticks := d.now } }
      let ref := d.flag Reg.BL_CTL_EN ∧ d.rd Reg.BL_CTL_SRCSEL = 0
      let expected : Int := (16 * d.now - d.refDly + 32000) / 64000 * 4000
      if d.blState = bsREFLOCK then
        (if expected = t then { d with bell := { d.bell with bad := 0 } }
         else
          let d := ({ d with bell := { d.bell with bad := d.bell.bad + 1 } }.incSat Reg.BL_CNT_BADFRAME 1).blErr e
          if slewMax16 < e.natAbs then d.blBig else d)
      else if ¬ ref ∨ ¬ agree then d
      else if d.blState = bsUNLOCKED then
        (if 0 ≤ e ∨ e.natAbs ≤ slewMax16 then { d.blStep e with bell := { (d.blStep e).bell with bad := 0, missing := 0 } }.blRef else d.blErr e)
      else if d.blState = bsHOLDOVER ∨ d.blState = bsFREE then
        (if e.natAbs ≤ slewMax16 then { d.blErr e with bell := { (d.blErr e).bell with bad := 0, missing := 0 } }.blRef
         else ((d.blErr e).setF Reg.BL_STAT_BIGERR).irqEvent 1281)
      else d

/-- REFERENCE_LOST (R299): `missed` edges have not come since the last one, which with the misplaced ones before them are four in a
row; or two valid frames in a row have disagreed. -/
def referenceLost (missed : Nat) (d : Dev) : Dev :=
  if d.blState ≠ bsREFLOCK then d
  else
    let d := { d with bell := { d.bell with missing := d.bell.missing + missed } }.incSat Reg.BL_CNT_MISSEDGE missed
    if 4 ≤ d.bell.missing ∨ 2 ≤ d.bell.bad then
      { d with bell := { d.bell with missing := 0, bad := 0, prevT := none, syms := [] } }.blLost (d.flag Reg.BL_CTL_FALLBK) []
    else d

/-- SOURCE_LINK_UNUSABLE (R300). -/
def sourceLinkUnusable (d : Dev) : Dev :=
  if d.blState = bsLINKLOCK then d.blLost true [d.rd Reg.BL_STAT_SRCLINK] else d

/-- HOLDOVER_EXPIRY (R303, R304): HOLDLIM, at most 10 s, has passed since the entry into HOLDOVER. -/
def holdoverExpiry (d : Dev) : Dev :=
  if d.blState = bsHOLDOVER then (d.advanceTo (d.bell.since + 1024 * min (d.rd Reg.BL_CTL_HOLDLIM) 0x2540BE4)).blGo bsFREE else d

/-- The error of the reference, from the last valid frame, in 1/16 tick. -/
def refErr (d : Dev) : Option Int := d.bell.prevT.map fun t => 16 * (t : Int) + d.refDly - 16 * d.bell.ticks

/-- FORCE (Table BL-1): the selected source, usable apart from its error, is accepted. -/
def force (d : Dev) : Dev :=
  if d.blState ≠ bsHOLDOVER ∧ d.blState ≠ bsFREE then d
  else
    let links := d.rd Reg.BL_CTL_SRCSEL = 1 ∨ d.flag Reg.BL_CTL_FALLBK
    match (if d.rd Reg.BL_CTL_SRCSEL = 0 then d.refErr else none), (if links then d.blCands.find? d.lkUsable else none) with
    | some e, _ => (d.blStep e).blRef
    | none, some l => (d.blStep (d.lkOffset l)).blLink l
    | none, none => d

/-- BELL_EN_CLEAR (Table BL-1). -/
def bellEnClear (d : Dev) : Dev := (d.clrF Reg.BL_CTL_EN).blGo bsUNLOCKED

/-- What a completed exchange does to the bell unit (R296, R300). -/
def bellExchange (l : Nat) (off : Int) (d : Dev) : Dev :=
  let links := d.flag Reg.BL_CTL_EN ∧ (d.rd Reg.BL_CTL_SRCSEL = 1 ∨ d.flag Reg.BL_CTL_FALLBK)
  if d.blState = bsLINKLOCK ∧ d.rd Reg.BL_STAT_SRCLINK = l then
    let d := (d.blErr off).wr Reg.BL_STAT_DEPTH ((d.link l).nbDepth + 1)
    if slewMax16 < off.natAbs then d.blBig else d
  else if d.blState = bsUNLOCKED ∧ d.flag Reg.BL_CTL_EN ∧ d.rd Reg.BL_CTL_SRCSEL = 1 then
    match d.blCands.find? fun c => d.lkUsable c && decide (8 ≤ (d.link c).exchanges) with
    | some c =>
      let e := d.lkOffset c
      if 0 ≤ e ∨ e.natAbs ≤ slewMax16 then (d.blStep e).blLink c else d.blErr e
    | none => d
  else if (d.blState = bsHOLDOVER ∨ d.blState = bsFREE) ∧ links then
    match d.blCands.find? d.lkUsableErr with
    | some c => (d.blErr (d.lkOffset c)).blLink c
    | none => d
  else d

/-- TIME (R231, R296, R300): a TIME flit received `dt` ticks on, and what its exchange does. -/
def timeFlit (l dt : Nat) (h : FlitHdr) (b : TimeBody) (sub : Nat) (d : Dev) : Dev :=
  let r := takeTime l h b sub { d with now := d.now + dt }
  match r.1 with
  | some x => r.2.bellExchange l x.1
  | none => r.2

/-- RESHAPE_DRAIN (R252, R301): the LINKS are drained, and a source link among them is left at once. -/
def reshapeDrain (d : Dev) : Dev :=
  let d := d.drainLinks
  let out := (List.range 32).filter fun l => bit d.draining l
  if d.flag Reg.RTE_RESHAPE_ARMED ∧ d.blState = bsLINKLOCK ∧ out.contains (d.rd Reg.BL_STAT_SRCLINK) then d.blLost true out else d

/-- BL_CTL written whole (R296): EN and FORCE act, the other fields are stored. -/
def blCtl (en src fall force_ : Bool) (lim : Nat) (d : Dev) : Dev :=
  let d := ((d.wr Reg.BL_CTL_SRCSEL (b2n src)).wr Reg.BL_CTL_FALLBK (b2n fall)).wr Reg.BL_CTL_HOLDLIM lim
  let d := if en then d.setF Reg.BL_CTL_EN else d.bellEnClear
  if force_ then d.force else d

end Dev
end Sys2Proof.Machine
end

