-- ==== Sys2Proof/Machine/CoreReset.lean ====
section
/-!
DEFINITION. A reset that reaches one core (R45, R75, R83, R98, R127, R145, R146, R148, R161, R162, R174, R190), the start of a
core on a command's program (R52), and what ends a part at a core (R327).
-/
namespace Sys2Proof.Machine.Dev

/-- The register fields of a core's window (Table GL-14), but for its epoch and its microprogram set, which no core reset
touches (R143, R162). -/
def coreKept (c k : Nat) : Bool :=
  let a := k / 64
  let base := 0x1000000 + 0x10000 * c
  !(decide (base ≤ a ∧ a < base + 0x10000)) || a = Reg.SY_EPOCH c || (decide (base + 0x4000 ≤ a ∧ a < base + 0x4028))

/-- The core's state after a reset: the tile store and the core's place stay; a stop request that stands stops it again. -/
def coreBlank (x : Core) : Core :=
  let why := Nat.land x.stopReq 13
  let g : Eng := { Eng.reset with stopped := decide (why ≠ 0) }
  { Core.reset with onSpare := x.onSpare, ts := x.ts, stopReq := why, e0 := g, e1 := g, e2 := g, e3 := g }

/-- CORE_RESET: everything the core holds returns to its reset values, every flag to 0 (R161), and its epoch advances (R162). -/
def coreReset (c : Nat) (d : Dev) : Dev :=
  let p := d.coreOwner c
  let epoch := (d.rd (Reg.SY_EPOCH_EPOCH c) + 1) % 2 ^ 32
  let d := { d with regs := tabKeep (coreKept c) d.regs }
  let d := (d.wr (Reg.SY_EPOCH_EPOCH c) epoch).updCore c coreBlank
  let d := match p with
    | some p => (List.range 64).foldl (fun (d : Dev) n =>
        let h := d.pass p n
        if h.waiters.contains c then d.setPass p n { h with waiters := h.waiters.filter fun k => k ≠ c } else d) d
    | none => d
  d.fryCoreReset c

/-- A core begins a command's program (R52, R83, R145, R146, R329): its registers are zero but for those that `args` sets, its
mode fields, slots and contexts hold their start values, RSEQ is 0. The stations, flags and tile store are not changed. -/
def coreBegin (c p slot : Nat) (pc : BitVec 48) (args : List (Nat × Nat)) (d : Dev) : Dev :=
  let d := [0, 1, 2, 3].foldl (fun (d : Dev) e => d.setValid c e false) (d.clrF (Reg.SQ_TRAP_INTRAP c))
  d.updCore c fun x =>
    let why := Nat.land x.stopReq 31
    -- a store that its stream gave up is waited for no longer
    let live (g : Eng) : List (Nat × Nat) := g.remote.filter fun y => (d.ctx y.1).ops.any fun o => o.last = y.2
    let e (g : Eng) : Eng := { Eng.reset with stopped := g.stopped && decide (why ≠ 0), remote := live g }
    let x : Core :=
      { x with s := [], preds := 0, lc := [], pc := pc, tvec := 0, fdisp := false, run := true, slot := none, skipSlot := none, loops := [],
               obj := none, loadWait := none, stallWord := 0, rcRec := [], cmd := some (p, slot), part := .running, partCause := 0,
               faultStop := false, stopReq := why, stepHold := false, e0 := e x.e0, e1 := e x.e1, e2 := e x.e2, e3 := e x.e3,
               mx := { Mx.reset with chk := x.mx.chk, lad0 := [], lad1 := [] }, vx := Vx.reset, dm := Dm.reset }
    args.foldl (fun x a => x.setSr a.1 (BitVec.ofNat 64 a.2)) x

/-- A core's part has ended (R327): it failed, or its program has halted and its engines are empty with every DMA unit resolved. -/
def corePartEnded (d : Dev) (c : Nat) : Bool :=
  let x := d.core c
  match x.part with
  | .failed _ => true
  | _ => !x.run && x.e1.queue.isEmpty && x.e2.queue.isEmpty && x.e3.queue.isEmpty && x.dm.job.isNone
      && x.e1.releasing.isNone && x.e2.releasing.isNone && x.e3.releasing.isNone

end Sys2Proof.Machine.Dev
end

