-- ==== Sys2Proof/Machine/Intake.lean ====
section
/-!
DEFINITION. Accepted work (R316 to R335): doorbells, acceptance, the journal records and where they lie, the start of a command,
its end, the flip, the reports, replay, and the loss of a stack pair.
-/
namespace Sys2Proof.Machine

/-- A command entry (Table AW-1). -/
structure CmdEnt where
  seq : Nat
  op : Nat
  cirq : Bool
  cidx : Bool
  norep : Bool
  nout : Nat
  nlist : Nat
  first : Nat
  ncore : Nat
  pc : Nat                      -- PC, LIST or WRING
  args : Nat                    -- ARGS or WSEQ
  outl : Nat
  smask : Nat
  user : Nat
  rpt : Nat
  rsv : Bool                    -- a reserved field is nonzero
  deriving DecidableEq, Repr

def cmdEnt (b : List Byte) : CmdEnt :=
  let f := byteField b 9 1
  { seq := byteField b 0 8, op := byteField b 8 1, cirq := bit f 0, cidx := bit f 1, norep := bit f 2, nout := byteField b 10 1,
    nlist := byteField b 11 1, first := byteField b 12 1, ncore := byteField b 13 1, pc := byteField b 16 8, args := byteField b 24 8,
    outl := byteField b 32 8, smask := byteField b 40 4, user := byteField b 48 8, rpt := byteField b 56 8,
    rsv := bits f 7 3 ≠ 0 || byteField b 14 2 ≠ 0 || byteField b 44 4 ≠ 0 }

/-- Whether an entry fails its checks for a partition of n cores (R319, R321). -/
def CmdEnt.bad (c : CmdEnt) (n : Nat) : Bool :=
  let far (a : Nat) : Bool := decide (2 ^ 48 ≤ a)
  let listed := c.op = 2 || c.op = 3
  c.rsv || decide (4 < c.op) || decide (32 < c.nout) || far c.rpt || (decide (c.nout ≠ 0) && far c.outl)
    || (if listed then decide (c.nlist = 0 ∨ 16 < c.nlist) || far c.pc else decide (c.nlist ≠ 0))
    || (c.op = 1 && (decide (c.ncore = 0 ∨ 144 < c.ncore ∨ n < c.first + c.ncore) || far c.pc || (decide (c.smask ≠ 0) && far c.args)))
    || (c.op = 4 && decide (64 ≤ c.pc))

/-- The code of a journal state (Table AW-5). -/
def JState.code : JState → Nat
  | .free => 0
  | .accepted => 1
  | .running => 2
  | .committing => 3
  | .reporting => 4

/-- The bytes of a record (Table AW-4). -/
def recBytes (p : Nat) (r : JRec) : List Byte :=
  let pad (n : Nat) (l : List Byte) : List Byte := (l ++ List.replicate n 0).take n
  leBytes 4 0x4A4E4C31 ++ leBytes 1 r.st.code ++ leBytes 1 r.replays ++ leBytes 1 r.status ++ leBytes 1 r.cause ++ leBytes 8 r.jseq
    ++ leBytes 1 r.ring ++ leBytes 1 p ++ leBytes 1 r.detail ++ leBytes 1 0 ++ leBytes 4 r.npage ++ leBytes 8 r.tacc
    ++ leBytes 8 r.tstart ++ leBytes 8 r.tend ++ List.replicate 16 0 ++ pad 64 r.entry ++ pad 256 r.args ++ pad 512 r.outl
    ++ (List.range 32).flatMap (fun o => leBytes 8 (tabGet 0 o r.failmap)) ++ pad 128 r.list ++ List.replicate 768 0

namespace Dev

def ringAcc (d : Dev) (p r : Nat) : Nat := d.rd (Reg.RING_ACC_ACC p r)
def ringDone (d : Dev) (p r : Nat) : Nat := d.rd (Reg.RING_DONE_DONE p r)
def ringSize (d : Dev) (p r : Nat) : Nat := 2 ^ d.rd (Reg.RING_BASE_SIZELOG p r)

/-- The management island's copy of a ring's ACC and DONE (R332). -/
def islandNote (p r : Nat) (d : Dev) : Dev :=
  { d with islandRings := tabPut (0, 0) (p * 64 + r) (d.ringAcc p r, d.ringDone p r) d.islandRings }

/-- GUARANTEE_END_RECORD (R332, Table AW-8). -/
def guaranteeEnd (reason mask : Nat) (d : Dev) : Dev :=
  let rings := (List.range 512).flatMap fun k =>
    let x := tabGet (0, 0) k d.islandRings
    leBytes 8 x.1 ++ leBytes 8 x.2
  { d with log := d.log ++ [leBytes 8 d.now ++ leBytes 1 reason ++ leBytes 1 mask ++ leBytes 6 0 ++ rings] }

/-- DOORBELL (R317): D := V, or the write is ignored with DBERR. -/
def doorbell (p r v : Nat) (d : Dev) : Dev :=
  let x := d.ring p r
  if v < x.d ∨ d.ringAcc p r + d.ringSize p r < v then (d.setF (Reg.RING_STAT_DBERR p r)).irqEvent (3840 + 32 * p + 16)
  else d.setRing p r { x with d := v }

/-! Where records lie (R323, R324). -/

def pairLost (d : Dev) (k : Nat) : Bool := bit (d.rd Reg.JNL_STAT_LOSTPAIR) k

/-- The substitute for a lost stack: two stacks on, lost pairs skipped. -/
def substitute (d : Dev) : Nat → Nat → Option Nat
  | 0, _ => none
  | n + 1, s => let t := (s + 2) % 12; if d.pairLost (t / 2) then substitute d n t else some t

/-- The ordinary stacks of a slot's two copies (Table AW-3). -/
def recStacks (g : Nat) : List Nat := [2 * (g % 6), (2 * (g % 6) + 7) % 12]
/-- The place of a copy that belongs on stack s. -/
def recPlace (d : Dev) (g s : Nat) : Option (Nat × Nat) :=
  let o := 2048 * (g / 6)
  if d.pairLost (s / 2) then (d.substitute 5 s).map fun t => (t, 0xC00000 + o) else some (s, o)
def recPlaces (d : Dev) (g : Nat) : List (Nat × Nat) := (recStacks g).filterMap (d.recPlace g)

/-- Stores a record and writes its copies (R325). -/
def putRec (g : Nat) (r : JRec) (d : Dev) : Dev :=
  r.copies.foldl (fun d c => d.locWrite c.1 c.2 (recBytes (g / 4096) r)) (d.setJr g r)

/-- The records of a partition that are not FREE, by slot within the partition. -/
def recsOf (d : Dev) (p : Nat) : List (Nat × JRec) :=
  (d.jrec.filter fun e => e.1 / 4096 = p).map fun e => (e.1 % 4096, e.2)
/-- INUSE (JNL_PSTAT). -/
def inUse (d : Dev) (p : Nat) : Nat := (d.recsOf p).length

/-- The lowest journal slot that an acceptance may take: free, and not of a group that awaits its rewriting (R321, R324). -/
def freeSlot (d : Dev) (p : Nat) : Option Nat :=
  (List.range (d.rd (Reg.JNL_PSIZE_SLOTS p))).find? fun i =>
    (d.jr (slotBase p + i)).st = .free &&
      !(d.flag Reg.JNL_STAT_REMIRROR && (recStacks (slotBase p + i)).any fun s => d.pairLost (s / 2))

/-! The reserve (R344). -/

/-- The pages of a partition's reserve, free or shadowing. -/
def reservePages (d : Dev) (p : Nat) : List Nat := (d.rsv.filter fun e => e.2 = p + 1).map Prod.fst
def freePages (d : Dev) (p : Nat) : List Nat :=
  (d.reservePages p).filter fun g => !((d.part p).shadows.any fun s => s.shadow = g)

/-- The 2 MiB pages that the INPLACE and OVERWRITE ranges touch (R321). -/
def shadowPages (l : List OutEnt) : List Nat :=
  ((l.filter fun o => o.kind ≠ 1).flatMap fun o =>
    (List.range ((o.addr + o.len - 1) / pageBytes + 1 - o.addr / pageBytes)).map fun i => o.addr / pageBytes + i).eraseDups

/-- The OVERWRITE ranges within a page, as offsets from and to. -/
def ovwRanges (l : List OutEnt) (v : Nat) : List (Nat × Nat) :=
  (l.filter fun o => o.kind = 3 && rangesMeet o.addr o.len (v * pageBytes) pageBytes).map fun o =>
    (max o.addr (v * pageBytes) - v * pageBytes, min (o.addr + o.len) ((v + 1) * pageBytes) - v * pageBytes)

/-- A declared page's leaf: a 2 MiB stage-2 leaf to HBM (R344). The cause is 1 ENTRY, or 2 TRANSLATION for a poisoned table. -/
def declaredLeaf (d : Dev) (p v : Nat) : Except Nat Leaf :=
  match d.walk p (v * pageBytes) with
  | .ok l => if l.tgt = 0 ∧ ¬ l.big then .ok l else .error 1
  | .error .poison => .error 2
  | .error _ => .error 1

def declaredLeaves (d : Dev) (p : Nat) : List Nat → Except Nat (List (Nat × Leaf))
  | [] => .ok []
  | v :: r =>
    match d.declaredLeaf p v, declaredLeaves d p r with
    | .ok l, .ok t => .ok ((v, l) :: t)
    | .error e, _ => .error e
    | _, .error e => .error e

/-! Reports (R330, R331). -/

/-- Whether the partition's host writes are open (Table FT-1). -/
def writesOpen (d : Dev) (p : Nat) : Bool := !(d.isQuiet p)
def cqAddr (d : Dev) (p r seq : Nat) : Nat := d.rd (Reg.CQ_BASE_BASE p r) * 64 + 32 * (seq % d.ringSize p r)
/-- Whether a completion record can be written now (R361, R458). -/
def canReport (d : Dev) (p r : Nat) : Bool :=
  d.writesOpen p && !(d.hostHeld p (d.cqAddr p r (d.ringDone p r)) 32)

/-- The 0 to 1 change of a ring's EN takes effect once ACC = DONE (R334). -/
def ringEnableTry (p r : Nat) (d : Dev) : Dev :=
  let x := d.ring p r
  if ¬ x.enReq ∨ d.ringAcc p r ≠ d.ringDone p r then d
  else
    let h := d.rd (Reg.CQ_HEAD_HEAD p r)
    let d := ((d.setF (Reg.RING_CFG_EN p r)).clrF (Reg.RING_STAT_STOPPED p r)).setRing p r { x with enReq := false, d := h }
    ((d.wr (Reg.RING_ACC_ACC p r) h).wr (Reg.RING_DONE_DONE p r) h).islandNote p r

/-- RING_ENABLE (R334): EN := 1 written to RING_CFG. -/
def ringEnable (p r : Nat) (d : Dev) : Dev :=
  if d.flag (Reg.RING_CFG_EN p r) then d else (d.setRing p r { d.ring p r with enReq := true }).ringEnableTry p r

/-- A write to RING_CFG (R317, R334). -/
def ringCfg (p r : Nat) (en : Bool) (step : Nat) (d : Dev) : Dev :=
  let d := d.wr (Reg.RING_CFG_TTSTEP p r) step
  if en then d.ringEnable p r else (d.clrF (Reg.RING_CFG_EN p r)).setRing p r { d.ring p r with enReq := false }

/-- Writes a completion record (Table AW-7) and advances DONE; a record that its translation refuses is lost. -/
def report (p r seq : Nat) (body : List Byte) (cirq : Bool) (d : Dev) : Dev :=
  let d := (d.vaWrite p none (d.cqAddr p r seq) (leBytes 8 seq ++ body)).2
  let d := (d.wr (Reg.RING_DONE_DONE p r) (seq + 1)).islandNote p r
  let d := d.setRing p r { d.ring p r with headAt := d.now }
  if cirq then d.irqEvent (3840 + 32 * p + r / 4) else d

def compBody (status cause replays detail jseq user tend : Nat) : List Byte :=
  leBytes 1 status ++ leBytes 1 cause ++ leBytes 1 replays ++ leBytes 1 detail ++ leBytes 4 jseq ++ leBytes 8 user ++ leBytes 8 tend

/-- Reports rejected entries whose turn has come. A rejected entry has no JSEQ: the spec states no value for the field. -/
def flushRej : Nat → Nat → Nat → Dev → Dev
  | 0, _, _, d => d
  | n + 1, p, r, d =>
    match (d.ring p r).rej with
    | (seq, cause, user, cirq) :: t =>
      if seq ≠ d.ringDone p r ∨ ¬ d.canReport p r then d
      else
        let k := d.fresh
        flushRej n p r ((k.2.setRing p r { k.2.ring p r with rej := t }).report p r seq (compBody 4 cause 0 0 k.1 user d.now) cirq)
    | [] => d.ringEnableTry p r

/-- REJECTED (R321): ACC advances, and the completion record is written in its turn. -/
def reject (p r seq cause user : Nat) (cirq : Bool) (d : Dev) : Dev :=
  let x := d.ring p r
  let d := (d.setRing p r { x with rej := x.rej ++ [(seq, cause, user, cirq)] }).wr (Reg.RING_ACC_ACC p r) (seq + 1)
  (d.islandNote p r).flushRej (x.rej.length + 1) p r

/-- Reads n bytes for the intake through the partition's translation (R316). -/
def intakeRead (p va n : Nat) (d : Dev) : Option (List Byte) × Dev :=
  if n = 0 then (some [], d)
  else
    match d.vaRead p none va n with
    | (.ok b, d) => (some b, d)
    | (.error _, d) => (none, d)

/-- The blocks that an entry names (R321): argument block, output list, arm list; none where a read faults. -/
def readBlocks (p : Nat) (c : CmdEnt) (d : Dev) : Option (List Byte × List Byte × List Byte) × Dev :=
  let a := d.intakeRead p c.args (if c.op = 1 ∧ c.smask ≠ 0 then 256 else 0)
  let o := a.2.intakeRead p c.outl (16 * c.nout)
  let l := o.2.intakeRead p c.pc (8 * c.nlist)
  match a.1, o.1, l.1 with
  | some x, some y, some z => (some (x, y, z), l.2)
  | _, _, _ => (none, l.2)

/-- The journal record and the shadows of an acceptance; ACC advances (R321, R322, R328). -/
def acceptCmd (p r i : Nat) (c : CmdEnt) (entry args outl list : List Byte) (leaves : List (Nat × Leaf)) (d : Dev) : Dev :=
  let g := slotBase p + i
  let jseq := d.rd (Reg.JNL_JSEQ_JSEQ p)
  let outs := outEnts c.nout outl
  let sh := (leaves.zip (d.freePages p)).map fun x =>
    ({ slot := i, va := x.1.1, leaf := leNat (tabGetList 0 x.1.2.leafAddr 8 d.hbm), shadow := x.2, leafAddr := x.1.2.leafAddr,
       ovw := ovwRanges outs x.1.1, copying := false, filled := false, copied := false } : Shadow)
  let rec_ : JRec :=
    { JRec.reset with st := .accepted, jseq := jseq, ring := r, npage := leaves.length, tacc := d.now, entry := entry, args := args,
                      outl := outl, list := list, copies := d.recPlaces g, seq := c.seq }
  let d := d.updPart p fun x => { x with shadows := x.shadows ++ sh, accJseq := jseq }
  let d := ((d.wr (Reg.JNL_JSEQ_JSEQ p) (jseq + 1)).putRec g rec_).wr (Reg.RING_ACC_ACC p r) (c.seq + 1)
  let d := if d.ringDone p r = c.seq then d.setRing p r { d.ring p r with headAt := d.now } else d
  d.islandNote p r

/-- Tries the entry at ACC of a ring (R318, R321); none where it must wait at ACC. -/
def tryAccept (p r i : Nat) (d : Dev) : Option Dev :=
  let acc := d.ringAcc p r
  let a := d.rd (Reg.RING_BASE_BASE p r) * 64 + 64 * (acc % d.ringSize p r)
  if d.hostHeld p a 64 then none
  else
    match d.intakeRead p a 64 with
    | (none, d) => let k := d.fresh; some (k.2.reject p r acc 2 (k.1 / 2 % 2 ^ 64) (bit k.1 0))
    | (some b, d) =>
      let c := cmdEnt b
      if c.seq ≠ acc then
        some ((((d.setF (Reg.RING_STAT_SEQERR p r)).setF (Reg.RING_STAT_STOPPED p r)).clrF (Reg.RING_CFG_EN p r)).irqEvent
          (3840 + 32 * p + 16))
      else if c.bad (d.coresOf p).length then some (d.reject p r acc 1 c.user c.cirq)
      else if (c.op = 1 ∧ c.smask ≠ 0 ∧ d.hostHeld p c.args 256) ∨ (c.nout ≠ 0 ∧ d.hostHeld p c.outl (16 * c.nout))
          ∨ (c.nlist ≠ 0 ∧ d.hostHeld p c.pc (8 * c.nlist)) then none
      else
        match d.readBlocks p c with
        | (none, d) => some (d.reject p r acc 2 c.user c.cirq)
        | (some (args, outl, list), d) =>
          let outs := outEnts c.nout outl
          let badOut := outs.any fun o => o.bad || ((c.op = 2 || c.op = 3) && decide (o.kind ≠ 1))
          let badArm := (List.range c.nlist).any fun k => bits (byteField list (8 * k) 8) 63 54 ≠ 0
          if badOut ∨ badArm then some (d.reject p r acc 1 c.user c.cirq)
          else
            match d.declaredLeaves p (shadowPages outs) with
            | .error e => some (d.reject p r acc e c.user c.cirq)
            | .ok leaves =>
              if (d.reservePages p).length < leaves.length then some (d.reject p r acc 3 c.user c.cirq)
              else if (d.freePages p).length < leaves.length then none
              else some (d.acceptCmd p r i c b args outl list leaves)

/-- Whether a ring's entry may be accepted (R317), and the slot that it would take. -/
def acceptSlot (d : Dev) (p r : Nat) : Option Nat :=
  let acc := d.ringAcc p r
  if d.flag (Reg.RING_CFG_EN p r) ∧ d.flag Reg.JNL_CTL_EN ∧ ¬ d.flag Reg.RST_STAT_INRESET ∧ acc < (d.ring p r).d
      ∧ (acc + 2 ^ 64 - d.rd (Reg.CQ_HEAD_HEAD p r)) % 2 ^ 64 < d.ringSize p r ∧ d.ptState p = 1 ∧ ¬ d.isQuiet p
  then d.freeSlot p else none

/-- The rings in their round-robin order from position k (R318). -/
def acceptFrom : Nat → Nat → Dev → Dev
  | 0, _, d => d
  | n + 1, k, d =>
    let k := k % 512
    match d.acceptSlot (k / 64) (k % 64) with
    | none => acceptFrom n (k + 1) d
    | some i =>
      match d.tryAccept (k / 64) (k % 64) i with
      | some d => { d with rrNext := (k + 1) % 512 }
      | none => acceptFrom n (k + 1) d

/-- ACCEPTANCE (R318, R321): the next ring that can go on has one entry accepted, rejected or stopped at. -/
def acceptance (d : Dev) : Dev := d.acceptFrom 512 d.rrNext

/-! The start of a command (R327, R329, R440). -/

/-- The cores that a command names: device logical numbers. -/
def namedCores (d : Dev) (p : Nat) (r : JRec) : List Nat :=
  let c := cmdEnt r.entry
  if c.op = 1 then (List.range c.ncore).filterMap fun k => d.deviceNo p (c.first + k) else []

def sharesCore (d : Dev) (p : Nat) (l : List Nat) (r : JRec) : Bool := (d.namedCores p r).any fun c => l.contains c

/-- The start conditions of R327, with one command at a time while PD_STEP.EN = 1 (R440). -/
def startOk (d : Dev) (p i : Nat) : Bool :=
  let r := d.jr (slotBase p + i)
  let mine := d.namedCores p r
  let others := (d.recsOf p).filter fun e => e.1 ≠ i
  r.st = .accepted && r.seq = d.ringDone p r.ring && d.ptState p = 1 && !(d.isQuiet p)
    && others.all (fun e => !((e.2.st = .running || (e.2.st = .accepted && decide (e.2.jseq < r.jseq))) && d.sharesCore p mine e.2))
    && (!(d.flag (Reg.PD_STEP_EN p)) || others.all fun e => !(e.2.st = .running || e.2.step = 1))

/-- PD_STEP shows a hold, or none (R440). -/
def stepShow (p held jseq : Nat) (d : Dev) : Dev := (d.wr (Reg.PD_STEP_HELD p) held).wr (Reg.PD_STEP_HJSEQ p) jseq

/-- WAIT's part, beside cores, slots and jobs. -/
def partWait : Nat := 9999

/-- Arm list entries: descriptor address, and slot or job. -/
def armList (r : JRec) : List (Nat × Nat) :=
  (List.range (cmdEnt r.entry).nlist).map fun k => let w := byteField r.list (8 * k) 8; (bits w 47 0, bits w 53 48)

/-- Reads and checks every listed arming (R256, R282): the descriptors' bytes, or the index of the first that is refused. -/
def armCheck (p op : Nat) (seen : List Nat) (k : Nat) : List (Nat × Nat) → Dev → Except Nat (List (Nat × List Byte)) × Dev
  | [], d => (.ok [], d)
  | (a, s) :: t, d =>
    match d.intakeRead p a 128 with
    | (none, d) => (.error k, d)
    | (some b, d) =>
      let ok := if op = 2 then d.cfArmOk p s (cfDescOf b) else d.fryArmOk p s (fryDescOf b)
      if ¬ ok ∨ seen.contains s then (.error k, d)
      else
        match armCheck p op (s :: seen) (k + 1) t d with
        | (.ok l, d) => (.ok ((s, b) :: l), d)
        | (.error e, d) => (.error e, d)

/-- Arms what the list names, and triggers what is to go at the end of arming (R255, R257, R282). -/
def armAll (g op : Nat) (l : List (Nat × List Byte)) (d : Dev) : Dev :=
  let d := l.foldl (fun (d : Dev) x => if op = 2 then d.cfArm x.1 (cfDescOf x.2) (some g) else d.fryArm x.1 (fryDescOf x.2) (some g)) d
  let d := l.foldl (fun (d : Dev) x =>
    if op = 2 then (if (cfDescOf x.2).trig = 2 then d.cfGo x.1 else d) else (if (fryDescOf x.2).trig = 2 then d.jobGo x.1 else d)) d
  d.watch

/-- The values that an argument block and CIDX give a core of index k in the range (R319). -/
def argRegs (c : CmdEnt) (args : List Byte) (k : Nat) : List (Nat × Nat) :=
  ((List.range 32).filter fun n => bit c.smask n).map (fun n => (n, byteField args (8 * n) 8)) ++ (if c.cidx then [(31, k)] else [])

/-- A command starts (Table AW-5, R329): a replay first resets the named cores. -/
def startCmd (p i : Nat) (d : Dev) : Dev :=
  let g := slotBase p + i
  let r := d.jr g
  let c := cmdEnt r.entry
  let cs := d.namedCores p r
  let d := if r.replay then cs.foldl (fun (d : Dev) k => d.coreReset k) d else d
  let d := d.incSat (Reg.RING_STAT_WAIT p r.ring) ((d.now - (d.ring p r.ring).headAt) / 1024)
  let parts := match c.op with
    | 1 => cs
    | 2 => (armList r).map fun x => partSlot x.2
    | 3 => (armList r).map fun x => partJob x.2
    | 4 => [partWait]
    | _ => []
  let r' : JRec := { r with st := .running, tstart := d.now, parts := parts, marked := false, withheld := false, outcome := none,
                            poisoned := [], undecl := 0, replay := false, step := if d.flag (Reg.PD_STEP_EN p) then 2 else 0 }
  let d := ((d.putRec g r').traceCmd p teCMD_BEGIN r' r.seq)
  match c.op with
  | 1 => (cs.zipIdx).foldl (fun (d : Dev) x => d.coreBegin x.1 p i (BitVec.ofNat 48 c.pc) (argRegs c r.args x.2)) d
  | 2 | 3 =>
    match armCheck p c.op [] 0 (armList r) d with
    | (.ok l, d) => d.armAll g c.op l
    | (.error k, d) => (d.jrOutcome (some g) (3, 0x04, k)).updJr g fun r => { r with parts := [] }
  | _ => d

/-! The end of an attempt (R326, R327, R331). -/

/-- The sub-range size of a declared output (R331). -/
def failUnit (len : Nat) : Nat := (len + 64 * 4096 - 1) / (64 * 4096) * 4096

/-- FAILMAP for FAILED_PARTIAL: the sub-ranges in which the command poisoned a byte. -/
def failPartialMap (r : JRec) : Tab Nat :=
  ((recOuts r).zipIdx).foldl (fun t x =>
    let o := x.1
    let u := failUnit o.len
    tabPut 0 x.2 ((List.range 64).foldl (fun m j =>
      if j * u < o.len ∧ (r.poisoned.any fun q => rangesMeet q.1 q.2 (o.addr + j * u) (min u (o.len - j * u))) then m + 2 ^ j else m) 0) t) []

/-- FAILMAP for FAILED and ABANDONED: every bit of every FRESH output. -/
def failAllMap (r : JRec) : Tab Nat :=
  ((recOuts r).zipIdx).foldl (fun t x => if x.1.kind = 1 then tabPut 0 x.2 (2 ^ 64 - 1) t else t) []

/-- The bytes of every FRESH output are unpredictable after FAILED and ABANDONED (R331). -/
def loosen (p : Nat) (r : JRec) (d : Dev) : Dev :=
  (((recOuts r).filter fun o => o.kind = 1).flatMap fun o => pieces o.addr o.len).foldl (fun (d : Dev) x =>
    let b := d.freshBytes x.2
    match b.2.resolveAll p none .write [x] with
    | (.ok l, d) => if d.isQuiet p ∨ d.hostWaits p l then d else d.physWrite p l b.1
    | (.error _, d) => d) d

/-- A record's failure report (R331). -/
def failReport (r : JRec) : List Byte :=
  let n := (cmdEnt r.entry).nout
  leBytes 8 r.jseq ++ leBytes 4 n ++ leBytes 4 r.undecl ++ (List.range n).flatMap fun o => leBytes 8 (tabGet 0 o r.failmap)

/-- DUMP (R439): the named range goes to DST behind its header; poisoned sectors are poisoned there. -/
def dumpRun (p : Nat) (r : JRec) (d : Dev) : Dev :=
  match (d.part p).dump with
  | none => d
  | some u =>
    let dst := d.rd (Reg.PD_DUMPDST_VA p)
    let head := u.name ++ leBytes 8 r.jseq ++ leBytes 4 (d.rd (Reg.LS_STAT_SEQ p)) ++ leBytes 1 u.fmt ++ leBytes 1 r.replays ++ leBytes 2 0
      ++ leBytes 8 u.len ++ leBytes 8 d.now
    let d := (d.vaWrite p none dst head).2
    let d := (List.range ((u.len + 31) / 32)).foldl (fun (d : Dev) k =>
      let n := min 32 (u.len - 32 * k)
      match d.vaRead p none (u.va + 32 * k) n with
      | (.ok b, d) => (d.vaWrite p none (dst + 64 + 32 * k) b).2
      | (.error (.poison, _), d) => (d.vaPoison p none (dst + 64 + 32 * k) n).setF (Reg.PD_DUMPSTAT_PSN p)
      | (.error _, d) => d) d
    let d := ((d.updPart p fun x => { x with dump := none }).clrF (Reg.PD_DUMPSTAT_ARMED p)).setF (Reg.PD_DUMPSTAT_DONE p)
    d.traceCmd p teDUMP r (d.rd (Reg.PD_DUMPSTAT_ARMED p) + 2 * d.rd (Reg.PD_DUMPSTAT_DONE p) + 4 * d.rd (Reg.PD_DUMPSTAT_ARMERR p)
      + 8 * d.rd (Reg.PD_DUMPSTAT_MISSED p) + 16 * d.rd (Reg.PD_DUMPSTAT_PSN p))

/-- Whether an armed dump fires at a command that enters COMMITTING clean (R439). -/
def dumpFires (d : Dev) (p : Nat) (r : JRec) : Bool :=
  match (d.part p).dump with
  | some u => d.rd (Reg.LS_STAT_SEQ p) = d.rd (Reg.PD_DUMPCFG_STEP p) && (recOuts r).any fun o => rangesMeet o.addr o.len u.va u.len
  | none => false

/-- What goes before the completion record: the dump, and the failure report at RPT. -/
def preReport (p g : Nat) (d : Dev) : Dev :=
  let r := d.jr g
  let rpt := (cmdEnt r.entry).rpt
  if r.rptDone ∨ ¬ d.writesOpen p ∨ (rpt ≠ 0 ∧ d.hostHeld p rpt 272) then d
  else
    let d := if r.dumpNow then d.dumpRun p r else d
    let d := if rpt ≠ 0 ∧ (r.status = 2 ∨ r.status = 3 ∨ r.status = 5) then (d.vaWrite p none rpt (failReport r)).2 else d
    d.updJr g fun r => { r with rptDone := true, dumpNow := false }

/-- A record enters REPORTING. -/
def toReporting (p i : Nat) (d : Dev) : Dev :=
  let g := slotBase p + i
  let r : JRec := { d.jr g with st := .reporting, tend := d.now, parts := [] }
  ((d.putRec g r).traceCmd p teCMD_END r (r.status + 256 * r.cause)).preReport p g

/-- Drops a command's shadows: their pages are free in the reserve again. -/
def freeShadows (p i : Nat) (d : Dev) : Dev := d.updPart p fun x => { x with shadows := x.shadows.filter fun s => s.slot ≠ i }

/-- Ends a command FAILED or ABANDONED (R331). -/
def failCmd (p i status cause detail : Nat) (d : Dev) : Dev :=
  let g := slotBase p + i
  let r := d.jr g
  let d := d.setJr g { r with status := status, cause := cause, detail := detail, failmap := failAllMap r }
  ((d.loosen p r).freeShadows p i).toReporting p i

/-- A copy of a 2 MiB page that leaves out some ranges; poison goes with its sectors (R328). What is left out is unpredictable. -/
def copyPage (src dst : Nat) (skip : List (Nat × Nat)) (d : Dev) : Dev :=
  let a := src * pageBytes
  let b := dst * pageBytes
  let kept (o : Nat) : Bool := !(skip.any fun x => decide (x.1 ≤ o ∧ o < x.2))
  let bytes := (d.hbm.filter fun e => decide (a ≤ e.1 ∧ e.1 < a + pageBytes) && kept (e.1 - a)).foldl
    (fun t e => tabPut 0 (b + (e.1 - a)) e.2 t) (tabClear b pageBytes d.hbm)
  let pois := (List.range 65536).foldl (fun t k =>
    tabPut false (b / 32 + k) (d.hbmBad (a / 32 + k) && (kept (32 * k) || kept (32 * k + 31))) t) d.hbmPoison
  let d := { d with hbm := bytes, hbmPoison := pois }
  skip.foldl (fun (d : Dev) x => let f := d.freshBytes (x.2 - x.1); { f.2 with hbm := tabPutList 0 (b + x.1) f.1 f.2.hbm }) d

/-- The page a kept leaf maps. -/
def leafPage (e : Nat) : Nat := bits e 51 12 * 4096 / pageBytes

/-- One page of the flip (R328, R344): the leaf is rewritten to the shadow, the old page goes to the reserve. -/
def flipPage (p : Nat) (s : Shadow) (d : Dev) : Dev :=
  let d := if s.filled ∨ s.ovw = [] then d else d.copyPage (leafPage s.leaf) s.shadow s.ovw
  if ¬ (s.filled ∨ s.ovw ≠ []) then d
  else
    let e := s.leaf - bits s.leaf 51 12 * 4096 + s.shadow * pageBytes
    let d := d.hbmWrite s.leafAddr (leBytes 8 e)
    let d := { d with rsv := tabPut 0 (leafPage s.leaf) (p + 1) (tabPut 0 s.shadow 0 d.rsv) }
    d.updPart p fun x =>
      { x with tlb := tabPut Leaf.reset s.va Leaf.reset x.tlb,
               shadows := x.shadows.map fun y => if y.leafAddr = s.leafAddr then { y with leaf := e } else y }

/-- FLIP (R328): every page of the command in one step; the record is COMMITTING. -/
def flip (p i status cause : Nat) (fm : Tab Nat) (d : Dev) : Dev :=
  let g := slotBase p + i
  let r := d.jr g
  let fire := decide (status ≤ 1) && d.dumpFires p r
  let d := d.putRec g { r with st := .committing, status := status, cause := cause, failmap := fm, parts := [], dumpNow := fire }
  ((((d.part p).shadows.filter fun s => s.slot = i)).foldl (fun (d : Dev) s => d.flipPage p s) d).freeShadows p i

/-- Stops an attempt at once (R326): its cores' work ends, what it armed ends, its shadows are freed for a new copy. -/
def stopAttempt (p i : Nat) (d : Dev) : Dev :=
  let g := slotBase p + i
  let cs := (List.range 144).filter fun c => (d.core c).cmd = some (p, i)
  let d := cs.foldl (fun (d : Dev) c =>
    ((d.unstall c 0).stopReq c 32).updCore c fun x =>
      let e (y : Eng) : Eng := { y with stopped := true, cow := none, rwait := none, wait := none, stall := none, releasing := none }
      { x with run := false, cmd := none, slot := none, loadWait := none, stepHold := false, e0 := e x.e0, e1 := e x.e1, e2 := e x.e2, e3 := e x.e3 }) d
  let d := (List.range 64).foldl (fun (d : Dev) s => if (d.cfSlot s).cmd = some g then d.slotAbort s else d) d
  let d := (List.range 16).foldl (fun (d : Dev) j => if (d.fryJob j).cmd = some g then d.jobAbort j else d) d
  d.updPart p fun x =>
    { x with shadows := x.shadows.map fun (s : Shadow) =>
        if s.slot = i then { s with copying := false, filled := false, copied := false } else s }

/-- Whether an attempt may be replayed (R326). -/
def replayable (d : Dev) (p : Nat) (r : JRec) : Bool := decide (r.replays < d.rd (Reg.JNL_PCFG_REPLAYMAX p)) && !(cmdEnt r.entry).norep

/-- A hold that this command has is given up. -/
def stepDrop (p : Nat) (r : JRec) (d : Dev) : Dev := if r.step = 1 ∨ r.step = 3 then d.stepShow p 0 0 else d

/-- Returns a stopped attempt to ACCEPTED for its replay (Table AW-5). -/
def toReplay (p i cause : Nat) (d : Dev) : Dev :=
  let g := slotBase p + i
  let r := d.jr g
  let r' : JRec := { r with st := .accepted, replays := r.replays + 1, replay := true, parts := [], step := 0, marked := false, outcome := none }
  let d := ((d.stepDrop p r).putRec g r').stopAttempt p i
  (d.setRing p r.ring { d.ring p r.ring with headAt := d.now }).traceCmd p teREPLAY r' cause

/-- A replayable event interrupts the attempt (R326, Table AW-6). -/
def jrInterrupt (p i : Nat) (d : Dev) : Dev :=
  let g := slotBase p + i
  let r := d.jr g
  if r.st ≠ .running then d
  else if d.replayable p r then d.toReplay p i 0x0A
  else (((d.stepDrop p r).setJr g { r with st := .reporting, step := 0 }).stopAttempt p i).failCmd p i 3 0x0A 0

/-- Interrupts the running commands that name a core. -/
def jrCoreEvent (c : Nat) (d : Dev) : Dev :=
  match (d.core c).cmd with
  | some (p, i) => d.jrInterrupt p i
  | none => d

/-- Interrupts every running command of a partition that satisfies a test. -/
def jrPartEvent (p : Nat) (f : CmdEnt → Bool) (d : Dev) : Dev :=
  (d.recsOf p).foldl (fun (d : Dev) e => if f (cmdEnt e.2.entry) then d.jrInterrupt p e.1 else d) d

/-- DETAIL for EXCEPTION and WATCHDOG (R331): the lowest partition-local core whose part failed. -/
def failDetail (d : Dev) (p i cause dflt : Nat) : Nat :=
  if cause ≠ 0x05 ∧ cause ≠ 0x06 then dflt
  else
    let failed (c : Nat) : Bool := match (d.core c).part with | .failed _ => decide ((d.core c).cmd = some (p, i)) | _ => false
    match (d.coresOf p).find? failed with
    | some c => d.localNo p c
    | none => dflt

/-- Every part has ended: Table AW-6 decides. A clean end waits until remote writes are acknowledged (R152). -/
def attemptOver (p i : Nat) (d : Dev) : Dev :=
  let g := slotBase p + i
  let r := d.jr g
  match r.outcome with
  | some (2, cause, _) => d.flip p i 2 cause (failPartialMap r)
  | some (st, cause, det) => d.failCmd p i st cause (d.failDetail p i cause det)
  | none =>
    if r.marked then
      (if d.replayable p r then d.toReplay p i 0x08 else d.flip p i 2 0x08 (failPartialMap r))
    else if (d.namedCores p r).any fun c => [0, 1, 2, 3].any fun e => !((d.eng c e).remote.isEmpty) then d
    else d.flip p i (if r.withheld then 1 else 0) 0 []

/-- Whether a part still runs (R327). -/
def partRuns (d : Dev) (p : Nat) (r : JRec) (k : Nat) : Bool :=
  if k < 144 then !(d.corePartEnded k)
  else if k = partWait then decide (d.ringDone p (cmdEnt r.entry).pc < (cmdEnt r.entry).args)
  else true

/-- PART_END (R327, R440): parts that have ended are taken off; with none left the attempt is over, or is held at AFTER. -/
def partEnd (p i : Nat) (d : Dev) : Dev :=
  let g := slotBase p + i
  let r := d.jr g
  if r.st ≠ .running ∨ d.isQuiet p ∨ d.ptState p ≠ 1 ∨ r.step = 3 then d
  else
    let ended := r.parts.filter fun k => !(d.partRuns p r k)
    let d := d.setJr g { r with parts := r.parts.filter fun k => d.partRuns p r k }
    let d := (ended.filter fun k => decide (k < 144)).foldl (fun (d : Dev) c =>
      [0, 1, 2, 3].foldl (fun (d : Dev) e => let f := d.fresh; f.2.traceEng c e teENG_END f.1) d) d
    if (d.jr g).parts ≠ [] then d
    else if d.flag (Reg.PD_STEP_EN p) ∧ r.step < 3 then
      let d := (d.updJr g fun r => { r with step := 3 }).stepShow p 2 r.jseq
      (d.namedCores p r).foldl (fun (d : Dev) c => (d.stopReq c 2).updCore c fun x => { x with stepHold := true }) d
    else d.attemptOver p i

/-- COMMAND_START (R327, R440): the command starts, or is held at BEFORE; one with no part ends at once. -/
def commandStart (p i : Nat) (d : Dev) : Dev :=
  let g := slotBase p + i
  let r := d.jr g
  if ¬ d.startOk p i ∨ r.step = 1 then d
  else if d.flag (Reg.PD_STEP_EN p) ∧ r.step = 0 then (d.updJr g fun r => { r with step := 1 }).stepShow p 1 r.jseq
  else
    let d := d.startCmd p i
    if (d.jr g).parts = [] then d.partEnd p i else d

/-- The same step, for a record of one OP (Table AW-1). -/
def startOp (op p i : Nat) (d : Dev) : Dev :=
  if (cmdEnt (d.jr (slotBase p + i)).entry).op = op then d.commandStart p i else d
def commandNop (p i : Nat) (d : Dev) : Dev := d.startOp 0 p i
def runCmd (p i : Nat) (d : Dev) : Dev := d.startOp 1 p i
def armCf (p i : Nat) (d : Dev) : Dev := d.startOp 2 p i
def armFy (p i : Nat) (d : Dev) : Dev := d.startOp 3 p i

/-- WAIT_COMMAND (R319): a WAIT starts, and ends once ring WRING has reported every command below WSEQ. -/
def waitCommand (p i : Nat) (d : Dev) : Dev :=
  if (cmdEnt (d.jr (slotBase p + i)).entry).op = 4 then (d.commandStart p i).partEnd p i else d

/-- REPLAY (R329): a stopped attempt starts again once its start conditions hold. -/
def replayCmd (p i : Nat) (d : Dev) : Dev := if (d.jr (slotBase p + i)).replay then d.commandStart p i else d

/-- Releases the hold of a partition's single-stepping (R440). -/
def stepRelease (p : Nat) (d : Dev) : Dev :=
  match (d.recsOf p).find? fun e => e.2.step = 1 || e.2.step = 3 with
  | none => d
  | some (i, r) =>
    let g := slotBase p + i
    let d := (d.stepShow p 0 0).updJr g fun r => { r with step := r.step + 1 }
    if r.step = 1 then d.commandStart p i
    else
      ((d.namedCores p r).foldl (fun (d : Dev) c => (d.updCore c fun x => { x with stepHold := false }).stopEnd c 2) d).partEnd p i

/-- FLIP_DONE (R325): STATUS is decided and the record reports. -/
def flipDone (p i : Nat) (d : Dev) : Dev :=
  if (d.jr (slotBase p + i)).st = .committing then d.toReporting p i else d

/-- REPORT_DONE (R325, R330): the completion record of a ring's next report is written, DONE advances, the slot is FREE. -/
def reportDone (p r : Nat) (d : Dev) : Dev :=
  match (d.recsOf p).find? fun e => e.2.ring = r && e.2.seq = d.ringDone p r && e.2.st = .reporting with
  | none => d.flushRej ((d.ring p r).rej.length + 1) p r
  | some (i, x) =>
    let g := slotBase p + i
    let d := d.preReport p g
    if ¬ (d.jr g).rptDone ∨ ¬ d.canReport p r then d
    else
      let c := cmdEnt x.entry
      let d := d.report p r x.seq (compBody x.status x.cause x.replays x.detail x.jseq c.user x.tend) c.cirq
      let d := (d.putRec g { d.jr g with st := .free }).setJr g JRec.reset
      d.flushRej ((d.ring p r).rej.length + 1) p r

/-- Frees a record without a report: its partition's guarantee has ended (Table FT-2). -/
def dropRec (p i : Nat) (d : Dev) : Dev :=
  let g := slotBase p + i
  ((d.putRec g { d.jr g with st := .free }).setJr g JRec.reset).freeShadows p i

/-- ABANDON (R333): every accepted, unreported command of the ring ends ABANDONED, but for one already COMMITTING. In a partition
held quiet by NOSPARE or JLOSS no report can be written, and the records are freed without one. -/
def abandon (p r : Nat) (d : Dev) : Dev :=
  let l := (d.recsOf p).filter fun e => e.2.ring = r
  let stuck := d.isQuiet p && (bit (d.rd (Reg.QT_PCAUSE_BLOCK p)) qNOSPARE || bit (d.rd (Reg.QT_PCAUSE_BLOCK p)) qJLOSS)
  let d := l.foldl (fun (d : Dev) e =>
    let x := d.jr (slotBase p + e.1)
    if x.st = .accepted ∨ x.st = .running then
      (((d.stepDrop p x).setJr (slotBase p + e.1) { x with st := .reporting, step := 0 }).stopAttempt p e.1).failCmd p e.1 5 0x0B 0
    else d) d
  let d := if d.isQuiet p then d.updPart p fun x => { x with abandoned := if x.abandoned.contains r then x.abandoned else x.abandoned ++ [r] } else d
  if ¬ stuck then d
  else
    let d := l.foldl (fun (d : Dev) e => d.dropRec p e.1) d
    let d := (d.wr (Reg.RING_DONE_DONE p r) (d.ringAcc p r)).setRing p r { d.ring p r with rej := [] }
    (d.islandNote p r).ringEnableTry p r

/-! Copies on write (R328). -/

/-- COPY_ON_WRITE: the page that a write of the command waits for is copied from its original to the reserve page. -/
def copyOnWrite (p i v : Nat) (d : Dev) : Dev :=
  match (d.part p).shadows.find? fun s => s.slot = i && s.va = v && s.copying && !s.filled with
  | none => d
  | some s =>
    -- a copy that quiet state closes leaves its page incomplete (R202)
    if d.isQuiet p then
      (List.range 65536).foldl (fun (d : Dev) k => d.incSat (Reg.HBM_UECNT_QDROP (d.stackOf (s.shadow * pageBytes + 32 * k))) 1) d
    else
    (d.copyPage (leafPage s.leaf) s.shadow s.ovw).updPart p fun x =>
      { x with shadows := x.shadows.map fun (y : Shadow) => if y.slot = i ∧ y.va = v then { y with filled := true } else y }

/-- COPY_ON_WRITE_DONE: the command's cores reach the shadow, and the stalled writes go on. -/
def copyOnWriteDone (p i v : Nat) (d : Dev) : Dev :=
  if ¬ ((d.part p).shadows.any fun s => s.slot = i && s.va = v && s.copying && s.filled) then d
  else
    let d := d.updPart p fun x =>
      { x with shadows := x.shadows.map fun (y : Shadow) => if y.slot = i ∧ y.va = v then { y with copying := false, copied := true } else y }
    (d.coresOf p).foldl (fun (d : Dev) c =>
      if (d.core c).cmd = some (p, i) then
        [0, 1, 2, 3].foldl (fun (d : Dev) e => if (d.eng c e).cow = some v then d.updEng c e fun g => { g with cow := none } else d) d
      else d) d

/-! The loss of a stack pair (R324). -/

/-- The copies on a lost pair are gone; a record that has lost its last copy sets JLOST and quiets its partition. -/
def jnlPairLost (k : Nat) (d : Dev) : Dev :=
  let d := (d.wr Reg.JNL_STAT_LOSTPAIR (setBit (d.rd Reg.JNL_STAT_LOSTPAIR) k true)).setF Reg.JNL_STAT_REMIRROR
  let hit := (d.jrec.filter fun e => e.2.copies.any fun c => c.1 / 2 = k).map Prod.fst
  let d := hit.foldl (fun (d : Dev) g => d.updJr g fun r => { r with copies := r.copies.filter fun c => c.1 / 2 ≠ k }) d
  let gone := hit.filter fun g => (d.jr g).copies = []
  if gone = [] then d
  else
    let ps := (List.range 8).filter fun p => gone.any fun g => g / 4096 = p
    let d := ps.foldl (fun (d : Dev) p => d.quietPart p 0x41 qJLOSS 0 0) (d.setF Reg.JNL_STAT_JLOST)
    d.guaranteeEnd 4 (ps.foldl (fun m p => m + 2 ^ p) 0)

/-- REMIRROR (R324): the missing copies are written from the surviving ones to their substitute places. -/
def remirror (d : Dev) : Dev :=
  if ¬ d.flag Reg.JNL_STAT_REMIRROR then d
  else
    let l := (d.jrec.filter fun e => decide (e.2.copies.length = 1)).map Prod.fst
    let d := l.foldl (fun (d : Dev) g =>
      let r := d.jr g
      d.putRec g { r with copies := (r.copies ++ d.recPlaces g).eraseDups }) d
    d.clrF Reg.JNL_STAT_REMIRROR

/-- STACK_RETRAINING_END with its loss (R201, R324). -/
def stackRetrained (k : Nat) (ok : Bool) (lanes : Nat) (d : Dev) : Dev :=
  if d.rd (Reg.HBM_STAT_STATE k) = 1 ∧ ¬ ok then (d.stackRetrainingEnd k ok lanes).jnlPairLost (k / 2)
  else d.stackRetrainingEnd k ok lanes

end Dev
end Sys2Proof.Machine
end

