-- ==== Sys2Proof/Machine/Faults.lean ====
section
/-!
DEFINITION. Faults, quiet state and spares (R360 to R375): the exit from quiet state, the end of an entry, records arriving at
their banks, retirement, and laggards.
-/
namespace Sys2Proof.Machine.Dev

/-- The exit actions (R363): cores go on, held commands replay, the quiet event is raised. -/
def exitActions (p : Nat) (d : Dev) : Dev :=
  let d := d.updPart p fun x => { x with held := false, abandoned := [] }
  let d := (d.coresOf p).foldl (fun (d : Dev) c => d.stopEnd c 8) d
  (d.jrPartEvent p fun _ => true).irqEvent (3840 + 32 * p + 19)

/-- A cause that blocks a partition's exit clears; with none left its own scope ends (R363). -/
def causeClear (p kind : Nat) (d : Dev) : Dev :=
  let b := setBit (d.rd (Reg.QT_PCAUSE_BLOCK p)) kind false
  let d := d.wr (Reg.QT_PCAUSE_BLOCK p) b
  if b ≠ 0 ∨ ¬ (d.part p).quiet then d
  else
    let d := (d.updPart p fun x => { x with quiet := false, entering := false }).quietPin
    if d.devQuiet then d else d.exitActions p

/-- ENTER (R363). -/
def quietEnter (p : Nat) (d : Dev) : Dev := d.quietPart p 0x01 qMANUAL 0 0
/-- DEVENTER (R363). -/
def quietDevEnter (d : Dev) : Dev := d.quietDevice 0x01 0 0 0
/-- EXIT (R363): refused while device scope is active. -/
def quietExit (p : Nat) (d : Dev) : Dev :=
  if d.devQuiet then d.setF Reg.QT_CTL_REFUSED
  else
    let self := decide ((d.part p).quiet ∧ d.rd (Reg.QT_PCAUSE_FIRST p) = 0x20)
    let d := d.causeClear p qMANUAL
    if self then { d with lastExit := some d.now } else d

/-- Whether every core of a list has stopped (R73). -/
def allStopped (d : Dev) (l : List Nat) : Bool :=
  l.all fun c => (d.core c).e0.stopped && (d.core c).e1.stopped && (d.core c).e2.stopped && (d.core c).e3.stopped

/-- A partition's slots and jobs end (R362): WITHHELD goes out on every ring, slots and jobs end ABORTED. -/
def unitsEnd (p : Nat) (d : Dev) : Dev :=
  let d := (List.range 64).foldl (fun (d : Dev) s => if d.cfSt s ≠ 0 ∧ d.cfPart s = p then d.slotAbort s else d) d
  d.fryPartEnd p

/-- QUIET_ENTRY_COMPLETE for a partition (R362): its cores have stopped; slots and jobs end, the event is raised. -/
def entryDone (p : Nat) (d : Dev) : Dev :=
  if ¬ (d.part p).entering ∨ ¬ d.allStopped (d.coresOf p) then d
  else ((d.updPart p fun x => { x with entering := false }).unitsEnd p).irqEvent (3840 + 32 * p + 19)

/-- QUIET_ENTRY_COMPLETE for the device: the links change behaviour with it (R218). -/
def devEntryDone (d : Dev) : Dev :=
  if ¬ d.devEntering ∨ ¬ (List.range 8).all (fun p => d.allStopped (d.coresOf p)) then d
  else
    (List.range 8).foldl (fun (d : Dev) p => (d.unitsEnd p).irqEvent (3840 + 32 * p + 19)) { d with devEntering := false }

/-- JLOSS clears once every ring is abandoned and no record is in use (Table FT-2). -/
def jlossCheck (p : Nat) (d : Dev) : Dev :=
  if bit (d.rd (Reg.QT_PCAUSE_BLOCK p)) qJLOSS ∧ 64 ≤ (d.part p).abandoned.length ∧ d.inUse p = 0 then d.causeClear p qJLOSS else d

/-- ABANDON, with what it clears (R333, Table FT-2). -/
def abandonRing (p r : Nat) (d : Dev) : Dev := (d.abandon p r).jlossCheck p

/-- Whether a logical core is offline (R369). -/
def coreOffline (d : Dev) (c : Nat) : Bool := bit d.offline c

/-- NOSPARE clears once no offline core is left in the partition (Table FT-2). -/
def nospareCheck (p : Nat) (d : Dev) : Dev :=
  if bit (d.rd (Reg.QT_PCAUSE_BLOCK p)) qNOSPARE ∧ (d.coresOf p).all (fun c => !(d.coreOffline c)) then d.causeClear p qNOSPARE else d

/-! Error banks (R365 to R367). -/

/-- ERROR_RECORD (R364, R365): a detected error reaches its bank. An unattributed error enters device scope; a self-check failure
enters the scope of its partition, or device scope where the partition is unknown or the last EXIT lies less than 1 s back. -/
def errorRecord (b : Nat) (a : ErrArgs) (d : Dev) : Dev :=
  if a.cls = 0x04 then d.quietDevice 0x04 b a.info a.addr
  else if a.cls = 0x20 then
    let soon := match d.lastExit with | some t => decide (d.now < t + 4000000000) | none => false
    match a.part with
    | some p => if soon then d.quietDevice 0x20 b a.info a.addr else d.quietPart p 0x20 qMANUAL a.info a.extra
    | none => d.quietDevice 0x20 b a.info a.addr
  else d.err b a

/-- ERROR_ACK (R365): the primary clears, and a pending record becomes primary. -/
def errorAck (b : Nat) (d : Dev) : Dev :=
  let q (w : Nat) : Nat := d.rd (Reg.ERR_Q_WORD b w)
  let pend := d.bankPend b
  let e := (d.setPrim b 0 0 0 0).setPend b 0 0 0 0
  if pend then e.becomePrim b (q 0) (q 1) (q 2) (q 3) else e.alertPin

/-- CLROVF (R375). -/
def clrOvf (b : Nat) (d : Dev) : Dev := d.wr (Reg.ERR_STAT_OVF b) 0

/-- ESCALATION (R367): the primary has stayed unacknowledged for ESCT. -/
def escalation (b : Nat) (d : Dev) : Dev :=
  if d.bankPrim b ∧ d.rd (Reg.ERR_CFG_ESCT b) ≠ 0 ∧ ¬ d.flag (Reg.ERR_STAT_ESC b) then d.escalate b else d

/-! Retirement (R368 to R370). -/

/-- The physical core within its quadrant that serves a logical core. -/
def physOf (d : Dev) (c : Nat) : Nat := if (d.core c).onSpare then 18 else c % 18

/-- CORE_RETIREMENT (R368, R369). -/
def retireCore (c : Nat) (d : Dev) : Dev :=
  if 144 ≤ c ∨ d.coreOffline c then d
  else
    let q := c / 18
    let ph := d.physOf c
    let owner := d.coreOwner c
    let d := { d with retList := d.retList ++ [(c, ph)] }
    let d := match (d.core c).cmd with
      | some (p, i) => d.traceCmd p teRETIRE (d.jr (slotBase p + i)) ph
      | none => d
    let d := (d.stopReq c 16).jrCoreEvent c
    if bit (d.rd Reg.SP_STAT_AVAIL) q then
      let d := (d.updCore c fun x => { x with onSpare := true, ts := [] }).coreReset c
      let d := ((d.wr (Reg.SP_MAP_RET q) ph).setF (Reg.SP_MAP_RV q)).wr Reg.SP_STAT_AVAIL (setBit (d.rd Reg.SP_STAT_AVAIL) q false)
      d.err (32 + q) { cls := 0x11, part := owner, unit := ph, info := c, extra := d.epochOf c }
    else
      let d := { d with offline := setBit d.offline c true }
      let d := ((d.wr (Reg.SP_MAP_OFFL q) c).setF (Reg.SP_MAP_OV q)).wr Reg.SP_STAT_OFFLINE (setBit (d.rd Reg.SP_STAT_OFFLINE) q true)
      match owner with
      | some p => d.quietPart p 0x12 qNOSPARE c 0
      | none => d

/-- RETIRE (R368): SP_CTL.RETIRE. -/
def spRetire (c : Nat) (d : Dev) : Dev := d.retireCore c

/-- CLRLIST (R368): ignored unless every partition is FREE. -/
def clrList (d : Dev) : Dev :=
  if (List.range 8).all fun p => d.ptState p = 0 then { d with retList := [], pairList := 0 } else d

/-- RETPAIR (Table FT-6): the pair's stacks are retired, its domain is switched off, and the journal re-mirrors. -/
def retPair (k : Nat) (d : Dev) : Dev :=
  if 6 ≤ k ∨ bit (d.rd Reg.SP_STAT_PAIRRET) k then d
  else
    let d := (d.wr (Reg.HBM_STAT_STATE (2 * k)) 4).wr (Reg.HBM_STAT_STATE (2 * k + 1)) 4
    let d := (d.wr Reg.SP_STAT_PAIRRET (setBit (d.rd Reg.SP_STAT_PAIRRET) k true)).wr Reg.PWR_DOMSTAT_ON
      (setBit (d.rd Reg.PWR_DOMSTAT_ON) (10 + k) false)
    ({ d with pairList := setBit d.pairList k true }).jnlPairLost k

/-! Laggards (R371). -/

/-- What a laggard window measures (Table FT-7). -/
inductive LgKind where
  | core (c : Fin 144)
  | link (l : Fin 32)
  | ferry (stream : Fin 131072)
  | ring (slot : Fin 64)
  deriving DecidableEq, Repr

/-- One more window in which a response's metric stayed below half its threshold; the eighth lifts the response. -/
def lgLift (key : Nat) (low : Bool) (lift : Dev → Dev) (d : Dev) : Dev :=
  let n := if low then tabGet 0 key d.lgOk + 1 else 0
  if 8 ≤ n then lift { d with lgOk := tabPut 0 key 0 d.lgOk } else { d with lgOk := tabPut 0 key n d.lgOk }

/-- LAGGARD_WINDOW (R371): a window's metric for one unit; loss metrics are in 1/256 units. -/
def laggardWindow (k : LgKind) (m : Nat) (d : Dev) : Dev :=
  match k with
  | .core c =>
    if d.rd Reg.LG_CFG_LGCORE < m then
      let d := d.err (32 + c / 18) { cls := 0x43, part := d.coreOwner c, unit := d.physOf c, info := 0, extra := m }
      if d.flag Reg.LG_CFG_ACTRET ∧ bit (d.rd Reg.SP_STAT_AVAIL) (c / 18) then d.retireCore c else d
    else d
  | .link l =>
    let th := d.rd Reg.LG_CFG_LGLINK
    let on := bit (d.rd Reg.LG_STAT_AVOID) l
    if th < m then
      let d := (d.err (14 + l / 8) { cls := 0x43, unit := l, info := 1, extra := m })
      let d := { d with lgOk := tabPut 0 l.val 0 d.lgOk }
      if d.flag Reg.LG_CFG_ACTREROUTE then d.wr Reg.LG_STAT_AVOID (setBit (d.rd Reg.LG_STAT_AVOID) l true) else d
    else if on then
      d.lgLift l (decide (2 * m < th)) fun d => d.wr Reg.LG_STAT_AVOID (setBit (d.rd Reg.LG_STAT_AVOID) l false)
    else d
  | .ferry st =>
    let th := d.rd Reg.LG_CFG2_LGFRY
    let mine := (List.range 16).find? fun n =>
      bit (d.rd Reg.LG_STAT_DEW) n && d.flag (Reg.FRY_LAG_V n) && d.rd (Reg.FRY_LAG_STREAM n) = st.val
    if th < m then
      let d := d.err 12 { cls := 0x43, info := 2, extra := m }
      match mine, (List.range 16).find? fun n => !(d.flag (Reg.FRY_LAG_V n)) with
      | some n, _ => { d with lgOk := tabPut 0 (100 + n) 0 d.lgOk }
      | none, some n =>
        if d.flag Reg.LG_CFG_ACTDEW then
          ((((d.setF (Reg.FRY_LAG_V n)).wr (Reg.FRY_LAG_STREAM n) st).wr (Reg.FRY_LAG_SHIFT n) (d.rd Reg.LG_CFG_LGSHIFT)).wr Reg.LG_STAT_DEW
            (setBit (d.rd Reg.LG_STAT_DEW) n true))
        else d
      | none, none => d
    else
      match mine with
      | some n =>
        d.lgLift (100 + n) (decide (2 * m < th)) fun d =>
          (((d.clrF (Reg.FRY_LAG_V n)).wr (Reg.FRY_LAG_STREAM n) 0).wr (Reg.FRY_LAG_SHIFT n) 0).wr Reg.LG_STAT_DEW
            (setBit (d.rd Reg.LG_STAT_DEW) n false)
      | none => d
  | .ring s =>
    if d.rd Reg.LG_CFG2_LGCF < m then
      d.err (10 + s / 32) { cls := 0x43, part := some (d.cfPart s), unit := s, info := 3, extra := m }
    else d

end Sys2Proof.Machine.Dev
end

