-- ==== Sys2Proof/Machine/Partition.lean ====
section
/-!
DEFINITION. Partitions (R336 to R359): the control operations and fence points, extents, the reserve and the granule map, keys,
stage-1 invalidation, and suspended shares.
-/
namespace Sys2Proof.Machine.Dev

/-- Extents of the hashed space (R193). -/
def extentCount : Nat := 130560

/-- A write is refused with a code (PT_STAT). -/
def ptRefuse (p code : Nat) (d : Dev) : Dev := (d.setF (Reg.PT_STAT_REFUSED p)).wr (Reg.PT_STAT_REFCODE p) code

/-- The extents a partition owns, and those on their way to it. -/
def ownedExtents (d : Dev) (p : Nat) : List Nat := (d.owner.filter fun e => e.2 = p + 1).map Prod.fst

/-- The extents that a range of n bytes touches. -/
def extentSpan (a n : Nat) : List Nat := (List.range ((a + n - 1) / extentBytes + 1 - a / extentBytes)).map fun i => a / extentBytes + i

/-- The extents that hold the tables of a stage-2 root (R340). -/
def rootExtents (d : Dev) (root : Nat) : List Nat :=
  let n := 2 ^ min (bits root 4 0) 18
  let base := bits root 51 12 * 4096
  extentSpan base (8 * n) ++ (List.range n).flatMap fun i =>
    match d.entryAt (base + 8 * i) with
    | .ok e => match entryOf 2 1 e with | .table t => extentSpan t 4096 | _ => []
    | .error _ => []

/-- The extents that hold stage-2 tables of any partition that is not FREE (R340). -/
def tableExtents (d : Dev) : List Nat :=
  (List.range 8).flatMap fun p =>
    if d.ptState p = 0 then []
    else d.rootExtents (d.part p).s2base ++ (match (d.part p).pendS2 with | some r => d.rootExtents r | none => [])

/-! Pending changes (R344 to R346). -/

/-- Bytes of the physical granules of die i that a map names: key die * 128 + physical granule. -/
def mappedGranules (m : Tab Nat) : List Nat := (m.filter fun e => bit e.2 7).map fun e => e.1 / 128 * 128 + e.2 % 128

/-- Zeros written to pool granules (R344). -/
def zeroGranules (l : List Nat) (d : Dev) : Dev :=
  l.foldl (fun (d : Dev) g =>
    let k := g / 128 * 2 ^ 28 + g % 128 * pageBytes
    { d with pool := tabClear k pageBytes d.pool, poolPoison := tabClear (k / 32) (pageBytes / 32) d.poolPoison }) d

/-- The pending granule map takes effect; granules mapped anew are zeroed. -/
def applyPool (p : Nat) (d : Dev) : Dev :=
  let x := d.part p
  let m := x.pendPool.foldl (fun t e =>
    (List.range 8).foldl (fun t i => tabPut 0 (e.1 / 12 * 128 + 8 * (e.1 % 12) + i) (bits (e.2 - 1) (8 * i + 7) (8 * i)) t) t) x.pool
  let old := mappedGranules x.pool
  let d := d.zeroGranules ((mappedGranules m).filter fun g => !(old.contains g))
  d.updPart p fun x => { x with pool := m, pendPool := [] }

/-- The pending cores take effect; sources that change owner are returned (R378). -/
def applyCores (p : Nat) (d : Dev) : Dev :=
  match (d.part p).pendCores with
  | none => d
  | some m =>
    let old := (d.part p).cores
    let d := d.updPart p fun x => { x with pendCores := none }
    if d.inUse p ≠ 0 then
      -- commands accepted since the write name cores by rank: the change is refused here as it would have been there
      let d := d.ptRefuse p 2
      ((d.wr (Reg.PT_CORES_MASK p 0) (old % 2 ^ 64)).wr (Reg.PT_CORES_MASK p 1) (old / 2 ^ 64 % 2 ^ 64)).wr (Reg.PT_CORES_MASK p 2) (old / 2 ^ 128)
    else
      let d := d.updPart p fun x => { x with cores := m }
      let d := ((List.range 144).filter fun c => bit old c ≠ bit m c).foldl (fun (d : Dev) c =>
        [0, 1, 2].foldl (fun (d : Dev) e => d.srcDisown (1536 + 16 * c + e)) d) d
      d.nospareCheck p

/-- The reserve operations take effect (R344): all pages of the extents join, or the free ones leave. -/
def applyRsv (p : Nat) (d : Dev) : Dev :=
  let d := (d.part p).pendRsv.foldl (fun (d : Dev) o =>
    let pages := (List.range (3 * o.2.1)).map fun i => 3 * o.1 + i
    let free := d.freePages p
    pages.foldl (fun (d : Dev) g =>
      if o.2.2 then { d with rsv := tabPut 0 g (p + 1) d.rsv }
      else if free.contains g then { d with rsv := tabPut 0 g 0 d.rsv } else d) d) d
  d.updPart p fun x => { x with pendRsv := [] }

/-- Removals take effect: the extents have no owner. -/
def applyRm (p : Nat) (d : Dev) : Dev :=
  let d := (d.part p).pendRm.foldl (fun (d : Dev) o =>
    { d with owner := (List.range o.2).foldl (fun t i => if tabGet 0 (o.1 + i) t = p + 1 then tabPut 0 (o.1 + i) 0 t else t) d.owner }) d
  d.updPart p fun x => { x with pendRm := [] }

/-- A pending stage-2 root takes effect, unless its tables map a declared page to another leaf than the kept one (R346). -/
def applyRoot (p : Nat) (d : Dev) : Dev :=
  match (d.part p).pendS2 with
  | none => d
  | some r =>
    let x := d.part p
    let e := d.setPart p { x with s2base := r, pendS2 := none, shadows := [] }
    let at_ (s : Shadow) : Option Nat :=
      match d.walk1 p (s.va * pageBytes) with
      | .ok (ipa, _, _, _) =>
        match e.walk2 p ipa with
        | .ok l => if ¬ l.big ∧ e.entryAt l.leafAddr = .ok s.leaf then some l.leafAddr else none
        | .error _ => none
      | .error _ => none
    if x.shadows.all fun s => (at_ s).isSome then
      e.updPart p fun y => { y with shadows := x.shadows.map fun s => { s with leafAddr := (at_ s).getD s.leafAddr } }
    else
      let d := (d.setPart p { x with pendS2 := none }).ptRefuse p 9
      (d.wr (Reg.PT_S2BASE_L1LOG p) (bits x.s2base 4 0)).wr (Reg.PT_S2BASE_BASE p) (bits x.s2base 51 12)

/-- Changed leaves over declared pages are written back (R346). -/
def keepLeaves (p : Nat) (d : Dev) : Dev :=
  (d.part p).shadows.foldl (fun (d : Dev) s =>
    if d.entryAt s.leafAddr = .ok s.leaf then d else (d.hbmWrite s.leafAddr (leBytes 8 s.leaf)).ptRefuse p 9) d

/-- Every pending change is applied (R345, step 4). -/
def applyAll (p : Nat) (d : Dev) : Dev := (((((d.applyRoot p).keepLeaves p).applyCores p).applyPool p).applyRsv p).applyRm p

/-- While a partition is FREE its settings take effect when they are written (R346). -/
def settle (p : Nat) (d : Dev) : Dev := if d.ptState p = 0 then d.applyAll p else d

/-! Control (R345, R347). -/

/-- The 64 hall pass records of a partition are freed (R164). -/
def freePasses (p : Nat) (d : Dev) : Dev := { d with hp := tabClear (p * 64) 64 d.hp }

/-- The register addresses that lie in [a, a + n) return to their reset values. -/
def regsReset (a n : Nat) (d : Dev) : Dev := { d with regs := tabClear (a * 64) (n * 64) d.regs }

/-- CREATE completes: the view decodes; rings, timetable and loss-scale registers start at reset values (Table PT-5). -/
def createNow (p : Nat) (d : Dev) : Dev :=
  let d := ((d.regsReset (0x300000 + 0x10000 * p) 0x1000).regsReset (0x64000 + 0x1800 * p) 0x1800).regsReset (0x10020000 + 0x1000000 * p) 0x28
  let d := { d with rings := tabClear (p * 64) 64 d.rings, islandRings := tabClear (p * 64) 64 d.islandRings }
  let d := (d.freePasses p).updPart p fun x => { x with creating := false, ttMiss := [], deferred := [], lsHeld := [] }
  d.wr (Reg.PT_STAT_STATE p) 1

/-- CREATE (R346, R347): completes once every zeroing has. -/
def ptCreate (p : Nat) (d : Dev) : Dev :=
  if d.ptState p ≠ 0 then d.ptRefuse p 1
  else if (d.part p).hkey.isNone then d.ptRefuse p 8
  else if (d.part p).zeroing ≠ [] then d.updPart p fun x => { x with creating := true }
  else d.createNow p

/-- A fence begins: the intake accepts nothing, cores are asked to stop (R345). -/
def fenceBegin (p st : Nat) (quiesce : Bool) (d : Dev) : Dev :=
  ((d.wr (Reg.PT_STAT_STATE p) st).updPart p fun x => { x with fence := .stopping, quiesce := quiesce }).stopCores (d.coresOf p) 4

/-- The counting of a fence point, with every cached translation invalidated. -/
def fencePass (p : Nat) (d : Dev) : Dev :=
  ((d.applyAll p).updPart p fun x => { x with tlb := [], fence := .none }).incWrap (Reg.PT_STAT_FENCES p) 1

/-- FENCE (Table PT-5). -/
def ptFence (p : Nat) (d : Dev) : Dev :=
  match d.ptState p with
  | 1 => d.fenceBegin p 2 false
  | 2 => d
  | 3 => d.fencePass p
  | _ => d.ptRefuse p 1

/-- QUIESCE (Table PT-5): a fence that it starts or joins ends QUIESCED. -/
def ptQuiesce (p : Nat) (d : Dev) : Dev :=
  match d.ptState p with
  | 1 => d.fenceBegin p 2 true
  | 2 => d.updPart p fun x => { x with quiesce := true }
  | _ => d.ptRefuse p 1

/-- The partition goes on (R345, step 5): its cores continue and held timetable actions are left for their own step. -/
def ptGo (p : Nat) (d : Dev) : Dev :=
  let d := d.wr (Reg.PT_STAT_STATE p) 1
  (d.coresOf p).foldl (fun (d : Dev) c => d.stopEnd c 4) d

/-- FENCE_POINT (R345): the partition has stopped, the changes are applied. -/
def fencePoint (p : Nat) (d : Dev) : Dev :=
  if d.ptState p ≠ 2 ∨ ¬ d.allStopped (d.coresOf p) then d
  else
    let gone := d.coresOf p
    let d := d.fencePass p
    let d := (gone.filter fun c => !((d.coresOf p).contains c)).foldl (fun (d : Dev) c => d.stopEnd c 4) d
    if (d.part p).quiesce then (d.wr (Reg.PT_STAT_STATE p) 3).stopCores (d.coresOf p) 4 else d.ptGo p

/-- PARTITION_RESUME (Table PT-5). -/
def ptResume (p : Nat) (d : Dev) : Dev :=
  if d.ptState p ≠ 3 ∨ d.flag Reg.HBM_REHASH_BUSY then d.ptRefuse p 1 else d.ptGo p

/-- Whether RELEASE finds nothing of the partition at work (Table PT-5). -/
def releasable (d : Dev) (p : Nat) : Bool :=
  decide (d.inUse p = 0) && d.ctxs.all (fun e => e.2.part ≠ p || e.2.st = .closed)
    && (List.range 64).all (fun s => d.cfPart s ≠ p || d.cfSt s = 0)
    && (List.range 16).all (fun j => d.fryPart j ≠ p || d.frySt j = 0)
    && (List.range 256).all (fun q => d.rd (Reg.FRY_EQA_PART q) ≠ p || ((d.fryQ q).open_.isEmpty && (d.fryQ q).closed.isEmpty))

/-- PARTITION_RELEASE (Table PT-5). -/
def ptRelease (p : Nat) (d : Dev) : Dev :=
  if d.ptState p ≠ 1 ∧ d.ptState p ≠ 3 then d.ptRefuse p 1
  else if ¬ d.releasable p then d.ptRefuse p 7
  else d.fenceBegin p 4 false

/-- The sources of a partition (Table IC-1). -/
def partSrcs (d : Dev) (p : Nat) : List Nat :=
  (d.srcs.filter fun e => d.srcOwner e.1 = some p).map Prod.fst

/-- RELEASE_DONE (R126, R164, R309, R347, R355, R385, R445): the fence, then cores reset and tile stores zeroed, granules zeroed,
ownership cleared and both keys destroyed. -/
def releaseDone (p : Nat) (d : Dev) : Dev :=
  if d.ptState p ≠ 4 ∨ ¬ d.allStopped (d.coresOf p) then d
  else
    let d := d.fencePass p
    let cs := d.coresOf p
    let srcs := d.partSrcs p
    let d := cs.foldl (fun (d : Dev) c => ((d.stopEnd c 4).coreReset c).updCore c fun x => { x with ts := [] }) d
    let d := d.zeroGranules (mappedGranules (d.part p).pool)
    let d := srcs.foldl (fun (d : Dev) n => d.srcDisown n) d
    let d := { d with owner := tabKeep (fun k => tabGet 0 k d.owner ≠ p + 1) d.owner, rsv := tabKeep (fun k => tabGet 0 k d.rsv ≠ p + 1) d.rsv }
    -- units assigned by their own registers are free again
    let d := (List.range 64).foldl (fun (d : Dev) s =>
      if d.cfPart s = p then (d.clrF (Reg.CF_SLOT_V (s / 32) (s % 32))).wr (Reg.CF_SLOT_PART (s / 32) (s % 32)) 0 else d) d
    let d := (List.range 16).foldl (fun (d : Dev) j => if d.fryPart j = p then (d.clrF (Reg.FRY_JOB_V j)).wr (Reg.FRY_JOB_PART j) 0 else d) d
    let d := (List.range 256).foldl (fun (d : Dev) q =>
      if d.rd (Reg.FRY_EQA_PART q) = p then (d.clrF (Reg.FRY_EQA_V q)).wr (Reg.FRY_EQA_PART q) 0 else d) d
    let d := (List.range 16).foldl (fun (d : Dev) k =>
      if d.rd (Reg.CF_PLANCFG_PART (k / 8) (k % 8)) = p then (d.clrF (Reg.CF_PLANCFG_V (k / 8) (k % 8))).wr (Reg.CF_PLANCFG_PART (k / 8) (k % 8)) 0 else d) d
    let d := (d.freePasses p).regsReset (0x10020000 + 0x1000000 * p) 0x28
    let d := ((d.regsReset (0x64000 + 0x1800 * p) 0x1800).regsReset (0xe01000 + 0x1000 * p) 0x1000).regsReset (Reg.TRC_REGION p) 8
    let d := (d.regsReset (Reg.PT_CORES p 0) 0x20).regsReset (Reg.PT_POOLMAP p 0 0) 0x200
    let d := (List.range 64).foldl (fun (d : Dev) v => d.regsReset (Reg.IC_VCOAL p v) 8) d
    let d := ((d.regsReset (Reg.PT_WEIR p 0) 0x40).wr (Reg.PT_STAT_HSRC p) 0).wr (Reg.PT_STAT_LSRC p) 0
    let y := d.part p
    (d.setPart p { Part.reset with bme := y.bme, vfOn := y.vfOn, accJseq := y.accJseq, quiet := y.quiet, entering := y.entering,
                                   held := y.held }).wr (Reg.PT_STAT_STATE p) 0

/-! Extents and the reserve (R344, R346). -/

/-- EXTENT_ASSIGN: refused while an extent is owned elsewhere or holds stage-2 tables; BUSY until it is zeroed. -/
def extentAssign (p first n : Nat) (d : Dev) : Dev :=
  let l := (List.range n).map fun i => first + i
  let busy := (List.range 8).flatMap fun q =>
    if q = p then [] else (d.part q).zeroing.flatMap fun z => (List.range z.2).map fun i => z.1 + i
  let tables := if n = 0 then [] else d.tableExtents
  if n = 0 then d
  else if (d.part p).hkey.isNone then d.ptRefuse p 8
  else if l.any fun e => decide (extentCount ≤ e) || (d.ownerOf (e * extentBytes) ≠ 0 && d.ownerOf (e * extentBytes) ≠ p + 1)
      || busy.contains e || tables.contains e then d.ptRefuse p 4
  else d.updPart p fun x => { x with zeroing := x.zeroing ++ [(first, n)] }

/-- EXTENT_ZEROED: the oldest assignment completes; a CREATE that waited for it goes on. -/
def extentZeroed (p : Nat) (d : Dev) : Dev :=
  if d.devQuiet then d
  else
    match (d.part p).zeroing with
    | [] => d
    | (e, n) :: r =>
      let d := { d with
        hbm := tabClear (e * extentBytes) (n * extentBytes) d.hbm
        hbmPoison := tabClear (e * extentBytes / 32) (n * extentBytes / 32) d.hbmPoison
        owner := (List.range n).foldl (fun t i => tabPut 0 (e + i) (p + 1) t) d.owner }
      let d := d.updPart p fun x => { x with zeroing := r }
      if (d.part p).creating ∧ r = [] then d.createNow p else d

/-- EXTENT_REMOVE: at the next fence point. -/
def extentRemove (p first n : Nat) (d : Dev) : Dev :=
  let l := (List.range n).map fun i => first + i
  if n = 0 then d
  else if l.any fun e => d.ownerOf (e * extentBytes) ≠ p + 1 || [0, 1, 2].any fun i => tabGet 0 (3 * e + i) d.rsv ≠ 0 then d.ptRefuse p 4
  else (d.updPart p fun x => { x with pendRm := x.pendRm ++ [(first, n)] }).settle p

/-- RESERVE_ADD and RESERVE_TAKE. -/
def reserveOp (p first n : Nat) (add : Bool) (d : Dev) : Dev :=
  if (List.range n).any fun i => d.ownerOf ((first + i) * extentBytes) ≠ p + 1 then d.ptRefuse p 4
  else (d.updPart p fun x => { x with pendRsv := x.pendRsv ++ [(first, n, add)] }).settle p
def reserveAdd (p first n : Nat) (d : Dev) : Dev := d.reserveOp p first n true
def reserveTake (p first n : Nat) (d : Dev) : Dev := d.reserveOp p first n false

/-! Register writes with refusals (R346, R358). -/

/-- PT_CORES_n := mask. -/
def ptCores (p n mask : Nat) (d : Dev) : Dev :=
  let old := d.rd (Reg.PT_CORES_MASK p n)
  let m := if n = 2 then mask % 2 ^ 16 else mask % 2 ^ 64
  let added := ((List.range 64).filter fun i => bit m i && !(bit old i)).map fun i => 64 * n + i
  let elsewhere (c : Nat) : Bool := (List.range 8).any fun q => decide (q ≠ p) &&
    (bit (d.part q).cores c || bit (match (d.part q).pendCores with | some x => x | none => 0) c)
  if d.inUse p ≠ 0 ∨ (added.any fun c => elsewhere c || d.coreOffline c) then d.ptRefuse p 2
  else
    let d := d.wr (Reg.PT_CORES_MASK p n) m
    let all := d.rd (Reg.PT_CORES_MASK p 0) + d.rd (Reg.PT_CORES_MASK p 1) * 2 ^ 64 + d.rd (Reg.PT_CORES_MASK p 2) * 2 ^ 128
    (d.updPart p fun x => { x with pendCores := some all }).settle p

/-- PT_S2BASE. -/
def ptS2Base (p l1 base : Nat) (d : Dev) : Dev :=
  let d := (d.wr (Reg.PT_S2BASE_L1LOG p) l1).wr (Reg.PT_S2BASE_BASE p) base
  let v := d.rd (Reg.PT_S2BASE_L1LOG p) + d.rd (Reg.PT_S2BASE_BASE p) * 2 ^ 12
  (d.updPart p fun x => { x with pendS2 := some v }).settle p

/-- The granules that a partition maps now or after its next fence point. -/
def granulesOf (d : Dev) (p : Nat) : List Nat :=
  mappedGranules (d.part p).pool ++ (d.part p).pendPool.flatMap fun e =>
    ((List.range 8).map fun i => bits (e.2 - 1) (8 * i + 7) (8 * i)).filterMap fun b => if bit b 7 then some (e.1 / 12 * 128 + b % 128) else none

/-- PT_POOLMAP_d_j: refused whole when a valid byte names a granule of another partition, granule 95 of die 0, or one above 95. -/
def ptPoolMap (p die j v : Nat) (d : Dev) : Dev :=
  let bs := (List.range 8).map fun i => bits v (8 * i + 7) (8 * i)
  let others := ((List.range 8).filter fun q => decide (q ≠ p)).flatMap fun q => d.granulesOf q
  if bs.any fun b => bit b 7 && (decide (95 < b % 128) || (die = 0 && b % 128 = 95) || others.contains (die * 128 + b % 128)) then d.ptRefuse p 3
  else
    let d := d.wr (Reg.PT_POOLMAP_MAP p die j) v
    (d.updPart p fun x => { x with pendPool := tabPut 0 (12 * die + j) (v % 2 ^ 64 + 1) x.pendPool }).settle p

/-- PT_WEIR_r: refused when the MIN values of all partitions sum above 256. -/
def ptWeir (p r mn mx : Nat) (d : Dev) : Dev :=
  let sum := ((List.range 8).map fun q => if q = p then mn else d.rd (Reg.PT_WEIR_MIN q r)).sum
  if 256 < sum then d.ptRefuse p 6 else (d.wr (Reg.PT_WEIR_MIN p r) mn).wr (Reg.PT_WEIR_MAX p r) mx

/-! Keys (R355). -/

/-- Whether the HBM key may change: no extent owned or being zeroed, and no reserve. -/
def hkeyFree (d : Dev) (p : Nat) : Bool := (d.ownedExtents p).isEmpty && (d.part p).zeroing.isEmpty && (d.reservePages p).isEmpty
/-- Whether the link key may change: every GCM context of the partition is CLOSED. -/
def lkeyFree (d : Dev) (p : Nat) : Bool := d.ctxs.all fun e => e.2.part ≠ p || !e.2.gcm || e.2.st = .closed

def setHkey (p : Nat) (k : Option Nat) (srcCode : Nat) (d : Dev) : Dev :=
  (d.updPart p fun x => { x with hkey := k }).wr (Reg.PT_STAT_HSRC p) srcCode
def setLkey (p : Nat) (k : Option Nat) (srcCode : Nat) (d : Dev) : Dev :=
  (d.updPart p fun x => { x with lkey := k }).wr (Reg.PT_STAT_LSRC p) srcCode
/-- The key in PT_KEYDATA_0 to n − 1. -/
def keyData (d : Dev) (p n : Nat) : Nat := ((List.range n).map fun i => d.rd (Reg.PT_KEYDATA_DATA p i) * 2 ^ (64 * i)).sum
def keyDataClear (p : Nat) (d : Dev) : Dev := d.regsReset (Reg.PT_KEYDATA p 0) 0x40

/-- GENH: a key from the device's random source. -/
def genH (p : Nat) (d : Dev) : Dev :=
  if ¬ d.hkeyFree p then d.ptRefuse p 5 else let k := d.fresh; k.2.setHkey p (some k.1) 2
def loadH (p : Nat) (d : Dev) : Dev :=
  if ¬ d.hkeyFree p then d.ptRefuse p 5 else (d.setHkey p (some (d.keyData p 8)) 1).keyDataClear p
def loadL (p : Nat) (d : Dev) : Dev :=
  if ¬ d.lkeyFree p then d.ptRefuse p 5 else (d.setLkey p (some (d.keyData p 4)) 1).keyDataClear p
def clrHKey (p : Nat) (d : Dev) : Dev := if ¬ d.hkeyFree p then d.ptRefuse p 5 else d.setHkey p none 0
def clrL (p : Nat) (d : Dev) : Dev := if ¬ d.lkeyFree p then d.ptRefuse p 5 else d.setLkey p none 0

/-! Stage-1 invalidation (R343, R359). -/

/-- S1_INVALIDATE: queued behind the one in progress. -/
def s1Invalidate (p : Nat) (all : Bool) (va : Nat) (d : Dev) : Dev := d.updPart p fun x => { x with s1inv := x.s1inv ++ [(all, va)] }

/-- INVALIDATION_DONE: covered copies are gone; with ALL the stage-1 root takes effect. -/
def invalidationDone (p : Nat) (d : Dev) : Dev :=
  match (d.part p).s1inv with
  | [] => d
  | (all, va) :: r =>
    let root := d.rd (Reg.PT_S1BASE_L1LOG p) + d.rd (Reg.PT_S1BASE_BASE p) * 2 ^ 12
    d.updPart p fun x =>
      if all then { x with s1inv := r, tlb := [], s1base := root }
      else { x with s1inv := r, tlb := tabClear (va / 2 ^ 30 * 512) 512 x.tlb }

/-! Weirs (R348, R349). -/

/-- WEIR_WINDOW: whether the partition's MIN of resource r was met over the window; `cause` says why not. Shares change timing
only, so what the model shows is the suspension's record and event. -/
def weirWindow (p r : Nat) (unmet : Bool) (cause : Nat) (d : Dev) : Dev :=
  let was := tabGet 0 r (d.part p).susp
  let put (ongoing dur c : Nat) (d : Dev) : Dev :=
    ((((d.wr (Reg.PT_SUSP_RES p) r).wr (Reg.PT_SUSP_ONGOING p) ongoing).wr (Reg.PT_SUSP_CAUSE p) c).wr (Reg.PT_SUSP_DUR p) dur).irqEvent
      (3840 + 32 * p + 18)
  if unmet ∧ was = 0 then put 1 0 cause (d.updPart p fun x => { x with susp := tabPut 0 r (d.now + 1) x.susp })
  else if ¬ unmet ∧ was ≠ 0 then
    put 0 (min (2 ^ 32 - 1) ((d.now - (was - 1)) / 1024)) cause (d.updPart p fun x => { x with susp := tabPut 0 r 0 x.susp })
  else d

end Sys2Proof.Machine.Dev
end

