-- ==== Sys2Proof/Machine/RegRead.lean ====
section
/-!
DEFINITION. What a read of a register returns (R10, R13, R15): stored fields, the fields that follow hardware state ("live"), and
the side effects of a read. The clock and voltage of a field's domain play no part.
-/
namespace Sys2Proof.Machine.Dev

/-- Whether no record is ACCEPTED, RUNNING or COMMITTING (JNL_CTL.IDLE, with EN = 0). -/
def jnlQuiet (d : Dev) : Bool :=
  d.jrec.all fun e => e.2.st ≠ .accepted && e.2.st ≠ .running && e.2.st ≠ .committing

/-- A core's matrix status (R98). -/
def mxStat (d : Dev) (c : Nat) : List (Nat × Nat) :=
  let x := d.core c
  let m := x.mx
  let inBank (b : Nat) : Bool := match m.pass with
    | some p => decide (p.slot / 8 = b) && decide (p.phase ≠ .drain)
    | none => false
  let chk := match m.chk with | .try0 => 0 | .try1 => 1 | .try2 => 2 | .persistent => 3
  let tag (s : Nat) : Nat := match m.tag s with | .untagged => 0 | .f32 => 0 | .f16 => 1 | .i32 => 2 | .i16 => 3
  [(0, b2n (x.e1.queue.isEmpty && m.pass.isNone)), (1, b2n (inBank 0)), (2, b2n (inBank 1)),
    (3, b2n (match m.pass with | some p => decide (p.phase = .drain) | none => false)), (8, chk),
    (32, ((List.range 16).map fun s => tag s * 4 ^ s).sum)]

/-- Occupied rungs of a ladder, one bit each. -/
def ladOcc (l : Ladder) : Nat := ((l.filter fun e => e.1 < 12 && !(e.2.isEmpty)).map fun e => 2 ^ e.1).sum

/-- The oldest unfinished instruction of an engine in debug mode (DBG_HEAD): the head of its queue, or the scalar instruction that
waits. -/
def headWord (d : Dev) (c e : Nat) : Nat :=
  let x := d.core c
  if ¬ x.inDebug then 0
  else if e = 0 then
    (if x.e0.wait.isSome ∨ x.e0.releasing.isSome ∨ x.obj.isSome ∨ x.loadWait.isSome ∨ x.e0.cow.isSome then x.stallWord.toNat else 0)
  else match (x.eng e).queue with
    | q :: _ => q.word.toNat
    | [] => 0

/-- State of a stream context (STM_STAT). -/
def ctxCode (s : CtxSt) : Nat := match s with | .closed => 0 | .opening => 1 | .opened => 2 | .failed => 3

/-- Bell-dependent actions are fenced (R304). -/
def bellFenced (d : Dev) : Bool := d.blState = bsUNLOCKED || d.blState = bsFREE

/-- The context that STM_SEL names. -/
def selCtx (d : Dev) : Ctx := d.ctx (d.rd Reg.STM_SEL_CTX)

/-- Board-level determinism key words (R311). -/
def dkey0 (d : Dev) : Nat :=
  d.rd Reg.BL_DKEY0_STEP + d.rd Reg.MGT_ID0_FWREL * 2 ^ 8 + d.rd Reg.BL_DKEY0_NUMDEF * 2 ^ 32 + d.rd Reg.PWR_PROFILE_CUR * 2 ^ 40
def dkey1 (d : Dev) : Nat := d.rd (Reg.SFU_SETID_SETID 0)

/-- The fields of a register that follow hardware state: each field's lowest bit and its value. -/
def live (d : Dev) (r : RegName) (i : List Nat) : List (Nat × Nat) :=
  let a := i.getD 0 0
  let b := i.getD 1 0
  match r with
  | .MX_STAT => d.mxStat a
  | .MX_LADDER => [(0, ladOcc (d.core a).mx.lad0), (16, ladOcc (d.core a).mx.lad1)]
  | .VX_STAT =>
    let x := d.core a
    [(0, b2n x.e2.queue.isEmpty), (1, x.vx.ins.length), (4, x.vx.outs.length), (6, b2n x.e2.compat)]
  | .SFU_CTXDATA => [(0, d.ctxData a b % 2 ^ 32), (32, d.ctxData a b / 2 ^ 32)]
  | .SFU_FNMAP => [(0, d.fnMap a b)]
  | .SY_WDSTAT => [(4, ((List.range 4).map fun e => b2n (d.stalling a e) * 2 ^ e).sum)]
  | .HP => let v := d.hpReg a b; [(0, v % 2), (1, v / 2 % 2), (8, bits v 15 8), (16, bits v 47 16), (48, bits v 55 48)]
  | .DMA_STAT =>
    let n := match (d.core a).dm.job with | some j => j.inflight.length | none => 0
    [(0, b2n ((d.core a).e3.queue.isEmpty && decide (n = 0))), (1, n)]
  | .SPW_POS => [(0, match (d.core a).dm.job with | some j => j.recOut | none => 0)]
  | .RTE_OCC => [(0, ((List.range 8).map fun v => min 255 ((d.link a).vc v).occ * 256 ^ v).sum)]
  | .STM_CFG => let x := d.selCtx; [(0, x.fdev), (20, x.fctx), (37, x.part), (40, b2n x.gcm)]
  | .STM_STAT => let x := d.selCtx; [(0, ctxCode x.st), (32, x.confirmB)]
  | .STM_SEQ => let x := d.selCtx; [(0, x.n), (32, x.b)]
  | .STM_CNT => let x := d.selCtx; [(0, x.retx), (24, x.dups), (48, x.outwin)]
  | .CF_STAT =>
    let n (st : Nat) : Nat := ((List.range 32).filter fun s => d.cfSt (32 * a + s) = st).length
    [(0, n 1), (6, n 2)]
  | .FRY_STAT =>
    [(0, ((List.range 16).filter fun j => d.frySt j = 2).length), (5, ((List.range 256).map fun q => (d.fryQ q).open_.length).sum)]
  | .FRY_EQS => [(32, (d.fryQ a).closed.length), (40, match (d.fryQ a).open_ with | x :: _ => x.rows | [] => 0)]
  | .BL_NOW => [(0, d.now)]
  | .TT_NOW => [(0, d.now)]
  | .BL_DKEY0 => [(8, d.rd Reg.MGT_ID0_FWREL), (40, d.rd Reg.PWR_PROFILE_CUR)]
  | .BL_DKEY1 => [(0, d.dkey1)]
  | .TT_DKEY0 => [(0, d.dkey0)]
  | .TT_DKEY1 => [(0, d.dkey1)]
  | .TT_STAT => [(48, b2n d.bellFenced), (49, d.blState)]
  | .JNL_PSTAT => [(0, d.inUse a), (32, (d.freePages a).length)]
  | .JNL_CTL => [(1, b2n (!(d.flag Reg.JNL_CTL_EN) && d.jnlQuiet))]
  | .PT_STAT => [(3, b2n (d.isQuiet a))]
  | .PT_EXTOP => [(36, b2n (!((d.part a).zeroing.isEmpty && (d.part a).pendRm.isEmpty)))]
  | .PT_EXTCNT => [(0, (d.ownedExtents a).length), (17, (d.reservePages a).length)]
  | .PT_S1INV => [(1, b2n (!(d.part a).s1inv.isEmpty))]
  | .QT_STAT =>
    [(0, b2n d.devQuiet), (1, b2n d.bellQuiet), (2, ((List.range 8).map fun p => b2n (d.isQuiet p) * 2 ^ p).sum),
      (10, b2n (d.pins.quietN || d.flag Reg.RST_STAT_INRESET))]
  | .ERR_SUMMARY => [(0, ((List.range 64).map fun b => b2n (d.bankPrim b) * 2 ^ b).sum)]
  | .ERR_STAT => [(0, b2n (d.bankPrim a)), (1, b2n (d.bankPend a))]
  | .IRQ_PEND => [(0, d.pendMap a)]
  | .THM_STAT => [(13, b2n (d.rd Reg.THM_STAT_LVL0 < 16 || d.rd Reg.THM_STAT_LVL1 < 16))]
  | .DBG_CORECTL => [(10, b2n (d.core (d.rd Reg.DBG_CORECTL_LCORE)).inDebug)]
  | .DBG_HEAD => [(0, d.headWord (d.rd Reg.DBG_CORECTL_LCORE) a)]
  | .HIF_STAT => [(10, ((List.range 8).map fun p => b2n ((d.part p).vfOn && (d.part p).bme) * 2 ^ p).sum)]
  | .HIF_MODID => [(8, ((List.range 8).map fun c => d.rd (Reg.LAS_SLOT_PRSNT c) * 2 ^ c).sum)]
  | .MGT_ID0 => [(0, d.rd Reg.BL_DKEY0_STEP)]
  | _ => []

/-- A register's value (R10): its fields, live or stored; WO and RSVD bits read zero. -/
def regVal (d : Dev) (r : RegName) (i : List Nat) : Nat :=
  match r with
  | .ST_STAT => d.stStat (i.getD 0 0) (i.getD 1 0)
  | .IRQ_SCFG => d.srcCfgValue (d.rd Reg.IRQ_SEL_SRC)
  | .IRQ_STMASK => (d.src (d.rd Reg.IRQ_SEL_SRC)).tmask
  | .IRQ_SSTAT => d.srcStatValue (d.rd Reg.IRQ_SEL_SRC) true
  | .IC_PCFG => d.srcCfgValue (d.rd (Reg.IC_PSEL_SRC (i.getD 0 0)))
  | .IC_PTMASK => (d.src (d.rd (Reg.IC_PSEL_SRC (i.getD 0 0)))).tmask
  | .IC_PSTAT => d.srcStatValue (d.rd (Reg.IC_PSEL_SRC (i.getD 0 0))) false
  | _ =>
    let l := d.live r i
    (fieldsOf r i).foldl (fun a f =>
      if f.ty = .wo then a
      else a + (match l.lookup f.lo with | some v => v % 2 ^ f.width | none => d.rd f) * 2 ^ f.lo) 0

/-- The value of the register at an address of the PF's BAR0 space; 0 where there is none. -/
def regAtVal (d : Dev) (addr : Nat) : Nat :=
  match regAt addr with
  | some (r, i) => d.regVal r i
  | none => 0

/-- RC fields clear once at a read (R15). -/
def rcClear (r : RegName) (i : List Nat) (d : Dev) : Dev :=
  let d := ((fieldsOf r i).filter fun f => f.ty = .rc).foldl (fun (d : Dev) f => d.wr f 0) d
  match r with
  | .STM_CNT =>
    let k := d.rd Reg.STM_SEL_CTX
    d.setCtx k { d.ctx k with retx := 0, dups := 0, outwin := 0 }
  | .THM_SENS => { d with thmSeen := setBit d.thmSeen (i.getD 0 0) false }
  | _ => d

end Sys2Proof.Machine.Dev
end

