-- ==== Sys2Proof/Machine/Debug.lean ====
section
/-!
DEFINITION. Debug, trace and counters (R433 to R445): captures of snapshot groups, marks, named dumps, single-stepping, core stops
and the test access port. The cycle counters of R433 count clock cycles, which the model has none of: they hold what a clear left.
-/
namespace Sys2Proof.Machine.Dev

/-- CLR (R434): every engine cycle counter returns to zero. -/
def cntClr (d : Dev) : Dev := { d with regs := tabClear (0xf10000 * 64) (0x400 * 144 * 64) d.regs }

/-! Snapshots (R435, R436). -/

/-- Whether a group names a set of registers (Table DB-2). -/
def grpValid (d : Dev) (g : Nat) : Bool :=
  let k := d.rd (Reg.CNT_GRP_KIND g)
  let n := d.rd (Reg.CNT_GRP_NUM g)
  let s := d.rd (Reg.CNT_GRP_SEL g)
  1 ≤ k && k ≤ 10 && (!(d.flag (Reg.CNT_GRP_OV g)) || k ≤ 4) && (!(k = 1 || k = 3) || (1 ≤ n && n ≤ 13)) &&
    (!(k = 6) || (1 ≤ n && s + n ≤ 32)) && (!(k = 5) || s < 12) && (!(k = 8) || s < 8) && (!(k = 10) || s < 64) &&
    (!(k = 2 || k = 4) || d.flag (Reg.CNT_GRP_OV g) || s < 8)

/-- The device logical core of a group's i-th core: partition-local in a partition-owned group. -/
def grpCore (d : Dev) (g i : Nat) : Option Nat :=
  let n := d.rd (Reg.CNT_GRP_SEL g) + i
  if d.flag (Reg.CNT_GRP_OV g) then d.deviceNo (d.rd (Reg.CNT_GRP_OWNER g)) n
  else if n < 144 then some n else none

/-- The partition of a group of KIND 2 or 4. -/
def grpPart (d : Dev) (g : Nat) : Nat :=
  if d.flag (Reg.CNT_GRP_OV g) then d.rd (Reg.CNT_GRP_OWNER g) else d.rd (Reg.CNT_GRP_SEL g)

/-- The registers of a group in the order of Table DB-2; none stands for a core that is not there, which reads zero. -/
def grpRegs (d : Dev) (g : Nat) : List (Option (RegName × List Nat)) :=
  let sel := d.rd (Reg.CNT_GRP_SEL g)
  let num := List.range (d.rd (Reg.CNT_GRP_NUM g))
  let p := d.grpPart g
  match d.rd (Reg.CNT_GRP_KIND g) with
  | 1 => num.flatMap fun i => (List.range 4).flatMap fun e =>
      match d.grpCore g i with
      | none => List.replicate 19 none
      | some c => [some (.CNT_BUSY, [c, e]), some (.CNT_STALL, [c, e]), some (.CNT_IDLE, [c, e])]
          ++ (List.range 16).map fun k => some (.CNT_REASON, [c, e, k])
  | 2 => ((List.range 64).map fun m => some (.PH_BIN, [p, m])) ++ [some (.PH_AUX, [p])]
  | 3 => num.flatMap fun i =>
      match d.grpCore g i with
      | none => List.replicate 4 none
      | some c => [some (.SPW_IN, [c]), some (.SPW_OUT, [c]), some (.SPW_RAWROW, [c]), some (.DMA_FRAGCNT, [c])]
  | 4 => [some (.JNL_PSTAT, [p]), some (.JNL_JSEQ, [p])] ++ (List.range 64).flatMap fun r =>
      [some (.RING_ACC, [p, r]), some (.RING_DONE, [p, r]), some (.RING_STAT, [p, r])]
  | 5 => ((List.range 64).map fun n => some (.HBM_HOT, [sel, n])) ++
      [some (.SCR_SUM0, [sel]), some (.SCR_SUM1, [sel]), some (.HBM_ECCCNT, [sel]), some (.HBM_UECNT, [sel]), some (.HBM_REFCNT, [sel])]
  | 6 => num.flatMap fun i => [some (.LNK_FECCNT, [sel + i]), some (.LNK_RETRYCNT, [sel + i]), some (.LNK_EVCNT, [sel + i]),
      some (.LNK_TSEQ, [sel + i]), some (.LNK_RXBODY, [sel + i])]
  | 7 => ((List.range 7).map fun i => some (.PWR_ENERGY, [i])) ++ [some (.PWR_VIN, [])]
  | 8 => ((List.range 4).map fun w => some (.LAS_ID, [sel, w])) ++ [some (.LAS_WEAR, [sel])]
  | 9 => (List.range 64).map fun n => some (.IRQ_PEND, [n])
  | 10 => [some (.ERR_STAT, [sel])] ++ ((List.range 4).map fun w => some (.ERR_P, [sel, w]))
      ++ (List.range 4).map fun w => some (.ERR_Q, [sel, w])
  | _ => []

/-- The partition histogram of unit PH_SEL.UNIT: the bin-wise saturating sum over the partition's cores (R119), loaded into PH_BIN
and PH_AUX. -/
def histSum (p : Nat) (d : Dev) : Dev :=
  let k := d.rd (Reg.PH_SEL_UNIT p)
  let sum (f : Nat → Fld) : Nat := min (2 ^ 32 - 1) (((d.coresOf p).map fun c => d.rd (f c)).sum)
  let d' := (List.range 64).foldl (fun (x : Dev) m =>
    (x.wr (Reg.PH_BIN_BIN_LO p m) (sum fun c => Reg.GAU_HBIN_BIN_LO c k m)).wr (Reg.PH_BIN_BIN_HI p m) (sum fun c => Reg.GAU_HBIN_BIN_HI c k m)) d
  (d'.wr (Reg.PH_AUX_ZERO p) (sum fun c => Reg.GAU_HAUX_ZERO c k)).wr (Reg.PH_AUX_NAN p) (sum fun c => Reg.GAU_HAUX_NAN c k)

/-- A record's words in the group's record buffer, in place of the last record. -/
def recWords (g : Nat) (ws : List Nat) (d : Dev) : Dev :=
  let d := { d with regs := tabClear (Reg.CNT_REC g 0 * 64) (0x2000 * 64) d.regs }
  ws.zipIdx.foldl (fun (d : Dev) x => d.wr (Reg.CNT_REC_WORD g x.2) x.1) d

/-- The captured record is written at CNT_GDST: closed in quiet state, and a translation fault sets DSTERR (R436). -/
def recOut (g : Nat) (ws : List Nat) (d : Dev) : Dev :=
  let va := d.rd (Reg.CNT_GDST_VA g)
  let p := d.rd (Reg.CNT_GRP_OWNER g)
  if ¬ d.flag (Reg.CNT_GRP_OV g) ∨ va = 0 ∨ d.isQuiet p then d
  else
    match d.vaWrite p none va (ws.flatMap (leBytes 8)) with
    | (.ok _, d) => d
    | (.error _, d) => d.setF (Reg.CNT_GRP_DSTERR g)

/-- The copy itself (R435): all values at one bell time; with CLR the RC fields clear in the same step. -/
def captureNow (g : Nat) (d : Dev) : Dev :=
  let d := if d.rd (Reg.CNT_GRP_KIND g) = 2 then d.histSum (d.grpPart g) else d
  let regs := d.grpRegs g
  let body := regs.map fun r => match r with | some (n, i) => d.regVal n i | none => 0
  let head := [g + d.rd (Reg.CNT_GRP_KIND g) * 2 ^ 8 + body.length * 2 ^ 16, d.now, (d.rd (Reg.CNT_REC_WORD g 2) + 1) % 2 ^ 64, 0]
  let d := if d.flag (Reg.CNT_GRP_CLR g) then
      regs.foldl (fun (d : Dev) r => match r with | some (n, i) => d.rcClear n i | none => d) d
    else d
  (d.recWords g (head ++ body)).recOut g (head ++ body)

/-- A trigger of group g (R436): the first starts a capture, the next in that time is served by one further, the others merge. -/
def captureTrigger (g : Nat) (d : Dev) : Dev :=
  if ¬ d.grpValid g then d
  else
    match tabGet 0 g d.caps with
    | 0 => { d with caps := tabPut 0 g 1 d.caps }
    | 1 => { d with caps := tabPut 0 g 2 d.caps }
    | _ => d.incSat (Reg.CNT_GRP_MERGED g) 1

/-- CAPTURE: a triggered group is captured. -/
def capture (g : Nat) (d : Dev) : Dev :=
  let n := tabGet 0 g d.caps
  if n = 0 then d else ({ d with caps := tabPut 0 g (n - 1) d.caps }).captureNow g

/-! Trace and dumps (R437, R439). -/

/-- MARK: a write of PD_TRCMARK. -/
def traceMark (p v : Nat) (d : Dev) : Dev := d.traceCmd p teMARK JRec.reset v

/-- The first entry of a name table with a name, from entry i on. -/
def dumpFind (p : Nat) (name : List Byte) : List Nat → Dev → Option Dump × Dev
  | [], d => (none, d)
  | i :: is, d =>
    match d.vaRead p none (d.rd (Reg.PD_DUMPTAB_VA p) + 64 * i) 64 with
    | (.error _, d) => dumpFind p name is d
    | (.ok b, d) =>
      if b.take 32 = name then
        (some { name := name, va := byteField b 32 8, len := byteField b 40 8, fmt := byteField b 48 1 }, d)
      else dumpFind p name is d

/-- DUMP_ARM (R439): STEP is stored and the table searched; an entry whose LEN is out of range arms nothing. -/
def dumpArm (p step : Nat) (d : Dev) : Dev :=
  if (d.part p).dump.isSome then d
  else
    let d := d.wr (Reg.PD_DUMPCFG_STEP p) step
    let name := (List.range 4).flatMap fun n => leBytes 8 (d.rd (Reg.PD_DUMPNAME_BYTES p n))
    match d.dumpFind p name (List.range (d.rd (Reg.PD_DUMPTAB_ENTRIES p) + 1)) with
    | (some u, d) =>
      if 1 ≤ u.len ∧ u.len ≤ 2 ^ 30 then (d.updPart p fun x => { x with dump := some u }).setF (Reg.PD_DUMPSTAT_ARMED p)
      else d.setF (Reg.PD_DUMPSTAT_ARMERR p)
    | (none, d) => d.setF (Reg.PD_DUMPSTAT_ARMERR p)

/-! Single-stepping and debug stops (R440, R441). -/

/-- A write of PD_STEP (R440): EN := 0 releases any hold as GO does. -/
def pdStep (p : Nat) (en go : Bool) (d : Dev) : Dev :=
  let d := d.wr (Reg.PD_STEP_EN p) (b2n en)
  if go ∨ ¬ en then d.stepRelease p else d

/-- STEP_GO. -/
def stepGo (p : Nat) (d : Dev) : Dev := d.stepRelease p

/-- STOP and RESUME: DBG_CORECTL. -/
def debugStop (c : Nat) (d : Dev) : Dev := (d.wr Reg.DBG_CORECTL_LCORE c).stopReq c 1
def debugResume (c : Nat) (d : Dev) : Dev := (d.wr Reg.DBG_CORECTL_LCORE c).stopEnd c 1

/-! The test access port (R443, R467). -/

/-- The IDCODE value (R443). -/
def idcodeVal (d : Dev) : Nat := d.rd Reg.BL_DKEY0_STEP % 16 * 2 ^ 28 + 0x7140 * 2 ^ 12 + 0xA5D

end Sys2Proof.Machine.Dev
end

