-- ==== Sys2Proof/Machine/Reset.lean ====
section
/-!
DEFINITION. Resets, bring-up and the power domains (R413 to R416, R421 to R424, R451, R452, R457): what each level reaches and keeps.
A row that starts a device reset takes its steps at once and leaves the device in reset; a bring-up row ends it.
-/
namespace Sys2Proof.Machine.Dev

/-- The partitions that are not FREE, one bit each (Table AW-8, byte 9). -/
def livePartitions (d : Dev) : Nat := ((List.range 8).map fun p => b2n (decide (d.ptState p ≠ 0)) * 2 ^ p).sum

/-- A requester's latch and holding register are emptied (R14). -/
def clearPort (r : Nat) (d : Dev) : Dev := d.setPort r ReqPort.reset

/-! Partition and core resets (Table MG-5). -/

/-- PARTITION_RESET: the commands that name its cores or armed its units take a replayable event, then its cores, slots, jobs and
sources are reset. Absorbed in a device reset (R424). -/
def partitionReset (p : Nat) (d : Dev) : Dev :=
  if d.flag Reg.RST_STAT_INRESET then d
  else
    let d := d.jrPartEvent p fun c => decide (1 ≤ c.op ∧ c.op ≤ 3)
    let d := (d.coresOf p).foldl (fun (d : Dev) c => d.coreReset c) d
    let d := d.unitsEnd p
    (d.partSrcs p).foldl (fun (d : Dev) n => d.srcIdle n) d

/-- CORE_RESET by RST_CTL: the command that names the core takes a replayable event. -/
def coreResetCmd (c : Nat) (d : Dev) : Dev :=
  if d.flag Reg.RST_STAT_INRESET then d else (d.jrCoreEvent c).coreReset c

/-! Warm device reset (R423). -/

/-- Registers that a warm device reset leaves as they are: the always-on domain's, and the configuration that the owning chapters
keep (R126, R206, R212, R234, R253, R277, R279, R294, R314, R334, R335, R358, R374, R385, R406, R432, R444, R471). -/
def warmKept (k : Nat) : Bool :=
  let a := k / 64
  let within (lo n : Nat) : Bool := decide (lo ≤ a ∧ a < lo + n)
  if a < 0x80000 then true
  else if a < 0x100000 then decide (a ≠ Reg.HIF_STAT)
  else if a < 0x400000 then true
  else if a < 0x600000 then
    let o := a % 0x10000
    decide (o = 0) || decide (0x10 ≤ o ∧ o < 0x28) || decide (0x1000 ≤ o ∧ o < 0x2000) || decide (0xf000 ≤ o)
  else if a < 0x800000 then true
  else if a < 0xc00000 then
    let o := a % 0x40000
    decide (o = 8) || decide (0x100 ≤ o ∧ o < 0x3000) || (decide (0x3000 ≤ o ∧ o < 0x3800) && decide (o % 0x40 = 0))
  else if a < 0xf00000 then true
  else if a < 0x1000000 then !(within 0xf10000 0x70000)
  else if a < 0x10000000 then true       -- core windows: coreReset keeps what they keep
  else !(decide (0x20040 ≤ a % 0x1000000) && decide (a % 0x1000000 < 0x21000))

/-- Every open or opening stream context fails (Table RT-4). -/
def streamsFail (d : Dev) : Dev :=
  let d := (d.ctxs.map Prod.fst).foldl (fun (d : Dev) k => d.streamFailNow k) d
  { d with ctxs := d.ctxs.map fun e => if e.2.st = .opening then (e.1, { e.2 with st := .failed }) else e }

/-- Slots, jobs and queues empty (R277, R293). -/
def unitsEmpty (d : Dev) : Dev :=
  let d := (List.range 8).foldl (fun (d : Dev) p => d.unitsEnd p) d
  { d with cfs := [], cfEarly := [], fry := [], fryq := [], fryOut := [] }

/-- The merge buffers drain, and every stack that can enters self-refresh (R206). -/
def stacksRefresh (d : Dev) : Dev :=
  let d := { (d.merge.foldl (fun (d : Dev) e => d.mergeRetire e false) d) with merge := [] }
  (List.range 12).foldl (fun (d : Dev) k =>
    if d.rd (Reg.HBM_STAT_STATE k) = 2 then d.wr (Reg.HBM_STAT_STATE k) 3 else d) d

/-- Invalidations in progress complete: no cached copy outlives the reset. -/
def invalidationsEnd (p : Nat) (d : Dev) : Dev :=
  (List.range (d.part p).s1inv.length).foldl (fun (d : Dev) _ => d.invalidationDone p) d

/-- What the links, the router and the units without registers lose. -/
def volatileReset (d : Dev) : Dev :=
  let d := (List.range 32).foldl (fun (d : Dev) l => d.lkDown l) d
  let d := (List.range 8).foldl (fun (d : Dev) p =>
    (d.invalidationsEnd p).updPart p fun x => { x with tlb := [], trcBuf := [], trcLost := 0, bme := false, vfOn := false }) d
  { d with
    links := d.links.map fun e => (e.1, { Link.reset with light := e.2.light, train := e.2.train })
    inject := [], arrived := [], msgs := [], draining := 0, reshaped := false
    rolls := [], nocFlags := [], hot := [], scrubs := [], caps := []
    vmask := [], pba := [], msixEn := 0, spdm := []
    ports := tabKeep (fun r => decide (r = 9 ∨ r = 10)) d.ports }

/-- Device scope ends at a warm device reset (R363): the exit actions of the partitions that no other scope covers. -/
def devQuietEnd (d : Dev) : Dev :=
  if ¬ d.devQuiet then d
  else
    let d := ({ d with devQuiet := false, devEntering := false }).wr Reg.QT_STAT_DEVCAUSE 0
    (List.range 8).foldl (fun (d : Dev) p => if (d.part p).quiet then d else d.exitActions p) d

/-- Steps 1 to 5 of R423. -/
def warmSteps (d : Dev) : Dev :=
  let d := (List.range 8).foldl (fun (d : Dev) p => d.jrPartEvent p fun _ => true) d
  let d := (d.streamsFail.unitsEmpty).stacksRefresh
  let d := (List.range 144).foldl (fun (d : Dev) c => d.coreReset c) d
  let d := d.volatileReset
  let d := { d with regs := tabKeep warmKept d.regs }
  -- slots and jobs are IDLE, their assignment is kept
  let d := (List.range 64).foldl (fun (d : Dev) s => d.wr (Reg.CF_SLOT_STATE (s / 32) (s % 32)) 0) d
  let d := (List.range 16).foldl (fun (d : Dev) j => d.wr (Reg.FRY_JOB_STATE j) 0) d
  d.irqWarm.devQuietEnd

/-- A warm device reset (Table MG-5): absorbed in any device reset (R424); after a trip the only exit is a cold reset. -/
def warmReset (cause : Nat) (d : Dev) : Dev :=
  if d.flag Reg.RST_STAT_INRESET ∨ d.flag Reg.THM_STAT_TRIPPED then d
  else
    let d := (((((d.incWrap Reg.RST_STAT_WARMS 1).wr Reg.RST_STAT_LAST 2).wr Reg.RST_STAT_CAUSE cause).setF Reg.RST_STAT_INRESET).clrF
      Reg.RST_STAT_READY)
    (d.warmSteps.quietPin).alertPin

/-! Cold reset (R421, R422, R428). -/

/-- Fused values, straps, inputs and live measurements, which no reset sets. -/
def coldKept : List Fld :=
  [Reg.MGT_SERIAL_SERIAL, Reg.MGT_BOOT_SEL, Reg.MGT_BOOT_SVN, Reg.HIF_MODID_CODE, Reg.HIF_MODID_BALMAX, Reg.HIF_MODID_FLEET,
    Reg.HIF_MODID_SMBADDR, Reg.BL_DKEY0_STEP, Reg.BL_DKEY0_NUMDEF, Reg.PWR_VIN_VIN, Reg.PWR_VIN_PIN]
  ++ ((List.range 48).map fun s => Reg.THM_SENS_TEMP s) ++ ((List.range 12).map fun k => Reg.HBM_STAT_TEMP k)
  ++ (List.range 8).map fun c => Reg.LAS_SLOT_PRSNT c

/-- The retirement list at a cold reset (R368): in each quadrant the first listed core goes to the spare unless the spare is listed,
and every other listed core is offline. -/
def retireAgain (d : Dev) : Dev :=
  let spareGone (q : Nat) : Bool := d.retList.any fun e => e.1 / 18 = q && e.2 = 18
  let d := (List.range 8).foldl (fun (d : Dev) q =>
    if spareGone q then d.wr Reg.SP_STAT_AVAIL (setBit (d.rd Reg.SP_STAT_AVAIL) q false) else d) d
  (d.retList.filter fun e => e.2 ≠ 18).foldl (fun (d : Dev) e =>
    let c := e.1
    let q := c / 18
    if bit (d.rd Reg.SP_STAT_AVAIL) q then
      let d := (d.updCore c fun x => { x with onSpare := true }).wr Reg.SP_STAT_AVAIL (setBit (d.rd Reg.SP_STAT_AVAIL) q false)
      (d.wr (Reg.SP_MAP_RET q) e.2).setF (Reg.SP_MAP_RV q)
    else if (d.core c).onSpare then d
    else
      let d := { d with offline := setBit d.offline c true }
      ((d.wr (Reg.SP_MAP_OFFL q) c).setF (Reg.SP_MAP_OV q)).wr Reg.SP_STAT_OFFLINE (setBit (d.rd Reg.SP_STAT_OFFLINE) q true)) d

/-- The listed pairs stay retired (Table FT-6). -/
def pairsAgain (d : Dev) : Dev :=
  (List.range 6).foldl (fun (d : Dev) k =>
    if bit d.pairList k then
      let d := (d.wr (Reg.HBM_STAT_STATE (2 * k)) 4).wr (Reg.HBM_STAT_STATE (2 * k + 1)) 4
      (d.wr Reg.SP_STAT_PAIRRET (setBit (d.rd Reg.SP_STAT_PAIRRET) k true)).wr Reg.JNL_STAT_LOSTPAIR
        (setBit (d.rd Reg.JNL_STAT_LOSTPAIR) k true)
    else d) d

/-- Everything at its reset value, but for what a cold reset keeps (Table MG-5), what lies outside the device, and the lists applied
again. The device stays in reset until COLD_BRING_UP. -/
def coldNow (cause : Nat) (d : Dev) : Dev :=
  let d := (List.range 8).foldl (fun (d : Dev) c => if bit d.lsen c then d.emit (.lsen c false) else d) d
  let keys := coldKept.map Fld.key
  let e : Dev := { Dev.reset with
    regs := tabKeep (fun k => keys.contains k) d.regs
    ctr := d.ctr, out := d.out, host := d.host, hostPoison := d.hostPoison, retList := d.retList, pairList := d.pairList
    imgA := d.imgA, imgB := d.imgB, fwReady := d.fwReady, log := d.log
    links := (d.links.map fun x => (x.1, { Link.reset with light := x.2.light })).filter fun x => x.2 ≠ Link.reset
    modLow := d.modLow, perstLow := d.perstLow, vinLow := d.vinLow, vstby := d.vstby }
  (((e.wr Reg.RST_STAT_CAUSE cause).retireAgain.pairsAgain).quietPin).alertPin

/-- Every sensor and every stack reads at least 20 °C below its trip threshold (R428). -/
def trippedCool (d : Dev) : Bool :=
  (List.range 48).all (fun s => decide ((BitVec.ofNat 16 (d.rd (Reg.THM_SENS_TEMP s))).toInt + 320 ≤ 16 * (d.rd Reg.THM_CFG_TRIP : Int)))
    && (List.range 12).all fun k => decide (d.rd (Reg.HBM_STAT_TEMP k) + 20 ≤ d.rd Reg.THM_CFG_STRIP)

/-- A cold reset (R421, R422): absorbed in a cold reset, refused after a trip until the device has cooled; any trigger but power-on
and the input supply writes the guarantee-end record first. -/
def coldReset (cause : Nat) (d : Dev) : Dev :=
  if d.flag Reg.THM_STAT_TRIPPED then
    if d.trippedCool then (d.guaranteeEnd 1 d.livePartitions).coldNow 7 else d.setF Reg.RST_STAT_REFUSED
  else if d.flag Reg.RST_STAT_INRESET ∧ d.rd Reg.RST_STAT_LAST = 1 then d
  else (if cause = 0 ∨ cause = 6 then d else d.guaranteeEnd 1 d.livePartitions).coldNow cause

/-! Pins and functions (R449, R457). -/

/-- MOD_RESET_N as ten consecutive samples found it. -/
def modResetN (low : Bool) (d : Dev) : Dev :=
  if low then (({ d with modLow := true }).coldReset 1) else { d with modLow := false }

/-- PERST_N asserted or deasserted. -/
def perstN (asserted : Bool) (d : Dev) : Dev :=
  if asserted then ({ d with perstLow := true }).warmReset 2 else { d with perstLow := false }

/-- A function's host configuration returns to its reset state. -/
def vfConfigReset (p : Nat) (d : Dev) : Dev :=
  let d := (d.clearPort (p + 1)).updPart p fun x => { x with bme := false }
  { d with msixEn := setBit d.msixEn p false, vmask := tabClear (p * 64) 64 d.vmask, pba := tabClear (p * 64) 64 d.pba,
           spdm := tabPut Spdm.reset (p + 1) Spdm.reset d.spdm }

/-- FUNCTION_LEVEL_RESET (R14, R457): function 0 is the PF, p + 1 the VF of partition p. -/
def functionLevelReset (fn : Nat) (d : Dev) : Dev :=
  if fn = 0 then
    let d := (d.clearPort 0).warmReset 3
    (List.range 8).foldl (fun (d : Dev) p => d.updPart p fun x => { x with vfOn := false }) d
  else (d.vfConfigReset (fn - 1)).partitionReset (fn - 1)

/-! Power domains (R415, R416). -/

/-- The registers in [a, a + n) but for the given fields return to their reset values. -/
def regsResetBut (keep : List Fld) (a n : Nat) (d : Dev) : Dev :=
  let ks := keep.map Fld.key
  { d with regs := tabKeep (fun k => !(decide (a * 64 ≤ k) && decide (k < (a + n) * 64)) || ks.contains k) d.regs }

/-- The hall pass records of a returning PL0 are held by 0xFF with no live epoch (R164). -/
def passesLost (d : Dev) : Dev :=
  (List.range 512).foldl (fun (d : Dev) k =>
    let h := d.pass (k / 64) (k % 64)
    d.setPass (k / 64) (k % 64) { held := true, owner := 0xFF, epoch := 0, mark := true, waiters := h.waiters }) d

/-- The registers and stores of a domain's subsystems at their reset values (R415). -/
def domainFresh (n : Nat) (d : Dev) : Dev :=
  if n < 8 then
    (List.range 18).foldl (fun (d : Dev) i =>
      let c := 18 * n + i
      let spare := (d.core c).onSpare
      (d.regsReset (0x1000000 + 0x10000 * c) 0x10000).setCore c { Core.reset with onSpare := spare }) d
  else if n < 10 then
    let k := (n - 8) * 2 ^ 28
    let d := { d with pool := tabClear k (2 ^ 28) d.pool, poolPoison := tabClear (k / 32) (2 ^ 28 / 32) d.poolPoison }
    if n = 8 then d.passesLost else d
  else if n < 16 then d
  else if n < 20 then
    (List.range 8).foldl (fun (d : Dev) i =>
      let l := 8 * (n - 16) + i
      (d.regsReset (0x600000 + 0x4000 * l) 0x4000).updLink l fun x => { Link.reset with light := x.light }) d
  else if n < 22 then
    let e := n - 20
    { d.regsReset (0x800000 + 0x40000 * e) 0x40000 with cfs := tabClear (32 * e) 32 d.cfs }
  else if n = 22 then { d.regsReset 0xc00000 0x100000 with fry := [], fryq := [], fryOut := [] }
  else if n = 24 then
    let d := (List.range 8).foldl (fun (d : Dev) p => d.updPart p fun x => { x with trcBuf := [], trcLost := 0, dump := none }) d
    { d.regsResetBut [Reg.DBG_CHAL_CHAL] 0xd00000 0x300000 with caps := [] }
  else d

/-- The code of Table MG-3 that refuses a switch-off, or none. -/
def domainBusy (d : Dev) (n : Nat) : Option Nat :=
  if n < 8 then if (List.range 18).any fun i => (d.coreOwner (18 * n + i)).isSome then some 1 else none
  else if n < 10 then
    if ((List.range 8).any fun p => (d.granulesOf p).any fun g => g / 128 = n - 8) || (n = 8 && decide (d.livePartitions ≠ 0)) then some 2
    else none
  else if n < 16 ∨ n = 23 then some 3
  else if n = 20 ∨ n = 21 then if (List.range 32).any fun s => d.cfSt (32 * (n - 20) + s) ≠ 0 then some 4 else none
  else if n = 22 then
    if (List.range 16).any (fun j => d.flag (Reg.FRY_JOB_V j)) || (List.range 256).any fun q => d.flag (Reg.FRY_EQA_V q) then some 4 else none
  else none

/-- Whether the island may switch domains: it has booted, no reset runs, the device has not tripped (R413, R427, R451). -/
def domainsOk (d : Dev) : Bool := !(d.flag Reg.RST_STAT_INRESET) && !(d.flag Reg.MGT_BOOT_RECOV) && !(d.flag Reg.THM_STAT_TRIPPED)

/-- A domain is switched on with reset contents (R415). -/
def domainUp (n : Nat) (d : Dev) : Dev :=
  if d.domOn n then d else ((d.domainFresh n).wr Reg.PWR_DOMSTAT_ON (setBit (d.rd Reg.PWR_DOMSTAT_ON) n true)).irqEvent 4

/-- DOMAIN_ON. -/
def domainOn (n : Nat) (d : Dev) : Dev :=
  if 25 ≤ n ∨ ¬ d.domainsOk ∨ d.domOn n then d
  else
    let d := (d.clrF Reg.PWR_DOMCTL_REFUSED).domainUp n
    (List.range 32).foldl (fun (d : Dev) l => if 16 + l / 8 = n then d.tryTrain l else d) d

/-- DOMAIN_OFF (Table MG-3). -/
def domainOff (n : Nat) (d : Dev) : Dev :=
  if 25 ≤ n ∨ ¬ d.domainsOk ∨ ¬ d.domOn n then d
  else
    match d.domainBusy n with
    | some k => (d.setF Reg.PWR_DOMCTL_REFUSED).wr Reg.PWR_DOMCTL_REFCODE k
    | none =>
      let d := if 16 ≤ n ∧ n < 20 then (List.range 8).foldl (fun (d : Dev) i => d.lkDown (8 * (n - 16) + i)) d else d
      let d := if n = 24 then d.cntClr else d
      ((d.clrF Reg.PWR_DOMCTL_REFUSED).wr Reg.PWR_DOMSTAT_ON (setBit (d.rd Reg.PWR_DOMSTAT_ON) n false)).irqEvent 4

/-! Bring-up (R413, R414, R423, R451, R452). -/

/-- Whether the device is held in the reset that runs (R417, R422). -/
def resetHeld (d : Dev) : Bool := d.modLow || d.perstLow || d.vinLow || !d.vstby

/-- The stacks train; bit k of `failed` says that stack k ended without a usable interface (R201, R206). -/
def stacksTrain (failed : Nat) (d : Dev) : Dev :=
  (List.range 12).foldl (fun (d : Dev) k =>
    if d.rd (Reg.HBM_STAT_STATE k) = 4 then d
    else (d.wr (Reg.HBM_STAT_STATE k) 1).stackRetrained k (!(bit failed k)) (d.rd (Reg.HBM_STAT_LANEREP k))) d

/-- The domains come on, but for those of retired pairs. -/
def domainsUp (d : Dev) : Dev :=
  (List.range 25).foldl (fun (d : Dev) n =>
    if 10 ≤ n ∧ n < 16 ∧ bit (d.rd Reg.SP_STAT_PAIRRET) (n - 10) then d else d.domainUp n) d

/-- The end of a device reset: READY, the output pins, and links that may train. -/
def bringUpEnd (src : Nat) (d : Dev) : Dev :=
  let d := (d.setF Reg.RST_STAT_READY).clrF Reg.RST_STAT_INRESET
  let d := (List.range 32).foldl (fun (d : Dev) l => d.tryTrain l) d
  ((d.irqEvent src).quietPin).alertPin

/-- WARM_BRING_UP (R423): steps 2 to 6 of Table MG-2 without zeroing the pools; the journal is scanned and tracing resumes. -/
def warmBringUp (failed : Nat) (d : Dev) : Dev :=
  if ¬ d.flag Reg.RST_STAT_INRESET ∨ d.rd Reg.RST_STAT_LAST ≠ 2 ∨ d.resetHeld then d
  else
    let d := (d.stacksTrain failed).domainsUp
    let d := (List.range 8).foldl (fun (d : Dev) p => d.traceCmd p teRESTART JRec.reset 0) d
    d.bringUpEnd 15

/-- Whether the island ROM accepts an image (R413). -/
def imgValid (d : Dev) (i : FwImg) : Bool :=
  decide (i.magic = 0x4D474657) && decide (d.rd Reg.MGT_BOOT_SVN ≤ i.svn)
    && Config.sigOk (leBytes 4 i.magic ++ leBytes 2 i.svn ++ leBytes 3 i.release ++ i.body) i.sig

/-- A boot entry of the non-volatile log (R452), whose layout the spec does not give. -/
def bootEntry (d : Dev) : Dev :=
  let (b, d) := d.fresh
  { d with log := d.log ++ [leBytes (b % 8192) b] }

/-- COLD_BRING_UP (R413, R414, R423): the ROM checks the images and boots one, or enters recovery; then Table MG-2 in order. -/
def coldBringUp (failed : Nat) (d : Dev) : Dev :=
  if ¬ d.flag Reg.RST_STAT_INRESET ∨ d.rd Reg.RST_STAT_LAST ≠ 1 ∨ d.resetHeld then d
  else
    let d := d.bootEntry
    let (boot, d) := d.fresh
    let (chal, d) := d.fresh
    let d := { d with bootid := boot % 2 ^ 64 }.wr Reg.DBG_CHAL_CHAL chal
    let sel := d.flag Reg.MGT_BOOT_SEL
    let img (b : Bool) : FwImg := if b then d.imgB else d.imgA
    let run := if d.imgValid (img sel) then some sel else if d.imgValid (img (!sel)) then some (!sel) else none
    match run with
    | none => ((d.setF Reg.MGT_BOOT_RECOV).clrF Reg.RST_STAT_INRESET).quietPin
    | some b =>
      let d := ((d.wr Reg.MGT_BOOT_RUN (b2n b)).wr Reg.MGT_ID0_FWREL (img b).release)
      let d := (d.startDaa 0).startDaa 1
      ((d.stacksTrain failed).domainsUp).bringUpEnd 14

/-- VSTBY_VALID (R451, R466): power-on, with the address straps sampled. -/
def vstbyValid (straps : Nat) (d : Dev) : Dev :=
  if d.vstby then d else (({ d with vstby := true }).coldNow 0).wr Reg.HIF_MODID_SMBADDR straps

/-- VSTBY_ABSENT (R447, R452): no guarantee-end record; the open-drain outputs are released and LSEN is low. -/
def vstbyAbsent (d : Dev) : Dev := ({ d with vstby := false }).coldNow 0

end Sys2Proof.Machine.Dev
end

