-- ==== Sys2Proof/Machine/Mgmt.lean ====
section
/-!
DEFINITION. The management island (R409 to R431): the thermal trip, power and its cap, profiles, the lockstep pairs, the mailboxes of
Table MG-1, microprogram images, and the PLDM types of R429 and R430.
-/
namespace Sys2Proof.Machine

/-- What a PLDM firmware update carries (R430): component 0x0001, component 0x0002, or one that the device does not have. -/
inductive FwComp where
  | firmware (i : FwImg)
  | microprograms (image : List Byte)
  | unlisted (id : BitVec 16)
  deriving DecidableEq, Repr

/-- The sensors of PLDM type 2 (R429). -/
inductive PldmSensor where
  | die (s : Fin 48)
  | stack (k : Fin 12)
  | inputVoltage
  | inputPower
  | energy (g : Fin 7)
  | bellState
  | quietState
  | thermalTrip
  deriving DecidableEq, Repr

namespace Dev

/-! Thermal (R425 to R428). -/

/-- A temperature in 1/16 °C. -/
def temp (v : Nat) : Int := (BitVec.ofNat 16 v).toInt

/-- THERMAL_TRIP (R427): it takes over from any reset (R424). -/
def thermalTrip (source : Nat) (d : Dev) : Dev :=
  if d.flag Reg.THM_STAT_TRIPPED then d
  else
    let d := (d.allOff.quietDevice 0x42 2 source 0).guaranteeEnd 3 d.livePartitions
    let d := (d.setF Reg.THM_STAT_TRIPPED).wr Reg.THM_STAT_TRIPSRC source
    let d := { d with pins := { d.pins with thermtripN := true } }
    let d := (List.range 32).foldl (fun (d : Dev) l => d.lkDown l) d
    let d := (List.range 12).foldl (fun (d : Dev) k =>
      if d.rd (Reg.HBM_STAT_STATE k) = 4 then d else d.wr (Reg.HBM_STAT_STATE k) 0) d
    (((d.wr Reg.PWR_DOMSTAT_ON 0).clrF Reg.RST_STAT_INRESET).clrF Reg.RST_STAT_READY).quietPin

/-- SENSOR_SAMPLE: TEMP and MAX, a rise to WARN, and a trip at the second hot sample in a row (R425 to R427). -/
def sensorSample (s t : Nat) (d : Dev) : Dev :=
  let hot := decide (16 * (d.rd Reg.THM_CFG_TRIP : Int) ≤ temp t)
  let warn := 16 * (d.rd Reg.THM_CFG_WARN : Int)
  let rise := decide (temp (d.rd (Reg.THM_SENS_TEMP s)) < warn ∧ warn ≤ temp t)
  let max' := if bit d.thmSeen s ∧ temp t < temp (d.rd (Reg.THM_SENS_MAX s)) then d.rd (Reg.THM_SENS_MAX s) else t
  let twice := hot && bit d.sensHot s
  let d := (d.wr (Reg.THM_SENS_TEMP s) t).wr (Reg.THM_SENS_MAX s) max'
  let d := { d with thmSeen := setBit d.thmSeen s true, sensHot := setBit d.sensHot s hot }
  let d := if rise then d.irqEvent 12 else d
  if twice then d.thermalTrip s else d

/-- TEMPERATURE_REPORT with the stack's trip (R191, R427). -/
def stackTemperature (k t : Nat) (d : Dev) : Dev :=
  let d := d.temperatureReport k t
  if d.rd Reg.THM_CFG_STRIP ≤ t then d.thermalTrip (0x80 + k) else d

/-- The field of a die's thermal level. -/
def lvlFld (die : Nat) : Fld := if die = 0 then Reg.THM_STAT_LVL0 else Reg.THM_STAT_LVL1

/-- THERMAL_LEVEL_STEP (R426): every 100 µs by the die's hottest sensor. -/
def thermalLevelStep (die : Nat) (d : Dev) : Dev :=
  let top := (List.range 16).foldl (fun m i => max m (temp (d.rd (Reg.THM_SENS_TEMP (16 * die + i))))) (temp (d.rd (Reg.THM_SENS_TEMP (16 * die))))
  let hi := 16 * (d.rd Reg.THM_CFG_DTHROT : Int)
  let lo := hi - 16 * (d.rd Reg.THM_CFG_DHYST : Int)
  let l := d.rd (lvlFld die)
  let l' := if hi ≤ top then max 4 (l - 1) else if top < lo then min 16 (l + 1) else l
  if l' = l then d else (d.wr (lvlFld die) l').irqEvent (8 + die)

/-- THM_CFG, with TRIP and STRIP held to their limits (R428). -/
def thmSet (v : Nat) (d : Dev) : Dev :=
  let d := ((d.wr Reg.THM_CFG_DTHROT (bits v 7 0)).wr Reg.THM_CFG_DHYST (bits v 11 8)).wr Reg.THM_CFG_WARN (bits v 23 16)
  (d.wr Reg.THM_CFG_TRIP (min 120 (bits v 31 24))).wr Reg.THM_CFG_STRIP (min 105 (bits v 39 32))

/-! Input power (R417 to R419). -/

/-- LOWV: the input has stayed below 42 V for 10 µs. -/
def lowV (mv : Nat) (d : Dev) : Dev := ((d.wr Reg.PWR_VIN_VIN mv).setF Reg.PWR_VIN_LOWV).irqEvent 5

/-- INPUT_BELOW_40V: the guarantee-end record, then a cold reset that the input holds. -/
def inputBelow40V (mv : Nat) (d : Dev) : Dev :=
  let d := { (d.wr Reg.PWR_VIN_VIN mv).guaranteeEnd 2 d.livePartitions with vinLow := true }
  if d.flag Reg.THM_STAT_TRIPPED then (if d.trippedCool then d.coldNow 7 else d.setF Reg.RST_STAT_REFUSED) else d.coldReset 6

/-- INPUT_RESTORED: at or above 42 V for 100 ms. -/
def inputRestored (mv : Nat) (d : Dev) : Dev := { d.wr Reg.PWR_VIN_VIN mv with vinLow := false }

/-- CAP_WINDOW (R418, R419): a 1 ms window's average power, and the energy of the seven groups in it. -/
def capWindow (avg : Nat) (uj : List Nat) (d : Dev) : Dev :=
  let cap := d.rd Reg.PWR_CAP_CAP
  let l := d.rd Reg.PWR_CAP_LEVEL
  let l' := if cap < avg then max 4 (l - 1) else if avg + 50 < cap then min 16 (l + 1) else l
  let d := d.wr Reg.PWR_VIN_PIN avg
  let d := (uj.take 7).zipIdx.foldl (fun (d : Dev) x => d.incWrap (Reg.PWR_ENERGY_UJ x.2) x.1) d
  if l' = l then d else (d.wr Reg.PWR_CAP_LEVEL l').irqEvent 6

/-! Stopping the intake for a drain (R23, R143). -/

/-- The intake stops accepting for reason i (0 profile, 1 microprograms). -/
def intakeStop (i : Nat) (d : Dev) : Dev :=
  let was := if d.accStop = 0 then d.flag Reg.JNL_CTL_EN else d.accWas
  { d.clrF Reg.JNL_CTL_EN with accStop := setBit d.accStop i true, accWas := was }

/-- The reason has passed; with none left acceptance is as the first stop found it. -/
def intakeResume (i : Nat) (d : Dev) : Dev :=
  let s := setBit d.accStop i false
  let d := { d with accStop := s }
  if s = 0 then d.wr Reg.JNL_CTL_EN (b2n d.accWas) else d

/-- PROFILE_CHANGE (R420, R470): a write of PWR_PROFILE with GO. -/
def profileChange (req : Nat) (d : Dev) : Dev :=
  let d := d.wr Reg.PWR_PROFILE_REQ req
  if d.flag Reg.PWR_PROFILE_BUSY ∨ req = 3 ∨ (req = 0 ∧ d.flag Reg.HIF_MODID_BALMAX) then d.setF Reg.PWR_PROFILE_REFUSED
  else if req = d.rd Reg.PWR_PROFILE_CUR then d.irqEvent 3
  else { (d.setF Reg.PWR_PROFILE_BUSY).intakeStop 0 with profTo := req }

/-- PROFILE_CLOCK_CHANGE (R23): every accepted command has ended. -/
def profileClockChange (d : Dev) : Dev :=
  if ¬ d.flag Reg.PWR_PROFILE_BUSY ∨ ¬ d.jnlQuiet then d
  else (((d.wr Reg.PWR_PROFILE_CUR d.profTo).clrF Reg.PWR_PROFILE_BUSY).intakeResume 0).irqEvent 3

/-! SFU microprogram images (R142, R143). -/

/-- Bytes of an ECDSA P-384 signature. -/
def sigBytes : Nat := 96

/-- Whether an image is refused (R143). -/
def imageBad (d : Dev) (b : List Byte) : Bool :=
  let len := byteField b 16 4
  let first := byteField b 20 2
  let count := byteField b 22 2
  let base := byteField b 24 8
  let header := byteField b 0 4 = 0x53465531 && byteField b 4 4 = 0 && byteField b 8 8 ≠ 0 && len % 8 = 0 && 0x80 ≤ first && first ≤ 0xFF
    && 1 ≤ count && count ≤ 128 && first + count ≤ 0x100 && leNat ((b.drop 32).take 32) = 0
  !(header && b.length = 64 + len + sigBytes && (base = 0 || base = d.rd (Reg.SFU_SETID_SETID 0))
    && Config.sigOk (b.take (64 + len)) (b.drop (64 + len)) && Config.sfuFits ((b.drop 64).take len))

/-- A refused image is logged in bank 0; the spec gives the reasons no codes. -/
def imageRefused (d : Dev) : Dev := let (k, d) := d.fresh; d.err 0 { cls := 0x23, info := k }

/-- An accepted image waits for the drain. -/
def imageAccept (b : List Byte) (d : Dev) : Dev := { d.intakeStop 1 with sfuPend := b }

/-- MICROPROGRAM_INSTALL (R143): every accepted command has ended; every core changes its set at once. -/
def microprogramInstall (d : Dev) : Dev :=
  let b := d.sfuPend
  if b = [] ∨ ¬ d.jnlQuiet then d
  else
    let id := byteField b 8 8
    let first := byteField b 20 2
    let mask (n : Nat) : Nat := ((List.range (byteField b 22 2)).map fun i => if (first + i) / 64 = n then 2 ^ ((first + i) % 64) else 0).sum
    let d := (List.range 144).foldl (fun (d : Dev) c =>
      ((d.wr (Reg.SFU_SETID_SETID c) id).wr (Reg.SFU_FNMAP_DEF c 2) (mask 2)).wr (Reg.SFU_FNMAP_DEF c 3) (mask 3)) d
    { d with sfuSet := b.take (64 + byteField b 16 4), sfuPend := [] }.intakeResume 1

/-! Mailboxes (R410 to R412, Table MG-1): 0 in BAR0, 1 in configuration space, 2 over MCTP. -/

/-- Commands served ahead of all others. -/
def mbGuaranteed (op : Nat) : Bool := decide (1 ≤ op ∧ op ≤ 9)

/-- A response (R411): mailbox 0 shows the first 64 words in MGT_MBDATA. -/
def mbReply (mb code : Nat) (ws : List Nat) (d : Dev) : Dev :=
  let d := if mb = 0 then
      let d := (((d.clrF Reg.MGT_MBSTAT_BUSY).setF Reg.MGT_MBSTAT_DONE).wr Reg.MGT_MBSTAT_RESULT code).wr Reg.MGT_MBSTAT_RLEN (min 64 ws.length)
      (ws.take 64).zipIdx.foldl (fun (d : Dev) x => d.wr (Reg.MGT_MBDATA_DATA x.2) x.1) d
    else d.emit (.reply mb code (ws.flatMap (leBytes 8)))
  d.irqEvent 0

/-- Whether the island serves a command now: in recovery and after a trip it serves a part of them (R413, R428). -/
def mbServes (d : Dev) (op : Nat) : Bool :=
  (!(d.flag Reg.MGT_BOOT_RECOV) || op = 1 || op = 0x10) && (!(d.flag Reg.THM_STAT_TRIPPED) || mbGuaranteed op)

/-- SFUIMG: a piece at its offset; the image is checked when it is whole. -/
def mbSfuImg (mb offset : Nat) (piece : List Byte) (d : Dev) : Dev :=
  if ¬ d.mbServes 0x11 then d.mbReply mb 3 []
  else if 4096 < piece.length ∨ (offset ≠ 0 ∧ offset ≠ d.sfuBuf.length) then d.mbReply mb 2 []
  else
    let b := (if offset = 0 then [] else d.sfuBuf) ++ piece
    if b.length < 64 ∨ b.length < 64 + byteField b 16 4 + sigBytes then { d with sfuBuf := b }.mbReply mb 0 []
    else
      let d := { d with sfuBuf := [] }
      if d.imageBad b then d.imageRefused.mbReply mb 3 [] else (d.imageAccept b).mbReply mb 0 []

/-- A reset as RST_CTL codes it: whether it is a reset, and what it does. -/
def resetBy (v cause : Nat) (d : Dev) : Option Dev :=
  match bits v 2 0 with
  | 1 => some (d.coldReset cause)
  | 2 => some (d.warmReset cause)
  | 3 => some (d.partitionReset (bits v 6 4))
  | 4 => if bits v 15 8 < 144 then some (d.coreResetCmd (bits v 15 8)) else none
  | _ => none

/-- Bytes as words, the last filled up with zeros. -/
def wordsOf (b : List Byte) : List Nat := (List.range ((b.length + 7) / 8)).map fun i => leNat ((b.drop (8 * i)).take 8)

/-- Serves a mailbox command (Table MG-1). -/
def mbServe (mb op : Nat) (ws : List Nat) (d : Dev) : Dev :=
  let w := ws.getD 0 0
  if ¬ ([1, 2, 3, 4, 5, 6, 7, 8, 9, 0x10, 0x11].contains op) then d.mbReply mb 1 []
  else if ¬ d.mbServes op then d.mbReply mb 3 []
  else
    match op with
    | 1 => d.mbReply mb 0 [d.regVal .MGT_ID0 [], d.regVal .MGT_SERIAL [], d.dkey0, d.dkey1]
    | 2 =>
      if 64 ≤ w then d.mbReply mb 2 []
      else d.mbReply mb 0 ([d.regVal .ERR_STAT [w]] ++ ((List.range 4).map fun i => d.rd (Reg.ERR_P_WORD w i))
        ++ (List.range 4).map fun i => d.rd (Reg.ERR_Q_WORD w i))
    | 3 =>
      if 8 ≤ w then d.mbReply mb 2 []
      else d.mbReply mb 0 ([d.regVal .JNL_STAT []] ++ (List.range 64).flatMap fun r =>
        let x := tabGet (0, 0) (w * 64 + r) d.islandRings
        [x.1, x.2])
    | 4 =>
      if w < 8 then (d.quietEnter w).mbReply mb 0 []
      else if w = 0xFF then d.quietDevEnter.mbReply mb 0 []
      else d.mbReply mb 2 []
    | 5 =>
      let off := ws.getD 1 0
      if 32 ≤ w ∨ 1024 ≤ off ∨ (off = 0 ∧ ¬ d.grpValid w) then d.mbReply mb 2 []
      else
        let d := if off = 0 then d.captureNow w else d
        d.mbReply mb 0 ((List.range 64).map fun i => if off + i < 1024 then d.rd (Reg.CNT_REC_WORD w (off + i)) else 0)
    | 6 => d.mbReply mb 0 ([d.regVal .THM_STAT []] ++ (List.range 48).map fun s => d.regVal .THM_SENS [s])
    | 7 => (d.thmSet w).mbReply mb 0 []
    | 8 => d.allOff.mbReply mb 0 []
    | 9 =>
      if bits w 2 0 = 1 ∧ d.flag Reg.THM_STAT_TRIPPED ∧ ¬ d.trippedCool then (d.coldReset 5).mbReply mb 3 []
      else
        match (d.mbReply mb 0 []).resetBy w 5 with
        | some d => d
        | none => d.mbReply mb 2 []
    | 0x10 =>
      match d.log[w]? with
      | some b => d.mbReply mb 0 (wordsOf b)
      | none => d.mbReply mb 2 []
    | _ => d.mbSfuImg mb w ((ws.drop 1).flatMap (leBytes 8))

/-- A command reaches a mailbox: it waits while both pairs restart (R410), and a mailbox holds one command (R411). -/
def mbSubmit (mb op : Nat) (ws : List Nat) (d : Dev) : Dev :=
  if d.mbq.any fun x => x.mb = mb then d
  else if d.flag Reg.MGT_LOCK_P0UP ∨ d.flag Reg.MGT_LOCK_P1UP then d.mbServe mb op ws
  else
    let d := { d with mbq := d.mbq ++ [{ mb := mb, op := op, data := ws }] }
    if mb = 0 then d.setF Reg.MGT_MBSTAT_BUSY else d

/-- A write of MGT_MBCTL (R432). -/
def mbCtl (op len : Nat) (go : Bool) (d : Dev) : Dev :=
  let d := (d.wr Reg.MGT_MBCTL_OP op).wr Reg.MGT_MBCTL_LEN len
  if ¬ go ∨ d.flag Reg.MGT_MBSTAT_BUSY then d
  else if 64 < len then d.mbReply 0 2 []
  else d.mbSubmit 0 op ((List.range len).map fun n => d.rd (Reg.MGT_MBDATA_DATA n))

def mailboxIdent (mb : Nat) (d : Dev) : Dev := d.mbSubmit mb 0x01 []
def errRead (mb b : Nat) (d : Dev) : Dev := d.mbSubmit mb 0x02 [b]
def jstat (mb p : Nat) (d : Dev) : Dev := d.mbSubmit mb 0x03 [p]
def mailboxFence (mb target : Nat) (d : Dev) : Dev := d.mbSubmit mb 0x04 [target]
def mailboxSnap (mb g off : Nat) (d : Dev) : Dev := d.mbSubmit mb 0x05 [g, off]
def thmRead (mb : Nat) (d : Dev) : Dev := d.mbSubmit mb 0x06 []
def mailboxThmSet (mb v : Nat) (d : Dev) : Dev := d.mbSubmit mb 0x07 [v]
def laserOffAll (mb : Nat) (d : Dev) : Dev := d.mbSubmit mb 0x08 []
def mailboxReset (mb v : Nat) (d : Dev) : Dev := d.mbSubmit mb 0x09 [v]
def logRead (mb i : Nat) (d : Dev) : Dev := d.mbSubmit mb 0x10 [i]
def sfuImg (mb offset : Nat) (piece : List Byte) (d : Dev) : Dev :=
  if d.flag Reg.MGT_LOCK_P0UP ∨ d.flag Reg.MGT_LOCK_P1UP then d.mbSfuImg mb offset piece
  else d.mbSubmit mb 0x11 (offset :: wordsOf piece)

/-! The lockstep pairs (R409, R410). -/

def pairUp (m : Nat) : Fld := if m = 0 then Reg.MGT_LOCK_P0UP else Reg.MGT_LOCK_P1UP

/-- Device-class sources offered to no pair but m are offered to the other pair. -/
def reoffer (m : Nat) (d : Dev) : Dev :=
  d.listedSources.foldl (fun (d : Dev) n =>
    let s := d.src n
    if s.st = .pending ∧ s.cls = 0 ∧ s.offered = 2 ^ m then (d.setSrc n { s with offered := 2 ^ (1 - m) }).emit (.notice (1 - m) n) else d) d

/-- LOCKSTEP_MISMATCH: the pair stops; the other serves. -/
def lockstepMismatch (m : Nat) (d : Dev) : Dev :=
  if ¬ d.flag (pairUp m) then d
  else
    let d := (d.incSat (if m = 0 then Reg.MGT_LOCK_MISM0 else Reg.MGT_LOCK_MISM1) 1).clrF (pairUp m)
    (if d.flag (pairUp (1 - m)) then d.reoffer m else d).irqEvent 1

/-- PAIR_RETURN: commands that waited are served, the guaranteed ones first. -/
def pairReturn (m : Nat) (d : Dev) : Dev :=
  if d.flag (pairUp m) then d
  else
    let d := d.setF (pairUp m)
    let d := if d.flag (pairUp (1 - m)) then d else d.reoffer (1 - m)
    let q := (d.mbq.filter fun x => mbGuaranteed x.op) ++ d.mbq.filter fun x => !(mbGuaranteed x.op)
    (q.foldl (fun (d : Dev) x => d.mbServe x.mb x.op x.data) { d with mbq := [] }).irqEvent 2

/-! PLDM (R429, R430). -/

/-- A PLDM response whose code the PLDM specifications give: zero for success, else a free value. -/
def pldmReply (chan : Nat) (ok : Bool) (b : List Byte) (d : Dev) : Dev :=
  if ok then d.emit (.reply chan 0 b) else let (k, d) := d.fresh; d.emit (.reply chan k [])

/-- FIRMWARE_UPDATE (R430): `whole` says that the transfer ended well. A failed transfer or check changes nothing in force. -/
def firmwareUpdate (x : FwComp) (whole : Bool) (d : Dev) : Dev :=
  let r : Option Dev :=
    match x with
    | .firmware i =>
      if ¬ whole ∨ ¬ d.imgValid i then none
      else if d.flag Reg.MGT_BOOT_RUN then some { d with imgA := i, fwReady := true } else some { d with imgB := i, fwReady := true }
    | .microprograms b => if ¬ whole ∨ d.imageBad b then none else some { d with sfuCand := b }
    | .unlisted _ => none
  match r with
  | some d => (d.pldmReply 205 true []).irqEvent 13
  | none =>
    let d := match x with | .microprograms b => if whole && d.imageBad b then d.imageRefused else d | _ => d
    (d.pldmReply 205 false []).irqEvent 13

/-- ACTIVATE_FIRMWARE (R430): self-contained activation is refused. -/
def activateFirmware (selfContained : Bool) (d : Dev) : Dev :=
  if selfContained ∨ (¬ d.fwReady ∧ d.sfuCand = []) then d.pldmReply 205 false []
  else
    let d := if d.fwReady then { d.wr Reg.MGT_BOOT_SEL (1 - d.rd Reg.MGT_BOOT_RUN) with fwReady := false } else d
    let d := if d.sfuCand = [] then d
      else if d.imageBad d.sfuCand then { d.imageRefused with sfuCand := [] }
      else { d.imageAccept d.sfuCand with sfuCand := [] }
    (d.pldmReply 205 true []).irqEvent 13

/-- A sensor's reading. -/
def pldmValue (d : Dev) : PldmSensor → Nat
  | .die s => d.rd (Reg.THM_SENS_TEMP s)
  | .stack k => d.rd (Reg.HBM_STAT_TEMP k)
  | .inputVoltage => d.rd Reg.PWR_VIN_VIN
  | .inputPower => d.rd Reg.PWR_VIN_PIN
  | .energy g => d.rd (Reg.PWR_ENERGY_UJ g)
  | .bellState => d.blState
  | .quietState => d.regVal .QT_STAT []
  | .thermalTrip => d.rd Reg.THM_STAT_TRIPPED

/-- PLDM_PLATFORM_MONITORING; recovery does not serve it (R413). -/
def pldmMonitor (s : PldmSensor) (d : Dev) : Dev :=
  if d.flag Reg.MGT_BOOT_RECOV then d else d.pldmReply 202 true (leBytes 8 (d.pldmValue s))

/-- PLDM_BASE_DISCOVERY: command 0x04 returns the supported types, 0, 2 and 5; what the others return, DSP0240 gives. Recovery does not
serve it (R413). -/
def pldmBase (cmd : Nat) (d : Dev) : Dev :=
  if d.flag Reg.MGT_BOOT_RECOV then d
  else if cmd = 4 then d.pldmReply 200 true (leBytes 8 0x25) else let (k, d) := d.fresh; d.pldmReply 200 true (leBytes 8 k)

end Dev
end Sys2Proof.Machine
end

