-- ==== Sys2Proof/Machine/Spdm.lean ====
section
/-!
DEFINITION. Attestation (R356, R460): the SPDM responder behind each function's DOE mailbox, and DOE discovery. Function 0 is the PF,
function p + 1 the VF of partition p. Message codes are those of DSP0274 (assumption log 52); certificates, digests and signatures are
free values.
-/
namespace Sys2Proof.Machine.Dev

/-- Channel of a function's SPDM responses among the replies; 300 + fn carries DOE discovery. -/
def spdmChan (fn : Nat) : Nat := 100 + fn

def spdmOf (d : Dev) (fn : Nat) : Spdm := tabGet Spdm.reset fn d.spdm
def setSpdm (fn : Nat) (x : Spdm) (d : Dev) : Dev := { d with spdm := tabPut Spdm.reset fn x d.spdm }

/-- Whether a function answers: the host interface is on, and a VF is enabled. -/
def fnUp (d : Dev) (fn : Nat) : Bool := d.domOn 23 && (fn = 0 || (d.part (fn - 1)).vfOn)

def spdmReply (fn code : Nat) (b : List Byte) (d : Dev) : Dev := d.emit (.reply (spdmChan fn) code b)
/-- ERROR with its error code. -/
def spdmError (fn code : Nat) (d : Dev) : Dev := d.spdmReply fn 0x7F (leBytes 1 code)
def seINVALID : Nat := 0x01
def seUNEXPECTED : Nat := 0x04
def seUNSUPPORTED : Nat := 0x07
def seVERSION : Nat := 0x41

/-- Runs a request of a function that answers. -/
def spdmOn (fn : Nat) (f : Spdm → Dev → Dev) (d : Dev) : Dev := if d.fnUp fn then f (d.spdmOf fn) d else d
/-- A request that needs the negotiation to have ended. -/
def spdmReady (fn : Nat) (f : Spdm → Dev → Dev) (d : Dev) : Dev :=
  d.spdmOn fn fun x d => if x.algs then f x d else d.spdmError fn seUNEXPECTED
/-- A response with free contents of n bytes. -/
def spdmFree (fn code n : Nat) (d : Dev) : Dev := let r := d.freshBytes n; r.2.spdmReply fn code r.1

/-- GET_VERSION: 1.2 and 1.3; the negotiation starts anew. -/
def getVersion (fn : Nat) (d : Dev) : Dev :=
  d.spdmOn fn fun _ d => (d.setSpdm fn { Spdm.reset with ver := 1 }).spdmReply fn 0x04 (leBytes 1 0x12 ++ leBytes 1 0x13)

/-- GET_CAPABILITIES in one of the two versions. -/
def getCapabilities (fn ver : Nat) (d : Dev) : Dev :=
  d.spdmOn fn fun x d =>
    if x.ver = 0 then d.spdmError fn seUNEXPECTED
    else if ver ≠ 0x12 ∧ ver ≠ 0x13 then d.spdmError fn seVERSION
    else (d.setSpdm fn { x with ver := ver, caps := true }).spdmFree fn 0x61 16

/-- NEGOTIATE_ALGORITHMS: whether the requester offers each of the four supported algorithms. -/
def negotiateAlgorithms (fn : Nat) (sig hash dhe aead : Bool) (d : Dev) : Dev :=
  d.spdmOn fn fun x d =>
    if ¬ x.caps then d.spdmError fn seUNEXPECTED
    else if sig && hash && dhe && aead then (d.setSpdm fn { x with algs := true }).spdmFree fn 0x63 48
    else d.spdmError fn seINVALID

/-- GET_DIGESTS: the digests of slots 0 and 1. -/
def getDigests (fn : Nat) (d : Dev) : Dev := d.spdmReady fn fun _ d => d.spdmFree fn 0x01 96

/-- GET_CERTIFICATE: a part of the chain in slot 0 or 1. -/
def getCertificate (fn slot _off len : Nat) (d : Dev) : Dev :=
  d.spdmReady fn fun _ d => if slot < 2 then d.spdmFree fn 0x02 len else d.spdmError fn seINVALID

/-- CHALLENGE: signed with the slot's key. -/
def challenge (fn slot : Nat) (d : Dev) : Dev :=
  d.spdmReady fn fun _ d => if slot < 2 then d.spdmFree fn 0x03 96 else d.spdmError fn seINVALID

/-- The configuration of a partition that block 5 hashes (Table PT-8). -/
def partConfig (d : Dev) (p : Nat) : List Byte :=
  leBytes 18 (d.part p).cores ++ leBytes 4 (d.ownedExtents p).length
    ++ (List.range 2).flatMap (fun i => (List.range 12).flatMap fun j => leBytes 8 (d.rd (Reg.PT_POOLMAP_MAP p i j)))
    ++ (List.range 8).flatMap (fun r => leBytes 4 (d.rd (Reg.PT_WEIR_MIN p r)) ++ leBytes 4 (d.rd (Reg.PT_WEIR_MAX p r)))
    ++ ((d.ctxs.filter fun e => e.2.part = p && e.2.gcm).flatMap fun e => leBytes 4 e.1)
    ++ leBytes 1 (d.rd (Reg.PT_STAT_HSRC p)) ++ leBytes 1 (d.rd (Reg.PT_STAT_LSRC p))

/-- A measurement block's content (Table PT-8), or none. -/
def measurement (d : Dev) (fn i : Nat) : Option (List Byte) :=
  let img := if d.flag Reg.MGT_BOOT_RUN then d.imgB else d.imgA
  match i with
  | 1 => some (leBytes 48 (Config.sha384 img.body))
  | 2 => some (leBytes 8 (d.rd (Reg.SFU_SETID_SETID 0)) ++ leBytes 48 (Config.sha384 d.sfuSet))
  | 3 => some (leBytes 8 d.dkey0 ++ leBytes 8 d.dkey1)
  | 4 => some (leBytes 1 (d.rd Reg.BL_DKEY0_STEP) ++ leBytes 1 (d.rd Reg.DBG_STAT_JUNLOCK))
  | _ =>
    if i = 5 ∧ fn ≠ 0 then some (leBytes 48 (Config.sha384 (d.partConfig (fn - 1))))
    else if 16 ≤ i ∧ i < 24 ∧ fn = 0 then some (leBytes 48 (Config.sha384 (d.partConfig (i - 16))))
    else none

/-- The indexes a function has. -/
def measureIdx (fn : Nat) : List Nat := if fn = 0 then [1, 2, 3, 4] ++ (List.range 8).map (16 + ·) else [1, 2, 3, 4, 5]

/-- GET_MEASUREMENTS: index 0 asks for the number of blocks, 0xFF for all of them. -/
def getMeasurements (fn i : Nat) (d : Dev) : Dev :=
  d.spdmReady fn fun _ d =>
    if i = 0 then d.spdmReply fn 0x60 (leBytes 1 (measureIdx fn).length)
    else if i = 0xFF then d.spdmReply fn 0x60 ((measureIdx fn).flatMap fun k => leBytes 1 k ++ (d.measurement fn k).getD [])
    else match d.measurement fn i with
      | some b => d.spdmReply fn 0x60 (leBytes 1 i ++ b)
      | none => d.spdmError fn seINVALID

/-- KEY_EXCHANGE: a session begins under the requester's half of its number. -/
def keyExchange (fn sid : Nat) (d : Dev) : Dev :=
  d.spdmReady fn fun x d =>
    if x.sessions.any fun s => s.1 = sid then d.spdmError fn seINVALID
    else (d.setSpdm fn { x with sessions := x.sessions ++ [(sid, false)] }).spdmFree fn 0x64 192

/-- FINISH: `valid` says whether its verify data hold; a wrong one ends the session. -/
def finish (fn sid : Nat) (valid : Bool) (d : Dev) : Dev :=
  d.spdmReady fn fun x d =>
    let rest := x.sessions.filter fun s => s.1 ≠ sid
    if ¬ x.sessions.contains (sid, false) then d.spdmError fn seUNEXPECTED
    else if valid then (d.setSpdm fn { x with sessions := rest ++ [(sid, true)] }).spdmFree fn 0x65 48
    else (d.setSpdm fn { x with sessions := rest }).spdmError fn seINVALID

/-- A request inside an established session. -/
def inSession (fn sid : Nat) (f : Spdm → Dev → Dev) (d : Dev) : Dev :=
  d.spdmReady fn fun x d => if x.sessions.contains (sid, true) then f x d else d.spdmError fn seUNEXPECTED

def heartbeat (fn sid : Nat) (d : Dev) : Dev := d.inSession fn sid fun _ d => d.spdmReply fn 0x68 []
/-- KEY_UPDATE: operations 1 to 3. -/
def keyUpdate (fn sid op : Nat) (d : Dev) : Dev :=
  d.inSession fn sid fun _ d => if 1 ≤ op ∧ op ≤ 3 then d.spdmReply fn 0x69 (leBytes 1 op) else d.spdmError fn seINVALID
def endSession (fn sid : Nat) (d : Dev) : Dev :=
  d.inSession fn sid fun x d => (d.setSpdm fn { x with sessions := x.sessions.filter fun s => s.1 ≠ sid }).spdmReply fn 0x6C []

/-- VENDOR_DEFINED_REQUEST (R356): a tenant's key in a session on its own VF, with status 0x00, or 0x01 where R355 refuses it. -/
def vendorDefined (fn sid standard vendor op : Nat) (key : List Byte) (d : Dev) : Dev :=
  d.inSession fn sid fun _ d =>
    let p := fn - 1
    if fn = 0 ∨ standard ≠ 3 ∨ vendor ≠ 0x1D7C ∨ ¬ ((op = 1 ∧ key.length = 64) ∨ (op = 2 ∧ key.length = 32)) then d.spdmError fn seUNSUPPORTED
    else if op = 1 then
      if d.hkeyFree p then (d.setHkey p (some (leNat key)) 3).spdmReply fn 0x7E (leBytes 1 0) else d.spdmReply fn 0x7E (leBytes 1 1)
    else if d.lkeyFree p then (d.setLkey p (some (leNat key)) 3).spdmReply fn 0x7E (leBytes 1 0)
    else d.spdmReply fn 0x7E (leBytes 1 1)

/-- DOE_DISCOVERY (R460): the object types discovery, CMA/SPDM and Secured CMA/SPDM, each with the next index. -/
def doeDiscovery (fn i : Nat) (d : Dev) : Dev :=
  if ¬ d.fnUp fn then d
  else if i < 3 then d.emit (.reply (300 + fn) 0 (leBytes 2 1 ++ leBytes 1 i ++ leBytes 1 ((i + 1) % 3)))
  else d.emit (.reply (300 + fn) 0 (leBytes 2 0xFFFF ++ leBytes 2 0))

end Sys2Proof.Machine.Dev
end

