-- ==== Sys2Proof/Machine/Hif.lean ====
section
/-!
DEFINITION. What the host link brings to the host interface (R457 to R459): failed host reads, poisoned writes, ATS invalidations, and
the enables of the functions.
-/
namespace Sys2Proof.Machine

/-- How a host read ended (R458). -/
inductive HostEnd where
  | timeout
  | urOrCa
  | poisoned
  deriving DecidableEq, Repr

namespace Dev

/-- COMPLETION_TIMEOUT: a read of the 4 KiB host page ends so; its bytes read as POISON at the unit that asks. -/
def completionTimeout (e : HostEnd) (page : Nat) (d : Dev) : Dev :=
  let d := { d with hostPoison := tabPut false page true d.hostPoison }
  match e with
  | .timeout => d.incSat Reg.HIF_ERRCNT_CTO 1
  | .urOrCa => d.incSat Reg.HIF_ERRCNT_URCA 1
  | .poisoned => d.incSat Reg.HIF_ERRCNT_PSNRX 1

/-- ATS_INVALIDATION (R459): every access through the range has been performed when the row is taken. -/
def atsInvalidation (fn : Nat) (d : Dev) : Dev := if d.fnUp fn then d.emit (.ats fn) else d

/-- POISONED_TLP: a poisoned write to a BAR is discarded and logged. -/
def poisonedTlp (addr : Nat) (d : Dev) : Dev := (d.incSat Reg.HIF_ERRCNT_PSNRX 1).hostErr addr

/-- BUS_MASTER_ENABLE of a function. -/
def busMasterEnable (fn : Nat) (on : Bool) (d : Dev) : Dev :=
  if fn = 0 then d.wr Reg.HIF_STAT_PFBME (b2n on) else d.updPart (fn - 1) fun x => { x with bme := on }

/-- VF_ENABLE with NumVFs: VF p + 1 is enabled for p below it (R455, R457). -/
def vfEnable (on : Bool) (num : Nat) (d : Dev) : Dev :=
  (List.range 8).foldl (fun (d : Dev) p => d.updPart p fun x => { x with vfOn := on && decide (p < num) }) d

end Dev
end Sys2Proof.Machine
end

