-- ==== Sys2Proof/Syntax.lean ====
section
/-!
DEFINITION. The commands of the block: one constructor per row of spec/opcode_table.json, in the table's order, with the operands that
the row's rule gives it. What reaches the part from outside it (a flit, a packet, a temperature, the outcome of a check in the array)
is an operand. Numbers of units are bounded by their types; WellFormed.lean states the rest.
-/
namespace Sys2Proof
open Sys2Proof.Machine

/-- Numbers of units: logical cores, stations, engines 1 to 3 as 0 to 2, partitions, links, stacks, error banks (R20, R32, R364). -/
abbrev CoreNo := Fin 144
abbrev Station := Fin 64
abbrev EngNo := Fin 3
abbrev PartNo := Fin 8
abbrev LinkNo := Fin 32
abbrev StackNo := Fin 12
abbrev BankNo := Fin 64
/-- Stream contexts (R246), and the paths of ferry messages: a context, or this device's own for a partition. -/
abbrev Stream := Fin 131072
abbrev FerryPath := Fin 131080
/-- Collective slots of both engines, ferry jobs and expert queues (R255, R282, R285). -/
abbrev SlotNo := Fin 64
abbrev JobNo := Fin 16
abbrev QueueNo := Fin 256
/-- Submission rings and journal slots of a partition (R316, R323). -/
abbrev RingNo := Fin 64
abbrev RecNo := Fin 4096

/-- Who issues setm: the sequencer with its operands, or the head of an engine's queue (R63). -/
inductive SetmAt where
  | seq (g : Guard) (e : BitVec 2) (fld : BitVec 6) (v : SetmVal)
  | eng (e : EngNo)
  deriving DecidableEq, Repr

/-- The commands, one per row of the table of operations and events. -/
inductive Instr where
  | registerWrite (r : Requester) (user : Bool) (off : BitVec 28) (v : Word)
  | lowWordRead (r : Requester) (off : BitVec 28)
  | highWordRead (r : Requester) (off : BitVec 28)
  | lowWordWrite (r : Requester) (user : Bool) (off : BitVec 28) (w : BitVec 32)
  | highWordWrite (r : Requester) (user : Bool) (off : BitVec 28) (w : BitVec 32)
  | wideAccess (r : Requester) (user : Bool) (off : BitVec 28) (a : Nat ⊕ List Word)
  | invalidWidthAccess (r : Requester) (write : Bool) (off : BitVec 28) (width : Nat)
  | unmappedAccess (r : Requester) (write : Bool) (off : BitVec 28)
  | profileChange (req : BitVec 2)
  | profileClockChange
  | stationEnable (c : CoreNo) (n : Station) (v : Word)
  | stationDisable (c : CoreNo) (n : Station) (v : Word)
  | push (c : CoreNo) (n : Station) (fmt : BitVec 5) (bytes : List Byte) (marked : Bool)
  | pop (c : CoreNo) (n : Station)
  | dispatch (c : CoreNo) (w ext : Word)
  | nop (c : CoreNo) (g : Option Guard) (e : EngNo)
  | add (c : CoreNo) (g : Guard) (rd ra rb : BitVec 5)
  | sub (c : CoreNo) (g : Guard) (rd ra rb : BitVec 5)
  | and (c : CoreNo) (g : Guard) (rd ra rb : BitVec 5)
  | or (c : CoreNo) (g : Guard) (rd ra rb : BitVec 5)
  | xor (c : CoreNo) (g : Guard) (rd ra rb : BitVec 5)
  | shl (c : CoreNo) (g : Guard) (rd ra rb : BitVec 5)
  | shr (c : CoreNo) (g : Guard) (rd ra rb : BitVec 5)
  | sra (c : CoreNo) (g : Guard) (rd ra rb : BitVec 5)
  | mul (c : CoreNo) (g : Guard) (rd ra rb : BitVec 5)
  | min (c : CoreNo) (g : Guard) (rd ra rb : BitVec 5)
  | max (c : CoreNo) (g : Guard) (rd ra rb : BitVec 5)
  | addi (c : CoreNo) (g : Guard) (rd ra : BitVec 5) (imm : BitVec 39)
  | andi (c : CoreNo) (g : Guard) (rd ra : BitVec 5) (imm : BitVec 39)
  | ori (c : CoreNo) (g : Guard) (rd ra : BitVec 5) (imm : BitVec 39)
  | xori (c : CoreNo) (g : Guard) (rd ra : BitVec 5) (imm : BitVec 39)
  | shli (c : CoreNo) (g : Guard) (rd ra : BitVec 5) (imm : BitVec 39)
  | shri (c : CoreNo) (g : Guard) (rd ra : BitVec 5) (imm : BitVec 39)
  | srai (c : CoreNo) (g : Guard) (rd ra : BitVec 5) (imm : BitVec 39)
  | muli (c : CoreNo) (g : Guard) (rd ra : BitVec 5) (imm : BitVec 39)
  | mini (c : CoreNo) (g : Guard) (rd ra : BitVec 5) (imm : BitVec 39)
  | maxi (c : CoreNo) (g : Guard) (rd ra : BitVec 5) (imm : BitVec 39)
  | li (c : CoreNo) (g : Guard) (rd : BitVec 5) (v : BitVec 39 ⊕ Word)
  | mov (c : CoreNo) (g : Guard) (rd ra : BitVec 5)
  | cmpEq (c : CoreNo) (g : Guard) (pd : BitVec 3) (ra : BitVec 5) (b : RegImm)
  | cmpNe (c : CoreNo) (g : Guard) (pd : BitVec 3) (ra : BitVec 5) (b : RegImm)
  | cmpLt (c : CoreNo) (g : Guard) (pd : BitVec 3) (ra : BitVec 5) (b : RegImm)
  | cmpLtu (c : CoreNo) (g : Guard) (pd : BitVec 3) (ra : BitVec 5) (b : RegImm)
  | cmpLe (c : CoreNo) (g : Guard) (pd : BitVec 3) (ra : BitVec 5) (b : RegImm)
  | cmpLeu (c : CoreNo) (g : Guard) (pd : BitVec 3) (ra : BitVec 5) (b : RegImm)
  | plog (c : CoreNo) (g : Guard) (pd pa pb : BitVec 3) (lop : BitVec 2)
  | ld (c : CoreNo) (g : Guard) (rd ra : BitVec 5) (spc : BitVec 2) (imm : BitVec 37) (ue : Bool)
  | st (c : CoreNo) (g : Guard) (rd ra : BitVec 5) (spc : BitVec 2) (imm : BitVec 37)
  | b (c : CoreNo) (g : Guard) (off : BitVec 39)
  | bl (c : CoreNo) (g : Guard) (rd : BitVec 5) (off : BitVec 39) (slotLong : Bool)
  | br (c : CoreNo) (g : Guard) (ra : BitVec 5)
  | blr (c : CoreNo) (g : Guard) (rd ra : BitVec 5) (slotLong : Bool)
  | loop (c : CoreNo) (g : Guard) (lc : BitVec 2) (n : LoopCnt) (e : BitVec 25) (lastLong : Bool)
  | mflc (c : CoreNo) (g : Guard) (rd : BitVec 5) (lc : BitVec 2)
  | mtlc (c : CoreNo) (g : Guard) (lc : BitVec 2) (ra : BitVec 5)
  | setm (c : CoreNo) (a : SetmAt)
  | getm (c : CoreNo) (g : Guard) (rd : BitVec 5) (e : BitVec 2) (fld : BitVec 6)
  | rtx (c : CoreNo) (g : Guard) (res skp : BitVec 3) (sks : Bool)
  | mfx (c : CoreNo) (g : Guard) (rd : BitVec 5) (e : BitVec 2) (w : BitVec 3)
  | halt (c : CoreNo) (g : Guard)
  | trap (c : CoreNo) (g : Guard) (code : BitVec 16)
  | stcfg (c : CoreNo) (g : Guard) (n : BitVec 6) (ra : BitVec 5)
  | ststat (c : CoreNo) (g : Guard) (rd : BitVec 5) (n : BitVec 6)
  | trapEntry (c : CoreNo)
  | sqResume (c : CoreNo) (res skp : BitVec 4)
  | engineStop (c : CoreNo) (e : Fin 4)
  | mma (c : CoreNo)
  | mmaSegmentEnd (c : CoreNo) (o : ChkOut)
  | collapse (c : CoreNo) (o : ChkOut)
  | drain (c : CoreNo) (o : ChkOut)
  | mdrain (c : CoreNo) (o : ChkOut)
  | mpre (c : CoreNo)
  | mtrans (c : CoreNo)
  | accumulatorRead (r : Requester) (c : CoreNo) (n : Fin 32)
  | vadd (c : CoreNo)
  | vsub (c : CoreNo)
  | vmul (c : CoreNo)
  | vfma (c : CoreNo)
  | vmin (c : CoreNo)
  | vmax (c : CoreNo)
  | vand (c : CoreNo)
  | vor (c : CoreNo)
  | vxor (c : CoreNo)
  | vshl (c : CoreNo)
  | vshr (c : CoreNo)
  | vcmp (c : CoreNo)
  | vsel (c : CoreNo)
  | vbcast (c : CoreNo)
  | vcvt (c : CoreNo)
  | vld (c : CoreNo) (ue : Bool)
  | vst (c : CoreNo)
  | vgather (c : CoreNo) (ue : Bool)
  | vscatter (c : CoreNo)
  | vtrd (c : CoreNo)
  | vtwr (c : CoreNo)
  | vtclose (c : CoreNo)
  | vtpush (c : CoreNo)
  | vredsum (c : CoreNo)
  | vredmax (c : CoreNo)
  | sfu (c : CoreNo)
  | sfuT (c : CoreNo)
  | smxInit (c : CoreNo)
  | smxMax (c : CoreNo)
  | smxExp (c : CoreNo)
  | smxRescale (c : CoreNo)
  | smxNorm (c : CoreNo)
  | nrmInit (c : CoreNo)
  | nrmAcc (c : CoreNo)
  | nrmAccs (c : CoreNo)
  | nrmFin (c : CoreNo)
  | nrmApply (c : CoreNo)
  | dexec (c : CoreNo)
  | dexecn (c : CoreNo)
  | dld (c : CoreNo)
  | dst (c : CoreNo)
  | copy (c : CoreNo)
  | fill (c : CoreNo)
  | spillSave (c : CoreNo)
  | spillRestore (c : CoreNo)
  | dmaUnitIssue (c : CoreNo) (ue : Bool)
  | dmaUnitComplete (c : CoreNo) (idx : Nat) (fail ue : Bool)
  | descriptorComplete (c : CoreNo)
  | signal (c : CoreNo) (a : SyncAt)
  | wait (c : CoreNo) (a : SyncAt)
  | release (c : CoreNo) (a : SyncAt)
  | acquire (c : CoreNo) (a : SyncAt)
  | releasePerform (c : CoreNo) (e : Fin 4)
  | flag (p : Option Pkt)
  | handUpdate (c : CoreNo) (n : BitVec 8) (v : Word)
  | hpAcq (c : CoreNo) (g : Guard) (rd : BitVec 5) (n : BitVec 6)
  | hallPassGrant (p : PartNo) (n : Fin 64)
  | hpRel (c : CoreNo) (g : Guard) (n : BitVec 6)
  | hpFree (c : CoreNo) (n : Fin 64)
  | hpMarkOrphaned (c : CoreNo) (n : Fin 64)
  | rcArr (c : CoreNo) (g : Guard) (n : BitVec 5)
  | rcWait (c : CoreNo) (g : Guard) (n : BitVec 5)
  | rcarr (p : Pkt)
  | arrivalForward (p : PartNo) (n : Fin 32)
  | rcrel (p : Pkt)
  | releaseNow (c : CoreNo) (n : Fin 32)
  | countClear (c : CoreNo) (n : Fin 32)
  | advanceGen (c : CoreNo) (n : Fin 32)
  | watchdog (c : CoreNo) (e : Fin 4)
  | rollCallWatchdog (c : CoreNo) (n : Fin 32)
  | hbmRead (p : Option PartNo) (req : BitVec 32) (pa : BitVec 40) (cls : EccClass)
  | hbmWrite (p : Option PartNo) (req : BitVec 32) (pa : BitVec 40) (bytes : List Byte)
  | mergeEntryRetire (sector : BitVec 35) (ue : Bool)
  | refresh (k : StackNo) (delayed : Bool)
  | hotSpotWindow (k : StackNo)
  | temperatureReport (k : StackNo) (t : BitVec 16)
  | throttleStep (k : StackNo)
  | scrubStart (k : StackNo) (wb loc : Bool) (rate : BitVec 8)
  | scrubAbort (k : StackNo)
  | scrubSector (k : StackNo) (cls : EccClass)
  | scrubPassEnd (k : StackNo)
  | generatorStart (k : StackNo) (n : Fin 32) (mode : BitVec 4) (pat : BitVec 3) (scope : Bool) (rate : BitVec 8)
  | generatorStop (k : StackNo) (n : Fin 32)
  | generatorRunEnd (k : StackNo) (n : Fin 32) (fails : Nat) (l : Word) (pch : Fin 2)
  | rehash (p : PartNo) (seed : BitVec 25)
  | rehashRow (ue : Option Nat)
  | nearMemoryAtomic (p : PartNo) (req : BitVec 32) (pa : BitVec 40) (o : AtomOp) (wide : Bool) (v cmp : Word) (ue : Bool)
  | interfaceFault (k : StackNo)
  | stackRetrainingEnd (k : StackNo) (ok : Bool) (lanes : Nat)
  | linkEnable (l : LinkNo)
  | linkDisable (l : LinkNo)
  | retrain (l : LinkNo)
  | linkReset (l : LinkNo)
  | readmit (l : LinkNo)
  | autoReadmit (l : LinkNo)
  | trainingDone (l : LinkNo) (tx rx : BitVec 4)
  | trainTimeout (l : LinkNo)
  | trainRetry (l : LinkNo)
  | ident (l : LinkNo) (h : FlitHdr) (nb : NbrId)
  | lnkExpect (l : LinkNo) (dev : BitVec 20) (link : BitVec 5) (valid : Bool)
  | dataFlit (l : LinkNo) (h : FlitHdr) (seq : BitVec 12) (v : Fin 8) (bytes : List Byte)
  | dataFlitTransmit (l : LinkNo) (v : Fin 8)
  | idle (l : LinkNo) (h : FlitHdr)
  | nak (l : LinkNo) (h : FlitHdr) (e : BitVec 12)
  | nakResend (l : LinkNo)
  | credsync (l : LinkNo) (h : FlitHdr) (counts : List (BitVec 16))
  | credsyncSend (l : LinkNo)
  | laneFail (l : LinkNo) (k : Fin 4)
  | degrade (l : LinkNo) (h : FlitHdr) (m : BitVec 4)
  | degack (l : LinkNo) (h : FlitHdr) (m : BitVec 4)
  | lanemark (l : LinkNo) (h : FlitHdr)
  | laneReadmission (l : LinkNo) (k : Fin 4)
  | lightLoss (l : LinkNo)
  | lightReturn (l : LinkNo) (nb : NbrId)
  | pauseTimeout (l : LinkNo)
  | retrainDone (l : LinkNo) (nb : NbrId) (e : BitVec 12)
  | retrainTimeout (l : LinkNo)
  | time (l : LinkNo) (dt : Nat) (h : FlitHdr) (b : TimeBody) (sub : BitVec 16)
  | timeFlitSend (l : LinkNo) (sub : BitVec 16)
  | feedSwitch (e : Fin 8) (g : Fin 2) (lit : Bool)
  | packetForward (f : FwdFrom)
  | packetDeadline (l : LinkNo) (v : Fin 8)
  | write (p : Pkt)
  | read (p : Pkt) (ue : Bool)
  | rdata (p : Pkt) (code : Bool)
  | engine (p : Pkt)
  | ack (p : Pkt)
  | sync (p : Pkt)
  | poison (p : Pkt)
  | flaggedPacketApply (k : Stream) (ue : Bool)
  | ackSend (k : Stream)
  | retransmit (k : Stream)
  | streamFail (k : Stream)
  | openStream (k : Stream)
  | closeStream (k : Stream)
  | closeDone (k : Stream)
  | resync (k : Stream)
  | syncSend (k : Stream)
  | telemetryRecord
  | arm (links : BitVec 32) (drain : BitVec 16)
  | cancel (links : BitVec 32) (drain : BitVec 16)
  | reshapeDrain
  | bankSwap
  | slotGo (slot : SlotNo)
  | ready (k : Stream) (b : List Byte)
  | chunk (k : Stream) (b : List Byte)
  | withheld (k : Stream) (b : List Byte)
  | broken (k : Stream) (b : List Byte)
  | stale (k : Stream) (b : List Byte)
  | hoptmo (slot : SlotNo) (r : Fin 16)
  | cwd (slot : SlotNo)
  | slotAbort (slot : SlotNo)
  | jobGo (j : JobNo)
  | req (k : FerryPath) (b : List Byte)
  | grant (k : FerryPath) (b : List Byte)
  | row (k : FerryPath) (b : List Byte)
  | batchDeadline (q : QueueNo) (n : Nat)
  | batchReturn (q : QueueNo)
  | result (k : FerryPath) (b : List Byte)
  | ferryRelease (k : FerryPath) (b : List Byte)
  | jobWatchdog (j : JobNo)
  | jobAbort (j : JobNo)
  | markerEdge (dt : Nat) (sym : Fin 4)
  | frame (dt : Nat)
  | referenceLost (missed : Nat)
  | sourceLinkUnusable
  | holdoverExpiry
  | force
  | timetableFire (p : PartNo) (n : Fin 256)
  | ttPace (p : PartNo) (l : BitVec 5)
  | disall (p : PartNo)
  | setlse (p : PartNo) (v : BitVec 8)
  | setovf (p : PartNo)
  | eval (p : PartNo)
  | lsEnable (p : PartNo) (n : BitVec 16) (lo hi init : BitVec 8)
  | clrcnt (c : CoreNo) (m : BitVec 3)
  | clrh (c : CoreNo) (m : BitVec 4)
  | doorbell (p : PartNo) (r : RingNo) (v : Word)
  | acceptance
  | commandNop (p : PartNo) (slot : RecNo)
  | run (p : PartNo) (slot : RecNo)
  | armcf (p : PartNo) (slot : RecNo)
  | armfy (p : PartNo) (slot : RecNo)
  | waitCommand (p : PartNo) (slot : RecNo)
  | commandStart (p : PartNo) (slot : RecNo)
  | partEnd (p : PartNo) (slot : RecNo)
  | flipDone (p : PartNo) (slot : RecNo)
  | reportDone (p : PartNo) (r : RingNo)
  | replay (p : PartNo) (slot : RecNo)
  | copyOnWrite (p : PartNo) (slot : RecNo) (v : BitVec 27)
  | copyOnWriteDone (p : PartNo) (slot : RecNo) (v : BitVec 27)
  | remirror
  | abandon (p : PartNo) (r : RingNo)
  | ringEnable (p : PartNo) (r : RingNo)
  | create (p : PartNo)
  | fence (p : PartNo)
  | quiesce (p : PartNo)
  | fencePoint (p : PartNo)
  | partitionResume (p : PartNo)
  | partitionRelease (p : PartNo)
  | releaseDone (p : PartNo)
  | extentAssign (p : PartNo) (first n : BitVec 17)
  | extentZeroed (p : PartNo)
  | extentRemove (p : PartNo) (first n : BitVec 17)
  | reserveAdd (p : PartNo) (first n : BitVec 17)
  | reserveTake (p : PartNo) (first n : BitVec 17)
  | genh (p : PartNo)
  | loadh (p : PartNo)
  | loadl (p : PartNo)
  | clrhKey (p : PartNo)
  | clrl (p : PartNo)
  | s1Invalidate (p : PartNo) (all : Bool) (page : BitVec 27)
  | invalidationDone (p : PartNo)
  | weirWindow (p : PartNo) (r : Fin 8) (unmet : Bool) (cause : BitVec 4)
  | getVersion (fn : Fin 9)
  | getCapabilities (fn : Fin 9) (ver : BitVec 8)
  | negotiateAlgorithms (fn : Fin 9) (sig hash dhe aead : Bool)
  | getDigests (fn : Fin 9)
  | getCertificate (fn : Fin 9) (slot : BitVec 4) (off len : BitVec 16)
  | challenge (fn : Fin 9) (slot : BitVec 4)
  | getMeasurements (fn : Fin 9) (idx : BitVec 8)
  | keyExchange (fn : Fin 9) (sid : BitVec 16)
  | finish (fn : Fin 9) (sid : BitVec 32) (valid : Bool)
  | heartbeat (fn : Fin 9) (sid : BitVec 32)
  | keyUpdate (fn : Fin 9) (sid : BitVec 32) (op : BitVec 8)
  | endSession (fn : Fin 9) (sid : BitVec 32)
  | vendorDefinedRequest (fn : Fin 9) (sid : BitVec 32) (standard vendor : BitVec 16) (op : BitVec 8) (key : List Byte)
  | doeDiscovery (fn : Fin 9) (idx : BitVec 8)
  | enter (p : PartNo)
  | quietEntryComplete (scope : Option PartNo)
  | deventer
  | exit (p : PartNo)
  | errorRecord (b : BankNo) (sev : BitVec 2) (cls : BitVec 8) (part : Option PartNo) (qscope : BitVec 2) (unit : BitVec 15) (info : BitVec 32) (addr extra : Word)
  | errorAck (b : BankNo)
  | clrovf (b : BankNo)
  | escalation (b : BankNo)
  | retire (c : BitVec 8)
  | coreRetirement (c : CoreNo)
  | clrlist
  | retpair (k : Fin 6)
  | laggardWindow (k : Dev.LgKind) (m : Nat)
  | coalesceTimeout (page : Fin 9) (v : Fin 64)
  | claim (page : Fin 9) (v : Fin 64)
  | complete (page : Fin 9) (n : BitVec 12)
  | managementClaim (m : Fin 2)
  | managementComplete (m : Fin 2) (n : BitVec 12)
  | offerTimeout (n : BitVec 12)
  | sourceEnable (n : BitVec 12) (en level : Bool) (cls : BitVec 2) (prio : BitVec 3)
  | rawClear (n : BitVec 12)
  | vectorUnmask (page : Fin 9) (v : Fin 64) (mask en : Bool)
  | presence (c : Fin 8)
  | presenceLost (c : Fin 8)
  | hotJoin (p : Fin 2)
  | entdaa (p : Fin 2) (won : BitVec 4)
  | identityRead (c : Fin 8) (id : List Byte) (aEh aSeq bEh bSeq : BitVec 32)
  | legacyDetect (c : Fin 8)
  | laserOn (c : Fin 8)
  | laserOff (c : Fin 8)
  | prep (c : Fin 8) (force : Bool)
  | alloff
  | warmingTimeout (c : Fin 8)
  | poll (c : Fin 8) (status : BitVec 8) (temp : BitVec 16) (bias pout : BitVec 16) (nack : Option Bool)
  | inBandInterrupt (c : Fin 8) (status : BitVec 8) (temp : BitVec 16) (bias pout : BitVec 16) (nack : Option Bool)
  | wearWriteback
  | feedMove (e : Fin 8) (g to_ : Fin 2)
  | recover (p : Fin 2) (sdaLow : Bool)
  | portReset (p : Fin 2) (sdaLow : Bool)
  | recoveryAttempt (p : Fin 2) (ok : Bool)
  | mailboxIdent (mb : Fin 3)
  | errread (mb : Fin 3) (b : Word)
  | jstat (mb : Fin 3) (p : Word)
  | mailboxFence (mb : Fin 3) (target : Word)
  | snap (mb : Fin 3) (g off : Word)
  | thmread (mb : Fin 3)
  | thmset (mb : Fin 3) (v : Word)
  | laseroff (mb : Fin 3)
  | mailboxReset (mb : Fin 3) (v : Word)
  | logread (mb : Fin 3) (idx : Word)
  | sfuimg (mb : Fin 3) (offset : Nat) (piece : List Byte)
  | microprogramInstall
  | lockstepMismatch (m : Fin 2)
  | pairReturn (m : Fin 2)
  | lowv (mv : BitVec 16)
  | inputBelow40v (mv : BitVec 16)
  | inputRestored (mv : BitVec 16)
  | capWindow (avg : BitVec 16) (uj : List Nat)
  | domainOn (n : BitVec 5)
  | domainOff (n : BitVec 5)
  | coldReset
  | warmReset
  | partitionReset (p : PartNo)
  | coreReset (c : CoreNo)
  | modResetN (low : Bool)
  | perstN (asserted : Bool)
  | functionLevelReset (fn : Fin 9)
  | warmBringUp (failed : BitVec 12)
  | coldBringUp (failed : BitVec 12)
  | vstbyValid (straps : BitVec 4)
  | sensorSample (sensor : Fin 48) (t : BitVec 16)
  | thermalLevelStep (die : Fin 2)
  | firmwareUpdate (x : FwComp) (whole : Bool)
  | activateFirmware (selfContained : Bool)
  | pldmPlatformMonitoring (sensor : PldmSensor)
  | clr
  | cntSnap (g : Fin 32)
  | capture (g : Fin 32)
  | mark (p : PartNo) (v : Word)
  | dumpArm (p : PartNo) (step : BitVec 32)
  | stepGo (p : PartNo)
  | stop (c : CoreNo)
  | resume (c : CoreNo)
  | accessPortRead (r : Requester)
  | accessPortWrite (r : Requester) (v : Word)
  | idcode
  | samplePreload (v : Nat)
  | extest (v : Nat)
  | clamp
  | highz
  | chal
  | unlock (sig : List Byte)
  | dbgap (data : Word) (apdata write : Bool)
  | bypass (_op : BitVec 8)
  | trstN (low : Bool)
  | completionTimeout (e : HostEnd) (page : BitVec 52)
  | atsInvalidation (fn : Fin 9)
  | poisonedTlp (addr : BitVec 28)
  | lightOnLane (l : LinkNo) (k : Fin 4)
  | rteIdValid (dev : BitVec 20)
  | bellEnClear
  | vstbyAbsent
  | busMasterEnable (fn : Fin 9) (on : Bool)
  | vfEnable (on : Bool) (num : BitVec 16)
  | pldmBaseDiscovery (cmd : BitVec 8)
  deriving DecidableEq, Repr

end Sys2Proof
end

