-- ==== Sys2Proof/Machine/Timetable.lean ====
section
/-!
DEFINITION. The timetable and power pacing (R304 to R310, R315), and what a fence releases of it (R345).
-/
namespace Sys2Proof.Machine.Dev

/-- Bell-dependent actions of a partition may take place (R304, R305). -/
def ttCanFire (d : Dev) (p : Nat) : Bool :=
  !(d.bellFenced) && !(d.isQuiet p) && !(d.flag Reg.RST_STAT_INRESET)

/-- The pace level after a PACE action (R310): ARG[7:0] is a signed step, or a level where ARG[8] is set. -/
def paceOf (l arg : Nat) : Nat :=
  let v := bits arg 7 0
  if bit arg 8 then min 16 v
  else (max 0 (min 16 ((l : Int) + (BitVec.ofNat 8 v).toInt))).toNat

/-- An action of Table BL-2, or none where it cannot be performed (R308). -/
def ttAct (p act arg : Nat) (d : Dev) : Option Dev :=
  match act with
  | 1 =>
    let r := bits arg 5 0
    if d.flag (Reg.RING_CFG_EN p r) then some (d.doorbell p r ((d.ring p r).d + d.rd (Reg.RING_CFG_TTSTEP p r))) else none
  | 2 =>
    let s := bits arg 5 0
    let j := bits arg 3 0
    if bit arg 6 then (if d.frySt j = 1 ∧ d.fryPart j = p then some (d.jobGo j) else none)
    else if d.cfSt s = 1 ∧ d.cfPart s = p then some (d.slotGo s) else none
  | 3 =>
    let n := bits arg 4 0
    ((d.coresOf p).find? fun c => d.rcHome c n).map fun c => d.releaseNow c n
  | 4 =>
    let g := bits arg 7 0
    if g < 32 ∧ d.flag (Reg.CNT_GRP_OV g) ∧ d.rd (Reg.CNT_GRP_OWNER g) = p ∧ d.grpValid g then some (d.captureTrigger g) else none
  | 5 => some (d.wr (Reg.TT_PACE_LEVEL p) (paceOf (d.rd (Reg.TT_PACE_LEVEL p)) arg))
  | _ => none

/-- Performs an entry's action, or sets ERR and counts in FAIL (R308). -/
def ttDo (p n act arg : Nat) (d : Dev) : Dev :=
  match d.ttAct p act arg with
  | some d => d
  | none => ((d.setF (Reg.TT_ACT_ERR p n)).incSat (Reg.TT_STAT_FAIL p) 1).irqEvent (1408 + 8 * p)

/-- An action is issued; a fence in progress holds its effect (R345). -/
def ttIssue (p n : Nat) (d : Dev) : Dev :=
  let act := d.rd (Reg.TT_ACT_ACT p n)
  let arg := d.rd (Reg.TT_ACT_ARG p n)
  let d := d.incWrap (Reg.TT_STAT_FIRED p) 1
  if d.paused p then d.updPart p fun x => { x with deferred := x.deferred ++ [(8 * n + act, arg)] } else d.ttDo p n act arg

/-- The actions that a fence held take effect in order when it ends (R345). -/
def ttRelease (p : Nat) (d : Dev) : Dev :=
  let l := (d.part p).deferred
  l.foldl (fun (d : Dev) x => d.ttDo p (x.1 / 8) (x.1 % 8) x.2) (d.updPart p fun x => { x with deferred := [] })

/-- REP after a firing (R306). -/
def ttRep (p n : Nat) (d : Dev) : Dev :=
  let r := d.rd (Reg.TT_ACT_REP p n)
  if r = 0 then d
  else
    let d := d.wr (Reg.TT_ACT_REP p n) (r - 1)
    if r = 1 then d.clrF (Reg.TT_ACT_EN p n) else d

/-- The next time after a firing on time (R306). -/
def ttNext (p n : Nat) (d : Dev) : Dev :=
  let per := d.rd (Reg.TT_ACT_PER p n)
  if per = 0 then d.clrF (Reg.TT_ACT_EN p n)
  else (d.incWrap (Reg.TT_TIME_TIME p n) (64 * per)).ttRep p n

/-- Counts the times at or before the present that have passed without a firing and are not yet counted (R309). -/
def ttMissed (p n : Nat) (d : Dev) : Dev :=
  let t := d.rd (Reg.TT_TIME_TIME p n)
  let step := 64 * d.rd (Reg.TT_ACT_PER p n)
  let last := if step = 0 then t else t + (d.now - t) / step * step
  let seen := tabGet 0 n (d.part p).ttMiss
  let k :=
    if d.now < t then 0
    else if seen ≤ t then (if step = 0 then 1 else (last - t) / step + 1)
    else if step = 0 ∨ last < seen then 0
    else (last - (seen - 1)) / step
  if k = 0 then d
  else
    (((d.updPart p fun x => { x with ttMiss := tabPut 0 n (last + 1) x.ttMiss }).incSat (Reg.TT_STAT_MISSED p) k).setF
      (Reg.TT_ACT_LATE p n)).irqEvent (1409 + 8 * p)

/-- TIME advances by whole periods to the first value after the current time (R309). -/
def ttSkip (p n : Nat) (d : Dev) : Dev :=
  let t := d.rd (Reg.TT_TIME_TIME p n)
  let step := 64 * d.rd (Reg.TT_ACT_PER p n)
  if step = 0 then d.clrF (Reg.TT_ACT_EN p n)
  else if d.now < t then d
  else d.wr (Reg.TT_TIME_TIME p n) (t + ((d.now - t) / step + 1) * step)

/-- TIMETABLE_FIRE (R305, R306, R309): the counter reaches the entry's TIME, or has passed it. -/
def timetableFire (p n : Nat) (d : Dev) : Dev :=
  if ¬ d.flag (Reg.TT_ACT_EN p n) then d
  else
    let t := d.rd (Reg.TT_TIME_TIME p n)
    let due := d.now ≤ t
    let d := d.advanceTo t
    if ¬ d.ttCanFire p then d.ttMissed p n
    else if due ∧ tabGet 0 n (d.part p).ttMiss ≠ t + 1 then (d.ttIssue p n).ttNext p n
    else
      let d := d.ttMissed p n
      let d := d.updPart p fun x => { x with ttMiss := tabPut 0 n 0 x.ttMiss }
      if d.flag (Reg.TT_ACT_MISSPOL p n) then
        let d := (d.ttIssue p n).ttSkip p n
        if d.flag (Reg.TT_ACT_EN p n) then d.ttRep p n else d
      else d.ttSkip p n

/-- A write of TT_TIME_n (R305). -/
def ttTime (p n v : Nat) (d : Dev) : Dev :=
  if d.flag (Reg.TT_ACT_EN p n) then d else d.wr (Reg.TT_TIME_TIME p n) v

/-- A write of TT_ACT_n (R305). -/
def ttActWrite (p n v : Nat) (d : Dev) : Dev :=
  let same := d.rd (Reg.TT_ACT_ACT p n) = bits v 3 1 ∧ d.rd (Reg.TT_ACT_MISSPOL p n) = bits v 4 4 ∧ d.rd (Reg.TT_ACT_REP p n) = bits v 15 8
    ∧ d.rd (Reg.TT_ACT_ARG p n) = bits v 31 16 ∧ d.rd (Reg.TT_ACT_PER p n) = bits v 63 32
  if d.flag (Reg.TT_ACT_EN p n) ∧ ¬ same then d
  else
    let d := (((d.wr (Reg.TT_ACT_ACT p n) (bits v 3 1)).wr (Reg.TT_ACT_MISSPOL p n) (bits v 4 4)).wr (Reg.TT_ACT_REP p n) (bits v 15 8))
    let d := (d.wr (Reg.TT_ACT_ARG p n) (bits v 31 16)).wr (Reg.TT_ACT_PER p n) (bits v 63 32)
    let d := if bit v 5 then d.clrF (Reg.TT_ACT_ERR p n) else d
    let d := if bit v 6 then d.clrF (Reg.TT_ACT_LATE p n) else d
    if ¬ bit v 0 then d.clrF (Reg.TT_ACT_EN p n)
    else if 1 ≤ bits v 3 1 ∧ bits v 3 1 ≤ 5 then
      if d.flag (Reg.TT_ACT_EN p n) then d else
      (d.setF (Reg.TT_ACT_EN p n)).updPart p fun x => { x with ttMiss := tabPut 0 n 0 x.ttMiss }
    else ((d.clrF (Reg.TT_ACT_EN p n)).setF (Reg.TT_ACT_ERR p n)).irqEvent (1408 + 8 * p)

/-- TT_PACE: values above 16 are taken as 16 (R310, R315). -/
def ttPace (p l : Nat) (d : Dev) : Dev := d.wr (Reg.TT_PACE_LEVEL p) (min 16 (l % 32))

/-- DISALL: EN := 0 in every entry (R315). -/
def disAll (p : Nat) (d : Dev) : Dev := (List.range 256).foldl (fun (d : Dev) n => d.clrF (Reg.TT_ACT_EN p n)) d

/-- FENCE_POINT with the timetable actions that the fence held (R345). -/
def fencePointRow (p : Nat) (d : Dev) : Dev :=
  let was := d.ptState p
  let d := d.fencePoint p
  if was = 2 ∧ d.ptState p = 1 then d.ttRelease p else d

/-- PARTITION_RESUME with the timetable actions that the quiesce held. -/
def partitionResume (p : Nat) (d : Dev) : Dev :=
  let was := d.ptState p
  let d := d.ptResume p
  if was = 3 ∧ d.ptState p = 1 then d.ttRelease p else d

end Sys2Proof.Machine.Dev
end

