-- ==== Sys2Proof/Machine/Commit.lean ====
section
/-!
DEFINITION. What a committed 64-bit write of a register does (R10, R15): its fields by their types, and the actions of the registers
whose fields do more than store.
-/
namespace Sys2Proof.Machine.Dev

/-- Stores a register's fields by their types (Table SC-2). -/
def storeFields (r : RegName) (i : List Nat) (v : Nat) (d : Dev) : Dev :=
  (fieldsOf r i).foldl (fun (d : Dev) f =>
    let w := v / 2 ^ f.lo % 2 ^ f.width
    match f.ty with
    | .rw => d.wr f w
    | .rw1c => d.wr f (d.rd f - Nat.land (d.rd f) w)
    | _ => d) d

/-- LNK_CTL (R219, R227, R234, R235). -/
def lnkCtl (l v : Nat) (d : Dev) : Dev :=
  let d := ((d.wr (Reg.LNK_CTL_AUTORD l) (bits v 4 4)).wr (Reg.LNK_CTL_LANEOK l) (bits v 11 8)).wr (Reg.LNK_CTL_NAKMAX l) (bits v 23 16)
  let d := (d.wr (Reg.LNK_CTL_NAKTMO l) (bits v 31 24)).wr (Reg.LNK_CTL_LOSPAUSE l) (bits v 47 32)
  let d := if bit v 0 = d.flag (Reg.LNK_CTL_EN l) then d else if bit v 0 then d.linkEnable l else d.linkDisable l
  let d := if bit v 2 then d.linkReset l else d
  let d := if bit v 1 then d.retrain l else d
  if bit v 3 then d.readmit l else d

/-- The owner of a slot or job changes: its source is returned (R378). -/
def ownerChange (n : Nat) (was : Option Nat) (d : Dev) : Dev := if d.srcOwner n = was then d else d.srcDisown n

/-- CF_SLOT: PART is written only while the slot is IDLE (R279). -/
def cfSlotWrite (e s v : Nat) (d : Dev) : Dev :=
  let n := 1152 + 32 * e + s
  let was := d.srcOwner n
  let d := if d.cfSt (32 * e + s) = 0 then d.wr (Reg.CF_SLOT_PART e s) (bits v 2 0) else d
  (d.wr (Reg.CF_SLOT_V e s) (bits v 3 3)).ownerChange n was

/-- FRY_JOB: as CF_SLOT (R294). -/
def fryJobWrite (j v : Nat) (d : Dev) : Dev :=
  let n := 1216 + j
  let was := d.srcOwner n
  let d := if d.frySt j = 0 then d.wr (Reg.FRY_JOB_PART j) (bits v 2 0) else d
  (d.wr (Reg.FRY_JOB_V j) (bits v 3 3)).ownerChange n was

/-- FRY_EQA (R294): fields are written only while V = 0, and V is set only with both row sizes in range. -/
def fryEqaWrite (q v : Nat) (d : Dev) : Dev :=
  if d.flag (Reg.FRY_EQA_V q) then (if bit v 0 then d else d.clrF (Reg.FRY_EQA_V q))
  else
    let ok (x : Nat) : Bool := decide (1 ≤ x ∧ x ≤ 512)
    (d.storeFields .FRY_EQA [q] v).wr (Reg.FRY_EQA_V q) (b2n (bit v 0 && ok (bits v 21 12) && ok (bits v 31 22)))

/-- TRC_REGION (R437): EN with a region outside the partition's extents, or inside its reserve, is refused. -/
def trcRegion (p v : Nat) (d : Dev) : Dev :=
  let d := d.storeFields .TRC_REGION [p] v
  if bit v 0 ∧ ¬ d.trcOk p (d.rd (Reg.TRC_REGION_BASE p)) (d.rd (Reg.TRC_REGION_PAGES p)) then
    ((d.clrF (Reg.TRC_REGION_EN p)).setF (Reg.TRC_REGION_REFUSED p)).wr (Reg.TRC_REGION_REFCODE p) 1
  else d

/-- MX_SIDE (R98): NEXT starts again; a write while the engine is not idle loosens where records go. -/
def mxSide (c v : Nat) (d : Dev) : Dev :=
  let d := (d.storeFields .MX_SIDE [c] v).wr (Reg.MX_SIDE_NEXT c) 0
  let idle := (d.core c).e1.queue.isEmpty && (d.core c).mx.pass.isNone
  d.updCore c fun x => { x with mx := { x.mx with sideLoose := !idle } }

/-- RC_CFG: SCOPE 0b101 to 0b111 leave EN at 0 (R174). -/
def rcCfg (c n v : Nat) (d : Dev) : Dev :=
  let d := d.storeFields .RC_CFG [c, n] v
  if 5 ≤ bits v 4 2 then d.clrF (Reg.RC_CFG_EN c n) else d

/-- RC_CTL through core c's window (R174). -/
def rcCtl (c v : Nat) (d : Dev) : Dev :=
  let n := bits v 4 0
  match bits v 9 8 with
  | 1 => d.releaseNow c n
  | 2 => d.countClear c n
  | 3 => d.advanceGen c n
  | _ => d

/-- HP_CTL through core c's window (R174). -/
def hpCtl (c v : Nat) (d : Dev) : Dev :=
  match bits v 9 8 with
  | 1 => d.hpFree c (bits v 5 0)
  | 2 => d.hpMark c (bits v 5 0)
  | _ => d

/-- RTE_RESHAPE (R252). -/
def rteReshape (v : Nat) (d : Dev) : Dev :=
  let d := d.storeFields .RTE_RESHAPE [] v
  let d := if bit v 48 then d.arm (bits v 31 0) (bits v 47 32) else d
  if bit v 51 then d.cancel (bits v 31 0) (bits v 47 32) else d

/-- STM_CFG of the selected context: written only while it is CLOSED (R253). -/
def stmCfg (v : Nat) (d : Dev) : Dev :=
  let k := d.rd Reg.STM_SEL_CTX
  if (d.ctx k).st ≠ .closed then d
  else d.updCtx k fun x => { x with fdev := bits v 19 0, fctx := bits v 36 20, part := bits v 39 37, gcm := bit v 40 }

/-- STM_CTL of the selected context (Table RT-4). -/
def stmCtl (op : Nat) (d : Dev) : Dev :=
  let k := d.rd Reg.STM_SEL_CTX
  match op with
  | 1 => d.streamOpen k
  | 2 => d.streamClose k
  | 3 => d.streamResync k
  | _ => d

/-- PT_CTL (R347): unlisted operations are refused. -/
def ptCtl (p op : Nat) (d : Dev) : Dev :=
  match op with
  | 0 => d
  | 1 => d.ptCreate p
  | 2 => d.ptFence p
  | 3 => d.ptQuiesce p
  | 4 => d.partitionResume p
  | 5 => d.ptRelease p
  | _ => d.ptRefuse p 1

/-- PT_KEYCTL (R355). -/
def ptKeyCtl (p v : Nat) (d : Dev) : Dev :=
  let d := if bit v 0 then d.genH p else d
  let d := if bit v 1 then d.loadH p else d
  let d := if bit v 2 then d.loadL p else d
  let d := if bit v 3 then d.clrHKey p else d
  if bit v 4 then d.clrL p else d

/-- QT_CTL (R363). -/
def qtCtl (v : Nat) (d : Dev) : Dev :=
  let p := bits v 2 0
  let d := if bit v 6 then d.clrF Reg.QT_CTL_REFUSED else d
  let d := if bit v 3 then d.quietEnter p else d
  let d := if bit v 4 then d.quietExit p else d
  if bit v 5 then d.quietDevEnter else d

/-- SP_CTL (R368, R370). -/
def spCtl (v : Nat) (d : Dev) : Dev :=
  let d := if bit v 8 then d.spRetire (bits v 7 0) else d
  let d := if bit v 9 then d.clrList else d
  if bit v 19 then d.retPair (bits v 18 16) else d

/-- A page's source window (R387): class is kept; any other source is not reached. -/
def pageSource (page addr : Nat) (f : Nat → Dev → Dev) (d : Dev) : Dev :=
  let n := d.rd (Reg.IC_PSEL_SRC page)
  if d.windowReach page n then f n d else d.hostErr addr

/-- Writes an interrupt source's target mask (R381). -/
def srcTmask (n v : Nat) (d : Dev) : Dev := if srcReal n then d.setSrc n { d.src n with tmask := v % 2 ^ 64 } else d

/-- Writes a source's configuration through a window (R378, R379): a reserved source keeps none. -/
def srcCfg (n v cls : Nat) (d : Dev) : Dev := if srcReal n then d.sourceConfig n (bit v 0) (bit v 1) cls (bits v 6 4) else d

/-- JNL_CTL (R335): while a drain has stopped the intake, EN says what holds after it. -/
def jnlCtl (en : Bool) (d : Dev) : Dev :=
  if d.accStop = 0 then d.wr Reg.JNL_CTL_EN (b2n en) else { d with accWas := en }

/-- PD_DUMPCFG (R439). -/
def pdDumpCfg (p v : Nat) (d : Dev) : Dev :=
  if bit v 32 then d.dumpArm p (bits v 31 0)
  else if (d.part p).dump.isSome then d else d.wr (Reg.PD_DUMPCFG_STEP p) (bits v 31 0)

/-- DBG_CORECTL (R441): STOP and RESUME of LCORE. -/
def dbgCoreCtl (v : Nat) (d : Dev) : Dev :=
  let c := bits v 7 0
  let d := d.wr Reg.DBG_CORECTL_LCORE c
  if 144 ≤ c then d
  else
    let d := if bit v 8 then d.debugStop c else d
    if bit v 9 then d.debugResume c else d

/-- PWR_DOMCTL (R415, R432). -/
def domCtl (v : Nat) (d : Dev) : Dev :=
  let d := if bit v 7 then d.clrF Reg.PWR_DOMCTL_REFUSED else d
  match bits v 6 5 with
  | 1 => d.domainOn (bits v 4 0)
  | 2 => d.domainOff (bits v 4 0)
  | _ => d

/-- PWR_PROFILE (R420). -/
def pwrProfile (v : Nat) (d : Dev) : Dev :=
  let d := d.storeFields .PWR_PROFILE [] v
  if bit v 4 then d.profileChange (bits v 3 2) else d

/-- Committed writes whose effect is more than storing fields: registers of the cores and memories. -/
def commitCore (r : RegName) (i : List Nat) (v : Nat) (d : Dev) : Option Dev :=
  let a := i.getD 0 0
  let b := i.getD 1 0
  match r with
  | .ST_CFG => some (d.stCfgWrite a b v)
  | .SQ_RESUME => some (d.sqResume a (bits v 3 0) (bits v 7 4))
  | .MX_SIDE => some (d.mxSide a v)
  | .GAU_HCFG =>
    let d := d.storeFields r i v
    -- EN = 1 with a STATION outside 16 to 63 leaves EN at 0 (R120)
    some (if bits v 13 8 < 16 then d.clrF (Reg.GAU_HCFG_EN a b) else d)
  | .GAU_CTL => some ((d.clrCnt a (bits v 2 0)).clrH a (bits v 7 4))
  | .LS_CFG => some (d.lsWrite a true v)
  | .LS_CTL => some (d.lsWrite a false v)
  | .SY_FLAG => some ((d.handUpdate a b v).watch)
  | .RC_CFG => some (d.rcCfg a b v)
  | .RC_CTL => some (d.rcCtl a v)
  | .HP_CTL => some (d.hpCtl a v)
  | .SCR_CTL =>
    let d := d.storeFields r i v
    let d := if bit v 0 then d.scrubStart a else d
    some (if bit v 1 then d.scrubAbort a else d)
  | .TG_CTL =>
    let d := d.storeFields r i v
    let d := if bit v 0 then d.generatorStart a b else d
    some (if bit v 1 then d.generatorStop a b else d)
  | .HBM_REHASH => some (if bit v 28 then d.rehashGo (bits v 27 25) (bits v 24 0) else d.storeFields r i v)
  | _ => none

/-- The same for the fabric, the engines and bell time. -/
def commitFabric (r : RegName) (i : List Nat) (v : Nat) (d : Dev) : Option Dev :=
  let a := i.getD 0 0
  let b := i.getD 1 0
  match r with
  | .LNK_CTL => some (d.lnkCtl a v)
  | .LNK_EXPECT => some (d.lnkExpect a (bits v 19 0) (bits v 24 20) (bit v 25))
  | .RTE_ID => some (d.rteId (bits v 19 0) (bit v 20))
  | .RTE_RESHAPE => some (d.rteReshape v)
  | .STM_CFG => some (d.stmCfg v)
  | .STM_CTL => some (d.stmCtl (bits v 1 0))
  | .CF_SLOT => some (d.cfSlotWrite a b v)
  | .CF_SLOTCTL =>
    let d := if bit v 0 then d.slotGo (32 * a + b) else d
    some (if bit v 1 then d.slotAbort (32 * a + b) else d)
  | .FRY_JOB => some (d.fryJobWrite a v)
  | .FRY_JOBCTL =>
    let d := if bit v 0 then d.jobGo a else d
    some (if bit v 1 then d.jobAbort a else d)
  | .FRY_EQA => some (d.fryEqaWrite a v)
  | .BL_CTL => some (d.blCtl (bit v 0) (bit v 1) (bit v 2) (bit v 3) (bits v 39 8))
  | .TT_TIME => some (d.ttTime a b v)
  | .TT_ACT => some (d.ttActWrite a b v)
  | .TT_CTL => some (if bit v 0 then d.disAll a else d)
  | .TT_PACE => some (d.ttPace a (bits v 4 0))
  | _ => none

/-- The same for the intake and the partitions. -/
def commitPart (r : RegName) (i : List Nat) (v : Nat) (d : Dev) : Option Dev :=
  let a := i.getD 0 0
  let b := i.getD 1 0
  match r with
  | .RING_BASE => some (if d.flag (Reg.RING_CFG_EN a b) then d else d.storeFields r i v)
  | .CQ_BASE => some (if d.flag (Reg.RING_CFG_EN a b) then d else d.storeFields r i v)
  | .RING_CFG => some (d.ringCfg a b (bit v 0) (bits v 15 8))
  | .RING_DB => some (d.doorbell a b v)
  | .JNL_PCTL => some (if bit v 8 then d.abandonRing a (bits v 5 0) else d)
  | .JNL_CTL => some (d.jnlCtl (bit v 0))
  | .JNL_PSIZE => some (if d.inUse a ≠ 0 then d else d.wr (Reg.JNL_PSIZE_SLOTS a) (min 4096 (bits v 12 0)))
  | .PT_CTL => some (d.ptCtl a (bits v 2 0))
  | .PT_CORES => some (d.ptCores a b v)
  | .PT_S2BASE => some (d.ptS2Base a (min 18 (bits v 4 0)) (bits v 51 12))
  | .PT_EXTOP =>
    match bits v 35 34 with
    | 1 => some (d.extentAssign a (bits v 16 0) (bits v 33 17))
    | 2 => some (d.extentRemove a (bits v 16 0) (bits v 33 17))
    | _ => some d
  | .PT_RSVOP =>
    let d := if bit v 34 then d.reserveAdd a (bits v 16 0) (bits v 33 17) else d
    some (if bit v 35 then d.reserveTake a (bits v 16 0) (bits v 33 17) else d)
  | .PT_POOLMAP => some (d.ptPoolMap a b (i.getD 2 0) v)
  | .PT_WEIR => some (d.ptWeir a b (bits v 7 0) (bits v 15 8))
  | .PT_KEYCTL => some (d.ptKeyCtl a v)
  | .PT_KEYDATA => some (d.wr (Reg.PT_KEYDATA_DATA a b) v)
  | .PT_S1INV => some (d.s1Invalidate a (bit v 0) (bits v 47 21 * 2 ^ 21))
  | .QT_CTL => some (d.qtCtl v)
  | .SP_CTL => some (d.spCtl v)
  | .ERR_CTL =>
    let d := if bit v 0 then d.errorAck a else d
    some (if bit v 1 then d.clrOvf a else d)
  | .ERR_STAT => some ((d.storeFields r i v).alertPin)
  | _ => none

/-- The same for interrupts, lasers, the management island and debug; `addr` names the access in an error record. -/
def commitMgmt (r : RegName) (i : List Nat) (addr v : Nat) (d : Dev) : Option Dev :=
  let a := i.getD 0 0
  let sel := d.rd Reg.IRQ_SEL_SRC
  match r with
  | .IRQ_SCFG => some (d.srcCfg sel v (bits v 3 2))
  | .IRQ_STMASK => some (d.srcTmask sel v)
  | .IRQ_SSTAT => some (if bit v 2 then d.rawClear sel else d)
  | .IRQ_MCOMP => some (d.complete (9 + a) (bits v 11 0) addr)
  | .IC_COMPLETE => some (d.complete a (bits v 11 0) addr)
  | .IC_PCFG => some (d.pageSource a addr fun n d => d.srcCfg n v (d.src n).cls)
  | .IC_PTMASK => some (d.pageSource a addr fun n d => d.srcTmask n v)
  | .IC_PSTAT => some (d.pageSource a addr fun n d => if bit v 2 then d.rawClear n else d)
  | .LAS_CTL => some (d.lasCtl (bits v 2 0) (bits v 6 4) (bit v 7))
  | .LAS_FEEDCTL => some (if bit v 5 then d.feedMove (bits v 2 0) (bits v 3 3) (bits v 4 4) else d)
  | .SBB_CTL =>
    -- whether SDA is low the register does not say: the recovery's attempts tell (R403)
    let d := if bit v 2 then d.portReset (bits v 0 0) true else d
    some (if bit v 1 ∧ ¬ bit v 2 then d.recover (bits v 0 0) true else d)
  | .MGT_MBCTL => some (d.mbCtl (bits v 7 0) (bits v 14 8) (bit v 16))
  | .PWR_PROFILE => some (d.pwrProfile v)
  | .PWR_DOMCTL => some (d.domCtl v)
  | .PWR_CAP => some (d.wr Reg.PWR_CAP_CAP (min 2400 (bits v 15 0)))
  | .RST_CTL => some ((d.resetBy v 4).getD d)
  | .THM_CFG => some (d.thmSet v)
  | .DBG_CORECTL => some (d.dbgCoreCtl v)
  | .TRC_REGION => some (d.trcRegion a v)
  | .CNT_CTL => some (if bit v 0 then d.cntClr else d)
  | .CNT_SNAP => some (if bit v 5 then d.captureTrigger (bits v 4 0) else d)
  | .PD_STEP => some (d.pdStep a (bit v 0) (bit v 1))
  | .PD_DUMPCFG => some (d.pdDumpCfg a v)
  | .PD_TRC => some (let d := d.storeFields r i v; trcFlush ((d.part a).trcBuf.length + 1) a d)
  | .PD_TRCMARK => some (d.traceMark a v)
  | _ => none

/-- A committed 64-bit write of a register (R10, R15). -/
def commitReg (r : RegName) (i : List Nat) (addr v : Nat) (d : Dev) : Dev :=
  match d.commitCore r i v with
  | some d => d
  | none =>
    match d.commitFabric r i v with
    | some d => d
    | none =>
      match d.commitPart r i v with
      | some d => d
      | none =>
        match d.commitMgmt r i addr v with
        | some d => d
        | none => d.storeFields r i v

end Sys2Proof.Machine.Dev
end

