-- ==== Sys2Proof/Machine/State.lean ====
section
/-!
DEFINITION. The state of the block: the device, the test access port, and the commands that wait, first in, first out. `Dev` (Device.lean) holds every
register, memory, queue and mode that the spec gives the part. Every command completes: the spec gives each row an effect, so
there is no fault, and the one refusal is never answered.
-/
namespace Sys2Proof.Machine

structure State where
  dev : Dev
  tap : Tap                     -- the test access port
  pending : List Instr
  deriving DecidableEq, Repr

/-- The part right after a cold reset, before COLD_BRING_UP (R414, R421); no command waits. -/
def State.reset : State := ⟨Dev.reset, Tap.reset, []⟩

/-- Nothing in the spec stops the block, so no command ends in a fault. -/
inductive Fault where
  deriving DecidableEq, Repr

inductive Refusal where
  /-- A row with no meaning yet, by its mnemonic: raised by an arm of `exec` alone. Safe: the machine stops. -/
  | notModelled (mnemonic : String)
  deriving DecidableEq, Repr

/-- A command's effect on the device; the queue is the step's own. -/
def State.apply (s : State) (f : Dev → Dev) : Host.Outcome State Fault Refusal := .next { s with dev := f s.dev }

end Sys2Proof.Machine
end

