-- ==== Sys2Proof/Machine/RowsBell.lean ====
section
/-!
DEFINITION. The meanings of the commands of bell time, the timetable and the gauge: each is its unit's operation on the device.
-/
namespace Sys2Proof.Machine

/-- MARKER_EDGE (R297). -/
def execMarkerEdge (dt : Nat) (sym : Fin 4) (s : State) : Host.Outcome State Fault Refusal :=
  s.apply fun d => d.markerEdge dt sym

/-- FRAME (R298). -/
def execFrame (dt : Nat) (s : State) : Host.Outcome State Fault Refusal :=
  s.apply fun d => d.frame dt

/-- REFERENCE_LOST (R299). -/
def execReferenceLost (missed : Nat) (s : State) : Host.Outcome State Fault Refusal :=
  s.apply fun d => d.referenceLost missed

/-- SOURCE_LINK_UNUSABLE (R300). -/
def execSourceLinkUnusable (s : State) : Host.Outcome State Fault Refusal :=
  s.apply fun d => d.sourceLinkUnusable

/-- HOLDOVER_EXPIRY (R303). -/
def execHoldoverExpiry (s : State) : Host.Outcome State Fault Refusal :=
  s.apply fun d => d.holdoverExpiry

/-- FORCE (R296). -/
def execForce (s : State) : Host.Outcome State Fault Refusal :=
  s.apply fun d => d.force

/-- BELL_EN_CLEAR (R296). -/
def execBellEnClear (s : State) : Host.Outcome State Fault Refusal :=
  s.apply fun d => d.bellEnClear

/-- TIMETABLE_FIRE (R306). -/
def execTimetableFire (p : PartNo) (n : Fin 256) (s : State) : Host.Outcome State Fault Refusal :=
  s.apply fun d => (d.timetableFire p n).watch

/-- TT_PACE (R310). -/
def execTtPace (p : PartNo) (l : BitVec 5) (s : State) : Host.Outcome State Fault Refusal :=
  s.apply fun d => d.ttPace p l.toNat

/-- DISALL (R315). -/
def execDisall (p : PartNo) (s : State) : Host.Outcome State Fault Refusal :=
  s.apply fun d => d.disAll p

/-- SETLSE (R124). -/
def execSetlse (p : PartNo) (v : BitVec 8) (s : State) : Host.Outcome State Fault Refusal :=
  s.apply fun d => d.setLse p v.toNat

/-- SETOVF (R124). -/
def execSetovf (p : PartNo) (s : State) : Host.Outcome State Fault Refusal :=
  s.apply fun d => d.setOvf p

/-- EVAL (R123). -/
def execEval (p : PartNo) (s : State) : Host.Outcome State Fault Refusal :=
  s.apply fun d => d.evalNow p

/-- LS_ENABLE (R123). -/
def execLsEnable (p : PartNo) (n : BitVec 16) (lo hi init : BitVec 8) (s : State) : Host.Outcome State Fault Refusal :=
  s.apply fun d => d.lsEnable p n.toNat lo.toNat hi.toNat init.toNat

/-- CLRCNT (R127). -/
def execClrcnt (c : CoreNo) (m : BitVec 3) (s : State) : Host.Outcome State Fault Refusal :=
  s.apply fun d => d.clrCnt c m.toNat

/-- CLRH (R127). -/
def execClrh (c : CoreNo) (m : BitVec 4) (s : State) : Host.Outcome State Fault Refusal :=
  s.apply fun d => d.clrH c m.toNat

end Sys2Proof.Machine
end

