-- ==== Sys2Proof/Machine/RowsCollective.lean ====
section
/-!
DEFINITION. The meanings of the commands of the confluence and the ferry: each is its unit's operation on the device.
-/
namespace Sys2Proof.Machine

/-- SLOT_GO (R257). -/
def execSlotGo (slot : SlotNo) (s : State) : Host.Outcome State Fault Refusal :=
  s.apply fun d => (d.slotGo slot).watch

/-- READY (R258). -/
def execReady (k : Stream) (b : List Byte) (s : State) : Host.Outcome State Fault Refusal :=
  s.apply fun d => (d.cfReadyMsg k b).watch

/-- CHUNK (R268). -/
def execChunk (k : Stream) (b : List Byte) (s : State) : Host.Outcome State Fault Refusal :=
  s.apply fun d => (d.cfChunkMsg k b).watch

/-- WITHHELD (R273). -/
def execWithheld (k : Stream) (b : List Byte) (s : State) : Host.Outcome State Fault Refusal :=
  s.apply fun d => (d.cfWithheldMsg k b).watch

/-- BROKEN (R275). -/
def execBroken (k : Stream) (b : List Byte) (s : State) : Host.Outcome State Fault Refusal :=
  s.apply fun d => (d.cfBrokenMsg k b).watch

/-- STALE (R277). -/
def execStale (k : Stream) (b : List Byte) (s : State) : Host.Outcome State Fault Refusal :=
  s.apply fun d => (d.cfStaleMsg k b).watch

/-- HOPTMO (R273). -/
def execHoptmo (slot : SlotNo) (r : Fin 16) (s : State) : Host.Outcome State Fault Refusal :=
  s.apply fun d => (d.hoptmo slot r).watch

/-- CWD (R275). -/
def execCwd (slot : SlotNo) (s : State) : Host.Outcome State Fault Refusal :=
  s.apply fun d => (d.cwd slot).watch

/-- SLOT_ABORT (R259). -/
def execSlotAbort (slot : SlotNo) (s : State) : Host.Outcome State Fault Refusal :=
  s.apply fun d => (d.slotAbort slot).watch

/-- JOB_GO (R282). -/
def execJobGo (j : JobNo) (s : State) : Host.Outcome State Fault Refusal :=
  s.apply fun d => (d.jobGo j).watch

/-- REQ (R285). -/
def execReq (k : FerryPath) (b : List Byte) (s : State) : Host.Outcome State Fault Refusal :=
  s.apply fun d => (d.fryReqMsg k b).watch

/-- GRANT (R285). -/
def execGrant (k : FerryPath) (b : List Byte) (s : State) : Host.Outcome State Fault Refusal :=
  s.apply fun d => (d.fryGrantMsg k b).watch

/-- ROW (R287). -/
def execRow (k : FerryPath) (b : List Byte) (s : State) : Host.Outcome State Fault Refusal :=
  s.apply fun d => (d.fryRowMsg k b).watch

/-- BATCH_DEADLINE (R287). -/
def execBatchDeadline (q : QueueNo) (n : Nat) (s : State) : Host.Outcome State Fault Refusal :=
  s.apply fun d => (d.batchDeadline q n).watch

/-- BATCH_RETURN (R289). -/
def execBatchReturn (q : QueueNo) (s : State) : Host.Outcome State Fault Refusal :=
  s.apply fun d => (d.batchReturn q).watch

/-- RESULT (R290). -/
def execResult (k : FerryPath) (b : List Byte) (s : State) : Host.Outcome State Fault Refusal :=
  s.apply fun d => (d.fryResultMsg k b).watch

/-- FERRY_RELEASE (R285). -/
def execFerryRelease (k : FerryPath) (b : List Byte) (s : State) : Host.Outcome State Fault Refusal :=
  s.apply fun d => (d.fryReleaseMsg k b).watch

/-- JOB_WATCHDOG (R285). -/
def execJobWatchdog (j : JobNo) (s : State) : Host.Outcome State Fault Refusal :=
  s.apply fun d => (d.jobWatchdog j).watch

/-- JOB_ABORT (R293). -/
def execJobAbort (j : JobNo) (s : State) : Host.Outcome State Fault Refusal :=
  s.apply fun d => (d.jobAbort j).watch

end Sys2Proof.Machine
end

