-- ==== Sys2Proof/Machine/HostAccess.lean ====
section
/-!
DEFINITION. The accesses of the requesters (R11 to R17, R26 to R30): which register an offset of a view reaches, 64-bit reads and
writes with their side effects, 32-bit accesses with the latch and the holding register, and the access port (R442).
-/
namespace Sys2Proof.Machine.Dev

/-- Whether a requester reaches the device: the host interface is up for PF and VFs, a management pair is in service, and the
debug path is unlocked (R409, R414, R443, R457). -/
def reqUp (d : Dev) (r : Requester) : Bool :=
  match r with
  | .pf => d.domOn 23 && !(d.flag Reg.RST_STAT_INRESET)
  | .vf p => d.domOn 23 && !(d.flag Reg.RST_STAT_INRESET) && (d.part p).vfOn
  | .mgmt m => d.flag (pairUp m)
  | .dbg => d.flag Reg.DBG_STAT_JUNLOCK

/-- The PF's BAR0 (Table DV-6): its claim page is page 8 of the map (R387). -/
def pfAddr (off : Nat) : Nat := if 0x42000 ≤ off ∧ off < 0x43000 then 0x18030000 + (off - 0x42000) else off

/-- Partition p's view (Table DV-7; R315, R334, R359, R387, R445): the map's address for an offset. -/
def vfAddr (d : Dev) (p off : Nat) : Option Nat :=
  if d.ptState p = 0 then none
  else if off < 0x2000 then some (0x300000 + 0x10000 * p + off)
  else if off = 0x2000 then some (Reg.PT_S1BASE p)
  else if off = 0x2008 then some (Reg.PT_S1INV p)
  else if off = 0x2010 then some (Reg.PT_SUSP p)
  else if off < 0x3000 then none
  else if off < 0x4000 then some (0xE01000 + 0x1000 * p + (off - 0x3000))
  else if off < 0x10000 then none
  else if off < 0x11800 then some (0x64000 + 0x1800 * p + (off - 0x10000))
  else if off < 0x20000 then none
  else if off < 0x40000 then some (0x10000000 + 0x1000000 * p + off)
  else if off < 0x100000 then none
  else if off < 0xA00000 then
    (d.deviceNo p ((off - 0x100000) / 0x10000)).map fun c => 0x1000000 + 0x10000 * c + off % 0x10000
  else none

/-- The switched domain that holds the register at an address of the map; none for the always-on island and the host interface's
own blocks. -/
def regDomain (a : Nat) : Option Nat :=
  if 0x400000 ≤ a ∧ a < 0x4C0000 then some (10 + (a - 0x400000) / 0x20000)
  else if 0x600000 ≤ a ∧ a < 0x680000 then some (16 + (a - 0x600000) / 0x20000)
  else if 0x800000 ≤ a ∧ a < 0x880000 then some (20 + (a - 0x800000) / 0x40000)
  else if 0xC00000 ≤ a ∧ a < 0xD00000 then some 22
  else if 0xF10000 ≤ a ∧ a < 0xF34000 then some 24
  else if 0x1000000 ≤ a ∧ a < 0x1900000 then some ((a - 0x1000000) / 0x10000 / 18)
  else none

/-- What an 8-byte offset of a view reaches. -/
inductive Reached where
  | reg (r : RegName) (i : List Nat) (addr : Nat)
  | offline                      -- an offline core's window: zero, and writes are lost (R369)
  | nothing                      -- R28
  deriving DecidableEq, Repr

/-- What an address of the map reaches: a register of a domain that is on (R19, R28, R369). -/
def reachMap (d : Dev) (a : Nat) : Reached :=
  match regAt a with
  | none => .nothing
  | some (r, i) =>
    if 0x1000000 ≤ a ∧ a < 0x1900000 ∧ d.coreOffline ((a - 0x1000000) / 0x10000) then .offline
    else
      match regDomain a with
      | some n => if d.domOn n then .reg r i a else .nothing
      | none => .reg r i a

/-- What a requester's register offset reaches. -/
def reach (d : Dev) (r : Requester) (off : Nat) : Reached :=
  match r with
  | .vf p =>
    match d.vfAddr p off with
    | some a => d.reachMap a
    | none => .nothing
  | _ => d.reachMap (pfAddr off)

/-- Whether a requester may write the register (R339, Table PT-2): through a VF's BAR2 only what is granted to the user. -/
def mayWrite (r : Requester) (user : Bool) (n : RegName) : Bool :=
  match r with
  | .vf _ => !user || n = .RING_DB || n = .CQ_HEAD || n = .PD_TRCMARK || n = .IC_COMPLETE
  | _ => true

/-- A 64-bit read of a register, DBG_APDATA apart: its value and its side effects (R15, R99, R382, R384, R387). -/
def readReg (n : RegName) (i : List Nat) (addr : Nat) (d : Dev) : Nat × Dev :=
  let a := i.getD 0 0
  let own (d : Dev) : Nat × Dev := (d.regVal n i, d.rcClear n i)
  let window (d : Dev) : Nat × Dev :=
    if d.windowReach a (d.rd (Reg.IC_PSEL_SRC a)) then (d.regVal n i, d) else (0, d.hostErr addr)
  match n with
  | .IC_CLAIM => d.claim a (i.getD 1 0)
  | .IRQ_MCLAIM => d.mclaim a
  | .MX_ACCDATA => d.accRead a (i.getD 1 0)
  | .IC_PCFG => window d
  | .IC_PTMASK => window d
  | .IC_PSTAT => window d
  | _ => own d

/-- The access port's partition-virtual target (R442): the walk's checks apply and R, W and X are ignored. A host target takes
part while the host answers the partition. -/
def apPhys (d : Dev) : Except MFault Phys :=
  let p := d.rd Reg.DBG_APADDR_PART
  let va := d.rd Reg.DBG_APADDR_ADDR
  if va % 8 ≠ 0 then .error .translation
  else
    match d.walk p va with
    | .error f => .error f
    | .ok l =>
      match l.tgt with
      | 0 => .ok (.hbm (l.base + va % pageBytes))
      | 1 => if d.hostOpen p then .ok (.host (l.base + va % pageBytes)) else .error .translation
      | _ => .error (.board (l.base + va % pageBytes))

/-- A fault of the access port: APERR. -/
def apErr (d : Dev) : Dev := d.setF Reg.DBG_STAT_APERR

/-- What the access port's BAR0 address reaches: a register, but not the access port itself. -/
def apReach (d : Dev) : Reached :=
  let a := d.rd Reg.DBG_APADDR_ADDR
  if a % 8 ≠ 0 ∨ 2 ^ 28 ≤ a ∨ a = Reg.DBG_APDATA then .nothing else d.reachMap (pfAddr a)

/-- A read of DBG_APDATA (R442). -/
def apRead (d : Dev) : Nat × Dev :=
  if d.rd Reg.DBG_APADDR_SPACE = 0 then
    match d.apReach with
    | .reg n i a => readReg n i a d
    | .offline => (0, d)
    | .nothing => (0, (d.hostErr (d.rd Reg.DBG_APADDR_ADDR)).apErr)
  else
    match d.apPhys with
    | .error _ => (0, d.apErr)
    | .ok ph =>
      match d.physRead [(ph, 8)] with
      | .ok b => (leNat b, d)
      | .error _ => (0, (d.hostSpend [(ph, 8)]).apErr)

/-- A write of DBG_APDATA (R442); a management-level write is closed only by device scope (R202). -/
def apWrite (v : Nat) (d : Dev) : Dev :=
  if d.rd Reg.DBG_APADDR_SPACE = 0 then
    match d.apReach with
    | .reg n i a => d.commitReg n i a v
    | .offline => d
    | .nothing => (d.hostErr (d.rd Reg.DBG_APADDR_ADDR)).apErr
  else
    match d.apPhys with
    | .error _ => d.apErr
    | .ok (.hbm pa) =>
      if d.devQuiet then d.incSat (Reg.HBM_UECNT_QDROP (d.stackOf pa)) 1 else d.hbmWrite pa (leBytes 8 v)
    | .ok (.host a) => if d.devQuiet then d else d.hostWrite a (leBytes 8 v)
    | .ok (.board _) => d.apErr

/-- A 64-bit read at an offset of a requester's view. -/
def read64 (r : Requester) (off : Nat) (d : Dev) : Nat × Dev :=
  match d.reach r off with
  | .reg .DBG_APDATA _ _ => d.apRead
  | .reg n i a => readReg n i a d
  | .offline => (0, d)
  | .nothing => (0, d.hostErr off)

/-- A 64-bit write at an offset of a requester's view, committed (R11, R15). -/
def write64 (r : Requester) (user : Bool) (off v : Nat) (d : Dev) : Dev :=
  match d.reach r off with
  | .reg .DBG_APDATA _ _ => d.apWrite v
  | .reg n i a => if mayWrite r user n then d.commitReg n i a v else d.hostErr off
  | .offline => d
  | .nothing => d.hostErr off

/-- Gives a requester the data of its read. -/
def answer (r : Requester) (v : Nat) (d : Dev) : Dev := d.emit (.read r.num (BitVec.ofNat 64 v))

/-- Runs an access of a requester that reaches the device. -/
def access (r : Requester) (f : Dev → Dev) (d : Dev) : Dev := if d.reqUp r then f d else d

/-- The tag of a register's halves (R13, R14): its address of the map. -/
def regTag (d : Dev) (r : Requester) (off : Nat) : Option Nat :=
  match d.reach r off with
  | .reg _ _ a => some a
  | _ => none

/-- REGISTER_WRITE: a 64-bit write (R10, R17). -/
def registerWrite (r : Requester) (user : Bool) (off v : Nat) (d : Dev) : Dev := d.access r (write64 r user off v)

/-- LOW_WORD_READ (R13): the word at offset +0 of the register at `off`. -/
def lowWordRead (r : Requester) (off : Nat) (d : Dev) : Dev :=
  d.access r fun d =>
    let tag := d.regTag r off
    let x := d.read64 r off
    let d := match tag with
      | some t => x.2.setPort r.num { x.2.port r.num with latch := some (t, BitVec.ofNat 32 (x.1 / 2 ^ 32)) }
      | none => x.2
    d.answer r (x.1 % 2 ^ 32)

/-- The present bits 63:32 of a register, read without any side effect (R13, R15). Those of the access port's target are free. -/
def highNow (n : RegName) (i : List Nat) (addr : Nat) (d : Dev) : Nat × Dev :=
  let a := i.getD 0 0
  match n with
  | .DBG_APDATA => let (k, d) := d.fresh; (k % 2 ^ 32, d)
  | .IC_CLAIM => (0, d)
  | .IRQ_MCLAIM => (0, d)
  | .MX_ACCDATA => (if (d.core a).inDebug then d.accData a (i.getD 1 0) / 2 ^ 32 else 0, d)
  | .IC_PCFG => ((readReg n i addr d).1 / 2 ^ 32, (readReg n i addr d).2)
  | .IC_PTMASK => ((readReg n i addr d).1 / 2 ^ 32, (readReg n i addr d).2)
  | .IC_PSTAT => ((readReg n i addr d).1 / 2 ^ 32, (readReg n i addr d).2)
  | _ => (d.regVal n i / 2 ^ 32, d)

/-- HIGH_WORD_READ (R13): the word at offset +4 of the register at `off`. -/
def highWordRead (r : Requester) (off : Nat) (d : Dev) : Dev :=
  d.access r fun d =>
    match d.reach r off with
    | .nothing => (d.hostErr (off + 4)).answer r 0
    | .offline => d.answer r 0
    | .reg n i a =>
      match (d.port r.num).latch with
      | some (t, w) =>
        if t = a then (d.setPort r.num { d.port r.num with latch := none }).answer r w.toNat
        else (highNow n i a d).2.answer r (highNow n i a d).1
      | none => (highNow n i a d).2.answer r (highNow n i a d).1

/-- LOW_WORD_WRITE (R14): held; nothing else changes. -/
def lowWordWrite (r : Requester) (user : Bool) (off : Nat) (w : BitVec 32) (d : Dev) : Dev :=
  d.access r fun d =>
    match d.reach r off with
    | .reg n _ a =>
      if mayWrite r user n then d.setPort r.num { d.port r.num with hold := some (a, w) } else d.hostErr off
    | .offline => d
    | .nothing => d.hostErr off

/-- HIGH_WORD_WRITE (R14): commits the held word as one write, or is discarded and logged. -/
def highWordWrite (r : Requester) (user : Bool) (off : Nat) (w : BitVec 32) (d : Dev) : Dev :=
  d.access r fun d =>
    match d.reach r off with
    | .reg _ _ a =>
      match (d.port r.num).hold with
      | some (t, lo) =>
        if t = a then
          (d.setPort r.num { d.port r.num with hold := none }).write64 r user off (w.toNat * 2 ^ 32 + lo.toNat)
        else d.hostErr (off + 4)
      | none => d.hostErr (off + 4)
    | .offline => d
    | .nothing => d.hostErr (off + 4)

/-- A wide access's words: reads, or writes of the values given, in ascending address order (R16). -/
def wideReads (r : Requester) (off : Nat) : Nat → Dev → Dev
  | 0, d => d
  | n + 1, d => let x := d.read64 r off; wideReads r (off + 8) n (x.2.answer r x.1)
def wideWrites (r : Requester) (user : Bool) (off : Nat) : List Nat → Dev → Dev
  | [], d => d
  | v :: vs, d => wideWrites r user (off + 8) vs (d.write64 r user off v)

/-- An access that reaches no register is logged (R16). -/
def invalidWidth (r : Requester) (write : Bool) (off : Nat) (d : Dev) : Dev :=
  d.access r fun d => if write then d.hostErr off else (d.hostErr off).answer r 0

/-- A power of two. -/
def pow2 (n : Nat) : Bool := (List.range 16).any fun k => n = 2 ^ k

/-- Whether a wide access is naturally aligned (R16): to its width where that is a power of two, else to 8 bytes. -/
def wideOk (off n : Nat) : Bool := decide (0 < n) && decide (off % 8 = 0) && (!(pow2 n) || decide (off % (8 * n) = 0))

/-- Whether an access of `width` bits reaches no register (R16): a wrong width, or one not naturally aligned. -/
def badAccess (off width : Nat) : Bool :=
  decide (width < 32) || (decide (width ≠ 32) && decide (width % 64 ≠ 0)) || decide (off % 4 ≠ 0)
    || (decide (width ≠ 32) && !(wideOk off (width / 64)))

/-- INVALID_WIDTH_ACCESS (R16); the event does not arise at any other access. -/
def invalidAccess (r : Requester) (write : Bool) (off width : Nat) (d : Dev) : Dev :=
  if badAccess off width then d.invalidWidth r write off else d

/-- WIDE_ACCESS (R16): n successive 64-bit accesses; a plain 64-bit read is one of one word (R17). -/
def wideRead (r : Requester) (off n : Nat) (d : Dev) : Dev :=
  if wideOk off n then d.access r (wideReads r off n) else d.invalidWidth r false off
def wideWrite (r : Requester) (user : Bool) (off : Nat) (vs : List Nat) (d : Dev) : Dev :=
  if wideOk off vs.length then d.access r (wideWrites r user off vs) else d.invalidWidth r true off
def wideAccess (r : Requester) (user : Bool) (off : Nat) (a : Nat ⊕ List Word) (d : Dev) : Dev :=
  match a with
  | .inl n => d.wideRead r off n
  | .inr vs => d.wideWrite r user off (vs.map (·.toNat))

/-- UNMAPPED_ACCESS (R28): an access to an offset that holds no register; the event does not arise at any other. -/
def unmappedAccess (r : Requester) (write : Bool) (off : Nat) (d : Dev) : Dev :=
  d.access r fun d =>
    match d.reach r off with
    | .nothing => if write then d.hostErr off else (d.hostErr off).answer r 0
    | _ => d

/-- ACCESS_PORT_READ and ACCESS_PORT_WRITE (R442), by a requester at management level. -/
def accessPortRead (r : Requester) (d : Dev) : Dev := d.access r fun d => let x := d.read64 r Reg.DBG_APDATA; x.2.answer r x.1
def accessPortWrite (r : Requester) (v : Nat) (d : Dev) : Dev := d.access r (write64 r false Reg.DBG_APDATA v)

/-- The requester of an interrupt claim page: 8 is the PF's (R387). -/
def pageReq (page : Fin 9) : Requester := if h : page.val < 8 then .vf ⟨page, h⟩ else .pf
/-- An offset of a claim page in its requester's view. -/
def pageOff (page : Fin 9) (o : Nat) : Nat := if page.val < 8 then 0x30000 + o else 0x42000 + o

/-- CLAIM (R382): a 64-bit read of IC_CLAIM_v. -/
def claimRead (page : Fin 9) (v : Nat) (d : Dev) : Dev :=
  d.access (pageReq page) fun d => let x := d.read64 (pageReq page) (pageOff page (8 * v)); x.2.answer (pageReq page) x.1
/-- COMPLETE (R383): a write of IC_COMPLETE. -/
def completeWrite (page : Fin 9) (n : Nat) (d : Dev) : Dev :=
  d.access (pageReq page) (write64 (pageReq page) false (pageOff page 0x200) n)
/-- MANAGEMENT_CLAIM and MANAGEMENT_COMPLETE (R384). -/
def managementClaim (m : Fin 2) (d : Dev) : Dev :=
  d.access (.mgmt m) fun d => let x := d.read64 (.mgmt m) (Reg.IRQ_MCLAIM m); x.2.answer (.mgmt m) x.1
def managementComplete (m : Fin 2) (n : Nat) (d : Dev) : Dev := d.access (.mgmt m) (write64 (.mgmt m) false (Reg.IRQ_MCOMP m) n)

end Sys2Proof.Machine.Dev
end

