-- ==== Sys2Proof/Machine/TestPort.lean ====
section
/-!
DEFINITION. The test access port (R443, R467). It lies beside the device: only its own commands, MOD_RESET_N and the loss of standby
power change it.
-/
namespace Sys2Proof.Machine

/-- Runs a change of the test port and the device. -/
def State.applyTap (s : State) (f : Tap → Dev → Tap × Dev) : Host.Outcome State Fault Refusal :=
  .next { s with tap := (f s.tap s.dev).1, dev := (f s.tap s.dev).2 }

/-- Selects an instruction; the boundary outputs leave test operation. -/
def Tap.sel (ir : Nat) (t : Tap) : Tap := { t with ir := ir, pins := none, float := false }

/-- While TRST_N is low nothing is shifted in (R467). -/
def Tap.gate (f : Tap → Dev → Tap × Dev) (t : Tap) (d : Dev) : Tap × Dev := if t.low then (t, d) else f t d

/-- BYPASS, and any opcode that Table DB-5 does not list: the bypass register's one zero bit. -/
def Tap.bypass : Tap → Dev → Tap × Dev := Tap.gate fun t d => (t.sel 0xFF, d.emit (.tdo 0xFF 0))

def Tap.idcode : Tap → Dev → Tap × Dev := Tap.gate fun t d => (t.sel 1, d.emit (.tdo 1 d.idcodeVal))

/-- SAMPLE/PRELOAD: the pins are sampled, whose places in the boundary register the spec does not give, and `v` is loaded. -/
def Tap.samplePreload (v : Nat) : Tap → Dev → Tap × Dev :=
  Tap.gate fun t d => ({ t.sel 2 with bsr := v }, d.fresh.2.emit (.tdo 2 d.fresh.1))

/-- Whether the boundary outputs may be driven: MOD_RESET_N holds a cold reset. -/
def Dev.tapHeld (d : Dev) : Bool := d.modLow && d.flag Reg.RST_STAT_INRESET

/-- EXTEST drives the outputs from the boundary register, which takes `v`. -/
def Tap.extest (v : Nat) : Tap → Dev → Tap × Dev :=
  Tap.gate fun t d => if d.tapHeld then ({ t.sel 3 with bsr := v, pins := some v }, d) else t.bypass d
/-- CLAMP drives them from the boundary register as it is, HIGHZ floats them; both select the bypass register. -/
def Tap.clamp : Tap → Dev → Tap × Dev :=
  Tap.gate fun t d => if d.tapHeld then ({ t.sel 4 with pins := some t.bsr }, d.emit (.tdo 4 0)) else t.bypass d
def Tap.highz : Tap → Dev → Tap × Dev :=
  Tap.gate fun t d => if d.tapHeld then ({ t.sel 5 with float := true }, d.emit (.tdo 5 0)) else t.bypass d

/-- CHAL captures DBG_CHAL. -/
def Tap.chal : Tap → Dev → Tap × Dev := Tap.gate fun t d => (t.sel 0x21, d.emit (.tdo 0x21 (d.rd Reg.DBG_CHAL_CHAL)))

/-- UNLOCK: a valid signature over MGT_SERIAL and DBG_CHAL sets JUNLOCK. -/
def Tap.unlock (sig : List Byte) : Tap → Dev → Tap × Dev :=
  Tap.gate fun t d =>
    (t.sel 0x22,
      if sig.length = 96 ∧ Config.sigOk (leBytes 8 (d.rd Reg.MGT_SERIAL_SERIAL) ++ leBytes 8 (d.rd Reg.DBG_CHAL_CHAL)) sig then
        d.setF Reg.DBG_STAT_JUNLOCK
      else d)

/-- DBGAP (R443): the 66-bit register: data, which register, and whether to write; BYPASS while locked. -/
def Tap.dbgap (data : Word) (apdata write : Bool) : Tap → Dev → Tap × Dev :=
  Tap.gate fun t d =>
    if ¬ d.flag Reg.DBG_STAT_JUNLOCK then t.bypass d
    else
      let off := if apdata then Reg.DBG_APDATA else Reg.DBG_APADDR
      (t.sel 0x20,
        if write then d.write64 .dbg false off data.toNat
        else (d.read64 .dbg off).2.emit (.tdo 0x20 (d.read64 .dbg off).1))

/-- TRST_N: low holds the TAP in test-logic reset, which loads IDCODE. -/
def Tap.trstN (low : Bool) (t : Tap) : Tap := if low then { t.sel 1 with low := true } else { t with low := false }

/-- EXTEST, CLAMP and HIGHZ act only while MOD_RESET_N holds a cold reset; otherwise they act as BYPASS. -/
def Tap.released (t : Tap) : Tap := if t.ir = 3 ∨ t.ir = 4 ∨ t.ir = 5 then t.sel 0xFF else t

end Sys2Proof.Machine
end

