-- ==== Sys2Proof/Machine/RowsDebug.lean ====
section
/-!
DEFINITION. The meanings of the commands of debug, trace and counters: each is its unit's operation on the device.
-/
namespace Sys2Proof.Machine

/-- CLR (R434). -/
def execClr (s : State) : Host.Outcome State Fault Refusal :=
  s.apply fun d => d.cntClr

/-- CNT_SNAP (R436). -/
def execCntSnap (g : Fin 32) (s : State) : Host.Outcome State Fault Refusal :=
  s.apply fun d => d.captureTrigger g

/-- CAPTURE (R435). -/
def execCapture (g : Fin 32) (s : State) : Host.Outcome State Fault Refusal :=
  s.apply fun d => d.capture g

/-- MARK (R437). -/
def execMark (p : PartNo) (v : Word) (s : State) : Host.Outcome State Fault Refusal :=
  s.apply fun d => d.traceMark p v.toNat

/-- DUMP_ARM (R439). -/
def execDumpArm (p : PartNo) (step : BitVec 32) (s : State) : Host.Outcome State Fault Refusal :=
  s.apply fun d => d.dumpArm p step.toNat

/-- STEP_GO (R440). -/
def execStepGo (p : PartNo) (s : State) : Host.Outcome State Fault Refusal :=
  s.apply fun d => d.stepGo p

/-- STOP (R441). -/
def execStop (c : CoreNo) (s : State) : Host.Outcome State Fault Refusal :=
  s.apply fun d => d.debugStop c

/-- RESUME (R441). -/
def execResume (c : CoreNo) (s : State) : Host.Outcome State Fault Refusal :=
  s.apply fun d => d.debugResume c

/-- ACCESS_PORT_READ (R442). -/
def execAccessPortRead (r : Requester) (s : State) : Host.Outcome State Fault Refusal :=
  s.apply fun d => d.accessPortRead r

/-- ACCESS_PORT_WRITE (R442). -/
def execAccessPortWrite (r : Requester) (v : Word) (s : State) : Host.Outcome State Fault Refusal :=
  s.apply fun d => d.accessPortWrite r v.toNat

/-- IDCODE (R443). -/
def execIdcode (s : State) : Host.Outcome State Fault Refusal :=
  s.applyTap (Tap.idcode)

/-- SAMPLE_PRELOAD (R443). -/
def execSamplePreload (v : Nat) (s : State) : Host.Outcome State Fault Refusal :=
  s.applyTap (Tap.samplePreload v)

/-- EXTEST (R443). -/
def execExtest (v : Nat) (s : State) : Host.Outcome State Fault Refusal :=
  s.applyTap (Tap.extest v)

/-- CLAMP (R443). -/
def execClamp (s : State) : Host.Outcome State Fault Refusal :=
  s.applyTap (Tap.clamp)

/-- HIGHZ (R443). -/
def execHighz (s : State) : Host.Outcome State Fault Refusal :=
  s.applyTap (Tap.highz)

/-- CHAL (R443). -/
def execChal (s : State) : Host.Outcome State Fault Refusal :=
  s.applyTap (Tap.chal)

/-- UNLOCK (R443). -/
def execUnlock (sig : List Byte) (s : State) : Host.Outcome State Fault Refusal :=
  s.applyTap (Tap.unlock sig)

/-- DBGAP (R443). -/
def execDbgap (data : Word) (apdata write : Bool) (s : State) : Host.Outcome State Fault Refusal :=
  s.applyTap (Tap.dbgap data apdata write)

/-- BYPASS (R443). -/
def execBypass (_op : BitVec 8) (s : State) : Host.Outcome State Fault Refusal :=
  s.applyTap (Tap.bypass)

/-- TRST_N (R467). -/
def execTrstN (low : Bool) (s : State) : Host.Outcome State Fault Refusal :=
  s.applyTap (fun t d => (t.trstN low, d))

end Sys2Proof.Machine
end

