-- ==== Sys2Proof/Machine/RowsDma.lean ====
section
/-!
DEFINITION. The meanings of the commands of the core DMA engine and the spillway: each is its unit's operation on the device.
-/
namespace Sys2Proof.Machine

/-- DEXEC (R176). -/
def execDexec (c : CoreNo) (s : State) : Host.Outcome State Fault Refusal :=
  s.apply fun d => d.dexec c

/-- DEXECN (R61). -/
def execDexecn (c : CoreNo) (s : State) : Host.Outcome State Fault Refusal :=
  s.apply fun d => d.dexecn c

/-- DLD (R61). -/
def execDld (c : CoreNo) (s : State) : Host.Outcome State Fault Refusal :=
  s.apply fun d => d.dld c

/-- DST (R61). -/
def execDst (c : CoreNo) (s : State) : Host.Outcome State Fault Refusal :=
  s.apply fun d => d.dst c

/-- COPY (R177). -/
def execCopy (c : CoreNo) (s : State) : Host.Outcome State Fault Refusal :=
  s.apply fun d => d.copy c

/-- FILL (R177). -/
def execFill (c : CoreNo) (s : State) : Host.Outcome State Fault Refusal :=
  s.apply fun d => d.fill c

/-- SPILL_SAVE (R184). -/
def execSpillSave (c : CoreNo) (s : State) : Host.Outcome State Fault Refusal :=
  s.apply fun d => d.spillSave c

/-- SPILL_RESTORE (R188). -/
def execSpillRestore (c : CoreNo) (s : State) : Host.Outcome State Fault Refusal :=
  s.apply fun d => d.spillRestore c

/-- DMA_UNIT_ISSUE (R178). -/
def execDmaUnitIssue (c : CoreNo) (ue : Bool) (s : State) : Host.Outcome State Fault Refusal :=
  s.apply fun d => (d.dmaUnitIssue c ue).watch

/-- DMA_UNIT_COMPLETE (R180). -/
def execDmaUnitComplete (c : CoreNo) (idx : Nat) (fail ue : Bool) (s : State) : Host.Outcome State Fault Refusal :=
  s.apply fun d => (d.dmaUnitComplete c idx fail ue).watch

/-- DESCRIPTOR_COMPLETE (R179). -/
def execDescriptorComplete (c : CoreNo) (s : State) : Host.Outcome State Fault Refusal :=
  s.apply fun d => (d.descriptorComplete c).watch

end Sys2Proof.Machine
end

