-- ==== Sys2Proof/Machine/RowsFabric.lean ====
section
/-!
DEFINITION. The meanings of the commands of the router and the fabric streams: each is its unit's operation on the device.
-/
namespace Sys2Proof.Machine

/-- PACKET_FORWARD (R242). -/
def execPacketForward (f : FwdFrom) (s : State) : Host.Outcome State Fault Refusal :=
  s.apply fun d => d.packetForward f

/-- PACKET_DEADLINE (R244). -/
def execPacketDeadline (l : LinkNo) (v : Fin 8) (s : State) : Host.Outcome State Fault Refusal :=
  s.apply fun d => d.packetDeadline l v

/-- WRITE (R246). -/
def execWrite (p : Pkt) (s : State) : Host.Outcome State Fault Refusal :=
  s.apply fun d => d.writePkt p

/-- READ (R239). -/
def execRead (p : Pkt) (ue : Bool) (s : State) : Host.Outcome State Fault Refusal :=
  s.apply fun d => d.readPkt p ue

/-- RDATA (R239). -/
def execRdata (p : Pkt) (code : Bool) (s : State) : Host.Outcome State Fault Refusal :=
  s.apply fun d => d.rdataPkt p code

/-- ENGINE (R246). -/
def execEngine (p : Pkt) (s : State) : Host.Outcome State Fault Refusal :=
  s.apply fun d => d.enginePkt p

/-- ACK (R247). -/
def execAck (p : Pkt) (s : State) : Host.Outcome State Fault Refusal :=
  s.apply fun d => (d.streamAck p).watch

/-- SYNC (R249). -/
def execSync (p : Pkt) (s : State) : Host.Outcome State Fault Refusal :=
  s.apply fun d => d.syncPkt p

/-- POISON (R248). -/
def execPoison (p : Pkt) (s : State) : Host.Outcome State Fault Refusal :=
  s.apply fun d => d.poisonPkt p

/-- FLAGGED_PACKET_APPLY (R246). -/
def execFlaggedPacketApply (k : Stream) (ue : Bool) (s : State) : Host.Outcome State Fault Refusal :=
  s.apply fun d => d.streamFlagged k ue

/-- ACK_SEND (R247). -/
def execAckSend (k : Stream) (s : State) : Host.Outcome State Fault Refusal :=
  s.apply fun d => d.ackSend k

/-- RETRANSMIT (R248). -/
def execRetransmit (k : Stream) (s : State) : Host.Outcome State Fault Refusal :=
  s.apply fun d => d.retransmit k

/-- STREAM_FAIL (R248). -/
def execStreamFail (k : Stream) (s : State) : Host.Outcome State Fault Refusal :=
  s.apply fun d => (d.streamFail k).watch

/-- OPEN (R249). -/
def execOpenStream (k : Stream) (s : State) : Host.Outcome State Fault Refusal :=
  s.apply fun d => d.streamOpen k

/-- CLOSE (R249). -/
def execCloseStream (k : Stream) (s : State) : Host.Outcome State Fault Refusal :=
  s.apply fun d => d.streamClose k

/-- CLOSE_DONE (R249). -/
def execCloseDone (k : Stream) (s : State) : Host.Outcome State Fault Refusal :=
  s.apply fun d => d.closeDone k

/-- RESYNC (R249). -/
def execResync (k : Stream) (s : State) : Host.Outcome State Fault Refusal :=
  s.apply fun d => d.streamResync k

/-- SYNC_SEND (R249). -/
def execSyncSend (k : Stream) (s : State) : Host.Outcome State Fault Refusal :=
  s.apply fun d => d.syncSend k

/-- TELEMETRY_RECORD (R250). -/
def execTelemetryRecord (s : State) : Host.Outcome State Fault Refusal :=
  s.apply fun d => d.telemetryRecord

/-- ARM (R252). -/
def execArm (links : BitVec 32) (drain : BitVec 16) (s : State) : Host.Outcome State Fault Refusal :=
  s.apply fun d => d.arm links.toNat drain.toNat

/-- CANCEL (R252). -/
def execCancel (links : BitVec 32) (drain : BitVec 16) (s : State) : Host.Outcome State Fault Refusal :=
  s.apply fun d => d.cancel links.toNat drain.toNat

/-- RESHAPE_DRAIN (R252). -/
def execReshapeDrain (s : State) : Host.Outcome State Fault Refusal :=
  s.apply fun d => d.reshapeDrain

/-- BANK_SWAP (R252). -/
def execBankSwap (s : State) : Host.Outcome State Fault Refusal :=
  s.apply fun d => d.bankSwap

end Sys2Proof.Machine
end

