-- ==== Sys2Proof/Machine/RowsFaults.lean ====
section
/-!
DEFINITION. The meanings of the commands of quiet state, error banks and spares: each is its unit's operation on the device.
-/
namespace Sys2Proof.Machine

/-- ENTER (R363). -/
def execEnter (p : PartNo) (s : State) : Host.Outcome State Fault Refusal :=
  s.apply fun d => d.quietEnter p

/-- QUIET_ENTRY_COMPLETE (R362). -/
def execQuietEntryComplete (scope : Option PartNo) (s : State) : Host.Outcome State Fault Refusal :=
  s.apply fun d => (match scope with | some p => d.entryDone p | none => d.devEntryDone).watch

/-- DEVENTER (R363). -/
def execDeventer (s : State) : Host.Outcome State Fault Refusal :=
  s.apply fun d => d.quietDevEnter

/-- EXIT (R363). -/
def execExit (p : PartNo) (s : State) : Host.Outcome State Fault Refusal :=
  s.apply fun d => d.quietExit p

/-- ERROR_RECORD (R365). -/
def execErrorRecord (b : BankNo) (sev : BitVec 2) (cls : BitVec 8) (part : Option PartNo) (qscope : BitVec 2) (unit : BitVec 15) (info : BitVec 32) (addr extra : Word) (s : State) : Host.Outcome State Fault Refusal :=
  s.apply fun d => d.errorRecord b { sev := sev.toNat, cls := cls.toNat, part := part.map (·.val), qscope := qscope.toNat, unit := unit.toNat, info := info.toNat, addr := addr.toNat, extra := extra.toNat }

/-- ERROR_ACK (R365). -/
def execErrorAck (b : BankNo) (s : State) : Host.Outcome State Fault Refusal :=
  s.apply fun d => d.errorAck b

/-- CLROVF (R375). -/
def execClrovf (b : BankNo) (s : State) : Host.Outcome State Fault Refusal :=
  s.apply fun d => d.clrOvf b

/-- ESCALATION (R367). -/
def execEscalation (b : BankNo) (s : State) : Host.Outcome State Fault Refusal :=
  s.apply fun d => d.escalation b

/-- RETIRE (R368). -/
def execRetire (c : BitVec 8) (s : State) : Host.Outcome State Fault Refusal :=
  s.apply fun d => d.spRetire c.toNat

/-- CORE_RETIREMENT (R368). -/
def execCoreRetirement (c : CoreNo) (s : State) : Host.Outcome State Fault Refusal :=
  s.apply fun d => d.retireCore c

/-- CLRLIST (R368). -/
def execClrlist (s : State) : Host.Outcome State Fault Refusal :=
  s.apply fun d => d.clrList

/-- RETPAIR (R370). -/
def execRetpair (k : Fin 6) (s : State) : Host.Outcome State Fault Refusal :=
  s.apply fun d => d.retPair k

/-- LAGGARD_WINDOW (R371). -/
def execLaggardWindow (k : Dev.LgKind) (m : Nat) (s : State) : Host.Outcome State Fault Refusal :=
  s.apply fun d => d.laggardWindow k m

end Sys2Proof.Machine
end

