-- ==== Sys2Proof/Machine/RowsHbm.lean ====
section
/-!
DEFINITION. The meanings of the commands of stacked memory: each is its unit's operation on the device.
-/
namespace Sys2Proof.Machine

/-- HBM_READ (R199). -/
def execHbmRead (p : Option PartNo) (req : BitVec 32) (pa : BitVec 40) (cls : EccClass) (s : State) : Host.Outcome State Fault Refusal :=
  s.apply fun d => d.hbmReadCmd (p.map (·.val)) req.toNat pa.toNat cls

/-- HBM_WRITE (R200). -/
def execHbmWrite (p : Option PartNo) (req : BitVec 32) (pa : BitVec 40) (bytes : List Byte) (s : State) : Host.Outcome State Fault Refusal :=
  s.apply fun d => d.hbmWriteCmd (p.map (·.val)) req.toNat pa.toNat bytes

/-- MERGE_ENTRY_RETIRE (R204). -/
def execMergeEntryRetire (sector : BitVec 35) (ue : Bool) (s : State) : Host.Outcome State Fault Refusal :=
  s.apply fun d => d.mergeEntryRetire sector.toNat ue

/-- REFRESH (R205). -/
def execRefresh (k : StackNo) (delayed : Bool) (s : State) : Host.Outcome State Fault Refusal :=
  s.apply fun d => d.refresh k delayed

/-- HOT_SPOT_WINDOW (R196). -/
def execHotSpotWindow (k : StackNo) (s : State) : Host.Outcome State Fault Refusal :=
  s.apply fun d => d.hotSpotWindow k

/-- TEMPERATURE_REPORT (R191). -/
def execTemperatureReport (k : StackNo) (t : BitVec 16) (s : State) : Host.Outcome State Fault Refusal :=
  s.apply fun d => d.stackTemperature k t.toNat

/-- THROTTLE_STEP (R207). -/
def execThrottleStep (k : StackNo) (s : State) : Host.Outcome State Fault Refusal :=
  s.apply fun d => d.throttleStep k

/-- SCRUB_START (R208). -/
def execScrubStart (k : StackNo) (wb loc : Bool) (rate : BitVec 8) (s : State) : Host.Outcome State Fault Refusal :=
  s.apply fun d => d.scrubStartCmd k wb loc rate.toNat

/-- SCRUB_ABORT (R208). -/
def execScrubAbort (k : StackNo) (s : State) : Host.Outcome State Fault Refusal :=
  s.apply fun d => d.scrubAbort k

/-- SCRUB_SECTOR (R208). -/
def execScrubSector (k : StackNo) (cls : EccClass) (s : State) : Host.Outcome State Fault Refusal :=
  s.apply fun d => d.scrubSector k cls

/-- SCRUB_PASS_END (R208). -/
def execScrubPassEnd (k : StackNo) (s : State) : Host.Outcome State Fault Refusal :=
  s.apply fun d => d.scrubPassEnd k

/-- GENERATOR_START (R211). -/
def execGeneratorStart (k : StackNo) (n : Fin 32) (mode : BitVec 4) (pat : BitVec 3) (scope : Bool) (rate : BitVec 8) (s : State) : Host.Outcome State Fault Refusal :=
  s.apply fun d => d.generatorStartCmd k n mode.toNat pat.toNat scope rate.toNat

/-- GENERATOR_STOP (R211). -/
def execGeneratorStop (k : StackNo) (n : Fin 32) (s : State) : Host.Outcome State Fault Refusal :=
  s.apply fun d => d.generatorStop k n

/-- GENERATOR_RUN_END (R211). -/
def execGeneratorRunEnd (k : StackNo) (n : Fin 32) (fails : Nat) (l : Word) (pch : Fin 2) (s : State) : Host.Outcome State Fault Refusal :=
  s.apply fun d => d.generatorRunEnd k n fails l.toNat pch

/-- REHASH (R197). -/
def execRehash (p : PartNo) (seed : BitVec 25) (s : State) : Host.Outcome State Fault Refusal :=
  s.apply fun d => d.rehashGo p seed.toNat

/-- REHASH_ROW (R197). -/
def execRehashRow (ue : Option Nat) (s : State) : Host.Outcome State Fault Refusal :=
  s.apply fun d => d.rehashRow ue

/-- NEAR_MEMORY_ATOMIC (R209). -/
def execNearMemoryAtomic (p : PartNo) (req : BitVec 32) (pa : BitVec 40) (o : AtomOp) (wide : Bool) (v cmp : Word) (ue : Bool) (s : State) : Host.Outcome State Fault Refusal :=
  s.apply fun d => d.nearMemoryAtomic p req.toNat pa.toNat o wide v.toNat cmp.toNat ue

/-- INTERFACE_FAULT (R201). -/
def execInterfaceFault (k : StackNo) (s : State) : Host.Outcome State Fault Refusal :=
  s.apply fun d => d.interfaceFault k

/-- STACK_RETRAINING_END (R201). -/
def execStackRetrainingEnd (k : StackNo) (ok : Bool) (lanes : Nat) (s : State) : Host.Outcome State Fault Refusal :=
  s.apply fun d => d.stackRetrained k ok lanes

end Sys2Proof.Machine
end

