-- ==== Sys2Proof/Machine/RowsHost.lean ====
section
/-!
DEFINITION. The meanings of the commands of host accesses and the profile: each is its unit's operation on the device.
-/
namespace Sys2Proof.Machine

/-- REGISTER_WRITE (R10). -/
def execRegisterWrite (r : Requester) (user : Bool) (off : BitVec 28) (v : Word) (s : State) : Host.Outcome State Fault Refusal :=
  s.apply fun d => d.registerWrite r user off.toNat v.toNat

/-- LOW_WORD_READ (R13). -/
def execLowWordRead (r : Requester) (off : BitVec 28) (s : State) : Host.Outcome State Fault Refusal :=
  s.apply fun d => d.lowWordRead r off.toNat

/-- HIGH_WORD_READ (R13). -/
def execHighWordRead (r : Requester) (off : BitVec 28) (s : State) : Host.Outcome State Fault Refusal :=
  s.apply fun d => d.highWordRead r off.toNat

/-- LOW_WORD_WRITE (R14). -/
def execLowWordWrite (r : Requester) (user : Bool) (off : BitVec 28) (w : BitVec 32) (s : State) : Host.Outcome State Fault Refusal :=
  s.apply fun d => d.lowWordWrite r user off.toNat w

/-- HIGH_WORD_WRITE (R14). -/
def execHighWordWrite (r : Requester) (user : Bool) (off : BitVec 28) (w : BitVec 32) (s : State) : Host.Outcome State Fault Refusal :=
  s.apply fun d => d.highWordWrite r user off.toNat w

/-- WIDE_ACCESS (R16). -/
def execWideAccess (r : Requester) (user : Bool) (off : BitVec 28) (a : Nat ⊕ List Word) (s : State) : Host.Outcome State Fault Refusal :=
  s.apply fun d => d.wideAccess r user off.toNat a

/-- INVALID_WIDTH_ACCESS (R16). -/
def execInvalidWidthAccess (r : Requester) (write : Bool) (off : BitVec 28) (width : Nat) (s : State) : Host.Outcome State Fault Refusal :=
  s.apply fun d => d.invalidAccess r write off.toNat width

/-- UNMAPPED_ACCESS (R28). -/
def execUnmappedAccess (r : Requester) (write : Bool) (off : BitVec 28) (s : State) : Host.Outcome State Fault Refusal :=
  s.apply fun d => d.unmappedAccess r write off.toNat

/-- PROFILE_CHANGE (R420). -/
def execProfileChange (req : BitVec 2) (s : State) : Host.Outcome State Fault Refusal :=
  s.apply fun d => d.profileChange req.toNat

/-- PROFILE_CLOCK_CHANGE (R23). -/
def execProfileClockChange (s : State) : Host.Outcome State Fault Refusal :=
  s.apply fun d => d.profileClockChange

end Sys2Proof.Machine
end

