-- ==== Sys2Proof/Machine/RowsIntake.lean ====
section
/-!
DEFINITION. The meanings of the commands of accepted work: each is its unit's operation on the device.
-/
namespace Sys2Proof.Machine

/-- DOORBELL (R317). -/
def execDoorbell (p : PartNo) (r : RingNo) (v : Word) (s : State) : Host.Outcome State Fault Refusal :=
  s.apply fun d => d.doorbell p r v.toNat

/-- ACCEPTANCE (R321). -/
def execAcceptance (s : State) : Host.Outcome State Fault Refusal :=
  s.apply fun d => d.acceptance

/-- COMMAND_NOP (R319). -/
def execCommandNop (p : PartNo) (slot : RecNo) (s : State) : Host.Outcome State Fault Refusal :=
  s.apply fun d => d.commandNop p slot

/-- RUN (R319). -/
def execRun (p : PartNo) (slot : RecNo) (s : State) : Host.Outcome State Fault Refusal :=
  s.apply fun d => d.runCmd p slot

/-- ARMCF (R319). -/
def execArmcf (p : PartNo) (slot : RecNo) (s : State) : Host.Outcome State Fault Refusal :=
  s.apply fun d => d.armCf p slot

/-- ARMFY (R319). -/
def execArmfy (p : PartNo) (slot : RecNo) (s : State) : Host.Outcome State Fault Refusal :=
  s.apply fun d => d.armFy p slot

/-- WAIT_COMMAND (R319). -/
def execWaitCommand (p : PartNo) (slot : RecNo) (s : State) : Host.Outcome State Fault Refusal :=
  s.apply fun d => d.waitCommand p slot

/-- COMMAND_START (R327). -/
def execCommandStart (p : PartNo) (slot : RecNo) (s : State) : Host.Outcome State Fault Refusal :=
  s.apply fun d => d.commandStart p slot

/-- PART_END (R327). -/
def execPartEnd (p : PartNo) (slot : RecNo) (s : State) : Host.Outcome State Fault Refusal :=
  s.apply fun d => d.partEnd p slot

/-- FLIP_DONE (R325). -/
def execFlipDone (p : PartNo) (slot : RecNo) (s : State) : Host.Outcome State Fault Refusal :=
  s.apply fun d => d.flipDone p slot

/-- REPORT_DONE (R330). -/
def execReportDone (p : PartNo) (r : RingNo) (s : State) : Host.Outcome State Fault Refusal :=
  s.apply fun d => d.reportDone p r

/-- REPLAY (R329). -/
def execReplay (p : PartNo) (slot : RecNo) (s : State) : Host.Outcome State Fault Refusal :=
  s.apply fun d => d.replayCmd p slot

/-- COPY_ON_WRITE (R328). -/
def execCopyOnWrite (p : PartNo) (slot : RecNo) (v : BitVec 27) (s : State) : Host.Outcome State Fault Refusal :=
  s.apply fun d => d.copyOnWrite p slot v.toNat

/-- COPY_ON_WRITE_DONE (R328). -/
def execCopyOnWriteDone (p : PartNo) (slot : RecNo) (v : BitVec 27) (s : State) : Host.Outcome State Fault Refusal :=
  s.apply fun d => d.copyOnWriteDone p slot v.toNat

/-- REMIRROR (R324). -/
def execRemirror (s : State) : Host.Outcome State Fault Refusal :=
  s.apply fun d => d.remirror

/-- ABANDON (R333). -/
def execAbandon (p : PartNo) (r : RingNo) (s : State) : Host.Outcome State Fault Refusal :=
  s.apply fun d => d.abandonRing p r

/-- RING_ENABLE (R334). -/
def execRingEnable (p : PartNo) (r : RingNo) (s : State) : Host.Outcome State Fault Refusal :=
  s.apply fun d => d.ringEnable p r

end Sys2Proof.Machine
end

