-- ==== Sys2Proof/Machine/RowsIrq.lean ====
section
/-!
DEFINITION. The meanings of the commands of the interrupt controller: each is its unit's operation on the device.
-/
namespace Sys2Proof.Machine

/-- COALESCE_TIMEOUT (R381). -/
def execCoalesceTimeout (page : Fin 9) (v : Fin 64) (s : State) : Host.Outcome State Fault Refusal :=
  s.apply fun d => d.coalesceTimeout page v

/-- CLAIM (R382). -/
def execClaim (page : Fin 9) (v : Fin 64) (s : State) : Host.Outcome State Fault Refusal :=
  s.apply fun d => d.claimRead page v

/-- COMPLETE (R383). -/
def execComplete (page : Fin 9) (n : BitVec 12) (s : State) : Host.Outcome State Fault Refusal :=
  s.apply fun d => d.completeWrite page n.toNat

/-- MANAGEMENT_CLAIM (R384). -/
def execManagementClaim (m : Fin 2) (s : State) : Host.Outcome State Fault Refusal :=
  s.apply fun d => d.managementClaim m

/-- MANAGEMENT_COMPLETE (R384). -/
def execManagementComplete (m : Fin 2) (n : BitVec 12) (s : State) : Host.Outcome State Fault Refusal :=
  s.apply fun d => d.managementComplete m n.toNat

/-- OFFER_TIMEOUT (R384). -/
def execOfferTimeout (n : BitVec 12) (s : State) : Host.Outcome State Fault Refusal :=
  s.apply fun d => d.offerTimeout n.toNat

/-- SOURCE_ENABLE (R379). -/
def execSourceEnable (n : BitVec 12) (en level : Bool) (cls : BitVec 2) (prio : BitVec 3) (s : State) : Host.Outcome State Fault Refusal :=
  s.apply fun d => (if Dev.srcReal n.toNat then d.sourceConfig n.toNat en level cls.toNat prio.toNat else d)

/-- RAW_CLEAR (R377). -/
def execRawClear (n : BitVec 12) (s : State) : Host.Outcome State Fault Refusal :=
  s.apply fun d => d.rawClear n.toNat

/-- VECTOR_UNMASK (R381). -/
def execVectorUnmask (page : Fin 9) (v : Fin 64) (mask en : Bool) (s : State) : Host.Outcome State Fault Refusal :=
  s.apply fun d => d.vectorControl page v mask en

end Sys2Proof.Machine
end

