-- ==== Sys2Proof/Machine/RowsLaser.lean ====
section
/-!
DEFINITION. The meanings of the commands of laser cartridges and the sideband bus: each is its unit's operation on the device.
-/
namespace Sys2Proof.Machine

/-- PRESENCE (R395). -/
def execPresence (c : Fin 8) (s : State) : Host.Outcome State Fault Refusal :=
  s.apply fun d => d.presence c

/-- PRESENCE_LOST (R395). -/
def execPresenceLost (c : Fin 8) (s : State) : Host.Outcome State Fault Refusal :=
  s.apply fun d => d.presenceLost c

/-- HOT_JOIN (R393). -/
def execHotJoin (p : Fin 2) (s : State) : Host.Outcome State Fault Refusal :=
  s.apply fun d => d.hotJoin p

/-- ENTDAA (R392). -/
def execEntdaa (p : Fin 2) (won : BitVec 4) (s : State) : Host.Outcome State Fault Refusal :=
  s.apply fun d => d.entdaa p won.toNat

/-- IDENTITY_READ (R396). -/
def execIdentityRead (c : Fin 8) (id : List Byte) (aEh aSeq bEh bSeq : BitVec 32) (s : State) : Host.Outcome State Fault Refusal :=
  s.apply fun d => d.identityRead c id (aEh.toNat, aSeq.toNat) (bEh.toNat, bSeq.toNat)

/-- LEGACY_DETECT (R394). -/
def execLegacyDetect (c : Fin 8) (s : State) : Host.Outcome State Fault Refusal :=
  s.apply fun d => d.legacyDetect c

/-- LASER_ON (R395). -/
def execLaserOn (c : Fin 8) (s : State) : Host.Outcome State Fault Refusal :=
  s.apply fun d => d.lasCtl c 1 false

/-- LASER_OFF (R395). -/
def execLaserOff (c : Fin 8) (s : State) : Host.Outcome State Fault Refusal :=
  s.apply fun d => d.lasCtl c 2 false

/-- PREP (R401). -/
def execPrep (c : Fin 8) (force : Bool) (s : State) : Host.Outcome State Fault Refusal :=
  s.apply fun d => d.lasCtl c 3 force

/-- ALLOFF (R405). -/
def execAlloff (s : State) : Host.Outcome State Fault Refusal :=
  s.apply fun d => d.lasCtl 0 4 false

/-- WARMING_TIMEOUT (R395). -/
def execWarmingTimeout (c : Fin 8) (s : State) : Host.Outcome State Fault Refusal :=
  s.apply fun d => d.warmingTimeout c

/-- POLL (R397). -/
def execPoll (c : Fin 8) (status : BitVec 8) (temp : BitVec 16) (bias pout : BitVec 16) (nack : Option Bool) (s : State) : Host.Outcome State Fault Refusal :=
  s.apply fun d => d.poll c status.toNat temp.toNat bias.toNat pout.toNat nack

/-- IN_BAND_INTERRUPT (R397). -/
def execInBandInterrupt (c : Fin 8) (status : BitVec 8) (temp : BitVec 16) (bias pout : BitVec 16) (nack : Option Bool) (s : State) : Host.Outcome State Fault Refusal :=
  s.apply fun d => d.inBandInterrupt c status.toNat temp.toNat bias.toNat pout.toNat nack

/-- WEAR_WRITEBACK (R399). -/
def execWearWriteback (s : State) : Host.Outcome State Fault Refusal :=
  s.apply fun d => d.wearWriteback

/-- FEED_MOVE (R400). -/
def execFeedMove (e : Fin 8) (g to_ : Fin 2) (s : State) : Host.Outcome State Fault Refusal :=
  s.apply fun d => d.feedMove e g to_

/-- RECOVER (R403). -/
def execRecover (p : Fin 2) (sdaLow : Bool) (s : State) : Host.Outcome State Fault Refusal :=
  s.apply fun d => d.recover p sdaLow

/-- PORT_RESET (R403). -/
def execPortReset (p : Fin 2) (sdaLow : Bool) (s : State) : Host.Outcome State Fault Refusal :=
  s.apply fun d => d.portReset p sdaLow

/-- RECOVERY_ATTEMPT (R403). -/
def execRecoveryAttempt (p : Fin 2) (ok : Bool) (s : State) : Host.Outcome State Fault Refusal :=
  s.apply fun d => d.recoveryAttempt p ok

end Sys2Proof.Machine
end

