-- ==== Sys2Proof/Machine/RowsLink.lean ====
section
/-!
DEFINITION. The meanings of the commands of links and optics: each is its unit's operation on the device.
-/
namespace Sys2Proof.Machine

/-- LINK_ENABLE (R219). -/
def execLinkEnable (l : LinkNo) (s : State) : Host.Outcome State Fault Refusal :=
  s.apply fun d => d.linkEnable l

/-- LINK_DISABLE (R219). -/
def execLinkDisable (l : LinkNo) (s : State) : Host.Outcome State Fault Refusal :=
  s.apply fun d => d.linkDisable l

/-- RETRAIN (R219). -/
def execRetrain (l : LinkNo) (s : State) : Host.Outcome State Fault Refusal :=
  s.apply fun d => d.retrain l

/-- LINK_RESET (R234). -/
def execLinkReset (l : LinkNo) (s : State) : Host.Outcome State Fault Refusal :=
  s.apply fun d => d.linkReset l

/-- READMIT (R227). -/
def execReadmit (l : LinkNo) (s : State) : Host.Outcome State Fault Refusal :=
  s.apply fun d => d.readmit l

/-- AUTO_READMIT (R227). -/
def execAutoReadmit (l : LinkNo) (s : State) : Host.Outcome State Fault Refusal :=
  s.apply fun d => d.autoReadmit l

/-- TRAINING_DONE (R219). -/
def execTrainingDone (l : LinkNo) (tx rx : BitVec 4) (s : State) : Host.Outcome State Fault Refusal :=
  s.apply fun d => d.trainingDone l tx.toNat rx.toNat

/-- TRAIN_TIMEOUT (R219). -/
def execTrainTimeout (l : LinkNo) (s : State) : Host.Outcome State Fault Refusal :=
  s.apply fun d => d.trainTimeout l

/-- TRAIN_RETRY (R219). -/
def execTrainRetry (l : LinkNo) (s : State) : Host.Outcome State Fault Refusal :=
  s.apply fun d => d.trainRetry l

/-- IDENT (R219). -/
def execIdent (l : LinkNo) (h : FlitHdr) (nb : NbrId) (s : State) : Host.Outcome State Fault Refusal :=
  s.apply fun d => d.identFlit l h nb

/-- LNK_EXPECT (R219). -/
def execLnkExpect (l : LinkNo) (dev : BitVec 20) (link : BitVec 5) (valid : Bool) (s : State) : Host.Outcome State Fault Refusal :=
  s.apply fun d => d.lnkExpect l dev.toNat link.toNat valid

/-- DATA_FLIT (R222). -/
def execDataFlit (l : LinkNo) (h : FlitHdr) (seq : BitVec 12) (v : Fin 8) (bytes : List Byte) (s : State) : Host.Outcome State Fault Refusal :=
  s.apply fun d => d.dataFlit l h seq.toNat v bytes

/-- DATA_FLIT_TRANSMIT (R221). -/
def execDataFlitTransmit (l : LinkNo) (v : Fin 8) (s : State) : Host.Outcome State Fault Refusal :=
  s.apply fun d => d.dataTransmit l v

/-- IDLE (R217). -/
def execIdle (l : LinkNo) (h : FlitHdr) (s : State) : Host.Outcome State Fault Refusal :=
  s.apply fun d => d.idleFlit l h

/-- NAK (R221). -/
def execNak (l : LinkNo) (h : FlitHdr) (e : BitVec 12) (s : State) : Host.Outcome State Fault Refusal :=
  s.apply fun d => d.nakFlit l h e.toNat

/-- NAK_RESEND (R222). -/
def execNakResend (l : LinkNo) (s : State) : Host.Outcome State Fault Refusal :=
  s.apply fun d => d.nakResend l

/-- CREDSYNC (R217). -/
def execCredsync (l : LinkNo) (h : FlitHdr) (counts : List (BitVec 16)) (s : State) : Host.Outcome State Fault Refusal :=
  s.apply fun d => d.credSync l h counts

/-- CREDSYNC_SEND (R217). -/
def execCredsyncSend (l : LinkNo) (s : State) : Host.Outcome State Fault Refusal :=
  s.apply fun d => d.credSyncSend l

/-- LANE_FAIL (R225). -/
def execLaneFail (l : LinkNo) (k : Fin 4) (s : State) : Host.Outcome State Fault Refusal :=
  s.apply fun d => d.laneFail l k

/-- DEGRADE (R226). -/
def execDegrade (l : LinkNo) (h : FlitHdr) (m : BitVec 4) (s : State) : Host.Outcome State Fault Refusal :=
  s.apply fun d => d.degradeFlit l h m.toNat

/-- DEGACK (R226). -/
def execDegack (l : LinkNo) (h : FlitHdr) (m : BitVec 4) (s : State) : Host.Outcome State Fault Refusal :=
  s.apply fun d => d.degAckFlit l h m.toNat

/-- LANEMARK (R226). -/
def execLanemark (l : LinkNo) (h : FlitHdr) (s : State) : Host.Outcome State Fault Refusal :=
  s.apply fun d => d.laneMark l h

/-- LANE_READMISSION (R227). -/
def execLaneReadmission (l : LinkNo) (k : Fin 4) (s : State) : Host.Outcome State Fault Refusal :=
  s.apply fun d => d.laneReadmission l k

/-- LIGHT_LOSS (R219). -/
def execLightLoss (l : LinkNo) (s : State) : Host.Outcome State Fault Refusal :=
  s.apply fun d => d.lightLoss l

/-- LIGHT_RETURN (R219). -/
def execLightReturn (l : LinkNo) (nb : NbrId) (s : State) : Host.Outcome State Fault Refusal :=
  s.apply fun d => d.lightReturn l nb

/-- PAUSE_TIMEOUT (R219). -/
def execPauseTimeout (l : LinkNo) (s : State) : Host.Outcome State Fault Refusal :=
  s.apply fun d => d.pauseTimeout l

/-- RETRAIN_DONE (R219). -/
def execRetrainDone (l : LinkNo) (nb : NbrId) (e : BitVec 12) (s : State) : Host.Outcome State Fault Refusal :=
  s.apply fun d => d.retrainDone l nb e.toNat

/-- RETRAIN_TIMEOUT (R219). -/
def execRetrainTimeout (l : LinkNo) (s : State) : Host.Outcome State Fault Refusal :=
  s.apply fun d => d.retrainTimeout l

/-- TIME (R231). -/
def execTime (l : LinkNo) (dt : Nat) (h : FlitHdr) (b : TimeBody) (sub : BitVec 16) (s : State) : Host.Outcome State Fault Refusal :=
  s.apply fun d => d.timeFlit l dt h b sub.toNat

/-- TIME_FLIT_SEND (R231). -/
def execTimeFlitSend (l : LinkNo) (sub : BitVec 16) (s : State) : Host.Outcome State Fault Refusal :=
  s.apply fun d => d.timeFlitSend l sub.toNat

/-- FEED_SWITCH (R229). -/
def execFeedSwitch (e : Fin 8) (g : Fin 2) (lit : Bool) (s : State) : Host.Outcome State Fault Refusal :=
  s.apply fun d => d.feedSwitch e g lit

/-- LIGHT_ON_LANE (R219). -/
def execLightOnLane (l : LinkNo) (k : Fin 4) (s : State) : Host.Outcome State Fault Refusal :=
  s.apply fun d => d.lightOnLane l k

/-- RTE_ID_VALID (R236). -/
def execRteIdValid (dev : BitVec 20) (s : State) : Host.Outcome State Fault Refusal :=
  s.apply fun d => d.rteId dev.toNat true

end Sys2Proof.Machine
end

