-- ==== Sys2Proof/Machine/RowsMatrix.lean ====
section
/-!
DEFINITION. The meanings of the commands of the matrix array: each is its unit's operation on the device.
-/
namespace Sys2Proof.Machine

/-- MMA (R59). -/
def execMma (c : CoreNo) (s : State) : Host.Outcome State Fault Refusal :=
  s.apply fun d => (d.mma c).watch

/-- MMA_SEGMENT_END (R94). -/
def execMmaSegmentEnd (c : CoreNo) (o : ChkOut) (s : State) : Host.Outcome State Fault Refusal :=
  s.apply fun d => d.mmaSegmentEnd c o

/-- COLLAPSE (R82). -/
def execCollapse (c : CoreNo) (o : ChkOut) (s : State) : Host.Outcome State Fault Refusal :=
  s.apply fun d => d.collapse c o

/-- DRAIN (R85). -/
def execDrain (c : CoreNo) (o : ChkOut) (s : State) : Host.Outcome State Fault Refusal :=
  s.apply fun d => (d.drain c o).watch

/-- MDRAIN (R85). -/
def execMdrain (c : CoreNo) (o : ChkOut) (s : State) : Host.Outcome State Fault Refusal :=
  s.apply fun d => (d.mdrain c o).watch

/-- MPRE (R88). -/
def execMpre (c : CoreNo) (s : State) : Host.Outcome State Fault Refusal :=
  s.apply fun d => (d.mpre c).watch

/-- MTRANS (R89). -/
def execMtrans (c : CoreNo) (s : State) : Host.Outcome State Fault Refusal :=
  s.apply fun d => (d.mtrans c).watch

/-- ACCUMULATOR_READ (R99). -/
def execAccumulatorRead (r : Requester) (c : CoreNo) (n : Fin 32) (s : State) : Host.Outcome State Fault Refusal :=
  s.apply fun d => d.accumulatorRead r c n

end Sys2Proof.Machine
end

