-- ==== Sys2Proof/Machine/RowsMgmt.lean ====
section
/-!
DEFINITION. The meanings of the commands of the management island, power, reset and thermal: each is its unit's operation on the device.
-/
namespace Sys2Proof.Machine

/-- MAILBOX_IDENT (R412). -/
def execMailboxIdent (mb : Fin 3) (s : State) : Host.Outcome State Fault Refusal :=
  s.apply fun d => d.mailboxIdent mb

/-- ERRREAD (R412). -/
def execErrread (mb : Fin 3) (b : Word) (s : State) : Host.Outcome State Fault Refusal :=
  s.apply fun d => d.errRead mb b.toNat

/-- JSTAT (R412). -/
def execJstat (mb : Fin 3) (p : Word) (s : State) : Host.Outcome State Fault Refusal :=
  s.apply fun d => d.jstat mb p.toNat

/-- MAILBOX_FENCE (R412). -/
def execMailboxFence (mb : Fin 3) (target : Word) (s : State) : Host.Outcome State Fault Refusal :=
  s.apply fun d => d.mailboxFence mb target.toNat

/-- SNAP (R436). -/
def execSnap (mb : Fin 3) (g off : Word) (s : State) : Host.Outcome State Fault Refusal :=
  s.apply fun d => d.mailboxSnap mb g.toNat off.toNat

/-- THMREAD (R412). -/
def execThmread (mb : Fin 3) (s : State) : Host.Outcome State Fault Refusal :=
  s.apply fun d => d.thmRead mb

/-- THMSET (R428). -/
def execThmset (mb : Fin 3) (v : Word) (s : State) : Host.Outcome State Fault Refusal :=
  s.apply fun d => d.mailboxThmSet mb v.toNat

/-- LASEROFF (R412). -/
def execLaseroff (mb : Fin 3) (s : State) : Host.Outcome State Fault Refusal :=
  s.apply fun d => d.laserOffAll mb

/-- MAILBOX_RESET (R412). -/
def execMailboxReset (mb : Fin 3) (v : Word) (s : State) : Host.Outcome State Fault Refusal :=
  s.apply fun d => d.mailboxReset mb v.toNat

/-- LOGREAD (R412). -/
def execLogread (mb : Fin 3) (idx : Word) (s : State) : Host.Outcome State Fault Refusal :=
  s.apply fun d => d.logRead mb idx.toNat

/-- SFUIMG (R142). -/
def execSfuimg (mb : Fin 3) (offset : Nat) (piece : List Byte) (s : State) : Host.Outcome State Fault Refusal :=
  s.apply fun d => d.sfuImg mb offset piece

/-- MICROPROGRAM_INSTALL (R143). -/
def execMicroprogramInstall (s : State) : Host.Outcome State Fault Refusal :=
  s.apply fun d => d.microprogramInstall

/-- LOCKSTEP_MISMATCH (R409). -/
def execLockstepMismatch (m : Fin 2) (s : State) : Host.Outcome State Fault Refusal :=
  s.apply fun d => d.lockstepMismatch m

/-- PAIR_RETURN (R409). -/
def execPairReturn (m : Fin 2) (s : State) : Host.Outcome State Fault Refusal :=
  s.apply fun d => d.pairReturn m

/-- LOWV (R417). -/
def execLowv (mv : BitVec 16) (s : State) : Host.Outcome State Fault Refusal :=
  s.apply fun d => d.lowV mv.toNat

/-- INPUT_BELOW_40V (R417). -/
def execInputBelow40v (mv : BitVec 16) (s : State) : Host.Outcome State Fault Refusal :=
  s.apply fun d => d.inputBelow40V mv.toNat

/-- INPUT_RESTORED (R417). -/
def execInputRestored (mv : BitVec 16) (s : State) : Host.Outcome State Fault Refusal :=
  s.apply fun d => d.inputRestored mv.toNat

/-- CAP_WINDOW (R418). -/
def execCapWindow (avg : BitVec 16) (uj : List Nat) (s : State) : Host.Outcome State Fault Refusal :=
  s.apply fun d => d.capWindow avg.toNat uj

/-- DOMAIN_ON (R415). -/
def execDomainOn (n : BitVec 5) (s : State) : Host.Outcome State Fault Refusal :=
  s.apply fun d => d.domainOn n.toNat

/-- DOMAIN_OFF (R415). -/
def execDomainOff (n : BitVec 5) (s : State) : Host.Outcome State Fault Refusal :=
  s.apply fun d => d.domainOff n.toNat

/-- COLD_RESET (R421). -/
def execColdReset (s : State) : Host.Outcome State Fault Refusal :=
  s.apply fun d => d.coldReset 4

/-- WARM_RESET (R423). -/
def execWarmReset (s : State) : Host.Outcome State Fault Refusal :=
  s.apply fun d => d.warmReset 4

/-- PARTITION_RESET (R421). -/
def execPartitionReset (p : PartNo) (s : State) : Host.Outcome State Fault Refusal :=
  s.apply fun d => d.partitionReset p

/-- CORE_RESET (R421). -/
def execCoreReset (c : CoreNo) (s : State) : Host.Outcome State Fault Refusal :=
  s.apply fun d => d.coreResetCmd c

/-- MOD_RESET_N (R449). -/
def execModResetN (low : Bool) (s : State) : Host.Outcome State Fault Refusal :=
  s.applyTap (fun t d => (if low then t else t.released, d.modResetN low))

/-- PERST_N (R449). -/
def execPerstN (asserted : Bool) (s : State) : Host.Outcome State Fault Refusal :=
  s.apply fun d => d.perstN asserted

/-- FUNCTION_LEVEL_RESET (R457). -/
def execFunctionLevelReset (fn : Fin 9) (s : State) : Host.Outcome State Fault Refusal :=
  s.apply fun d => d.functionLevelReset fn

/-- WARM_BRING_UP (R423). -/
def execWarmBringUp (failed : BitVec 12) (s : State) : Host.Outcome State Fault Refusal :=
  s.apply fun d => d.warmBringUp failed.toNat

/-- COLD_BRING_UP (R414). -/
def execColdBringUp (failed : BitVec 12) (s : State) : Host.Outcome State Fault Refusal :=
  s.apply fun d => d.coldBringUp failed.toNat

/-- VSTBY_VALID (R451). -/
def execVstbyValid (straps : BitVec 4) (s : State) : Host.Outcome State Fault Refusal :=
  s.apply fun d => d.vstbyValid straps.toNat

/-- VSTBY_ABSENT (R452). -/
def execVstbyAbsent (s : State) : Host.Outcome State Fault Refusal :=
  s.applyTap (fun _ d => (Tap.reset, d.vstbyAbsent))

/-- SENSOR_SAMPLE (R425). -/
def execSensorSample (sensor : Fin 48) (t : BitVec 16) (s : State) : Host.Outcome State Fault Refusal :=
  s.apply fun d => d.sensorSample sensor t.toNat

/-- THERMAL_LEVEL_STEP (R426). -/
def execThermalLevelStep (die : Fin 2) (s : State) : Host.Outcome State Fault Refusal :=
  s.apply fun d => d.thermalLevelStep die

/-- FIRMWARE_UPDATE (R430). -/
def execFirmwareUpdate (x : FwComp) (whole : Bool) (s : State) : Host.Outcome State Fault Refusal :=
  s.apply fun d => d.firmwareUpdate x whole

/-- ACTIVATE_FIRMWARE (R430). -/
def execActivateFirmware (selfContained : Bool) (s : State) : Host.Outcome State Fault Refusal :=
  s.apply fun d => d.activateFirmware selfContained

/-- PLDM_PLATFORM_MONITORING (R429). -/
def execPldmPlatformMonitoring (sensor : PldmSensor) (s : State) : Host.Outcome State Fault Refusal :=
  s.apply fun d => d.pldmMonitor sensor

/-- PLDM_BASE_DISCOVERY (R429). -/
def execPldmBaseDiscovery (cmd : BitVec 8) (s : State) : Host.Outcome State Fault Refusal :=
  s.apply fun d => d.pldmBase cmd.toNat

/-- COMPLETION_TIMEOUT (R458). -/
def execCompletionTimeout (e : HostEnd) (page : BitVec 52) (s : State) : Host.Outcome State Fault Refusal :=
  s.apply fun d => d.completionTimeout e page.toNat

/-- ATS_INVALIDATION (R459). -/
def execAtsInvalidation (fn : Fin 9) (s : State) : Host.Outcome State Fault Refusal :=
  s.apply fun d => d.atsInvalidation fn

/-- POISONED_TLP (R458). -/
def execPoisonedTlp (addr : BitVec 28) (s : State) : Host.Outcome State Fault Refusal :=
  s.apply fun d => d.poisonedTlp addr.toNat

/-- BUS_MASTER_ENABLE (R458). -/
def execBusMasterEnable (fn : Fin 9) (on : Bool) (s : State) : Host.Outcome State Fault Refusal :=
  s.apply fun d => d.busMasterEnable fn on

/-- VF_ENABLE (R457). -/
def execVfEnable (on : Bool) (num : BitVec 16) (s : State) : Host.Outcome State Fault Refusal :=
  s.apply fun d => d.vfEnable on num.toNat

end Sys2Proof.Machine
end

