-- ==== Sys2Proof/Machine/RowsPartition.lean ====
section
/-!
DEFINITION. The meanings of the commands of partitions: each is its unit's operation on the device.
-/
namespace Sys2Proof.Machine

/-- CREATE (R347). -/
def execCreate (p : PartNo) (s : State) : Host.Outcome State Fault Refusal :=
  s.apply fun d => d.ptCreate p

/-- FENCE (R345). -/
def execFence (p : PartNo) (s : State) : Host.Outcome State Fault Refusal :=
  s.apply fun d => d.ptFence p

/-- QUIESCE (R345). -/
def execQuiesce (p : PartNo) (s : State) : Host.Outcome State Fault Refusal :=
  s.apply fun d => d.ptQuiesce p

/-- FENCE_POINT (R345). -/
def execFencePoint (p : PartNo) (s : State) : Host.Outcome State Fault Refusal :=
  s.apply fun d => d.fencePointRow p

/-- PARTITION_RESUME (R347). -/
def execPartitionResume (p : PartNo) (s : State) : Host.Outcome State Fault Refusal :=
  s.apply fun d => d.partitionResume p

/-- PARTITION_RELEASE (R347). -/
def execPartitionRelease (p : PartNo) (s : State) : Host.Outcome State Fault Refusal :=
  s.apply fun d => d.ptRelease p

/-- RELEASE_DONE (R347). -/
def execReleaseDone (p : PartNo) (s : State) : Host.Outcome State Fault Refusal :=
  s.apply fun d => d.releaseDone p

/-- EXTENT_ASSIGN (R344). -/
def execExtentAssign (p : PartNo) (first n : BitVec 17) (s : State) : Host.Outcome State Fault Refusal :=
  s.apply fun d => d.extentAssign p first.toNat n.toNat

/-- EXTENT_ZEROED (R344). -/
def execExtentZeroed (p : PartNo) (s : State) : Host.Outcome State Fault Refusal :=
  s.apply fun d => d.extentZeroed p

/-- EXTENT_REMOVE (R344). -/
def execExtentRemove (p : PartNo) (first n : BitVec 17) (s : State) : Host.Outcome State Fault Refusal :=
  s.apply fun d => d.extentRemove p first.toNat n.toNat

/-- RESERVE_ADD (R346). -/
def execReserveAdd (p : PartNo) (first n : BitVec 17) (s : State) : Host.Outcome State Fault Refusal :=
  s.apply fun d => d.reserveAdd p first.toNat n.toNat

/-- RESERVE_TAKE (R346). -/
def execReserveTake (p : PartNo) (first n : BitVec 17) (s : State) : Host.Outcome State Fault Refusal :=
  s.apply fun d => d.reserveTake p first.toNat n.toNat

/-- GENH (R355). -/
def execGenh (p : PartNo) (s : State) : Host.Outcome State Fault Refusal :=
  s.apply fun d => d.genH p

/-- LOADH (R355). -/
def execLoadh (p : PartNo) (s : State) : Host.Outcome State Fault Refusal :=
  s.apply fun d => d.loadH p

/-- LOADL (R355). -/
def execLoadl (p : PartNo) (s : State) : Host.Outcome State Fault Refusal :=
  s.apply fun d => d.loadL p

/-- CLRH_KEY (R355). -/
def execClrhKey (p : PartNo) (s : State) : Host.Outcome State Fault Refusal :=
  s.apply fun d => d.clrHKey p

/-- CLRL (R355). -/
def execClrl (p : PartNo) (s : State) : Host.Outcome State Fault Refusal :=
  s.apply fun d => d.clrL p

/-- S1_INVALIDATE (R343). -/
def execS1Invalidate (p : PartNo) (all : Bool) (page : BitVec 27) (s : State) : Host.Outcome State Fault Refusal :=
  s.apply fun d => d.s1Invalidate p all (page.toNat * 2 ^ 21)

/-- INVALIDATION_DONE (R343). -/
def execInvalidationDone (p : PartNo) (s : State) : Host.Outcome State Fault Refusal :=
  s.apply fun d => d.invalidationDone p

/-- WEIR_WINDOW (R348). -/
def execWeirWindow (p : PartNo) (r : Fin 8) (unmet : Bool) (cause : BitVec 4) (s : State) : Host.Outcome State Fault Refusal :=
  s.apply fun d => d.weirWindow p r unmet cause.toNat

end Sys2Proof.Machine
end

