-- ==== Sys2Proof/Machine/RowsScalar.lean ====
section
/-!
DEFINITION. The meanings of the commands of stations and the scalar sequencer: each is its unit's operation on the device.
-/
namespace Sys2Proof.Machine

/-- setm from where it is issued (R63). -/
def Dev.setm (c : Nat) (a : SetmAt) (d : Dev) : Dev :=
  match a with
  | .seq g e fld v => d.setmSeq c g e fld v
  | .eng e => d.setmEng c (e + 1)

/-- STATION_ENABLE (R36). -/
def execStationEnable (c : CoreNo) (n : Station) (v : Word) (s : State) : Host.Outcome State Fault Refusal :=
  s.apply fun d => d.stCfgWrite c n (setBit v.toNat 0 true)

/-- STATION_DISABLE (R43). -/
def execStationDisable (c : CoreNo) (n : Station) (v : Word) (s : State) : Host.Outcome State Fault Refusal :=
  s.apply fun d => (d.stCfgWrite c n (setBit v.toNat 0 false)).watch

/-- PUSH (R38). -/
def execPush (c : CoreNo) (n : Station) (fmt : BitVec 5) (bytes : List Byte) (marked : Bool) (s : State) : Host.Outcome State Fault Refusal :=
  s.apply fun d => (d.stationPush c n fmt.toNat bytes marked).watch

/-- POP (R38). -/
def execPop (c : CoreNo) (n : Station) (s : State) : Host.Outcome State Fault Refusal :=
  s.apply fun d => (d.stationPop c n).watch

/-- ENGINE_INSTRUCTION_DISPATCH (R53). -/
def execDispatch (c : CoreNo) (w ext : Word) (s : State) : Host.Outcome State Fault Refusal :=
  s.apply fun d => d.dispatch c w ext

/-- NOP (R56). -/
def execNop (c : CoreNo) (g : Option Guard) (e : EngNo) (s : State) : Host.Outcome State Fault Refusal :=
  s.apply fun d => d.nop c g (e + 1)

/-- ADD (R56). -/
def execAdd (c : CoreNo) (g : Guard) (rd ra rb : BitVec 5) (s : State) : Host.Outcome State Fault Refusal :=
  s.apply fun d => d.aluSR 0x01 c g rd ra rb (· + ·)

/-- SUB (R56). -/
def execSub (c : CoreNo) (g : Guard) (rd ra rb : BitVec 5) (s : State) : Host.Outcome State Fault Refusal :=
  s.apply fun d => d.aluSR 0x02 c g rd ra rb (· - ·)

/-- AND (R56). -/
def execAnd (c : CoreNo) (g : Guard) (rd ra rb : BitVec 5) (s : State) : Host.Outcome State Fault Refusal :=
  s.apply fun d => d.aluSR 0x03 c g rd ra rb (· &&& ·)

/-- OR (R56). -/
def execOr (c : CoreNo) (g : Guard) (rd ra rb : BitVec 5) (s : State) : Host.Outcome State Fault Refusal :=
  s.apply fun d => d.aluSR 0x04 c g rd ra rb (· ||| ·)

/-- XOR (R56). -/
def execXor (c : CoreNo) (g : Guard) (rd ra rb : BitVec 5) (s : State) : Host.Outcome State Fault Refusal :=
  s.apply fun d => d.aluSR 0x05 c g rd ra rb (· ^^^ ·)

/-- SHL (R56). -/
def execShl (c : CoreNo) (g : Guard) (rd ra rb : BitVec 5) (s : State) : Host.Outcome State Fault Refusal :=
  s.apply fun d => d.aluSR 0x06 c g rd ra rb Dev.opShl

/-- SHR (R56). -/
def execShr (c : CoreNo) (g : Guard) (rd ra rb : BitVec 5) (s : State) : Host.Outcome State Fault Refusal :=
  s.apply fun d => d.aluSR 0x07 c g rd ra rb Dev.opShr

/-- SRA (R56). -/
def execSra (c : CoreNo) (g : Guard) (rd ra rb : BitVec 5) (s : State) : Host.Outcome State Fault Refusal :=
  s.apply fun d => d.aluSR 0x08 c g rd ra rb Dev.opSra

/-- MUL (R56). -/
def execMul (c : CoreNo) (g : Guard) (rd ra rb : BitVec 5) (s : State) : Host.Outcome State Fault Refusal :=
  s.apply fun d => d.aluSR 0x09 c g rd ra rb (· * ·)

/-- MIN (R56). -/
def execMin (c : CoreNo) (g : Guard) (rd ra rb : BitVec 5) (s : State) : Host.Outcome State Fault Refusal :=
  s.apply fun d => d.aluSR 0x0A c g rd ra rb Dev.opMin

/-- MAX (R56). -/
def execMax (c : CoreNo) (g : Guard) (rd ra rb : BitVec 5) (s : State) : Host.Outcome State Fault Refusal :=
  s.apply fun d => d.aluSR 0x0B c g rd ra rb Dev.opMax

/-- ADDI (R56). -/
def execAddi (c : CoreNo) (g : Guard) (rd ra : BitVec 5) (imm : BitVec 39) (s : State) : Host.Outcome State Fault Refusal :=
  s.apply fun d => d.aluSI 0x11 c g rd ra imm (· + ·)

/-- ANDI (R56). -/
def execAndi (c : CoreNo) (g : Guard) (rd ra : BitVec 5) (imm : BitVec 39) (s : State) : Host.Outcome State Fault Refusal :=
  s.apply fun d => d.aluSI 0x13 c g rd ra imm (· &&& ·)

/-- ORI (R56). -/
def execOri (c : CoreNo) (g : Guard) (rd ra : BitVec 5) (imm : BitVec 39) (s : State) : Host.Outcome State Fault Refusal :=
  s.apply fun d => d.aluSI 0x14 c g rd ra imm (· ||| ·)

/-- XORI (R56). -/
def execXori (c : CoreNo) (g : Guard) (rd ra : BitVec 5) (imm : BitVec 39) (s : State) : Host.Outcome State Fault Refusal :=
  s.apply fun d => d.aluSI 0x15 c g rd ra imm (· ^^^ ·)

/-- SHLI (R56). -/
def execShli (c : CoreNo) (g : Guard) (rd ra : BitVec 5) (imm : BitVec 39) (s : State) : Host.Outcome State Fault Refusal :=
  s.apply fun d => d.aluSI 0x16 c g rd ra imm Dev.opShl

/-- SHRI (R56). -/
def execShri (c : CoreNo) (g : Guard) (rd ra : BitVec 5) (imm : BitVec 39) (s : State) : Host.Outcome State Fault Refusal :=
  s.apply fun d => d.aluSI 0x17 c g rd ra imm Dev.opShr

/-- SRAI (R56). -/
def execSrai (c : CoreNo) (g : Guard) (rd ra : BitVec 5) (imm : BitVec 39) (s : State) : Host.Outcome State Fault Refusal :=
  s.apply fun d => d.aluSI 0x18 c g rd ra imm Dev.opSra

/-- MULI (R56). -/
def execMuli (c : CoreNo) (g : Guard) (rd ra : BitVec 5) (imm : BitVec 39) (s : State) : Host.Outcome State Fault Refusal :=
  s.apply fun d => d.aluSI 0x19 c g rd ra imm (· * ·)

/-- MINI (R56). -/
def execMini (c : CoreNo) (g : Guard) (rd ra : BitVec 5) (imm : BitVec 39) (s : State) : Host.Outcome State Fault Refusal :=
  s.apply fun d => d.aluSI 0x1A c g rd ra imm Dev.opMin

/-- MAXI (R56). -/
def execMaxi (c : CoreNo) (g : Guard) (rd ra : BitVec 5) (imm : BitVec 39) (s : State) : Host.Outcome State Fault Refusal :=
  s.apply fun d => d.aluSI 0x1B c g rd ra imm Dev.opMax

/-- LI (R56). -/
def execLi (c : CoreNo) (g : Guard) (rd : BitVec 5) (v : BitVec 39 ⊕ Word) (s : State) : Host.Outcome State Fault Refusal :=
  s.apply fun d => d.li c g rd v

/-- MOV (R56). -/
def execMov (c : CoreNo) (g : Guard) (rd ra : BitVec 5) (s : State) : Host.Outcome State Fault Refusal :=
  s.apply fun d => d.aluSR 0x21 c g rd ra 0 (fun a _ => a)

/-- CMP_EQ (R56). -/
def execCmpEq (c : CoreNo) (g : Guard) (pd : BitVec 3) (ra : BitVec 5) (b : RegImm) (s : State) : Host.Outcome State Fault Refusal :=
  s.apply fun d => d.cmp 0x28 c g pd ra b (fun x y => x == y)

/-- CMP_NE (R56). -/
def execCmpNe (c : CoreNo) (g : Guard) (pd : BitVec 3) (ra : BitVec 5) (b : RegImm) (s : State) : Host.Outcome State Fault Refusal :=
  s.apply fun d => d.cmp 0x29 c g pd ra b (fun x y => x != y)

/-- CMP_LT (R56). -/
def execCmpLt (c : CoreNo) (g : Guard) (pd : BitVec 3) (ra : BitVec 5) (b : RegImm) (s : State) : Host.Outcome State Fault Refusal :=
  s.apply fun d => d.cmp 0x2A c g pd ra b BitVec.slt

/-- CMP_LTU (R56). -/
def execCmpLtu (c : CoreNo) (g : Guard) (pd : BitVec 3) (ra : BitVec 5) (b : RegImm) (s : State) : Host.Outcome State Fault Refusal :=
  s.apply fun d => d.cmp 0x2B c g pd ra b BitVec.ult

/-- CMP_LE (R56). -/
def execCmpLe (c : CoreNo) (g : Guard) (pd : BitVec 3) (ra : BitVec 5) (b : RegImm) (s : State) : Host.Outcome State Fault Refusal :=
  s.apply fun d => d.cmp 0x2C c g pd ra b BitVec.sle

/-- CMP_LEU (R56). -/
def execCmpLeu (c : CoreNo) (g : Guard) (pd : BitVec 3) (ra : BitVec 5) (b : RegImm) (s : State) : Host.Outcome State Fault Refusal :=
  s.apply fun d => d.cmp 0x2D c g pd ra b BitVec.ule

/-- PLOG (R56). -/
def execPlog (c : CoreNo) (g : Guard) (pd pa pb : BitVec 3) (lop : BitVec 2) (s : State) : Host.Outcome State Fault Refusal :=
  s.apply fun d => d.plog c g pd pa pb lop

/-- LD (R56). -/
def execLd (c : CoreNo) (g : Guard) (rd ra : BitVec 5) (spc : BitVec 2) (imm : BitVec 37) (ue : Bool) (s : State) : Host.Outcome State Fault Refusal :=
  s.apply fun d => d.ld c g rd ra spc imm ue

/-- ST (R56). -/
def execSt (c : CoreNo) (g : Guard) (rd ra : BitVec 5) (spc : BitVec 2) (imm : BitVec 37) (s : State) : Host.Outcome State Fault Refusal :=
  s.apply fun d => d.st c g rd ra spc imm

/-- B (R57). -/
def execB (c : CoreNo) (g : Guard) (off : BitVec 39) (s : State) : Host.Outcome State Fault Refusal :=
  s.apply fun d => d.b c g off

/-- BL (R57). -/
def execBl (c : CoreNo) (g : Guard) (rd : BitVec 5) (off : BitVec 39) (slotLong : Bool) (s : State) : Host.Outcome State Fault Refusal :=
  s.apply fun d => d.bl c g rd off slotLong

/-- BR (R57). -/
def execBr (c : CoreNo) (g : Guard) (ra : BitVec 5) (s : State) : Host.Outcome State Fault Refusal :=
  s.apply fun d => d.br c g ra

/-- BLR (R57). -/
def execBlr (c : CoreNo) (g : Guard) (rd ra : BitVec 5) (slotLong : Bool) (s : State) : Host.Outcome State Fault Refusal :=
  s.apply fun d => d.blr c g rd ra slotLong

/-- LOOP (R58). -/
def execLoop (c : CoreNo) (g : Guard) (lc : BitVec 2) (n : LoopCnt) (e : BitVec 25) (lastLong : Bool) (s : State) : Host.Outcome State Fault Refusal :=
  s.apply fun d => d.loop c g lc n e lastLong

/-- MFLC (R56). -/
def execMflc (c : CoreNo) (g : Guard) (rd : BitVec 5) (lc : BitVec 2) (s : State) : Host.Outcome State Fault Refusal :=
  s.apply fun d => d.mflc c g rd lc

/-- MTLC (R58). -/
def execMtlc (c : CoreNo) (g : Guard) (lc : BitVec 2) (ra : BitVec 5) (s : State) : Host.Outcome State Fault Refusal :=
  s.apply fun d => d.mtlc c g lc ra

/-- SETM (R63). -/
def execSetm (c : CoreNo) (a : SetmAt) (s : State) : Host.Outcome State Fault Refusal :=
  s.apply fun d => d.setm c a

/-- GETM (R63). -/
def execGetm (c : CoreNo) (g : Guard) (rd : BitVec 5) (e : BitVec 2) (fld : BitVec 6) (s : State) : Host.Outcome State Fault Refusal :=
  s.apply fun d => d.getm c g rd e fld

/-- RTX (R66). -/
def execRtx (c : CoreNo) (g : Guard) (res skp : BitVec 3) (sks : Bool) (s : State) : Host.Outcome State Fault Refusal :=
  s.apply fun d => d.rtx c g res skp sks

/-- MFX (R56). -/
def execMfx (c : CoreNo) (g : Guard) (rd : BitVec 5) (e : BitVec 2) (w : BitVec 3) (s : State) : Host.Outcome State Fault Refusal :=
  s.apply fun d => d.mfx c g rd e w

/-- HALT (R327). -/
def execHalt (c : CoreNo) (g : Guard) (s : State) : Host.Outcome State Fault Refusal :=
  s.apply fun d => d.halt c g

/-- TRAP (R65). -/
def execTrap (c : CoreNo) (g : Guard) (code : BitVec 16) (s : State) : Host.Outcome State Fault Refusal :=
  s.apply fun d => d.trap c g code

/-- STCFG (R56). -/
def execStcfg (c : CoreNo) (g : Guard) (n : BitVec 6) (ra : BitVec 5) (s : State) : Host.Outcome State Fault Refusal :=
  s.apply fun d => (d.stcfg c g n ra).watch

/-- STSTAT (R56). -/
def execStstat (c : CoreNo) (g : Guard) (rd : BitVec 5) (n : BitVec 6) (s : State) : Host.Outcome State Fault Refusal :=
  s.apply fun d => d.ststat c g rd n

/-- TRAP_ENTRY (R65). -/
def execTrapEntry (c : CoreNo) (s : State) : Host.Outcome State Fault Refusal :=
  s.apply fun d => d.trapEntry c

/-- SQ_RESUME (R67). -/
def execSqResume (c : CoreNo) (res skp : BitVec 4) (s : State) : Host.Outcome State Fault Refusal :=
  s.apply fun d => d.sqResume c res.toNat skp.toNat

/-- ENGINE_STOP (R73). -/
def execEngineStop (c : CoreNo) (e : Fin 4) (s : State) : Host.Outcome State Fault Refusal :=
  s.apply fun d => d.engineStop c e

end Sys2Proof.Machine
end

