-- ==== Sys2Proof/Machine/RowsSpdm.lean ====
section
/-!
DEFINITION. The meanings of the commands of attestation: each is its unit's operation on the device.
-/
namespace Sys2Proof.Machine

/-- GET_VERSION (R356). -/
def execGetVersion (fn : Fin 9) (s : State) : Host.Outcome State Fault Refusal :=
  s.apply fun d => d.getVersion fn

/-- GET_CAPABILITIES (R356). -/
def execGetCapabilities (fn : Fin 9) (ver : BitVec 8) (s : State) : Host.Outcome State Fault Refusal :=
  s.apply fun d => d.getCapabilities fn ver.toNat

/-- NEGOTIATE_ALGORITHMS (R356). -/
def execNegotiateAlgorithms (fn : Fin 9) (sig hash dhe aead : Bool) (s : State) : Host.Outcome State Fault Refusal :=
  s.apply fun d => d.negotiateAlgorithms fn sig hash dhe aead

/-- GET_DIGESTS (R356). -/
def execGetDigests (fn : Fin 9) (s : State) : Host.Outcome State Fault Refusal :=
  s.apply fun d => d.getDigests fn

/-- GET_CERTIFICATE (R356). -/
def execGetCertificate (fn : Fin 9) (slot : BitVec 4) (off len : BitVec 16) (s : State) : Host.Outcome State Fault Refusal :=
  s.apply fun d => d.getCertificate fn slot.toNat off.toNat len.toNat

/-- CHALLENGE (R356). -/
def execChallenge (fn : Fin 9) (slot : BitVec 4) (s : State) : Host.Outcome State Fault Refusal :=
  s.apply fun d => d.challenge fn slot.toNat

/-- GET_MEASUREMENTS (R356). -/
def execGetMeasurements (fn : Fin 9) (idx : BitVec 8) (s : State) : Host.Outcome State Fault Refusal :=
  s.apply fun d => d.getMeasurements fn idx.toNat

/-- KEY_EXCHANGE (R356). -/
def execKeyExchange (fn : Fin 9) (sid : BitVec 16) (s : State) : Host.Outcome State Fault Refusal :=
  s.apply fun d => d.keyExchange fn sid.toNat

/-- FINISH (R356). -/
def execFinish (fn : Fin 9) (sid : BitVec 32) (valid : Bool) (s : State) : Host.Outcome State Fault Refusal :=
  s.apply fun d => d.finish fn sid.toNat valid

/-- HEARTBEAT (R356). -/
def execHeartbeat (fn : Fin 9) (sid : BitVec 32) (s : State) : Host.Outcome State Fault Refusal :=
  s.apply fun d => d.heartbeat fn sid.toNat

/-- KEY_UPDATE (R356). -/
def execKeyUpdate (fn : Fin 9) (sid : BitVec 32) (op : BitVec 8) (s : State) : Host.Outcome State Fault Refusal :=
  s.apply fun d => d.keyUpdate fn sid.toNat op.toNat

/-- END_SESSION (R356). -/
def execEndSession (fn : Fin 9) (sid : BitVec 32) (s : State) : Host.Outcome State Fault Refusal :=
  s.apply fun d => d.endSession fn sid.toNat

/-- VENDOR_DEFINED_REQUEST (R356). -/
def execVendorDefinedRequest (fn : Fin 9) (sid : BitVec 32) (standard vendor : BitVec 16) (op : BitVec 8) (key : List Byte) (s : State) : Host.Outcome State Fault Refusal :=
  s.apply fun d => d.vendorDefined fn sid.toNat standard.toNat vendor.toNat op.toNat key

/-- DOE_DISCOVERY (R460). -/
def execDoeDiscovery (fn : Fin 9) (idx : BitVec 8) (s : State) : Host.Outcome State Fault Refusal :=
  s.apply fun d => d.doeDiscovery fn idx.toNat

end Sys2Proof.Machine
end

