-- ==== Sys2Proof/Machine/RowsSync.lean ====
section
/-!
DEFINITION. The meanings of the commands of flags, hall passes, roll calls and watchdogs: each is its unit's operation on the device.
-/
namespace Sys2Proof.Machine

/-- SIGNAL (R156). -/
def execSignal (c : CoreNo) (a : SyncAt) (s : State) : Host.Outcome State Fault Refusal :=
  s.apply fun d => (d.signal c a).watch

/-- WAIT (R156). -/
def execWait (c : CoreNo) (a : SyncAt) (s : State) : Host.Outcome State Fault Refusal :=
  s.apply fun d => d.wait c a

/-- RELEASE (R152). -/
def execRelease (c : CoreNo) (a : SyncAt) (s : State) : Host.Outcome State Fault Refusal :=
  s.apply fun d => d.release c a

/-- ACQUIRE (R153). -/
def execAcquire (c : CoreNo) (a : SyncAt) (s : State) : Host.Outcome State Fault Refusal :=
  s.apply fun d => d.acquire c a

/-- RELEASE_PERFORM (R152). -/
def execReleasePerform (c : CoreNo) (e : Fin 4) (s : State) : Host.Outcome State Fault Refusal :=
  s.apply fun d => (d.releasePerform c e).watch

/-- FLAG (R158). -/
def execFlag (p : Option Pkt) (s : State) : Host.Outcome State Fault Refusal :=
  s.apply fun d => (match p with | none => d.flagNoc.watch | some p => d.streamFlag p)

/-- HAND_UPDATE (R173). -/
def execHandUpdate (c : CoreNo) (n : BitVec 8) (v : Word) (s : State) : Host.Outcome State Fault Refusal :=
  s.apply fun d => (d.handUpdate c n.toNat v.toNat).watch

/-- HP_ACQ (R163). -/
def execHpAcq (c : CoreNo) (g : Guard) (rd : BitVec 5) (n : BitVec 6) (s : State) : Host.Outcome State Fault Refusal :=
  s.apply fun d => d.hpAcq c g rd n

/-- HALL_PASS_GRANT (R163). -/
def execHallPassGrant (p : PartNo) (n : Fin 64) (s : State) : Host.Outcome State Fault Refusal :=
  s.apply fun d => d.hallPassGrant p n

/-- HP_REL (R163). -/
def execHpRel (c : CoreNo) (g : Guard) (n : BitVec 6) (s : State) : Host.Outcome State Fault Refusal :=
  s.apply fun d => d.hpRel c g n

/-- HP_FREE (R174). -/
def execHpFree (c : CoreNo) (n : Fin 64) (s : State) : Host.Outcome State Fault Refusal :=
  s.apply fun d => d.hpFree c n

/-- HP_MARK_ORPHANED (R174). -/
def execHpMarkOrphaned (c : CoreNo) (n : Fin 64) (s : State) : Host.Outcome State Fault Refusal :=
  s.apply fun d => d.hpMark c n

/-- RC_ARR (R166). -/
def execRcArr (c : CoreNo) (g : Guard) (n : BitVec 5) (s : State) : Host.Outcome State Fault Refusal :=
  s.apply fun d => d.rcArr c g n

/-- RC_WAIT (R166). -/
def execRcWait (c : CoreNo) (g : Guard) (n : BitVec 5) (s : State) : Host.Outcome State Fault Refusal :=
  s.apply fun d => d.rcWait c g n

/-- RCARR (R167). -/
def execRcarr (p : Pkt) (s : State) : Host.Outcome State Fault Refusal :=
  s.apply fun d => d.rcArrPkt p

/-- ARRIVAL_FORWARD (R167). -/
def execArrivalForward (p : PartNo) (n : Fin 32) (s : State) : Host.Outcome State Fault Refusal :=
  s.apply fun d => d.arrivalForward p n

/-- RCREL (R168). -/
def execRcrel (p : Pkt) (s : State) : Host.Outcome State Fault Refusal :=
  s.apply fun d => d.rcRelPkt p

/-- RELEASE_NOW (R174). -/
def execReleaseNow (c : CoreNo) (n : Fin 32) (s : State) : Host.Outcome State Fault Refusal :=
  s.apply fun d => d.releaseNow c n

/-- COUNT_CLEAR (R174). -/
def execCountClear (c : CoreNo) (n : Fin 32) (s : State) : Host.Outcome State Fault Refusal :=
  s.apply fun d => d.countClear c n

/-- ADVANCE_GEN (R174). -/
def execAdvanceGen (c : CoreNo) (n : Fin 32) (s : State) : Host.Outcome State Fault Refusal :=
  s.apply fun d => d.advanceGen c n

/-- WATCHDOG (R170). -/
def execWatchdog (c : CoreNo) (e : Fin 4) (s : State) : Host.Outcome State Fault Refusal :=
  s.apply fun d => d.watchdog c e

/-- ROLL_CALL_WATCHDOG (R172). -/
def execRollCallWatchdog (c : CoreNo) (n : Fin 32) (s : State) : Host.Outcome State Fault Refusal :=
  s.apply fun d => d.rollCallWatchdog c n

end Sys2Proof.Machine
end

