-- ==== Sys2Proof/Machine/RowsVector.lean ====
section
/-!
DEFINITION. The meanings of the commands of the vector engine and the SFU: each is its unit's operation on the device.
-/
namespace Sys2Proof.Machine

/-- VADD (R130). -/
def execVadd (c : CoreNo) (s : State) : Host.Outcome State Fault Refusal :=
  s.apply fun d => d.vArith 0x01 c .add

/-- VSUB (R130). -/
def execVsub (c : CoreNo) (s : State) : Host.Outcome State Fault Refusal :=
  s.apply fun d => d.vArith 0x02 c .sub

/-- VMUL (R130). -/
def execVmul (c : CoreNo) (s : State) : Host.Outcome State Fault Refusal :=
  s.apply fun d => d.vArith 0x03 c .mul

/-- VFMA (R130). -/
def execVfma (c : CoreNo) (s : State) : Host.Outcome State Fault Refusal :=
  s.apply fun d => d.vArith 0x04 c .fma

/-- VMIN (R130). -/
def execVmin (c : CoreNo) (s : State) : Host.Outcome State Fault Refusal :=
  s.apply fun d => d.vArith 0x05 c .min

/-- VMAX (R130). -/
def execVmax (c : CoreNo) (s : State) : Host.Outcome State Fault Refusal :=
  s.apply fun d => d.vArith 0x06 c .max

/-- VAND (R129). -/
def execVand (c : CoreNo) (s : State) : Host.Outcome State Fault Refusal :=
  s.apply fun d => d.vArith 0x07 c .and

/-- VOR (R129). -/
def execVor (c : CoreNo) (s : State) : Host.Outcome State Fault Refusal :=
  s.apply fun d => d.vArith 0x08 c .or

/-- VXOR (R129). -/
def execVxor (c : CoreNo) (s : State) : Host.Outcome State Fault Refusal :=
  s.apply fun d => d.vArith 0x09 c .xor

/-- VSHL (R131). -/
def execVshl (c : CoreNo) (s : State) : Host.Outcome State Fault Refusal :=
  s.apply fun d => d.vArith 0x0A c .shl

/-- VSHR (R131). -/
def execVshr (c : CoreNo) (s : State) : Host.Outcome State Fault Refusal :=
  s.apply fun d => d.vArith 0x0B c .shr

/-- VCMP (R130). -/
def execVcmp (c : CoreNo) (s : State) : Host.Outcome State Fault Refusal :=
  s.apply fun d => d.vcmp c

/-- VSEL (R60). -/
def execVsel (c : CoreNo) (s : State) : Host.Outcome State Fault Refusal :=
  s.apply fun d => d.vsel c

/-- VBCAST (R60). -/
def execVbcast (c : CoreNo) (s : State) : Host.Outcome State Fault Refusal :=
  s.apply fun d => d.vbcast c

/-- VCVT (R133). -/
def execVcvt (c : CoreNo) (s : State) : Host.Outcome State Fault Refusal :=
  s.apply fun d => d.vcvt c

/-- VLD (R60). -/
def execVld (c : CoreNo) (ue : Bool) (s : State) : Host.Outcome State Fault Refusal :=
  s.apply fun d => d.vld c ue

/-- VST (R60). -/
def execVst (c : CoreNo) (s : State) : Host.Outcome State Fault Refusal :=
  s.apply fun d => d.vst c

/-- VGATHER (R137). -/
def execVgather (c : CoreNo) (ue : Bool) (s : State) : Host.Outcome State Fault Refusal :=
  s.apply fun d => d.vgather c ue

/-- VSCATTER (R137). -/
def execVscatter (c : CoreNo) (s : State) : Host.Outcome State Fault Refusal :=
  s.apply fun d => d.vscatter c

/-- VTRD (R134). -/
def execVtrd (c : CoreNo) (s : State) : Host.Outcome State Fault Refusal :=
  s.apply fun d => (d.vtrd c).watch

/-- VTWR (R135). -/
def execVtwr (c : CoreNo) (s : State) : Host.Outcome State Fault Refusal :=
  s.apply fun d => d.vtwr c

/-- VTCLOSE (R60). -/
def execVtclose (c : CoreNo) (s : State) : Host.Outcome State Fault Refusal :=
  s.apply fun d => d.vtclose c

/-- VTPUSH (R135). -/
def execVtpush (c : CoreNo) (s : State) : Host.Outcome State Fault Refusal :=
  s.apply fun d => (d.vtpush c).watch

/-- VREDSUM (R136). -/
def execVredsum (c : CoreNo) (s : State) : Host.Outcome State Fault Refusal :=
  s.apply fun d => d.vredsum c

/-- VREDMAX (R136). -/
def execVredmax (c : CoreNo) (s : State) : Host.Outcome State Fault Refusal :=
  s.apply fun d => d.vredmax c

/-- SFU (R140). -/
def execSfu (c : CoreNo) (s : State) : Host.Outcome State Fault Refusal :=
  s.apply fun d => d.sfu c

/-- SFU_T (R140). -/
def execSfuT (c : CoreNo) (s : State) : Host.Outcome State Fault Refusal :=
  s.apply fun d => (d.sfuT c).watch

/-- SMX_INIT (R145). -/
def execSmxInit (c : CoreNo) (s : State) : Host.Outcome State Fault Refusal :=
  s.apply fun d => d.smxInit c

/-- SMX_MAX (R145). -/
def execSmxMax (c : CoreNo) (s : State) : Host.Outcome State Fault Refusal :=
  s.apply fun d => (d.smxMax c).watch

/-- SMX_EXP (R145). -/
def execSmxExp (c : CoreNo) (s : State) : Host.Outcome State Fault Refusal :=
  s.apply fun d => (d.smxExp c).watch

/-- SMX_RESCALE (R145). -/
def execSmxRescale (c : CoreNo) (s : State) : Host.Outcome State Fault Refusal :=
  s.apply fun d => (d.smxRescale c).watch

/-- SMX_NORM (R145). -/
def execSmxNorm (c : CoreNo) (s : State) : Host.Outcome State Fault Refusal :=
  s.apply fun d => (d.smxNorm c).watch

/-- NRM_INIT (R146). -/
def execNrmInit (c : CoreNo) (s : State) : Host.Outcome State Fault Refusal :=
  s.apply fun d => d.nrmInit c

/-- NRM_ACC (R146). -/
def execNrmAcc (c : CoreNo) (s : State) : Host.Outcome State Fault Refusal :=
  s.apply fun d => (d.nrmAcc c).watch

/-- NRM_ACCS (R146). -/
def execNrmAccs (c : CoreNo) (s : State) : Host.Outcome State Fault Refusal :=
  s.apply fun d => (d.nrmAccs c).watch

/-- NRM_FIN (R146). -/
def execNrmFin (c : CoreNo) (s : State) : Host.Outcome State Fault Refusal :=
  s.apply fun d => d.nrmFin c

/-- NRM_APPLY (R146). -/
def execNrmApply (c : CoreNo) (s : State) : Host.Outcome State Fault Refusal :=
  s.apply fun d => (d.nrmApply c).watch

end Sys2Proof.Machine
end

