-- ==== Sys2Proof/Machine/Dispatch.lean ====
section
/-!
DEFINITION. The meaning of each command: one arm per constructor, each a direct call.
-/
namespace Sys2Proof.Machine

def exec (i : Instr) (s : State) : Host.Outcome State Fault Refusal :=
  match i with
  | .registerWrite r user off v => Sys2Proof.Machine.execRegisterWrite r user off v s
  | .lowWordRead r off => Sys2Proof.Machine.execLowWordRead r off s
  | .highWordRead r off => Sys2Proof.Machine.execHighWordRead r off s
  | .lowWordWrite r user off w => Sys2Proof.Machine.execLowWordWrite r user off w s
  | .highWordWrite r user off w => Sys2Proof.Machine.execHighWordWrite r user off w s
  | .wideAccess r user off a => Sys2Proof.Machine.execWideAccess r user off a s
  | .invalidWidthAccess r write off width => Sys2Proof.Machine.execInvalidWidthAccess r write off width s
  | .unmappedAccess r write off => Sys2Proof.Machine.execUnmappedAccess r write off s
  | .profileChange req => Sys2Proof.Machine.execProfileChange req s
  | .profileClockChange => Sys2Proof.Machine.execProfileClockChange s
  | .stationEnable c n v => Sys2Proof.Machine.execStationEnable c n v s
  | .stationDisable c n v => Sys2Proof.Machine.execStationDisable c n v s
  | .push c n fmt bytes marked => Sys2Proof.Machine.execPush c n fmt bytes marked s
  | .pop c n => Sys2Proof.Machine.execPop c n s
  | .dispatch c w ext => Sys2Proof.Machine.execDispatch c w ext s
  | .nop c g e => Sys2Proof.Machine.execNop c g e s
  | .add c g rd ra rb => Sys2Proof.Machine.execAdd c g rd ra rb s
  | .sub c g rd ra rb => Sys2Proof.Machine.execSub c g rd ra rb s
  | .and c g rd ra rb => Sys2Proof.Machine.execAnd c g rd ra rb s
  | .or c g rd ra rb => Sys2Proof.Machine.execOr c g rd ra rb s
  | .xor c g rd ra rb => Sys2Proof.Machine.execXor c g rd ra rb s
  | .shl c g rd ra rb => Sys2Proof.Machine.execShl c g rd ra rb s
  | .shr c g rd ra rb => Sys2Proof.Machine.execShr c g rd ra rb s
  | .sra c g rd ra rb => Sys2Proof.Machine.execSra c g rd ra rb s
  | .mul c g rd ra rb => Sys2Proof.Machine.execMul c g rd ra rb s
  | .min c g rd ra rb => Sys2Proof.Machine.execMin c g rd ra rb s
  | .max c g rd ra rb => Sys2Proof.Machine.execMax c g rd ra rb s
  | .addi c g rd ra imm => Sys2Proof.Machine.execAddi c g rd ra imm s
  | .andi c g rd ra imm => Sys2Proof.Machine.execAndi c g rd ra imm s
  | .ori c g rd ra imm => Sys2Proof.Machine.execOri c g rd ra imm s
  | .xori c g rd ra imm => Sys2Proof.Machine.execXori c g rd ra imm s
  | .shli c g rd ra imm => Sys2Proof.Machine.execShli c g rd ra imm s
  | .shri c g rd ra imm => Sys2Proof.Machine.execShri c g rd ra imm s
  | .srai c g rd ra imm => Sys2Proof.Machine.execSrai c g rd ra imm s
  | .muli c g rd ra imm => Sys2Proof.Machine.execMuli c g rd ra imm s
  | .mini c g rd ra imm => Sys2Proof.Machine.execMini c g rd ra imm s
  | .maxi c g rd ra imm => Sys2Proof.Machine.execMaxi c g rd ra imm s
  | .li c g rd v => Sys2Proof.Machine.execLi c g rd v s
  | .mov c g rd ra => Sys2Proof.Machine.execMov c g rd ra s
  | .cmpEq c g pd ra b => Sys2Proof.Machine.execCmpEq c g pd ra b s
  | .cmpNe c g pd ra b => Sys2Proof.Machine.execCmpNe c g pd ra b s
  | .cmpLt c g pd ra b => Sys2Proof.Machine.execCmpLt c g pd ra b s
  | .cmpLtu c g pd ra b => Sys2Proof.Machine.execCmpLtu c g pd ra b s
  | .cmpLe c g pd ra b => Sys2Proof.Machine.execCmpLe c g pd ra b s
  | .cmpLeu c g pd ra b => Sys2Proof.Machine.execCmpLeu c g pd ra b s
  | .plog c g pd pa pb lop => Sys2Proof.Machine.execPlog c g pd pa pb lop s
  | .ld c g rd ra spc imm ue => Sys2Proof.Machine.execLd c g rd ra spc imm ue s
  | .st c g rd ra spc imm => Sys2Proof.Machine.execSt c g rd ra spc imm s
  | .b c g off => Sys2Proof.Machine.execB c g off s
  | .bl c g rd off slotLong => Sys2Proof.Machine.execBl c g rd off slotLong s
  | .br c g ra => Sys2Proof.Machine.execBr c g ra s
  | .blr c g rd ra slotLong => Sys2Proof.Machine.execBlr c g rd ra slotLong s
  | .loop c g lc n e lastLong => Sys2Proof.Machine.execLoop c g lc n e lastLong s
  | .mflc c g rd lc => Sys2Proof.Machine.execMflc c g rd lc s
  | .mtlc c g lc ra => Sys2Proof.Machine.execMtlc c g lc ra s
  | .setm c a => Sys2Proof.Machine.execSetm c a s
  | .getm c g rd e fld => Sys2Proof.Machine.execGetm c g rd e fld s
  | .rtx c g res skp sks => Sys2Proof.Machine.execRtx c g res skp sks s
  | .mfx c g rd e w => Sys2Proof.Machine.execMfx c g rd e w s
  | .halt c g => Sys2Proof.Machine.execHalt c g s
  | .trap c g code => Sys2Proof.Machine.execTrap c g code s
  | .stcfg c g n ra => Sys2Proof.Machine.execStcfg c g n ra s
  | .ststat c g rd n => Sys2Proof.Machine.execStstat c g rd n s
  | .trapEntry c => Sys2Proof.Machine.execTrapEntry c s
  | .sqResume c res skp => Sys2Proof.Machine.execSqResume c res skp s
  | .engineStop c e => Sys2Proof.Machine.execEngineStop c e s
  | .mma c => Sys2Proof.Machine.execMma c s
  | .mmaSegmentEnd c o => Sys2Proof.Machine.execMmaSegmentEnd c o s
  | .collapse c o => Sys2Proof.Machine.execCollapse c o s
  | .drain c o => Sys2Proof.Machine.execDrain c o s
  | .mdrain c o => Sys2Proof.Machine.execMdrain c o s
  | .mpre c => Sys2Proof.Machine.execMpre c s
  | .mtrans c => Sys2Proof.Machine.execMtrans c s
  | .accumulatorRead r c n => Sys2Proof.Machine.execAccumulatorRead r c n s
  | .vadd c => Sys2Proof.Machine.execVadd c s
  | .vsub c => Sys2Proof.Machine.execVsub c s
  | .vmul c => Sys2Proof.Machine.execVmul c s
  | .vfma c => Sys2Proof.Machine.execVfma c s
  | .vmin c => Sys2Proof.Machine.execVmin c s
  | .vmax c => Sys2Proof.Machine.execVmax c s
  | .vand c => Sys2Proof.Machine.execVand c s
  | .vor c => Sys2Proof.Machine.execVor c s
  | .vxor c => Sys2Proof.Machine.execVxor c s
  | .vshl c => Sys2Proof.Machine.execVshl c s
  | .vshr c => Sys2Proof.Machine.execVshr c s
  | .vcmp c => Sys2Proof.Machine.execVcmp c s
  | .vsel c => Sys2Proof.Machine.execVsel c s
  | .vbcast c => Sys2Proof.Machine.execVbcast c s
  | .vcvt c => Sys2Proof.Machine.execVcvt c s
  | .vld c ue => Sys2Proof.Machine.execVld c ue s
  | .vst c => Sys2Proof.Machine.execVst c s
  | .vgather c ue => Sys2Proof.Machine.execVgather c ue s
  | .vscatter c => Sys2Proof.Machine.execVscatter c s
  | .vtrd c => Sys2Proof.Machine.execVtrd c s
  | .vtwr c => Sys2Proof.Machine.execVtwr c s
  | .vtclose c => Sys2Proof.Machine.execVtclose c s
  | .vtpush c => Sys2Proof.Machine.execVtpush c s
  | .vredsum c => Sys2Proof.Machine.execVredsum c s
  | .vredmax c => Sys2Proof.Machine.execVredmax c s
  | .sfu c => Sys2Proof.Machine.execSfu c s
  | .sfuT c => Sys2Proof.Machine.execSfuT c s
  | .smxInit c => Sys2Proof.Machine.execSmxInit c s
  | .smxMax c => Sys2Proof.Machine.execSmxMax c s
  | .smxExp c => Sys2Proof.Machine.execSmxExp c s
  | .smxRescale c => Sys2Proof.Machine.execSmxRescale c s
  | .smxNorm c => Sys2Proof.Machine.execSmxNorm c s
  | .nrmInit c => Sys2Proof.Machine.execNrmInit c s
  | .nrmAcc c => Sys2Proof.Machine.execNrmAcc c s
  | .nrmAccs c => Sys2Proof.Machine.execNrmAccs c s
  | .nrmFin c => Sys2Proof.Machine.execNrmFin c s
  | .nrmApply c => Sys2Proof.Machine.execNrmApply c s
  | .dexec c => Sys2Proof.Machine.execDexec c s
  | .dexecn c => Sys2Proof.Machine.execDexecn c s
  | .dld c => Sys2Proof.Machine.execDld c s
  | .dst c => Sys2Proof.Machine.execDst c s
  | .copy c => Sys2Proof.Machine.execCopy c s
  | .fill c => Sys2Proof.Machine.execFill c s
  | .spillSave c => Sys2Proof.Machine.execSpillSave c s
  | .spillRestore c => Sys2Proof.Machine.execSpillRestore c s
  | .dmaUnitIssue c ue => Sys2Proof.Machine.execDmaUnitIssue c ue s
  | .dmaUnitComplete c idx fail ue => Sys2Proof.Machine.execDmaUnitComplete c idx fail ue s
  | .descriptorComplete c => Sys2Proof.Machine.execDescriptorComplete c s
  | .signal c a => Sys2Proof.Machine.execSignal c a s
  | .wait c a => Sys2Proof.Machine.execWait c a s
  | .release c a => Sys2Proof.Machine.execRelease c a s
  | .acquire c a => Sys2Proof.Machine.execAcquire c a s
  | .releasePerform c e => Sys2Proof.Machine.execReleasePerform c e s
  | .flag p => Sys2Proof.Machine.execFlag p s
  | .handUpdate c n v => Sys2Proof.Machine.execHandUpdate c n v s
  | .hpAcq c g rd n => Sys2Proof.Machine.execHpAcq c g rd n s
  | .hallPassGrant p n => Sys2Proof.Machine.execHallPassGrant p n s
  | .hpRel c g n => Sys2Proof.Machine.execHpRel c g n s
  | .hpFree c n => Sys2Proof.Machine.execHpFree c n s
  | .hpMarkOrphaned c n => Sys2Proof.Machine.execHpMarkOrphaned c n s
  | .rcArr c g n => Sys2Proof.Machine.execRcArr c g n s
  | .rcWait c g n => Sys2Proof.Machine.execRcWait c g n s
  | .rcarr p => Sys2Proof.Machine.execRcarr p s
  | .arrivalForward p n => Sys2Proof.Machine.execArrivalForward p n s
  | .rcrel p => Sys2Proof.Machine.execRcrel p s
  | .releaseNow c n => Sys2Proof.Machine.execReleaseNow c n s
  | .countClear c n => Sys2Proof.Machine.execCountClear c n s
  | .advanceGen c n => Sys2Proof.Machine.execAdvanceGen c n s
  | .watchdog c e => Sys2Proof.Machine.execWatchdog c e s
  | .rollCallWatchdog c n => Sys2Proof.Machine.execRollCallWatchdog c n s
  | .hbmRead p req pa cls => Sys2Proof.Machine.execHbmRead p req pa cls s
  | .hbmWrite p req pa bytes => Sys2Proof.Machine.execHbmWrite p req pa bytes s
  | .mergeEntryRetire sector ue => Sys2Proof.Machine.execMergeEntryRetire sector ue s
  | .refresh k delayed => Sys2Proof.Machine.execRefresh k delayed s
  | .hotSpotWindow k => Sys2Proof.Machine.execHotSpotWindow k s
  | .temperatureReport k t => Sys2Proof.Machine.execTemperatureReport k t s
  | .throttleStep k => Sys2Proof.Machine.execThrottleStep k s
  | .scrubStart k wb loc rate => Sys2Proof.Machine.execScrubStart k wb loc rate s
  | .scrubAbort k => Sys2Proof.Machine.execScrubAbort k s
  | .scrubSector k cls => Sys2Proof.Machine.execScrubSector k cls s
  | .scrubPassEnd k => Sys2Proof.Machine.execScrubPassEnd k s
  | .generatorStart k n mode pat scope rate => Sys2Proof.Machine.execGeneratorStart k n mode pat scope rate s
  | .generatorStop k n => Sys2Proof.Machine.execGeneratorStop k n s
  | .generatorRunEnd k n fails l pch => Sys2Proof.Machine.execGeneratorRunEnd k n fails l pch s
  | .rehash p seed => Sys2Proof.Machine.execRehash p seed s
  | .rehashRow ue => Sys2Proof.Machine.execRehashRow ue s
  | .nearMemoryAtomic p req pa o wide v cmp ue => Sys2Proof.Machine.execNearMemoryAtomic p req pa o wide v cmp ue s
  | .interfaceFault k => Sys2Proof.Machine.execInterfaceFault k s
  | .stackRetrainingEnd k ok lanes => Sys2Proof.Machine.execStackRetrainingEnd k ok lanes s
  | .linkEnable l => Sys2Proof.Machine.execLinkEnable l s
  | .linkDisable l => Sys2Proof.Machine.execLinkDisable l s
  | .retrain l => Sys2Proof.Machine.execRetrain l s
  | .linkReset l => Sys2Proof.Machine.execLinkReset l s
  | .readmit l => Sys2Proof.Machine.execReadmit l s
  | .autoReadmit l => Sys2Proof.Machine.execAutoReadmit l s
  | .trainingDone l tx rx => Sys2Proof.Machine.execTrainingDone l tx rx s
  | .trainTimeout l => Sys2Proof.Machine.execTrainTimeout l s
  | .trainRetry l => Sys2Proof.Machine.execTrainRetry l s
  | .ident l h nb => Sys2Proof.Machine.execIdent l h nb s
  | .lnkExpect l dev link valid => Sys2Proof.Machine.execLnkExpect l dev link valid s
  | .dataFlit l h seq v bytes => Sys2Proof.Machine.execDataFlit l h seq v bytes s
  | .dataFlitTransmit l v => Sys2Proof.Machine.execDataFlitTransmit l v s
  | .idle l h => Sys2Proof.Machine.execIdle l h s
  | .nak l h e => Sys2Proof.Machine.execNak l h e s
  | .nakResend l => Sys2Proof.Machine.execNakResend l s
  | .credsync l h counts => Sys2Proof.Machine.execCredsync l h counts s
  | .credsyncSend l => Sys2Proof.Machine.execCredsyncSend l s
  | .laneFail l k => Sys2Proof.Machine.execLaneFail l k s
  | .degrade l h m => Sys2Proof.Machine.execDegrade l h m s
  | .degack l h m => Sys2Proof.Machine.execDegack l h m s
  | .lanemark l h => Sys2Proof.Machine.execLanemark l h s
  | .laneReadmission l k => Sys2Proof.Machine.execLaneReadmission l k s
  | .lightLoss l => Sys2Proof.Machine.execLightLoss l s
  | .lightReturn l nb => Sys2Proof.Machine.execLightReturn l nb s
  | .pauseTimeout l => Sys2Proof.Machine.execPauseTimeout l s
  | .retrainDone l nb e => Sys2Proof.Machine.execRetrainDone l nb e s
  | .retrainTimeout l => Sys2Proof.Machine.execRetrainTimeout l s
  | .time l dt h b sub => Sys2Proof.Machine.execTime l dt h b sub s
  | .timeFlitSend l sub => Sys2Proof.Machine.execTimeFlitSend l sub s
  | .feedSwitch e g lit => Sys2Proof.Machine.execFeedSwitch e g lit s
  | .packetForward f => Sys2Proof.Machine.execPacketForward f s
  | .packetDeadline l v => Sys2Proof.Machine.execPacketDeadline l v s
  | .write p => Sys2Proof.Machine.execWrite p s
  | .read p ue => Sys2Proof.Machine.execRead p ue s
  | .rdata p code => Sys2Proof.Machine.execRdata p code s
  | .engine p => Sys2Proof.Machine.execEngine p s
  | .ack p => Sys2Proof.Machine.execAck p s
  | .sync p => Sys2Proof.Machine.execSync p s
  | .poison p => Sys2Proof.Machine.execPoison p s
  | .flaggedPacketApply k ue => Sys2Proof.Machine.execFlaggedPacketApply k ue s
  | .ackSend k => Sys2Proof.Machine.execAckSend k s
  | .retransmit k => Sys2Proof.Machine.execRetransmit k s
  | .streamFail k => Sys2Proof.Machine.execStreamFail k s
  | .openStream k => Sys2Proof.Machine.execOpenStream k s
  | .closeStream k => Sys2Proof.Machine.execCloseStream k s
  | .closeDone k => Sys2Proof.Machine.execCloseDone k s
  | .resync k => Sys2Proof.Machine.execResync k s
  | .syncSend k => Sys2Proof.Machine.execSyncSend k s
  | .telemetryRecord => Sys2Proof.Machine.execTelemetryRecord s
  | .arm links drain => Sys2Proof.Machine.execArm links drain s
  | .cancel links drain => Sys2Proof.Machine.execCancel links drain s
  | .reshapeDrain => Sys2Proof.Machine.execReshapeDrain s
  | .bankSwap => Sys2Proof.Machine.execBankSwap s
  | .slotGo slot => Sys2Proof.Machine.execSlotGo slot s
  | .ready k b => Sys2Proof.Machine.execReady k b s
  | .chunk k b => Sys2Proof.Machine.execChunk k b s
  | .withheld k b => Sys2Proof.Machine.execWithheld k b s
  | .broken k b => Sys2Proof.Machine.execBroken k b s
  | .stale k b => Sys2Proof.Machine.execStale k b s
  | .hoptmo slot r => Sys2Proof.Machine.execHoptmo slot r s
  | .cwd slot => Sys2Proof.Machine.execCwd slot s
  | .slotAbort slot => Sys2Proof.Machine.execSlotAbort slot s
  | .jobGo j => Sys2Proof.Machine.execJobGo j s
  | .req k b => Sys2Proof.Machine.execReq k b s
  | .grant k b => Sys2Proof.Machine.execGrant k b s
  | .row k b => Sys2Proof.Machine.execRow k b s
  | .batchDeadline q n => Sys2Proof.Machine.execBatchDeadline q n s
  | .batchReturn q => Sys2Proof.Machine.execBatchReturn q s
  | .result k b => Sys2Proof.Machine.execResult k b s
  | .ferryRelease k b => Sys2Proof.Machine.execFerryRelease k b s
  | .jobWatchdog j => Sys2Proof.Machine.execJobWatchdog j s
  | .jobAbort j => Sys2Proof.Machine.execJobAbort j s
  | .markerEdge dt sym => Sys2Proof.Machine.execMarkerEdge dt sym s
  | .frame dt => Sys2Proof.Machine.execFrame dt s
  | .referenceLost missed => Sys2Proof.Machine.execReferenceLost missed s
  | .sourceLinkUnusable => Sys2Proof.Machine.execSourceLinkUnusable s
  | .holdoverExpiry => Sys2Proof.Machine.execHoldoverExpiry s
  | .force => Sys2Proof.Machine.execForce s
  | .timetableFire p n => Sys2Proof.Machine.execTimetableFire p n s
  | .ttPace p l => Sys2Proof.Machine.execTtPace p l s
  | .disall p => Sys2Proof.Machine.execDisall p s
  | .setlse p v => Sys2Proof.Machine.execSetlse p v s
  | .setovf p => Sys2Proof.Machine.execSetovf p s
  | .eval p => Sys2Proof.Machine.execEval p s
  | .lsEnable p n lo hi init => Sys2Proof.Machine.execLsEnable p n lo hi init s
  | .clrcnt c m => Sys2Proof.Machine.execClrcnt c m s
  | .clrh c m => Sys2Proof.Machine.execClrh c m s
  | .doorbell p r v => Sys2Proof.Machine.execDoorbell p r v s
  | .acceptance => Sys2Proof.Machine.execAcceptance s
  | .commandNop p slot => Sys2Proof.Machine.execCommandNop p slot s
  | .run p slot => Sys2Proof.Machine.execRun p slot s
  | .armcf p slot => Sys2Proof.Machine.execArmcf p slot s
  | .armfy p slot => Sys2Proof.Machine.execArmfy p slot s
  | .waitCommand p slot => Sys2Proof.Machine.execWaitCommand p slot s
  | .commandStart p slot => Sys2Proof.Machine.execCommandStart p slot s
  | .partEnd p slot => Sys2Proof.Machine.execPartEnd p slot s
  | .flipDone p slot => Sys2Proof.Machine.execFlipDone p slot s
  | .reportDone p r => Sys2Proof.Machine.execReportDone p r s
  | .replay p slot => Sys2Proof.Machine.execReplay p slot s
  | .copyOnWrite p slot v => Sys2Proof.Machine.execCopyOnWrite p slot v s
  | .copyOnWriteDone p slot v => Sys2Proof.Machine.execCopyOnWriteDone p slot v s
  | .remirror => Sys2Proof.Machine.execRemirror s
  | .abandon p r => Sys2Proof.Machine.execAbandon p r s
  | .ringEnable p r => Sys2Proof.Machine.execRingEnable p r s
  | .create p => Sys2Proof.Machine.execCreate p s
  | .fence p => Sys2Proof.Machine.execFence p s
  | .quiesce p => Sys2Proof.Machine.execQuiesce p s
  | .fencePoint p => Sys2Proof.Machine.execFencePoint p s
  | .partitionResume p => Sys2Proof.Machine.execPartitionResume p s
  | .partitionRelease p => Sys2Proof.Machine.execPartitionRelease p s
  | .releaseDone p => Sys2Proof.Machine.execReleaseDone p s
  | .extentAssign p first n => Sys2Proof.Machine.execExtentAssign p first n s
  | .extentZeroed p => Sys2Proof.Machine.execExtentZeroed p s
  | .extentRemove p first n => Sys2Proof.Machine.execExtentRemove p first n s
  | .reserveAdd p first n => Sys2Proof.Machine.execReserveAdd p first n s
  | .reserveTake p first n => Sys2Proof.Machine.execReserveTake p first n s
  | .genh p => Sys2Proof.Machine.execGenh p s
  | .loadh p => Sys2Proof.Machine.execLoadh p s
  | .loadl p => Sys2Proof.Machine.execLoadl p s
  | .clrhKey p => Sys2Proof.Machine.execClrhKey p s
  | .clrl p => Sys2Proof.Machine.execClrl p s
  | .s1Invalidate p all page => Sys2Proof.Machine.execS1Invalidate p all page s
  | .invalidationDone p => Sys2Proof.Machine.execInvalidationDone p s
  | .weirWindow p r unmet cause => Sys2Proof.Machine.execWeirWindow p r unmet cause s
  | .getVersion fn => Sys2Proof.Machine.execGetVersion fn s
  | .getCapabilities fn ver => Sys2Proof.Machine.execGetCapabilities fn ver s
  | .negotiateAlgorithms fn sig hash dhe aead => Sys2Proof.Machine.execNegotiateAlgorithms fn sig hash dhe aead s
  | .getDigests fn => Sys2Proof.Machine.execGetDigests fn s
  | .getCertificate fn slot off len => Sys2Proof.Machine.execGetCertificate fn slot off len s
  | .challenge fn slot => Sys2Proof.Machine.execChallenge fn slot s
  | .getMeasurements fn idx => Sys2Proof.Machine.execGetMeasurements fn idx s
  | .keyExchange fn sid => Sys2Proof.Machine.execKeyExchange fn sid s
  | .finish fn sid valid => Sys2Proof.Machine.execFinish fn sid valid s
  | .heartbeat fn sid => Sys2Proof.Machine.execHeartbeat fn sid s
  | .keyUpdate fn sid op => Sys2Proof.Machine.execKeyUpdate fn sid op s
  | .endSession fn sid => Sys2Proof.Machine.execEndSession fn sid s
  | .vendorDefinedRequest fn sid standard vendor op key => Sys2Proof.Machine.execVendorDefinedRequest fn sid standard vendor op key s
  | .doeDiscovery fn idx => Sys2Proof.Machine.execDoeDiscovery fn idx s
  | .enter p => Sys2Proof.Machine.execEnter p s
  | .quietEntryComplete scope => Sys2Proof.Machine.execQuietEntryComplete scope s
  | .deventer => Sys2Proof.Machine.execDeventer s
  | .exit p => Sys2Proof.Machine.execExit p s
  | .errorRecord b sev cls part qscope unit info addr extra => Sys2Proof.Machine.execErrorRecord b sev cls part qscope unit info addr extra s
  | .errorAck b => Sys2Proof.Machine.execErrorAck b s
  | .clrovf b => Sys2Proof.Machine.execClrovf b s
  | .escalation b => Sys2Proof.Machine.execEscalation b s
  | .retire c => Sys2Proof.Machine.execRetire c s
  | .coreRetirement c => Sys2Proof.Machine.execCoreRetirement c s
  | .clrlist => Sys2Proof.Machine.execClrlist s
  | .retpair k => Sys2Proof.Machine.execRetpair k s
  | .laggardWindow k m => Sys2Proof.Machine.execLaggardWindow k m s
  | .coalesceTimeout page v => Sys2Proof.Machine.execCoalesceTimeout page v s
  | .claim page v => Sys2Proof.Machine.execClaim page v s
  | .complete page n => Sys2Proof.Machine.execComplete page n s
  | .managementClaim m => Sys2Proof.Machine.execManagementClaim m s
  | .managementComplete m n => Sys2Proof.Machine.execManagementComplete m n s
  | .offerTimeout n => Sys2Proof.Machine.execOfferTimeout n s
  | .sourceEnable n en level cls prio => Sys2Proof.Machine.execSourceEnable n en level cls prio s
  | .rawClear n => Sys2Proof.Machine.execRawClear n s
  | .vectorUnmask page v mask en => Sys2Proof.Machine.execVectorUnmask page v mask en s
  | .presence c => Sys2Proof.Machine.execPresence c s
  | .presenceLost c => Sys2Proof.Machine.execPresenceLost c s
  | .hotJoin p => Sys2Proof.Machine.execHotJoin p s
  | .entdaa p won => Sys2Proof.Machine.execEntdaa p won s
  | .identityRead c id aEh aSeq bEh bSeq => Sys2Proof.Machine.execIdentityRead c id aEh aSeq bEh bSeq s
  | .legacyDetect c => Sys2Proof.Machine.execLegacyDetect c s
  | .laserOn c => Sys2Proof.Machine.execLaserOn c s
  | .laserOff c => Sys2Proof.Machine.execLaserOff c s
  | .prep c force => Sys2Proof.Machine.execPrep c force s
  | .alloff => Sys2Proof.Machine.execAlloff s
  | .warmingTimeout c => Sys2Proof.Machine.execWarmingTimeout c s
  | .poll c status temp bias pout nack => Sys2Proof.Machine.execPoll c status temp bias pout nack s
  | .inBandInterrupt c status temp bias pout nack => Sys2Proof.Machine.execInBandInterrupt c status temp bias pout nack s
  | .wearWriteback => Sys2Proof.Machine.execWearWriteback s
  | .feedMove e g to_ => Sys2Proof.Machine.execFeedMove e g to_ s
  | .recover p sdaLow => Sys2Proof.Machine.execRecover p sdaLow s
  | .portReset p sdaLow => Sys2Proof.Machine.execPortReset p sdaLow s
  | .recoveryAttempt p ok => Sys2Proof.Machine.execRecoveryAttempt p ok s
  | .mailboxIdent mb => Sys2Proof.Machine.execMailboxIdent mb s
  | .errread mb b => Sys2Proof.Machine.execErrread mb b s
  | .jstat mb p => Sys2Proof.Machine.execJstat mb p s
  | .mailboxFence mb target => Sys2Proof.Machine.execMailboxFence mb target s
  | .snap mb g off => Sys2Proof.Machine.execSnap mb g off s
  | .thmread mb => Sys2Proof.Machine.execThmread mb s
  | .thmset mb v => Sys2Proof.Machine.execThmset mb v s
  | .laseroff mb => Sys2Proof.Machine.execLaseroff mb s
  | .mailboxReset mb v => Sys2Proof.Machine.execMailboxReset mb v s
  | .logread mb idx => Sys2Proof.Machine.execLogread mb idx s
  | .sfuimg mb offset piece => Sys2Proof.Machine.execSfuimg mb offset piece s
  | .microprogramInstall => Sys2Proof.Machine.execMicroprogramInstall s
  | .lockstepMismatch m => Sys2Proof.Machine.execLockstepMismatch m s
  | .pairReturn m => Sys2Proof.Machine.execPairReturn m s
  | .lowv mv => Sys2Proof.Machine.execLowv mv s
  | .inputBelow40v mv => Sys2Proof.Machine.execInputBelow40v mv s
  | .inputRestored mv => Sys2Proof.Machine.execInputRestored mv s
  | .capWindow avg uj => Sys2Proof.Machine.execCapWindow avg uj s
  | .domainOn n => Sys2Proof.Machine.execDomainOn n s
  | .domainOff n => Sys2Proof.Machine.execDomainOff n s
  | .coldReset => Sys2Proof.Machine.execColdReset s
  | .warmReset => Sys2Proof.Machine.execWarmReset s
  | .partitionReset p => Sys2Proof.Machine.execPartitionReset p s
  | .coreReset c => Sys2Proof.Machine.execCoreReset c s
  | .modResetN low => Sys2Proof.Machine.execModResetN low s
  | .perstN asserted => Sys2Proof.Machine.execPerstN asserted s
  | .functionLevelReset fn => Sys2Proof.Machine.execFunctionLevelReset fn s
  | .warmBringUp failed => Sys2Proof.Machine.execWarmBringUp failed s
  | .coldBringUp failed => Sys2Proof.Machine.execColdBringUp failed s
  | .vstbyValid straps => Sys2Proof.Machine.execVstbyValid straps s
  | .sensorSample sensor t => Sys2Proof.Machine.execSensorSample sensor t s
  | .thermalLevelStep die => Sys2Proof.Machine.execThermalLevelStep die s
  | .firmwareUpdate x whole => Sys2Proof.Machine.execFirmwareUpdate x whole s
  | .activateFirmware selfContained => Sys2Proof.Machine.execActivateFirmware selfContained s
  | .pldmPlatformMonitoring sensor => Sys2Proof.Machine.execPldmPlatformMonitoring sensor s
  | .clr => Sys2Proof.Machine.execClr s
  | .cntSnap g => Sys2Proof.Machine.execCntSnap g s
  | .capture g => Sys2Proof.Machine.execCapture g s
  | .mark p v => Sys2Proof.Machine.execMark p v s
  | .dumpArm p step => Sys2Proof.Machine.execDumpArm p step s
  | .stepGo p => Sys2Proof.Machine.execStepGo p s
  | .stop c => Sys2Proof.Machine.execStop c s
  | .resume c => Sys2Proof.Machine.execResume c s
  | .accessPortRead r => Sys2Proof.Machine.execAccessPortRead r s
  | .accessPortWrite r v => Sys2Proof.Machine.execAccessPortWrite r v s
  | .idcode => Sys2Proof.Machine.execIdcode s
  | .samplePreload v => Sys2Proof.Machine.execSamplePreload v s
  | .extest v => Sys2Proof.Machine.execExtest v s
  | .clamp => Sys2Proof.Machine.execClamp s
  | .highz => Sys2Proof.Machine.execHighz s
  | .chal => Sys2Proof.Machine.execChal s
  | .unlock sig => Sys2Proof.Machine.execUnlock sig s
  | .dbgap data apdata write => Sys2Proof.Machine.execDbgap data apdata write s
  | .bypass _op => Sys2Proof.Machine.execBypass _op s
  | .trstN low => Sys2Proof.Machine.execTrstN low s
  | .completionTimeout e page => Sys2Proof.Machine.execCompletionTimeout e page s
  | .atsInvalidation fn => Sys2Proof.Machine.execAtsInvalidation fn s
  | .poisonedTlp addr => Sys2Proof.Machine.execPoisonedTlp addr s
  | .lightOnLane l k => Sys2Proof.Machine.execLightOnLane l k s
  | .rteIdValid dev => Sys2Proof.Machine.execRteIdValid dev s
  | .bellEnClear => Sys2Proof.Machine.execBellEnClear s
  | .vstbyAbsent => Sys2Proof.Machine.execVstbyAbsent s
  | .busMasterEnable fn on => Sys2Proof.Machine.execBusMasterEnable fn on s
  | .vfEnable on num => Sys2Proof.Machine.execVfEnable on num s
  | .pldmBaseDiscovery cmd => Sys2Proof.Machine.execPldmBaseDiscovery cmd s

end Sys2Proof.Machine
end

