-- ==== Sys2Proof/Machine/Idle.lean ====
section
/-!
DEFINITION. The block without a command: bell time goes on by one tick (R8, R295), while the always-on domain has power (R451).
-/
namespace Sys2Proof.Machine

/-- One tick of the 64-bit counter (Table DV-2). -/
def Dev.tick (d : Dev) : Dev := if d.vstby then { d with now := (d.now + 1) % 2 ^ 64 } else d

end Sys2Proof.Machine
end

