-- ==== Sys2Proof/Safety.lean ====
section
/-!
DEFINITION. What counts as a safe run: every step answers a next state, and the test port drives the boundary only under the
instructions that may.
-/
namespace Sys2Proof.Machine

/-- The test port is sound (R443, R467): outputs are driven only under EXTEST and CLAMP and floated only under HIGHZ, and TRST_N low
holds IDCODE with the outputs in normal operation. -/
def Tap.sound (t : Tap) : Prop :=
  (t.pins ≠ none → t.ir = 3 ∨ t.ir = 4) ∧ (t.float = true → t.ir = 5) ∧ (t.low = true → t.ir = 1 ∧ t.pins = none ∧ t.float = false)

/-- A step is safe when it answers a next state whose test port is sound. -/
def SafeStep (s : State) : Prop := ∃ t, step s = .next t ∧ t.tap.sound

/-- The state after a command; a command that did not complete would leave the state. -/
def after (c : Instr) (s : State) : State :=
  match exec c s with
  | .next t => t
  | _ => s

/-! The canonical form of the memories (Tab.lean): strictly rising addresses, and no entry that an unlisted address reads as. -/

/-- Every memory of the device lists its bytes in canonical form. -/
def Dev.memWf (d : Dev) : Bool :=
  tabWf 0 d.hbm && tabWf 0 d.pool && tabWf 0 d.loc && tabWf 0 d.host && tabWf false d.hbmPoison && tabWf false d.poolPoison
    && tabWf false d.hostPoison

/-- A core's tile store likewise. -/
def Core.memWf (x : Core) : Bool := tabWf 0 x.ts

end Sys2Proof.Machine
end

