-- ==== Sys2Proof/WellFormed.lean ====
section
/-!
DEFINITION. What the rules ask of a command's operands beyond their types: alignments, lengths, and packet types. A meaning is given
for every command; one that is not well-formed does not arise.
-/
namespace Sys2Proof
open Sys2Proof.Machine

def WellFormed (i : Instr) : Bool :=
  match i with
  | .registerWrite _ _ off _ => off.toNat % 8 == 0
  | .lowWordRead _ off => off.toNat % 8 == 0
  | .highWordRead _ off => off.toNat % 8 == 0
  | .lowWordWrite _ _ off _ => off.toNat % 8 == 0
  | .highWordWrite _ _ off _ => off.toNat % 8 == 0
  | .wideAccess _ _ off a => Dev.wideOk off.toNat (match a with | .inl n => n | .inr vs => vs.length)
  | .invalidWidthAccess _ _ off width => Dev.badAccess off.toNat width
  | .unmappedAccess _ _ off => off.toNat % 8 == 0
  | .profileChange _ => true
  | .profileClockChange => true
  | .stationEnable _ _ _ => true
  | .stationDisable _ _ _ => true
  | .push _ _ fmt _ _ => fmt.toNat ≤ 0x14
  | .pop _ _ => true
  | .dispatch _ _ _ => true
  | .nop _ _ _ => true
  | .add _ _ _ _ _ => true
  | .sub _ _ _ _ _ => true
  | .and _ _ _ _ _ => true
  | .or _ _ _ _ _ => true
  | .xor _ _ _ _ _ => true
  | .shl _ _ _ _ _ => true
  | .shr _ _ _ _ _ => true
  | .sra _ _ _ _ _ => true
  | .mul _ _ _ _ _ => true
  | .min _ _ _ _ _ => true
  | .max _ _ _ _ _ => true
  | .addi _ _ _ _ _ => true
  | .andi _ _ _ _ _ => true
  | .ori _ _ _ _ _ => true
  | .xori _ _ _ _ _ => true
  | .shli _ _ _ _ _ => true
  | .shri _ _ _ _ _ => true
  | .srai _ _ _ _ _ => true
  | .muli _ _ _ _ _ => true
  | .mini _ _ _ _ _ => true
  | .maxi _ _ _ _ _ => true
  | .li _ _ _ _ => true
  | .mov _ _ _ _ => true
  | .cmpEq _ _ _ _ _ => true
  | .cmpNe _ _ _ _ _ => true
  | .cmpLt _ _ _ _ _ => true
  | .cmpLtu _ _ _ _ _ => true
  | .cmpLe _ _ _ _ _ => true
  | .cmpLeu _ _ _ _ _ => true
  | .plog _ _ _ _ _ _ => true
  | .ld _ _ _ _ _ _ _ => true
  | .st _ _ _ _ _ _ => true
  | .b _ _ _ => true
  | .bl _ _ _ _ _ => true
  | .br _ _ _ => true
  | .blr _ _ _ _ _ => true
  | .loop _ _ _ _ _ _ => true
  | .mflc _ _ _ _ => true
  | .mtlc _ _ _ _ => true
  | .setm _ _ => true
  | .getm _ _ _ _ _ => true
  | .rtx _ _ _ _ _ => true
  | .mfx _ _ _ _ _ => true
  | .halt _ _ => true
  | .trap _ _ _ => true
  | .stcfg _ _ _ _ => true
  | .ststat _ _ _ _ => true
  | .trapEntry _ => true
  | .sqResume _ _ _ => true
  | .engineStop _ _ => true
  | .mma _ => true
  | .mmaSegmentEnd _ _ => true
  | .collapse _ _ => true
  | .drain _ _ => true
  | .mdrain _ _ => true
  | .mpre _ => true
  | .mtrans _ => true
  | .accumulatorRead _ _ _ => true
  | .vadd _ => true
  | .vsub _ => true
  | .vmul _ => true
  | .vfma _ => true
  | .vmin _ => true
  | .vmax _ => true
  | .vand _ => true
  | .vor _ => true
  | .vxor _ => true
  | .vshl _ => true
  | .vshr _ => true
  | .vcmp _ => true
  | .vsel _ => true
  | .vbcast _ => true
  | .vcvt _ => true
  | .vld _ _ => true
  | .vst _ => true
  | .vgather _ _ => true
  | .vscatter _ => true
  | .vtrd _ => true
  | .vtwr _ => true
  | .vtclose _ => true
  | .vtpush _ => true
  | .vredsum _ => true
  | .vredmax _ => true
  | .sfu _ => true
  | .sfuT _ => true
  | .smxInit _ => true
  | .smxMax _ => true
  | .smxExp _ => true
  | .smxRescale _ => true
  | .smxNorm _ => true
  | .nrmInit _ => true
  | .nrmAcc _ => true
  | .nrmAccs _ => true
  | .nrmFin _ => true
  | .nrmApply _ => true
  | .dexec _ => true
  | .dexecn _ => true
  | .dld _ => true
  | .dst _ => true
  | .copy _ => true
  | .fill _ => true
  | .spillSave _ => true
  | .spillRestore _ => true
  | .dmaUnitIssue _ _ => true
  | .dmaUnitComplete _ _ _ _ => true
  | .descriptorComplete _ => true
  | .signal _ _ => true
  | .wait _ _ => true
  | .release _ _ => true
  | .acquire _ _ => true
  | .releasePerform _ _ => true
  | .flag p => match p with | none => true | some p => p.ptype == ptFLAG
  | .handUpdate _ _ _ => true
  | .hpAcq _ _ _ _ => true
  | .hallPassGrant _ _ => true
  | .hpRel _ _ _ => true
  | .hpFree _ _ => true
  | .hpMarkOrphaned _ _ => true
  | .rcArr _ _ _ => true
  | .rcWait _ _ _ => true
  | .rcarr p => p.ptype == ptRCARR
  | .arrivalForward _ _ => true
  | .rcrel p => p.ptype == ptRCREL
  | .releaseNow _ _ => true
  | .countClear _ _ => true
  | .advanceGen _ _ => true
  | .watchdog _ _ => true
  | .rollCallWatchdog _ _ => true
  | .hbmRead _ _ pa _ => pa.toNat % 32 == 0
  | .hbmWrite _ _ pa bytes => 1 ≤ bytes.length && pa.toNat % 32 + bytes.length ≤ 32
  | .mergeEntryRetire _ _ => true
  | .refresh _ _ => true
  | .hotSpotWindow _ => true
  | .temperatureReport _ _ => true
  | .throttleStep _ => true
  | .scrubStart _ _ _ _ => true
  | .scrubAbort _ => true
  | .scrubSector _ _ => true
  | .scrubPassEnd _ => true
  | .generatorStart _ _ _ _ _ _ => true
  | .generatorStop _ _ => true
  | .generatorRunEnd _ _ _ _ _ => true
  | .rehash _ _ => true
  | .rehashRow _ => true
  | .nearMemoryAtomic _ _ pa o wide _ _ _ => pa.toNat % o.width wide == 0
  | .interfaceFault _ => true
  | .stackRetrainingEnd _ _ _ => true
  | .linkEnable _ => true
  | .linkDisable _ => true
  | .retrain _ => true
  | .linkReset _ => true
  | .readmit _ => true
  | .autoReadmit _ => true
  | .trainingDone _ _ _ => true
  | .trainTimeout _ => true
  | .trainRetry _ => true
  | .ident _ _ _ => true
  | .lnkExpect _ _ _ _ => true
  | .dataFlit _ _ _ _ bytes => bytes.length ≤ 244
  | .dataFlitTransmit _ _ => true
  | .idle _ _ => true
  | .nak _ _ _ => true
  | .nakResend _ => true
  | .credsync _ _ counts => counts.length == 8
  | .credsyncSend _ => true
  | .laneFail _ _ => true
  | .degrade _ _ _ => true
  | .degack _ _ _ => true
  | .lanemark _ _ => true
  | .laneReadmission _ _ => true
  | .lightLoss _ => true
  | .lightReturn _ _ => true
  | .pauseTimeout _ => true
  | .retrainDone _ _ _ => true
  | .retrainTimeout _ => true
  | .time _ _ _ _ _ => true
  | .timeFlitSend _ _ => true
  | .feedSwitch _ _ _ => true
  | .packetForward _ => true
  | .packetDeadline _ _ => true
  | .write p => p.ptype == ptWRITE
  | .read p _ => p.ptype == ptREAD
  | .rdata p _ => p.ptype == ptRDATA
  | .engine p => p.ptype == ptENGINE
  | .ack p => p.ptype == ptACK
  | .sync p => p.ptype == ptSYNC
  | .poison p => p.ptype == ptPOISON
  | .flaggedPacketApply _ _ => true
  | .ackSend _ => true
  | .retransmit _ => true
  | .streamFail _ => true
  | .openStream _ => true
  | .closeStream _ => true
  | .closeDone _ => true
  | .resync _ => true
  | .syncSend _ => true
  | .telemetryRecord => true
  | .arm _ _ => true
  | .cancel _ _ => true
  | .reshapeDrain => true
  | .bankSwap => true
  | .slotGo _ => true
  | .ready _ _ => true
  | .chunk _ _ => true
  | .withheld _ _ => true
  | .broken _ _ => true
  | .stale _ _ => true
  | .hoptmo _ _ => true
  | .cwd _ => true
  | .slotAbort _ => true
  | .jobGo _ => true
  | .req _ _ => true
  | .grant _ _ => true
  | .row _ _ => true
  | .batchDeadline _ _ => true
  | .batchReturn _ => true
  | .result _ _ => true
  | .ferryRelease _ _ => true
  | .jobWatchdog _ => true
  | .jobAbort _ => true
  | .markerEdge _ _ => true
  | .frame _ => true
  | .referenceLost _ => true
  | .sourceLinkUnusable => true
  | .holdoverExpiry => true
  | .force => true
  | .timetableFire _ _ => true
  | .ttPace _ _ => true
  | .disall _ => true
  | .setlse _ _ => true
  | .setovf _ => true
  | .eval _ => true
  | .lsEnable _ _ _ _ _ => true
  | .clrcnt _ _ => true
  | .clrh _ _ => true
  | .doorbell _ _ _ => true
  | .acceptance => true
  | .commandNop _ _ => true
  | .run _ _ => true
  | .armcf _ _ => true
  | .armfy _ _ => true
  | .waitCommand _ _ => true
  | .commandStart _ _ => true
  | .partEnd _ _ => true
  | .flipDone _ _ => true
  | .reportDone _ _ => true
  | .replay _ _ => true
  | .copyOnWrite _ _ _ => true
  | .copyOnWriteDone _ _ _ => true
  | .remirror => true
  | .abandon _ _ => true
  | .ringEnable _ _ => true
  | .create _ => true
  | .fence _ => true
  | .quiesce _ => true
  | .fencePoint _ => true
  | .partitionResume _ => true
  | .partitionRelease _ => true
  | .releaseDone _ => true
  | .extentAssign _ _ _ => true
  | .extentZeroed _ => true
  | .extentRemove _ _ _ => true
  | .reserveAdd _ _ _ => true
  | .reserveTake _ _ _ => true
  | .genh _ => true
  | .loadh _ => true
  | .loadl _ => true
  | .clrhKey _ => true
  | .clrl _ => true
  | .s1Invalidate _ _ _ => true
  | .invalidationDone _ => true
  | .weirWindow _ _ _ _ => true
  | .getVersion _ => true
  | .getCapabilities _ _ => true
  | .negotiateAlgorithms _ _ _ _ _ => true
  | .getDigests _ => true
  | .getCertificate _ _ _ _ => true
  | .challenge _ _ => true
  | .getMeasurements _ _ => true
  | .keyExchange _ _ => true
  | .finish _ _ _ => true
  | .heartbeat _ _ => true
  | .keyUpdate _ _ _ => true
  | .endSession _ _ => true
  | .vendorDefinedRequest _ _ _ _ _ _ => true
  | .doeDiscovery _ _ => true
  | .enter _ => true
  | .quietEntryComplete _ => true
  | .deventer => true
  | .exit _ => true
  | .errorRecord _ _ _ _ _ _ _ _ _ => true
  | .errorAck _ => true
  | .clrovf _ => true
  | .escalation _ => true
  | .retire c => c.toNat < 144
  | .coreRetirement _ => true
  | .clrlist => true
  | .retpair _ => true
  | .laggardWindow _ _ => true
  | .coalesceTimeout _ _ => true
  | .claim _ _ => true
  | .complete _ _ => true
  | .managementClaim _ => true
  | .managementComplete _ _ => true
  | .offerTimeout _ => true
  | .sourceEnable _ _ _ _ _ => true
  | .rawClear _ => true
  | .vectorUnmask _ _ _ _ => true
  | .presence _ => true
  | .presenceLost _ => true
  | .hotJoin _ => true
  | .entdaa _ _ => true
  | .identityRead _ id _ _ _ _ => id.length == 32
  | .legacyDetect _ => true
  | .laserOn _ => true
  | .laserOff _ => true
  | .prep _ _ => true
  | .alloff => true
  | .warmingTimeout _ => true
  | .poll _ _ _ _ _ _ => true
  | .inBandInterrupt _ _ _ _ _ _ => true
  | .wearWriteback => true
  | .feedMove _ _ _ => true
  | .recover _ _ => true
  | .portReset _ _ => true
  | .recoveryAttempt _ _ => true
  | .mailboxIdent _ => true
  | .errread _ _ => true
  | .jstat _ _ => true
  | .mailboxFence _ _ => true
  | .snap _ _ _ => true
  | .thmread _ => true
  | .thmset _ _ => true
  | .laseroff _ => true
  | .mailboxReset _ _ => true
  | .logread _ _ => true
  | .sfuimg _ _ _ => true
  | .microprogramInstall => true
  | .lockstepMismatch _ => true
  | .pairReturn _ => true
  | .lowv _ => true
  | .inputBelow40v _ => true
  | .inputRestored _ => true
  | .capWindow _ uj => uj.length == 7
  | .domainOn n => n.toNat < 25
  | .domainOff n => n.toNat < 25
  | .coldReset => true
  | .warmReset => true
  | .partitionReset _ => true
  | .coreReset _ => true
  | .modResetN _ => true
  | .perstN _ => true
  | .functionLevelReset _ => true
  | .warmBringUp _ => true
  | .coldBringUp _ => true
  | .vstbyValid _ => true
  | .sensorSample _ _ => true
  | .thermalLevelStep _ => true
  | .firmwareUpdate _ _ => true
  | .activateFirmware _ => true
  | .pldmPlatformMonitoring _ => true
  | .clr => true
  | .cntSnap _ => true
  | .capture _ => true
  | .mark _ _ => true
  | .dumpArm _ _ => true
  | .stepGo _ => true
  | .stop _ => true
  | .resume _ => true
  | .accessPortRead _ => true
  | .accessPortWrite _ _ => true
  | .idcode => true
  | .samplePreload _ => true
  | .extest _ => true
  | .clamp => true
  | .highz => true
  | .chal => true
  | .unlock sig => sig.length == 96
  | .dbgap _ _ _ => true
  | .bypass _ => true
  | .trstN _ => true
  | .completionTimeout _ _ => true
  | .atsInvalidation _ => true
  | .poisonedTlp _ => true
  | .lightOnLane _ _ => true
  | .rteIdValid _ => true
  | .bellEnClear => true
  | .vstbyAbsent => true
  | .busMasterEnable _ _ => true
  | .vfEnable _ _ => true
  | .pldmBaseDiscovery _ => true

end Sys2Proof
end

