-- ==== Sys2Proof/Certificates/Slice0/Vocabulary.lean ====
section
/-!
DEFINITION. Words that the statements share: the conditions under which a command has its own effect.
-/
namespace Sys2Proof.Machine

/-- The command completes, and the device becomes `d`; the queue and the test port stay. -/
def Completes (i : Instr) (s : State) (d : Dev) : Prop := exec i s = .next { s with dev := d }

/-- The instruction at the program counter is the last of the innermost loop's body (R58). -/
def atLoopEnd (x : Core) : Bool :=
  match x.loops with
  | l :: _ => decide (l.last = x.pc)
  | [] => false

/-- Core c's sequencer executes its next scalar instruction, whose guard is true (R49): it is ready, fetches the instruction, of 8 bytes
or 16, has taken an instruction of the attempt before, and does not stand in a delay slot at a loop's end, which is LOOPFORM (R58). -/
def Takes (d : Dev) (c : Nat) (g : Guard) (long : Bool := false) : Prop :=
  d.seqReady c = true ∧ d.fetched c long = .ok ∧ d.guardOn c g = true ∧ (d.eng c 0).took = true ∧
    (atLoopEnd (d.core c) && (d.core c).slot.isSome) = false

/-- The same for a branch or loop, which also stands neither in a delay slot nor at a loop's end (R57, R58). -/
def TakesFlow (d : Dev) (c : Nat) (g : Guard) : Prop :=
  d.seqReady c = true ∧ d.fetched c false = .ok ∧ d.guardOn c g = true ∧ (d.eng c 0).took = true ∧ (d.core c).slot = none ∧ atLoopEnd (d.core c) = false

/-- Engine e of core c executes the instruction `q` of opcode `op` at the head of its queue. -/
def Executes (d : Dev) (c e op : Nat) (q : QEntry) : Prop :=
  d.engReady c e = true ∧ (d.eng c e).queue.head? = some q ∧ wOp q.word = op ∧ (d.eng c e).took = true

/-- A write of the register only stores its fields: none of the actions of Commit.lean belongs to it. -/
def Dev.plainWrite (d : Dev) (n : RegName) (i : List Nat) (a v : Nat) : Prop :=
  d.commitCore n i v = none ∧ d.commitFabric n i v = none ∧ d.commitPart n i v = none ∧ d.commitMgmt n i a v = none

/-- The command sets lanes `f` of vector register `vd` where `act` says so; every other lane, register, core and unit stays, and the
instruction leaves its queue. -/
def SetsLanes (i : Instr) (s : State) (c vd : Nat) (act : Nat → Bool) (f : Nat → Lane) : Prop :=
  ∃ d, Completes i s d ∧ (∀ k, k < 128 → (d.core c).lane vd k = if act k then f k else (s.dev.core c).lane vd k) ∧
    (∀ r k, k < 128 → r ≠ vd → (d.core c).lane r k = (s.dev.core c).lane r k) ∧
    (d.eng c 2).queue = (s.dev.eng c 2).queue.tail ∧ (∀ k, k ≠ c → d.core k = s.dev.core k) ∧ d = { s.dev with cores := d.cores }

/-- The active lanes of format V, and of format SF. -/
def actV (d : Dev) (c : Nat) (q : QEntry) : Nat → Bool := d.active c (wF q.word 31 27) (wF q.word 26 26 = 1)
def actSF (d : Dev) (c : Nat) (q : QEntry) : Nat → Bool := d.active c (wF q.word 25 21) (wF q.word 20 20 = 1)

/-- A format V instruction: vd := f va vb vd, lane by lane (R60, R132). -/
def LaneOp (i : Instr) (s : State) (c : Nat) (q : QEntry) (f : Lane → Lane → Lane → Lane) : Prop :=
  SetsLanes i s c (wF q.word 48 44) (actV s.dev c q) fun k =>
    f ((s.dev.core c).lane (wF q.word 43 39) k) ((s.dev.core c).lane (wF q.word 38 34) k) ((s.dev.core c).lane (wF q.word 48 44) k)

/-- The bytes of the oldest tile of FIFO n, of `len` bytes. -/
def oldest (d : Dev) (c n len : Nat) : List Byte := (d.core c).tsRead (d.slotAddr c n ((d.core c).fifo n).head) len

/-- The tile form of the SFU can run (R140): it has not begun, its FP32 tile waits in FIFO n with another behind it, and FIFO o takes a tile of format fo. -/
def TileRuns (d : Dev) (c : Nat) (q : QEntry) (n o : Nat) (fo : Fmt) : Prop :=
  (d.eng c 2).begun = false ∧ fmtOf (wF q.word 28 24) = some fo ∧ d.resolveSt c true (fun n => n = 4 || n = 5 || n = 7) (wF q.word 48 43) = .ok n ∧
  d.resolveSt c false (fun n => n = 6) (wF q.word 42 37) = .ok o ∧ n ≠ o ∧ d.canPush c o = true ∧ d.tooBig c o fo.tileBytes = false ∧
  d.fifoOn c n = true ∧ 2 ≤ d.occ c n ∧ d.headLen c n = some 16384

/-- The 4,096 elements of the oldest tile of FIFO n. -/
def tileIn (d : Dev) (c n : Nat) : List Lane := (List.range 4096).map fun i => BitVec.ofNat 32 (elemAt 32 (oldest d c n 16384) i)

/-- The tile's results narrowed to fo, counted, and pushed to FIFO o; the instruction is done (R140, R116, R117). -/
def tileOut (c : Nat) (q : QEntry) (o : Nat) (fo : Fmt) (l : List Lane) (d : Dev) : Dev :=
  let r := encodeTile fo (d.rndOf c 2) (d.eng c 2).e4m3nan (l.map f32)
  let d := (d.gaugeCount c 2 r.2).push c o (wF q.word 28 24) r.1 (Dev.marks r.2)
  d.engDone c 2 ((d.eng c 2).rnd && decide (fo ≠ .flt layFP32))

/-- A sequenced packet is the next that its clear, open context expects, and nothing of the context is held (R246, R249). -/
def NextPkt (d : Dev) (p : Pkt) : Prop :=
  (d.ctx p.dctx).st = .opened ∧ p.sdev = (d.ctx p.dctx).fdev ∧ (d.ctx p.dctx).gcm = false ∧ p.seq < 2 ^ 32 ∧
  (d.ctx p.dctx).b = p.seq ∧ (d.ctx p.dctx).taken = [] ∧ (d.ctx p.dctx).held = [] ∧ d.pastDeadline p.deadline = false

/-- The packet is taken: it leaves the input, and B moves past it. -/
def pktTaken (p : Pkt) (d : Dev) : Dev := ((d.unqueue p).notePartial p.dctx p).markTaken p.dctx p.seq

end Sys2Proof.Machine
end

