-- ==== Sys2Proof/Certificates/Slice0/Obligations.lean ====
section
/-!
DEFINITION. The statements about the model: how commands run, what each family of commands does, and what it leaves.
-/
open Sys2Proof Sys2Proof.Machine

/-! The queue, the step and the reset state. -/

/-- A step takes the command at the front of the queue and runs it with the queue's rest. -/
def Obligations.StepRunsFrontCommand : Prop :=
  ∀ (s : State) (c : Instr) (r : List Instr), s.pending = c :: r → step s = exec c { s with pending := r }

/-- With no command waiting a step is one tick of bell time while standby power is present, and nothing else (R8, R451; log 3).
Commands take effect first in, first out, one a step, and each completes: after as many steps as there are commands ahead, exactly
their effects, in order, have happened, and the rest of the queue stands. -/
def Obligations.QueueRunsInOrder : Prop :=
  (∀ s : State, s.pending = [] →
    (s.dev.vstby = true → step s = .next { s with dev := { s.dev with now := (s.dev.now + 1) % 2 ^ 64 } }) ∧
    (s.dev.vstby = false → step s = .next s)) ∧
  (∀ (cs r : List Instr) (s : State), s.pending = cs ++ r →
    Host.Core.run Sys2Proof.core cs.length s = .next { cs.foldl (fun u c => after c u) s with pending := r })

/-- Reset: every register field reads its table's reset value, the queue is empty, the bell counter stands at 0, no core runs, the test
port holds IDCODE, and QUIET_N alone of the sideband outputs is asserted.
The reset state's test port is sound, and MOD_RESET_N high takes EXTEST, CLAMP and HIGHZ out of action (R467). -/
def Obligations.ResetState : Prop :=
  ((∀ f : Fld, State.reset.dev.rd f = f.reset) ∧ State.reset.pending = [] ∧ State.reset.dev.now = 0 ∧
  (∀ c : Nat, (State.reset.dev.core c).run = false ∧ ∀ r, (State.reset.dev.core c).sr r = 0) ∧
  (∀ p : Nat, State.reset.dev.isQuiet p = false) ∧ State.reset.tap.ir = 1 ∧
  State.reset.dev.pins = { quietN := true, alertN := false, thermtripN := false }) ∧
  (State.reset.tap.sound ∧
  ∀ s : State, s.tap.sound → ∃ t, exec (.modResetN false) s = .next t ∧ t.tap.pins = none ∧ t.tap.float = false ∧
    t.tap.ir ≠ 3 ∧ t.tap.ir ≠ 4 ∧ t.tap.ir ≠ 5)

/-- Every step keeps the test port sound (R443, R467): boundary outputs are driven only under EXTEST and CLAMP and floated only under
HIGHZ, and TRST_N low holds IDCODE with the outputs in normal operation. -/
def Obligations.TestPortSoundAtEveryStep : Prop :=
  ∀ s t : State, s.tap.sound → step s = .next t → t.tap.sound

/-! Host accesses (R10 to R17, R28). -/

/-- A 32-bit read of a low word returns bits 31:0 of the register's 64-bit read, with that read's side effects, and latches bits 63:32
for this requester under the register's address; the high word read next returns the latched word and empties the latch; at
any other address, or with the latch empty, it returns the register's current bits 63:32 and leaves the latch as it is (R13). The
current high word of DBG_APDATA, whose value exists only at a read, is a free value of the model. -/
def Obligations.LowThenHighWordRead : Prop :=
  ∀ (s : State) (r : Requester) (off : BitVec 28) (n : RegName) (i : List Nat) (a : Nat),
    s.dev.reqUp r = true → s.dev.reach r off.toNat = .reg n i a →
    (Completes (.lowWordRead r off) s
      (((s.dev.read64 r off.toNat).2.setPort r.num { (s.dev.read64 r off.toNat).2.port r.num with
        latch := some (a, BitVec.ofNat 32 ((s.dev.read64 r off.toNat).1 / 2 ^ 32)) }).answer r ((s.dev.read64 r off.toNat).1 % 2 ^ 32))) ∧
    (∀ w, (s.dev.port r.num).latch = some (a, w) →
      Completes (.highWordRead r off) s ((s.dev.setPort r.num { s.dev.port r.num with latch := none }).answer r w.toNat)) ∧
    ((s.dev.port r.num).latch.map (·.1) ≠ some a →
      Completes (.highWordRead r off) s
        ((Dev.highNow n i a s.dev).2.answer r (Dev.highNow n i a s.dev).1)) ∧
    (Dev.highNow n i a s.dev).2.ports = s.dev.ports ∧
    (n = .IC_CLAIM ∨ n = .IRQ_MCLAIM → (Dev.highNow n i a s.dev).1 = 0) ∧
    (n ≠ .IC_CLAIM → n ≠ .IRQ_MCLAIM → n ≠ .DBG_APDATA →
      (Dev.highNow n i a s.dev).1 = (s.dev.read64 r off.toNat).1 / 2 ^ 32)

/-- A 32-bit write to a low word is held with its tag and changes nothing else; the high word written at that address commits all 64
bits as one write and empties the holding register; at any other address, or with nothing held, it is discarded with a host access
error and the holding register stays (R14). -/
def Obligations.LowThenHighWordWrite : Prop :=
  ∀ (s : State) (r : Requester) (user : Bool) (off : BitVec 28) (w : BitVec 32) (n : RegName) (i : List Nat) (a : Nat),
    s.dev.reqUp r = true → s.dev.reach r off.toNat = .reg n i a → Dev.mayWrite r user n = true →
    Completes (.lowWordWrite r user off w) s (s.dev.setPort r.num { s.dev.port r.num with hold := some (a, w) }) ∧
    (∀ lo, (s.dev.port r.num).hold = some (a, lo) →
      Completes (.highWordWrite r user off w) s
        (Dev.write64 r user off.toNat (w.toNat * 2 ^ 32 + lo.toNat)
          (s.dev.setPort r.num { s.dev.port r.num with hold := none }))) ∧
    ((s.dev.port r.num).hold.map (·.1) ≠ some a →
      Completes (.highWordWrite r user off w) s (s.dev.hostErr (off.toNat + 4)))

/-- A 64-bit write of a register that only stores sets each RW field, clears each RW1C bit written 1, leaves every other field and every
other register, and touches no latch or holding register (R10, R17).
The fields of one register do not overlap one another's place (R9). -/
def Obligations.RegisterWriteStoresFields : Prop :=
  (∀ (s : State) (r : Requester) (user : Bool) (off : BitVec 28) (v : Word) (n : RegName) (i : List Nat) (a : Nat),
    s.dev.reqUp r = true → s.dev.reach r off.toNat = .reg n i a → Dev.mayWrite r user n = true → n ≠ .DBG_APDATA →
    s.dev.plainWrite n i a v.toNat →
    ∃ d, Completes (.registerWrite r user off v) s d ∧ d.ports = s.dev.ports ∧
      (∀ f ∈ fieldsOf n i, f.ty = .rw → d.rd f = v.toNat / 2 ^ f.lo % 2 ^ f.width) ∧
      (∀ f ∈ fieldsOf n i, f.ty = .rw1c →
        d.rd f = (s.dev.rd f - Nat.land (s.dev.rd f) (v.toNat / 2 ^ f.lo % 2 ^ f.width)) % 2 ^ f.width) ∧
      (∀ f ∈ fieldsOf n i, f.ty ≠ .rw → f.ty ≠ .rw1c → d.rd f = s.dev.rd f) ∧
      (∀ g : Fld, (∀ f ∈ fieldsOf n i, g.key ≠ f.key) → d.rd g = s.dev.rd g)) ∧
  (∀ (n : RegName) (i : List Nat), (fieldsOf n i).Pairwise fun f g => f.lo + f.width ≤ g.lo)

/-- An aligned wide access is carried out as successive 64-bit accesses in ascending address order (R16): a read of n words answers
each word in turn, a write commits each value in turn.
An access that R16 or R28 says reaches no register returns zero or is discarded, and is logged as a host access error. -/
def Obligations.WideAndBadAccesses : Prop :=
  (∀ (s : State) (r : Requester) (user : Bool) (off : BitVec 28), s.dev.reqUp r = true →
    (∀ n, Dev.wideOk off.toNat n = true → ∃ d, Completes (.wideAccess r user off (.inl n)) s d ∧
      d = (List.range n).foldl (fun (d : Dev) k =>
        (d.read64 r (off.toNat + 8 * k)).2.answer r (d.read64 r (off.toNat + 8 * k)).1) s.dev) ∧
    (∀ vs : List Word, Dev.wideOk off.toNat vs.length = true → ∃ d, Completes (.wideAccess r user off (.inr vs)) s d ∧
      d = (List.range vs.length).foldl (fun (d : Dev) k =>
        Dev.write64 r user (off.toNat + 8 * k) ((vs.map (·.toNat)).getD k 0) d) s.dev)) ∧
  (∀ (s : State) (r : Requester) (off : BitVec 28) (width : Nat), s.dev.reqUp r = true →
    (Dev.badAccess off.toNat width = true →
      Completes (.invalidWidthAccess r false off width) s ((s.dev.hostErr off.toNat).answer r 0) ∧
      Completes (.invalidWidthAccess r true off width) s (s.dev.hostErr off.toNat)) ∧
    (s.dev.reach r off.toNat = .nothing →
      Completes (.unmappedAccess r false off) s ((s.dev.hostErr off.toNat).answer r 0) ∧
      Completes (.unmappedAccess r true off) s (s.dev.hostErr off.toNat)))

/-- A profile change (R23, R420) first stops the intake; the clocks change only when no record is accepted, running or committing; the
new profile then is current, acceptance stands as before, and management source 3 is signalled. Profile code 3 is refused. -/
def Obligations.ProfileChangesWhenDrained : Prop :=
  (∀ (s : State) (req : BitVec 2), s.dev.flag Reg.PWR_PROFILE_BUSY = false → req ≠ 3 →
    (req = 0 → s.dev.flag Reg.HIF_MODID_BALMAX = false) →
    req.toNat ≠ s.dev.rd Reg.PWR_PROFILE_CUR → s.dev.accStop = 0 →
    ∃ d, Completes (.profileChange req) s d ∧ d.flag Reg.PWR_PROFILE_BUSY = true ∧ d.profTo = req.toNat ∧
      d.flag Reg.JNL_CTL_EN = false ∧ d.accWas = s.dev.flag Reg.JNL_CTL_EN ∧
      d.rd Reg.PWR_PROFILE_CUR = s.dev.rd Reg.PWR_PROFILE_CUR) ∧
  (∀ s : State, ∃ d, Completes (.profileChange 3) s d ∧ d.flag Reg.PWR_PROFILE_REFUSED = true ∧ d.accStop = s.dev.accStop ∧
    d.rd Reg.PWR_PROFILE_CUR = s.dev.rd Reg.PWR_PROFILE_CUR) ∧
  (∀ s : State, s.dev.flag Reg.PWR_PROFILE_BUSY = true → s.dev.jnlQuiet = true → s.dev.accStop = 1 → s.dev.profTo < 4 →
    ∃ d, Completes .profileClockChange s d ∧ d.rd Reg.PWR_PROFILE_CUR = s.dev.profTo ∧ d.flag Reg.PWR_PROFILE_BUSY = false ∧
      d.flag Reg.JNL_CTL_EN = s.dev.accWas ∧ (d.src 3).raw = true)

/-! Stations (R36 to R46). -/

/-- Enabling a station and disabling it (R36, R43): with EN = 0 a write with EN = 1 stores SLOT, CAP, BASE, PROD and CONS and enables
the FIFO empty when no case of R36 applies to what it stored, and otherwise sets CFGERR with the lowest code and leaves it disabled;
with EN = 1 a write of EN = 0 discards every tile and changes none of those fields, and a write of EN = 1 changes nothing.
A push stores the tile's bytes in the slot after the newest tile and OCC counts it; a pop takes the oldest tile; the events of R46
follow only at FULL and EMPTY. A tile larger than the slot is a STATION fault of the producer's engine and OCC stays (R38, R41, R42). -/
def Obligations.StationsPushAndPopTiles : Prop :=
  (∀ (s : State) (c : CoreNo) (n : Station) (v : Word),
    (s.dev.fifoOn c n = false → ∃ d, Completes (.stationEnable c n v) s d ∧
      d.fifoSlot c n = bits v.toNat 14 8 ∧ d.fifoCap c n = bits v.toNat 23 16 ∧ d.fifoBase c n = bits v.toNat 38 24 ∧
      d.fifoProd c n = bits v.toNat 43 40 ∧ d.fifoCons c n = bits v.toNat 51 48 ∧
      (d.fifoOn c n = true ↔ d.enableCode c n = 0) ∧
      (d.enableCode c n = 0 → (d.core c).fifo n = Fifo.reset) ∧
      (d.enableCode c n ≠ 0 → d.flag (Reg.ST_STAT_CFGERR c n) = true ∧ d.rd (Reg.ST_STAT_CFGERR_CODE c n) = d.enableCode c n)) ∧
    (s.dev.fifoOn c n = true → Completes (.stationEnable c n v) s s.dev) ∧
    (s.dev.fifoOn c n = true → ∃ d : Dev, Completes (.stationDisable c n v) s d.watch ∧ d.fifoOn c n = false ∧
      (d.core c).fifo n = Fifo.reset ∧ (∀ m, m ≠ n.val → (d.core c).fifo m = (s.dev.core c).fifo m) ∧
      (∀ f : Fld, f.key ≠ (Reg.ST_CFG_EN c n).key → d.rd f = s.dev.rd f))) ∧
  (∀ (s : State) (c : CoreNo) (n : Station) (fmt : BitVec 5) (bytes : List Byte) (marked : Bool),
    (s.dev.canPush c n = true → bytes.length ≤ s.dev.fifoSlot c n * 256 →
      ((s.dev.core c).fifo n).tiles.length + 1 ≠ s.dev.fifoCap c n →
      ∃ d : Dev, Completes (.push c n fmt bytes marked) s ((d.histogram c n fmt.toNat bytes).watchPush c n marked).watch ∧
        ((d.core c).fifo n).tiles = ((s.dev.core c).fifo n).tiles ++ [⟨bytes.length, marked⟩] ∧
        ((d.core c).fifo n).head = ((s.dev.core c).fifo n).head ∧
        (d.core c).tsRead (s.dev.slotAddr c n (((s.dev.core c).fifo n).head + ((s.dev.core c).fifo n).tiles.length)) bytes.length = bytes) ∧
    (s.dev.canPush c n = true → s.dev.fifoSlot c n * 256 < bytes.length →
      Completes (.push c n fmt bytes marked) s
        (s.dev.engFault c (portEng (s.dev.fifoProd c n)) { cause := 0x07, sub := 4, station := n }).watch) ∧
    (∀ t r, s.dev.fifoOn c n = true → ((s.dev.core c).fifo n).tiles = t :: r → r ≠ [] →
      ∃ d : Dev, Completes (.pop c n) s d.watch ∧ ((d.core c).fifo n).tiles = r ∧
        ((d.core c).fifo n).head = (((s.dev.core c).fifo n).head + 1) % max 1 (s.dev.fifoCap c n) ∧
        (d.core c).ts = (s.dev.core c).ts ∧ d.regs = s.dev.regs) ∧
    (∀ t, s.dev.fifoOn c n = true → ((s.dev.core c).fifo n).tiles = [t] →
      ∃ d : Dev, Completes (.pop c n) s (d.stEvent c n false).watch ∧ ((d.core c).fifo n).tiles = []))

/-- Dispatch (R48, R49, R53): a well-formed engine instruction with a true guard enters its engine's queue of 32 with the values of
the scalar registers it names, and the sequencer goes on; with the queue full the sequencer stays; a false guard dispatches nothing;
a malformed word is an ILLEGAL fault of the sequencer.
A false guard (R49): the instruction has no effect but that the sequencer goes on; a branch is then not taken, and a loop
instruction is passed.
The fetch (R342): an instruction of a page whose leaves do not grant X is not executed; the sequencer faults with PROTECTION at its
address. -/
def Obligations.DispatchAndGuards : Prop :=
  (∀ (s : State) (c : CoreNo) (w ext : Word), wLong w = false → 
    Takes s.dev c (if legalWord w ext then ⟨wPn w, BitVec.ofNat 3 (wPr w)⟩ else ⟨false, 0⟩) →
    (legalWord w ext = true → wEng w ≠ 0 → (s.dev.eng c (wEng w)).queue.length < 32 →
      Completes (.dispatch c w ext) s
        ((s.dev.updEng c (wEng w) fun g => { g with queue := g.queue ++ [⟨(s.dev.core c).pc, w, 0,
          (s.dev.core c).sr (namesRa (wEng w) (wOp w) w), (s.dev.core c).sr (namesRb w)⟩] }).retire c 8)) ∧
    (legalWord w ext = true → wEng w ≠ 0 → 32 ≤ (s.dev.eng c (wEng w)).queue.length → Completes (.dispatch c w ext) s s.dev) ∧
    (legalWord w ext = false → Completes (.dispatch c w ext) s (s.dev.seqFault c w 0 { cause := 0x01 }))) ∧
  (∀ (s : State) (c : CoreNo) (g : Guard) (rd ra rb : BitVec 5) (imm : BitVec 39) (spc : BitVec 2) (off : BitVec 37) (ue : Bool) (code : BitVec 16)
    (lc : BitVec 2) (n : LoopCnt) (e : BitVec 25) (long : Bool),
    s.dev.seqReady c = true → s.dev.fetched c true = .ok → s.dev.guardOn c g = false → (s.dev.eng c 0).took = true →
    (atLoopEnd (s.dev.core c) && (s.dev.core c).slot.isSome) = false →
    (∀ i ∈ [Instr.add c g rd ra rb, .addi c g rd ra imm, .li c g rd (.inl imm), .ld c g rd ra spc off ue, .st c g rd ra spc off,
      .halt c g, .trap c g code, .nop c (some g) 0], Completes i s (s.dev.retire c 8)) ∧
    ((s.dev.core c).slot = none → atLoopEnd (s.dev.core c) = false → (s.dev.core c).skipSlot = none →
      Completes (.b c g imm) s (s.dev.updCore c fun x => { x with slot := some ⟨x.pc, none⟩, pc := x.pc + 8 }) ∧
      Completes (.loop c g lc n e long) s (s.dev.retire c 8))) ∧
  (∀ (s : State) (c : CoreNo) (g : Guard) (rd ra rb : BitVec 5) (p pc : Nat) (l : Leaf),
    s.dev.seqReady c = true → s.dev.coreOwner c = some p → pc = (s.dev.core c).pc.toNat → pc % 8 = 0 →
    s.dev.walk p pc = .ok l → l.x = false →
    ∃ w ext : Word, Completes (.add c g rd ra rb) s
      ({ s.dev with ctr := s.dev.ctr + 2 }.seqFault c w ext { cause := 0x05, addr := pc, aspace := 2 }))

/-! The scalar instructions (R49, R51, R56 to R58). -/

/-- Register arithmetic (Table GL-5): rd := ra op rb, shifts by rb[5:0], mul the low 64 bits, min and max signed; then the sequencer goes
on. The same with the sign-extended immediate in rb's place, and for li, li.l and mov.
Compares and predicate logic (Table GL-5): pd := the comparison of ra with rb or the immediate, signed or unsigned, or of two
predicates; p0 stays true whatever is written to it (R51).
What register arithmetic leaves (frame): every other scalar register, the predicates, the loop counters, the mode fields, the tile
store, the queues, every other core, every memory and every register field; the program counter goes to the next instruction outside a
delay slot and a loop's end. Loops, loop counters and the delay slot change only there (R57, R58). -/
def Obligations.ScalarArithmeticAndFrame : Prop :=
  (∀ (s : State) (c : CoreNo) (g : Guard) (rd ra rb : BitVec 5) (imm : BitVec 39) (ext : Word), Takes s.dev c g →
    let a := (s.dev.core c).sr ra.toNat
    let b := (s.dev.core c).sr rb.toNat
    let i : Word := imm.signExtend 64
    let res (v : Word) (len : Nat) : Dev := (s.dev.updCore c fun x => x.setSr rd.toNat v).retire c len
    Completes (.add c g rd ra rb) s (res (a + b) 8) ∧ Completes (.sub c g rd ra rb) s (res (a - b) 8) ∧
    Completes (.and c g rd ra rb) s (res (a &&& b) 8) ∧ Completes (.or c g rd ra rb) s (res (a ||| b) 8) ∧
    Completes (.xor c g rd ra rb) s (res (a ^^^ b) 8) ∧ Completes (.shl c g rd ra rb) s (res (a <<< (b.toNat % 64)) 8) ∧
    Completes (.shr c g rd ra rb) s (res (a >>> (b.toNat % 64)) 8) ∧
    Completes (.sra c g rd ra rb) s (res (a.sshiftRight (b.toNat % 64)) 8) ∧ Completes (.mul c g rd ra rb) s (res (a * b) 8) ∧
    Completes (.min c g rd ra rb) s (res (if a.toInt ≤ b.toInt then a else b) 8) ∧
    Completes (.max c g rd ra rb) s (res (if a.toInt < b.toInt then b else a) 8) ∧
    Completes (.addi c g rd ra imm) s (res (a + i) 8) ∧ Completes (.andi c g rd ra imm) s (res (a &&& i) 8) ∧
    Completes (.ori c g rd ra imm) s (res (a ||| i) 8) ∧ Completes (.xori c g rd ra imm) s (res (a ^^^ i) 8) ∧
    Completes (.shli c g rd ra imm) s (res (a <<< (i.toNat % 64)) 8) ∧
    Completes (.shri c g rd ra imm) s (res (a >>> (i.toNat % 64)) 8) ∧
    Completes (.srai c g rd ra imm) s (res (a.sshiftRight (i.toNat % 64)) 8) ∧ Completes (.muli c g rd ra imm) s (res (a * i) 8) ∧
    Completes (.mini c g rd ra imm) s (res (if a.toInt ≤ i.toInt then a else i) 8) ∧
    Completes (.maxi c g rd ra imm) s (res (if a.toInt < i.toInt then i else a) 8) ∧
    Completes (.li c g rd (.inl imm)) s (res i 8) ∧ (s.dev.fetched c true = .ok → Completes (.li c g rd (.inr ext)) s (res ext 16)) ∧
    Completes (.mov c g rd ra) s (res a 8)) ∧
  (∀ (s : State) (c : CoreNo) (g : Guard) (pd pa pb : BitVec 3) (ra : BitVec 5) (y : RegImm) (lop : BitVec 2), Takes s.dev c g →
    let a := (s.dev.core c).sr ra.toNat
    let b : Word := match y with | .reg rb => (s.dev.core c).sr rb.toNat | .imm i => i.signExtend 64
    let p := (s.dev.core c).pred pa.toNat
    let q := (s.dev.core c).pred pb.toNat
    let res (v : Bool) : Dev := (s.dev.updCore c fun x => x.setPred pd.toNat v).retire c 8
    Completes (.cmpEq c g pd ra y) s (res (decide (a = b))) ∧ Completes (.cmpNe c g pd ra y) s (res (decide (a ≠ b))) ∧
    Completes (.cmpLt c g pd ra y) s (res (decide (a.toInt < b.toInt))) ∧
    Completes (.cmpLtu c g pd ra y) s (res (decide (a.toNat < b.toNat))) ∧
    Completes (.cmpLe c g pd ra y) s (res (decide (a.toInt ≤ b.toInt))) ∧
    Completes (.cmpLeu c g pd ra y) s (res (decide (a.toNat ≤ b.toNat))) ∧
    Completes (.plog c g pd pa pb lop) s
      (res (if lop = 0 then p && q else if lop = 1 then p || q else if lop = 2 then xor p q else p && !q)) ∧
    (∀ (x : Core) (v : Bool), (x.setPred 0 v).pred 0 = true) ∧
    (∀ (x : Core) (k m : Fin 8) (v : Bool), k ≠ 0 → (x.setPred k v).pred m = if m = k then v else x.pred m)) ∧
  (∀ (s t : State) (c : CoreNo) (g : Guard) (rd ra rb : BitVec 5) (imm : BitVec 39) (i : Instr),
    Takes s.dev c g → (s.dev.core c).slot = none → atLoopEnd (s.dev.core c) = false →
    i ∈ [Instr.add c g rd ra rb, .sub c g rd ra rb, .and c g rd ra rb, .or c g rd ra rb, .xor c g rd ra rb, .shl c g rd ra rb,
      .shr c g rd ra rb, .sra c g rd ra rb, .mul c g rd ra rb, .min c g rd ra rb, .max c g rd ra rb, .addi c g rd ra imm,
      .andi c g rd ra imm, .ori c g rd ra imm, .xori c g rd ra imm, .shli c g rd ra imm, .shri c g rd ra imm, .srai c g rd ra imm,
      .muli c g rd ra imm, .mini c g rd ra imm, .maxi c g rd ra imm, .mov c g rd ra] →
    exec i s = .next t →
    (∀ r, r ≠ rd.toNat → (t.dev.core c).sr r = (s.dev.core c).sr r) ∧
    (t.dev.core c) = { s.dev.core c with s := (t.dev.core c).s, pc := (s.dev.core c).pc + 8 } ∧
    (∀ k, k ≠ c.val → t.dev.core k = s.dev.core k) ∧
    t = { s with dev := { s.dev with cores := t.dev.cores } })

/-- The address space of a scalar load or store and its alignment (R56): the third space code is an OPERAND fault, an address that is
not a multiple of 8 an ALIGN fault; otherwise ld puts the 64-bit little-endian value into rd and st stores rd. The tile store is
accessed within its 8 MiB. -/
def Obligations.ScalarLoadsAndStores : Prop :=
  ∀ (s : State) (c : CoreNo) (g : Guard) (rd ra : BitVec 5) (spc : BitVec 2) (imm : BitVec 37) (ue : Bool), Takes s.dev c g →
    let a := ((s.dev.core c).sr ra.toNat + imm.signExtend 64).toNat
    (spc = 3 → Completes (.ld c g rd ra spc imm ue) s (s.dev.seqFault c (mkWord 0 false 0x30 g (opSM rd ra spc imm)) 0 { cause := 0x02 }) ∧
      Completes (.st c g rd ra spc imm) s (s.dev.seqFault c (mkWord 0 false 0x31 g (opSM rd ra spc imm)) 0 { cause := 0x02 })) ∧
    (spc ≠ 3 → a % 8 ≠ 0 →
      Completes (.ld c g rd ra spc imm ue) s
        (s.dev.seqFault c (mkWord 0 false 0x30 g (opSM rd ra spc imm)) 0 { cause := 0x03, addr := a, aspace := spc.toNat }) ∧
      Completes (.st c g rd ra spc imm) s
        (s.dev.seqFault c (mkWord 0 false 0x31 g (opSM rd ra spc imm)) 0 { cause := 0x03, addr := a, aspace := spc.toNat })) ∧
    (spc = 0 → a % 8 = 0 → a + 8 ≤ 0x800000 →
      Completes (.ld c g rd ra spc imm ue) s
        ((s.dev.updCore c fun x => x.setSr rd.toNat (BitVec.ofNat 64 (leNat (x.tsRead a 8)))).retire c 8) ∧
      Completes (.st c g rd ra spc imm) s ((s.dev.tileWrite c a (leBytes 8 ((s.dev.core c).sr rd.toNat).toNat)).retire c 8)) ∧
    (∀ b d, spc ≠ 3 → a % 8 = 0 → s.dev.coreRead c 0 spc.toNat a 8 ue = (.ok b, d) →
      Completes (.ld c g rd ra spc imm ue) s ((d.updCore c fun x => x.setSr rd.toNat (BitVec.ofNat 64 (leNat b))).retire c 8)) ∧
    (∀ d, spc ≠ 3 → a % 8 = 0 → s.dev.coreWrite c 0 spc.toNat a (leBytes 8 ((s.dev.core c).sr rd.toNat).toNat) = (.ok (), d) →
      Completes (.st c g rd ra spc imm) s (d.retire c 8))

/-- Branches (R49, R57): the next instruction is the delay slot at the branch address + 8, whether or not the branch is taken; then the
sequencer goes to the target, or on. bl and blr write the address after the delay slot; blr with RD = RA is ILLEGAL.
Hardware loops (R58): loop loads its counter and its body runs from the next instruction; a count of zero skips the body; a fifth
loop is LOOP_DEPTH and a body that does not end before the enclosing one's is LOOP_FORM. Loop-end handling decrements the counter and
returns to the body's first instruction, or deactivates the loop. mflc and mtlc move a counter. -/
def Obligations.BranchesAndLoops : Prop :=
  (∀ (s : State) (c : CoreNo) (g : Guard) (rd ra : BitVec 5) (off : BitVec 39) (long : Bool), TakesFlow s.dev c g →
    (s.dev.core c).skipSlot = none →
    let pc := (s.dev.core c).pc
    let rel := pc + ((off.signExtend 48) <<< 3)
    let abs : BitVec 48 := ((s.dev.core c).sr ra.toNat).setWidth 48
    let ret : Word := (pc + (if long then 24 else 16)).setWidth 64
    let link (x : Core) : Core := x.setSr rd.toNat ret
    let jump (x : Core) (t : BitVec 48) : Core := { x with slot := some ⟨pc, some t⟩, pc := pc + 8 }
    Completes (.b c g off) s (s.dev.updCore c fun x => jump x rel) ∧
    Completes (.br c g ra) s (s.dev.updCore c fun x => jump x abs) ∧
    (∃ d, Completes (.bl c g rd off long) s d ∧ d.core c = jump (link (s.dev.core c)) rel) ∧
    (rd ≠ ra → ∃ d, Completes (.blr c g rd ra long) s d ∧ d.core c = jump (link (s.dev.core c)) abs) ∧
    Completes (.blr c g rd rd long) s (s.dev.seqFault c (mkWord 0 false 0x43 g (opSB rd rd 0)) 0 { cause := 0x01 }) ∧
    (∀ (d : Dev) (b t : BitVec 48), (d.core c).slot = some ⟨b, some t⟩ →
      ((d.retire c 8).core c).pc = t ∧ ((d.retire c 8).core c).slot = none) ∧
    (∀ (d : Dev) (b : BitVec 48), (d.core c).slot = some ⟨b, none⟩ →
      ((d.retire c 8).core c).pc = (d.core c).pc + 8 ∧ ((d.retire c 8).core c).slot = none)) ∧
  (∀ (s : State) (c : CoreNo) (g : Guard) (rd ra : BitVec 5) (lc : BitVec 2) (n : LoopCnt) (e : BitVec 25) (long : Bool),
    let x := s.dev.core c
    let cnt : Word := match n with | .reg ra => x.sr ra.toNat | .imm k => k.setWidth 64
    let last := x.pc + BitVec.ofNat 48 (8 * e.toNat)
    let w := mkWord 0 false 0x48 g (opSL lc n e)
    (TakesFlow s.dev c g →
      (4 ≤ x.loops.length → Completes (.loop c g lc n e long) s (s.dev.seqFault c w 0 { cause := 0x09 })) ∧
      (∀ l r, x.loops = l :: r → r.length < 3 → l.last ≤ last →
        Completes (.loop c g lc n e long) s (s.dev.seqFault c w 0 { cause := 0x08 })) ∧
      (x.loops.length < 4 → (∀ l r, x.loops = l :: r → last < l.last) →
        (cnt = 0 → ∃ d, Completes (.loop c g lc n e long) s d ∧
          d.core c = { x.setLc lc.toNat 0 with pc := last + (if long then 16 else 8) }) ∧
        (cnt ≠ 0 → ∃ d, Completes (.loop c g lc n e long) s d ∧
          d.core c = { x.setLc lc.toNat cnt with loops := ⟨lc.toNat, x.pc + 8, last⟩ :: x.loops, pc := x.pc + 8 }))) ∧
    (Takes s.dev c g →
      Completes (.mflc c g rd lc) s ((s.dev.updCore c fun x => x.setSr rd.toNat (x.lcr lc.toNat)).retire c 8) ∧
      Completes (.mtlc c g lc ra) s ((s.dev.updCore c fun x => x.setLc lc.toNat (x.sr ra.toNat)).retire c 8)) ∧
    (∀ l r, x.slot = none → x.loops = l :: r → l.last = x.pc →
      (x.lcr l.lc ≠ 1 → ((s.dev.retire c 8).core c) = { x.setLc l.lc (x.lcr l.lc - 1) with pc := l.first }) ∧
      (x.lcr l.lc = 1 → ((s.dev.retire c 8).core c) = { x.setLc l.lc 0 with pc := x.pc + 8, loops := r })))

/-! Modes, traps and stops (R63 to R73). -/

/-- setm and getm (R63): the sequencer's own mode fields are set at once and getm reads back what setm wrote; another engine's setm goes
through that engine's queue and takes effect when it reaches the head; an unlisted field is an OPERAND fault. nop changes nothing but
the address, or the queue it stands in.
Reading a record, stations and the end of a program (R43, R46, R64, R66, R327): mfx reads a word of an exception record; stcfg
writes ra to a FIFO station's ST_CFG and ststat reads its ST_STAT, ports being OPERAND faults; trap raises TRAP; halt ends the program,
and with a record VALID fails the core's part. -/
def Obligations.ModeFieldsAndSystemInstructions : Prop :=
  (∀ (s : State) (c : CoreNo) (g : Guard) (rd ra : BitVec 5) (e : EngNo) (fld : BitVec 6) (v : Word),
    (∀ x', Takes s.dev c g → Dev.modeSet (s.dev.core c) 0 fld.toNat ((s.dev.core c).sr ra.toNat) = some x' →
      Completes (.setm c (.seq g 0 fld (.reg ra))) s ((s.dev.setCore c x').retire c 8)) ∧
    (Takes s.dev c g → 2 ≤ fld.toNat →
      Completes (.setm c (.seq g 0 fld (.reg ra))) s
        (s.dev.seqFault c (mkWord 0 false 0x50 g (opSETM 0 fld (.reg ra))) 0 { cause := 0x02 })) ∧
    (∀ (q : QEntry) x', Executes s.dev c (e + 1) 0x50 q → wF q.word 40 40 = 0 →
      Dev.modeSet (s.dev.core c) (e + 1) (wF q.word 46 41) q.ra = some x' →
      Completes (.setm c (.eng e)) s ((s.dev.setCore c x').engDone c (e + 1) false)) ∧
    (∀ (x x' : Core) (k f : Nat), k < 4 → Dev.modeSet x k f v = some x' → Dev.modeGet x' k f = some v) ∧
    (∀ r, Takes s.dev c g → Dev.modeGet (s.dev.core c) (e + 1) fld.toNat = some r →
      Completes (.getm c g rd (BitVec.ofNat 2 (e + 1)) fld) s ((s.dev.updCore c fun x => x.setSr rd.toNat r).retire c 8)) ∧
    (Takes s.dev c g → Dev.modeGet (s.dev.core c) (e + 1) fld.toNat = none →
      Completes (.getm c g rd (BitVec.ofNat 2 (e + 1)) fld) s
        (s.dev.seqFault c (mkWord 0 false 0x51 g (rd.toNat * 2 ^ 44 + (e.val + 1) * 2 ^ 42 + fld.toNat * 2 ^ 36)) 0 { cause := 0x02 })) ∧
    (Takes s.dev c g → Completes (.nop c (some g) e) s (s.dev.retire c 8)) ∧
    (∀ q, Executes s.dev c (e + 1) 0 q → Completes (.nop c none e) s (s.dev.engDone c (e + 1) false))) ∧
  (∀ (s : State) (c : CoreNo) (g : Guard) (rd ra : BitVec 5) (e : BitVec 2) (w : BitVec 3) (n : BitVec 6) (code : BitVec 16),
    Takes s.dev c g →
    (w = 1 → Completes (.mfx c g rd e w) s ((s.dev.updCore c fun x =>
      x.setSr rd.toNat (BitVec.ofNat 64 (s.dev.rd (Reg.EXR_PC_VAL c e.toNat)))).retire c 8)) ∧
    Completes (.mfx c g rd e w) s ((s.dev.updCore c fun x =>
      x.setSr rd.toNat (BitVec.ofNat 64 (s.dev.exrWord c e.toNat w.toNat))).retire c 8) ∧
    (16 ≤ n.toNat → Completes (.stcfg c g n ra) s ((s.dev.stCfgWrite c n.toNat ((s.dev.core c).sr ra.toNat).toNat).retire c 8).watch) ∧
    (16 ≤ n.toNat → Completes (.ststat c g rd n) s ((s.dev.updCore c fun x =>
      x.setSr rd.toNat (BitVec.ofNat 64 (s.dev.stStat c n.toNat))).retire c 8)) ∧
    (n.toNat < 16 → Completes (.ststat c g rd n) s
      (s.dev.seqFault c (mkWord 0 false 0x61 g (rd.toNat * 2 ^ 44 + n.toNat * 2 ^ 38)) 0 { cause := 0x02 })) ∧
    Completes (.trap c g code) s (s.dev.seqFault c (mkWord 0 false 0x5B g code.toNat) 0 { cause := 0x0A }) ∧
    (s.dev.anyValid c = false → Completes (.halt c g) s (s.dev.updCore c fun x => { x with run := false, slot := none })) ∧
    (s.dev.anyValid c = true → Completes (.halt c g) s (s.dev.failStop c 0x05)))

/-- A scalar fault with traps enabled (R64, R65): the record is filled and VALID, INTRAP is set, TRET holds the faulting instruction's
address (its branch's in a delay slot, with DS), and the sequencer continues at TVEC.
The trap entry for an engine's record (R65) saves the address of the next instruction in TRET and continues at TVEC; rtx ends the
handler, continues at TRET, and enters again at once while a record is VALID; an rtx that names no engine clears no record (R66).
Resuming and stopping engines (R54, R66, R67, R73): a resume that names an engine with a VALID record clears that record, and with
its skip bit drops the faulting instruction; with no record VALID it has no effect. An engine asked to stop stops at its boundary
with its progress in EXR_PROG; one not asked goes on. -/
def Obligations.FaultsTrapsAndResumption : Prop :=
  (∀ (d : Dev) (c : CoreNo) (w ext : Word) (cause : BitVec 8), (d.core c).tvec ≠ 0 → d.inTrap c = false →
    d.coreOwner c = none →
    let t := d.seqFault c w ext { cause := cause.toNat }
    let pc := match (d.core c).slot with | some b => b.branchPc | none => (d.core c).pc
    t.rd (Reg.EXR_CAUSE_VALID c 0) = 1 ∧ t.rd (Reg.EXR_CAUSE_CAUSE c 0) = cause.toNat ∧ t.rd (Reg.EXR_PC_VAL c 0) = pc.toNat ∧
    t.rd (Reg.EXR_INSN_VAL c 0) = w.toNat ∧ t.rd (Reg.EXR_EXT_VAL c 0) = ext.toNat ∧
    t.rd (Reg.EXR_CAUSE_DS c 0) = b2n (d.core c).slot.isSome ∧ t.inTrap c = true ∧ t.rd (Reg.SQ_TRAP_TRET c) = pc.toNat ∧
    (t.core c).pc = (d.core c).tvec ∧ (t.core c).slot = none ∧
    (∀ r, (t.core c).sr r = (d.core c).sr r) ∧ t.hbm = d.hbm ∧ t.pool = d.pool) ∧
  (∀ (s : State) (c : CoreNo) (g : Guard),
    (s.dev.trapDue c = true → (s.dev.core c).e0.stopped = false → (s.dev.core c).obj = none → (s.dev.core c).loadWait = none →
      (s.dev.core c).e0.wait = none → (s.dev.core c).e0.releasing = none →
      ∃ d, Completes (.trapEntry c) s d ∧ d.inTrap c = true ∧ d.rd (Reg.SQ_TRAP_TRET c) = (s.dev.core c).pc.toNat ∧
        d.core c = { s.dev.core c with pc := (s.dev.core c).tvec, slot := none }) ∧
    (Takes s.dev c g → s.dev.anyValid c = false →
      ∃ d, Completes (.rtx c g 0 0 false) s d ∧ d.inTrap c = false ∧
        d.core c = { s.dev.core c with pc := BitVec.ofNat 48 (s.dev.rd (Reg.SQ_TRAP_TRET c)), slot := none }) ∧
    (Takes s.dev c g → s.dev.valid c 0 = false → s.dev.valid c 2 = true → (s.dev.core c).tvec ≠ 0 →
      ∃ d, Completes (.rtx c g 0 0 false) s d ∧ d.inTrap c = true ∧ d.valid c 2 = true ∧
        d.rd (Reg.SQ_TRAP_TRET c) = s.dev.rd (Reg.SQ_TRAP_TRET c) % 2 ^ 48 ∧ (d.core c).pc = (s.dev.core c).tvec)) ∧
  (∀ (s : State) (c : CoreNo) (res skp : BitVec 4) (e : Fin 4),
    (s.dev.anyValid c = false → Completes (.sqResume c res skp) s s.dev) ∧
    (∀ skip : Bool, s.dev.coreOwner c = none → s.dev.valid c 2 = true → s.dev.inTrap c = false → (s.dev.core c).faultStop = false →
      s.dev.partFailed c = false → (∀ k : Fin 4, (s.dev.eng c k).wait = none) →
      ∃ d, Completes (.sqResume c 4 (if skip then 4 else 0)) s d ∧ d.valid c 2 = false ∧
        (d.eng c 2).queue = if skip then (s.dev.eng c 2).queue.tail else (s.dev.eng c 2).queue) ∧
    (s.dev.coreOwner c = none → s.dev.stopAsked c = true → s.dev.atBoundary c e = true → (s.dev.eng c e).stopped = false →
      ∃ d : Dev, Completes (.engineStop c e) s (d.stoppedIrq c) ∧ (d.eng c e).stopped = true ∧
        d.rd (Reg.EXR_PROG_VAL c e) = (s.dev.progOf c e).2 % 2 ^ 64 ∧
        (∀ k : Fin 4, k ≠ e → d.eng c k = s.dev.eng c k)) ∧
    (s.dev.stopAsked c = false → Completes (.engineStop c e) s s.dev))

/-! The matrix array (R59, R76 to R99). -/

/-- An MMA (R22, R35, R59, R79): refused operands are an OPERAND fault before any pop; otherwise its stations are resolved once, the
pass begins, and tile pairs are broadcast to the next boundary; a pass under way goes on the same way. One pair popped at the
boundary's end leaves the pass in its check phase with the pair in the replay buffer. -/
def Obligations.MmaBeginsAndRunsPasses : Prop :=
  ∀ (s : State) (c : CoreNo) (q : QEntry), Executes s.dev c 1 0x01 q →
    ((s.dev.core c).mx.pass = none → s.dev.mmaPass c q = none →
      Completes (.mma c) s (s.dev.engFault c 1 { cause := 0x02 }).watch) ∧
    (∀ p a b, (s.dev.core c).mx.pass = none → s.dev.mmaPass c q = some p → p.drn = false →
      s.dev.resolveSt c true (fun n => n ≤ 2) p.a = .ok a → s.dev.resolveSt c true (fun n => n ≤ 2) p.b = .ok b →
      Completes (.mma c) s (((s.dev.begin c 1 [a, b]).updMx c fun m =>
        { m with pass := some { p with a := a, b := b, shadow := m.lad (p.slot / 8) } }).mmaRun c 4).watch) ∧
    (∀ p, (s.dev.core c).mx.pass = some p → p.phase = .broadcast → s.dev.canPop c p.a = false →
      Completes (.mma c) s (s.dev.stallOn c 1 p.a false).watch) ∧
    (∀ p fa fb, (s.dev.core c).mx.pass = some p → p.phase = .broadcast → p.a ≠ p.b →
      fmtOf p.fa = some fa → fmtOf p.fb = some fb → s.dev.fifoOn c p.a = true → s.dev.fifoOn c p.b = true →
      2 ≤ s.dev.occ c p.a → 2 ≤ s.dev.occ c p.b → s.dev.headLen c p.a = some fa.tileBytes → s.dev.headLen c p.b = some fb.tileBytes →
      (p.popped + 1) % 4 = 0 ∨ p.popped + 1 = p.k / 64 →
      ∃ d : Dev, Completes (.mma c) s d.watch ∧ d.occ c p.a + 1 = s.dev.occ c p.a ∧ d.occ c p.b + 1 = s.dev.occ c p.b ∧
        (d.core c).mx.pass = some { p with
          popped := p.popped + 1, phase := .check, replay := p.replay ++ [((s.dev.core c).tsRead (s.dev.slotAddr c p.a ((s.dev.core c).fifo p.a).head) fa.tileBytes,
            (s.dev.core c).tsRead (s.dev.slotAddr c p.b ((s.dev.core c).fifo p.b).head) fb.tileBytes)] } ∧
        (d.core c).mx.slots = (s.dev.core c).mx.slots)

/-- The ladder counts its chunks in binary (R81): after n of the at most 4,096 chunks of a pass, rung i is occupied exactly when bit i
of n is set, and the carry only after the 4,096th. -/
def Obligations.LadderCountsInBinary : Prop :=
  ∀ (tag : SlotTag) (wrap : Bool) (xs : List (List Cell)), xs.length ≤ 4096 → (∀ x ∈ xs, x.length = 4096) →
    ∀ i, i ≤ 12 →
      ((tabGet [] i (xs.foldl (fun l x => ladEnter tag wrap 12 0 x l) [])).isEmpty = false ↔ bit xs.length i = true)

/-- The checks of a segment, a collapse and a drain (R82, R85, R92 to R95): clean ends the phase: the segment's replay buffer empties
and its shadow is taken, the ladder collapses into the slot and is left empty, the slot is drained in its own format. A mismatch counts
and repeats the phase from the unchanged ladder or slot; the third in a row is persistent, stops the engine and records the error.
mdrain, mpre and mtrans (R59, R85, R88, R89): mdrain converts a slot to the format it names and pushes it; mpre pops a tile into a
slot, each element widened, and gives the slot its tag; mtrans pops a tile and pushes its transpose. Formats they do not take are
OPERAND faults.
Accumulators are readable only in debug mode (R99): there MX_ACCDATA_n gives two elements of the selected row; elsewhere it reads
zero and sets ACCDENY, and shows nothing of the array. -/
def Obligations.MatrixChecksDrainsAndDebug : Prop :=
  (∀ (s : State) (c : CoreNo) (q : QEntry) (p : Pass) (row col : BitVec 6) (kind : BitVec 3) (lv : Bool),
    Executes s.dev c 1 0x01 q → (s.dev.core c).mx.pass = some p →
    (p.phase = .check →
      (∃ d, Completes (.mmaSegmentEnd c .clean) s d ∧ (d.core c).mx.chk = .try0 ∧
        (d.core c).mx.pass = some { p with
          replay := [], shadow := (s.dev.core c).mx.lad (p.slot / 8), phase := if p.popped = p.k / 64 then .collapse else .broadcast }) ∧
      ((s.dev.core c).mx.chk = .try0 →
        Completes (.mmaSegmentEnd c (.mismatch row col kind lv)) s
          ((((s.dev.incSat (Reg.MX_CHKCNT_MISMATCH c) 1).incSat (Reg.MX_CHKCNT_RETRY c) 1).updMx c
            fun m => { m with chk := .try1 }).replaySegment c)) ∧
      ((s.dev.core c).mx.chk = .try2 →
        Completes (.mmaSegmentEnd c (.mismatch row col kind lv)) s (s.dev.mxPersist c row col kind lv))) ∧
    (p.phase = .collapse → p.drn = false →
      ∃ d, Completes (.collapse c .clean) s d ∧ (d.core c).mx.pass = none ∧ (d.core c).mx.lad (p.slot / 8) = [] ∧
        (d.core c).mx.tag p.slot = p.tag ∧ (d.eng c 1).queue = (s.dev.eng c 1).queue.tail ∧
        (Dev.collapsed (s.dev.core c).mx p ≠ [] → (d.core c).mx.slot p.slot = Dev.collapsed (s.dev.core c).mx p)) ∧
    (p.phase = .collapse → (s.dev.core c).mx.chk = .try1 →
      ∃ d, Completes (.collapse c (.mismatch row col kind lv)) s d ∧ (d.core c).mx.chk = .try2 ∧
        (d.core c).mx.pass = some p ∧ (d.core c).mx.slots = (s.dev.core c).mx.slots) ∧
    (∀ f, p.phase = .drain → p.fuse = 0 → fmtOf p.tag.code = some f → s.dev.canPush c p.out = true →
      s.dev.tooBig c p.out f.tileBytes = false →
      let d := s.dev.updMx c fun m => { m with chk := .try0 }
      let r := drainTile ((s.dev.core c).mx.tag p.slot) (tabGet false p.slot (s.dev.core c).mx.slotWrap) f (s.dev.rndOf c 1)
        (s.dev.eng c 1).e4m3nan ((s.dev.core c).mx.slot p.slot)
      Completes (.drain c .clean) s
        ((((d.gaugeCount c 1 r.2).push c p.out p.tag.code r.1 (Dev.marks r.2)).updMx c fun m => { m with pass := none }).engDone c 1 false).watch)) ∧
  (∀ (s : State) (c : CoreNo) (q : QEntry) (n o : Nat) (f : Fmt),
    (Executes s.dev c 1 0x02 q → (s.dev.eng c 1).begun = false →
      (drainFmts ((s.dev.core c).mx.tag (wF q.word 36 33))).contains (wF q.word 32 28) = false →
      Completes (.mdrain c .clean) s (s.dev.engFault c 1 { cause := 0x02 }).watch) ∧
    (Executes s.dev c 1 0x02 q → (s.dev.eng c 1).begun = false →
      (drainFmts ((s.dev.core c).mx.tag (wF q.word 36 33))).contains (wF q.word 32 28) = true →
      wF q.word 18 17 = 0 → fmtOf (wF q.word 32 28) = some f →
      s.dev.resolveSt c false (fun n => n = 3) (wF q.word 48 43) = .ok n → s.dev.canPush c n = true →
      s.dev.tooBig c n f.tileBytes = false →
      let d := (s.dev.begin c 1 [n]).updMx c fun m => { m with chk := .try0 }
      let r := drainTile ((s.dev.core c).mx.tag (wF q.word 36 33)) (tabGet false (wF q.word 36 33) (s.dev.core c).mx.slotWrap) f
        (d.rndOf c 1) (s.dev.eng c 1).e4m3nan ((s.dev.core c).mx.slot (wF q.word 36 33))
      (s.dev.core c).mx.chk ≠ .persistent →
      ∃ stoch, Completes (.mdrain c .clean) s
        (((d.gaugeCount c 1 r.2).push c n (wF q.word 32 28) r.1 (Dev.marks r.2)).engDone c 1 stoch).watch) ∧
    (∀ t, Executes s.dev c 1 0x03 q → (s.dev.eng c 1).begun = false → Dev.mpreTag (wF q.word 32 28) = some t → fmtOf (wF q.word 32 28) = some f →
      s.dev.resolveSt c true (fun n => n = 2) (wF q.word 48 43) = .ok n → s.dev.fifoOn c n = true → 2 ≤ s.dev.occ c n →
      s.dev.headLen c n = some f.tileBytes →
      ∃ d : Dev, Completes (.mpre c) s d.watch ∧ d.occ c n + 1 = s.dev.occ c n ∧
        (d.core c).mx.tag (wF q.word 36 33) = t ∧
        (d.core c).mx.slot (wF q.word 36 33) = (List.range 4096).map fun i =>
          (Dev.mpreCell (wF q.word 32 28) (elemAt f.bits ((s.dev.core c).tsRead (s.dev.slotAddr c n ((s.dev.core c).fifo n).head) f.tileBytes) i), false)) ∧
    (Executes s.dev c 1 0x03 q → Dev.mpreTag (wF q.word 32 28) = none →
      Completes (.mpre c) s (s.dev.engFault c 1 { cause := 0x02 }).watch) ∧
    (Executes s.dev c 1 0x04 q → fmtOf (wF q.word 32 28) = some f → f.scaleBytes ≠ 0 →
      Completes (.mtrans c) s (s.dev.engFault c 1 { cause := 0x02 }).watch) ∧
    (Executes s.dev c 1 0x04 q → (s.dev.eng c 1).begun = false → fmtOf (wF q.word 32 28) = some f → f.scaleBytes = 0 → n ≠ o →
      s.dev.resolveSt c true (fun n => n ≤ 2) (wF q.word 48 43) = .ok n →
      s.dev.resolveSt c false (fun n => n = 3) (wF q.word 42 37) = .ok o →
      s.dev.canPush c o = true → s.dev.tooBig c o f.tileBytes = false → s.dev.fifoOn c n = true → 2 ≤ s.dev.occ c n →
      s.dev.headLen c n = some f.tileBytes →
      let d := s.dev.begin c 1 [n, o]
      Completes (.mtrans c) s (((d.pop c n).2.push c o (wF q.word 32 28) (Dev.transposed f
        ((s.dev.core c).tsRead (s.dev.slotAddr c n ((s.dev.core c).fifo n).head) f.tileBytes)) false).engDone c 1 false).watch)) ∧
  (∀ (s : State) (r : Requester) (c : CoreNo) (n : Fin 32),
    ((s.dev.core c).inDebug = true →
      Completes (.accumulatorRead r c n) s (s.dev.emit (.read r.num (BitVec.ofNat 64 (s.dev.accData c n))))) ∧
    ((s.dev.core c).inDebug = false →
      Completes (.accumulatorRead r c n) s ((s.dev.setF (Reg.MX_STAT_ACCDENY c)).emit (.read r.num 0))) ∧
    ((s.dev.core c).mx.tag (s.dev.rd (Reg.MX_ACCSEL_SLOT c)) = .i32 → s.dev.rd (Reg.MX_ACCSEL_SRC c) = 0 →
      let l := (s.dev.core c).mx.slot (s.dev.rd (Reg.MX_ACCSEL_SLOT c))
      let row := s.dev.rd (Reg.MX_ACCSEL_ROW c)
      s.dev.accData c n = (l.getD (64 * row + 2 * n) (0, false)).1.toNat + 2 ^ 32 * (l.getD (64 * row + (2 * n + 1)) (0, false)).1.toNat))

/-! The vector engine and the special function unit (R60, R129 to R148). -/

/-- Lane arithmetic (R60, R129 to R132): vd := va op vb in the active lanes, FP32, signed or unsigned by T; vfma adds to the old lane;
shifts take the low five bits, and vshr is arithmetic for signed lanes and an OPERAND fault for FP32 ones.
Compare, select, broadcast, convert and reduce (R60, R130, R133, R136): vcmp writes 1 or 0 by the condition; vsel takes va where the
mask is nonzero and vb elsewhere; vbcast writes ra[31:0] as captured at dispatch; a reduction puts each half's balanced-tree result
into every active lane of that half; an integer vcvt keeps the exact value where it fits. -/
def Obligations.LaneOperations : Prop :=
  (∀ (s : State) (c : CoreNo) (op : Nat) (q : QEntry), Executes s.dev c 2 op q → wF q.word 33 32 ≠ 3 →
    let t := wF q.word 33 32
    (op = 0x01 → LaneOp (.vadd c) s c q fun a b _ => if t = 0 then fAdd a b else a + b) ∧
    (op = 0x02 → LaneOp (.vsub c) s c q fun a b _ => if t = 0 then fSub a b else a - b) ∧
    (op = 0x03 → LaneOp (.vmul c) s c q fun a b _ => if t = 0 then fMul a b else a * b) ∧
    (op = 0x04 → LaneOp (.vfma c) s c q fun a b o => if t = 0 then fFma o a b else o + a * b) ∧
    (op = 0x05 → LaneOp (.vmin c) s c q fun a b _ =>
      if t = 0 then fMin a b else if t = 1 then (if a.toInt ≤ b.toInt then a else b) else if a.toNat ≤ b.toNat then a else b) ∧
    (op = 0x06 → LaneOp (.vmax c) s c q fun a b _ =>
      if t = 0 then fMax a b else if t = 1 then (if a.toInt < b.toInt then b else a) else if a.toNat < b.toNat then b else a) ∧
    (op = 0x07 → LaneOp (.vand c) s c q fun a b _ => a &&& b) ∧
    (op = 0x08 → LaneOp (.vor c) s c q fun a b _ => a ||| b) ∧
    (op = 0x09 → LaneOp (.vxor c) s c q fun a b _ => a ^^^ b) ∧
    (op = 0x0A → LaneOp (.vshl c) s c q fun a b _ => a <<< (b.toNat % 32)) ∧
    (op = 0x0B → t ≠ 0 → LaneOp (.vshr c) s c q fun a b _ =>
      if t = 1 then a.sshiftRight (b.toNat % 32) else a >>> (b.toNat % 32)) ∧
    (op = 0x0B → t = 0 → Completes (.vshr c) s (s.dev.engFault c 2 { cause := 0x02 }))) ∧
  (∀ (s : State) (c : CoreNo) (q : QEntry),
    let x := s.dev.core c
    let va := fun k => x.lane (wF q.word 43 39) k
    let vb := fun k => x.lane (wF q.word 38 34) k
    let t := wF q.word 33 32
    (Executes s.dev c 2 0x10 q → t = 1 → wF q.word 25 23 = 2 →
      LaneOp (.vcmp c) s c q fun a b _ => if a.toInt < b.toInt then 1 else 0) ∧
    (Executes s.dev c 2 0x10 q → t ≠ 3 → wF q.word 25 23 ≤ 5 →
      LaneOp (.vcmp c) s c q fun a b _ => if laneCmp (wF q.word 25 23) t a b = some true then 1 else 0) ∧
    (Executes s.dev c 2 0x10 q → 5 < wF q.word 25 23 → Completes (.vcmp c) s (s.dev.engFault c 2 { cause := 0x02 })) ∧
    (Executes s.dev c 2 0x11 q → wF q.word 26 26 = 1 → SetsLanes (.vsel c) s c (wF q.word 48 44) (fun _ => true) fun k =>
      if x.lane (wF q.word 31 27) k ≠ 0 then va k else vb k) ∧
    (Executes s.dev c 2 0x11 q → wF q.word 26 26 = 0 → Completes (.vsel c) s (s.dev.engFault c 2 { cause := 0x02 })) ∧
    (Executes s.dev c 2 0x12 q → SetsLanes (.vbcast c) s c (wF q.word 48 44) (actV s.dev c q) fun _ => q.ra.setWidth 32) ∧
    (Executes s.dev c 2 0x30 q → t ≠ 3 → SetsLanes (.vredsum c) s c (wF q.word 48 44) (actV s.dev c q) fun k =>
      tree64 (fun a b => if t = 0 then fAdd a b else a + b) 0
        ((List.range 64).map fun j => if actV s.dev c q (64 * (k / 64) + j) then va (64 * (k / 64) + j) else 0)) ∧
    (Executes s.dev c 2 0x31 q → t = 0 → SetsLanes (.vredmax c) s c (wF q.word 48 44) (actV s.dev c q) fun k =>
      tree64 fMax 0xFF800000
        ((List.range 64).map fun j => if actV s.dev c q (64 * (k / 64) + j) then va (64 * (k / 64) + j) else 0xFF800000)) ∧
    (∀ fi fo, Executes s.dev c 2 0x18 q → cvtFmt (wF q.word 22 18) = true → cvtFmt (wF q.word 17 13) = true → fmtOf (wF q.word 22 18) = some fi → fmtOf (wF q.word 17 13) = some fo →
      ∃ d, Completes (.vcvt c) s d ∧ (d.eng c 2).queue = (s.dev.eng c 2).queue.tail ∧ d.hbm = s.dev.hbm ∧
        (∀ k, k < 128 → (d.core c).lane (wF q.word 48 44) k = if actV s.dev c q k then
          BitVec.ofNat 32 (encodePlain fo (s.dev.rndOf c 2 k) x.e2.e4m3nan (plainVal fi ((va k).toNat % 2 ^ fi.bits))).1
          else x.lane (wF q.word 48 44) k)))

/-- Vector loads and stores (R60, R132): 512 bytes of the tile store at ra plus the signed offset, lane k at byte 4k; an unlisted space is
an OPERAND fault and a misaligned address an ALIGN fault, before any lane or byte is written. In every space and under a mask, lanes
are loaded from, and stored to, the runs that R132 names.
Gather and scatter (R137 to R139): the active lanes from VSTART upward, in lane order; when all complete VSTART returns to 0 and the
instruction is done. A lane that faults leaves every lane before it done, sets VSTART to it, and is the record's progress. -/
def Obligations.VectorMemoryAccess : Prop :=
  (∀ (s : State) (c : CoreNo) (q : QEntry) (ue : Bool),
    let a := (q.ra + sext 19 (wF q.word 38 20)).toNat
    let spc := wF q.word 13 12
    (Executes s.dev c 2 0x20 q → spc = 0 → a % 4 = 0 → a + 512 ≤ 0x800000 → wF q.word 14 14 = 0 →
      SetsLanes (.vld c ue) s c (wF q.word 48 44) (fun _ => true) fun k =>
        BitVec.ofNat 32 (leNat ((s.dev.core c).tsRead (a + 4 * k) 4))) ∧
    (∀ l d, Executes s.dev c 2 0x20 q → spc ≠ 3 → a % 4 = 0 → Dev.laneReads c spc ue (s.dev.vmRuns c q) s.dev = (l, .ok d) →
      ∃ d', Completes (.vld c ue) s d' ∧ (d'.eng c 2).queue = (d.eng c 2).queue.tail ∧ d'.hbm = d.hbm) ∧
    (Executes s.dev c 2 0x21 q → spc = 0 → a % 4 = 0 → a + 512 ≤ 0x800000 → wF q.word 14 14 = 0 →
      Completes (.vst c) s ((s.dev.tileWrite c a ((List.range 128).flatMap fun k =>
        leBytes 4 ((s.dev.core c).lane (wF q.word 48 44) k).toNat)).engDone c 2 false)) ∧
    (∀ d, Executes s.dev c 2 0x21 q → spc ≠ 3 → a % 4 = 0 →
      Dev.laneWrites c spc s.dev ((s.dev.vmRuns c q).map fun (i, a, n) =>
        (i, a, (List.range (n / 4)).flatMap fun k => leBytes 4 ((s.dev.core c).lane (wF q.word 48 44) (i + k)).toNat)) s.dev = .ok d →
      Completes (.vst c) s (d.engDone c 2 false)) ∧
    (Executes s.dev c 2 0x20 q → spc = 3 → Completes (.vld c ue) s (s.dev.engFault c 2 { cause := 0x02 })) ∧
    (Executes s.dev c 2 0x21 q → spc ≠ 3 → a % 4 ≠ 0 →
      Completes (.vst c) s (s.dev.engFault c 2 { cause := 0x03, addr := a, aspace := spc }))) ∧
  (∀ (s : State) (c : CoreNo) (q : QEntry) (ue : Bool),
    let go := (s.dev.gsSplit c q).1
    let bad := (s.dev.gsSplit c q).2
    let spc := wF q.word 13 12
    let rd := go.map fun i => (i, s.dev.laneAddr c q i, 4)
    let wr := go.map fun i => (i, s.dev.laneAddr c q i, leBytes 4 ((s.dev.core c).lane (wF q.word 48 44) i).toNat)
    (∀ l d, Executes s.dev c 2 0x22 q → spc ≠ 3 → wF q.word 48 44 ≠ wF q.word 11 7 → bad = none →
      Dev.laneReads c spc ue rd s.dev = (l, .ok d) →
      Completes (.vgather c ue) s (((d.gatherPut c q l).updEng c 2 fun g => { g with vstart := 0 }).engDone c 2 false)) ∧
    (∀ d, Executes s.dev c 2 0x23 q → spc ≠ 3 → bad = none → Dev.laneWrites c spc s.dev wr s.dev = .ok d →
      Completes (.vscatter c) s ((d.updEng c 2 fun g => { g with vstart := 0 }).engDone c 2 false)) ∧
    (∀ i d, Executes s.dev c 2 0x23 q → spc ≠ 3 → bad = some i → Dev.laneWrites c spc s.dev wr s.dev = .ok d →
      Completes (.vscatter c) s (d.laneFault c i (s.dev.eng c 2).vstart
        { cause := 0x03, addr := s.dev.laneAddr c q i, aspace := spc })) ∧
    (Executes s.dev c 2 0x22 q → wF q.word 48 44 = wF q.word 11 7 →
      Completes (.vgather c ue) s (s.dev.engFault c 2 { cause := 0x02 })) ∧
    (∀ i, bad = some i → s.dev.laneAddr c q i % 4 ≠ 0 ∧ (s.dev.eng c 2).vstart ≤ i ∧
      ∀ k ∈ go, k < i ∧ s.dev.laneAddr c q k % 4 = 0))

/-- Tiles of the vector engine (R60, R134, R135): vtrd of a station with an open tile of the same format reads 128 elements widened into
vd; vtwr narrows the active lanes into its open output tile; vtclose drops the open input tile and pushes nothing; vtpush pushes exactly
what the open output tile holds and closes it. -/
def Obligations.VectorTileAccess : Prop :=
  ∀ (s : State) (c : CoreNo) (q : QEntry) (t : OpenTile) (f : Fmt),
    let x := s.dev.core c
    (Executes s.dev c 2 0x28 q → fmtOf (wF q.word 31 27) = some f → wF q.word 37 32 % 2 = 0 →
      Dev.openAt (wF q.word 43 38) x.vx.ins = some t → t.fmt = wF q.word 31 27 →
      ∃ d : Dev, Completes (.vtrd c) s d.watch ∧ (d.core c).vx.ins = x.vx.ins ∧
        ∀ k, k < 128 → (d.core c).lane (wF q.word 48 44) k =
          if s.dev.active c (wF q.word 26 22) (wF q.word 21 21 = 1) k then widen f (t.elems ++ t.scales) (64 * wF q.word 37 32 + k)
          else x.lane (wF q.word 48 44) k) ∧
    (∀ n, Executes s.dev c 2 0x28 q → (s.dev.eng c 2).begun = false → fmtOf (wF q.word 31 27) = some f → wF q.word 37 32 % 2 = 0 →
      Dev.openAt (wF q.word 43 38) x.vx.ins = none → x.vx.ins.length < 4 →
      s.dev.resolveSt c true (fun n => n = 4 || n = 5) (wF q.word 43 38) = .ok n → Dev.openAt n x.vx.ins = none →
      s.dev.fifoOn c n = true → 2 ≤ s.dev.occ c n → s.dev.headLen c n = some f.tileBytes →
      ∃ d : Dev, Completes (.vtrd c) s d.watch ∧ d.occ c n + 1 = s.dev.occ c n ∧
        ∃ m, (d.core c).vx.ins = x.vx.ins ++ [⟨wF q.word 43 38, n, wF q.word 31 27,
          (oldest s.dev c n f.tileBytes).take (512 * f.bits), (oldest s.dev c n f.tileBytes).drop (512 * f.bits), m⟩]) ∧
    (Executes s.dev c 2 0x29 q → fmtOf (wF q.word 31 27) = some f → wF q.word 37 32 % 2 = 0 →
      Dev.openAt (wF q.word 43 38) x.vx.outs = some t → t.fmt = wF q.word 31 27 →
      Completes (.vtwr c) s (s.dev.vtwrRows c q f t)) ∧
    (∀ n, Executes s.dev c 2 0x29 q → fmtOf (wF q.word 31 27) = some f → wF q.word 37 32 % 2 = 0 →
      Dev.openAt (wF q.word 43 38) x.vx.outs = none → x.vx.outs.length < 2 →
      s.dev.resolveSt c false (fun n => n = 6) (wF q.word 43 38) = .ok n → Dev.openAt n x.vx.outs = none →
      let z : OpenTile := ⟨wF q.word 43 38, n, wF q.word 31 27, List.replicate (512 * f.bits) 0, List.replicate f.scaleBytes 0, false⟩
      Completes (.vtwr c) s ((s.dev.updVx c fun v => { v with outs := v.outs ++ [z] }).vtwrRows c q f z)) ∧
    (Executes s.dev c 2 0x2A q → Dev.openAt (wF q.word 43 38) x.vx.ins = some t →
      Completes (.vtclose c) s ((s.dev.updVx c fun v => { v with ins := v.ins.filter fun u => u.fifo ≠ t.fifo }).engDone c 2 false)) ∧
    (Executes s.dev c 2 0x2B q → (s.dev.eng c 2).begun = false → Dev.openAt (wF q.word 43 38) x.vx.outs = some t → t.fmt = wF q.word 31 27 →
      s.dev.canPush c t.fifo = true → s.dev.tooBig c t.fifo (t.elems.length + t.scales.length) = false →
      Completes (.vtpush c) s ((((s.dev.begin c 2 [t.fifo]).push c t.fifo t.fmt (t.elems ++ t.scales) t.marked).updVx c fun v =>
        { v with outs := v.outs.filter fun u => u.fifo ≠ t.fifo }).engDone c 2 false).watch)

/-- The elementary and loaded functions (R140, R141, R144): vd := FN of va, or of va and vb, in the active lanes; the reciprocal is the
correctly rounded one and a NaN operand gives the quiet NaN. The tile form applies FN to 4,096 elements and pushes the narrowed tile.
An FN with no function is an OPERAND fault.
Softmax contexts (R145, Table VX-4), context k of four: smx.init starts every row at m = -infinity, l = 0, k = 1; smx.max raises each
row's maximum and rescales its sum; smx.exp pushes exp(x - m) and adds each row's sum to l; smx.rescale multiplies rows by k;
smx.norm divides rows by l, a row with l = +0 giving zeros that are counted.
Normalisation contexts (R146, Table VX-5), context k of four: nrm.init clears the sums; nrm.acc adds a tile's shifted row sums and
squares and 64 to each count, the tile passing unchanged; nrm.accs first takes the first tile's row means as the shifts; nrm.fin gives
each row's mean and reciprocal deviation; nrm.apply pushes (x - mu) times rho. -/
def Obligations.SfuFunctionsAndContexts : Prop :=
  (∀ (s : State) (c : CoreNo) (q : QEntry) (n o : Nat) (fo : Fmt),
    let x := s.dev.core c
    let fn := Dev.sfFn q
    (Executes s.dev c 2 0x40 q → Dev.fnCtxVec fn = false → s.dev.fnPlain c fn = true → s.dev.fnCompat c fn = true →
      SetsLanes (.sfu c) s c (wF q.word 48 44) (actSF s.dev c q) fun k =>
        s.dev.sfuFn c fn (x.lane (wF q.word 43 39) k) (x.lane (wF q.word 38 34) k)) ∧
    (Executes s.dev c 2 0x40 q → Dev.fnCtxVec fn = false → s.dev.fnPlain c fn = false →
      Completes (.sfu c) s (s.dev.engFault c 2 { cause := 0x02 })) ∧
    (∀ a b, x.e2.compat = false → fIsNan a = false → s.dev.sfuFn c 0x04 a b = fRecip a) ∧
    (∀ f a b, x.e2.compat = false → f < 0x80 → f32 a = .nan → s.dev.sfuFn c f a b = 0x7FC00000) ∧
    (Executes s.dev c 2 0x41 q → Dev.fnCtxTile (Dev.stFn q) = false → s.dev.fnPlain c (Dev.stFn q) = true →
      s.dev.fnCompat c (Dev.stFn q) = true → TileRuns s.dev c q n o fo →
      Completes (.sfuT c) s (tileOut c q o fo ((tileIn s.dev c n).map fun a => s.dev.sfuFn c (Dev.stFn q) a 0)
        ((s.dev.begin c 2 [n, o]).pop c n).2).watch)) ∧
  (∀ (s : State) (c : CoreNo) (q : QEntry) (k n o : Nat) (fo : Fmt), k < 4 → (s.dev.core c).e2.compat = false →
    let x := s.dev.core c
    let d1 := ((s.dev.begin c 2 [n, o]).pop c n).2
    (Executes s.dev c 2 0x40 q → Dev.sfFn q = 0x20 + k →
      ∃ d, Completes (.smxInit c) s d ∧ (∀ r, r < 64 → d.smx c k r = ⟨0xFF800000, 0, 0x3F800000⟩) ∧
        (∀ j r, r < 64 → j ≠ k → d.smx c j r = s.dev.smx c j r) ∧ (∀ v i, (d.core c).lane v i = x.lane v i)) ∧
    (Executes s.dev c 2 0x40 q → Dev.sfFn q = 0x24 + k →
      ∃ d : Dev, Completes (.smxMax c) s d.watch ∧ ∀ r, r < 64 →
        let v := if actSF s.dev c q r then x.lane (wF q.word 43 39) r else 0xFF800000
        let m := fMax (s.dev.smx c k r).m v
        (d.smx c k r).m = m ∧
        (d.smx c k r).k = (if m = 0xFF800000 then 0x3F800000 else s.dev.sfuFn c 0x00 (fSub (s.dev.smx c k r).m m) 0) ∧
        (d.smx c k r).l = fMul (s.dev.smx c k r).l (d.smx c k r).k) ∧
    (Executes s.dev c 2 0x41 q → Dev.stFn q = 0x28 + k → TileRuns s.dev c q n o fo →
      let e := Dev.byRow (fun r v => if (d1.smx c k r).m = 0xFF800000 then 0 else d1.sfuFn c 0x00 (fSub v (d1.smx c k r).m) 0)
        (tileIn s.dev c n)
      Completes (.smxExp c) s (tileOut c q o fo e (d1.rows64 fun r d =>
        d.setSmx c k r { d.smx c k r with l := fAdd (d.smx c k r).l (tree64 fAdd 0 (Dev.rowOf e r)) })).watch) ∧
    (Executes s.dev c 2 0x41 q → Dev.stFn q = 0x2C + k → TileRuns s.dev c q n o fo →
      Completes (.smxRescale c) s (tileOut c q o fo (Dev.byRow (fun r v => fMul v (d1.smx c k r).k) (tileIn s.dev c n)) d1).watch) ∧
    (Executes s.dev c 2 0x41 q → Dev.stFn q = 0x30 + k → TileRuns s.dev c q n o fo →
      Completes (.smxNorm c) s (tileOut c q o fo
        (Dev.byRow (fun r v => if (d1.smx c k r).l = 0 then 0 else fMul v (fRecip (d1.smx c k r).l)) (tileIn s.dev c n))
        (d1.incSat (Reg.SFU_EVCNT_SMXZERO c) ((List.range 64).filter fun r => (d1.smx c k r).l = 0).length)).watch)) ∧
  (∀ (s : State) (c : CoreNo) (q : QEntry) (k n o : Nat) (fo : Fmt), k < 4 → (s.dev.core c).e2.compat = false →
    let d1 := ((s.dev.begin c 2 [n, o]).pop c n).2
    (Executes s.dev c 2 0x40 q → Dev.sfFn q = 0x40 + k →
      ∃ d, Completes (.nrmInit c) s d ∧ (∀ r, r < 64 → d.nrm c k r = NrmRow.reset) ∧
        (∀ j r, r < 64 → j ≠ k → d.nrm c j r = s.dev.nrm c j r)) ∧
    (Executes s.dev c 2 0x41 q → Dev.stFn q = 0x44 + k → TileRuns s.dev c q n o fo →
      Completes (.nrmAcc c) s (tileOut c q o fo (tileIn s.dev c n) (d1.nrmSums c k (tileIn s.dev c n))).watch) ∧
    (Executes s.dev c 2 0x41 q → Dev.stFn q = 0x48 + k → TileRuns s.dev c q n o fo → tabGet false k (d1.core c).vx.shiftTaken = true →
      Completes (.nrmAccs c) s (tileOut c q o fo (tileIn s.dev c n) (d1.nrmSums c k (tileIn s.dev c n))).watch) ∧
    (Executes s.dev c 2 0x40 q → Dev.sfFn q = 0x4C + k →
      ∃ d, Completes (.nrmFin c) s d ∧ ∀ r, r < 64 → (s.dev.nrm c k r).n = 0 →
        (d.nrm c k r).mu = (s.dev.nrm c k r).c ∧ (d.nrm c k r).n = 0 ∧ (d.nrm c k r).s = (s.dev.nrm c k r).s) ∧
    (Executes s.dev c 2 0x41 q → Dev.stFn q = 0x50 + k → TileRuns s.dev c q n o fo →
      Completes (.nrmApply c) s (tileOut c q o fo
        (Dev.byRow (fun r v => fMul (fSub v (d1.nrm c k r).mu) (d1.nrm c k r).rho) (tileIn s.dev c n)) d1).watch))

/-! The DMA engine and the spillway (R61, R175 to R190). -/

/-- dexec and dexecn (R61, R176): an address that is no multiple of 64 is ALIGN; otherwise the descriptor at it (the i-th of a dexecn
list at 64 times i beyond it) becomes the engine's job. While the engine has a job nothing is fetched.
dld and dst (R61, R184): a bad space or format is OPERAND and a bad address ALIGN; otherwise the one-tile transfer, through the
spillway with SPW = 1, begins once its station is resolved. -/
def Obligations.DescriptorsBeginTileTransfers : Prop :=
  (∀ (s : State) (c : CoreNo) (q : QEntry) (a i : Nat), (s.dev.core c).dm.job = none → (s.dev.core c).dm.descNo = i →
    (Executes s.dev c 3 0x01 q → a = (q.ra + sext 39 (wF q.word 38 0)).toNat →
      (a % 64 ≠ 0 → Completes (.dexec c) s (s.dev.dmaFault c { cause := cALIGN, addr := a })) ∧
      (a % 64 = 0 → i = 0 → a + 64 ≤ 0x800000 →
        Completes (.dexec c) s (s.dev.setJob c (Dev.jobOf (parseDesc ((s.dev.core c).tsRead a 64)) false)))) ∧
    (Executes s.dev c 3 0x02 q → a = (q.ra + sext 36 (wF q.word 35 0)).toNat →
      (a % 64 ≠ 0 → Completes (.dexecn c) s (s.dev.dmaFault c { cause := cALIGN, addr := a })) ∧
      (a % 64 = 0 → a + 64 * i + 64 ≤ 0x800000 →
        Completes (.dexecn c) s (s.dev.setJob c (Dev.jobOf (parseDesc ((s.dev.core c).tsRead (a + 64 * i) 64)) false))) ∧
      (a % 64 = 0 → 0x800000 < a + 64 * i + 64 → Completes (.dexecn c) s (s.dev.dmaFault c { cause := cOPERAND })))) ∧
  (∀ (s : State) (c : CoreNo) (q : QEntry) (f : Fmt) (load : Bool) (n : Nat),
    (s.dev.core c).dm.job = none → Executes s.dev c 3 (if load then 0x08 else 0x09) q →
    let i : Instr := if load then .dld c else .dst c
    let a := (q.ra + (if wLong q.word then q.ext else 0)).toNat
    let spc := wF q.word 32 31
    let spw := wF q.word 30 30 = 1
    (spc = 3 ∨ fmtOf (wF q.word 37 33) = none → Completes i s (s.dev.dmaFault c { cause := cOPERAND })) ∧
    (spc ≠ 3 → fmtOf (wF q.word 37 33) = some f → a % 4 ≠ 0 →
      Completes i s (s.dev.dmaFault c { cause := cALIGN, addr := a, aspace := spc })) ∧
    (spc ≠ 3 → fmtOf (wF q.word 37 33) = some f → a % 4 = 0 →
      load = false → s.dev.resolveSt c true (fun n => 12 ≤ n && n ≤ 15) (wF q.word 48 43) = .ok n →
      ∃ (d : Dev) (j : DmaJob), Completes i s d ∧ (d.core c).dm.job = some j ∧ j.checked = true ∧ j.rin = n ∧ j.nunits = 1 ∧
        j.desc.op = (if spw then 3 else 1) ∧ j.desc.dk = spc ∧ j.desc.dst = a ∧ j.total = f.tileBytes ∧ j.inflight = []) ∧
    (spc ≠ 3 → fmtOf (wF q.word 37 33) = some f → a % 4 = 0 → load = true →
      s.dev.resolveSt c false (fun n => 8 ≤ n && n ≤ 11) (wF q.word 48 43) = .ok n →
      ∃ (d : Dev) (j : DmaJob), Completes i s d ∧ (d.core c).dm.job = some j ∧ j.checked = true ∧ j.rout = n ∧ j.nunits = 1 ∧
        j.desc.op = (if spw then 4 else 1) ∧ j.desc.sk = spc ∧ j.desc.src = a ∧ j.total = f.tileBytes ∧ j.inflight = []))

/-- The checks before any unit (R176 to R178, R184). A descriptor with a nonzero unused field is OPERAND, and a source or destination
that is not 4-byte aligned is ALIGN, both before any effect. An admitted copy or fill between memories has one unit for every 4 KiB;
an admitted save or restore has one for every tile.
Units between memories (R178, R180): a unit issues once its addresses check and fewer than 16 are in flight; performed, its source
bytes (a fill's pattern, by address) stand at its destination and it leaves flight; a unit that fails marks its fragments failed.
With every unit resolved and none failed the descriptor completes: status block, then flag update, then the end of the job. -/
def Obligations.TransfersAreAdmittedAndRun : Prop :=
  (∀ (s : State) (c : CoreNo) (j : DmaJob) (f : Fmt) (a : Nat), s.dev.engReady c 3 = true → (s.dev.core c).dm.job = some j →
    j.checked = false → j.direct = false →
    let x := j.desc
    let begun (l : List Nat) (k : DmaJob) : Dev := (s.dev.begin c 3 l).setJob c { k with checked := true }
    (Dev.unusedOk x = false →
      (x.op = 1 → Completes (.copy c) s (s.dev.dmaFault c { cause := cOPERAND })) ∧
      (x.op = 2 → Completes (.fill c) s (s.dev.dmaFault c { cause := cOPERAND })) ∧
      (x.op = 3 → Completes (.spillSave c) s (s.dev.dmaFault c { cause := cOPERAND })) ∧
      (x.op = 4 → Completes (.spillRestore c) s (s.dev.dmaFault c { cause := cOPERAND }))) ∧
    (Dev.unusedOk x = true → x.csop ≠ 3 → x.rows ≠ 0 → x.cvt = false → x.sk ≤ 2 → x.dk ≤ 2 → x.rowlen % 4 = 0 →
      (x.dst % 4 ≠ 0 → (x.op = 1 → Completes (.copy c) s (s.dev.dmaFault c { cause := cALIGN, addr := x.dst, aspace := x.dk })) ∧
        (x.op = 2 → Completes (.fill c) s (s.dev.dmaFault c { cause := cALIGN, addr := x.dst, aspace := x.dk }))) ∧
      (Dev.sideBad x.dk x.dst x.dstride x.rowlen x.rows = none → (x.rows * x.rowlen + x.fragBytes - 1) / x.fragBytes ≤ 64 →
        (x.sten = true → x.staddr % 16 = 0) →
        let k : DmaJob := { j with
          total := x.rows * x.rowlen, drow := x.rowlen, nunits := (x.rows * x.rowlen + 4095) / 4096, rin := 0, rout := 0 }
        (x.op = 2 → Completes (.fill c) s (begun [] { k with loose := false })) ∧
        (x.op = 1 → Dev.sideBad x.sk x.src x.sstride x.rowlen x.rows = none →
          Completes (.copy c) s (begun [] { k with
            loose := x.sk = x.dk && x.src < x.dst + (x.rows - 1) * x.dstride + x.rowlen &&
              x.dst < x.src + (x.rows - 1) * x.sstride + x.rowlen })))) ∧
    (Dev.unusedOk x = true → x.csop ≠ 3 → x.rows = 1 → fmtOf x.fmt = some f → (x.sten = true → x.staddr % 16 = 0) →
      (x.op = 3 → x.dk ≤ 2 → x.sk = 3 →
        let t := min x.remote (x.rowlen * maxRecord x.fmt (saveMode x.fmt x.nsf))
        (t + x.fragBytes - 1) / x.fragBytes ≤ 64 → s.dev.resolveSt c true (fun n => 12 ≤ n && n ≤ 15) (x.src % 64) = .ok a →
        Completes (.spillSave c) s (begun [a] { j with total := t, drow := max 1 t, nunits := x.rowlen, rin := a, rout := 0 })) ∧
      (x.op = 4 → x.sk ≤ 2 → x.dk = 3 →
        let t := x.rowlen * f.tileBytes
        (t + x.fragBytes - 1) / x.fragBytes ≤ 64 → s.dev.resolveSt c false (fun n => 8 ≤ n && n ≤ 11) (x.dst % 64) = .ok a →
        Completes (.spillRestore c) s (begun [a] { j with total := t, drow := max 1 t, nunits := x.rowlen, rin := 0, rout := a })))) ∧
  (∀ (s : State) (c : CoreNo) (j : DmaJob) (u : DUnit) (idx : Nat) (ue : Bool), (s.dev.core c).dm.job = some j →
    (16 ≤ j.inflight.length → Completes (.dmaUnitIssue c ue) s s.dev.watch) ∧
    (j.checked = true → s.dev.engReady c 3 = true → s.dev.stopAsked c = false → j.inflight.length < 16 → j.next < j.nunits → j.desc.op ≤ 2 → j.desc.dk ≤ 2 →
      j.desc.sk ≤ 2 →
      let off := j.next * 4096
      let len := min 4096 (j.total - off)
      Dev.checkPieces s.dev c j.desc.dk .write (Dev.dstPieces j off len) = none →
      Dev.checkPieces s.dev c j.desc.sk .read (if j.desc.op = 2 then [] else Dev.srcPieces j off len) = none →
      Completes (.dmaUnitIssue c ue) s (s.dev.updJob c fun k => { k with
        next := k.next + 1, inflight := k.inflight ++ [⟨j.next, off, len, [], false, false⟩], off := k.off + len }).watch) ∧
    (j.inflight.find? (fun u => u.idx = idx) = some u → s.dev.valid c 3 = false → (s.dev.eng c 3).rwait = none →
      (s.dev.eng c 3).cow = none → u.sent = false → j.desc.sk ≤ 2 → j.desc.dk ≤ 2 → j.desc.cvt = false →
      let landed (d : Dev) : Dev := (d.updJob c fun j => { j with
        inflight := j.inflight.filter fun v => v.idx ≠ u.idx, done := j.done ++ [(u.idx, u.len)] }).watch
      (∀ d, j.desc.op = 2 → j.loose = false →
        Dev.writePieces c j.desc.dk (Dev.dstPieces j u.off u.len)
          ((Dev.dstPieces j u.off u.len).flatMap fun (a, n) => Dev.patBytes j.desc.src a n) s.dev = (.ok (), d) →
        Completes (.dmaUnitComplete c idx false ue) s (landed d)) ∧
      (∀ d d' b, j.desc.op = 1 → j.loose = false →
        Dev.readPieces c j.desc.sk ue (Dev.srcPieces j u.off u.len) s.dev = (.ok b, d) →
        Dev.writePieces c j.desc.dk (Dev.dstPieces j u.off u.len) b d = (.ok (), d') →
        Completes (.dmaUnitComplete c idx false ue) s (landed d')) ∧
      Completes (.dmaUnitComplete c idx true ue) s (landed (s.dev.fragFail c j u cPOISON j.desc.dk (j.desc.dst + u.off)))) ∧
    (j.checked = true → s.dev.engReady c 3 = true → j.inflight = [] → j.nunits ≤ j.next → j.failed = [] →
      (j.desc.sig = true → (s.dev.eng c 3).remote = []) →
      let d := (s.dev.incSat (Reg.DMA_FRAGCNT_FAILED c) 0).jrPoison (s.dev.coreCmd c) []
      let d := if j.desc.sten then d.tileWrite c j.desc.staddr (Dev.statusBlock j) else d
      let d := if j.desc.sig then d.flagUpdate c j.desc.cflag j.desc.csop j.desc.cval else d
      Completes (.descriptorComplete c) s (d.endJob c j.stoch).watch))

/-- What a save in MODE 0 codes, a restore decodes bit for bit (R186, R188): for every plain format it codes and every row of 64
elements, whatever follows the row in the record's body. -/
def Obligations.SpillwayRowsRestoreExactly : Prop :=
  ∀ (fmt e0 : Nat) (l : FLay) (xs : List Nat) (r : List Byte), codedLay fmt = some l → xs.length = 64 → (∀ x ∈ xs, x < 2 ^ l.width) →
    uncodeRow l ((codeRow l e0 xs).1 ++ r) = (xs, r)

/-! Flags, hall passes, roll calls and watchdogs (R149 to R174). -/

/-- signal, release and the updates that arrive (R62, R151, R152, R156, R158, R173). A local signal applies its operation to the flag at
once; SOP 3 and above is OPERAND. A release is performed once the engine's earlier remote writes are acknowledged. Updates over the
NoC, of a FLAG packet and by hand apply at the home in turn. An update sets, adds or subtracts modulo 2^64.
wait and acquire (R153, R154, R156): a test that is true completes at once, the subtracting one lowering its flag in the same step;
a false one stalls its engine in place until an update makes it true; a remote test is OPERAND. -/
def Obligations.FlagsAndTheirTests : Prop :=
  (∀ (s : State) (c : CoreNo) (g : Guard) (y : SyF) (e : Fin 3) (q : QEntry),
    let x := s.dev.core c
    (Takes s.dev c g → y.rem = false → y.sop.toNat ≤ 2 →
      Completes (.signal c (.seq g y)) s
        ((s.dev.flagUpdate c y.flag.toNat y.sop.toNat (x.sr y.ra.toNat).toNat).retire c 8).watch) ∧
    (Takes s.dev c g → 2 < y.sop.toNat →
      Completes (.signal c (.seq g y)) s (s.dev.seqFault c (mkWord 0 false 0x70 g (opSY y)) 0 { cause := cOPERAND }).watch) ∧
    (Executes s.dev c (e + 1) 0x70 q → wF q.word 32 32 = 0 → wF q.word 40 38 ≤ 2 →
      Completes (.signal c (.eng e)) s
        ((s.dev.flagUpdate c (wF q.word 48 41) (wF q.word 40 38) q.ra.toNat).engDone c (e + 1) false).watch) ∧
    (Takes s.dev c g → y.rem = false → y.sop.toNat ≤ 2 →
      Completes (.release c (.seq g y)) s (s.dev.updEng c 0 fun g => { g with
        releasing := some ⟨y.flag.toNat, y.sop.toNat, x.sr y.ra.toNat, none⟩ })) ∧
    (Executes s.dev c (e + 1) 0x72 q → wF q.word 32 32 = 0 → wF q.word 40 38 ≤ 2 →
      Completes (.release c (.eng e)) s (s.dev.updEng c (e + 1) fun g => { g with
        releasing := some ⟨wF q.word 48 41, wF q.word 40 38, q.ra, none⟩ })) ∧
    (∀ n sop v, (s.dev.eng c 0).releasing = some ⟨n, sop, v, none⟩ → (s.dev.eng c 0).remote = [] →
      Completes (.releasePerform c 0) s
        (((s.dev.flagUpdate c n sop v.toNat).updEng c 0 fun g => { g with releasing := none }).retire c 8).watch) ∧
    (∀ (k : Fin 4) r, (s.dev.eng c k).releasing = some r → r.remote = none → (s.dev.eng c k).remote ≠ [] →
      Completes (.releasePerform c k) s s.dev.watch) ∧
    (∀ k n sop v l, s.dev.nocFlags = (k, n, sop, v) :: l →
      Completes (.flag none) s (({ s.dev with nocFlags := l }).flagUpdate k n sop v).watch) ∧
    (∀ p k, p.ptype = ptFLAG → p.flg = true → NextPkt s.dev p →
      s.dev.deviceNo (s.dev.ctx p.dctx).part (byteField p.payload 0 1) = some k →
      Completes (.flag (some p)) s (((pktTaken p s.dev).flagUpdate k (byteField p.payload 1 1) (byteField p.payload 2 1)
        (byteField p.payload 8 8)).sendAck p.dctx).watch) ∧
    (∀ n v, Completes (.handUpdate c n v) s (s.dev.flagUpdate c n.toNat 0 v.toNat).watch) ∧
    (∀ f v : Word, flagOp 0 f.toNat v.toNat = v.toNat ∧ flagOp 1 f.toNat v.toNat = (f + v).toNat ∧
      flagOp 2 f.toNat v.toNat = (f - v).toNat)) ∧
  (∀ (s : State) (c : CoreNo) (g : Guard) (y : SyF) (q : QEntry) (acq : Bool),
    let i (a : SyncAt) : Instr := if acq then .acquire c a else .wait c a
    let op := if acq then 0x73 else 0x71
    let v := (s.dev.core c).sr y.ra.toNat
    let held (d : Dev) : Dev := d.updCore c fun x => { x with stallWord := mkWord 0 false op g (opSY y) }
    (Takes s.dev c g → y.rem = false → y.sop.toNat ≤ 2 → flagTest y.sop.toNat (s.dev.flagVal c y.flag.toNat) v.toNat = true →
      Completes (i (.seq g y)) s (((held s.dev).updEng c 0 fun g => { g with wait := none }).retire c 8)) ∧
    (Takes s.dev c g → y.rem = false → y.sop = 3 → v.toNat ≤ s.dev.flagVal c y.flag.toNat →
      Completes (i (.seq g y)) s ((((held s.dev).wr (Reg.SY_FLAG_VALUE c y.flag.toNat) ((s.dev.flagVal c y.flag.toNat + 2 ^ 64 - v.toNat) % 2 ^ 64)).updEng c 0
        fun g => { g with wait := none }).retire c 8)) ∧
    (Takes s.dev c g → y.rem = false → y.sop.toNat ≤ 3 → flagTest y.sop.toNat (s.dev.flagVal c y.flag.toNat) v.toNat = false →
      Completes (i (.seq g y)) s ((held s.dev).updEng c 0 fun g => { g with wait := some ⟨y.flag.toNat, y.sop.toNat, v⟩ })) ∧
    (Takes s.dev c g → y.rem = true ∨ 3 < y.sop.toNat →
      Completes (i (.seq g y)) s (s.dev.seqFault c (mkWord 0 false op g (opSY y)) 0 { cause := cOPERAND })) ∧
    (∀ e : Fin 3, Executes s.dev c (e + 1) op q → wF q.word 32 32 = 0 → wF q.word 40 38 ≤ 2 →
      flagTest (wF q.word 40 38) (s.dev.flagVal c (wF q.word 48 41)) q.ra.toNat = true →
      Completes (i (.eng e)) s ((s.dev.updEng c (e + 1) fun g => { g with wait := none }).engDone c (e + 1) false)) ∧
    (∀ (d : Dev) (e : Nat) (t : TestWait), 1 ≤ e → e < 4 → t.sop ≤ 2 → (d.eng c e).wait = some t → (d.eng c e).stopped = false →
      d.stopAsked c = false → d.valid c e = false → (∀ k, k < 4 → k ≠ e → (d.eng c k).wait = none) →
      ∀ sop u, u < 2 ^ 64 → flagTest t.sop (flagOp sop (d.flagVal c t.flag) u) t.v.toNat = true →
      ((d.flagUpdate c t.flag sop u).eng c e).wait = none ∧
      ((d.flagUpdate c t.flag sop u).eng c e).queue = (d.eng c e).queue.tail))

/-- Hall passes (R155, R162, R163, R174). A core that holds the pass gets RECURSIVE and changes nothing; a free or orphaned pass with no
waiter is taken at the core's epoch, with GRANTED or ORPHANED in rd; otherwise the core waits behind those before it. The first waiter
is served when the pass is free or orphaned. hp.rel frees the pass of its holder, and of any other pass is OPERAND. -/
def Obligations.HallPassesServeInOrder : Prop :=
  ∀ (s : State) (c : CoreNo) (g : Guard) (rd : BitVec 5) (n : BitVec 6),
    let p := s.dev.partOf c
    let h := s.dev.pass p n.toNat
    let mine := h.held = true ∧ s.dev.orphaned p h = false ∧ h.owner = s.dev.localNo p c
    let freed : HallPass := { h with held := false, owner := 0, epoch := 0, mark := false }
    (Takes s.dev c g → mine → Completes (.hpAcq c g rd n) s ((s.dev.updCore c fun x => x.setSr rd.toNat 2).retire c 8)) ∧
    (Takes s.dev c g → h.waiters = [] → h.held = false ∨ s.dev.orphaned p h = true →
      Completes (.hpAcq c g rd n) s (((s.dev.setPass p n.toNat { h with
        held := true, owner := s.dev.localNo p c, epoch := s.dev.epochOf c, mark := false }).updCore c fun x =>
          x.setSr rd.toNat (if h.held then 1 else 0)).retire c 8)) ∧
    (Takes s.dev c g → h.held = true → s.dev.orphaned p h = false → h.owner ≠ s.dev.localNo p c →
      ∃ d, Completes (.hpAcq c g rd n) s d ∧ d.pass p n.toNat = { h with waiters := h.waiters ++ [c.val] } ∧
        (d.core c).obj = some (.hallPass n.toNat rd.toNat) ∧ (d.core c).pc = (s.dev.core c).pc ∧ d.seqReady c = false) ∧
    (∀ (pn : PartNo) (m : Fin 64) (k r j : Nat) l, (s.dev.pass pn m).waiters = k :: l → k < 144 →
      (s.dev.core k).obj = some (.hallPass j r) →
      ((s.dev.pass pn m).held = false ∨ s.dev.orphaned pn (s.dev.pass pn m) = true →
        ∃ d, Completes (.hallPassGrant pn m) s d ∧
          d.pass pn m = ⟨true, s.dev.localNo pn k, s.dev.epochOf k, false, l⟩ ∧ (d.core k).obj = none ∧
          (r ≠ 0 → (d.core k).sr r = if (s.dev.pass pn m).held then 1 else 0)) ∧
      ((s.dev.pass pn m).held = true → s.dev.orphaned pn (s.dev.pass pn m) = false → Completes (.hallPassGrant pn m) s s.dev)) ∧
    (Takes s.dev c g → s.dev.coreWideReady c = true → mine →
      Completes (.hpRel c g n) s ((s.dev.setPass p n.toNat freed).retire c 8)) ∧
    (Takes s.dev c g → s.dev.coreWideReady c = true → ¬ mine →
      Completes (.hpRel c g n) s (s.dev.seqFault c (mkWord 0 false 0x75 g (n.toNat * 2 ^ 43)) 0 { cause := cOPERAND })) ∧
    (Takes s.dev c g → s.dev.coreWideReady c = false → Completes (.hpRel c g n) s s.dev) ∧
    (∀ m : Fin 64, (s.dev.pass p m).held = true →
      Completes (.hpFree c m) s (s.dev.setPass p m { s.dev.pass p m with held := false, owner := 0, epoch := 0, mark := false }) ∧
      ∃ d, Completes (.hpMarkOrphaned c m) s d ∧ d.orphaned p (d.pass p m) = true ∧ (d.pass p m).waiters = (s.dev.pass p m).waiters)

/-- Roll calls (R155, R166 to R168, R174). An arrival is held under the core's generation and sets ARRIVED; the home adds the arrivals
that reach it, discards those of another generation, and with the EXPECT-th advances GEN and clears COUNT; rc.wait completes at once
without an arrival or after its generation, and waits otherwise. The RC_CTL actions need the home core, but for ADVANCE_GEN.
Watchdogs (R170 to R172): a stalled engine at LIMIT is taken out of its wait, fires and faults with WATCHDOG; LIMIT 0 never fires. A
roll call that stalls at its home sets WDFIRED and is recorded with class 0x15, or fences its partition with class 0x14. -/
def Obligations.RollCallsAndWatchdogs : Prop :=
  (∀ (s : State) (c : CoreNo) (g : Guard) (n : BitVec 5) (m : Fin 32) (p : PartNo) (pkt : Pkt),
    let gen := s.dev.rcGen c n.toNat
    (Takes s.dev c g → s.dev.rcMember c n.toNat = false →
      Completes (.rcArr c g n) s (s.dev.seqFault c (mkWord 0 false 0x76 g (n.toNat * 2 ^ 44)) 0 { cause := cOPERAND }) ∧
      Completes (.rcWait c g n) s (s.dev.seqFault c (mkWord 0 false 0x77 g (n.toNat * 2 ^ 44)) 0 { cause := cOPERAND })) ∧
    (Takes s.dev c g → s.dev.rcMember c n.toNat = true → s.dev.coreWideReady c = true →
      Completes (.rcArr c g n) s ((((s.dev.rcHold (s.dev.partOf c) n.toNat 1 gen).setF (Reg.RC_STAT_ARRIVED c n.toNat)).updCore c fun x =>
        { x with rcRec := tabPut 0 n.toNat gen x.rcRec }).retire c 8)) ∧
    (Takes s.dev c g → s.dev.rcMember c n.toNat = true → s.dev.flag (Reg.RC_STAT_ARRIVED c n.toNat) = false →
      Completes (.rcWait c g n) s (s.dev.retire c 8)) ∧
    (Takes s.dev c g → s.dev.rcMember c n.toNat = true → s.dev.flag (Reg.RC_STAT_ARRIVED c n.toNat) = true →
      (gen ≠ tabGet 0 n.toNat (s.dev.core c).rcRec →
        Completes (.rcWait c g n) s ((s.dev.clrF (Reg.RC_STAT_ARRIVED c n.toNat)).retire c 8)) ∧
      (gen = tabGet 0 n.toNat (s.dev.core c).rcRec →
        ∃ d, Completes (.rcWait c g n) s d ∧ (d.core c).obj = some (.rollCall n.toNat) ∧ d.seqReady c = false)) ∧
    (∀ h, s.dev.rcCarrier p m = some c.val → s.dev.rd (Reg.RC_CFG_HDEV c m) = s.dev.myDev →
      s.dev.deviceNo p (s.dev.rd (Reg.RC_CFG_HCORE c m)) = some h →
      Completes (.arrivalForward p m) s ((s.dev.roll p m).held.foldl (fun (d : Dev) x => d.rcCount h m x.2 x.1) (s.dev.setRoll p m ⟨[]⟩))) ∧
    (∀ (d : Dev) (h k a : Nat),
      (a ≠ d.rcGen h m → d.rcCount h m k a = d) ∧
      (a = d.rcGen h m → d.rd (Reg.RC_STAT_COUNT h m) + k < d.rd (Reg.RC_CFG_EXPECT h m) →
        d.rcCount h m k a = d.wr (Reg.RC_STAT_COUNT h m) (d.rd (Reg.RC_STAT_COUNT h m) + k)) ∧
      (a = d.rcGen h m → d.rd (Reg.RC_CFG_EXPECT h m) ≤ d.rd (Reg.RC_STAT_COUNT h m) + k →
        (d.rcCount h m k a).rd (Reg.RC_STAT_COUNT h m) = 0 ∧ (d.rcCount h m k a).rcGen h m = (d.rcGen h m + 1) % 2 ^ 32)) ∧
    (pkt.ptype = ptRCARR → pkt.flg = true → NextPkt s.dev pkt →
      Completes (.rcarr pkt) s (((pktTaken pkt s.dev).rcHold (s.dev.ctx pkt.dctx).part (byteField pkt.payload 0 1 % 32)
        (byteField pkt.payload 4 4) (byteField pkt.payload 8 4)).sendAck pkt.dctx)) ∧
    (pkt.ptype = ptRCREL → pkt.flg = true → NextPkt s.dev pkt →
      Completes (.rcrel pkt) s (((pktTaken pkt s.dev).rcRelease (s.dev.ctx pkt.dctx).part (byteField pkt.payload 0 1 % 32)
        (byteField pkt.payload 8 4)).sendAck pkt.dctx)) ∧
    (s.dev.rcHome c m = true → Completes (.releaseNow c m) s (s.dev.rcFire c m false) ∧
      Completes (.countClear c m) s (s.dev.wr (Reg.RC_STAT_COUNT c m) 0)) ∧
    (s.dev.rcHome c m = false → Completes (.releaseNow c m) s (s.dev.hostErr (Reg.RC_CTL c)) ∧
      Completes (.countClear c m) s (s.dev.hostErr (Reg.RC_CTL c))) ∧
    (∃ d, Completes (.advanceGen c m) s d ∧ d.rcGen c m = (s.dev.rcGen c m + 1) % 2 ^ 32)) ∧
  (∀ (s : State) (c : CoreNo) (e : Fin 4) (n : Fin 32),
    (s.dev.rd (Reg.SY_WDCFG_LIMIT c) = 0 ∨ s.dev.stalling c e = false → Completes (.watchdog c e) s s.dev) ∧
    (s.dev.rd (Reg.SY_WDCFG_LIMIT c) ≠ 0 → s.dev.stalling c e = true → (s.dev.eng c e).stopped = false →
      s.dev.flag (Reg.SY_WDCFG_FENCE c) = false →
      let d := (s.dev.unstall c e).wr (Reg.SY_WDSTAT_FIRED c) (setBit ((s.dev.unstall c e).rd (Reg.SY_WDSTAT_FIRED c)) e true)
      let a : FArgs := { cause := cWATCHDOG, station := ((s.dev.eng c e).stall.map fun k => k % 64).getD 0 }
      (e = 0 → Completes (.watchdog c e) s (d.seqFault c (s.dev.core c).stallWord 0 a)) ∧
      (e ≠ 0 → s.dev.valid c e = false → Completes (.watchdog c e) s (d.engFault c e a))) ∧
    (s.dev.rcHome c n = true → s.dev.rd (Reg.RC_NET_WDLIM c n) ≠ 0 → s.dev.rd (Reg.RC_STAT_COUNT c n) ≠ 0 →
      let p := s.dev.partOf c
      let info := n + 2 ^ 5 * s.dev.rd (Reg.RC_CFG_HCORE c n)
      let extra := s.dev.rcGen c n + 2 ^ 32 * s.dev.rd (Reg.RC_STAT_COUNT c n)
      let d := s.dev.setF (Reg.RC_STAT_WDFIRED c n)
      (s.dev.flag (Reg.RC_NET_WDFENCE c n) = false →
        Completes (.rollCallWatchdog c n) s (d.err (48 + p) { cls := 0x15, part := some p, info := info, extra := extra })) ∧
      (s.dev.flag (Reg.RC_NET_WDFENCE c n) = true →
        Completes (.rollCallWatchdog c n) s (d.quietPart p 0x14 Dev.qMANUAL info extra))))

/-! Stacked memory (R191 to R212). -/

/-- The hash of R194 places no two sectors of the hashed space together, whatever the seed. -/
def Obligations.HashPlacesSectorsApart : Prop :=
  ∀ seed a b : Nat, a % 32 = 0 → b % 32 = 0 → a < 3 * 2 ^ 38 → b < 3 * 2 ^ 38 → placeOf seed a = placeOf seed b → a = b

/-- A controller's reads, writes and atomics (R199 to R204, R209, R337). A clean read answers the sector's bytes; a poisoned sector or a
stack that cannot be read answers POISON; an uncorrectable one is poisoned. A write changes exactly its bytes; a quiet partition's is
discarded and counted; an access to memory of another owner is counted and not performed. An atomic answers the old value and writes
the operation's result. A full merge entry retires without a read and its sector's poison ends; a partial one is poisoned when its read is uncorrectable. -/
def Obligations.HbmReadsWritesAndAtomics : Prop :=
  ∀ (s : State) (p : Option PartNo) (pn : PartNo) (req : BitVec 32) (pa : BitVec 40) (bytes : List Byte) (o : AtomOp) (wide : Bool)
    (v cmp : Word) (e : MergeEnt) (sec : BitVec 35),
    let x := pa.toNat / 32 * 32
    let own := s.dev.notOwned (p.map (·.val)) x = false
    let fresh := s.dev.merge.find? (fun m => m.sector = x / 32) = none
    let up := s.dev.stackUp (s.dev.stackOf x) = true
    let clear := tabGet false (x / 32) s.dev.hbmPoison = false
    (own → fresh → up → clear → ∃ d, Completes (.hbmRead p req pa .clean) s d ∧ d.hbm = s.dev.hbm ∧ d.hbmPoison = s.dev.hbmPoison ∧
      d.out = .mem req.toNat (some (tabGetList 0 x 32 s.dev.hbm)) :: s.dev.out) ∧
    (own → fresh → up → clear → ∀ f cls, (cls = .ce1 ∧ f = Reg.HBM_ECCCNT_CE1 (s.dev.stackOf x)) ∨
        (cls = .ce2 ∧ f = Reg.HBM_ECCCNT_CE2 (s.dev.stackOf x)) →
      ∃ d, Completes (.hbmRead p req pa cls) s d ∧ d.rd f = satAdd f.width (s.dev.rd f) 1 % 2 ^ f.width ∧
        d.out = .mem req.toNat (some (tabGetList 0 x 32 s.dev.hbm)) :: s.dev.out) ∧
    (own → up → ∃ d, Completes (.hbmRead p req pa .ue) s d ∧ tabGet false (x / 32) d.hbmPoison = true ∧
      d.out.head? = some (.mem req.toNat none) ∧ d.hbm = s.dev.hbm) ∧
    (own → fresh → up → tabGet false (x / 32) s.dev.hbmPoison = true →
      ∃ d, Completes (.hbmRead p req pa .clean) s d ∧ d.out = .mem req.toNat none :: s.dev.out ∧ d.hbm = s.dev.hbm) ∧
    (own → s.dev.stackUp (s.dev.stackOf x) = false → ∀ cls, Completes (.hbmRead p req pa cls) s (s.dev.emit (.mem req.toNat none))) ∧
    (s.dev.ownerOf x ≠ pn.val + 1 → ∀ cls, Completes (.hbmRead (some pn) req pa cls) s (s.dev.ownViol pn)) ∧
    (s.dev.ownerOf pa.toNat ≠ pn.val + 1 → Completes (.hbmWrite (some pn) req pa bytes) s (s.dev.ownViol pn) ∧
      (pa.toNat % o.width wide = 0 → ∀ ue, Completes (.nearMemoryAtomic pn req pa o wide v cmp ue) s (s.dev.ownViol pn))) ∧
    (s.dev.ownerOf pa.toNat = pn.val + 1 → s.dev.isQuiet pn = true →
      Completes (.hbmWrite (some pn) req pa bytes) s (s.dev.incSat (Reg.HBM_UECNT_QDROP (s.dev.stackOf pa.toNat)) 1)) ∧
    (s.dev.ownerOf pa.toNat = pn.val + 1 → s.dev.isQuiet pn = false → up → bytes.length ≤ 32 - pa.toNat % 32 →
      ∃ d, Completes (.hbmWrite (some pn) req pa bytes) s d ∧ ∀ a, tabGet 0 a d.hbm =
        if pa.toNat ≤ a ∧ a < pa.toNat + bytes.length then bytes.getD (a - pa.toNat) 0 else tabGet 0 a s.dev.hbm) ∧
    (pa.toNat % o.width wide = 0 → s.dev.ownerOf pa.toNat = pn.val + 1 → s.dev.isQuiet pn = false → fresh → up → clear →
      let w := o.width wide
      let old := leNat (tabGetList (0 : Byte) pa.toNat w s.dev.hbm)
      ∃ d, Completes (.nearMemoryAtomic pn req pa o wide v cmp false) s d ∧ d.out = .mem req.toNat (some (leBytes w old)) :: s.dev.out ∧
        tabGetList (0 : Byte) pa.toNat w d.hbm = leBytes w (o.apply w old (v.toNat % 2 ^ (8 * w)) (cmp.toNat % 2 ^ (8 * w))) ∧
        ∀ a, a < pa.toNat ∨ pa.toNat + w ≤ a → tabGet 0 a d.hbm = tabGet 0 a s.dev.hbm) ∧
    (s.dev.merge.find? (fun m => m.sector = sec.toNat) = some e →
      (e.mask = 2 ^ 32 - 1 → ∀ ue, Completes (.mergeEntryRetire sec ue) s { s.dev with
        merge := s.dev.merge.filter fun m => m.sector ≠ e.sector, hbmPoison := tabPut false e.sector false s.dev.hbmPoison }) ∧
      (e.mask < 2 ^ 32 - 1 → ∃ d, Completes (.mergeEntryRetire sec true) s d ∧ tabGet false e.sector d.hbmPoison = true ∧
        d.merge = s.dev.merge.filter fun m => m.sector ≠ e.sector))

/-- The controllers' upkeep (R196, R205, R207, Table HB-1): delayed refreshes are counted; a hot spot window latches its counts and starts
anew; a temperature at THROT_T throttles to level 7; a throttle step moves LEVEL down to 1 while hot and up to 8 once cool.
Scrubbing, generators, seed changes and retraining (R197, R201, R208, R211). A pass starts with its summary clear, reads the sectors
of its range that lie on its stack, and ends DONE or ABORTED. A generator start with a listed mode runs and ends with its mismatches
counted. A seed change rewrites its partition's extents row by row, and the new seed takes effect with the last. A stack that fails to
retrain is failed, recorded with class 0x07, and its pair lost. -/
def Obligations.StacksAreKeptInService : Prop :=
  (∀ (s : State) (k : StackNo) (t : BitVec 16),
    let temp := s.dev.rd (Reg.HBM_STAT_TEMP k)
    let thr := s.dev.rd (Reg.HBM_THERM_THROT_T k)
    let lev := s.dev.rd (Reg.HBM_STAT_LEVEL k)
    Completes (.refresh k true) s (s.dev.incSat (Reg.HBM_REFCNT_REFWAIT k) 1) ∧ Completes (.refresh k false) s s.dev ∧
    (∃ d, Completes (.hotSpotWindow k) s d ∧ ∀ n, n < 64 →
      d.rd (Reg.HBM_HOT_SECT k n) = tabGet 0 (k * 64 + n) s.dev.hot % 2 ^ (Reg.HBM_HOT_SECT k n).width ∧
      d.flag (Reg.HBM_HOT_HOT k n) = decide (((List.range 64).map fun i => tabGet 0 (k * 64 + i) s.dev.hot).sum *
        s.dev.rd (Reg.HBM_HOTCFG_HOTPCT k) < tabGet 0 (k * 64 + n) s.dev.hot * 256) ∧
      tabGet 0 (k * 64 + n) d.hot = 0) ∧
    (s.dev.flag (Reg.HBM_STAT_THROT k) = false → thr ≤ t.toNat % 256 → t.toNat < s.dev.rd Reg.THM_CFG_STRIP →
      ∃ d, Completes (.temperatureReport k t) s d ∧ d.rd (Reg.HBM_STAT_TEMP k) = t.toNat % 256 ∧ d.flag (Reg.HBM_STAT_THROT k) = true ∧
        d.rd (Reg.HBM_STAT_LEVEL k) = 7 ∧ (d.src (1024 + 8 * k + 1)).raw = true) ∧
    (t.toNat < thr → t.toNat < s.dev.rd Reg.THM_CFG_STRIP → Completes (.temperatureReport k t) s (s.dev.wr (Reg.HBM_STAT_TEMP k) t.toNat)) ∧
    (s.dev.rd Reg.THM_CFG_STRIP ≤ t.toNat → s.dev.flag Reg.THM_STAT_TRIPPED = false → ∃ d, Completes (.temperatureReport k t) s d ∧
      d.flag Reg.THM_STAT_TRIPPED = true ∧ d.rd Reg.THM_STAT_TRIPSRC = 0x80 + k ∧ d.pins.thermtripN = true) ∧
    (s.dev.flag (Reg.HBM_STAT_THROT k) = false → Completes (.throttleStep k) s s.dev) ∧
    (s.dev.flag (Reg.HBM_STAT_THROT k) = true →
      (thr ≤ temp → Completes (.throttleStep k) s (s.dev.wr (Reg.HBM_STAT_LEVEL k) (max 1 (lev - 1)))) ∧
      (temp + s.dev.rd (Reg.HBM_THERM_HYST k) < thr → lev + 1 < 8 → Completes (.throttleStep k) s (s.dev.wr (Reg.HBM_STAT_LEVEL k) (lev + 1))) ∧
      (temp + s.dev.rd (Reg.HBM_THERM_HYST k) < thr → 7 ≤ lev → ∃ d, Completes (.throttleStep k) s d ∧
        d.rd (Reg.HBM_STAT_LEVEL k) = 8 ∧ d.flag (Reg.HBM_STAT_THROT k) = false ∧ (d.src (1024 + 8 * k + 1)).raw = false) ∧
      (temp < thr → thr ≤ temp + s.dev.rd (Reg.HBM_THERM_HYST k) → Completes (.throttleStep k) s s.dev))) ∧
  (∀ (s : State) (k : StackNo) (wb loc : Bool) (rate : BitVec 8) (n : Fin 32) (mode : BitVec 4) (pat : BitVec 3) (l : Word) (pch : Fin 2)
    (p : PartNo) (seed : BitVec 25),
    (s.dev.flag (Reg.SCR_STAT_RUN k) = false → ∃ d, Completes (.scrubStart k wb loc rate) s d ∧ d.flag (Reg.SCR_STAT_RUN k) = true ∧
      d.flag (Reg.SCR_STAT_DONE k) = false ∧ d.flag (Reg.SCR_STAT_ABORTED k) = false ∧ d.rd (Reg.SCR_SUM0_READ k) = 0 ∧
      d.rd (Reg.SCR_SUM1_CORR k) = 0 ∧ d.rd (Reg.SCR_SUM1_UNCORR k) = 0 ∧ d.rd (Reg.SCR_CTL_RATE k) = rate.toNat ∧
      d.flag (Reg.SCR_CTL_LOCAL k) = loc ∧
      d.scrub k = ⟨s.dev.rd (Reg.SCR_BASE_BASE k), s.dev.rd (Reg.SCR_LEN_LEN k), false, []⟩) ∧
    (s.dev.flag (Reg.SCR_STAT_RUN k) = true → Completes (.scrubAbort k) s (s.dev.setScrub k { s.dev.scrub k with abort := true })) ∧
    (s.dev.flag (Reg.SCR_STAT_RUN k) = true → (s.dev.scrub k).left ≠ 0 → (s.dev.scrub k).abort = false →
      let sc := s.dev.scrub k
      let d := s.dev.setScrub k { sc with next := sc.next + 1, left := sc.left - 1 }
      (s.dev.flag (Reg.SCR_CTL_LOCAL k) = false → s.dev.stackOf (sc.next * 32) ≠ k → ∀ cls, Completes (.scrubSector k cls) s d) ∧
      (s.dev.flag (Reg.SCR_CTL_LOCAL k) = true ∨ s.dev.stackOf (sc.next * 32) = k ∧ tabGet false sc.next s.dev.hbmPoison = false →
        s.dev.stackUp k = true →
        Completes (.scrubSector k .clean) s (d.incSat (Reg.SCR_SUM0_READ k) 1) ∧
        Completes (.scrubSector k .ce1) s
          (((d.incSat (Reg.SCR_SUM0_READ k) 1).incSat (Reg.SCR_SUM1_CORR k) 1).incSat (Reg.HBM_ECCCNT_CE1 k) 1) ∧
        ∃ d', Completes (.scrubSector k .ue) s d' ∧
          d'.rd (Reg.SCR_SUM1_UNCORR k) = satAdd (Reg.SCR_SUM1_UNCORR k).width (s.dev.rd (Reg.SCR_SUM1_UNCORR k)) 1 %
            2 ^ (Reg.SCR_SUM1_UNCORR k).width)) ∧
    (s.dev.flag (Reg.SCR_STAT_RUN k) = true →
      ((s.dev.scrub k).abort = true → ∃ d, Completes (.scrubPassEnd k) s d ∧ d.flag (Reg.SCR_STAT_RUN k) = false ∧
        d.flag (Reg.SCR_STAT_ABORTED k) = true ∧ (d.src (1024 + 8 * k + 3)).raw = true) ∧
      ((s.dev.scrub k).abort = false → (s.dev.scrub k).left = 0 → ∃ d, Completes (.scrubPassEnd k) s d ∧
        d.flag (Reg.SCR_STAT_RUN k) = false ∧ d.flag (Reg.SCR_STAT_DONE k) = true ∧ (d.src (1024 + 8 * k + 3)).raw = true)) ∧
    (mode.toNat ≤ 3 → ∃ d, Completes (.generatorStart k n mode pat false rate) s d ∧ d.flag (Reg.TG_STAT_RUN k n) = true ∧
      d.rd (Reg.TG_CTL_MODE k n) = mode.toNat ∧ d.rd (Reg.TG_CTL_PAT k n) = pat.toNat ∧
      d.flag (Reg.TG_STAT_REFUSED k n) = s.dev.flag (Reg.TG_STAT_REFUSED k n)) ∧
    (3 < mode.toNat → ∀ scope, ∃ d, Completes (.generatorStart k n mode pat scope rate) s d ∧ d.flag (Reg.TG_STAT_REFUSED k n) = true ∧
      d.flag (Reg.TG_STAT_RUN k n) = s.dev.flag (Reg.TG_STAT_RUN k n)) ∧
    Completes (.generatorStop k n) s (s.dev.clrF (Reg.TG_STAT_RUN k n)) ∧
    (s.dev.flag (Reg.TG_STAT_RUN k n) = true → ∀ fails, ∃ d, Completes (.generatorRunEnd k n fails l pch) s d ∧
      d.flag (Reg.TG_STAT_RUN k n) = false ∧
      (fails ≠ 0 → s.dev.flag (Reg.TG_FAIL_VALID k n) = false →
        d.flag (Reg.TG_FAIL_VALID k n) = true ∧ d.rd (Reg.TG_FAIL_PCH k n) = pch)) ∧
    (s.dev.ptState p = 3 → s.dev.rehash = none → ∃ d, Completes (.rehash p seed) s d ∧ d.flag Reg.HBM_REHASH_BUSY = true ∧
      d.rehash = some ⟨p, s.dev.rd (Reg.HBM_SEED_SEED p), seed.toNat, (s.dev.extentsOf p).headD 0 * 256, s.dev.extentsOf p⟩) ∧
    (s.dev.ptState p ≠ 3 → ∃ d, Completes (.rehash p seed) s d ∧ d.rehash = s.dev.rehash ∧
      d.rd (Reg.HBM_SEED_SEED p) = s.dev.rd (Reg.HBM_SEED_SEED p)) ∧
    (∀ r e rest, s.dev.rehash = some r → r.left = e :: rest → r.row + 1 < (e + 1) * 256 →
      ∃ d, Completes (.rehashRow none) s d ∧ d.rehash = some { r with row := r.row + 1 } ∧ d.hbm = s.dev.hbm) ∧
    (∀ r e, s.dev.rehash = some r → r.part = p.val → r.left = [e] → (e + 1) * 256 ≤ r.row + 1 → r.new < 2 ^ 25 →
      ∃ d, Completes (.rehashRow none) s d ∧ d.rehash = none ∧ d.rd (Reg.HBM_SEED_SEED p) = r.new ∧ d.flag Reg.HBM_REHASH_BUSY = false ∧
        d.hbm = s.dev.hbm) ∧
    (s.dev.stackUp k = true → Completes (.interfaceFault k) s (s.dev.wr (Reg.HBM_STAT_STATE k) 1)) ∧
    (s.dev.rd (Reg.HBM_STAT_STATE k) = 1 →
      (∀ lanes, Completes (.stackRetrainingEnd k true lanes) s
        ((s.dev.wr (Reg.HBM_STAT_STATE k) 2).wr (Reg.HBM_STAT_LANEREP k) lanes)) ∧
      ∀ lanes, ∃ d, Completes (.stackRetrainingEnd k false lanes) s d ∧ d.rd (Reg.HBM_STAT_STATE k) = 5 ∧
        bit (d.rd Reg.JNL_STAT_LOSTPAIR) (k / 2) = true))

/-! Jenpalvo links (R213 to R235). -/

/-- The states of a link (Table LK-4, R219, R220, R234). A ready link in DOWN trains on every occasion the table gives; training that
locks leads to IDENT; the neighbour's identity leads to ACTIVE with 64 credits for each virtual channel, or to HELD when it is not
the expected one; a held link compares again; ACTIVE pauses without light and returns to the same neighbour without loss; a retrain
replays from the neighbour's E; the timeouts, a reset and a disable lead to DOWN, which discards the replay buffer. -/
def Obligations.LinksFollowTheirStates : Prop :=
  ∀ (s : State) (l : LinkNo) (nb : NbrId) (h : FlitHdr) (dev : BitVec 20) (lk : BitVec 5) (valid : Bool) (e : BitVec 12) (k : Fin 4)
    (tx rx : BitVec 4),
    let st := s.dev.lkState l
    let x := s.dev.link l
    let goes (i : Instr) (n : Nat) : Prop := ∃ d, Completes i s d ∧ d.lkState l = n
    let able := s.dev.flag Reg.RTE_ID_VALID = true ∧ s.dev.domOn (16 + l / 8) = true
    let on := s.dev.flag (Reg.LNK_CTL_EN l) = true
    let known := s.dev.flag (Reg.LNK_EXPECT_VALID l) = false ∨
      s.dev.rd (Reg.LNK_EXPECT_DEV l) = nb.dev.toNat ∧ s.dev.rd (Reg.LNK_EXPECT_LINK l) = nb.link.val
    (st = 0 → able → x.light ≠ 0 → ∃ d, Completes (.linkEnable l) s d ∧ d.lkState l = 1 ∧ d.flag (Reg.LNK_CTL_EN l) = true ∧
      d.flag (Reg.LNK_NBR_VALID l) = false ∧ (d.link l).train = (x.train + 1) % 2 ^ 16) ∧
    (st ≠ 0 ∨ x.light = 0 → Completes (.linkEnable l) s (s.dev.setF (Reg.LNK_CTL_EN l))) ∧
    (st = 0 → able → x.light ≠ 0 → on → goes (.trainRetry l) 1 ∧ goes (.linkReset l) 1 ∧
      (x.hold = false → goes (.lightOnLane l k) 1)) ∧
    (st = 0 → able → goes (.retrain l) 1) ∧
    (st ≠ 0 → (∃ d, Completes (.linkDisable l) s d ∧ d.lkState l = 0 ∧ d.flag (Reg.LNK_CTL_EN l) = false ∧ (d.link l).replay = []) ∧
      (on → able → x.light ≠ 0 → goes (.linkReset l) 1) ∧ (s.dev.flag (Reg.LNK_CTL_EN l) = false → goes (.linkReset l) 0)) ∧
    (st = 1 → (∃ d, Completes (.trainTimeout l) s d ∧ d.lkState l = 0 ∧ (d.link l).hold = true) ∧
      (Nat.land tx.toNat (s.dev.rd (Reg.LNK_CTL_LANEOK l)) ≠ 0 → Nat.land rx.toNat (s.dev.rd (Reg.LNK_CTL_LANEOK l)) ≠ 0 →
        ∃ d, Completes (.trainingDone l tx rx) s d ∧ d.lkState l = 2 ∧
          d.rd (Reg.LNK_STAT_TXLANES l) = Nat.land tx.toNat (s.dev.rd (Reg.LNK_CTL_LANEOK l)) ∧
          d.rd (Reg.LNK_STAT_RXLANES l) = Nat.land rx.toNat (s.dev.rd (Reg.LNK_CTL_LANEOK l)))) ∧
    (st = 2 → h.bad = false → known →
      ∃ d, Completes (.ident l h nb) s d ∧ d.lkState l = 4 ∧ d.rd (Reg.LNK_NBR_DEV l) = nb.dev.toNat ∧ d.flag (Reg.LNK_NBR_VALID l) = true ∧
        (s.dev.flag (Reg.LNK_TIMECFG_TEN l) = false → ∀ v, v < 8 → ((d.link l).vc v).credits = 64) ∧
        (d.link l).n = 0 ∧ (d.link l).o = 0 ∧ (d.link l).e = 0) ∧
    (st = 2 → h.bad = false → ¬ known →
      ∃ d, Completes (.ident l h nb) s d ∧ d.lkState l = 3 ∧ d.flag (Reg.LNK_STAT_MISWIRED l) = true) ∧
    (st = 3 → valid = false ∨ s.dev.rd (Reg.LNK_NBR_DEV l) = dev.toNat ∧ s.dev.rd (Reg.LNK_NBR_LINK l) = lk.toNat →
      ∃ d, Completes (.lnkExpect l dev lk valid) s d ∧ d.lkState l = 4 ∧ d.flag (Reg.LNK_STAT_MISWIRED l) = false) ∧
    (st ≠ 3 → ∃ d, Completes (.lnkExpect l dev lk valid) s d ∧ d.lkState l = st ∧ d.rd (Reg.LNK_EXPECT_DEV l) = dev.toNat ∧
      d.rd (Reg.LNK_EXPECT_LINK l) = lk.toNat ∧ d.flag (Reg.LNK_EXPECT_VALID l) = valid) ∧
    (st = 3 → s.dev.flag (Reg.LNK_EXPECT_VALID l) = false → goes (.retrain l) 4) ∧
    (st = 4 → ∃ d, Completes (.lightLoss l) s d ∧ d.lkState l = 5 ∧ (d.link l).replay = x.replay ∧ (d.link l).n = x.n) ∧
    (st = 5 → s.dev.sameNbr l nb = true → x.naks + 1 < s.dev.rd (Reg.LNK_CTL_NAKMAX l) →
      ∃ d, Completes (.lightReturn l nb) s d ∧ d.lkState l = 4 ∧ (d.link l).replay = x.replay ∧ (d.link l).n = x.n) ∧
    (st = 5 → s.dev.sameNbr l nb = false → s.dev.flag (Reg.LNK_CTL_EN l) = false → goes (.lightReturn l nb) 0) ∧
    (st = 5 → x.light = 0 → goes (.pauseTimeout l) 0) ∧
    (st = 6 → x.light = 0 → goes (.retrainTimeout l) 0) ∧
    (st = 6 → s.dev.sameNbr l nb = true → (e.toNat + 4096 - x.o) % 4096 ≤ (x.n + 4096 - x.o) % 4096 →
      ∃ d, Completes (.retrainDone l nb e) s d ∧ d.lkState l = 4 ∧ (d.link l).replay = x.replay ∧ (d.link l).n = x.n) ∧
    (st = 6 → s.dev.sameNbr l nb = false → s.dev.flag (Reg.LNK_CTL_EN l) = false → goes (.retrainDone l nb e) 0)

/-- Flits on an active link (R216 to R218, R221, R222, R231). The flit expected is accepted once and E moves on; a corrupted flit changes
nothing beyond its count; a duplicate is not accepted again; a gap is answered with one NAK carrying E. A new flit takes one credit and
stays in the replay buffer until acknowledged. A NAK in window sends every flit from its E again; out of window it retrains. Returned
credits and CREDSYNC restore the sender's count. A completed exchange gives OFFSET and DELAY.
Lanes (R225 to R227, R229, R230). A failed receive lane is dropped and the neighbour asked to restripe, or the link goes DOWN without
one; the transmitter takes the mask asked for; the receiver locks to it at the mark; a lane on trial that LANEOK allows is asked for
again; a feed group moves to the other cartridge, or goes dark and its links DOWN. -/
def Obligations.LinkFlitsAndLanes : Prop :=
  (∀ (s : State) (l : LinkNo) (h : FlitHdr) (seq e : BitVec 12) (v : Fin 8) (bytes : List Byte) (counts : List (BitVec 16)) (b : TimeBody)
    (sub : BitVec 16),
    let x := s.dev.link l
    let gap := (seq.toNat + 4096 - x.e) % 4096
    let nmax := s.dev.rd (Reg.LNK_CTL_NAKMAX l)
    s.dev.lkState l = 4 →
    (h.bad = false → x.degrade = none → gap = 0 → ∃ d, Completes (.dataFlit l h seq v bytes) s d ∧ (d.link l).e = (x.e + 1) % 4096 ∧
      (d.link l).nakOut = false ∧ (d.link l).naks = 0 ∧ d.rd (Reg.LNK_RXBODY_BYTES l) = (s.dev.rd (Reg.LNK_RXBODY_BYTES l) + 246) % 2 ^ 64) ∧
    (h.bad = true → x.nakOut = true → Completes (.dataFlit l h seq v bytes) s (s.dev.incSat (Reg.LNK_RETRYCNT_BADFLIT l) 1)) ∧
    (h.bad = false → x.degrade = none → 2048 ≤ gap → Completes (.dataFlit l h seq v bytes) s (s.dev.takeHdr l h)) ∧
    (h.bad = false → x.degrade = none → 0 < gap → gap < 2048 → x.nakOut = false → x.naks + 1 < nmax →
      ∃ d q av a c n, Completes (.dataFlit l h seq v bytes) s d ∧ (d.link l).e = x.e ∧ (d.link l).nakOut = true ∧
        d.out.head? = some (.flit l 2 0 q av a c n (Dev.ctrlBody 1 (leBytes 2 x.e)))) ∧
    (s.dev.mayData l = true → (x.vc v).txq ≠ [] → (x.vc v).credits ≠ 0 → x.replay.length < 1024 →
      (x.n + 4096 - x.o) % 4096 + 1 ≤ 2047 →
      let body := (leBytes 1 v ++ ((x.vc v).txq.flatMap TxPkt.left).take 245 ++ List.replicate 245 0).take 246
      ∃ d q av a c n, Completes (.dataFlitTransmit l v) s d ∧ (d.link l).n = (x.n + 1) % 4096 ∧ (d.link l).replay = x.replay ++ [body] ∧
        ((d.link l).vc v).credits = (x.vc v).credits - 1 ∧ d.out.head? = some (.flit l 1 x.n q av a c n body)) ∧
    ((x.vc v).credits = 0 ∨ s.dev.mayData l = false → Completes (.dataFlitTransmit l v) s s.dev) ∧
    (h.bad = false → Completes (.idle l h) s (s.dev.takeHdr l h)) ∧ (h.bad = true → Completes (.idle l h) s (s.dev.badFlit l)) ∧
    (∀ d : Dev, d.lkState l = 4 → h.av = true → (h.ack.toNat + 4096 - (d.link l).o) % 4096 < ((d.link l).n + 4096 - (d.link l).o) % 4096 →
      ((d.takeHdr l h).link l).o = (h.ack.toNat + 1) % 4096 ∧
      ((d.takeHdr l h).link l).replay = (d.link l).replay.drop ((h.ack.toNat + 4096 - (d.link l).o) % 4096 + 1) ∧
      (((d.takeHdr l h).link l).vc h.crvc).credits = ((d.link l).vc h.crvc).credits + h.crn.toNat) ∧
    (h.bad = false → h.av = false → s.dev.flag (Reg.LNK_STAT_NQUIET l) = h.q → s.dev.devQuiet = false →
      let k := (e.toNat + 4096 - x.o) % 4096
      (k ≤ (x.n + 4096 - x.o) % 4096 → ∃ d, Completes (.nak l h e) s d ∧ (d.link l).replay = x.replay ∧
        d.out.length = s.dev.out.length + (x.replay.drop k).length ∧ d.lkState l = 4) ∧
      ((x.n + 4096 - x.o) % 4096 < k → ∃ d, Completes (.nak l h e) s d ∧ d.lkState l = 6 ∧ (d.link l).replay = x.replay)) ∧
    (x.nakOut = true → x.naks + 1 < nmax → ∃ d q av a c n, Completes (.nakResend l) s d ∧ (d.link l).naks = x.naks + 1 ∧
      d.out.head? = some (.flit l 2 0 q av a c n (Dev.ctrlBody 1 (leBytes 2 x.e)))) ∧
    (x.nakOut = true → nmax ≤ x.naks + 1 → ∃ d, Completes (.nakResend l) s d ∧ d.lkState l = 6) ∧
    (h.bad = false → h.crn = 0 → (∀ u, u < 8 → (x.vc u).creditIn < 2 ^ 16) → ∃ d, Completes (.credsync l h counts) s d ∧ ∀ u, u < 8 →
      ((d.link l).vc u).credits = (x.vc u).credits + ((counts.getD u 0).toNat + 2 ^ 16 - (x.vc u).creditIn) % 2 ^ 16 ∧
      ((d.link l).vc u).creditIn = (counts.getD u 0).toNat) ∧
    (∃ d q av a c n, Completes (.credsyncSend l) s d ∧
      d.out.head? = some (.flit l 2 0 q av a c n (Dev.ctrlBody 5 ((List.range 8).flatMap fun u => leBytes 2 (x.vc u).creditOut)))) ∧
    (s.dev.flag (Reg.LNK_TIMECFG_TEN l) = false → Completes (.timeFlitSend l sub) s s.dev) ∧
    (s.dev.flag (Reg.LNK_TIMECFG_TEN l) = true → ∃ d, Completes (.timeFlitSend l sub) s d ∧ (d.link l).tnum = (x.tnum + 1) % 2 ^ 16 ∧
      (d.link l).departs = (((x.tnum + 1) % 2 ^ 16, (16 * s.dev.now + sub.toNat % 16) % 2 ^ 64) :: x.departs).take 4) ∧
    (∀ t1 t4, h.bad = false → b.valid = 3 → x.departs.lookup b.rnum.toNat = some t1 → x.arrives.lookup b.pnum.toNat = some t4 →
      s.dev.blState = 1 →
      let f := (b.tarr - BitVec.ofNat 64 t1).toInt
      let g := (BitVec.ofNat 64 t4 - b.tdep).toInt
      let asym := (BitVec.ofNat 16 (s.dev.rd (Reg.LNK_TIMECFG_ASYM l))).toInt
      (f - g + asym) % 2 = 0 → (f + g) % 2 = 0 → ∃ d, Completes (.time l 0 h b sub) s d ∧
        d.rd (Reg.LNK_TIME_OFFSET l) = (BitVec.ofInt 32 ((f - g + asym) / 2)).toNat ∧
        d.rd (Reg.LNK_TIME_DELAY l) = (BitVec.ofInt 32 ((f + g) / 2)).toNat)) ∧
  (∀ (s : State) (l : LinkNo) (h : FlitHdr) (k : Fin 4) (m : BitVec 4) (e : Fin 8) (g : Fin 2),
    let x := s.dev.link l
    let rxm := s.dev.rd (Reg.LNK_STAT_RXLANES l)
    let trial := Nat.land (s.dev.rd (Reg.LNK_CTL_LANEOK l)) (15 - rxm)
    (s.dev.lkState l = 4 → bit rxm k = true → setBit rxm k false ≠ 0 → ∃ d, Completes (.laneFail l k) s d ∧ d.lkState l = 4 ∧
      d.rd (Reg.LNK_STAT_RXLANES l) = setBit rxm k false % 16 ∧ d.flag (Reg.LNK_LANE_FAILED l k) = true ∧
      (d.link l).degrade = some (setBit rxm k false)) ∧
    (s.dev.lkState l = 4 → bit rxm k = true → setBit rxm k false = 0 → ∃ d, Completes (.laneFail l k) s d ∧ d.lkState l = 0) ∧
    (s.dev.lkState l = 4 → h.bad = false → m ≠ 0 → s.dev.rd (Reg.LNK_STAT_TXLANES l) ≠ m.toNat →
      ∃ d, Completes (.degrade l h m) s d ∧ d.rd (Reg.LNK_STAT_TXLANES l) = m.toNat ∧ d.lkState l = 4) ∧
    (s.dev.lkState l = 4 → h.bad = false → ∃ d, Completes (.degrade l h 0) s d ∧ d.lkState l = 0) ∧
    (s.dev.lkState l = 4 → h.bad = false → Completes (.degack l h m) s (s.dev.takeHdr l h)) ∧
    (s.dev.lkState l = 4 → h.bad = false → x.degrade = some m.toNat → ∃ d, Completes (.lanemark l h) s d ∧
      (d.link l).degrade = none ∧ d.rd (Reg.LNK_STAT_RXLANES l) = m.toNat) ∧
    (s.dev.lkState l = 4 → Completes (.readmit l) s (s.dev.updLink l fun x => { x with trying := trial }) ∧
      (s.dev.flag (Reg.LNK_CTL_AUTORD l) = true → Completes (.autoReadmit l) s (s.dev.updLink l fun x => { x with trying := trial })) ∧
      (s.dev.flag (Reg.LNK_CTL_AUTORD l) = false → Completes (.autoReadmit l) s s.dev)) ∧
    (s.dev.lkState l = 4 → bit x.trying k = true → bit (s.dev.rd (Reg.LNK_CTL_LANEOK l)) k = true →
      ∃ d, Completes (.laneReadmission l k) s d ∧ (d.link l).degrade = some (setBit rxm k true) ∧ d.lkState l = 4) ∧
    (s.dev.feed e g = 0 → s.dev.slState (feedCart e g 1) = 4 → ∃ d, Completes (.feedSwitch e g true) s d ∧ d.feed e g = 1 ∧
      ∀ j : LinkNo, d.lkState j = s.dev.lkState j) ∧
    (s.dev.feed e g = 2 → ∀ lit, Completes (.feedSwitch e g lit) s s.dev) ∧
    (s.dev.feed e g < 2 → s.dev.cartHealthy (feedCart e g 0) = false → ∃ d, Completes (.feedSwitch e g false) s d ∧ d.feed e g = 2 ∧
      ∀ j ∈ Dev.feedLinks e g, d.lkState j = 0))

/-! Routing, reshaping and streams (R236 to R252). -/

/-- Packets (R242 to R245): one for this device is delivered and its input flits freed; without adaptive routing a minimal packet joins
its virtual channel on the first usable output, or is discarded and counted when there is none; a queued packet none of which has gone
is discarded at its DEADLINE.
Reshaping and telemetry (R250, R252, R304). ARM stores its fields and, with T passed, swaps at once; CANCEL disarms; the drain stops
new packets on the LINKS; the swap changes bank and shape and retrains the LINKS, and is cancelled while the bell is not running. A
telemetry interval starts its counts anew, and a full ring drops its records. -/
def Obligations.PacketsAndReshapes : Prop :=
  (∀ (s : State) (i : Nat) (p : Pkt) (l : LinkNo) (v : Fin 8) (n : Nat) (r : List (Pkt × Nat)),
    let rest : Dev := { s.dev with inject := s.dev.inject.eraseIdx i }
    let mine := s.dev.inject[i]? = some p ∧ s.dev.taken p = true
    let front := ((s.dev.link l).vc v).rxq = (p, n) :: r ∧ s.dev.devQuiet = false
    let without : Dev := s.dev.updVc l v fun y => { y with rxq := r }
    let outs := s.dev.pathOutputs 0 (s.dev.candidates (idPod p.ddev) (idGrp p.ddev) (idL p.ddev))
    let minimal := p.ddev ≠ s.dev.myDev ∧ p.nm = false ∧ p.path = 0 ∧ s.dev.flag Reg.RTE_CTL_ADAPT = false
    (s.dev.inject[i]? = none → Completes (.packetForward (.own i)) s s.dev) ∧
    (mine → p.ddev = s.dev.myDev →
      Completes (.packetForward (.own i)) s ({ rest with arrived := s.dev.arrived ++ [p] }.emit (.deliver p))) ∧
    (front → p.ddev = s.dev.myDev → Completes (.packetForward (.port l v)) s
      (({ without with arrived := s.dev.arrived ++ [p] }.freeFlits l v n).emit (.deliver p))) ∧
    (mine → minimal → ∀ o t, outs = o :: t → o.link < 21 ∨ o.inc = false →
      Completes (.packetForward (.own i)) s (((rest.updVc o.link (2 * p.phase + p.cls) fun y =>
        { y with txq := y.txq ++ [⟨p, p.bytes, none⟩] }).updLink o.link fun x => { x with nmSent := x.nmSent + 0 }).emit
          (.forward o.link (2 * p.phase + p.cls) p))) ∧
    (mine → minimal → outs = [] → Completes (.packetForward (.own i)) s (rest.incSat Reg.RTE_DROPCNT_NOROUTE 1)) ∧
    (((s.dev.link l).vc v).txq = [] → Completes (.packetDeadline l v) s s.dev) ∧
    (∀ t u, ((s.dev.link l).vc v).txq = t :: u → t.left.length = t.p.bytes.length → t.from_ = none →
      Completes (.packetDeadline l v) s (((s.dev.advanceTo (s.dev.pastAt t.p.deadline)).updVc l v fun y =>
        { y with txq := u }).incSat Reg.RTE_DROPCNT_LATE 1))) ∧
  (∀ (s : State) (links : BitVec 32) (drain : BitVec 16),
    let stored := (s.dev.wr Reg.RTE_RESHAPE_LINKS links.toNat).wr Reg.RTE_RESHAPE_DRAIN drain.toNat
    let t := s.dev.rd Reg.RTE_SWAPAT_T
    let armed := s.dev.flag Reg.RTE_RESHAPE_ARMED = true
    let bank := s.dev.rd Reg.RTE_CTL_BANK
    let runs := s.dev.blState ≠ 0 ∧ s.dev.blState ≠ 4 ∧ s.dev.devQuiet = false
    (s.dev.now < t → Completes (.arm links drain) s (stored.setF Reg.RTE_RESHAPE_ARMED)) ∧
    (t ≤ s.dev.now → runs → bank ≤ 1 → ∃ d, Completes (.arm links drain) s d ∧ d.rd Reg.RTE_CTL_BANK = 1 - bank ∧
      d.flag Reg.RTE_RESHAPE_ARMED = false ∧ d.shape = s.dev.flag Reg.RTE_CTL_SHAPE) ∧
    Completes (.cancel links drain) s { stored.clrF Reg.RTE_RESHAPE_ARMED with draining := 0 } ∧
    (armed → s.dev.blState ≠ 2 → Completes .reshapeDrain s { s.dev with
      now := max s.dev.now (t - 1024 * s.dev.rd Reg.RTE_RESHAPE_DRAIN), draining := s.dev.rd Reg.RTE_RESHAPE_LINKS }) ∧
    (s.dev.flag Reg.RTE_RESHAPE_ARMED = false → Completes .bankSwap s s.dev ∧ Completes .reshapeDrain s s.dev) ∧
    (armed → runs → bank ≤ 1 → ∃ d, Completes .bankSwap s d ∧ d.rd Reg.RTE_CTL_BANK = 1 - bank ∧ d.flag Reg.RTE_RESHAPE_ARMED = false ∧
      d.draining = 0 ∧ d.shape = s.dev.flag Reg.RTE_CTL_SHAPE ∧ d.now = max s.dev.now t ∧
      (∀ l : LinkNo, bit (s.dev.rd Reg.RTE_RESHAPE_LINKS) l = true → s.dev.lkState l = 4 → d.lkState l = 6) ∧
      (∀ l : LinkNo, bit (s.dev.rd Reg.RTE_RESHAPE_LINKS) l = false → d.lkState l = s.dev.lkState l)) ∧
    (armed → ¬ runs → ∃ d, Completes .bankSwap s d ∧ d.rd Reg.RTE_CTL_BANK = bank ∧ d.flag Reg.RTE_RESHAPE_ARMED = false ∧ d.draining = 0) ∧
    (s.dev.flag Reg.RTE_TELCFG_EN = false → Completes .telemetryRecord s s.dev) ∧
    (s.dev.flag Reg.RTE_TELCFG_EN = true → ∃ d, Completes .telemetryRecord s d ∧
      (∀ l : LinkNo, (d.link l).sent = 0 ∧ (d.link l).nmSent = 0 ∧ (d.link l).n = (s.dev.link l).n) ∧
      ((s.dev.rd Reg.RTE_TELPTR_TAIL + 1) % 2 ^ s.dev.rd Reg.RTE_TELCFG_RINGLOG =
          s.dev.rd Reg.RTE_TELPTR_HEAD % 2 ^ s.dev.rd Reg.RTE_TELCFG_RINGLOG →
        d.rd Reg.RTE_TELPTR_TAIL = s.dev.rd Reg.RTE_TELPTR_TAIL ∧ d.host = s.dev.host)))

/-- Packets at a stream's receiver (R239, R246 to R249). The next packet is taken once and has its effect: a WRITE writes, a READ is
answered with RDATA, an ENGINE message is handed over, a POISON poisons its fragment. One from another device, or for a context not
open, is discarded and counted; a number below B is a duplicate and changes nothing but a count. A held packet is applied, and
acknowledged at once, when every lower number has come. RDATA completes the load that its READ belongs to. -/
def Obligations.StreamPacketsTakeEffectOnce : Prop :=
  ∀ (s : State) (p : Pkt) (k : Stream) (ue : Bool),
    let t := pktTaken p s.dev
    let c := p.dctx
    let x := s.dev.ctx c
    let part := x.part
    let bad := x.st ≠ .opened ∨ p.sdev ≠ x.fdev
    let quick := NextPkt s.dev p ∧ p.flg = false ∧ x.sinceAck < 31
    (p.ptype = ptWRITE → s.dev.pktHeld p = false → quick → ∀ d, t.vaWrite part none p.addr p.payload = (.ok (), d) →
      Completes (.write p) s d) ∧
    (p.ptype = ptREAD → s.dev.pktHeld p = false → quick → ∀ b d, t.vaRead part none p.addr (byteField p.payload 0 8) = (.ok b, d) →
      Completes (.read p false) s (d.sendRaw c ptRDATA p.seq true b)) ∧
    (p.ptype = ptENGINE → quick → Completes (.engine p) s { t with msgs := s.dev.msgs ++ [(c, p.payload)] }) ∧
    (p.ptype = ptPOISON → p.flg = true → NextPkt s.dev p →
      Completes (.poison p) s ((t.vaPoison part none (byteField p.payload 0 8) (2 ^ (byteField p.payload 8 8 % 64))).sendAck c)) ∧
    (bad → (p.ptype = ptWRITE → s.dev.pktHeld p = false → Completes (.write p) s (s.dev.unqueue p).badCtx) ∧
      (p.ptype = ptENGINE → Completes (.engine p) s (s.dev.unqueue p).badCtx) ∧
      (p.ptype = ptRDATA → ∀ code, Completes (.rdata p code) s (s.dev.unqueue p).badCtx)) ∧
    (p.ptype = ptWRITE → s.dev.pktHeld p = false → ¬ bad → x.gcm = false → 2 ^ 31 ≤ Dev.seqDist x.b p.seq →
      Completes (.write p) s (((s.dev.unqueue p).updCtx c fun x => { x with dups := satAdd 24 x.dups 1 }).sendAck c)) ∧
    (p.ptype = ptWRITE → s.dev.pktHeld p = false → ¬ bad → x.gcm = false → 256 ≤ Dev.seqDist x.b p.seq → Dev.seqDist x.b p.seq < 2 ^ 31 →
      Completes (.write p) s ((s.dev.unqueue p).updCtx c fun x => { x with outwin := satAdd 16 x.outwin 1 })) ∧
    (∀ o co e, p.ptype = ptRDATA → ¬ bad → x.gcm = false → s.dev.pastDeadline p.deadline = false → x.ops = [o] → o.first = p.seq →
      o.owner = .load co e →
      let d := (s.dev.unqueue p).updCtx c fun x => { x with ops := [] }
      Completes (.rdata p false) s (d.loadDone co e p.payload) ∧ Completes (.rdata p true) s (d.loadFail co e)) ∧
    (∀ q, (s.dev.ctx k).st = .opened → (s.dev.ctx k).held = [q] → Dev.below (s.dev.ctx k).b q.seq = true → q.ptype ≠ ptREAD →
      s.dev.pastDeadline q.deadline = false →
      Completes (.flaggedPacketApply k ue) s
        ((((s.dev.updCtx k fun x => { x with held := [] }).applyPkt k q ue).sendAck k).watch)) ∧
    ((s.dev.ctx k).held = [] → Completes (.flaggedPacketApply k ue) s s.dev.watch)

/-- The sender's side and the states of a context (R247 to R249, Table RT-4): acknowledgement frees what lies below B; retransmission sends
every packet again one PATH up; a passed deadline fails the context; CLOSED opens through SYNC both ways, OPEN closes when all is
acknowledged, FAILED resynchronises from N. -/
def Obligations.StreamsOpenAcknowledgeAndFail : Prop :=
  ∀ (s : State) (k : Stream) (p : Pkt),
    let x := s.dev.ctx k
    let c := p.dctx
    let y := s.dev.ctx c
    let b := byteField p.payload 0 4
    (p.ptype = ptACK → Completes (.ack p) s (((s.dev.ackPkt p).cfFlushAll).fryFlush).watch) ∧
    (p.ptype = ptACK → y.st = .opened → p.sdev = y.fdev → y.gcm = false → Dev.seqDist y.o b ≤ Dev.seqDist y.o y.n → y.ops = [] →
      (s.dev.ackPkt p).ctx c = { y with
        o := b, unacked := y.unacked.filter fun q => !(decide (Dev.seqDist y.o q.seq < Dev.seqDist y.o b)) }) ∧
    (∀ o co e, p.ptype = ptACK → y.st = .opened → p.sdev = y.fdev → y.gcm = false → Dev.seqDist y.o b ≤ Dev.seqDist y.o y.n → y.ops = [o] →
      byteField p.payload 8 8 = 0 → o.owner = .store co e → Dev.seqDist y.o o.last < Dev.seqDist y.o b → co < 144 → e < 4 →
      ((s.dev.ackPkt p).ctx c).ops = [] ∧ ((s.dev.ackPkt p).eng co e).remote = (s.dev.eng co e).remote.erase (c, o.last)) ∧
    (p.ptype = ptSYNC → y.st = .opening → p.sdev = y.fdev → y.syncAck = true → y.failedFrags = [] → ∃ d, Completes (.sync p) s d ∧
      (d.ctx c).st = .opened ∧ (d.ctx c).b = byteField p.payload 0 8 % 2 ^ 32 ∧ (d.ctx c).taken = [] ∧ (d.ctx c).held = []) ∧
    (p.ptype = ptSYNC → y.st = .closed → Completes (.sync p) s (s.dev.unqueue p).badCtx) ∧
    (x.st = .opened → x.sinceAck ≠ 0 → ∃ d, Completes (.ackSend k) s d ∧ (d.ctx k).sinceAck = 0 ∧
      ∃ q, d.inject = s.dev.inject ++ [q] ∧ q.ptype = ptACK ∧ q.ddev = x.fdev ∧ q.dctx = x.fctx) ∧
    (x.sinceAck = 0 → Completes (.ackSend k) s s.dev) ∧
    (x.st = .opened → ∃ d, Completes (.retransmit k) s d ∧
      (d.ctx k).unacked = x.unacked.map (fun q => { q with path := min 3 (q.path + 1) }) ∧
      d.inject = s.dev.inject ++ x.unacked.map (fun q => { q with path := min 3 (q.path + 1) }) ∧ (d.ctx k).n = x.n ∧ (d.ctx k).o = x.o) ∧
    (∀ t r, s.dev.failTimes k = t :: r →
      Completes (.streamFail k) s (((s.dev.advanceTo (r.foldl min t)).streamFailNow k).watch)) ∧
    (s.dev.failTimes k = [] → Completes (.streamFail k) s s.dev.watch) ∧
    (∀ d : Dev, (d.ctx k).st = .opened → (d.ctx k).ops = [] → (d.ctx k).partial_ = [] → ((d.ctxFail k).ctx k).st = .failed ∧
      ((d.ctxFail k).ctx k).n = (d.ctx k).n ∧ ((d.ctxFail k).ctx k).unacked = [] ∧ ((d.ctxFail k).ctx k).held = []) ∧
    (x.st = .closed → ∃ d, Completes (.openStream k) s d ∧ (d.ctx k).st = .opening ∧ (d.ctx k).n = 0 ∧ (d.ctx k).o = 0 ∧
      (d.ctx k).fdev = x.fdev ∧ (d.ctx k).opencnt = x.opencnt + 1 ∧ ∃ q, d.inject = s.dev.inject ++ [q] ∧ q.ptype = ptSYNC) ∧
    (x.st ≠ .closed → Completes (.openStream k) s s.dev) ∧
    (x.st = .opened → Completes (.closeStream k) s (s.dev.updCtx k fun x => { x with closing := true })) ∧
    (x.closing = true → x.st = .failed ∨ x.st = .opened ∧ x.o = x.n → ∃ d, Completes (.closeDone k) s d ∧ (d.ctx k).st = .closed ∧
      (d.ctx k).closing = false) ∧
    (x.st = .opened → x.o ≠ x.n → Completes (.closeDone k) s s.dev) ∧
    (x.st = .failed → x.syncIn = false → ∃ d, Completes (.resync k) s d ∧ (d.ctx k).st = .opening ∧ (d.ctx k).o = x.n ∧ (d.ctx k).n = x.n ∧
      (d.ctx k).b = x.b ∧ ∃ q, d.inject = s.dev.inject ++ [q] ∧ q.ptype = ptSYNC) ∧
    (x.st = .opening → Completes (.syncSend k) s (s.dev.sendSync k)) ∧ (x.st ≠ .opening → Completes (.syncSend k) s s.dev)

/-! The confluence and the ferry (R253 to R293), and how their messages read. -/

/-- What a sender writes a receiver reads back: packets (Tables RT-2, RT-3), confluence chunks (Table CF-3) and ferry headers, with every
field at every value its width admits. The places of the ferry header's fields are the model's choice (the spec names no places). -/
def Obligations.MessagesReadBackAsWritten : Prop :=
  (∀ (p : Pkt) (r : List Byte), 1 ≤ p.ptype → p.ptype ≤ 10 → p.path < 4 → p.phase < 4 → p.ddev < 2 ^ 20 → p.sdev < 2 ^ 20 → p.dctx < 2 ^ 17 →
    p.seq < 2 ^ 32 → p.opend < 2 ^ 32 → p.deadline < 2 ^ 32 → p.inter < 2 ^ 14 → p.addr < 2 ^ 48 → p.frbase < 2 ^ 48 → p.frlog < 256 →
    p.payload.length ≤ 4096 → Pkt.parse (p.bytes ++ r) = some (p, true, r)) ∧
  (∀ (w : Nat) (c : CfChunk), w = 4 ∨ w = 8 → c.level < 4 → c.ph < 2 → c.ring < 256 → c.a < 256 → c.bid < 2 ^ 32 → c.gen < 2 ^ 32 →
    c.step < 2 ^ 32 → c.pos < 2 ^ 20 → c.count < 2 ^ 32 → c.kind < 16 → c.arith < 4 → c.elem < 2 ^ 64 → c.meta_.wcount < 2 ^ 32 →
    c.meta_.wfirst < 2 ^ 20 → c.meta_.flush < 2 ^ 32 → c.meta_.wovf < 2 ^ 32 → c.meta_.nan < 2 ^ 32 →
    (∀ v ∈ c.vals, v.toNat < 2 ^ (8 * w)) → cfParse w (cfPayload w c) = c) ∧
  (∀ (h : FryHdr) (r : List Byte), h.mtype < 256 → h.job < 256 → h.queue < 256 → h.k < 256 → h.gen < 2 ^ 32 → h.t < 2 ^ 32 → h.dev < 2 ^ 24 →
    h.code < 256 → h.rowb < 2 ^ 16 → h.rrowb < 2 ^ 16 → h.batch < 2 ^ 32 → h.rows < 2 ^ 32 → h.off < 2 ^ 32 →
    FryHdr.parse (h.bytes ++ r) = h)

/-- A collective (R257, R258, R268, R272 to R277). GO triggers an armed slot: it resolves its anchor, takes its contribution and begins,
or ends MISMATCH or FAILED; a message for a running slot of its generation acts on it: READY releases chunks, a chunk is accepted once
for each label, WITHHELD about this member ends it EXCLUDED, BROKEN ends it FAILED, STALE ends it STALE. HOPTMO declares the successor
withheld, CWD ends TIMEOUT, an abort ends ABORTED; every ending leaves the slot idle with its interrupt. -/
def Obligations.CollectivesRunAndEnd : Prop :=
  ∀ (s : State) (slot : SlotNo) (c : CfDesc) (k : Stream) (b : List Byte) (r : Fin 16),
    let h := cfParse 8 (b.take 64)
    let d0 : Dev := { s.dev with msgs := s.dev.msgs.erase (k.val, b) }
    let comes (t : Nat) : Prop := byteField b 0 1 = t ∧ s.dev.paused (s.dev.ctx k).part = false ∧
      s.dev.cfFind k (byteField b 4 4) = some slot.val ∧ s.dev.cfSt slot = 2 ∧ byteField b 8 4 = s.dev.cfGen slot
    let a := Dev.s8 c.anchor
    let armed := s.dev.cfSt slot = 1 ∧ s.dev.cfHeld slot c = false ∧ s.dev.paused (s.dev.cfPart slot) = false ∧ c.rel = false ∧ c.lsb = false
    let running : Dev := (s.dev.cfSetSt slot 2).updCf slot fun y => { y with a := a, ovf := false }
    (s.dev.cfSt slot ≠ 1 → Completes (.slotGo slot) s s.dev.watch) ∧
    ((s.dev.cfSlot slot).desc = some c →
      (armed → a < -126 → Completes (.slotGo slot) s ((running.cfFail slot 3).cfReplay slot).watch) ∧
      (armed → -126 ≤ a → c.kind = 1 ∨ c.kind = 2 →
        let z := Dev.cfTake slot c a (List.range c.count) running
        (z.1 = false → Completes (.slotGo slot) s ((z.2.cfFail slot 5).cfReplay slot).watch) ∧
        (z.1 = true → Completes (.slotGo slot) s
          ((Dev.cfSettle 12 slot ((z.2.cfCounts slot).cfBegin slot 0 0 true)).cfReplay slot).watch)) ∧
      (comes 2 → Completes (.ready k b) s
        ((d0.updCf slot fun x => { x with ready := (h.level, h.ring) :: x.ready }).cfFlush slot).watch) ∧
      (comes 1 → Completes (.chunk k b) s (d0.cfChunk slot b).watch) ∧
      (∀ ch, ch = cfParse c.carried b →
        (s.dev.cfSlot slot).labels.contains (ch.level, ch.ring, ch.ph, ch.step, ch.pos, ch.elem) = true → s.dev.cfChunk slot b = s.dev) ∧
      (∀ l i x, c.ax = true → tabGet .plain i (s.dev.cfSlot slot).cls ≠ .poison →
        s.dev.cfSum slot c l i x = x + tabGet 0 i (s.dev.cfSlot slot).vals) ∧
      (∀ i x, tabGet .plain i (s.dev.cfSlot slot).cls = .poison → s.dev.cfSum slot c 0 i x = x) ∧
      (comes 3 → h.pos = s.dev.cfPos (slot / 32) c.plan h.level h.ring → Completes (.withheld k b) s (d0.cfFail slot 2).watch) ∧
      (comes 3 → h.pos ≠ s.dev.cfPos (slot / 32) c.plan h.level h.ring →
        Completes (.withheld k b) s (Dev.cfSettle 12 slot (d0.cfDeclare slot h.level h.ring)).watch) ∧
      (comes 4 → Completes (.broken k b) s ((d0.cfBroken slot).cfFail slot 5).watch) ∧
      (comes 5 → Completes (.stale k b) s (d0.cfFail slot 7).watch) ∧
      (s.dev.cfSt slot = 2 → s.dev.rd (Reg.CF_TIME_HOPTMO (slot / 32)) ≠ 0 →
        (s.dev.cfSlot slot).ready.contains ((s.dev.cfSlot slot).level, r) = false →
        s.dev.rd (Reg.CF_TIME_HOPTMO (slot / 32)) ≤ s.dev.rd (Reg.CF_SLOTWAIT_WAITMAX (slot / 32) (slot % 32)) →
        Completes (.hoptmo slot r) s (Dev.cfSettle 12 slot (s.dev.cfDeclare slot (s.dev.cfSlot slot).level r)).watch) ∧
      (∀ (d : Dev) (n : Nat), 2 ≤ n → (d.cfSlot slot).desc = some c → d.cfSt slot ≠ 0 → (d.cfFail slot n).cfSt slot = 0 ∧
        (d.cfFail slot n).cfSlot slot = CfSlot.reset ∧ ((d.cfFail slot n).src (1152 + slot)).raw = true)) ∧
    (s.dev.rd (Reg.CF_TIME_HOPTMO (slot / 32)) = 0 → Completes (.hoptmo slot r) s s.dev.watch) ∧
    (s.dev.cfSt slot = 2 → s.dev.rd (Reg.CF_TIME_CWD (slot / 32)) ≠ 0 → Completes (.cwd slot) s (s.dev.cfFail slot 4).watch) ∧
    (s.dev.rd (Reg.CF_TIME_CWD (slot / 32)) = 0 → Completes (.cwd slot) s s.dev.watch) ∧
    (s.dev.cfSt slot ≠ 0 → Completes (.slotAbort slot) s ((s.dev.cfWithhold slot).cfFail slot 6).watch) ∧
    (s.dev.cfSt slot = 0 → Completes (.slotAbort slot) s s.dev.watch)

/-- A ferry job (R282 to R293). GO walks an armed job's slots once; a REQ is refused by code or served from a batch with room; a GRANT
sends rows against it, is refused, or goes back; a whole ROW lands in its batch with its tag; BDL and FERRY_RELEASE let a batch close;
RFLAG returns the oldest; a RESULT of another generation changes nothing, one with a code fails its slot, and a whole one completes it;
the watchdog and an abort end the job, and an ended job is idle with its interrupt. A copy is chosen only with a nonzero weight. -/
def Obligations.FerryJobsRunAndEnd : Prop :=
  ∀ (s : State) (j : JobNo) (c : FryDesc) (k : FerryPath) (b : List Byte) (q : QueueNo) (n : Nat),
    let h := FryHdr.parse b
    let d0 : Dev := { s.dev with msgs := s.dev.msgs.erase (k.val, b) }
    let comes (t : Nat) : Prop := byteField b 0 1 = t ∧ s.dev.paused (s.dev.fryFar k) = false
    let dest := Dev.fryDest k
    let mine := s.dev.frySt h.job = 2 ∧ h.gen = s.dev.fryGen h.job ∧ s.dev.fryPart h.job = s.dev.fryFar k
    let asked : Dev := d0.updFry h.job fun y => { y with asked := y.asked.filter fun z => z ≠ (dest, h.queue) }
    (s.dev.frySt j ≠ 1 → Completes (.jobGo j) s s.dev.watch) ∧
    ((s.dev.fryJob j).desc = some c → s.dev.frySt j = 1 → s.dev.fryHeld j c = false → s.dev.paused (s.dev.fryPart j) = false →
      let z := (List.range (c.count * c.k)).foldl (Dev.fryWalk j c) ([], false, s.dev.wr (Reg.FRY_JOB_STATE j) 2)
      z.2.1 = false → Completes (.jobGo j) s (((List.range c.count).foldl (fun (d : Dev) t => d.fryCombine j t) z.2.2).frySettle j).watch) ∧
    (comes 0x11 → s.dev.fryCode k h ≠ 0 → Completes (.req k b) s (d0.frySend (s.dev.fryFar k) k none
      [FryHdr.bytes { h with mtype := 0x12, rows := 0, code := s.dev.fryCode k h, dev := s.dev.myDev }]).watch) ∧
    (comes 0x11 → s.dev.fryCode k h = 0 → Completes (.req k b) s (d0.fryServe k b).watch) ∧
    (∀ (d : Dev) (y : FryBatch), ((d.fryNext h.queue).fryQ h.queue).open_.find? (fun (y : FryBatch) => decide (0 < y.room)) = some y →
      let m := min (min h.rows 64) y.room
      d.fryServe k b = (((d.fryNext h.queue).setFryQ h.queue { (d.fryNext h.queue).fryQ h.queue with
        open_ := ((d.fryNext h.queue).fryQ h.queue).open_.map fun (z : FryBatch) => if z.no = y.no then { z with granted := z.granted + m } else z }).frySend
          ((d.fryNext h.queue).fryFar k) k none
          [FryHdr.bytes { h with mtype := 0x12, batch := y.no, rows := m, code := 0, dev := (d.fryNext h.queue).myDev }])) ∧
    (comes 0x12 → ¬ mine → h.rows ≠ 0 → Completes (.grant k b) s
      (d0.frySend (s.dev.fryFar k) k none [FryHdr.bytes { h with mtype := 0x15 }]).watch) ∧
    (comes 0x12 → ¬ mine → h.rows = 0 → Completes (.grant k b) s d0.watch) ∧
    (comes 0x12 → mine → h.code ≠ 0 → Completes (.grant k b) s ((asked.fryRefused h.job dest h).frySettle h.job).watch) ∧
    (comes 0x12 → mine → h.code = 0 →
      let z := Dev.fryUse h.job dest h.queue h.batch (((asked.fryJob h.job).slots.filter fun e => e.2 = .waiting dest h.queue).map Prod.fst) h.rows asked
      Completes (.grant k b) s ((z.2.updFry h.job fun y => { y with
        grants := if z.1 = 0 then y.grants else y.grants ++ [(dest, h.queue, h.batch, z.1)] }).frySettle h.job).watch) ∧
    (∀ y, comes 0x13 → (s.dev.fryQ h.queue).open_.find? (fun (y : FryBatch) => decide (y.no = h.batch)) = some y → y.parts = [] →
      s.dev.fryRB h.queue ≤ (b.drop 64).length →
      let a := s.dev.frySlotAddr h.queue y.no
      let d := (d0.fryWr h.queue (a + 1088 + y.rows * s.dev.fryRB h.queue + h.off) (b.drop 64)).fryWr h.queue (a + 64 + 16 * y.rows) (Dev.fryTag k h)
      Completes (.row k b) s (Dev.fryClose 2 h.queue (d.updFryQ h.queue fun x => { x with open_ := x.open_.map fun (z : FryBatch) =>
        if z.no = y.no then { z with rows := z.rows + 1, granted := z.granted - 1, parts := z.parts.filter fun (e : FryPiece) =>
          !(e.from_ = k.val && e.job = h.job && e.gen = h.gen && e.t = h.t && e.k = h.k) } else z })).watch) ∧
    (comes 0x13 → (s.dev.fryQ h.queue).open_ = [] → Completes (.row k b) s d0.watch) ∧
    Completes (.batchDeadline q n) s (Dev.fryClose 2 q (s.dev.updFryQ q fun x => { x with
      open_ := x.open_.map fun (z : FryBatch) => if z.no = n ∧ 0 < z.rows then { z with late := true } else z })).watch ∧
    ((s.dev.fryQ q).closed = [] → Completes (.batchReturn q) s s.dev.watch) ∧
    (∀ no rows r cc, (s.dev.fryQ q).closed = (no, rows) :: r → s.dev.deviceNo (s.dev.rd (Reg.FRY_EQA_PART q)) (s.dev.rd (Reg.FRY_EQA_NCORE q)) = some cc →
      (s.dev.flagVal cc (s.dev.rd (Reg.FRY_EQA_RFLAG q)) + 2 ^ 64 - (s.dev.fryQ q).seen) % 2 ^ 64 ≠ 0 →
      let d := (List.range rows).foldl (fun (d : Dev) i => d.fryReturnRow q (s.dev.frySlotAddr q no) i) s.dev
      Completes (.batchReturn q) s (((d.setFryQ q { d.fryQ q with closed := r, seen := ((s.dev.fryQ q).seen + 1) % 2 ^ 64 }).wr
        (Reg.FRY_EQS_NEXTRET q) (no + 1)).fryWaiters q).watch) ∧
    (comes 0x14 → (s.dev.fryJob h.job).desc = some c →
      let i := c.k * h.t + h.k
      (s.dev.frySt h.job ≠ 2 ∨ h.gen ≠ s.dev.fryGen h.job → Completes (.result k b) s d0.watch) ∧
      (∀ x, s.dev.frySt h.job = 2 → h.gen = s.dev.fryGen h.job → s.dev.frySlotOf h.job i = .sent dest x →
        (h.code ≠ 0 → Completes (.result k b) s ((d0.setFrySlot h.job i .failed).frySettle h.job).watch) ∧
        (∀ d, h.code = 0 → d0.vaWrite (s.dev.fryPart h.job) none (c.stage + i * c.rrowb * 64 + h.off) (b.drop 64) = (.ok (), d) →
          c.rrowb * 64 ≤ (b.drop 64).length → (d.now - tabGet 0 i (d.fryJob h.job).sentAt) / 64 ≤ d.rd Reg.FRY_LATMAX_LAT →
          Completes (.result k b) s (((((d.setFrySlot h.job i .result).updFry h.job fun y => { y with
            parts := tabPut [] i [] y.parts }).fryCombine h.job h.t).frySettle h.job).watch)))) ∧
    (comes 0x15 → Completes (.ferryRelease k b) s (Dev.fryClose 2 h.queue ((d0.updFryQ h.queue fun x => { x with
      open_ := x.open_.map fun (z : FryBatch) => if z.no = h.batch then { z with granted := z.granted - h.rows } else z }).fryWaiters h.queue)).watch) ∧
    (s.dev.frySt j = 2 → s.dev.rd Reg.FRY_BDL_JWD ≠ 0 → Completes (.jobWatchdog j) s (s.dev.fryEnd j 2).watch) ∧
    (s.dev.rd Reg.FRY_BDL_JWD = 0 → Completes (.jobWatchdog j) s s.dev.watch) ∧
    (s.dev.frySt j ≠ 0 → Completes (.jobAbort j) s (s.dev.fryEnd j 3).watch) ∧
    (s.dev.frySt j = 0 → Completes (.jobAbort j) s s.dev.watch) ∧
    (∀ (d : Dev) (t : Nat), (d.fryJob j).desc = some c → (d.fryEnd j t).frySt j = 0 ∧ (d.fryEnd j t).fryJob j = FryJob.reset ∧
      ((d.fryEnd j t).src (1216 + j)).raw = true) ∧
    (∀ (x : Nat) (l : List Nat), x < l.sum → ∃ w, l[fryPick x 0 l]? = some w ∧ 0 < w) ∧
    (∀ t kk bid w : Nat, 0 < w → fryHash t kk bid w < w)

/-! Bell time, the timetable and the loss-scale controller (R118 to R128, R294 to R315). -/

/-- The bell unit (Table BL-1, R295 to R304). The counter moves by the ticks told; an invalid frame is counted and forgotten; an unlocked
unit locks to two agreeing frames, loading the counter when it is behind; four edges missing lose the reference; a lost source leads to
the first usable candidate or to HOLDOVER; its expiry is FREE, which makes the part quiet; FORCE takes the selected source; clearing
EN unlocks. -/
def Obligations.BellFollowsItsSources : Prop :=
  ∀ (s : State) (dt missed : Nat) (sym : Fin 4),
    let b := s.dev.bell
    let st := s.dev.blState
    let d0 : Dev := { s.dev with now := s.dev.now + dt }
    let syms' := if sym = 2 then [2] else if b.syms = [] then [] else (b.syms ++ [sym.val]).take 97
    let d1 : Dev := { d0 with bell := { b with syms := syms' } }
    let usable (l : Nat) : Bool := s.dev.lkUsableErr l && !([s.dev.rd Reg.BL_STAT_SRCLINK].contains l)
    (st ≠ 1 → Completes (.markerEdge dt sym) s d1) ∧
    (st = 1 → d1.edgeErr.natAbs ≤ 3200 → Completes (.markerEdge dt sym) s ({ d1 with bell := { d1.bell with missing := 0 } }.blErr d1.edgeErr)) ∧
    (st = 1 → 3200 < d1.edgeErr.natAbs → Completes (.markerEdge dt sym) s
      ({ d1 with bell := { d1.bell with missing := b.missing + 1 } }.incSat Reg.BL_CNT_MISSEDGE 1)) ∧
    (b.syms.length < 96 → Completes (.frame dt) s d0) ∧
    (96 ≤ b.syms.length → frameOf (b.syms.take 96) = none →
      Completes (.frame dt) s ({ d0 with bell := { b with syms := [], prevT := none } }.incSat Reg.BL_CNT_BADFRAME 1)) ∧
    (∀ t, 96 ≤ b.syms.length → frameOf (b.syms.take 96) = some t → b.prevT = some (t - 384000) → 384000 ≤ t →
      s.dev.flag Reg.BL_CTL_EN = true → s.dev.rd Reg.BL_CTL_SRCSEL = 0 →
      let e : Int := 16 * t + s.dev.refDly - 16 * (s.dev.now + dt : Nat)
      (st = 0 → 0 ≤ e → ∃ d, Completes (.frame dt) s d ∧ d.blState = 1 ∧ d.now = s.dev.now + dt + (e / 16).toNat ∧ d.rd Reg.BL_STAT_DEPTH = 0) ∧
      (st = 3 ∨ st = 4 → e.natAbs ≤ slewMax16 → ∃ d, Completes (.frame dt) s d ∧ d.blState = 1 ∧ d.now = s.dev.now + dt) ∧
      (st = 3 ∨ st = 4 → slewMax16 < e.natAbs → ∃ d, Completes (.frame dt) s d ∧ d.blState = st ∧ d.flag Reg.BL_STAT_BIGERR = true)) ∧
    (st = 1 → 4 ≤ b.missing + missed → s.dev.flag Reg.BL_CTL_FALLBK = false → ∃ d, Completes (.referenceLost missed) s d ∧ d.blState = 3) ∧
    (st ≠ 1 → Completes (.referenceLost missed) s s.dev) ∧
    (st = 2 → s.dev.blCands.find? usable = none → ∃ d, Completes .sourceLinkUnusable s d ∧ d.blState = 3) ∧
    (∀ l, st = 2 → s.dev.blCands.find? usable = some l → ∃ d, Completes .sourceLinkUnusable s d ∧ d.blState = 2 ∧
      d.rd Reg.BL_STAT_SRCLINK = l % 32) ∧
    (st ≠ 2 → Completes .sourceLinkUnusable s s.dev) ∧
    (st = 3 → ∃ d, Completes .holdoverExpiry s d ∧ d.blState = 4 ∧ d.bellQuiet = true ∧ d.flag Reg.BL_STAT_FREEEV = true ∧
      d.pins.quietN = s.dev.vstby) ∧
    (st ≠ 3 → Completes .holdoverExpiry s s.dev) ∧
    (∀ e, st = 3 ∨ st = 4 → s.dev.rd Reg.BL_CTL_SRCSEL = 0 → s.dev.refErr = some e → ∃ d, Completes .force s d ∧ d.blState = 1) ∧
    (st ≠ 3 → st ≠ 4 → Completes .force s s.dev) ∧
    (∃ d, Completes .bellEnClear s d ∧ d.blState = 0 ∧ d.flag Reg.BL_CTL_EN = false)

/-- The timetable and the loss-scale controller (R121 to R128, R305 to R310, R315). A due entry acts and moves to its next time, or ends;
one that may not fire is counted as missed; PACE is at most 16; DISALL disables all. SETLSE clamps; SETOVF marks the step; EVAL halves
on overflow, doubles after N clean steps, else counts a clean one; writes wait while the controller is CLOSING; the gauge's clears reach
exactly the units named. -/
def Obligations.TimetableAndLossScaleAct : Prop :=
  ∀ (s : State) (p : PartNo) (n : Fin 256) (l : BitVec 5) (v lo hi init : BitVec 8) (nn : BitVec 16) (c : CoreNo) (m3 : BitVec 3) (m4 : BitVec 4),
    let t := s.dev.rd (Reg.TT_TIME_TIME p n)
    let at_ : Dev := s.dev.advanceTo t
    let on := s.dev.flag (Reg.TT_ACT_EN p n) = true
    let e := Dev.s8 (s.dev.rd (Reg.LS_STAT_LSE p))
    let low := Dev.s8 (s.dev.rd (Reg.LS_CFG_LSE_MIN p))
    let high := Dev.s8 (s.dev.rd (Reg.LS_CFG_LSE_MAX p))
    let clean := s.dev.rd (Reg.LS_STAT_CLEAN p)
    let closing := s.dev.flag (Reg.LS_STAT_CLOSING p) = true
    let evals := ¬ closing ∧ s.dev.flag (Reg.LS_CFG_EN p) = true ∧ s.dev.flag (Reg.LS_MIRROR_EN p) = false
    (¬ on → Completes (.timetableFire p n) s s.dev.watch) ∧
    (on → at_.ttCanFire p = true → s.dev.now ≤ t → tabGet 0 n (s.dev.part p).ttMiss ≠ t + 1 →
      Completes (.timetableFire p n) s ((at_.ttIssue p n).ttNext p n).watch) ∧
    (on → at_.ttCanFire p = false → Completes (.timetableFire p n) s (at_.ttMissed p n).watch) ∧
    (∀ d : Dev, d.paused p = false → d.rd (Reg.TT_ACT_ACT p n) = 5 →
      (d.ttIssue p n).rd (Reg.TT_PACE_LEVEL p) = Dev.paceOf (d.rd (Reg.TT_PACE_LEVEL p)) (d.rd (Reg.TT_ACT_ARG p n)) % 32) ∧
    (∀ d : Dev, d.rd (Reg.TT_ACT_PER p n) = 0 → d.ttNext p n = d.clrF (Reg.TT_ACT_EN p n)) ∧
    (∀ d : Dev, d.rd (Reg.TT_ACT_PER p n) ≠ 0 → d.rd (Reg.TT_ACT_REP p n) = 0 →
      d.ttNext p n = d.incWrap (Reg.TT_TIME_TIME p n) (64 * d.rd (Reg.TT_ACT_PER p n))) ∧
    Completes (.ttPace p l) s (s.dev.wr (Reg.TT_PACE_LEVEL p) (min 16 l.toNat)) ∧
    (∃ d, Completes (.disall p) s d ∧ ∀ i, i < 256 → d.flag (Reg.TT_ACT_EN p i) = false) ∧
    (¬ closing → Completes (.setlse p v) s
      ((s.dev.wr (Reg.LS_STAT_LSE p) (Dev.ofS8 (min (max (Dev.s8 v.toNat) low) high))).wr (Reg.LS_STAT_CLEAN p) 0)) ∧
    (closing → Completes (.setlse p v) s (s.dev.updPart p fun x => { x with lsHeld := x.lsHeld ++ [(false, 1 + 2 ^ 8 * v.toNat)] })) ∧
    (¬ closing → Completes (.setovf p) s (s.dev.setF (Reg.LS_STAT_OVF_LOCAL p))) ∧
    (¬ closing → s.dev.flag (Reg.LS_CFG_EN p) = false → Completes (.eval p) s s.dev) ∧
    (evals → ∃ d, Completes (.eval p) s d ∧ d.rd (Reg.LS_STAT_SEQ p) = (s.dev.rd (Reg.LS_STAT_SEQ p) + 1) % 2 ^ 32 ∧
      d.rd (Reg.LS_STAT_OVF_LOCAL p) = s.dev.rd (Reg.LS_STAT_OVF_PEND p) % 2 ∧
      (s.dev.flag (Reg.LS_STAT_OVF_LOCAL p) = true →
        d.rd (Reg.LS_STAT_LSE p) = Dev.ofS8 (max (e - 1) low) % 256 ∧ d.rd (Reg.LS_STAT_CLEAN p) = 0) ∧
      (s.dev.flag (Reg.LS_STAT_OVF_LOCAL p) = false → clean + 1 < s.dev.rd (Reg.LS_CFG_N p) →
        d.rd (Reg.LS_STAT_LSE p) = s.dev.rd (Reg.LS_STAT_LSE p) ∧ d.rd (Reg.LS_STAT_CLEAN p) = (clean + 1) % 2 ^ 16) ∧
      (s.dev.flag (Reg.LS_STAT_OVF_LOCAL p) = false → s.dev.rd (Reg.LS_CFG_N p) ≤ clean + 1 →
        d.rd (Reg.LS_STAT_LSE p) = Dev.ofS8 (min (e + 1) high) % 256 ∧ d.rd (Reg.LS_STAT_CLEAN p) = 0)) ∧
    (¬ closing → s.dev.flag (Reg.LS_CFG_EN p) = false → nn ≠ 0 → -32 ≤ Dev.s8 lo.toNat → Dev.s8 lo.toNat ≤ Dev.s8 hi.toNat → Dev.s8 hi.toNat ≤ 48 →
      ∃ d, Completes (.lsEnable p nn lo hi init) s d ∧ d.flag (Reg.LS_CFG_EN p) = true ∧ d.rd (Reg.LS_CFG_N p) = nn.toNat ∧
        d.rd (Reg.LS_STAT_LSE p) = Dev.ofS8 (min (max (Dev.s8 init.toNat) (Dev.s8 lo.toNat)) (Dev.s8 hi.toNat)) % 256 ∧ d.rd (Reg.LS_STAT_CLEAN p) = 0) ∧
    (¬ closing → Completes (.lsEnable p 0 lo hi init) s s.dev) ∧
    (∃ d, Completes (.clrcnt c m3) s d ∧ ∀ k, 1 ≤ k → k ≤ 3 →
      (bit m3.toNat (k - 1) = true → d.rd (Reg.GAU_CNT_SAT c k) = 0 ∧ d.rd (Reg.GAU_CNT_FLUSH c k) = 0 ∧ d.rd (Reg.GAU_NAN_NAN c k) = 0) ∧
      (bit m3.toNat (k - 1) = false → d.rd (Reg.GAU_CNT_SAT c k) = s.dev.rd (Reg.GAU_CNT_SAT c k))) ∧
    (∃ d, Completes (.clrh c m4) s d ∧ ∀ k b, k < 4 → b < 130 →
      (bit m4.toNat k = true → d.rd (Dev.histFld c k b) = 0) ∧ (bit m4.toNat k = false → d.rd (Dev.histFld c k b) = s.dev.rd (Dev.histFld c k b)))

/-! Accepted work (R316 to R335). -/

/-- Rings and acceptance (R317, R318, R321, R323, R334). A doorbell advances D inside the ring, or sets DBERR; an entry is taken only
from an enabled ring with an entry declared, room for its completion record and a free journal slot; an accepted NOP takes the next
JSEQ and moves ACC; a wrong SEQ stops the ring; an entry that fails its checks is REJECTED and ACC moves; enabling a ring begins at
CQ_HEAD once ACC = DONE. -/
def Obligations.RingsAcceptInOrder : Prop :=
  ∀ (s : State) (p : PartNo) (r : RingNo) (v : Word),
    let acc := s.dev.ringAcc p r
    let size := s.dev.ringSize p r
    let x := s.dev.ring p r
    let at_ := s.dev.rd (Reg.RING_BASE_BASE p r) * 64 + 64 * (acc % size)
    let en (d : Dev) : Bool := d.flag (Reg.RING_CFG_EN p r)
    (x.d ≤ v.toNat → v.toNat ≤ acc + size → Completes (.doorbell p r v) s (s.dev.setRing p r { x with d := v.toNat })) ∧
    (v.toNat < x.d ∨ acc + size < v.toNat → ∃ d, Completes (.doorbell p r v) s d ∧ d.flag (Reg.RING_STAT_DBERR p r) = true ∧ d.ring p r = x ∧
      d.ringAcc p r = acc) ∧
    (∀ i, s.dev.acceptSlot p r = some i → en s.dev = true ∧ s.dev.flag Reg.JNL_CTL_EN = true ∧ acc < x.d ∧
      (acc + 2 ^ 64 - s.dev.rd (Reg.CQ_HEAD_HEAD p r)) % 2 ^ 64 < size ∧ (s.dev.jr (Dev.slotBase p + i)).st = .free ∧
      ∀ k, k < i → (s.dev.jr (Dev.slotBase p + k)).st ≠ .free ∨ s.dev.flag Reg.JNL_STAT_REMIRROR = true) ∧
    ((∀ k, k < 512 → s.dev.acceptSlot (k / 64) (k % 64) = none) → Completes .acceptance s s.dev) ∧
    (∀ i b d1, s.dev.acceptSlot p r = some i → s.dev.rrNext = 64 * p + r → s.dev.hostHeld p at_ 64 = false →
      s.dev.intakeRead p at_ 64 = (some b, d1) →
      let c := cmdEnt b
      (c.seq ≠ acc → ∃ d, Completes .acceptance s d ∧ en d = false ∧ d.flag (Reg.RING_STAT_SEQERR p r) = true ∧
        d.flag (Reg.RING_STAT_STOPPED p r) = true ∧ d.ringAcc p r = d1.ringAcc p r) ∧
      (c.seq = acc → c.bad (d1.coresOf p).length = true → Completes .acceptance s { d1.reject p r acc 1 c.user c.cirq with
        rrNext := (64 * p + r + 1) % 512 }) ∧
      (c.seq = acc → c.bad (d1.coresOf p).length = false → c.op = 0 → c.nout = 0 → ∃ d, Completes .acceptance s d ∧
        (d.jr (Dev.slotBase p + i)).st = .accepted ∧ (d.jr (Dev.slotBase p + i)).jseq = d1.rd (Reg.JNL_JSEQ_JSEQ p) ∧
        (d.jr (Dev.slotBase p + i)).entry = b ∧ d.rd (Reg.JNL_JSEQ_JSEQ p) = (d1.rd (Reg.JNL_JSEQ_JSEQ p) + 1) % 2 ^ 64 ∧
        d.ringAcc p r = (acc + 1) % 2 ^ 64 ∧ d.rrNext = (64 * p + r + 1) % 512)) ∧
    (∀ i d1, s.dev.intakeRead p at_ 64 = (none, d1) → s.dev.acceptSlot p r = some i → s.dev.rrNext = 64 * p + r →
      s.dev.hostHeld p at_ 64 = false → ∃ user irq, Completes .acceptance s
        { d1.fresh.2.reject p r acc 2 user irq with rrNext := (64 * p + r + 1) % 512 }) ∧
    (∀ cause user irq, x.enReq = false → (s.dev.reject p r acc cause user irq).ringAcc p r = (acc + 1) % 2 ^ 64) ∧
    (en s.dev = true → Completes (.ringEnable p r) s s.dev) ∧
    (en s.dev = false → acc ≠ s.dev.ringDone p r → Completes (.ringEnable p r) s (s.dev.setRing p r { x with enReq := true })) ∧
    (en s.dev = false → acc = s.dev.ringDone p r →
      let h := s.dev.rd (Reg.CQ_HEAD_HEAD p r)
      ∃ d, Completes (.ringEnable p r) s d ∧ en d = true ∧ d.flag (Reg.RING_STAT_STOPPED p r) = false ∧ d.ringAcc p r = h % 2 ^ 64 ∧
        d.ringDone p r = h % 2 ^ 64 ∧ (d.ring p r).d = h)

/-- Commands run and end (R319, R325 to R330, R333, R440; Tables AW-5, AW-6). A command starts only under its start conditions; a NOP
commits at once; RUN puts every named core at PC; an arm list is checked whole before anything is armed; an attempt whose parts have
ended commits, replays or fails by its events; the flip done reports, and the report written advances DONE and frees the slot.
Shadow pages and the record copies (R324, R328). The copy a write waits for leaves the page's bytes outside an OVERWRITE range in
the shadow; when it is done the command's cores go on; after a pair's loss every record has its copies again. -/
def Obligations.CommandsRunOnShadows : Prop :=
  (∀ (s : State) (p : PartNo) (i : RecNo) (r : RingNo),
    let g := Dev.slotBase p + i
    let x := s.dev.jr g
    let c := cmdEnt x.entry
    let starts := s.dev.startOk p i = true ∧ s.dev.flag (Reg.PD_STEP_EN p) = false ∧ x.step = 0
    let d0 := s.dev.startCmd p i
    let allEnded := x.st = .running ∧ s.dev.isQuiet p = false ∧ s.dev.ptState p = 1 ∧ s.dev.flag (Reg.PD_STEP_EN p) = false ∧ x.step = 0 ∧
      ∀ k, k ∈ x.parts → s.dev.partRuns p x k = false
    (s.dev.startOk p i = false → Completes (.commandStart p i) s s.dev) ∧
    (x.step = 1 → Completes (.commandStart p i) s s.dev) ∧
    (starts → Completes (.commandStart p i) s (if (d0.jr g).parts = [] then d0.partEnd p i else d0)) ∧
    (s.dev.startOk p i = true → s.dev.flag (Reg.PD_STEP_EN p) = true → x.step = 0 → ∃ d, Completes (.commandStart p i) s d ∧
      (d.jr g).step = 1 ∧ (d.jr g).st = .accepted ∧ d.rd (Reg.PD_STEP_HELD p) = 1) ∧
    (c.op ≠ 0 → Completes (.commandNop p i) s s.dev) ∧
    (c.op ≠ 1 → Completes (.run p i) s s.dev) ∧
    (c.op ≠ 2 → Completes (.armcf p i) s s.dev) ∧
    (c.op ≠ 3 → Completes (.armfy p i) s s.dev) ∧
    (c.op ≠ 4 → Completes (.waitCommand p i) s s.dev) ∧
    (x.replay = false → Completes (.replay p i) s s.dev) ∧
    (starts → x.replay = true → Completes (.replay p i) s (if (d0.jr g).parts = [] then d0.partEnd p i else d0)) ∧
    (starts → c.op = 0 → ∃ d, Completes (.commandNop p i) s d ∧ (d.jr g).st = .committing ∧ (d.jr g).status = 0 ∧ (d.jr g).tstart = s.dev.now) ∧
    (starts → c.op = 1 → s.dev.namedCores p x ≠ [] → ∃ d, Completes (.run p i) s d ∧ (d.jr g).st = .running ∧
      (d.jr g).parts = s.dev.namedCores p x ∧ (d.jr g).replay = false ∧
      ∀ k, k ∈ s.dev.namedCores p x → (d.core k).cmd = some (p.val, i.val) ∧ (d.core k).pc = BitVec.ofNat 48 c.pc ∧ (d.core k).run = true) ∧
    (starts → c.op = 2 → Completes (.armcf p i) s (if (d0.jr g).parts = [] then d0.partEnd p i else d0)) ∧
    (starts → c.op = 3 → Completes (.armfy p i) s (if (d0.jr g).parts = [] then d0.partEnd p i else d0)) ∧
    (starts → c.op = 4 → (s.dev.ringDone p c.pc < c.args → ∃ d, Completes (.waitCommand p i) s d ∧ (d.jr g).st = .running) ∧
      (c.args ≤ s.dev.ringDone p c.pc → ∃ d, Completes (.waitCommand p i) s d ∧ (d.jr g).st = .committing ∧ (d.jr g).status = 0)) ∧
    (∀ (op : Nat) (l : List (Nat × Nat)) (d d' : Dev) (bs : List (Nat × List Byte)), d.armCheck p op [] 0 l = (.ok bs, d') →
      bs.map Prod.fst = l.map Prod.snd ∧ (l.map Prod.snd).Nodup ∧ d'.cfs = d.cfs ∧ d'.fry = d.fry) ∧
    (x.st ≠ .running → Completes (.partEnd p i) s s.dev) ∧
    (allEnded → x.outcome = none → x.marked = false → (∀ k e, k ∈ s.dev.namedCores p x → e < 4 → (s.dev.eng k e).remote = []) →
      ∃ d, Completes (.partEnd p i) s d ∧ (d.jr g).st = .committing ∧ (d.jr g).status = (if x.withheld then 1 else 0)) ∧
    (allEnded → x.outcome = none → x.marked = true → s.dev.replayable p x = true →
      ∃ d, Completes (.partEnd p i) s d ∧ (d.jr g).st = .accepted ∧ (d.jr g).replays = x.replays + 1 ∧ (d.jr g).replay = true) ∧
    (allEnded → x.outcome = none → x.marked = true → s.dev.replayable p x = false →
      ∃ d, Completes (.partEnd p i) s d ∧ (d.jr g).st = .committing ∧ (d.jr g).status = 2 ∧ (d.jr g).cause = 8) ∧
    (∀ cause det, allEnded → x.outcome = some (3, cause, det) →
      ∃ d, Completes (.partEnd p i) s d ∧ (d.jr g).st = .reporting ∧ (d.jr g).status = 3 ∧ (d.jr g).cause = cause ∧ (d.jr g).tend = s.dev.now) ∧
    (x.st ≠ .committing → Completes (.flipDone p i) s s.dev) ∧
    (x.st = .committing → ∃ d, Completes (.flipDone p i) s d ∧ (d.jr g).st = .reporting ∧ (d.jr g).status = x.status ∧ (d.jr g).tend = s.dev.now) ∧
    ((s.dev.recsOf p).find? (fun e => e.2.ring = r.val && e.2.seq = s.dev.ringDone p r && e.2.st = .reporting) = none →
      Completes (.reportDone p r) s (s.dev.flushRej ((s.dev.ring p r).rej.length + 1) p r)) ∧
    (∀ y, (s.dev.recsOf p).find? (fun e => e.2.ring = r.val && e.2.seq = s.dev.ringDone p r && e.2.st = .reporting) = some (i.val, y) → x.rptDone = true →
      s.dev.canReport p r = true → (s.dev.ring p r).rej = [] → (s.dev.ring p r).enReq = false →
      ∃ d, Completes (.reportDone p r) s d ∧ d.ringDone p r = (y.seq + 1) % 2 ^ 64 ∧ d.jr g = JRec.reset) ∧
    ((∀ e, e ∈ s.dev.recsOf p → e.2.ring ≠ r.val) → s.dev.isQuiet p = false → Completes (.abandon p r) s s.dev) ∧
    (∀ y, (s.dev.recsOf p).filter (fun e => e.2.ring = r.val) = [(i.val, y)] → s.dev.isQuiet p = false → x.st = .accepted ∨ x.st = .running →
      ∃ d, Completes (.abandon p r) s d ∧ (d.jr g).st = .reporting ∧ (d.jr g).status = 5 ∧ (d.jr g).cause = 0x0B)) ∧
  (∀ (s : State) (p : PartNo) (i : RecNo) (v : BitVec 27) (k : Nat),
    let here (x : Shadow) : Bool := x.slot = i.val && x.va = v.toNat && x.copying && !x.filled
    let there (x : Shadow) : Bool := x.slot = i.val && x.va = v.toNat && x.copying && x.filled
    ((s.dev.part p).shadows.find? here = none → Completes (.copyOnWrite p i v) s s.dev) ∧
    (s.dev.isQuiet p = true → ∃ d, Completes (.copyOnWrite p i v) s d ∧ d.part p = s.dev.part p ∧ d.hbm = s.dev.hbm) ∧
    (∀ x, (s.dev.part p).shadows.find? here = some x → s.dev.isQuiet p = false → Dev.leafPage x.leaf ≠ x.shadow → tabWf 0 s.dev.hbm = true →
      ∃ d, Completes (.copyOnWrite p i v) s d ∧
        (∀ o, o < pageBytes → (∀ q, q ∈ x.ovw → ¬ (q.1 ≤ o ∧ o < q.2)) →
          tabGet 0 (x.shadow * pageBytes + o) d.hbm = tabGet 0 (Dev.leafPage x.leaf * pageBytes + o) s.dev.hbm) ∧
        (x.ovw = [] → ∀ a, a < x.shadow * pageBytes ∨ (x.shadow + 1) * pageBytes ≤ a → tabGet 0 a d.hbm = tabGet 0 a s.dev.hbm)) ∧
    ((s.dev.part p).shadows.any there = false → Completes (.copyOnWriteDone p i v) s s.dev) ∧
    ((s.dev.part p).shadows.any there = true → ∃ d, Completes (.copyOnWriteDone p i v) s d ∧
      (∀ x, x ∈ (d.part p).shadows → x.slot = i.val → x.va = v.toNat → x.copied = true ∧ x.copying = false) ∧
      (∀ c e, c ∈ s.dev.coresOf p → (s.dev.core c).cmd = some (p.val, i.val) → e < 4 → (d.eng c e).cow ≠ some v.toNat) ∧ d.hbm = s.dev.hbm) ∧
    (s.dev.flag Reg.JNL_STAT_REMIRROR = false → Completes .remirror s s.dev) ∧
    (s.dev.flag Reg.JNL_STAT_REMIRROR = true → ∃ d, Completes .remirror s d ∧ d.flag Reg.JNL_STAT_REMIRROR = false ∧
      (tabWf JRec.reset s.dev.jrec = true → (s.dev.jr k).copies.length = 1 → (d.jr k).copies = ((s.dev.jr k).copies ++ s.dev.recPlaces k).eraseDups)))

/-! Partitions (R343 to R349, R355). -/

/-- A partition's states (Table PT-5) and its keys (R355). An operation that the state does not list, or that lacks what it needs, is
REFUSED with its code; a fence stops the cores, passes its point once they have stopped, with every cached translation gone, and ends
ACTIVE or QUIESCED; RELEASE ends FREE with tile stores zero, ownership cleared and the keys destroyed; a key changes only while
nothing is held under it. -/
def Obligations.PartitionsFollowTheirStates : Prop :=
  ∀ (s : State) (p : PartNo),
    let st := s.dev.ptState p
    let x := s.dev.part p
    let no (i : Instr) (code : Nat) : Prop := Completes i s (s.dev.ptRefuse p code)
    let stopped := s.dev.allStopped (s.dev.coresOf p) = true
    (∀ k : Nat, k < 16 → (s.dev.ptRefuse p k).flag (Reg.PT_STAT_REFUSED p) = true ∧ (s.dev.ptRefuse p k).rd (Reg.PT_STAT_REFCODE p) = k) ∧
    (st ≠ 0 → no (.create p) 1) ∧
    (st = 0 → x.hkey = none → no (.create p) 8) ∧
    (st = 0 → x.hkey ≠ none → x.zeroing ≠ [] → Completes (.create p) s (s.dev.updPart p fun x => { x with creating := true })) ∧
    (st = 0 → x.hkey ≠ none → x.zeroing = [] → ∃ d, Completes (.create p) s d ∧ d.ptState p = 1 ∧ d.inUse p = s.dev.inUse p ∧
      (∀ n, n < 64 → d.pass p n = HallPass.reset) ∧ (d.part p).hkey = x.hkey) ∧
    (st = 0 ∨ st = 4 → no (.fence p) 1 ∧ no (.quiesce p) 1) ∧
    (st = 3 → no (.quiesce p) 1) ∧
    (st = 1 → Completes (.fence p) s (s.dev.fenceBegin p 2 false) ∧ Completes (.quiesce p) s (s.dev.fenceBegin p 2 true)) ∧
    ((s.dev.fenceBegin p 2 true).ptState p = 2 ∧ ∀ c, c ∈ s.dev.coresOf p → bit ((s.dev.fenceBegin p 2 true).core c).stopReq 2 = true) ∧
    (st = 2 → Completes (.fence p) s s.dev ∧ Completes (.quiesce p) s (s.dev.updPart p fun x => { x with quiesce := true })) ∧
    (st = 3 → ∃ d, Completes (.fence p) s d ∧ d.ptState p = 3 ∧ (d.part p).tlb = [] ∧
      d.rd (Reg.PT_STAT_FENCES p) = (s.dev.rd (Reg.PT_STAT_FENCES p) + 1) % 2 ^ 32) ∧
    (st ≠ 2 ∨ ¬ stopped → Completes (.fencePoint p) s s.dev) ∧
    (st = 2 → stopped → x.quiesce = true → ∃ d, Completes (.fencePoint p) s d ∧ d.ptState p = 3 ∧ (d.part p).tlb = [] ∧
      d.rd (Reg.PT_STAT_FENCES p) = (s.dev.rd (Reg.PT_STAT_FENCES p) + 1) % 2 ^ 32) ∧
    (st = 2 → stopped → x.quiesce = false → ∃ d, Completes (.fencePoint p) s d ∧ d.ptState p = 1) ∧
    (st ≠ 3 ∨ s.dev.flag Reg.HBM_REHASH_BUSY = true → no (.partitionResume p) 1) ∧
    (st = 3 → s.dev.flag Reg.HBM_REHASH_BUSY = false → ∃ d, Completes (.partitionResume p) s d ∧ d.ptState p = 1) ∧
    (st ≠ 1 → st ≠ 3 → no (.partitionRelease p) 1) ∧
    (st = 1 ∨ st = 3 → s.dev.inUse p ≠ 0 → no (.partitionRelease p) 7) ∧
    (st = 1 ∨ st = 3 → s.dev.releasable p = true → Completes (.partitionRelease p) s (s.dev.fenceBegin p 4 false)) ∧
    (st ≠ 4 ∨ ¬ stopped → Completes (.releaseDone p) s s.dev) ∧
    (st = 4 → stopped → x.pendCores = none → ∃ d, Completes (.releaseDone p) s d ∧ d.ptState p = 0 ∧ (d.part p).hkey = none ∧
      (d.part p).lkey = none ∧ (d.part p).cores = 0 ∧ (∀ e, tabGet 0 e d.owner ≠ p + 1) ∧ ∀ c, c ∈ s.dev.coresOf p → (d.core c).ts = []) ∧
    (s.dev.hkeyFree p = false → no (.genh p) 5 ∧ no (.loadh p) 5 ∧ no (.clrhKey p) 5) ∧
    (s.dev.lkeyFree p = false → no (.loadl p) 5 ∧ no (.clrl p) 5) ∧
    (s.dev.hkeyFree p = true →
      (∃ d, Completes (.genh p) s d ∧ (d.part p).hkey = some (Config.free s.dev.ctr) ∧ d.rd (Reg.PT_STAT_HSRC p) = 2) ∧
      (∃ d, Completes (.loadh p) s d ∧ (d.part p).hkey = some (s.dev.keyData p 8) ∧ d.rd (Reg.PT_STAT_HSRC p) = 1 ∧ d.keyData p 8 = 0) ∧
      (∃ d, Completes (.clrhKey p) s d ∧ (d.part p).hkey = none ∧ d.rd (Reg.PT_STAT_HSRC p) = 0)) ∧
    (s.dev.lkeyFree p = true →
      (∃ d, Completes (.loadl p) s d ∧ (d.part p).lkey = some (s.dev.keyData p 4) ∧ d.rd (Reg.PT_STAT_LSRC p) = 1 ∧ d.keyData p 4 = 0) ∧
      (∃ d, Completes (.clrl p) s d ∧ (d.part p).lkey = none ∧ d.rd (Reg.PT_STAT_LSRC p) = 0))

/-- Extents, the reserve, stage-1 invalidation and suspended shares (R343, R344, R346, R349). An assignment is refused while an extent
is another's, and zeroes what it assigns; in a FREE partition a removal or reserve operation takes effect when written; an
invalidation removes every translation of its GiB, or all with the new root; a share that is not met is recorded once. -/
def Obligations.ExtentsReserveAndInvalidations : Prop :=
  ∀ (s : State) (p : PartNo) (first n : BitVec 17) (all : Bool) (page : BitVec 27) (r : Fin 8) (cause : BitVec 4) (a : Nat),
    let x := s.dev.part p
    let own (e : Nat) : Nat := tabGet 0 e s.dev.owner
    let mine := ∀ i, i < n.toNat → own (first.toNat + i) = p + 1
    (n = 0 → Completes (.extentAssign p first n) s s.dev) ∧
    (n ≠ 0 → x.hkey = none → Completes (.extentAssign p first n) s (s.dev.ptRefuse p 8)) ∧
    (n ≠ 0 → x.hkey ≠ none → (∃ i, i < n.toNat ∧ own (first.toNat + i) ≠ 0 ∧ own (first.toNat + i) ≠ p + 1) →
      Completes (.extentAssign p first n) s (s.dev.ptRefuse p 4)) ∧
    (n ≠ 0 → x.hkey ≠ none → (∀ i, i < n.toNat → first.toNat + i < 130560 ∧ (own (first.toNat + i) = 0 ∨ own (first.toNat + i) = p + 1) ∧
        first.toNat + i ∉ s.dev.tableExtents) →
      (∀ q z, q < 8 → q ≠ p.val → z ∈ (s.dev.part q).zeroing → z.1 + z.2 ≤ first.toNat ∨ first.toNat + n.toNat ≤ z.1) →
      Completes (.extentAssign p first n) s (s.dev.updPart p fun x => { x with zeroing := x.zeroing ++ [(first.toNat, n.toNat)] })) ∧
    (s.dev.devQuiet = true ∨ x.zeroing = [] → Completes (.extentZeroed p) s s.dev) ∧
    (∀ e k t, s.dev.devQuiet = false → x.zeroing = (e, k) :: t → tabWf 0 s.dev.hbm = true → ∃ d, Completes (.extentZeroed p) s d ∧
      (∀ i, i < k → tabGet 0 (e + i) d.owner = p + 1) ∧ (e * extentBytes ≤ a → a < (e + k) * extentBytes → tabGet 0 a d.hbm = 0) ∧
      (a < e * extentBytes ∨ (e + k) * extentBytes ≤ a → tabGet 0 a d.hbm = tabGet 0 a s.dev.hbm) ∧
      (x.creating = false → (d.part p).zeroing = t) ∧ (x.creating = true → t = [] → d.ptState p = 1)) ∧
    (n ≠ 0 → ¬ mine → Completes (.extentRemove p first n) s (s.dev.ptRefuse p 4)) ∧
    (n ≠ 0 → mine → (∀ i j, i < n.toNat → j < 3 → tabGet 0 (3 * (first.toNat + i) + j) s.dev.rsv = 0) →
      Completes (.extentRemove p first n) s ((s.dev.updPart p fun x => { x with pendRm := x.pendRm ++ [(first.toNat, n.toNat)] }).settle p)) ∧
    (¬ mine → Completes (.reserveAdd p first n) s (s.dev.ptRefuse p 4) ∧ Completes (.reserveTake p first n) s (s.dev.ptRefuse p 4)) ∧
    (mine → Completes (.reserveAdd p first n) s ((s.dev.updPart p fun x => { x with pendRsv := x.pendRsv ++ [(first.toNat, n.toNat, true)] }).settle p) ∧
      Completes (.reserveTake p first n) s ((s.dev.updPart p fun x => { x with pendRsv := x.pendRsv ++ [(first.toNat, n.toNat, false)] }).settle p)) ∧
    (∀ d : Dev, d.ptState p ≠ 0 → d.settle p = d) ∧
    (∀ d : Dev, d.ptState p = 0 → (d.settle p).ptState p = 0 ∧ ((d.settle p).part p).pendRsv = [] ∧ ((d.settle p).part p).pendRm = []) ∧
    (∀ d : Dev, (d.part p).pendRm = [(first.toNat, n.toNat)] → ∀ i, i < n.toNat → tabGet 0 (first.toNat + i) (d.applyRm p).owner ≠ p + 1) ∧
    Completes (.s1Invalidate p all page) s (s.dev.updPart p fun x => { x with s1inv := x.s1inv ++ [(all, page.toNat * 2 ^ 21)] }) ∧
    (x.s1inv = [] → Completes (.invalidationDone p) s s.dev) ∧
    (∀ v t, x.s1inv = (true, v) :: t → ∃ d, Completes (.invalidationDone p) s d ∧ (d.part p).tlb = [] ∧ (d.part p).s1inv = t ∧
      (d.part p).s1base = s.dev.rd (Reg.PT_S1BASE_L1LOG p) + s.dev.rd (Reg.PT_S1BASE_BASE p) * 2 ^ 12) ∧
    (∀ v t, x.s1inv = (false, v) :: t → tabWf Leaf.reset x.tlb = true → ∃ d, Completes (.invalidationDone p) s d ∧ (d.part p).s1inv = t ∧
      (d.part p).s1base = x.s1base ∧ ∀ k, tabGet Leaf.reset k (d.part p).tlb =
        (if k / 512 = v / 2 ^ 30 then Leaf.reset else tabGet Leaf.reset k x.tlb)) ∧
    (tabGet 0 r.val x.susp = 0 → Completes (.weirWindow p r false cause) s s.dev) ∧
    (tabGet 0 r.val x.susp ≠ 0 → Completes (.weirWindow p r true cause) s s.dev) ∧
    (tabGet 0 r.val x.susp = 0 → ∃ d, Completes (.weirWindow p r true cause) s d ∧ d.rd (Reg.PT_SUSP_RES p) = r.val ∧
      d.rd (Reg.PT_SUSP_ONGOING p) = 1 ∧ d.rd (Reg.PT_SUSP_DUR p) = 0 ∧ (d.src (3840 + 32 * p + 18)).raw = true) ∧
    (tabGet 0 r.val x.susp ≠ 0 → ∃ d, Completes (.weirWindow p r false cause) s d ∧ d.rd (Reg.PT_SUSP_ONGOING p) = 0 ∧
      tabGet 0 r.val (d.part p).susp = 0 ∧
      d.rd (Reg.PT_SUSP_DUR p) = min (2 ^ 32 - 1) ((s.dev.now - (tabGet 0 r.val x.susp - 1)) / 1024))

/-! Attestation (R356, R460). -/

/-- The SPDM responder (R356): the negotiation goes in its order; a session is opened by KEY_EXCHANGE, established by a valid FINISH,
and ended by END_SESSION; inside one on its own VF a tenant delivers keys, with status 0x00, or 0x01 where R355 refuses. The message
codes are the model's (assumption log 52). -/
def Obligations.AttestationAndTenantKeys : Prop :=
  ∀ (s : State) (fn : Fin 9) (ver i op8 : BitVec 8) (slot : BitVec 4) (off len q std ven : BitVec 16) (sid : BitVec 32) (key : List Byte) (valid : Bool),
    let up := s.dev.fnUp fn = true
    let x := s.dev.spdmOf fn
    let free (code n : Nat) (d : Dev) : Dev := (d.freshBytes n).2.spdmReply fn code (d.freshBytes n).1
    let err (j : Instr) (code : Nat) : Prop := Completes j s (s.dev.spdmError fn code)
    let ready := up ∧ x.algs = true
    let inside := ready ∧ (sid.toNat, true) ∈ x.sessions
    let vendor := Instr.vendorDefinedRequest fn sid std ven
    let p : Nat := fn.val - 1
    (¬ up → Completes (.getVersion fn) s s.dev ∧ Completes (.getDigests fn) s s.dev ∧ Completes (.heartbeat fn sid) s s.dev ∧
      Completes (.doeDiscovery fn i) s s.dev) ∧
    (up → Completes (.getVersion fn) s ((s.dev.setSpdm fn { Spdm.reset with ver := 1 }).spdmReply fn 0x04 (leBytes 1 0x12 ++ leBytes 1 0x13))) ∧
    (up → x.ver = 0 → err (.getCapabilities fn ver) 0x04) ∧
    (up → x.ver ≠ 0 → ver ≠ 0x12 → ver ≠ 0x13 → err (.getCapabilities fn ver) 0x41) ∧
    (up → x.ver ≠ 0 → ver = 0x12 ∨ ver = 0x13 →
      Completes (.getCapabilities fn ver) s (free 0x61 16 (s.dev.setSpdm fn { x with ver := ver.toNat, caps := true }))) ∧
    (∀ a b c e, up → x.caps = false → err (.negotiateAlgorithms fn a b c e) 0x04) ∧
    (∀ a b c e, up → x.caps = true → (a && b && c && e) = false → err (.negotiateAlgorithms fn a b c e) 0x01) ∧
    (up → x.caps = true → Completes (.negotiateAlgorithms fn true true true true) s (free 0x63 48 (s.dev.setSpdm fn { x with algs := true }))) ∧
    (up → x.algs = false → err (.getDigests fn) 0x04 ∧ err (.getMeasurements fn i) 0x04 ∧ err (.keyExchange fn q) 0x04) ∧
    (ready → Completes (.getDigests fn) s (free 0x01 96 s.dev)) ∧
    (ready → slot.toNat < 2 → Completes (.getCertificate fn slot off len) s (free 0x02 len.toNat s.dev) ∧
      Completes (.challenge fn slot) s (free 0x03 96 s.dev)) ∧
    (ready → 2 ≤ slot.toNat → err (.getCertificate fn slot off len) 0x01 ∧ err (.challenge fn slot) 0x01) ∧
    (ready → i = 0 → Completes (.getMeasurements fn i) s (s.dev.spdmReply fn 0x60 (leBytes 1 (if fn = 0 then 12 else 5)))) ∧
    (ready → i = 3 → Completes (.getMeasurements fn i) s (s.dev.spdmReply fn 0x60 (leBytes 1 3 ++ (leBytes 8 s.dev.dkey0 ++ leBytes 8 s.dev.dkey1)))) ∧
    (ready → i ≠ 0 → i ≠ 0xFF → ∀ b, s.dev.measurement fn i.toNat = some b →
      Completes (.getMeasurements fn i) s (s.dev.spdmReply fn 0x60 (leBytes 1 i.toNat ++ b))) ∧
    (ready → i ≠ 0 → i ≠ 0xFF → s.dev.measurement fn i.toNat = none → err (.getMeasurements fn i) 0x01) ∧
    ((s.dev.measurement fn 5).isSome = decide (fn ≠ 0) ∧ ∀ k : Nat, 16 ≤ k → (s.dev.measurement fn k).isSome = decide (fn = 0 ∧ k < 24)) ∧
    (ready → (∀ b, (q.toNat, b) ∉ x.sessions) →
      Completes (.keyExchange fn q) s (free 0x64 192 (s.dev.setSpdm fn { x with sessions := x.sessions ++ [(q.toNat, false)] }))) ∧
    (∀ b, ready → (q.toNat, b) ∈ x.sessions → err (.keyExchange fn q) 0x01) ∧
    (ready → (sid.toNat, false) ∉ x.sessions → err (.finish fn sid valid) 0x04) ∧
    (ready → (sid.toNat, false) ∈ x.sessions →
      let rest := x.sessions.filter fun y => y.1 ≠ sid.toNat
      Completes (.finish fn sid true) s (free 0x65 48 (s.dev.setSpdm fn { x with sessions := rest ++ [(sid.toNat, true)] })) ∧
      Completes (.finish fn sid false) s ((s.dev.setSpdm fn { x with sessions := rest }).spdmError fn 0x01)) ∧
    (ready → ¬ inside → err (.heartbeat fn sid) 0x04 ∧ err (.keyUpdate fn sid op8) 0x04 ∧ err (.endSession fn sid) 0x04 ∧ err (vendor op8 key) 0x04) ∧
    (inside → Completes (.heartbeat fn sid) s (s.dev.spdmReply fn 0x68 [])) ∧
    (inside → 1 ≤ op8.toNat → op8.toNat ≤ 3 → Completes (.keyUpdate fn sid op8) s (s.dev.spdmReply fn 0x69 (leBytes 1 op8.toNat))) ∧
    (inside → op8.toNat = 0 ∨ 3 < op8.toNat → err (.keyUpdate fn sid op8) 0x01) ∧
    (inside → Completes (.endSession fn sid) s
      ((s.dev.setSpdm fn { x with sessions := x.sessions.filter fun y => y.1 ≠ sid.toNat }).spdmReply fn 0x6C [])) ∧
    (inside → fn = 0 ∨ std ≠ 3 ∨ ven ≠ 0x1D7C → err (vendor op8 key) 0x07) ∧
    (inside → fn ≠ 0 → std = 3 → ven = 0x1D7C → key.length = 64 →
      (s.dev.hkeyFree p = true → ∃ d, Completes (vendor 1 key) s d ∧ (d.part p).hkey = some (leNat key) ∧ d.rd (Reg.PT_STAT_HSRC p) = 3 ∧
        d.out.head? = some (.reply (100 + fn) 0x7E [0])) ∧
      (s.dev.hkeyFree p = false → Completes (vendor 1 key) s (s.dev.spdmReply fn 0x7E [1]))) ∧
    (inside → fn ≠ 0 → std = 3 → ven = 0x1D7C → key.length = 32 →
      (s.dev.lkeyFree p = true → ∃ d, Completes (vendor 2 key) s d ∧ (d.part p).lkey = some (leNat key) ∧ d.rd (Reg.PT_STAT_LSRC p) = 3) ∧
      (s.dev.lkeyFree p = false → Completes (vendor 2 key) s (s.dev.spdmReply fn 0x7E [1]))) ∧
    (up → i.toNat < 3 → Completes (.doeDiscovery fn i) s
      (s.dev.emit (.reply (300 + fn) 0 (leBytes 2 1 ++ leBytes 1 i.toNat ++ leBytes 1 ((i.toNat + 1) % 3))))) ∧
    (up → 3 ≤ i.toNat → Completes (.doeDiscovery fn i) s (s.dev.emit (.reply (300 + fn) 0 (leBytes 2 0xFFFF ++ leBytes 2 0))))

/-! Faults, quiet state and spares (R360 to R371). -/

/-- The error banks (R365 to R367). A record that arrives becomes primary, or pending, or is dropped and counted; a FATAL one
pre-empts a lesser primary; ACK clears the primary and moves the pending record up; a primary left unacknowledged escalates; a FATAL
primary asserts ALERT_N at once. -/
def Obligations.ErrorBanksKeepTwoRecords : Prop :=
  ∀ (s : State) (b : BankNo) (sev : BitVec 2) (cls : BitVec 8) (part : Option PartNo) (qs : BitVec 2) (unit : BitVec 15) (info : BitVec 32)
    (addr extra : Word),
    let cmd := Instr.errorRecord b sev cls part qs unit info addr extra
    let a : ErrArgs := { sev := sev.toNat, cls := cls.toNat, part := part.map (·.val), qscope := qs.toNat, unit := unit.toNat,
                         info := info.toNat, addr := addr.toNat, extra := extra.toNat }
    let w (i : Nat) : Nat := [a.word0, addr.toNat, s.dev.now % 2 ^ 64, extra.toNat][i]?.getD 0
    let P (d : Dev) (i : Nat) : Nat := d.rd (Reg.ERR_P_WORD b i)
    let Q (d : Dev) (i : Nat) : Nat := d.rd (Reg.ERR_Q_WORD b i)
    let ovf (d : Dev) : Nat := d.rd (Reg.ERR_STAT_OVF b)
    let plain := cls ≠ 0x04 ∧ cls ≠ 0x20
    let preempts := sev = 3 ∧ s.dev.bankSev b < 3
    let new (d : Dev) : Prop := (d.src (256 + 4 * b)).raw = true ∧ (sev = 3 → d.pins.alertN = s.dev.vstby)
    (plain → s.dev.bankPrim b = false → ∃ d, Completes cmd s d ∧ (∀ i, i < 4 → P d i = w i ∧ Q d i = Q s.dev i) ∧ ovf d = ovf s.dev ∧ new d) ∧
    (plain → s.dev.bankPrim b = true → ¬ preempts → s.dev.bankPend b = false →
      ∃ d, Completes cmd s d ∧ (∀ i, i < 4 → P d i = P s.dev i ∧ Q d i = w i) ∧ ovf d = ovf s.dev) ∧
    (plain → s.dev.bankPrim b = true → ¬ preempts → s.dev.bankPend b = true →
      ∃ d, Completes cmd s d ∧ (∀ i, i < 4 → P d i = P s.dev i ∧ Q d i = Q s.dev i) ∧ ovf d = satAdd 32 (ovf s.dev) 1) ∧
    (plain → s.dev.bankPrim b = true → preempts →
      ∃ d, Completes cmd s d ∧ (∀ i, i < 4 → P d i = w i ∧ Q d i = P s.dev i % 2 ^ 64) ∧ d.flag (Reg.ERR_STAT_PREEMPT b) = true ∧ new d ∧
        ovf d = if s.dev.bankPend b then satAdd 32 (ovf s.dev) 1 else ovf s.dev) ∧
    (cls = 0x04 → ∃ d, Completes cmd s d ∧ d.devQuiet = true) ∧
    (∀ p, cls = 0x20 → part = some p → s.dev.lastExit = none → ∃ d, Completes cmd s d ∧ (d.part p).quiet = true ∧ d.devQuiet = s.dev.devQuiet) ∧
    (s.dev.bankPend b = false → ∃ d, Completes (.errorAck b) s d ∧ ∀ i, i < 4 → P d i = 0 ∧ Q d i = 0) ∧
    (s.dev.bankPend b = true → ∃ d, Completes (.errorAck b) s d ∧ (∀ i, i < 4 → P d i = Q s.dev i % 2 ^ 64 ∧ Q d i = 0) ∧
      (d.src (256 + 4 * b)).raw = true) ∧
    (∃ d, Completes (.clrovf b) s d ∧ ovf d = 0 ∧ ∀ i, i < 4 → P d i = P s.dev i ∧ Q d i = Q s.dev i) ∧
    (s.dev.bankPrim b = false ∨ s.dev.rd (Reg.ERR_CFG_ESCT b) = 0 ∨ s.dev.flag (Reg.ERR_STAT_ESC b) = true → Completes (.escalation b) s s.dev) ∧
    (s.dev.bankPrim b = true → s.dev.rd (Reg.ERR_CFG_ESCT b) ≠ 0 → s.dev.flag (Reg.ERR_STAT_ESC b) = false →
      ∃ d, Completes (.escalation b) s d ∧ d.flag (Reg.ERR_STAT_ESC b) = true ∧ (d.src (256 + 4 * b + 1)).raw = true ∧
        (s.dev.flag Reg.RST_STAT_READY = true → s.dev.flag Reg.RST_STAT_INRESET = false → d.pins.alertN = s.dev.vstby))

/-- Quiet scopes (R360 to R363). Entry to a scope closes it at once, asserts QUIET_N and asks its cores to stop; it is complete once
they have stopped; an EXIT is refused under device scope, and ends partition scope when no other cause blocks it. -/
def Obligations.QuietScopesEnterAndExit : Prop :=
  ∀ (s : State) (p : PartNo),
    let block := s.dev.rd (Reg.QT_PCAUSE_BLOCK p)
    let stopped := s.dev.allStopped (s.dev.coresOf p) = true
    (∃ d, Completes (.enter p) s d ∧ (d.part p).quiet = true ∧ bit (d.rd (Reg.QT_PCAUSE_BLOCK p)) 0 = true ∧
      ((s.dev.part p).quiet = false → d.rd (Reg.QT_PCAUSE_FIRST p) = 1 ∧ (d.part p).entering = true ∧ (d.part p).held = true ∧
        d.pins.quietN = s.dev.vstby ∧ ∀ c, c ∈ s.dev.coresOf p → bit (d.core c).stopReq 3 = true)) ∧
    (∃ d, Completes .deventer s d ∧ d.devQuiet = true ∧ (∀ q, q < 8 → d.isQuiet q = true) ∧
      (s.dev.devQuiet = false → d.rd Reg.QT_STAT_DEVCAUSE = 1 ∧ d.pins.quietN = s.dev.vstby ∧ ∀ c, c < 144 → bit (d.core c).stopReq 3 = true)) ∧
    (¬ (s.dev.part p).entering ∨ ¬ stopped → Completes (.quietEntryComplete (some p)) s s.dev.watch) ∧
    ((s.dev.part p).entering = true → stopped → Completes (.quietEntryComplete (some p)) s
      (((s.dev.updPart p fun x => { x with entering := false }).unitsEnd p).irqEvent (3840 + 32 * p + 19)).watch) ∧
    (s.dev.devEntering = false → Completes (.quietEntryComplete none) s s.dev.watch) ∧
    (s.dev.devEntering = true → (∀ q, q < 8 → s.dev.allStopped (s.dev.coresOf q) = true) → Completes (.quietEntryComplete none) s
      ((List.range 8).foldl (fun (d : Dev) q => (d.unitsEnd q).irqEvent (3840 + 32 * q + 19)) { s.dev with devEntering := false }).watch) ∧
    (s.dev.devQuiet = true → Completes (.exit p) s (s.dev.setF Reg.QT_CTL_REFUSED)) ∧
    (s.dev.devQuiet = false → block ≤ 1 → (s.dev.part p).quiet = true → ∃ d, Completes (.exit p) s d ∧ (d.part p).quiet = false ∧
      (d.part p).held = false ∧ d.rd (Reg.QT_PCAUSE_BLOCK p) = 0 ∧ (d.src (3840 + 32 * p + 19)).raw = true) ∧
    (s.dev.devQuiet = false → 1 < block → block < 16 → (s.dev.part p).quiet = true → ∃ d, Completes (.exit p) s d ∧ (d.part p).quiet = true ∧
      d.rd (Reg.QT_PCAUSE_BLOCK p) = block / 2 * 2)

/-- Retirement and laggards (R368 to R371). A retired core goes on the list and its logical number moves to the quadrant's spare, its
epoch advanced; with the spare in use it is offline, and its partition is quiet; a retired pair is lost to the journal; a window above
its threshold makes a LAGGARD record and takes its response, which eight good windows lift. -/
def Obligations.CoresAndPairsAreRetired : Prop :=
  ∀ (s : State) (c : CoreNo) (r : BitVec 8) (k : Fin 6) (l : Fin 32) (sl : Fin 64) (m : Nat),
    let q := c.val / 18
    let ph := s.dev.physOf c
    let spare := bit (s.dev.rd Reg.SP_STAT_AVAIL) q = true
    let on := s.dev.coreOffline c = false
    let th := s.dev.rd Reg.LG_CFG_LGLINK
    let avoided (d : Dev) : Bool := bit (d.rd Reg.LG_STAT_AVOID) l
    (144 ≤ r.toNat → Completes (.retire r) s s.dev) ∧
    (r.toNat < 144 → Completes (.retire r) s (s.dev.retireCore r.toNat)) ∧
    (¬ on → Completes (.coreRetirement c) s s.dev) ∧
    (on → spare → ∃ d, Completes (.coreRetirement c) s d ∧ d.retList = s.dev.retList ++ [(c.val, ph)] ∧ (d.core c).onSpare = true ∧
      (d.core c).ts = [] ∧ d.epochOf c = (s.dev.epochOf c + 1) % 2 ^ 32 ∧ d.rd (Reg.SP_MAP_RET q) = ph ∧ d.flag (Reg.SP_MAP_RV q) = true ∧
      bit (d.rd Reg.SP_STAT_AVAIL) q = false) ∧
    (on → ¬ spare → ∃ d, Completes (.coreRetirement c) s d ∧ d.retList = s.dev.retList ++ [(c.val, ph)] ∧ d.coreOffline c = true ∧
      d.rd (Reg.SP_MAP_OFFL q) = c.val ∧ bit (d.rd Reg.SP_STAT_OFFLINE) q = true ∧
      ∀ p, s.dev.coreOwner c = some p → (d.part p).quiet = true ∧ bit (d.rd (Reg.QT_PCAUSE_BLOCK p)) 1 = true) ∧
    ((∀ p, p < 8 → s.dev.ptState p = 0) → Completes .clrlist s { s.dev with retList := [], pairList := 0 }) ∧
    ((∃ p, p < 8 ∧ s.dev.ptState p ≠ 0) → Completes .clrlist s s.dev) ∧
    (bit (s.dev.rd Reg.SP_STAT_PAIRRET) k = true → Completes (.retpair k) s s.dev) ∧
    (bit (s.dev.rd Reg.SP_STAT_PAIRRET) k = false → ∃ d, Completes (.retpair k) s d ∧ d.rd (Reg.HBM_STAT_STATE (2 * k)) = 4 ∧
      d.rd (Reg.HBM_STAT_STATE (2 * k + 1)) = 4 ∧ bit (d.rd Reg.SP_STAT_PAIRRET) k = true ∧ bit (d.rd Reg.PWR_DOMSTAT_ON) (10 + k) = false ∧
      bit d.pairList k = true ∧ d.pairLost k = true ∧ d.flag Reg.JNL_STAT_REMIRROR = true) ∧
    (m ≤ s.dev.rd Reg.LG_CFG_LGCORE → Completes (.laggardWindow (.core c) m) s s.dev) ∧
    (s.dev.rd Reg.LG_CFG_LGCORE < m → s.dev.flag Reg.LG_CFG_ACTRET = false → Completes (.laggardWindow (.core c) m) s
      (s.dev.err (32 + c / 18) { cls := 0x43, part := s.dev.coreOwner c, unit := ph, info := 0, extra := m })) ∧
    (th < m → s.dev.flag Reg.LG_CFG_ACTREROUTE = true → ∃ d, Completes (.laggardWindow (.link l) m) s d ∧ avoided d = true ∧ tabGet 0 l.val d.lgOk = 0) ∧
    (m ≤ th → avoided s.dev = false → Completes (.laggardWindow (.link l) m) s s.dev) ∧
    (2 * m < th → avoided s.dev = true → tabGet 0 l.val s.dev.lgOk < 7 → ∃ d, Completes (.laggardWindow (.link l) m) s d ∧ avoided d = true ∧
      tabGet 0 l.val d.lgOk = tabGet 0 l.val s.dev.lgOk + 1) ∧
    (2 * m < th → avoided s.dev = true → tabGet 0 l.val s.dev.lgOk = 7 → ∃ d, Completes (.laggardWindow (.link l) m) s d ∧ avoided d = false) ∧
    (m ≤ th → th ≤ 2 * m → avoided s.dev = true → ∃ d, Completes (.laggardWindow (.link l) m) s d ∧ avoided d = true ∧ tabGet 0 l.val d.lgOk = 0) ∧
    (∀ st : Fin 131072, (∀ n, n < 16 → s.dev.flag (Reg.FRY_LAG_V n) = false) →
      (m ≤ s.dev.rd Reg.LG_CFG2_LGFRY → Completes (.laggardWindow (.ferry st) m) s s.dev) ∧
      (s.dev.rd Reg.LG_CFG2_LGFRY < m → s.dev.flag Reg.LG_CFG_ACTDEW = true → ∃ d, Completes (.laggardWindow (.ferry st) m) s d ∧
        d.flag (Reg.FRY_LAG_V 0) = true ∧ d.rd (Reg.FRY_LAG_STREAM 0) = st.val ∧ bit (d.rd Reg.LG_STAT_DEW) 0 = true)) ∧
    (m ≤ s.dev.rd Reg.LG_CFG2_LGCF → Completes (.laggardWindow (.ring sl) m) s s.dev) ∧
    (s.dev.rd Reg.LG_CFG2_LGCF < m → Completes (.laggardWindow (.ring sl) m) s
      (s.dev.err (10 + sl / 32) { cls := 0x43, part := some (s.dev.cfPart sl), unit := sl, info := 3, extra := m }))

/-! The interrupt controller (R376 to R387). -/

/-- The states of a source (Table IC-2; R377, R378, R380, R384). An arrival at an enabled source makes an idle one PENDING, is counted
at a PENDING one, and at one INSERVICE in counting mode; disabling returns it to IDLE; enabling a level source whose RAW is 1 makes it
PENDING; CLASS changes only to a class that can serve it; a management source that waits is offered to the other pair as well. -/
def Obligations.SourcesFollowTheirStates : Prop :=
  ∀ (s : State) (n : BitVec 12) (en level : Bool) (cls : BitVec 2) (prio : BitVec 3) (k : Nat),
    let x := s.dev.src n.toNat
    let cmd := Instr.sourceEnable n en level cls prio
    let real := Dev.srcReal n.toNat = true
    let y (d : Dev) : Src := d.src n.toNat
    (¬ real → s.dev.irqEvent n.toNat = s.dev ∧ Completes cmd s s.dev) ∧
    (real → (y (s.dev.irqEvent n.toNat)).raw = true ∧ (y (s.dev.irqEvent n.toNat)).tmask = x.tmask) ∧
    (real → x.en = false → (y (s.dev.irqEvent n.toNat)).st = x.st ∧ (y (s.dev.irqEvent n.toNat)).cnt = x.cnt) ∧
    (real → x.en = true → x.st = .idle → (y (s.dev.irqEvent n.toNat)).st = .pending ∧ (y (s.dev.irqEvent n.toNat)).cnt = 1) ∧
    (real → x.en = true → x.st = .pending → (y (s.dev.irqEvent n.toNat)).st = .pending ∧ (y (s.dev.irqEvent n.toNat)).cnt = min (x.cnt + 1) 255) ∧
    (real → x.en = true → x.st = .inService → (y (s.dev.irqEvent n.toNat)).st = .inService ∧
      (y (s.dev.irqEvent n.toNat)).cnt = if x.level then x.cnt else min (x.cnt + 1) 255) ∧
    (k ≠ n.toNat → (s.dev.irqEvent n.toNat).src k = s.dev.src k) ∧
    (real → ∃ d, Completes cmd s d ∧ (y d).en = en ∧ (y d).level = level ∧ (y d).prio = prio.toNat ∧ (y d).raw = x.raw ∧
      (cls = 3 → (y d).cls = x.cls) ∧ (cls = 2 → s.dev.srcOwner n.toNat = none → (y d).cls = x.cls) ∧
      (cls = 0 ∨ cls = 1 ∨ (cls = 2 ∧ s.dev.srcOwner n.toNat ≠ none) → (y d).cls = cls.toNat) ∧
      (en = false → (y d).st = .idle ∧ (y d).cnt = 0) ∧
      (en = true → x.en = false → level = true → x.raw = true → x.st = .idle → (y d).st = .pending ∧ (y d).cnt = 1) ∧
      (en = true → x.en = true ∨ level = false ∨ x.raw = false ∨ x.st ≠ .idle → (y d).st = x.st ∧ (y d).cnt = x.cnt)) ∧
    (Dev.condSource n.toNat = true → Completes (.rawClear n) s s.dev) ∧
    (Dev.condSource n.toNat = false → Completes (.rawClear n) s (s.dev.setSrc n.toNat { x with raw := false })) ∧
    (x.st ≠ .pending ∨ x.cls ≠ 0 ∨ x.offered = 0 ∨ x.offered = 3 → Completes (.offerTimeout n) s s.dev) ∧
    (x.st = .pending → x.cls = 0 → x.offered = 1 ∨ x.offered = 2 → Completes (.offerTimeout n) s
      ((s.dev.setSrc n.toNat { x with offered := 3 }).emit (.notice (if x.offered = 1 then 1 else 0) n.toNat)))

/-- Claims, completions and vectors (R381 to R384). A claim takes the eligible source of the highest PRIO, of equals the lowest number,
and answers its number, CNT and mode, or 0xFFF; a completion by the page that claimed it returns the source to IDLE, or to PENDING with
what it counted, and any other is ignored and logged (R383); an arrival at a source INSERVICE leaves it so and is only counted, in
level mode by RAW alone; a vector's message goes out, waits in the PBA, or is not sent. -/
def Obligations.ClaimsServeTheBestSource : Prop :=
  ∀ (s : State) (page : Fin 9) (v : Fin 64) (n : BitVec 12) (m : Fin 2) (mask en : Bool),
    let r := Dev.pageReq page
    let reached := s.dev.reqUp r = true ∧ (page.val < 8 → s.dev.ptState page ≠ 0)
    let mine (k : Nat) : Bool := s.dev.eligible page v k
    let offered (k : Nat) : Bool := decide ((s.dev.src k).st = .pending) && decide ((s.dev.src k).cls = 0) && bit (s.dev.src k).offered m
    let best (f : Nat → Bool) (k : Nat) : Prop := f k = true ∧ ∀ j, f j = true →
      (s.dev.src j).prio < (s.dev.src k).prio ∨ (s.dev.src j).prio = (s.dev.src k).prio ∧ k ≤ j
    let value (k : Nat) : Nat := k + (s.dev.src k).cnt * 2 ^ 12 + b2n (s.dev.src k).level * 2 ^ 20
    let taken (k pg : Nat) : Dev := s.dev.setSrc k { s.dev.src k with st := .inService, cnt := 0, page := pg, offered := 0 }
    let x := s.dev.src n.toNat
    let done (pg : Nat) (i : Instr) : Prop :=
      (x.st = .inService → x.page = pg → ∃ d, Completes i s d ∧ (d.src n.toNat).raw = x.raw ∧
        (d.src n.toNat).st = (if (x.level && x.raw) || (!x.level && decide (0 < x.cnt)) then .pending else .idle) ∧
        (d.src n.toNat).cnt = (if x.level then b2n x.raw else x.cnt))
    let key : Nat := page * 64 + v
    let wait := tabGet 0 key s.dev.undel
    (reached → (∀ k, mine k = false) → Completes (.claim page v) s (s.dev.answer r 0xFFF)) ∧
    (reached → tabWf Src.reset s.dev.srcs = true → (∃ k, mine k = true) →
      ∃ k, best mine k ∧ Completes (.claim page v) s ((taken k page).answer r (value k))) ∧
    (s.dev.reqUp (.mgmt m) = true → (∀ k, offered k = false) → Completes (.managementClaim m) s (s.dev.answer (.mgmt m) 0xFFF)) ∧
    (s.dev.reqUp (.mgmt m) = true → tabWf Src.reset s.dev.srcs = true → (∃ k, offered k = true) →
      ∃ k, best offered k ∧ Completes (.managementClaim m) s ((taken k (9 + m)).answer (.mgmt m) (value k))) ∧
    (x.en = true → x.st = .inService → Dev.srcReal n.toNat = true → (s.dev.irqEvent n.toNat).src n.toNat =
      { x with raw := true, cnt := if x.level then x.cnt else min (x.cnt + 1) 255 }) ∧
    (reached → done page (.complete page n)) ∧
    (reached → x.st ≠ .inService ∨ x.page ≠ page → Completes (.complete page n) s (s.dev.hostErr (Reg.IC_COMPLETE page))) ∧
    (s.dev.reqUp (.mgmt m) = true → done (9 + m) (.managementComplete m n)) ∧
    (s.dev.reqUp (.mgmt m) = true → x.st ≠ .inService ∨ x.page ≠ 9 + m →
      Completes (.managementComplete m n) s (s.dev.hostErr (Reg.IRQ_MCOMP m))) ∧
    (wait = 0 → Completes (.coalesceTimeout page v) s s.dev) ∧
    (wait ≠ 0 → ∃ d, Completes (.coalesceTimeout page v) s d ∧ tabGet 0 key d.undel = 0 ∧
      (bit s.dev.msixEn page = false → d.out = s.dev.out ∧ d.pba = s.dev.pba) ∧
      (bit s.dev.msixEn page = true → tabGet false key s.dev.vmask = true → d.out = .msix page v :: s.dev.out) ∧
      (bit s.dev.msixEn page = true → tabGet false key s.dev.vmask = false → d.out = s.dev.out ∧ tabGet false key d.pba = true)) ∧
    (∃ d, Completes (.vectorUnmask page v mask en) s d ∧ bit d.msixEn page = en ∧ tabGet false key d.vmask = !mask ∧
      (mask = false → en = true → tabGet false key s.dev.pba = true → tabGet false key d.pba = false ∧ d.out = .msix page v :: s.dev.out) ∧
      (mask = true ∨ en = false ∨ tabGet false key s.dev.pba = false → d.pba = s.dev.pba ∧ d.out = s.dev.out))

/-! Laser cartridges and the sideband bus (R388 to R407). -/

/-- A slot's life (Table LC-2; R392 to R396, R405). Presence, an assignment or a legacy answer, and an accepted identity make a slot
READY; a refused identity is named; ON, OFF, PREP and ALLOFF drive its laser; a warm-up that takes too long fails the slot. -/
def Obligations.SlotsFollowTheirStates : Prop :=
  ∀ (s : State) (c : Fin 8) (p : Fin 2) (won : BitVec 4) (id : List Byte) (aE aS bE bS : BitVec 32) (force : Bool),
    let st := s.dev.slState c
    let port := s.dev.rd (Reg.SBB_STAT_STATE p)
    let present := s.dev.flag (Reg.LAS_SLOT_PRSNT c) = true
    let read := Instr.identityRead c id aE aS bE bS
    let stuck := (s.dev.groupsOn c).any (fun x => s.dev.slState (feedCart x.1 x.2 (1 - s.dev.feed x.1 x.2)) ≠ slON) = true
    let off (i : Instr) (to_ : Nat) : Prop := ∃ d, Completes i s d ∧ d.slState c = to_ ∧ bit d.lsen c = false
    Completes (.presence c) s (s.dev.setF (Reg.LAS_SLOT_PRSNT c)) ∧
    (∃ d, Completes (.presenceLost c) s d ∧ d.slState c = slEMPTY ∧ bit d.lsen c = false ∧ d.flag (Reg.LAS_SLOT_PRSNT c) = false ∧
      (d.cart c).lastEh = (s.dev.cart c).lastEh ∧ (d.cart c).eh = 0) ∧
    (port = sbDAA → Completes (.hotJoin p) s { s.dev with sbHj := setBit s.dev.sbHj p true }) ∧
    (port = sbACTIVE → ∃ d, Completes (.hotJoin p) s d ∧ d.rd (Reg.SBB_STAT_STATE p) = sbDAA) ∧
    (port ≠ sbDAA → port ≠ sbACTIVE → Completes (.hotJoin p) s s.dev) ∧
    (port ≠ sbDAA → Completes (.entdaa p won) s s.dev) ∧
    (port = sbDAA → ∃ d, Completes (.entdaa p won) s d ∧ d.rd (Reg.SBB_STAT_STATE p) = (if bit s.dev.sbHj p then sbDAA else sbACTIVE) ∧
      (p.val = c.val / 4 → present → s.dev.flag (Reg.LAS_SLOT_LEGACY c) = false → bit won.toNat (c % 4) = true → st = slEMPTY →
        d.slState c = slJOINING) ∧
      (bit won.toNat (c % 4) = false → d.slState c = st)) ∧
    (st = slEMPTY → present → s.dev.rd (Reg.SBB_STAT_STATE (c / 4)) ≠ sbSTUCK →
      ∃ d, Completes (.legacyDetect c) s d ∧ d.slState c = slJOINING ∧ d.flag (Reg.LAS_SLOT_LEGACY c) = true) ∧
    (st ≠ slEMPTY ∨ ¬ present → Completes (.legacyDetect c) s s.dev) ∧
    (st ≠ slJOINING → Completes read s s.dev) ∧
    (∀ k, st = slJOINING → s.dev.idRefused c id = some k →
      ∃ d, Completes read s d ∧ d.slState c = slREFUSED ∧ d.rd Reg.LAS_STAT_REFCODE = k % 16 ∧ d.flag Reg.LAS_STAT_REFUSED = true) ∧
    (byteField id 0xA 1 ≠ s.dev.rd Reg.LAS_CFG_PLAN → s.dev.idRefused c id = some 4) ∧
    (st = slJOINING → s.dev.idRefused c id = none → s.dev.flag Reg.LAS_CFG_AUTOON = false → byteField id 0xB 1 % 8 = c.val →
      ∃ d, Completes read s d ∧ d.slState c = slREADY ∧ (∀ w, w < 4 → d.rd (Reg.LAS_ID_ID c w) = byteField id (8 * w) 8) ∧
        ((s.dev.cart c).lastSerial ≠ d.cartSerial c → (d.cart c).eh = (if aS.toNat < bS.toNat then bE.toNat else aE.toNat) * 1200) ∧
        ((s.dev.cart c).lastSerial = d.cartSerial c → (s.dev.cart c).lastEh ≤ (d.cart c).eh)) ∧
    (st ≠ slREADY → st ≠ slOFF → Completes (.laserOn c) s (s.dev.lasRefuse 1)) ∧
    (st = slREADY ∨ st = slOFF → ∃ d, Completes (.laserOn c) s d ∧ d.slState c = slWARMING ∧ bit d.lsen c = true) ∧
    (st ≠ slON → Completes (.laserOff c) s s.dev) ∧
    (st = slON → off (.laserOff c) slOFF) ∧
    (st ≠ slON → st ≠ slREADY → st ≠ slOFF → Completes (.prep c force) s (s.dev.lasRefuse 1)) ∧
    (st = slON ∨ st = slREADY ∨ st = slOFF → (stuck → Completes (.prep c false) s (s.dev.lasRefuse 2)) ∧
      (¬ stuck ∨ force = true → ∃ d, Completes (.prep c force) s d ∧ d.slState c = slDRAINED ∧ bit d.lsen c = false ∧ d.groupsOn c = [])) ∧
    (∃ d, Completes .alloff s d ∧ d.flag Reg.LAS_STAT_ALLOFF = true ∧ ∀ k, k < 8 → bit d.lsen k = false ∧
      d.slState k = if s.dev.slState k = slEMPTY then slEMPTY else slOFF) ∧
    (st = slWARMING → off (.warmingTimeout c) slFAILED) ∧
    (st ≠ slWARMING → Completes (.warmingTimeout c) s s.dev)

/-- Health, wear and recovery (R397 to R404). A poll records health and adds its interval times W; a warm cartridge comes ON, and one
that reports failure is FAILED; wear goes to the older copy; a feed group moves only to a cartridge that is ON; recovery takes at most
three attempts, and then the port is STUCK and its slots UNKNOWN. -/
def Obligations.CartridgesArePolledAndRecovered : Prop :=
  ∀ (s : State) (c e : Fin 8) (p g side : Fin 2) (status : BitVec 8) (temp bias pout : BitVec 16) (nack : Option Bool) (low : Bool),
    let st := s.dev.slState c
    let port := s.dev.rd (Reg.SBB_STAT_STATE p)
    let poll := Instr.poll c status temp bias pout
    let x := s.dev.cart c
    let target := s.dev.slState (feedCart e g side)
    let tries := s.dev.rd (Reg.SBB_STAT_TRIES p)
    (s.dev.polled c = false → Completes (poll nack) s s.dev ∧ Completes (.inBandInterrupt c status temp bias pout nack) s s.dev) ∧
    (s.dev.polled c = true → Completes (poll (some low)) s (s.dev.healthNack c low)) ∧
    (s.dev.polled c = true → st = slWARMING ∨ st = slON → ∃ d, Completes (poll none) s d ∧
      (d.cart c).eh = x.eh + max 1 (s.dev.rd Reg.LAS_CFG_POLL) * wearW2 bias.toNat ∧ d.rd (Reg.LAS_SLOT_BIAS c) = bias.toNat ∧
      (st = slWARMING → status.toNat < 2 → d.slState c = slON) ∧ (st = slON → status = 2 → d.slState c = slFAILED ∧ bit d.lsen c = false) ∧
      (st = slON → status.toNat < 2 → d.slState c = slON)) ∧
    (s.dev.polled c = true → st ≠ slWARMING → st ≠ slON → ∃ d, Completes (poll none) s d ∧ (d.cart c).eh = x.eh ∧ d.slState c = st) ∧
    (s.dev.flag (Reg.LAS_SLOT_LEGACY c) = true → Completes (.inBandInterrupt c status temp bias pout nack) s s.dev) ∧
    (s.dev.polled c = true → s.dev.flag (Reg.LAS_SLOT_LEGACY c) = false → Completes (.inBandInterrupt c status temp bias pout none) s
      (s.dev.healthRead c status.toNat temp.toNat bias.toNat pout.toNat)) ∧
    (∃ d, Completes .wearWriteback s d ∧ ∀ k, k < 8 →
      let y := s.dev.cart k
      let sq := (max y.aSeq y.bSeq + 1) % 2 ^ 32
      let eh := y.eh / 1200 % 2 ^ 32
      (s.dev.identified k = true → s.dev.rd (Reg.SBB_STAT_STATE (k / 4)) = sbACTIVE →
        d.cart k = if y.aSeq ≤ y.bSeq then { y with aEh := eh, aSeq := sq } else { y with bEh := eh, bSeq := sq }) ∧
      (s.dev.identified k = false → d.cart k = y)) ∧
    (s.dev.feed e g = side → Completes (.feedMove e g side) s s.dev) ∧
    (s.dev.feed e g ≠ side → target ≠ slON → Completes (.feedMove e g side) s (s.dev.lasRefuse 3)) ∧
    (s.dev.feed e g ≠ side → target = slON → s.dev.feed e g ≠ 2 → Completes (.feedMove e g side) s (s.dev.setFeed e g side)) ∧
    (s.dev.feed e g = 2 → target = slON → Completes (.feedMove e g side) s
      ((Dev.feedLinks e g).foldl (fun (d : Dev) l => d.tryTrain l) (s.dev.setFeed e g side))) ∧
    ((s.dev.setFeed e g side).feed e g = side) ∧
    (∃ d, Completes (.recover p true) s d ∧ d.rd (Reg.SBB_STAT_STATE p) = sbRECOVERING ∧ d.rd (Reg.SBB_STAT_TRIES p) = 0 ∧
      d.flag (Reg.SBB_STAT_SDALOW p) = true) ∧
    (∃ d, Completes (.recover p false) s d ∧ d.rd (Reg.SBB_STAT_STATE p) = sbDAA ∧ d.flag (Reg.SBB_STAT_SDALOW p) = false) ∧
    (∃ d, Completes (.portReset p low) s d ∧ bit d.sbHj p = false ∧ d.rd (Reg.SBB_STAT_STATE p) = if low then sbRECOVERING else sbDAA) ∧
    (port ≠ sbRECOVERING → Completes (.recoveryAttempt p low) s s.dev) ∧
    (port = sbRECOVERING → ∃ d, Completes (.recoveryAttempt p true) s d ∧ d.rd (Reg.SBB_STAT_STATE p) = sbDAA) ∧
    (port = sbRECOVERING → tries < 2 → ∃ d, Completes (.recoveryAttempt p false) s d ∧ d.rd (Reg.SBB_STAT_STATE p) = sbRECOVERING ∧
      d.rd (Reg.SBB_STAT_TRIES p) = tries + 1) ∧
    (port = sbRECOVERING → tries = 2 → ∃ d, Completes (.recoveryAttempt p false) s d ∧ d.rd (Reg.SBB_STAT_STATE p) = sbSTUCK ∧
      ∀ i, i < 4 → s.dev.slState (4 * p + i) ≠ slEMPTY → d.slState (4 * p + i) = slUNKNOWN ∧ bit d.lsen (4 * p + i) = false)

/-! Power, thermal, and the power domains (R415 to R419, R425 to R427). -/

/-- Power and temperature (R415 to R419, R425 to R427; Table MG-3). The cap level steps down above the cap and up below it, never under
4 nor over 16; a die's level steps likewise by its hottest sensor; a sensor's second hot sample trips the device; a domain that is in
use is not switched off; input below 40 V is recorded and resets the device cold. -/
def Obligations.PowerAndThermalGovern : Prop :=
  ∀ (s : State) (mv avg t : BitVec 16) (uj : List Nat) (n : BitVec 5) (sn : Fin 48) (die : Fin 2),
    let cap := s.dev.rd Reg.PWR_CAP_CAP
    let l := s.dev.rd Reg.PWR_CAP_LEVEL
    let lv := s.dev.rd (Dev.lvlFld die)
    let hi : Int := 16 * (s.dev.rd Reg.THM_CFG_DTHROT : Int)
    let lo : Int := hi - 16 * (s.dev.rd Reg.THM_CFG_DHYST : Int)
    let at_ (i : Nat) : Int := Dev.temp (s.dev.rd (Reg.THM_SENS_TEMP (16 * die + i)))
    let hot := 16 * (s.dev.rd Reg.THM_CFG_TRIP : Int) ≤ Dev.temp t.toNat
    let tripped := s.dev.flag Reg.THM_STAT_TRIPPED = true
    (∃ d, Completes (.lowv mv) s d ∧ d.rd Reg.PWR_VIN_VIN = mv.toNat ∧ d.flag Reg.PWR_VIN_LOWV = true ∧ (d.src 5).raw = true) ∧
    (¬ tripped → s.dev.flag Reg.RST_STAT_INRESET = false → ∃ d b, Completes (.inputBelow40v mv) s d ∧ d.vinLow = true ∧
      d.flag Reg.RST_STAT_INRESET = true ∧ d.rd Reg.RST_STAT_LAST = 1 ∧ d.rd Reg.RST_STAT_CAUSE = 6 ∧ d.log = s.dev.log ++ [b] ∧ byteField b 8 1 = 2) ∧
    (∃ d, Completes (.inputRestored mv) s d ∧ d.vinLow = false ∧ d.rd Reg.PWR_VIN_VIN = mv.toNat) ∧
    (l ≤ 16 → ∃ d, Completes (.capWindow avg uj) s d ∧ d.rd Reg.PWR_VIN_PIN = avg.toNat ∧
      d.rd Reg.PWR_CAP_LEVEL = (if cap < avg.toNat then max 4 (l - 1) else if avg.toNat + 50 < cap then min 16 (l + 1) else l) ∧
      ∀ g x, g < 7 → uj[g]? = some x → d.rd (Reg.PWR_ENERGY_UJ g) = (s.dev.rd (Reg.PWR_ENERGY_UJ g) + x) % 2 ^ 64) ∧
    (25 ≤ n.toNat ∨ s.dev.domainsOk = false → Completes (.domainOn n) s s.dev ∧ Completes (.domainOff n) s s.dev) ∧
    (s.dev.domOn n.toNat = true → Completes (.domainOn n) s s.dev) ∧
    (s.dev.domOn n.toNat = false → Completes (.domainOff n) s s.dev) ∧
    (n.toNat < 25 → s.dev.domainsOk = true → s.dev.domOn n.toNat = false → ∃ d, Completes (.domainOn n) s d ∧ d.domOn n.toNat = true ∧
      d.flag Reg.PWR_DOMCTL_REFUSED = false ∧ (d.src 4).raw = true) ∧
    (∀ k, n.toNat < 25 → s.dev.domainsOk = true → s.dev.domOn n.toNat = true → s.dev.domainBusy n.toNat = some k →
      Completes (.domainOff n) s ((s.dev.setF Reg.PWR_DOMCTL_REFUSED).wr Reg.PWR_DOMCTL_REFCODE k)) ∧
    (n.toNat < 25 → s.dev.domainsOk = true → s.dev.domOn n.toNat = true → s.dev.domainBusy n.toNat = none → ∃ d, Completes (.domainOff n) s d ∧
      d.domOn n.toNat = false ∧ d.flag Reg.PWR_DOMCTL_REFUSED = false ∧ (d.src 4).raw = true) ∧
    ((10 ≤ n.toNat ∧ n.toNat < 16) ∨ n.toNat = 23 → s.dev.domainBusy n.toNat = some 3) ∧
    (∀ i, i < 18 → n.toNat < 8 → s.dev.coreOwner (18 * n.toNat + i) ≠ none → s.dev.domainBusy n.toNat = some 1) ∧
    (∃ d, Completes (.sensorSample sn t) s d ∧ d.rd (Reg.THM_SENS_TEMP sn) = t.toNat ∧ bit d.sensHot sn = decide hot ∧
      (bit s.dev.thmSeen sn = false → d.rd (Reg.THM_SENS_MAX sn) = t.toNat) ∧
      (hot → bit s.dev.sensHot sn = true → ¬ tripped → d.flag Reg.THM_STAT_TRIPPED = true ∧ d.rd Reg.THM_STAT_TRIPSRC = sn.val ∧
        d.pins.thermtripN = true ∧ d.rd Reg.PWR_DOMSTAT_ON = 0 ∧ ∀ k, k < 8 → bit d.lsen k = false) ∧
      (¬ hot ∨ bit s.dev.sensHot sn = false → d.flag Reg.THM_STAT_TRIPPED = s.dev.flag Reg.THM_STAT_TRIPPED)) ∧
    (lv ≤ 16 → ∃ d, Completes (.thermalLevelStep die) s d ∧
      ((∃ i, i < 16 ∧ hi ≤ at_ i) → d.rd (Dev.lvlFld die) = max 4 (lv - 1)) ∧
      ((∀ i, i < 16 → at_ i < hi) → (∃ i, i < 16 ∧ lo ≤ at_ i) → d.rd (Dev.lvlFld die) = lv) ∧
      ((∀ i, i < 16 → at_ i < hi) → (∀ i, i < 16 → at_ i < lo) → d.rd (Dev.lvlFld die) = min 16 (lv + 1)))

/-! Resets and bring-up (R413, R414, R421 to R424, R451, R457). -/

/-- Resets (Table MG-5; R421 to R424, R451, R457) and what ends them (R413, R414). A cold reset leaves only what outlives it; a warm one
keeps partitions and HBM, and advances every core's epoch; either is absorbed by a reset that covers it; a partition or core reset
advances the epochs of its cores only; a bring-up ends its own kind of reset, with a valid image or in recovery. -/
def Obligations.ResetsAndBringUps : Prop :=
  ∀ (s : State) (p : PartNo) (c : CoreNo) (fn : Fin 9) (failed : BitVec 12) (straps : BitVec 4),
    let inReset (d : Dev) : Bool := d.flag Reg.RST_STAT_INRESET
    let tripped := s.dev.flag Reg.THM_STAT_TRIPPED = true
    let last := s.dev.rd Reg.RST_STAT_LAST
    let sel := s.dev.flag Reg.MGT_BOOT_SEL
    let img (b : Bool) : FwImg := if b then s.dev.imgB else s.dev.imgA
    let ends (k : Nat) := inReset s.dev = true ∧ last = k ∧ s.dev.resetHeld = false
    let up (d : Dev) (n : Nat) := inReset d = false ∧ d.flag Reg.RST_STAT_READY = true ∧ (d.src n).raw = true
    (tripped → s.dev.trippedCool = false → Completes .coldReset s (s.dev.setF Reg.RST_STAT_REFUSED)) ∧
    (¬ tripped → inReset s.dev = true → last = 1 → Completes .coldReset s s.dev) ∧
    (¬ tripped → inReset s.dev = false → ∃ d b, Completes .coldReset s d ∧ inReset d = true ∧ d.flag Reg.RST_STAT_READY = false ∧
      d.rd Reg.RST_STAT_LAST = 1 ∧ d.rd Reg.RST_STAT_CAUSE = 4 ∧ d.hbm = [] ∧ d.pool = [] ∧ d.lsen = 0 ∧ (∀ q, q < 8 → d.ptState q = 0) ∧
      d.imgA = s.dev.imgA ∧ d.imgB = s.dev.imgB ∧ d.retList = s.dev.retList ∧ d.host = s.dev.host ∧
      d.log = s.dev.log ++ [b] ∧ byteField b 8 1 = 1) ∧
    (inReset s.dev = true ∨ tripped → Completes .warmReset s s.dev) ∧
    (¬ tripped → inReset s.dev = false → ∃ d, Completes .warmReset s d ∧ inReset d = true ∧ d.flag Reg.RST_STAT_READY = false ∧
      d.rd Reg.RST_STAT_LAST = 2 ∧ d.rd Reg.RST_STAT_CAUSE = 4 ∧ d.rd Reg.RST_STAT_WARMS = (s.dev.rd Reg.RST_STAT_WARMS + 1) % 2 ^ 32 ∧
      d.devQuiet = false ∧ d.msixEn = 0 ∧ d.spdm = [] ∧ (∀ q, q < 8 → d.ptState q = s.dev.ptState q) ∧
      ∀ k, k < 144 → d.epochOf k = (s.dev.epochOf k + 1) % 2 ^ 32) ∧
    (inReset s.dev = true → Completes (.partitionReset p) s s.dev ∧ Completes (.coreReset c) s s.dev) ∧
    (inReset s.dev = false → ∃ d, Completes (.partitionReset p) s d ∧ ∀ k, k < 144 →
      d.epochOf k = if k ∈ s.dev.coresOf p then (s.dev.epochOf k + 1) % 2 ^ 32 else s.dev.epochOf k) ∧
    (inReset s.dev = false → ∃ d, Completes (.coreReset c) s d ∧ (d.core c).run = false ∧ (d.core c).ts = (s.dev.core c).ts ∧
      ∀ k, k < 144 → d.epochOf k = if k = c.val then (s.dev.epochOf k + 1) % 2 ^ 32 else s.dev.epochOf k) ∧
    exec (.modResetN true) s = .next { s with dev := { s.dev with modLow := true }.coldReset 1 } ∧
    exec (.modResetN false) s = .next { s with dev := { s.dev with modLow := false }, tap := s.tap.released } ∧
    Completes (.perstN true) s ({ s.dev with perstLow := true }.warmReset 2) ∧
    Completes (.perstN false) s { s.dev with perstLow := false } ∧
    (∃ d, Completes (.functionLevelReset fn) s d ∧ (d.port fn).latch = none ∧ (d.port fn).hold = none ∧
      (fn = 0 → ∀ q, q < 8 → (d.part q).vfOn = false) ∧
      (fn ≠ 0 → (d.part (fn - 1 : Nat)).bme = false ∧ d.spdmOf fn = Spdm.reset ∧ bit d.msixEn (fn - 1 : Nat) = false)) ∧
    (¬ ends 2 → Completes (.warmBringUp failed) s s.dev) ∧
    (ends 2 → ∃ d, Completes (.warmBringUp failed) s d ∧ up d 15 ∧ d.pins.quietN = (s.dev.vstby && (d.devQuiet || d.bellQuiet ||
      (List.range 8).any fun q => (d.part q).quiet))) ∧
    (¬ ends 1 → Completes (.coldBringUp failed) s s.dev) ∧
    (ends 1 → s.dev.imgValid (img sel) = true → ∃ d, Completes (.coldBringUp failed) s d ∧ up d 14 ∧ d.flag Reg.MGT_BOOT_RUN = sel ∧
      d.rd Reg.MGT_ID0_FWREL = (img sel).release % 2 ^ 24) ∧
    (ends 1 → s.dev.imgValid (img sel) = false → s.dev.imgValid (img (!sel)) = true →
      ∃ d, Completes (.coldBringUp failed) s d ∧ up d 14 ∧ d.flag Reg.MGT_BOOT_RUN = !sel) ∧
    (ends 1 → s.dev.imgValid (img sel) = false → s.dev.imgValid (img (!sel)) = false →
      ∃ d, Completes (.coldBringUp failed) s d ∧ d.flag Reg.MGT_BOOT_RECOV = true ∧ inReset d = false) ∧
    (s.dev.vstby = true → Completes (.vstbyValid straps) s s.dev) ∧
    (s.dev.vstby = false → ∃ d, Completes (.vstbyValid straps) s d ∧ d.vstby = true ∧ inReset d = true ∧ d.rd Reg.HIF_MODID_SMBADDR = straps.toNat % 4) ∧
    (∃ d, exec .vstbyAbsent s = .next { s with dev := d, tap := Tap.reset } ∧ d.vstby = false ∧ d.lsen = 0 ∧ d.pins.quietN = false ∧ d.log = s.dev.log)

/-! The mailboxes, firmware and the host's functions (R142, R143, R409 to R413, R429, R430, R455 to R459; Table MG-1). -/

/-- The mailboxes (R410, R411, R413, R428; Table MG-1). A command waits while neither pair serves and its mailbox holds one; in recovery
and after a trip only a part of them is served; each served one has its effect and answers its code and words. -/
def Obligations.MailboxesServeTheirCommands : Prop :=
  ∀ (s : State) (mb : Fin 3) (w off : Word),
    let n := w.toNat
    let serves := s.dev.flag Reg.MGT_LOCK_P0UP = true ∨ s.dev.flag Reg.MGT_LOCK_P1UP = true
    let free := ∀ x, x ∈ s.dev.mbq → x.mb ≠ mb.val
    let now := free ∧ serves
    let recovering := s.dev.flag Reg.MGT_BOOT_RECOV = true
    let tripped := s.dev.flag Reg.THM_STAT_TRIPPED = true
    let answers (i : Instr) (code : Nat) (ws : List Nat) : Prop := Completes i s (s.dev.mbReply mb code ws)
    (∀ i, i ∈ [Instr.mailboxIdent mb, .errread mb w, .jstat mb w, .mailboxFence mb w, .snap mb w off, .thmread mb, .thmset mb w, .laseroff mb,
        .mailboxReset mb w, .logread mb w] →
      (¬ free → Completes i s s.dev) ∧
      (free → ¬ serves → ∃ d x, Completes i s d ∧ d.mbq = s.dev.mbq ++ [x] ∧ x.mb = mb.val ∧ (mb = 0 → d.flag Reg.MGT_MBSTAT_BUSY = true)) ∧
      (now → recovering → i ≠ .mailboxIdent mb → i ≠ .logread mb w → answers i 3 [])) ∧
    (∀ code ws, mb = 0 → let d := s.dev.mbReply mb code ws
      d.flag Reg.MGT_MBSTAT_BUSY = false ∧ d.flag Reg.MGT_MBSTAT_DONE = true ∧ d.rd Reg.MGT_MBSTAT_RESULT = code % 2 ^ 8 ∧
      d.rd Reg.MGT_MBSTAT_RLEN = min 64 ws.length ∧ (d.src 0).raw = true ∧ ∀ k x, k < 64 → ws[k]? = some x → d.rd (Reg.MGT_MBDATA_DATA k) = x % 2 ^ 64) ∧
    (∀ code ws, mb ≠ 0 → Emit.reply mb code (ws.flatMap (leBytes 8)) ∈ (s.dev.mbReply mb code ws).out) ∧
    (now → answers (.mailboxIdent mb) 0 [s.dev.regVal .MGT_ID0 [], s.dev.regVal .MGT_SERIAL [], s.dev.dkey0, s.dev.dkey1]) ∧
    (now → ¬ recovering → 64 ≤ n → answers (.errread mb w) 2 []) ∧
    (now → ¬ recovering → n < 64 → answers (.errread mb w) 0 ([s.dev.regVal .ERR_STAT [n]] ++
      ((List.range 4).map fun i => s.dev.rd (Reg.ERR_P_WORD n i)) ++ (List.range 4).map fun i => s.dev.rd (Reg.ERR_Q_WORD n i))) ∧
    (now → ¬ recovering → 8 ≤ n → answers (.jstat mb w) 2 []) ∧
    (now → ¬ recovering → n < 8 → answers (.jstat mb w) 0 ([s.dev.regVal .JNL_STAT []] ++ (List.range 64).flatMap fun r =>
      [(tabGet (0, 0) (n * 64 + r) s.dev.islandRings).1, (tabGet (0, 0) (n * 64 + r) s.dev.islandRings).2])) ∧
    (now → ¬ recovering → n < 8 → Completes (.mailboxFence mb w) s ((s.dev.quietEnter n).mbReply mb 0 [])) ∧
    (now → ¬ recovering → n = 0xFF → Completes (.mailboxFence mb w) s (s.dev.quietDevEnter.mbReply mb 0 [])) ∧
    (now → ¬ recovering → 8 ≤ n → n ≠ 0xFF → answers (.mailboxFence mb w) 2 []) ∧
    (now → ¬ recovering → 32 ≤ n ∨ 1024 ≤ off.toNat → answers (.snap mb w off) 2 []) ∧
    (now → ¬ recovering → n < 32 → 0 < off.toNat → off.toNat < 1024 → answers (.snap mb w off) 0
      ((List.range 64).map fun i => if off.toNat + i < 1024 then s.dev.rd (Reg.CNT_REC_WORD n (off.toNat + i)) else 0)) ∧
    (now → ¬ recovering → n < 32 → off = 0 → s.dev.grpValid n = true → Completes (.snap mb w off) s ((s.dev.captureNow n).mbReply mb 0
      ((List.range 64).map fun i => (s.dev.captureNow n).rd (Reg.CNT_REC_WORD n i)))) ∧
    (now → ¬ recovering → answers (.thmread mb) 0 ([s.dev.regVal .THM_STAT []] ++ (List.range 48).map fun k => s.dev.regVal .THM_SENS [k])) ∧
    (now → ¬ recovering → ∃ d, Completes (.thmset mb w) s d ∧ d.rd Reg.THM_CFG_TRIP = min 120 (bits n 31 24) ∧
      d.rd Reg.THM_CFG_STRIP = min 105 (bits n 39 32) ∧ d.rd Reg.THM_CFG_WARN = bits n 23 16 ∧ d.rd Reg.THM_CFG_DTHROT = bits n 7 0) ∧
    (now → ¬ recovering → Completes (.laseroff mb) s (s.dev.allOff.mbReply mb 0 [])) ∧
    (now → ¬ recovering → ¬ tripped → bits n 2 0 = 1 → Completes (.mailboxReset mb w) s ((s.dev.mbReply mb 0 []).coldReset 5)) ∧
    (now → ¬ recovering → bits n 2 0 = 2 → Completes (.mailboxReset mb w) s ((s.dev.mbReply mb 0 []).warmReset 5)) ∧
    (now → ¬ recovering → bits n 2 0 = 3 → Completes (.mailboxReset mb w) s ((s.dev.mbReply mb 0 []).partitionReset (bits n 6 4))) ∧
    (now → ¬ recovering → bits n 2 0 = 4 → bits n 15 8 < 144 → Completes (.mailboxReset mb w) s ((s.dev.mbReply mb 0 []).coreResetCmd (bits n 15 8))) ∧
    (now → ¬ recovering → bits n 2 0 = 0 ∨ 4 < bits n 2 0 ∨ (bits n 2 0 = 4 ∧ 144 ≤ bits n 15 8) → answers (.mailboxReset mb w) 2 []) ∧
    (now → tripped → answers (.logread mb w) 3 []) ∧
    (now → ¬ tripped → s.dev.log.length ≤ n → answers (.logread mb w) 2 []) ∧
    (∀ b, now → ¬ tripped → s.dev.log[n]? = some b → answers (.logread mb w) 0 (Dev.wordsOf b))

/-- Images, pairs and firmware (R142, R143, R409, R410, R429, R430). A whole image is checked, and one accepted is installed only once
every accepted command has ended, in every core at once; a mismatch takes its pair out of service; a checked firmware goes to the image
that does not run, and is selected at its activation.
The host's side of the host link and of the device's identity (R234, R455 to R459). A failed host read leaves POISON and is counted;
a poisoned write changes nothing but its record; the functions' enables follow the host; RTE_ID changes its number only while every
link is DOWN. -/
def Obligations.FirmwarePairsAndHostLink : Prop :=
  (∀ (s : State) (mb : Fin 3) (m : Fin 2) (off : Nat) (piece : List Byte) (i : FwImg) (id : BitVec 16) (self whole : Bool) (sensor : PldmSensor)
    (cmd : BitVec 8) (c : Nat),
    let up (k : Nat) (d : Dev) : Bool := d.flag (Dev.pairUp k)
    let whole_ := (if off = 0 then [] else s.dev.sfuBuf) ++ piece
    let serves := (s.dev.flag Reg.MGT_LOCK_P0UP = true ∨ s.dev.flag Reg.MGT_LOCK_P1UP = true) ∧ s.dev.mbServes 0x11 = true
    let fits := piece.length ≤ 4096 ∧ (off = 0 ∨ off = s.dev.sfuBuf.length)
    let complete := 64 ≤ whole_.length ∧ 64 + byteField whole_ 16 4 + 96 ≤ whole_.length
    (serves → ¬ fits → Completes (.sfuimg mb off piece) s (s.dev.mbReply mb 2 [])) ∧
    (serves → fits → ¬ complete → Completes (.sfuimg mb off piece) s ({ s.dev with sfuBuf := whole_ }.mbReply mb 0 [])) ∧
    (serves → fits → complete → s.dev.imageBad whole_ = true → Completes (.sfuimg mb off piece) s
      ({ s.dev with sfuBuf := [] }.imageRefused.mbReply mb 3 [])) ∧
    (serves → fits → complete → s.dev.imageBad whole_ = false → ∃ d, Completes (.sfuimg mb off piece) s d ∧ d.sfuPend = whole_ ∧
      d.sfuBuf = [] ∧ d.flag Reg.JNL_CTL_EN = false) ∧
    (s.dev.sfuPend = [] ∨ s.dev.jnlQuiet = false → Completes .microprogramInstall s s.dev) ∧
    (s.dev.sfuPend ≠ [] → s.dev.jnlQuiet = true → ∃ d, Completes .microprogramInstall s d ∧ d.sfuPend = [] ∧
      d.sfuSet = s.dev.sfuPend.take (64 + byteField s.dev.sfuPend 16 4) ∧
      (c < 144 → d.rd (Reg.SFU_SETID_SETID c) = byteField s.dev.sfuPend 8 8)) ∧
    (up m s.dev = false → Completes (.lockstepMismatch m) s s.dev) ∧
    (up m s.dev = true → ∃ d, Completes (.lockstepMismatch m) s d ∧ up m d = false ∧ up (1 - m : Nat) d = up (1 - m : Nat) s.dev ∧ (d.src 1).raw = true) ∧
    (up m s.dev = true → Completes (.pairReturn m) s s.dev) ∧
    (up m s.dev = false → s.dev.mbq = [] → ∃ d, Completes (.pairReturn m) s d ∧ up m d = true ∧ (d.src 2).raw = true) ∧
    (whole = false ∨ s.dev.imgValid i = false → Completes (.firmwareUpdate (.firmware i) whole) s ((s.dev.pldmReply 205 false []).irqEvent 13)) ∧
    (s.dev.imgValid i = true → ∃ d, Completes (.firmwareUpdate (.firmware i) true) s d ∧ d.fwReady = true ∧
      (if s.dev.flag Reg.MGT_BOOT_RUN then d.imgA = i ∧ d.imgB = s.dev.imgB else d.imgB = i ∧ d.imgA = s.dev.imgA)) ∧
    (s.dev.imageBad piece = false → Completes (.firmwareUpdate (.microprograms piece) true) s
      (({ s.dev with sfuCand := piece }.pldmReply 205 true []).irqEvent 13)) ∧
    Completes (.firmwareUpdate (.unlisted id) whole) s ((s.dev.pldmReply 205 false []).irqEvent 13) ∧
    (self = true ∨ (s.dev.fwReady = false ∧ s.dev.sfuCand = []) → Completes (.activateFirmware self) s (s.dev.pldmReply 205 false [])) ∧
    (s.dev.fwReady = true → s.dev.sfuCand = [] → s.dev.rd Reg.MGT_BOOT_RUN ≤ 1 → ∃ d, Completes (.activateFirmware false) s d ∧ d.fwReady = false ∧
      (d.flag Reg.MGT_BOOT_SEL = !(s.dev.flag Reg.MGT_BOOT_RUN)) ∧ d.flag Reg.MGT_BOOT_RUN = s.dev.flag Reg.MGT_BOOT_RUN) ∧
    (s.dev.flag Reg.MGT_BOOT_RECOV = false →
      Completes (.pldmPlatformMonitoring sensor) s (s.dev.emit (.reply 202 0 (leBytes 8 (s.dev.pldmValue sensor))))) ∧
    (s.dev.flag Reg.MGT_BOOT_RECOV = true → Completes (.pldmPlatformMonitoring sensor) s s.dev ∧ Completes (.pldmBaseDiscovery cmd) s s.dev) ∧
    (s.dev.pldmValue .inputVoltage = s.dev.rd Reg.PWR_VIN_VIN ∧ s.dev.pldmValue .bellState = s.dev.blState) ∧
    (s.dev.flag Reg.MGT_BOOT_RECOV = false → cmd = 4 → Completes (.pldmBaseDiscovery cmd) s (s.dev.emit (.reply 200 0 (leBytes 8 0x25)))) ∧
    (s.dev.flag Reg.MGT_BOOT_RECOV = false → cmd ≠ 4 → Completes (.pldmBaseDiscovery cmd) s ((s.dev.fresh.2).emit (.reply 200 0 (leBytes 8 s.dev.fresh.1))))) ∧
  (∀ (s : State) (e : HostEnd) (page : BitVec 52) (fn : Fin 9) (addr : BitVec 28) (on : Bool) (num : BitVec 16) (p : Fin 8) (dev : BitVec 20),
    let bad : Dev := { s.dev with hostPoison := tabPut false page.toNat true s.dev.hostPoison }
    (∃ d, Completes (.completionTimeout e page) s d ∧ tabGet false page.toNat d.hostPoison = true ∧ d.host = s.dev.host) ∧
    Completes (.completionTimeout .timeout page) s (bad.incSat Reg.HIF_ERRCNT_CTO 1) ∧
    Completes (.completionTimeout .urOrCa page) s (bad.incSat Reg.HIF_ERRCNT_URCA 1) ∧
    Completes (.completionTimeout .poisoned page) s (bad.incSat Reg.HIF_ERRCNT_PSNRX 1) ∧
    (s.dev.fnUp fn = false → Completes (.atsInvalidation fn) s s.dev) ∧
    (s.dev.fnUp fn = true → Completes (.atsInvalidation fn) s (s.dev.emit (.ats fn))) ∧
    Completes (.poisonedTlp addr) s ((s.dev.incSat Reg.HIF_ERRCNT_PSNRX 1).hostErr addr.toNat) ∧
    (fn = 0 → Completes (.busMasterEnable fn on) s (s.dev.wr Reg.HIF_STAT_PFBME (b2n on))) ∧
    (fn ≠ 0 → Completes (.busMasterEnable fn on) s (s.dev.updPart (fn - 1 : Nat) fun x => { x with bme := on })) ∧
    (∃ d, Completes (.vfEnable on num) s d ∧ (d.part p).vfOn = (on && decide (p.val < num.toNat)) ∧ (d.part p).hkey = (s.dev.part p).hkey) ∧
    ((∃ l, l < 32 ∧ s.dev.lkState l ≠ lkDOWN) → dev.toNat ≠ s.dev.rd Reg.RTE_ID_DEV → ∃ d, Completes (.rteIdValid dev) s d ∧
      d.rd Reg.RTE_ID_DEV = s.dev.rd Reg.RTE_ID_DEV) ∧
    ((∀ l, l < 32 → s.dev.lkState l = lkDOWN) → ∃ d, Completes (.rteIdValid dev) s d ∧ d.rd Reg.RTE_ID_DEV = dev.toNat ∧ d.flag Reg.RTE_ID_VALID = true))

/-! Debug and the test access port (R434 to R443, R467). -/

/-- Counters, captures, dumps, stepping and the access port (R434 to R442). A capture copies a valid group's registers, all at one
time, behind its header; further triggers in that time make one further capture, and more are merged and counted; a dump arms the named
entry or sets ARMERR; STOP and RESUME ask a core to stop and let it go on; the access port reads and writes what DBG_APADDR names. -/
def Obligations.CapturesDumpsAndStepping : Prop :=
  ∀ (s : State) (g : Fin 32) (p : PartNo) (v : Word) (step : BitVec 32) (c : CoreNo) (r : Requester) (k : Nat),
    let waiting := tabGet 0 g.val s.dev.caps
    let d0 : Dev := { s.dev with caps := tabPut 0 g.val (waiting - 1) s.dev.caps }
    let kind := s.dev.rd (Reg.CNT_GRP_KIND g)
    let name := (List.range 4).flatMap fun n => leBytes 8 (s.dev.rd (Reg.PD_DUMPNAME_BYTES p n))
    let found (o : Option Dump) (d1 : Dev) : Prop :=
      Dev.dumpFind p name (List.range (s.dev.rd (Reg.PD_DUMPTAB_ENTRIES p) + 1)) (s.dev.wr (Reg.PD_DUMPCFG_STEP p) step.toNat) = (o, d1)
    let free := (s.dev.part p).dump = none
    let bar := s.dev.rd Reg.DBG_APADDR_SPACE = 0
    (∃ d, Completes .clr s d ∧ ∀ k e, k < 144 → e < 4 → d.rd (Reg.CNT_BUSY_BUSY k e) = 0 ∧ d.rd (Reg.CNT_STALL_STALL k e) = 0 ∧ d.rd (Reg.CNT_IDLE_IDLE k e) = 0) ∧
    (s.dev.grpValid g = false → Completes (.cntSnap g) s s.dev) ∧
    (s.dev.grpValid g = true → waiting < 2 → Completes (.cntSnap g) s { s.dev with caps := tabPut 0 g.val (waiting + 1) s.dev.caps }) ∧
    (s.dev.grpValid g = true → 2 ≤ waiting → Completes (.cntSnap g) s (s.dev.incSat (Reg.CNT_GRP_MERGED g) 1)) ∧
    (waiting = 0 → Completes (.capture g) s s.dev) ∧
    (waiting ≠ 0 → s.dev.grpValid g = true → ∃ d, Completes (.capture g) s d ∧ tabGet 0 g.val d.caps = waiting - 1 ∧
      d.rd (Reg.CNT_REC_WORD g 0) = g + kind * 2 ^ 8 + (d0.grpRegs g).length * 2 ^ 16 ∧ d.rd (Reg.CNT_REC_WORD g 1) = s.dev.now % 2 ^ 64 ∧
      d.rd (Reg.CNT_REC_WORD g 2) = (s.dev.rd (Reg.CNT_REC_WORD g 2) + 1) % 2 ^ 64 ∧
      (kind = 9 → k < 64 → d.rd (Reg.CNT_REC_WORD g (4 + k)) = s.dev.pendMap k % 2 ^ 64) ∧
      (kind = 10 → k < 4 → let b := s.dev.rd (Reg.CNT_GRP_SEL g)
        d.rd (Reg.CNT_REC_WORD g (5 + k)) = s.dev.rd (Reg.ERR_P_WORD b k) % 2 ^ 64)) ∧
    Completes (.mark p v) s (s.dev.traceCmd p teMARK JRec.reset v.toNat) ∧
    (¬ free → Completes (.dumpArm p step) s s.dev) ∧
    (∀ d1, free → found none d1 → Completes (.dumpArm p step) s (d1.setF (Reg.PD_DUMPSTAT_ARMERR p))) ∧
    (∀ u d1, free → found (some u) d1 → u.len = 0 ∨ 2 ^ 30 < u.len → Completes (.dumpArm p step) s (d1.setF (Reg.PD_DUMPSTAT_ARMERR p))) ∧
    (∀ u d1, free → found (some u) d1 → 1 ≤ u.len → u.len ≤ 2 ^ 30 → ∃ d, Completes (.dumpArm p step) s d ∧ (d.part p).dump = some u ∧
      d.flag (Reg.PD_DUMPSTAT_ARMED p) = true) ∧
    (∀ (l : List Nat) (d d1 : Dev) (u : Dump), Dev.dumpFind p name l d = (some u, d1) → u.name = name) ∧
    ((∀ e, e ∈ s.dev.recsOf p → e.2.step ≠ 1 ∧ e.2.step ≠ 3) → Completes (.stepGo p) s s.dev) ∧
    (∀ i x, (s.dev.recsOf p).find? (fun e => e.2.step = 1 || e.2.step = 3) = some (i, x) → x.step = 1 → Completes (.stepGo p) s
      (((s.dev.stepShow p 0 0).updJr (Dev.slotBase p + i) fun y => { y with step := y.step + 1 }).commandStart p i)) ∧
    (∃ d, Completes (.stop c) s d ∧ bit (d.core c).stopReq 0 = true ∧ d.rd Reg.DBG_CORECTL_LCORE = c.val ∧ (d.core c).pc = (s.dev.core c).pc) ∧
    (∃ d, Completes (.resume c) s d ∧ bit (d.core c).stopReq 0 = false ∧
      (Nat.land (s.dev.core c).stopReq 254 = 0 → (s.dev.core c).faultStop = false →
        (∀ e, e < 4 → (s.dev.eng c e).wait = none) → ∀ e, e < 4 → (d.eng c e).stopped = false)) ∧
    (s.dev.reqUp r = false → Completes (.accessPortRead r) s s.dev ∧ Completes (.accessPortWrite r v) s s.dev) ∧
    (s.dev.reqUp r = true → (∀ q, r ≠ .vf q) →
      Completes (.accessPortRead r) s (s.dev.apRead.2.answer r s.dev.apRead.1) ∧ Completes (.accessPortWrite r v) s (s.dev.apWrite v.toNat)) ∧
    (∀ n i a, bar → s.dev.apReach = .reg n i a → s.dev.apRead = Dev.readReg n i a s.dev ∧ s.dev.apWrite v.toNat = s.dev.commitReg n i a v.toNat) ∧
    (¬ bar → s.dev.apPhys = .error .translation → s.dev.apRead = (0, s.dev.setF Reg.DBG_STAT_APERR) ∧
      s.dev.apWrite v.toNat = s.dev.setF Reg.DBG_STAT_APERR) ∧
    (∀ pa, ¬ bar → s.dev.apPhys = .ok (.hbm pa) → s.dev.devQuiet = false → s.dev.apWrite v.toNat = s.dev.hbmWrite pa (leBytes 8 v.toNat))

/-- The test access port (R443, R467, Table DB-5). An instruction is in the register with its data register shifted out; EXTEST, CLAMP
and HIGHZ act only while MOD_RESET_N holds a cold reset, and DBGAP only while unlocked, else each is BYPASS; a valid signature unlocks;
TRST_N low loads IDCODE and holds the port. -/
def Obligations.TestPortInstructions : Prop :=
  ∀ (s : State) (v : Nat) (op : BitVec 8) (sig : List Byte) (data : Word) (ap wr : Bool),
    let to_ (i : Instr) (t : Tap) (d : Dev) : Prop := exec i s = .next { s with tap := t, dev := d }
    let sel (ir : Nat) : Tap := { s.tap with ir := ir, pins := none, float := false }
    let out (ir x : Nat) : Dev := s.dev.emit (.tdo ir x)
    let open_ := s.tap.low = false
    let held := s.dev.modLow = true ∧ s.dev.flag Reg.RST_STAT_INRESET = true
    let locked := s.dev.flag Reg.DBG_STAT_JUNLOCK = false
    let good := sig.length = 96 ∧ Config.sigOk (leBytes 8 (s.dev.rd Reg.MGT_SERIAL_SERIAL) ++ leBytes 8 (s.dev.rd Reg.DBG_CHAL_CHAL)) sig = true
    (∀ i, ¬ open_ → i ∈ [Instr.idcode, .samplePreload v, .extest v, .clamp, .highz, .chal, .unlock sig, .dbgap data ap wr, .bypass op] →
      to_ i s.tap s.dev) ∧
    (open_ → to_ .idcode (sel 1) (out 1 (s.dev.rd Reg.BL_DKEY0_STEP % 16 * 2 ^ 28 + 0x7140 * 2 ^ 12 + 0xA5D))) ∧
    (open_ → to_ (.samplePreload v) { sel 2 with bsr := v } (s.dev.fresh.2.emit (.tdo 2 s.dev.fresh.1))) ∧
    (open_ → held → to_ (.extest v) { sel 3 with bsr := v, pins := some v } s.dev) ∧
    (open_ → held → to_ .clamp { sel 4 with pins := some s.tap.bsr } (out 4 0)) ∧
    (open_ → held → to_ .highz { sel 5 with float := true } (out 5 0)) ∧
    (open_ → ¬ held → to_ (.extest v) (sel 0xFF) (out 0xFF 0) ∧ to_ .clamp (sel 0xFF) (out 0xFF 0) ∧ to_ .highz (sel 0xFF) (out 0xFF 0)) ∧
    (open_ → to_ .chal (sel 0x21) (out 0x21 (s.dev.rd Reg.DBG_CHAL_CHAL))) ∧
    (open_ → good → to_ (.unlock sig) (sel 0x22) (s.dev.setF Reg.DBG_STAT_JUNLOCK)) ∧
    (open_ → ¬ good → to_ (.unlock sig) (sel 0x22) s.dev) ∧
    (open_ → locked → to_ (.dbgap data ap wr) (sel 0xFF) (out 0xFF 0)) ∧
    (open_ → ¬ locked → to_ (.dbgap data ap true) (sel 0x20)
      (s.dev.write64 .dbg false (if ap then Reg.DBG_APDATA else Reg.DBG_APADDR) data.toNat)) ∧
    (open_ → ¬ locked → let x := s.dev.read64 .dbg (if ap then Reg.DBG_APDATA else Reg.DBG_APADDR)
      to_ (.dbgap data ap false) (sel 0x20) (x.2.emit (.tdo 0x20 x.1))) ∧
    (open_ → to_ (.bypass op) (sel 0xFF) (out 0xFF 0)) ∧
    to_ (.trstN true) { sel 1 with low := true } s.dev ∧
    to_ (.trstN false) { s.tap with low := false } s.dev
end

