-- ==== Sys2Proof/Laws/Tab.lean ====
section
/-!
SUPPORT. The laws of the sparse tables: a read after a write to the same key, a write leaves every other key alone, and every
operation keeps the canonical form.
-/
namespace Sys2Proof.Machine

variable {α : Type} (d v : α) (k j : Nat) (t : Tab α)

@[simp] theorem tabGet_nil : tabGet d k ([] : Tab α) = d := rfl

theorem tabGet_above : tabAbove k t = true → tabGet d k t = d := by
  intro h
  cases t with
  | nil => rfl
  | cons e r =>
    obtain ⟨k', v'⟩ := e
    simp [tabAbove] at h
    have : k' ≠ k := by omega
    simp [tabGet, this, h.1]

theorem tabAbove_filter : tabAbove k (t.filter fun e => decide (k < e.1)) = true := by
  simp [tabAbove]

theorem tabGet_filter_above (h : k < j) : tabGet d j (t.filter fun e => decide (k < e.1)) = tabGet d j t := by
  induction t with
  | nil => rfl
  | cons e r ih =>
    obtain ⟨k', v'⟩ := e
    by_cases h1 : k < k'
    · simp [h1, tabGet, ih]
    · have h2 : k' ≠ j := by omega
      have h3 : ¬ j < k' := by omega
      simp [h1, tabGet, h2, h3, ih]

theorem tabGet_filter_below (h : j < k) : tabGet d j (t.filter fun e => decide (k < e.1)) = d := by
  apply tabGet_above
  simp only [tabAbove, List.all_eq_true, List.mem_filter, decide_eq_true_eq, and_imp]
  intro x _ hx
  omega

theorem tabAbove_mono (h : tabAbove j t = true) (hk : k ≤ j) : tabAbove k t = true := by
  simp only [tabAbove, List.all_eq_true, decide_eq_true_eq] at *
  intro x hx
  have := h x hx
  omega

theorem tabAbove_keep (p : Nat × α → Bool) (h : tabAbove k t = true) : tabAbove k (t.filter p) = true := by
  simp only [tabAbove, List.all_eq_true, List.mem_filter, decide_eq_true_eq] at *
  exact fun x hx => h x hx.1

theorem tabGetList_congr (n : Nat) (u : Tab α) (h : ∀ j, k ≤ j → j < k + n → tabGet d j t = tabGet d j u) :
    tabGetList d k n t = tabGetList d k n u := by
  induction n generalizing k with
  | zero => rfl
  | succ n ih =>
    simp only [tabGetList]
    rw [h k (by omega) (by omega), ih (k + 1) fun j h1 h2 => h j (by omega) (by omega)]

section write
variable [DecidableEq α]

@[simp] theorem tabGet_tabPut_same : tabGet d k (tabPut d k v t) = v := by
  induction t with
  | nil => by_cases h : v = d <;> simp [tabPut, tabGet, h]
  | cons e r ih =>
    obtain ⟨k', v'⟩ := e
    by_cases h1 : k < k'
    · have h2 : k' ≠ k := by omega
      by_cases h : v = d <;> simp [tabPut, tabGet, h1, h2, h]
    · by_cases h2 : k = k'
      · subst h2
        by_cases h : v = d
        · simp [tabPut, h, tabGet_above _ _ _ (tabAbove_filter k r)]
        · simp [tabPut, tabGet, h]
      · have h3 : k' ≠ k := fun h => h2 h.symm
        simp [tabPut, tabGet, h1, h2, h3, ih]

/-- A write leaves every other key alone, whatever the reader's default (register fields have defaults of their own). -/
theorem tabGet_tabPut_ne_at (d' : α) (h : j ≠ k) : tabGet d' j (tabPut d k v t) = tabGet d' j t := by
  induction t with
  | nil => by_cases hv : v = d <;> simp [tabPut, tabGet, hv, h.symm]
  | cons e r ih =>
    obtain ⟨k', v'⟩ := e
    by_cases h1 : k < k'
    · by_cases hv : v = d
      · simp [tabPut, h1, hv]
      · by_cases hj : j < k
        · have : j < k' := by omega
          have : k' ≠ j := by omega
          simp [tabPut, tabGet, h.symm, *]
        · simp [tabPut, tabGet, h1, hv, h.symm, hj]
    · by_cases h2 : k = k'
      · subst h2
        by_cases hv : v = d
        · by_cases hj : j < k
          · simp [tabPut, tabGet, hv, h.symm, hj, tabGet_filter_below d' k j r hj]
          · have : k < j := by omega
            simp [tabPut, tabGet, hv, h.symm, hj, tabGet_filter_above d' k j r this]
        · simp [tabPut, tabGet, hv, h.symm]
      · simp [tabPut, tabGet, h1, h2, ih]

theorem tabGet_tabPut_ne (h : j ≠ k) : tabGet d j (tabPut d k v t) = tabGet d j t := tabGet_tabPut_ne_at d v k j t d h

theorem tabAbove_tabPut (h : tabAbove k t = true) (hk : k < j) : tabAbove k (tabPut d j v t) = true := by
  induction t with
  | nil => by_cases hv : v = d <;> simp [tabPut, tabAbove, hv, hk]
  | cons e r ih =>
    obtain ⟨k', v'⟩ := e
    simp [tabAbove] at h ih
    unfold tabPut
    split
    · split <;> simp [tabAbove, h.1, hk] <;> exact h.2
    · split
      · split
        · simp only [tabAbove, List.all_eq_true, List.mem_filter, decide_eq_true_eq, and_imp]
          intro x hx _
          exact h.2 x.1 x.2 hx
        · simp [tabAbove, hk]; exact h.2
      · simp [tabAbove, h.1]
        exact ih h.2

theorem tabWf_filter (p : Nat × α → Bool) (h : tabWf d t = true) : tabWf d (t.filter p) = true := by
  induction t with
  | nil => rfl
  | cons e r ih =>
    obtain ⟨k', v'⟩ := e
    simp [tabWf] at h
    by_cases hp : p (k', v') = true
    · simp [hp, tabWf, h.1.1, ih h.2, tabAbove_keep k' r p h.1.2]
    · simp [hp, ih h.2]

theorem tabWf_tabPut (h : tabWf d t = true) : tabWf d (tabPut d k v t) = true := by
  induction t with
  | nil => by_cases hv : v = d <;> simp [tabPut, tabWf, tabAbove, hv]
  | cons e r ih =>
    obtain ⟨k', v'⟩ := e
    have h' := h
    simp [tabWf] at h
    unfold tabPut
    split
    · rename_i hk
      split
      · exact h'
      · rename_i hv
        have : tabAbove k ((k', v') :: r) = true := by
          simp [tabAbove, hk]
          have := tabAbove_mono k k' r h.1.2 (by omega)
          simpa [tabAbove] using this
        simp [tabWf, hv, this, h.1.1, h.1.2, h.2]
    · split
      · rename_i hk
        split
        · exact tabWf_filter d r _ h.2
        · rename_i hv
          subst hk
          simp [tabWf, hv, h.1.2, h.2]
      · rename_i h1 h2
        have hlt : k' < k := by omega
        simp [tabWf, h.1.1, ih h.2, tabAbove_tabPut d v k' k r h.1.2 hlt]

theorem tabWf_tabPutList (vs : List α) (h : tabWf d t = true) : tabWf d (tabPutList d k vs t) = true := by
  induction vs generalizing k t with
  | nil => exact h
  | cons v vs ih => exact ih (k + 1) _ (tabWf_tabPut d v k t h)

theorem tabGet_tabPutList_outside (vs : List α) (h : j < k ∨ k + vs.length ≤ j) :
    tabGet d j (tabPutList d k vs t) = tabGet d j t := by
  induction vs generalizing k t with
  | nil => rfl
  | cons v vs ih =>
    simp only [List.length_cons] at h
    rw [tabPutList, ih (k + 1) _ (by omega), tabGet_tabPut_ne d v k j t (by omega)]

/-- A run of values reads back as it was written. -/
theorem tabGetList_tabPutList (vs : List α) : tabGetList d k vs.length (tabPutList d k vs t) = vs := by
  induction vs generalizing k t with
  | nil => rfl
  | cons v vs ih =>
    simp only [List.length_cons, tabGetList, tabPutList, ih]
    rw [tabGet_tabPutList_outside d (k + 1) k _ vs (by omega), tabGet_tabPut_same]

end write

theorem tabGet_tabClear_in (lo n : Nat) (h : lo ≤ k ∧ k < lo + n) : tabGet d k (tabClear lo n t) = d := by
  unfold tabClear
  induction t with
  | nil => rfl
  | cons e r ih =>
    obtain ⟨k', v'⟩ := e
    by_cases hp : k' < lo ∨ lo + n ≤ k'
    · have h2 : k' ≠ k := by omega
      simp [hp, tabGet, h2]
      intro _
      simpa using ih
    · simp only [List.filter_cons]
      have : (decide (k' < lo) || decide (lo + n ≤ k')) = false := by simp; omega
      simp [this]
      simpa using ih

end Sys2Proof.Machine
end

