-- ==== Sys2Proof/Laws/State.lean ====
section
/-!
SUPPORT. What the named updates of the device change and what they leave: each field under each update, and each unit's record and each
register field read after an update of the same and of another.
-/
namespace Sys2Proof.Machine.Dev

variable (d : Dev)

@[simp] theorem wr_ports (f : Fld) (v : Nat) : (d.wr f v).ports = d.ports := rfl
@[simp] theorem wr_cores (f : Fld) (v : Nat) : (d.wr f v).cores = d.cores := rfl
@[simp] theorem wr_parts (f : Fld) (v : Nat) : (d.wr f v).parts = d.parts := rfl
@[simp] theorem wr_srcs (f : Fld) (v : Nat) : (d.wr f v).srcs = d.srcs := rfl
@[simp] theorem wr_hp (f : Fld) (v : Nat) : (d.wr f v).hp = d.hp := rfl
@[simp] theorem wr_rolls (f : Fld) (v : Nat) : (d.wr f v).rolls = d.rolls := rfl
@[simp] theorem wr_jrec (f : Fld) (v : Nat) : (d.wr f v).jrec = d.jrec := rfl
@[simp] theorem wr_rings (f : Fld) (v : Nat) : (d.wr f v).rings = d.rings := rfl
@[simp] theorem wr_out (f : Fld) (v : Nat) : (d.wr f v).out = d.out := rfl
@[simp] theorem wr_ctr (f : Fld) (v : Nat) : (d.wr f v).ctr = d.ctr := rfl
@[simp] theorem wr_now (f : Fld) (v : Nat) : (d.wr f v).now = d.now := rfl
@[simp] theorem wr_hbm (f : Fld) (v : Nat) : (d.wr f v).hbm = d.hbm := rfl
@[simp] theorem wr_hbmPoison (f : Fld) (v : Nat) : (d.wr f v).hbmPoison = d.hbmPoison := rfl
@[simp] theorem wr_pool (f : Fld) (v : Nat) : (d.wr f v).pool = d.pool := rfl
@[simp] theorem wr_poolPoison (f : Fld) (v : Nat) : (d.wr f v).poolPoison = d.poolPoison := rfl
@[simp] theorem wr_loc (f : Fld) (v : Nat) : (d.wr f v).loc = d.loc := rfl
@[simp] theorem wr_host (f : Fld) (v : Nat) : (d.wr f v).host = d.host := rfl
@[simp] theorem wr_pins (f : Fld) (v : Nat) : (d.wr f v).pins = d.pins := rfl
@[simp] theorem wr_owner (f : Fld) (v : Nat) : (d.wr f v).owner = d.owner := rfl
@[simp] theorem wr_rsv (f : Fld) (v : Nat) : (d.wr f v).rsv = d.rsv := rfl
@[simp] theorem wr_ctxs (f : Fld) (v : Nat) : (d.wr f v).ctxs = d.ctxs := rfl
@[simp] theorem wr_links (f : Fld) (v : Nat) : (d.wr f v).links = d.links := rfl
@[simp] theorem wr_cfs (f : Fld) (v : Nat) : (d.wr f v).cfs = d.cfs := rfl
@[simp] theorem wr_fry (f : Fld) (v : Nat) : (d.wr f v).fry = d.fry := rfl
@[simp] theorem wr_fryq (f : Fld) (v : Nat) : (d.wr f v).fryq = d.fryq := rfl
@[simp] theorem wr_bell (f : Fld) (v : Nat) : (d.wr f v).bell = d.bell := rfl
@[simp] theorem wr_devQuiet (f : Fld) (v : Nat) : (d.wr f v).devQuiet = d.devQuiet := rfl
@[simp] theorem wr_offline (f : Fld) (v : Nat) : (d.wr f v).offline = d.offline := rfl
@[simp] theorem wr_retList (f : Fld) (v : Nat) : (d.wr f v).retList = d.retList := rfl
@[simp] theorem wr_merge (f : Fld) (v : Nat) : (d.wr f v).merge = d.merge := rfl
@[simp] theorem setPort_regs (r : Nat) (x : ReqPort) : (d.setPort r x).regs = d.regs := rfl
@[simp] theorem setPort_cores (r : Nat) (x : ReqPort) : (d.setPort r x).cores = d.cores := rfl
@[simp] theorem setPort_parts (r : Nat) (x : ReqPort) : (d.setPort r x).parts = d.parts := rfl
@[simp] theorem setPort_srcs (r : Nat) (x : ReqPort) : (d.setPort r x).srcs = d.srcs := rfl
@[simp] theorem setPort_hp (r : Nat) (x : ReqPort) : (d.setPort r x).hp = d.hp := rfl
@[simp] theorem setPort_rolls (r : Nat) (x : ReqPort) : (d.setPort r x).rolls = d.rolls := rfl
@[simp] theorem setPort_jrec (r : Nat) (x : ReqPort) : (d.setPort r x).jrec = d.jrec := rfl
@[simp] theorem setPort_rings (r : Nat) (x : ReqPort) : (d.setPort r x).rings = d.rings := rfl
@[simp] theorem setPort_out (r : Nat) (x : ReqPort) : (d.setPort r x).out = d.out := rfl
@[simp] theorem setPort_ctr (r : Nat) (x : ReqPort) : (d.setPort r x).ctr = d.ctr := rfl
@[simp] theorem setPort_now (r : Nat) (x : ReqPort) : (d.setPort r x).now = d.now := rfl
@[simp] theorem setPort_hbm (r : Nat) (x : ReqPort) : (d.setPort r x).hbm = d.hbm := rfl
@[simp] theorem setPort_hbmPoison (r : Nat) (x : ReqPort) : (d.setPort r x).hbmPoison = d.hbmPoison := rfl
@[simp] theorem setPort_pool (r : Nat) (x : ReqPort) : (d.setPort r x).pool = d.pool := rfl
@[simp] theorem setPort_poolPoison (r : Nat) (x : ReqPort) : (d.setPort r x).poolPoison = d.poolPoison := rfl
@[simp] theorem setPort_loc (r : Nat) (x : ReqPort) : (d.setPort r x).loc = d.loc := rfl
@[simp] theorem setPort_host (r : Nat) (x : ReqPort) : (d.setPort r x).host = d.host := rfl
@[simp] theorem setPort_pins (r : Nat) (x : ReqPort) : (d.setPort r x).pins = d.pins := rfl
@[simp] theorem setPort_owner (r : Nat) (x : ReqPort) : (d.setPort r x).owner = d.owner := rfl
@[simp] theorem setPort_rsv (r : Nat) (x : ReqPort) : (d.setPort r x).rsv = d.rsv := rfl
@[simp] theorem setPort_ctxs (r : Nat) (x : ReqPort) : (d.setPort r x).ctxs = d.ctxs := rfl
@[simp] theorem setPort_links (r : Nat) (x : ReqPort) : (d.setPort r x).links = d.links := rfl
@[simp] theorem setPort_cfs (r : Nat) (x : ReqPort) : (d.setPort r x).cfs = d.cfs := rfl
@[simp] theorem setPort_fry (r : Nat) (x : ReqPort) : (d.setPort r x).fry = d.fry := rfl
@[simp] theorem setPort_fryq (r : Nat) (x : ReqPort) : (d.setPort r x).fryq = d.fryq := rfl
@[simp] theorem setPort_bell (r : Nat) (x : ReqPort) : (d.setPort r x).bell = d.bell := rfl
@[simp] theorem setPort_devQuiet (r : Nat) (x : ReqPort) : (d.setPort r x).devQuiet = d.devQuiet := rfl
@[simp] theorem setPort_offline (r : Nat) (x : ReqPort) : (d.setPort r x).offline = d.offline := rfl
@[simp] theorem setPort_retList (r : Nat) (x : ReqPort) : (d.setPort r x).retList = d.retList := rfl
@[simp] theorem setPort_merge (r : Nat) (x : ReqPort) : (d.setPort r x).merge = d.merge := rfl
@[simp] theorem setCore_regs (c : Nat) (x : Core) : (d.setCore c x).regs = d.regs := rfl
@[simp] theorem setCore_ports (c : Nat) (x : Core) : (d.setCore c x).ports = d.ports := rfl
@[simp] theorem setCore_parts (c : Nat) (x : Core) : (d.setCore c x).parts = d.parts := rfl
@[simp] theorem setCore_srcs (c : Nat) (x : Core) : (d.setCore c x).srcs = d.srcs := rfl
@[simp] theorem setCore_hp (c : Nat) (x : Core) : (d.setCore c x).hp = d.hp := rfl
@[simp] theorem setCore_rolls (c : Nat) (x : Core) : (d.setCore c x).rolls = d.rolls := rfl
@[simp] theorem setCore_jrec (c : Nat) (x : Core) : (d.setCore c x).jrec = d.jrec := rfl
@[simp] theorem setCore_rings (c : Nat) (x : Core) : (d.setCore c x).rings = d.rings := rfl
@[simp] theorem setCore_out (c : Nat) (x : Core) : (d.setCore c x).out = d.out := rfl
@[simp] theorem setCore_ctr (c : Nat) (x : Core) : (d.setCore c x).ctr = d.ctr := rfl
@[simp] theorem setCore_now (c : Nat) (x : Core) : (d.setCore c x).now = d.now := rfl
@[simp] theorem setCore_hbm (c : Nat) (x : Core) : (d.setCore c x).hbm = d.hbm := rfl
@[simp] theorem setCore_hbmPoison (c : Nat) (x : Core) : (d.setCore c x).hbmPoison = d.hbmPoison := rfl
@[simp] theorem setCore_pool (c : Nat) (x : Core) : (d.setCore c x).pool = d.pool := rfl
@[simp] theorem setCore_poolPoison (c : Nat) (x : Core) : (d.setCore c x).poolPoison = d.poolPoison := rfl
@[simp] theorem setCore_loc (c : Nat) (x : Core) : (d.setCore c x).loc = d.loc := rfl
@[simp] theorem setCore_host (c : Nat) (x : Core) : (d.setCore c x).host = d.host := rfl
@[simp] theorem setCore_pins (c : Nat) (x : Core) : (d.setCore c x).pins = d.pins := rfl
@[simp] theorem setCore_owner (c : Nat) (x : Core) : (d.setCore c x).owner = d.owner := rfl
@[simp] theorem setCore_rsv (c : Nat) (x : Core) : (d.setCore c x).rsv = d.rsv := rfl
@[simp] theorem setCore_ctxs (c : Nat) (x : Core) : (d.setCore c x).ctxs = d.ctxs := rfl
@[simp] theorem setCore_links (c : Nat) (x : Core) : (d.setCore c x).links = d.links := rfl
@[simp] theorem setCore_cfs (c : Nat) (x : Core) : (d.setCore c x).cfs = d.cfs := rfl
@[simp] theorem setCore_fry (c : Nat) (x : Core) : (d.setCore c x).fry = d.fry := rfl
@[simp] theorem setCore_fryq (c : Nat) (x : Core) : (d.setCore c x).fryq = d.fryq := rfl
@[simp] theorem setCore_bell (c : Nat) (x : Core) : (d.setCore c x).bell = d.bell := rfl
@[simp] theorem setCore_devQuiet (c : Nat) (x : Core) : (d.setCore c x).devQuiet = d.devQuiet := rfl
@[simp] theorem setCore_offline (c : Nat) (x : Core) : (d.setCore c x).offline = d.offline := rfl
@[simp] theorem setCore_retList (c : Nat) (x : Core) : (d.setCore c x).retList = d.retList := rfl
@[simp] theorem setCore_merge (c : Nat) (x : Core) : (d.setCore c x).merge = d.merge := rfl
@[simp] theorem setPart_regs (p : Nat) (x : Part) : (d.setPart p x).regs = d.regs := rfl
@[simp] theorem setPart_ports (p : Nat) (x : Part) : (d.setPart p x).ports = d.ports := rfl
@[simp] theorem setPart_cores (p : Nat) (x : Part) : (d.setPart p x).cores = d.cores := rfl
@[simp] theorem setPart_srcs (p : Nat) (x : Part) : (d.setPart p x).srcs = d.srcs := rfl
@[simp] theorem setPart_hp (p : Nat) (x : Part) : (d.setPart p x).hp = d.hp := rfl
@[simp] theorem setPart_rolls (p : Nat) (x : Part) : (d.setPart p x).rolls = d.rolls := rfl
@[simp] theorem setPart_jrec (p : Nat) (x : Part) : (d.setPart p x).jrec = d.jrec := rfl
@[simp] theorem setPart_rings (p : Nat) (x : Part) : (d.setPart p x).rings = d.rings := rfl
@[simp] theorem setPart_out (p : Nat) (x : Part) : (d.setPart p x).out = d.out := rfl
@[simp] theorem setPart_ctr (p : Nat) (x : Part) : (d.setPart p x).ctr = d.ctr := rfl
@[simp] theorem setPart_now (p : Nat) (x : Part) : (d.setPart p x).now = d.now := rfl
@[simp] theorem setPart_hbm (p : Nat) (x : Part) : (d.setPart p x).hbm = d.hbm := rfl
@[simp] theorem setPart_hbmPoison (p : Nat) (x : Part) : (d.setPart p x).hbmPoison = d.hbmPoison := rfl
@[simp] theorem setPart_pool (p : Nat) (x : Part) : (d.setPart p x).pool = d.pool := rfl
@[simp] theorem setPart_poolPoison (p : Nat) (x : Part) : (d.setPart p x).poolPoison = d.poolPoison := rfl
@[simp] theorem setPart_loc (p : Nat) (x : Part) : (d.setPart p x).loc = d.loc := rfl
@[simp] theorem setPart_host (p : Nat) (x : Part) : (d.setPart p x).host = d.host := rfl
@[simp] theorem setPart_pins (p : Nat) (x : Part) : (d.setPart p x).pins = d.pins := rfl
@[simp] theorem setPart_owner (p : Nat) (x : Part) : (d.setPart p x).owner = d.owner := rfl
@[simp] theorem setPart_rsv (p : Nat) (x : Part) : (d.setPart p x).rsv = d.rsv := rfl
@[simp] theorem setPart_ctxs (p : Nat) (x : Part) : (d.setPart p x).ctxs = d.ctxs := rfl
@[simp] theorem setPart_links (p : Nat) (x : Part) : (d.setPart p x).links = d.links := rfl
@[simp] theorem setPart_cfs (p : Nat) (x : Part) : (d.setPart p x).cfs = d.cfs := rfl
@[simp] theorem setPart_fry (p : Nat) (x : Part) : (d.setPart p x).fry = d.fry := rfl
@[simp] theorem setPart_fryq (p : Nat) (x : Part) : (d.setPart p x).fryq = d.fryq := rfl
@[simp] theorem setPart_bell (p : Nat) (x : Part) : (d.setPart p x).bell = d.bell := rfl
@[simp] theorem setPart_devQuiet (p : Nat) (x : Part) : (d.setPart p x).devQuiet = d.devQuiet := rfl
@[simp] theorem setPart_offline (p : Nat) (x : Part) : (d.setPart p x).offline = d.offline := rfl
@[simp] theorem setPart_retList (p : Nat) (x : Part) : (d.setPart p x).retList = d.retList := rfl
@[simp] theorem setPart_merge (p : Nat) (x : Part) : (d.setPart p x).merge = d.merge := rfl
@[simp] theorem setSrc_regs (n : Nat) (x : Src) : (d.setSrc n x).regs = d.regs := rfl
@[simp] theorem setSrc_ports (n : Nat) (x : Src) : (d.setSrc n x).ports = d.ports := rfl
@[simp] theorem setSrc_cores (n : Nat) (x : Src) : (d.setSrc n x).cores = d.cores := rfl
@[simp] theorem setSrc_parts (n : Nat) (x : Src) : (d.setSrc n x).parts = d.parts := rfl
@[simp] theorem setSrc_hp (n : Nat) (x : Src) : (d.setSrc n x).hp = d.hp := rfl
@[simp] theorem setSrc_rolls (n : Nat) (x : Src) : (d.setSrc n x).rolls = d.rolls := rfl
@[simp] theorem setSrc_jrec (n : Nat) (x : Src) : (d.setSrc n x).jrec = d.jrec := rfl
@[simp] theorem setSrc_rings (n : Nat) (x : Src) : (d.setSrc n x).rings = d.rings := rfl
@[simp] theorem setSrc_out (n : Nat) (x : Src) : (d.setSrc n x).out = d.out := rfl
@[simp] theorem setSrc_ctr (n : Nat) (x : Src) : (d.setSrc n x).ctr = d.ctr := rfl
@[simp] theorem setSrc_now (n : Nat) (x : Src) : (d.setSrc n x).now = d.now := rfl
@[simp] theorem setSrc_hbm (n : Nat) (x : Src) : (d.setSrc n x).hbm = d.hbm := rfl
@[simp] theorem setSrc_hbmPoison (n : Nat) (x : Src) : (d.setSrc n x).hbmPoison = d.hbmPoison := rfl
@[simp] theorem setSrc_pool (n : Nat) (x : Src) : (d.setSrc n x).pool = d.pool := rfl
@[simp] theorem setSrc_poolPoison (n : Nat) (x : Src) : (d.setSrc n x).poolPoison = d.poolPoison := rfl
@[simp] theorem setSrc_loc (n : Nat) (x : Src) : (d.setSrc n x).loc = d.loc := rfl
@[simp] theorem setSrc_host (n : Nat) (x : Src) : (d.setSrc n x).host = d.host := rfl
@[simp] theorem setSrc_pins (n : Nat) (x : Src) : (d.setSrc n x).pins = d.pins := rfl
@[simp] theorem setSrc_owner (n : Nat) (x : Src) : (d.setSrc n x).owner = d.owner := rfl
@[simp] theorem setSrc_rsv (n : Nat) (x : Src) : (d.setSrc n x).rsv = d.rsv := rfl
@[simp] theorem setSrc_ctxs (n : Nat) (x : Src) : (d.setSrc n x).ctxs = d.ctxs := rfl
@[simp] theorem setSrc_links (n : Nat) (x : Src) : (d.setSrc n x).links = d.links := rfl
@[simp] theorem setSrc_cfs (n : Nat) (x : Src) : (d.setSrc n x).cfs = d.cfs := rfl
@[simp] theorem setSrc_fry (n : Nat) (x : Src) : (d.setSrc n x).fry = d.fry := rfl
@[simp] theorem setSrc_fryq (n : Nat) (x : Src) : (d.setSrc n x).fryq = d.fryq := rfl
@[simp] theorem setSrc_bell (n : Nat) (x : Src) : (d.setSrc n x).bell = d.bell := rfl
@[simp] theorem setSrc_devQuiet (n : Nat) (x : Src) : (d.setSrc n x).devQuiet = d.devQuiet := rfl
@[simp] theorem setSrc_offline (n : Nat) (x : Src) : (d.setSrc n x).offline = d.offline := rfl
@[simp] theorem setSrc_retList (n : Nat) (x : Src) : (d.setSrc n x).retList = d.retList := rfl
@[simp] theorem setSrc_merge (n : Nat) (x : Src) : (d.setSrc n x).merge = d.merge := rfl
@[simp] theorem setPass_regs (p n : Nat) (x : HallPass) : (d.setPass p n x).regs = d.regs := rfl
@[simp] theorem setPass_ports (p n : Nat) (x : HallPass) : (d.setPass p n x).ports = d.ports := rfl
@[simp] theorem setPass_cores (p n : Nat) (x : HallPass) : (d.setPass p n x).cores = d.cores := rfl
@[simp] theorem setPass_parts (p n : Nat) (x : HallPass) : (d.setPass p n x).parts = d.parts := rfl
@[simp] theorem setPass_srcs (p n : Nat) (x : HallPass) : (d.setPass p n x).srcs = d.srcs := rfl
@[simp] theorem setPass_rolls (p n : Nat) (x : HallPass) : (d.setPass p n x).rolls = d.rolls := rfl
@[simp] theorem setPass_jrec (p n : Nat) (x : HallPass) : (d.setPass p n x).jrec = d.jrec := rfl
@[simp] theorem setPass_rings (p n : Nat) (x : HallPass) : (d.setPass p n x).rings = d.rings := rfl
@[simp] theorem setPass_out (p n : Nat) (x : HallPass) : (d.setPass p n x).out = d.out := rfl
@[simp] theorem setPass_ctr (p n : Nat) (x : HallPass) : (d.setPass p n x).ctr = d.ctr := rfl
@[simp] theorem setPass_now (p n : Nat) (x : HallPass) : (d.setPass p n x).now = d.now := rfl
@[simp] theorem setPass_hbm (p n : Nat) (x : HallPass) : (d.setPass p n x).hbm = d.hbm := rfl
@[simp] theorem setPass_hbmPoison (p n : Nat) (x : HallPass) : (d.setPass p n x).hbmPoison = d.hbmPoison := rfl
@[simp] theorem setPass_pool (p n : Nat) (x : HallPass) : (d.setPass p n x).pool = d.pool := rfl
@[simp] theorem setPass_poolPoison (p n : Nat) (x : HallPass) : (d.setPass p n x).poolPoison = d.poolPoison := rfl
@[simp] theorem setPass_loc (p n : Nat) (x : HallPass) : (d.setPass p n x).loc = d.loc := rfl
@[simp] theorem setPass_host (p n : Nat) (x : HallPass) : (d.setPass p n x).host = d.host := rfl
@[simp] theorem setPass_pins (p n : Nat) (x : HallPass) : (d.setPass p n x).pins = d.pins := rfl
@[simp] theorem setPass_owner (p n : Nat) (x : HallPass) : (d.setPass p n x).owner = d.owner := rfl
@[simp] theorem setPass_rsv (p n : Nat) (x : HallPass) : (d.setPass p n x).rsv = d.rsv := rfl
@[simp] theorem setPass_ctxs (p n : Nat) (x : HallPass) : (d.setPass p n x).ctxs = d.ctxs := rfl
@[simp] theorem setPass_links (p n : Nat) (x : HallPass) : (d.setPass p n x).links = d.links := rfl
@[simp] theorem setPass_cfs (p n : Nat) (x : HallPass) : (d.setPass p n x).cfs = d.cfs := rfl
@[simp] theorem setPass_fry (p n : Nat) (x : HallPass) : (d.setPass p n x).fry = d.fry := rfl
@[simp] theorem setPass_fryq (p n : Nat) (x : HallPass) : (d.setPass p n x).fryq = d.fryq := rfl
@[simp] theorem setPass_bell (p n : Nat) (x : HallPass) : (d.setPass p n x).bell = d.bell := rfl
@[simp] theorem setPass_devQuiet (p n : Nat) (x : HallPass) : (d.setPass p n x).devQuiet = d.devQuiet := rfl
@[simp] theorem setPass_offline (p n : Nat) (x : HallPass) : (d.setPass p n x).offline = d.offline := rfl
@[simp] theorem setPass_retList (p n : Nat) (x : HallPass) : (d.setPass p n x).retList = d.retList := rfl
@[simp] theorem setPass_merge (p n : Nat) (x : HallPass) : (d.setPass p n x).merge = d.merge := rfl
@[simp] theorem setRoll_regs (p n : Nat) (x : RollHold) : (d.setRoll p n x).regs = d.regs := rfl
@[simp] theorem setRoll_ports (p n : Nat) (x : RollHold) : (d.setRoll p n x).ports = d.ports := rfl
@[simp] theorem setRoll_cores (p n : Nat) (x : RollHold) : (d.setRoll p n x).cores = d.cores := rfl
@[simp] theorem setRoll_parts (p n : Nat) (x : RollHold) : (d.setRoll p n x).parts = d.parts := rfl
@[simp] theorem setRoll_srcs (p n : Nat) (x : RollHold) : (d.setRoll p n x).srcs = d.srcs := rfl
@[simp] theorem setRoll_hp (p n : Nat) (x : RollHold) : (d.setRoll p n x).hp = d.hp := rfl
@[simp] theorem setRoll_jrec (p n : Nat) (x : RollHold) : (d.setRoll p n x).jrec = d.jrec := rfl
@[simp] theorem setRoll_rings (p n : Nat) (x : RollHold) : (d.setRoll p n x).rings = d.rings := rfl
@[simp] theorem setRoll_out (p n : Nat) (x : RollHold) : (d.setRoll p n x).out = d.out := rfl
@[simp] theorem setRoll_ctr (p n : Nat) (x : RollHold) : (d.setRoll p n x).ctr = d.ctr := rfl
@[simp] theorem setRoll_now (p n : Nat) (x : RollHold) : (d.setRoll p n x).now = d.now := rfl
@[simp] theorem setRoll_hbm (p n : Nat) (x : RollHold) : (d.setRoll p n x).hbm = d.hbm := rfl
@[simp] theorem setRoll_hbmPoison (p n : Nat) (x : RollHold) : (d.setRoll p n x).hbmPoison = d.hbmPoison := rfl
@[simp] theorem setRoll_pool (p n : Nat) (x : RollHold) : (d.setRoll p n x).pool = d.pool := rfl
@[simp] theorem setRoll_poolPoison (p n : Nat) (x : RollHold) : (d.setRoll p n x).poolPoison = d.poolPoison := rfl
@[simp] theorem setRoll_loc (p n : Nat) (x : RollHold) : (d.setRoll p n x).loc = d.loc := rfl
@[simp] theorem setRoll_host (p n : Nat) (x : RollHold) : (d.setRoll p n x).host = d.host := rfl
@[simp] theorem setRoll_pins (p n : Nat) (x : RollHold) : (d.setRoll p n x).pins = d.pins := rfl
@[simp] theorem setRoll_owner (p n : Nat) (x : RollHold) : (d.setRoll p n x).owner = d.owner := rfl
@[simp] theorem setRoll_rsv (p n : Nat) (x : RollHold) : (d.setRoll p n x).rsv = d.rsv := rfl
@[simp] theorem setRoll_ctxs (p n : Nat) (x : RollHold) : (d.setRoll p n x).ctxs = d.ctxs := rfl
@[simp] theorem setRoll_links (p n : Nat) (x : RollHold) : (d.setRoll p n x).links = d.links := rfl
@[simp] theorem setRoll_cfs (p n : Nat) (x : RollHold) : (d.setRoll p n x).cfs = d.cfs := rfl
@[simp] theorem setRoll_fry (p n : Nat) (x : RollHold) : (d.setRoll p n x).fry = d.fry := rfl
@[simp] theorem setRoll_fryq (p n : Nat) (x : RollHold) : (d.setRoll p n x).fryq = d.fryq := rfl
@[simp] theorem setRoll_bell (p n : Nat) (x : RollHold) : (d.setRoll p n x).bell = d.bell := rfl
@[simp] theorem setRoll_devQuiet (p n : Nat) (x : RollHold) : (d.setRoll p n x).devQuiet = d.devQuiet := rfl
@[simp] theorem setRoll_offline (p n : Nat) (x : RollHold) : (d.setRoll p n x).offline = d.offline := rfl
@[simp] theorem setRoll_retList (p n : Nat) (x : RollHold) : (d.setRoll p n x).retList = d.retList := rfl
@[simp] theorem setRoll_merge (p n : Nat) (x : RollHold) : (d.setRoll p n x).merge = d.merge := rfl
@[simp] theorem setJr_regs (g : Nat) (x : JRec) : (d.setJr g x).regs = d.regs := rfl
@[simp] theorem setJr_ports (g : Nat) (x : JRec) : (d.setJr g x).ports = d.ports := rfl
@[simp] theorem setJr_cores (g : Nat) (x : JRec) : (d.setJr g x).cores = d.cores := rfl
@[simp] theorem setJr_parts (g : Nat) (x : JRec) : (d.setJr g x).parts = d.parts := rfl
@[simp] theorem setJr_srcs (g : Nat) (x : JRec) : (d.setJr g x).srcs = d.srcs := rfl
@[simp] theorem setJr_hp (g : Nat) (x : JRec) : (d.setJr g x).hp = d.hp := rfl
@[simp] theorem setJr_rolls (g : Nat) (x : JRec) : (d.setJr g x).rolls = d.rolls := rfl
@[simp] theorem setJr_rings (g : Nat) (x : JRec) : (d.setJr g x).rings = d.rings := rfl
@[simp] theorem setJr_out (g : Nat) (x : JRec) : (d.setJr g x).out = d.out := rfl
@[simp] theorem setJr_ctr (g : Nat) (x : JRec) : (d.setJr g x).ctr = d.ctr := rfl
@[simp] theorem setJr_now (g : Nat) (x : JRec) : (d.setJr g x).now = d.now := rfl
@[simp] theorem setJr_hbm (g : Nat) (x : JRec) : (d.setJr g x).hbm = d.hbm := rfl
@[simp] theorem setJr_hbmPoison (g : Nat) (x : JRec) : (d.setJr g x).hbmPoison = d.hbmPoison := rfl
@[simp] theorem setJr_pool (g : Nat) (x : JRec) : (d.setJr g x).pool = d.pool := rfl
@[simp] theorem setJr_poolPoison (g : Nat) (x : JRec) : (d.setJr g x).poolPoison = d.poolPoison := rfl
@[simp] theorem setJr_loc (g : Nat) (x : JRec) : (d.setJr g x).loc = d.loc := rfl
@[simp] theorem setJr_host (g : Nat) (x : JRec) : (d.setJr g x).host = d.host := rfl
@[simp] theorem setJr_pins (g : Nat) (x : JRec) : (d.setJr g x).pins = d.pins := rfl
@[simp] theorem setJr_owner (g : Nat) (x : JRec) : (d.setJr g x).owner = d.owner := rfl
@[simp] theorem setJr_rsv (g : Nat) (x : JRec) : (d.setJr g x).rsv = d.rsv := rfl
@[simp] theorem setJr_ctxs (g : Nat) (x : JRec) : (d.setJr g x).ctxs = d.ctxs := rfl
@[simp] theorem setJr_links (g : Nat) (x : JRec) : (d.setJr g x).links = d.links := rfl
@[simp] theorem setJr_cfs (g : Nat) (x : JRec) : (d.setJr g x).cfs = d.cfs := rfl
@[simp] theorem setJr_fry (g : Nat) (x : JRec) : (d.setJr g x).fry = d.fry := rfl
@[simp] theorem setJr_fryq (g : Nat) (x : JRec) : (d.setJr g x).fryq = d.fryq := rfl
@[simp] theorem setJr_bell (g : Nat) (x : JRec) : (d.setJr g x).bell = d.bell := rfl
@[simp] theorem setJr_devQuiet (g : Nat) (x : JRec) : (d.setJr g x).devQuiet = d.devQuiet := rfl
@[simp] theorem setJr_offline (g : Nat) (x : JRec) : (d.setJr g x).offline = d.offline := rfl
@[simp] theorem setJr_retList (g : Nat) (x : JRec) : (d.setJr g x).retList = d.retList := rfl
@[simp] theorem setJr_merge (g : Nat) (x : JRec) : (d.setJr g x).merge = d.merge := rfl
@[simp] theorem setRing_regs (p r : Nat) (x : Ring) : (d.setRing p r x).regs = d.regs := rfl
@[simp] theorem setRing_ports (p r : Nat) (x : Ring) : (d.setRing p r x).ports = d.ports := rfl
@[simp] theorem setRing_cores (p r : Nat) (x : Ring) : (d.setRing p r x).cores = d.cores := rfl
@[simp] theorem setRing_parts (p r : Nat) (x : Ring) : (d.setRing p r x).parts = d.parts := rfl
@[simp] theorem setRing_srcs (p r : Nat) (x : Ring) : (d.setRing p r x).srcs = d.srcs := rfl
@[simp] theorem setRing_hp (p r : Nat) (x : Ring) : (d.setRing p r x).hp = d.hp := rfl
@[simp] theorem setRing_rolls (p r : Nat) (x : Ring) : (d.setRing p r x).rolls = d.rolls := rfl
@[simp] theorem setRing_jrec (p r : Nat) (x : Ring) : (d.setRing p r x).jrec = d.jrec := rfl
@[simp] theorem setRing_out (p r : Nat) (x : Ring) : (d.setRing p r x).out = d.out := rfl
@[simp] theorem setRing_ctr (p r : Nat) (x : Ring) : (d.setRing p r x).ctr = d.ctr := rfl
@[simp] theorem setRing_now (p r : Nat) (x : Ring) : (d.setRing p r x).now = d.now := rfl
@[simp] theorem setRing_hbm (p r : Nat) (x : Ring) : (d.setRing p r x).hbm = d.hbm := rfl
@[simp] theorem setRing_hbmPoison (p r : Nat) (x : Ring) : (d.setRing p r x).hbmPoison = d.hbmPoison := rfl
@[simp] theorem setRing_pool (p r : Nat) (x : Ring) : (d.setRing p r x).pool = d.pool := rfl
@[simp] theorem setRing_poolPoison (p r : Nat) (x : Ring) : (d.setRing p r x).poolPoison = d.poolPoison := rfl
@[simp] theorem setRing_loc (p r : Nat) (x : Ring) : (d.setRing p r x).loc = d.loc := rfl
@[simp] theorem setRing_host (p r : Nat) (x : Ring) : (d.setRing p r x).host = d.host := rfl
@[simp] theorem setRing_pins (p r : Nat) (x : Ring) : (d.setRing p r x).pins = d.pins := rfl
@[simp] theorem setRing_owner (p r : Nat) (x : Ring) : (d.setRing p r x).owner = d.owner := rfl
@[simp] theorem setRing_rsv (p r : Nat) (x : Ring) : (d.setRing p r x).rsv = d.rsv := rfl
@[simp] theorem setRing_ctxs (p r : Nat) (x : Ring) : (d.setRing p r x).ctxs = d.ctxs := rfl
@[simp] theorem setRing_links (p r : Nat) (x : Ring) : (d.setRing p r x).links = d.links := rfl
@[simp] theorem setRing_cfs (p r : Nat) (x : Ring) : (d.setRing p r x).cfs = d.cfs := rfl
@[simp] theorem setRing_fry (p r : Nat) (x : Ring) : (d.setRing p r x).fry = d.fry := rfl
@[simp] theorem setRing_fryq (p r : Nat) (x : Ring) : (d.setRing p r x).fryq = d.fryq := rfl
@[simp] theorem setRing_bell (p r : Nat) (x : Ring) : (d.setRing p r x).bell = d.bell := rfl
@[simp] theorem setRing_devQuiet (p r : Nat) (x : Ring) : (d.setRing p r x).devQuiet = d.devQuiet := rfl
@[simp] theorem setRing_offline (p r : Nat) (x : Ring) : (d.setRing p r x).offline = d.offline := rfl
@[simp] theorem setRing_retList (p r : Nat) (x : Ring) : (d.setRing p r x).retList = d.retList := rfl
@[simp] theorem setRing_merge (p r : Nat) (x : Ring) : (d.setRing p r x).merge = d.merge := rfl
@[simp] theorem emit_regs (e : Emit) : (d.emit e).regs = d.regs := rfl
@[simp] theorem emit_ports (e : Emit) : (d.emit e).ports = d.ports := rfl
@[simp] theorem emit_cores (e : Emit) : (d.emit e).cores = d.cores := rfl
@[simp] theorem emit_parts (e : Emit) : (d.emit e).parts = d.parts := rfl
@[simp] theorem emit_srcs (e : Emit) : (d.emit e).srcs = d.srcs := rfl
@[simp] theorem emit_hp (e : Emit) : (d.emit e).hp = d.hp := rfl
@[simp] theorem emit_rolls (e : Emit) : (d.emit e).rolls = d.rolls := rfl
@[simp] theorem emit_jrec (e : Emit) : (d.emit e).jrec = d.jrec := rfl
@[simp] theorem emit_rings (e : Emit) : (d.emit e).rings = d.rings := rfl
@[simp] theorem emit_ctr (e : Emit) : (d.emit e).ctr = d.ctr := rfl
@[simp] theorem emit_now (e : Emit) : (d.emit e).now = d.now := rfl
@[simp] theorem emit_hbm (e : Emit) : (d.emit e).hbm = d.hbm := rfl
@[simp] theorem emit_hbmPoison (e : Emit) : (d.emit e).hbmPoison = d.hbmPoison := rfl
@[simp] theorem emit_pool (e : Emit) : (d.emit e).pool = d.pool := rfl
@[simp] theorem emit_poolPoison (e : Emit) : (d.emit e).poolPoison = d.poolPoison := rfl
@[simp] theorem emit_loc (e : Emit) : (d.emit e).loc = d.loc := rfl
@[simp] theorem emit_host (e : Emit) : (d.emit e).host = d.host := rfl
@[simp] theorem emit_pins (e : Emit) : (d.emit e).pins = d.pins := rfl
@[simp] theorem emit_owner (e : Emit) : (d.emit e).owner = d.owner := rfl
@[simp] theorem emit_rsv (e : Emit) : (d.emit e).rsv = d.rsv := rfl
@[simp] theorem emit_ctxs (e : Emit) : (d.emit e).ctxs = d.ctxs := rfl
@[simp] theorem emit_links (e : Emit) : (d.emit e).links = d.links := rfl
@[simp] theorem emit_cfs (e : Emit) : (d.emit e).cfs = d.cfs := rfl
@[simp] theorem emit_fry (e : Emit) : (d.emit e).fry = d.fry := rfl
@[simp] theorem emit_fryq (e : Emit) : (d.emit e).fryq = d.fryq := rfl
@[simp] theorem emit_bell (e : Emit) : (d.emit e).bell = d.bell := rfl
@[simp] theorem emit_devQuiet (e : Emit) : (d.emit e).devQuiet = d.devQuiet := rfl
@[simp] theorem emit_offline (e : Emit) : (d.emit e).offline = d.offline := rfl
@[simp] theorem emit_retList (e : Emit) : (d.emit e).retList = d.retList := rfl
@[simp] theorem emit_merge (e : Emit) : (d.emit e).merge = d.merge := rfl

@[simp] theorem core_setCore_same (c : Nat) (x : Core) : (d.setCore c x).core c = x := tabGet_tabPut_same _ _ _ _
theorem core_setCore_ne (c : Nat) (x : Core) (k : Nat) (h : k ≠ c) : (d.setCore c x).core k = d.core k := tabGet_tabPut_ne _ _ _ _ _ h
@[simp] theorem core_wr (f : Fld) (v : Nat) (k0 : Nat) : (d.wr f v).core k0 = d.core k0 := rfl
@[simp] theorem core_setPort (r : Nat) (x : ReqPort) (k0 : Nat) : (d.setPort r x).core k0 = d.core k0 := rfl
@[simp] theorem core_setPart (p : Nat) (x : Part) (k0 : Nat) : (d.setPart p x).core k0 = d.core k0 := rfl
@[simp] theorem core_setSrc (n : Nat) (x : Src) (k0 : Nat) : (d.setSrc n x).core k0 = d.core k0 := rfl
@[simp] theorem core_setPass (p n : Nat) (x : HallPass) (k0 : Nat) : (d.setPass p n x).core k0 = d.core k0 := rfl
@[simp] theorem core_setRoll (p n : Nat) (x : RollHold) (k0 : Nat) : (d.setRoll p n x).core k0 = d.core k0 := rfl
@[simp] theorem core_setJr (g : Nat) (x : JRec) (k0 : Nat) : (d.setJr g x).core k0 = d.core k0 := rfl
@[simp] theorem core_setRing (p r : Nat) (x : Ring) (k0 : Nat) : (d.setRing p r x).core k0 = d.core k0 := rfl
@[simp] theorem core_emit (e : Emit) (k0 : Nat) : (d.emit e).core k0 = d.core k0 := rfl
@[simp] theorem part_setPart_same (p : Nat) (x : Part) : (d.setPart p x).part p = x := tabGet_tabPut_same _ _ _ _
theorem part_setPart_ne (p : Nat) (x : Part) (k : Nat) (h : k ≠ p) : (d.setPart p x).part k = d.part k := tabGet_tabPut_ne _ _ _ _ _ h
@[simp] theorem part_wr (f : Fld) (v : Nat) (k0 : Nat) : (d.wr f v).part k0 = d.part k0 := rfl
@[simp] theorem part_setPort (r : Nat) (x : ReqPort) (k0 : Nat) : (d.setPort r x).part k0 = d.part k0 := rfl
@[simp] theorem part_setCore (c : Nat) (x : Core) (k0 : Nat) : (d.setCore c x).part k0 = d.part k0 := rfl
@[simp] theorem part_setSrc (n : Nat) (x : Src) (k0 : Nat) : (d.setSrc n x).part k0 = d.part k0 := rfl
@[simp] theorem part_setPass (p n : Nat) (x : HallPass) (k0 : Nat) : (d.setPass p n x).part k0 = d.part k0 := rfl
@[simp] theorem part_setRoll (p n : Nat) (x : RollHold) (k0 : Nat) : (d.setRoll p n x).part k0 = d.part k0 := rfl
@[simp] theorem part_setJr (g : Nat) (x : JRec) (k0 : Nat) : (d.setJr g x).part k0 = d.part k0 := rfl
@[simp] theorem part_setRing (p r : Nat) (x : Ring) (k0 : Nat) : (d.setRing p r x).part k0 = d.part k0 := rfl
@[simp] theorem part_emit (e : Emit) (k0 : Nat) : (d.emit e).part k0 = d.part k0 := rfl
@[simp] theorem port_setPort_same (r : Nat) (x : ReqPort) : (d.setPort r x).port r = x := tabGet_tabPut_same _ _ _ _
theorem port_setPort_ne (r : Nat) (x : ReqPort) (k : Nat) (h : k ≠ r) : (d.setPort r x).port k = d.port k := tabGet_tabPut_ne _ _ _ _ _ h
@[simp] theorem port_wr (f : Fld) (v : Nat) (k0 : Nat) : (d.wr f v).port k0 = d.port k0 := rfl
@[simp] theorem port_setCore (c : Nat) (x : Core) (k0 : Nat) : (d.setCore c x).port k0 = d.port k0 := rfl
@[simp] theorem port_setPart (p : Nat) (x : Part) (k0 : Nat) : (d.setPart p x).port k0 = d.port k0 := rfl
@[simp] theorem port_setSrc (n : Nat) (x : Src) (k0 : Nat) : (d.setSrc n x).port k0 = d.port k0 := rfl
@[simp] theorem port_setPass (p n : Nat) (x : HallPass) (k0 : Nat) : (d.setPass p n x).port k0 = d.port k0 := rfl
@[simp] theorem port_setRoll (p n : Nat) (x : RollHold) (k0 : Nat) : (d.setRoll p n x).port k0 = d.port k0 := rfl
@[simp] theorem port_setJr (g : Nat) (x : JRec) (k0 : Nat) : (d.setJr g x).port k0 = d.port k0 := rfl
@[simp] theorem port_setRing (p r : Nat) (x : Ring) (k0 : Nat) : (d.setRing p r x).port k0 = d.port k0 := rfl
@[simp] theorem port_emit (e : Emit) (k0 : Nat) : (d.emit e).port k0 = d.port k0 := rfl
@[simp] theorem src_setSrc_same (n : Nat) (x : Src) : (d.setSrc n x).src n = x := tabGet_tabPut_same _ _ _ _
theorem src_setSrc_ne (n : Nat) (x : Src) (k : Nat) (h : k ≠ n) : (d.setSrc n x).src k = d.src k := tabGet_tabPut_ne _ _ _ _ _ h
@[simp] theorem src_wr (f : Fld) (v : Nat) (k0 : Nat) : (d.wr f v).src k0 = d.src k0 := rfl
@[simp] theorem src_setPort (r : Nat) (x : ReqPort) (k0 : Nat) : (d.setPort r x).src k0 = d.src k0 := rfl
@[simp] theorem src_setCore (c : Nat) (x : Core) (k0 : Nat) : (d.setCore c x).src k0 = d.src k0 := rfl
@[simp] theorem src_setPart (p : Nat) (x : Part) (k0 : Nat) : (d.setPart p x).src k0 = d.src k0 := rfl
@[simp] theorem src_setPass (p n : Nat) (x : HallPass) (k0 : Nat) : (d.setPass p n x).src k0 = d.src k0 := rfl
@[simp] theorem src_setRoll (p n : Nat) (x : RollHold) (k0 : Nat) : (d.setRoll p n x).src k0 = d.src k0 := rfl
@[simp] theorem src_setJr (g : Nat) (x : JRec) (k0 : Nat) : (d.setJr g x).src k0 = d.src k0 := rfl
@[simp] theorem src_setRing (p r : Nat) (x : Ring) (k0 : Nat) : (d.setRing p r x).src k0 = d.src k0 := rfl
@[simp] theorem src_emit (e : Emit) (k0 : Nat) : (d.emit e).src k0 = d.src k0 := rfl
@[simp] theorem jr_setJr_same (g : Nat) (x : JRec) : (d.setJr g x).jr g = x := tabGet_tabPut_same _ _ _ _
theorem jr_setJr_ne (g : Nat) (x : JRec) (k : Nat) (h : k ≠ g) : (d.setJr g x).jr k = d.jr k := tabGet_tabPut_ne _ _ _ _ _ h
@[simp] theorem jr_wr (f : Fld) (v : Nat) (k0 : Nat) : (d.wr f v).jr k0 = d.jr k0 := rfl
@[simp] theorem jr_setPort (r : Nat) (x : ReqPort) (k0 : Nat) : (d.setPort r x).jr k0 = d.jr k0 := rfl
@[simp] theorem jr_setCore (c : Nat) (x : Core) (k0 : Nat) : (d.setCore c x).jr k0 = d.jr k0 := rfl
@[simp] theorem jr_setPart (p : Nat) (x : Part) (k0 : Nat) : (d.setPart p x).jr k0 = d.jr k0 := rfl
@[simp] theorem jr_setSrc (n : Nat) (x : Src) (k0 : Nat) : (d.setSrc n x).jr k0 = d.jr k0 := rfl
@[simp] theorem jr_setPass (p n : Nat) (x : HallPass) (k0 : Nat) : (d.setPass p n x).jr k0 = d.jr k0 := rfl
@[simp] theorem jr_setRoll (p n : Nat) (x : RollHold) (k0 : Nat) : (d.setRoll p n x).jr k0 = d.jr k0 := rfl
@[simp] theorem jr_setRing (p r : Nat) (x : Ring) (k0 : Nat) : (d.setRing p r x).jr k0 = d.jr k0 := rfl
@[simp] theorem jr_emit (e : Emit) (k0 : Nat) : (d.emit e).jr k0 = d.jr k0 := rfl

/-- A register field reads back the value written, cut to its width (R10). -/
@[simp] theorem rd_wr_same (f : Fld) (v : Nat) : (d.wr f v).rd f = v % 2 ^ f.width := tabGet_tabPut_same _ _ _ _
/-- Writing a field leaves every field at another place as it was. -/
theorem rd_wr_ne (f g : Fld) (v : Nat) (h : g.key ≠ f.key) : (d.wr f v).rd g = d.rd g := by
  unfold rd wr
  exact tabGet_tabPut_ne_at f.reset (v % 2 ^ f.width) f.key g.key d.regs g.reset h
@[simp] theorem rd_setPort (r : Nat) (x : ReqPort) (f : Fld) : (d.setPort r x).rd f = d.rd f := rfl
@[simp] theorem rd_setCore (c : Nat) (x : Core) (f : Fld) : (d.setCore c x).rd f = d.rd f := rfl
@[simp] theorem rd_setPart (p : Nat) (x : Part) (f : Fld) : (d.setPart p x).rd f = d.rd f := rfl
@[simp] theorem rd_setSrc (n : Nat) (x : Src) (f : Fld) : (d.setSrc n x).rd f = d.rd f := rfl
@[simp] theorem rd_setPass (p n : Nat) (x : HallPass) (f : Fld) : (d.setPass p n x).rd f = d.rd f := rfl
@[simp] theorem rd_setRoll (p n : Nat) (x : RollHold) (f : Fld) : (d.setRoll p n x).rd f = d.rd f := rfl
@[simp] theorem rd_setJr (g : Nat) (x : JRec) (f : Fld) : (d.setJr g x).rd f = d.rd f := rfl
@[simp] theorem rd_setRing (p r : Nat) (x : Ring) (f : Fld) : (d.setRing p r x).rd f = d.rd f := rfl
@[simp] theorem rd_emit (e : Emit) (f : Fld) : (d.emit e).rd f = d.rd f := rfl

/-- An update of a core's record (R20, R51). -/
@[simp] theorem core_updCore_same (c : Nat) (f : Core → Core) : (d.updCore c f).core c = f (d.core c) := core_setCore_same _ _ _
theorem core_updCore_ne (c k : Nat) (f : Core → Core) (h : k ≠ c) : (d.updCore c f).core k = d.core k := core_setCore_ne _ _ _ _ h
@[simp] theorem part_updPart_same (p : Nat) (f : Part → Part) : (d.updPart p f).part p = f (d.part p) := part_setPart_same _ _ _
theorem part_updPart_ne (p k : Nat) (f : Part → Part) (h : k ≠ p) : (d.updPart p f).part k = d.part k := part_setPart_ne _ _ _ _ h
@[simp] theorem rd_updCore (c : Nat) (g : Core → Core) (f : Fld) : (d.updCore c g).rd f = d.rd f := rfl
@[simp] theorem rd_updPart (p : Nat) (g : Part → Part) (f : Fld) : (d.updPart p g).rd f = d.rd f := rfl

/-- A fresh free value advances the counter and nothing else (log 2). -/
@[simp] theorem fresh_rd (f : Fld) : d.fresh.2.rd f = d.rd f := rfl
@[simp] theorem fresh_core (c : Nat) : d.fresh.2.core c = d.core c := rfl
@[simp] theorem fresh_hbm : d.fresh.2.hbm = d.hbm := rfl
@[simp] theorem fresh_now : d.fresh.2.now = d.now := rfl
theorem fresh_ctr : d.fresh.2.ctr = d.ctr + 1 := rfl

end Sys2Proof.Machine.Dev
end

