-- ==== Sys2Proof/Laws/Machine.lean ====
section
/-!
SUPPORT. What the shared operations of the machine do, said once: the form of every command's outcome, a scalar instruction that takes
its effect, the instruction at the head of an engine's queue, and the lanes of a vector register.
-/
namespace Sys2Proof.Machine

@[simp] theorem apply_next (s : State) (f : Dev → Dev) : s.apply f = .next { s with dev := f s.dev } := rfl

theorem completes_iff (i : Instr) (s : State) (d : Dev) : Completes i s d ↔ exec i s = .next { s with dev := d } := Iff.rfl

/-- The commands that act on the test port: its instructions, MOD_RESET_N and the loss of standby power (R443, R451, R467). -/
def usesTap : Instr → Bool
  | .modResetN _ => true
  | .vstbyAbsent => true
  | .idcode => true
  | .samplePreload _ => true
  | .extest _ => true
  | .clamp => true
  | .highz => true
  | .chal => true
  | .unlock _ => true
  | .dbgap _ _ _ => true
  | .bypass _ => true
  | .trstN _ => true
  | _ => false

theorem shape_apply {e : State → Host.Outcome State Fault Refusal} (f : Dev → Dev) (h : e = fun s => s.apply f) :
    ∃ f : Dev → Dev, ∀ s, e s = s.apply f := ⟨f, fun s => by rw [h]⟩

theorem shape_watch {e : State → Host.Outcome State Fault Refusal} (f : Dev → Dev) (h : e = fun s => s.apply fun d => (f d).watch) :
    ∃ f : Dev → Dev, ∀ s, e s = s.apply f := ⟨fun d => (f d).watch, fun s => by rw [h]⟩

set_option maxRecDepth 8000 in
set_option maxHeartbeats 1000000 in
/-- Every other command changes the device, by a function of the device alone. -/
theorem exec_apply (i : Instr) (h : usesTap i = false) : ∃ f : Dev → Dev, ∀ s, exec i s = s.apply f := by
  cases i
  case sourceEnable n en l k p =>
    exact shape_apply (fun d => if Dev.srcReal n.toNat then d.sourceConfig n.toNat en l k.toNat p.toNat else d) rfl
  case flag p =>
    cases p with
    | none => exact shape_watch (fun d => d.flagNoc) rfl
    | some p => exact shape_apply (fun d => d.streamFlag p) rfl
  case quietEntryComplete p =>
    cases p with
    | none => exact shape_watch (fun d => d.devEntryDone) rfl
    | some p => exact shape_watch (fun d => d.entryDone p) rfl
  case stationDisable | push | pop | stcfg | mma | drain | mdrain | mpre | mtrans | vtrd | vtpush | sfuT | smxMax | smxExp |
    smxRescale | smxNorm | nrmAcc | nrmAccs | nrmApply | dmaUnitIssue | dmaUnitComplete | descriptorComplete | signal |
    releasePerform | handUpdate | ack | streamFail | slotGo | ready | chunk | withheld | broken | stale | hoptmo | cwd |
    slotAbort | jobGo | req | grant | row | batchDeadline | batchReturn | result | ferryRelease | jobWatchdog | jobAbort |
    timetableFire => exact shape_watch _ rfl
  all_goals first | (exfalso; cases h; done) | exact shape_apply _ rfl

/-- Every command answers a next state, by a function of the test port and the device alone. -/
theorem exec_shape (i : Instr) : ∃ g : Tap → Dev → Tap × Dev, ∀ s, exec i s = s.applyTap g := by
  by_cases h : usesTap i = true
  · cases i
    case modResetN low => exact ⟨fun t d => (if low then t else t.released, d.modResetN low), fun _ => rfl⟩
    case vstbyAbsent => exact ⟨fun _ d => (Tap.reset, d.vstbyAbsent), fun _ => rfl⟩
    case trstN low => exact ⟨fun t d => (t.trstN low, d), fun _ => rfl⟩
    all_goals first | (exfalso; cases h; done) | exact ⟨_, fun _ => rfl⟩
  · obtain ⟨f, hf⟩ := exec_apply i (by simpa using h)
    exact ⟨fun t d => (t, f d), fun s => hf s⟩

theorem after_eq (i : Instr) (s : State) : exec i s = .next (after i s) := by
  obtain ⟨g, hg⟩ := exec_shape i
  simp [after, hg, State.applyTap]

theorem after_pending (i : Instr) (s : State) : (after i s).pending = s.pending := by
  obtain ⟨g, hg⟩ := exec_shape i
  simp [after, hg, State.applyTap]

/-- What a command does does not depend on the queue. -/
theorem after_queue (i : Instr) (s : State) (p : List Instr) : after i { s with pending := p } = { after i s with pending := p } := by
  obtain ⟨g, hg⟩ := exec_shape i
  simp [after, hg, State.applyTap]

theorem after_tap (i : Instr) (s : State) (h : usesTap i = false) : (after i s).tap = s.tap := by
  obtain ⟨f, hf⟩ := exec_apply i h
  simp [after, hf]

theorem bit_land_false (x n : Nat) (h : x / 2 ^ n % 2 = 0) : bit x n = false := by simp [bit, h]

theorem wLong_mkWord_short (eng op : Nat) (g : Guard) (o : Nat) : wLong (mkWord eng false op g o) = false := by
  unfold wLong mkWord bit
  have h2 : b2n g.pn ≤ 1 := by unfold b2n; split <;> omega
  have h3 := g.pr.isLt
  have h4 : o % 2 ^ 49 < 2 ^ 49 := Nat.mod_lt _ (by decide)
  have h5 : op % 256 < 256 := Nat.mod_lt _ (by decide)
  have h6 : eng % 4 < 4 := Nat.mod_lt _ (by decide)
  have hb : b2n false = 0 := rfl
  simp only [hb, BitVec.toNat_ofNat, decide_eq_false_iff_not]
  omega

theorem wLong_mkWord_long (eng op : Nat) (g : Guard) (o : Nat) : wLong (mkWord eng true op g o) = true := by
  unfold wLong mkWord bit
  have h2 : b2n g.pn ≤ 1 := by unfold b2n; split <;> omega
  have h3 := g.pr.isLt
  have h4 : o % 2 ^ 49 < 2 ^ 49 := Nat.mod_lt _ (by decide)
  have h5 : op % 256 < 256 := Nat.mod_lt _ (by decide)
  have h6 : eng % 4 < 4 := Nat.mod_lt _ (by decide)
  have hb : b2n true = 1 := rfl
  simp only [hb, BitVec.toNat_ofNat, decide_eq_true_eq]
  omega

theorem traceTake_took {d : Dev} {c e : Nat} (h : (d.eng c e).took = true) (a : BitVec 48) : d.traceTake c e a = d := by
  simp [Dev.traceTake, h]

/-- Where a long instruction can be fetched, a short one can. -/
theorem fetched_short {d : Dev} {c : Nat} (h : d.fetched c true = .ok) : d.fetched c false = .ok := by
  unfold Dev.fetched at *
  cases ho : d.coreOwner c with
  | none => simp
  | some p =>
    simp only [ho] at h ⊢
    split at h
    · cases h
    · rename_i h8
      simp only [h8, if_false]
      cases hw : d.fetchWord c p (d.core c).pc.toNat true <;> simp_all

/-- A scalar instruction that is taken with a true guard does what its body says. -/
theorem scalar_takes {d : Dev} {c : Nat} {g : Guard} (w ext : Word) (body : Dev → SRes) (h : Takes d c g (wLong w)) :
    d.scalar c g w ext false body =
      match body d with
      | .done d => d.retire c (if wLong w then 16 else 8)
      | .fault a d => d.seqFault c w ext a
      | .stall d => d
      | .jumped d => d := by
  obtain ⟨h1, h0, h2, h3, h4⟩ := h
  unfold Dev.scalar
  unfold Dev.guardOn at h2
  simp only [h1, h0, traceTake_took h3, not_true_eq_false, if_false, Bool.false_and, Bool.false_eq_true]
  unfold atLoopEnd at h4
  cases hl : (d.core c).loops with
  | nil => simp only [h2]; cases hb : body d <;> simp
  | cons l r =>
    rw [hl] at h4
    simp only [h2]
    simp only [Bool.false_or, h4, Bool.false_eq_true, if_false]
    cases hb : body d <;> simp

/-- A branch or loop that is taken up outside a delay slot and a loop's end does what its body says. -/
theorem scalar_takesFlow {d : Dev} {c : Nat} {g g' : Guard} (w ext : Word) (body : Dev → SRes) (hw : wLong w = false)
    (h : TakesFlow d c g) :
    d.scalar c g' w ext true body =
      match body d with
      | .done d => d.retire c (if wLong w then 16 else 8)
      | .fault a d => d.seqFault c w ext a
      | .stall d => d
      | .jumped d => d := by
  obtain ⟨h1, h0, _, h3, h4, h5⟩ := h
  unfold Dev.scalar
  simp only [h1, hw, h0, traceTake_took h3, not_true_eq_false, if_false]
  unfold atLoopEnd at h5
  cases hl : (d.core c).loops with
  | nil => simp only [h4]; cases hb : body d <;> simp
  | cons l r =>
    rw [hl] at h5
    simp only at h5
    simp only [h4, h5]
    cases hb : body d <;> simp

/-- An instruction with a false guard is passed. -/
theorem scalar_skips {d : Dev} {c : Nat} {g : Guard} (w ext : Word) (body : Dev → SRes) (h1 : d.seqReady c = true)
    (h0 : d.fetched c (wLong w) = .ok)
    (h2 : d.guardOn c g = false) (h3 : (d.eng c 0).took = true) (h4 : (atLoopEnd (d.core c) && (d.core c).slot.isSome) = false) :
    d.scalar c g w ext false body = d.retire c (if wLong w then 16 else 8) := by
  unfold Dev.scalar
  unfold Dev.guardOn at h2
  simp only [h1, h0, traceTake_took h3, not_true_eq_false, if_false, Bool.false_and, Bool.false_eq_true]
  unfold atLoopEnd at h4
  cases hl : (d.core c).loops with
  | nil => simp only [h2]; cases hb : body d <;> simp
  | cons l r =>
    rw [hl] at h4
    simp only [h2]
    simp only [Bool.false_or, h4, Bool.false_eq_true, if_false]
    cases hb : body d <;> simp

/-- The instruction at the head of an engine's queue, executed. -/
theorem onHead_executes {d : Dev} {c e op : Nat} {q : QEntry} (f : QEntry → Dev → Dev) (h : Executes d c e op q) :
    d.onHead c e op f = f q d := by
  obtain ⟨h1, h2, h3, h4⟩ := h
  unfold Dev.onHead Dev.qHead
  rw [h2]
  simp [h1, h3, traceTake_took h4]

/-! Lanes. -/

theorem lane_setLane_same (x : Core) (r i : Nat) (v : Lane) : (x.setLane r i v).lane r i = v := by
  simp [Core.lane, Core.setLane]

theorem lane_setLane_ne (x : Core) (r i r' i' : Nat) (v : Lane) (h : r' * 128 + i' ≠ r * 128 + i) :
    (x.setLane r i v).lane r' i' = x.lane r' i' := by
  simp only [Core.lane, Core.setLane]
  exact tabGet_tabPut_ne _ _ _ _ _ h

end Sys2Proof.Machine
end

