-- ==== Sys2Proof/Laws/Memory.lean ====
section
/-!
SUPPORT. The laws of the memories: the reset state lists nothing, every operation that writes, poisons, copies or clears bytes keeps the
canonical form, and a read after a write to the same bytes gives them back.
-/
namespace Sys2Proof.Machine

theorem reset_memWf : State.reset.dev.memWf = true := rfl
theorem core_reset_memWf : Core.reset.memWf = true := rfl

theorem foldl_keeps {α β : Type} (p : β → Prop) (f : β → α → β) (l : List α) (b : β) (h : p b) (hf : ∀ b a, p b → p (f b a)) :
    p (l.foldl f b) := by
  induction l generalizing b with
  | nil => exact h
  | cons a r ih => exact ih _ (hf b a h)

theorem tabWf_tabClear {α : Type} [DecidableEq α] {d : α} {t : Tab α} (lo n : Nat) (h : tabWf d t = true) :
    tabWf d (tabClear lo n t) = true := tabWf_filter d t _ h

theorem tabWf_foldl_put {α β : Type} [DecidableEq α] (d : α) (k : β → Nat) (v : β → α) (l : List β) (t : Tab α)
    (h : tabWf d t = true) : tabWf d (l.foldl (fun t b => tabPut d (k b) (v b) t) t) = true :=
  foldl_keeps (fun t => tabWf d t = true) _ l t h fun t _ h => tabWf_tabPut d _ _ t h

theorem Core.tsWrite_memWf (x : Core) (a : Nat) (bs : List Byte) (h : x.memWf = true) : (x.tsWrite a bs).memWf = true :=
  tabWf_tabPutList 0 a x.ts bs h

/-- A core reads back the bytes it wrote. -/
theorem Core.tsWrite_read (x : Core) (a : Nat) (bs : List Byte) : tabGetList 0 a bs.length (x.tsWrite a bs).ts = bs :=
  tabGetList_tabPutList 0 a x.ts bs

namespace Dev

theorem memWf_iff (d : Dev) : d.memWf = true ↔ tabWf 0 d.hbm = true ∧ tabWf 0 d.pool = true ∧ tabWf 0 d.loc = true ∧
    tabWf 0 d.host = true ∧ tabWf false d.hbmPoison = true ∧ tabWf false d.poolPoison = true ∧ tabWf false d.hostPoison = true := by
  simp [memWf, and_assoc]

/-- A register write leaves the memories' form. -/
@[simp] theorem wr_memWf (d : Dev) (f : Fld) (v : Nat) : (d.wr f v).memWf = d.memWf := rfl
@[simp] theorem incSat_memWf (d : Dev) (f : Fld) (k : Nat) : (d.incSat f k).memWf = d.memWf := rfl

theorem hbmWrite_memWf (d : Dev) (pa : Nat) (bs : List Byte) (h : d.memWf = true) : (d.hbmWrite pa bs).memWf = true := by
  have hd : ∀ l : List Nat, (l.foldl (fun d s => d.incSat (Reg.HBM_UECNT_UE (d.stackOf (s * 32))) 1) d).memWf = true := fun l =>
    foldl_keeps (fun d : Dev => d.memWf = true) _ l d h fun d _ h => by simpa using h
  have h1 := (memWf_iff _).mp (hd (d.downSectors pa bs.length))
  have h0 := (memWf_iff _).mp h
  refine (memWf_iff _).mpr ⟨?_, h1.2.1, h1.2.2.1, h1.2.2.2.1, ?_, h1.2.2.2.2.2.1, h1.2.2.2.2.2.2⟩
  · unfold hbmWrite
    dsimp only
    split
    · exact tabWf_tabPutList 0 pa d.hbm bs h0.1
    · refine foldl_keeps (fun t => tabWf 0 t = true) _ _ _ h0.1 fun t b ht => ?_
      split
      · exact ht
      · exact tabWf_tabPut 0 _ _ t ht
  · unfold hbmWrite
    dsimp only
    refine foldl_keeps (fun t => tabWf false t = true) _ _ _ h0.2.2.2.2.1 fun t s ht => ?_
    split
    · exact ht
    · exact tabWf_tabPut false _ _ t ht

theorem hbmPoisonRange_memWf (d : Dev) (pa n : Nat) (h : d.memWf = true) : (d.hbmPoisonRange pa n).memWf = true := by
  have h0 := (memWf_iff _).mp h
  exact (memWf_iff _).mpr ⟨h0.1, h0.2.1, h0.2.2.1, h0.2.2.2.1, tabWf_foldl_put false id (fun _ => true) _ _ h0.2.2.2.2.1, h0.2.2.2.2.2⟩

theorem poolWrite_memWf (d : Dev) (k : Nat) (bs : List Byte) (h : d.memWf = true) : (d.poolWrite k bs).memWf = true := by
  have h0 := (memWf_iff _).mp h
  exact (memWf_iff _).mpr ⟨h0.1, tabWf_tabPutList 0 k d.pool bs h0.2.1, h0.2.2.1, h0.2.2.2.1, h0.2.2.2.2.1,
    tabWf_foldl_put false id (fun _ => false) _ _ h0.2.2.2.2.2.1, h0.2.2.2.2.2.2⟩

theorem poolPoisonRange_memWf (d : Dev) (k n : Nat) (h : d.memWf = true) : (d.poolPoisonRange k n).memWf = true := by
  have h0 := (memWf_iff _).mp h
  exact (memWf_iff _).mpr ⟨h0.1, h0.2.1, h0.2.2.1, h0.2.2.2.1, h0.2.2.2.2.1,
    tabWf_foldl_put false id (fun _ => true) _ _ h0.2.2.2.2.2.1, h0.2.2.2.2.2.2⟩

theorem hostWrite_memWf (d : Dev) (a : Nat) (bs : List Byte) (h : d.memWf = true) : (d.hostWrite a bs).memWf = true := by
  have h0 := (memWf_iff _).mp h
  exact (memWf_iff _).mpr ⟨h0.1, h0.2.1, h0.2.2.1, tabWf_tabPutList 0 a d.host bs h0.2.2.2.1, h0.2.2.2.2⟩

theorem locWrite_memWf (d : Dev) (k o : Nat) (bs : List Byte) (h : d.memWf = true) : (d.locWrite k o bs).memWf = true := by
  have h0 := (memWf_iff _).mp h
  exact (memWf_iff _).mpr ⟨h0.1, h0.2.1, tabWf_tabPutList 0 _ d.loc bs h0.2.2.1, h0.2.2.2⟩

theorem hostSpend_memWf (d : Dev) (l : List (Phys × Nat)) (h : d.memWf = true) : (d.hostSpend l).memWf = true := by
  refine foldl_keeps (fun d : Dev => d.memWf = true) _ l d h fun d x h => ?_
  have h0 := (memWf_iff _).mp h
  split
  · exact (memWf_iff _).mpr ⟨h0.1, h0.2.1, h0.2.2.1, h0.2.2.2.1, h0.2.2.2.2.1, h0.2.2.2.2.2.1, tabWf_tabClear _ _ h0.2.2.2.2.2.2⟩
  · exact h

theorem completionTimeout_memWf (d : Dev) (e : HostEnd) (page : Nat) (h : d.memWf = true) :
    (d.completionTimeout e page).memWf = true := by
  have h0 := (memWf_iff _).mp h
  have h1 : ({ d with hostPoison := tabPut false page true d.hostPoison } : Dev).memWf = true :=
    (memWf_iff _).mpr ⟨h0.1, h0.2.1, h0.2.2.1, h0.2.2.2.1, h0.2.2.2.2.1, h0.2.2.2.2.2.1, tabWf_tabPut false _ _ _ h0.2.2.2.2.2.2⟩
  cases e <;> exact h1

theorem zeroGranules_memWf (d : Dev) (l : List Nat) (h : d.memWf = true) : (d.zeroGranules l).memWf = true := by
  refine foldl_keeps (fun d : Dev => d.memWf = true) _ l d h fun d g h => ?_
  have h0 := (memWf_iff _).mp h
  exact (memWf_iff _).mpr ⟨h0.1, tabWf_tabClear _ _ h0.2.1, h0.2.2.1, h0.2.2.2.1, h0.2.2.2.2.1, tabWf_tabClear _ _ h0.2.2.2.2.2.1,
    h0.2.2.2.2.2.2⟩

theorem copyPage_memWf (d : Dev) (src dst : Nat) (skip : List (Nat × Nat)) (h : d.memWf = true) :
    (d.copyPage src dst skip).memWf = true := by
  have h0 := (memWf_iff _).mp h
  unfold copyPage
  generalize List.range 65536 = sectors
  refine foldl_keeps (fun d : Dev => d.memWf = true) _ skip _ ?_ fun d x h => ?_
  · exact (memWf_iff _).mpr ⟨tabWf_foldl_put 0 _ _ _ _ (tabWf_tabClear _ _ h0.1), h0.2.1, h0.2.2.1, h0.2.2.2.1,
      tabWf_foldl_put false _ _ _ _ h0.2.2.2.2.1, h0.2.2.2.2.2⟩
  · have h1 := (memWf_iff _).mp h
    exact (memWf_iff _).mpr ⟨tabWf_tabPutList 0 _ _ _ h1.1, h1.2⟩

end Dev
end Sys2Proof.Machine
end

