-- ==== Sys2Proof/Tests/Slice0.lean ====
section
/-!
SUPPORT. Tests of the model: ill-formed commands that the check refuses, results computed by hand from the spec, and, for every
statement with hypotheses, concrete states and operands that meet them. Each compares one step or one condition.
-/
namespace Sys2Proof.Tests
open Sys2Proof Sys2Proof.Machine

/-! States for the tests: the device in service, a core that runs, an instruction at the head of an engine's queue, a FIFO. -/

def r0 : Dev := State.reset.dev

/-- In service: no reset runs and every domain is on. -/
def up : Dev := ((r0.clrF Reg.RST_STAT_INRESET).setF Reg.RST_STAT_READY).wr Reg.PWR_DOMSTAT_ON (2 ^ 25 - 1)

/-- Core 0's sequencer runs and has taken an instruction. -/
def run0 : Dev := up.updCore 0 fun x => { x with run := true, e0 := { x.e0 with took := true } }

/-- Partition 0 owns extent 0, whose first GiB both stages map to itself, with every grant or with those of `e`. -/
def code (d : Dev) (e : Byte := 0x1F) : Dev := { d.wr (Reg.HBM_STAT_STATE 0) 2 with owner := [(0, 1)], hbm := [(0, e)] }

/-- Core 0 belongs to partition 0, and its program is mapped. -/
def part0 : Dev := code (run0.updPart 0 fun x => { x with cores := 1 })

def st (d : Dev) : State := { State.reset with dev := d }

def g0 : Guard := ⟨false, 0⟩

/-- The queue entry of an instruction of engine e, with its captured ra. -/
def ent (e op opnds : Nat) (ra : Word := 0) (ext : Word := 0) (long : Bool := false) : QEntry := ⟨0, mkWord e long op g0 opnds, ext, ra, 0⟩

/-- The entry at the head of engine e of core 0. -/
def onQ (e : Nat) (q : QEntry) (d : Dev) : Dev := d.updEng 0 e fun g => { g with took := true, queue := [q] }

/-- FIFO n of core 0 enabled from port `prod` to port `cons`, four slots of 16 KiB from `base` KiB * 4 upward. -/
def fifo (n prod cons base : Nat) (d : Dev) : Dev :=
  (((((d.setF (Reg.ST_CFG_EN 0 n)).wr (Reg.ST_CFG_PROD 0 n) prod).wr (Reg.ST_CFG_CONS 0 n) cons).wr (Reg.ST_CFG_CAP 0 n) 4).wr
    (Reg.ST_CFG_SLOT 0 n) 64).wr (Reg.ST_CFG_BASE 0 n) base

/-- k tiles of `len` bytes wait in FIFO n of core 0. -/
def tiles (n k len : Nat) (d : Dev) : Dev := d.updCore 0 fun x => x.setFifo n { Fifo.reset with tiles := List.replicate k ⟨len, false⟩ }

/-- A packet of a type, the rest of its header zero but the flag bit. -/
def pkt0 (t : Nat) : Pkt := ⟨t, true, 0, false, 0, 0, 0, 0, 0, 0, 0, 0, 0, 0, 0, []⟩

def hdr0 : FlitHdr := ⟨false, false, false, 0, 0, 0⟩

/-! Every check of WellFormed refuses an ill-formed term. -/

theorem test_wf_register_write_misaligned : WellFormed (.registerWrite .pf false 4 0) = false := by decide
theorem test_wf_low_word_read_misaligned : WellFormed (.lowWordRead .pf 12) = false := by decide
theorem test_wf_high_word_read_misaligned : WellFormed (.highWordRead .pf 12) = false := by decide
theorem test_wf_low_word_write_misaligned : WellFormed (.lowWordWrite .pf false 4 0) = false := by decide
theorem test_wf_high_word_write_misaligned : WellFormed (.highWordWrite .pf false 4 0) = false := by decide
theorem test_wf_wide_access_misaligned : WellFormed (.wideAccess .pf false 8 (.inl 2)) = false := by decide
theorem test_wf_invalid_width_valid : WellFormed (.invalidWidthAccess .pf false 8 64) = false := by decide
theorem test_wf_unmapped_misaligned : WellFormed (.unmappedAccess .pf false 1) = false := by decide
theorem test_wf_push_format : WellFormed (.push 0 16 0x15 [] false) = false := by decide
theorem test_wf_flag_type : WellFormed (.flag (some (pkt0 ptWRITE))) = false := by decide
theorem test_wf_rcarr_type : WellFormed (.rcarr (pkt0 ptFLAG)) = false := by decide
theorem test_wf_rcrel_type : WellFormed (.rcrel (pkt0 ptFLAG)) = false := by decide
theorem test_wf_write_type : WellFormed (.write (pkt0 ptFLAG)) = false := by decide
theorem test_wf_read_type : WellFormed (.read (pkt0 ptFLAG) false) = false := by decide
theorem test_wf_rdata_type : WellFormed (.rdata (pkt0 ptFLAG) false) = false := by decide
theorem test_wf_engine_type : WellFormed (.engine (pkt0 ptFLAG)) = false := by decide
theorem test_wf_ack_type : WellFormed (.ack (pkt0 ptFLAG)) = false := by decide
theorem test_wf_sync_type : WellFormed (.sync (pkt0 ptFLAG)) = false := by decide
theorem test_wf_poison_type : WellFormed (.poison (pkt0 ptFLAG)) = false := by decide
theorem test_wf_hbm_read_misaligned : WellFormed (.hbmRead none 0 16 .clean) = false := by decide
theorem test_wf_hbm_write_crosses : WellFormed (.hbmWrite none 0 31 [1, 2]) = false := by decide
theorem test_wf_hbm_write_empty : WellFormed (.hbmWrite none 0 0 []) = false := by decide
set_option maxRecDepth 4000 in
theorem test_wf_data_flit_long : WellFormed (.dataFlit 0 hdr0 0 0 (List.replicate 245 0)) = false := by decide
theorem test_wf_credsync_counts : WellFormed (.credsync 0 hdr0 []) = false := by decide
theorem test_wf_near_memory_atomic_misaligned : WellFormed (.nearMemoryAtomic 0 0 4 .iadd true 0 0 false) = false := by decide
theorem test_wf_retire_spare : WellFormed (.retire 144) = false := by decide
theorem test_wf_identity_short : WellFormed (.identityRead 0 [] 0 0 0 0) = false := by decide
theorem test_wf_cap_window_count : WellFormed (.capWindow 0 []) = false := by decide
theorem test_wf_domain_on : WellFormed (.domainOn 25) = false := by decide
theorem test_wf_domain_off : WellFormed (.domainOff 25) = false := by decide
theorem test_wf_unlock_signature : WellFormed (.unlock []) = false := by decide

/-! Witnesses: states and operands that meet the hypotheses of each statement, clause by clause. -/

theorem test_hyp_StepRunsFrontCommand : ({ State.reset with pending := [.alloff] } : State).pending = .alloff :: [] := rfl

theorem test_hyp_QueueRunsInOrder : State.reset.pending = [] ∧ State.reset.dev.vstby = true ∧ (st { r0 with vstby := false }).dev.vstby = false ∧
    ({ State.reset with pending := [.alloff, .clr] } : State).pending = [.alloff] ++ [.clr] := by
  refine ⟨rfl, by decide, by decide, rfl⟩

theorem test_hyp_TestPortSoundAtEveryStep : State.reset.tap.sound ∧ step State.reset = .next (st State.reset.dev.tick) :=
  ⟨by unfold Tap.sound; decide, rfl⟩

theorem test_hyp_ResetState : State.reset.tap.sound := by unfold Tap.sound; decide

/-- A register reached by the PF, with a latch and a held word of its address, of another address, and with neither. -/
theorem test_hyp_LowThenHighWord :
    let d := up.setPort Requester.pf.num { up.port Requester.pf.num with latch := some (0, 5), hold := some (0, 7) }
    let d' := up.setPort Requester.pf.num { up.port Requester.pf.num with latch := some (8, 5), hold := some (8, 7) }
    up.reqUp .pf = true ∧ up.reach .pf 0 = .reg .MGT_ID0 [] 0 ∧ Dev.mayWrite .pf false .MGT_ID0 = true ∧ d.reqUp .pf = true ∧
    (d.port Requester.pf.num).latch = some (0, 5) ∧ (d.port Requester.pf.num).hold = some (0, 7) ∧
    (d'.port Requester.pf.num).latch.map (·.1) ≠ some 0 ∧ (d'.port Requester.pf.num).hold.map (·.1) ≠ some 0 ∧
    (up.port Requester.pf.num).latch.map (·.1) ≠ some 0 ∧ (up.port Requester.pf.num).hold.map (·.1) ≠ some 0 := by decide

theorem test_hyp_RegisterWriteStoresFields : up.reqUp .pf = true ∧ up.reach .pf 0x50208 = .reg .LG_CFG2 [] 0x50208 ∧
    Dev.mayWrite .pf false .LG_CFG2 = true ∧ up.plainWrite .LG_CFG2 [] 0x50208 (5 : Word).toNat :=
  ⟨by decide, by decide, by decide, rfl, rfl, rfl, rfl⟩

set_option maxRecDepth 20000 in
theorem test_hyp_WideAndBadAccesses : up.reqUp .pf = true ∧ Dev.wideOk 0x10 2 = true ∧ Dev.badAccess 3 32 = true ∧
    Dev.badAccess 0 48 = true ∧ up.reach .pf 0x90000 = .nothing := ⟨by decide, by decide, by decide, by decide, rfl⟩

theorem test_hyp_ProfileChangesWhenDrained :
    let d := { (up.setF Reg.PWR_PROFILE_BUSY) with accStop := 1, profTo := 2 }
    up.flag Reg.PWR_PROFILE_BUSY = false ∧ (2 : BitVec 2) ≠ 3 ∧ ((2 : BitVec 2).toNat ≠ up.rd Reg.PWR_PROFILE_CUR) ∧ up.accStop = 0 ∧
    up.flag Reg.HIF_MODID_BALMAX = false ∧ ((0 : BitVec 2).toNat ≠ up.rd Reg.PWR_PROFILE_CUR) ∧
    d.flag Reg.PWR_PROFILE_BUSY = true ∧ d.jnlQuiet = true ∧ d.accStop = 1 ∧ d.profTo < 4 := by decide

theorem test_hyp_StationsPushAndPopTiles :
    let d := up |> fifo 16 3 0 0
    up.fifoOn 0 16 = false ∧ d.fifoOn 0 16 = true ∧ d.canPush 0 16 = true ∧ [1, 2, 3].length ≤ d.fifoSlot 0 16 * 256 ∧
    ((d.core 0).fifo 16).tiles.length + 1 ≠ d.fifoCap 0 16 ∧ ((d |> tiles 16 2 8).core 0 |>.fifo 16).tiles = [⟨8, false⟩, ⟨8, false⟩] ∧
    ((d |> tiles 16 1 8).core 0 |>.fifo 16).tiles = [⟨8, false⟩] := by decide

/-- A tile one byte larger than the slot. -/
theorem test_hyp_push_too_large : (up |> fifo 16 3 0 0).canPush 0 16 = true ∧ (up |> fifo 16 3 0 0).fifoSlot 0 16 * 256 <
    (List.replicate 16385 (0 : Byte)).length := ⟨by decide, by rw [List.length_replicate]; decide⟩

theorem run0_takes : Takes run0 0 g0 := by unfold Takes; decide
theorem run0_takesFlow : TakesFlow run0 0 g0 := by unfold TakesFlow; decide

theorem test_hyp_DispatchAndGuards :
    let w := mkWord 1 false 0 g0 0
    let bad := mkWord 0 false 0xFF g0 0
    let full := run0.updEng 0 1 fun g => { g with queue := List.replicate 32 ⟨0, w, 0, 0, 0⟩ }
    wLong w = false ∧ legalWord w 0 = true ∧ wEng w ≠ 0 ∧ (run0.eng 0 (wEng w)).queue.length < 32 ∧ wLong bad = false ∧
    legalWord bad 0 = false ∧ 32 ≤ (full.eng 0 (wEng w)).queue.length ∧ full.seqReady 0 = true ∧
    run0.guardOn 0 ⟨wPn w, BitVec.ofNat 3 (wPr w)⟩ = true ∧ run0.guardOn 0 ⟨true, 0⟩ = false ∧ (run0.core 0).skipSlot = none ∧
    run0.fetched 0 true = .ok ∧ (code part0 0x0F).seqReady 0 = true ∧ (code part0 0x0F).coreOwner 0 = some 0 ∧ ((code part0 0x0F).core 0).pc.toNat % 8 = 0 ∧
    (code part0 0x0F).walk 0 0 = .ok ⟨0, 0, true, true, false, 0, true⟩ := by decide

theorem test_hyp_ScalarArithmeticAndFrame : Takes run0 0 g0 ∧ (run0.core 0).slot = none ∧ atLoopEnd (run0.core 0) = false ∧
    ∃ t, exec (.add 0 g0 1 2 3) (st run0) = .next t := ⟨run0_takes, by decide, by decide, _, rfl⟩

/-- The tile store's last eight bytes; an address past a multiple of 8; the reserved space code. -/
theorem test_hyp_ScalarLoadsAndStores :
    let d := run0.updCore 0 fun x => x.setSr 1 0x7FFFF8
    let e := run0.updCore 0 fun x => x.setSr 1 0x7FFFF9
    Takes d 0 g0 ∧ ((d.core 0).sr 1 + (0 : BitVec 37).signExtend 64).toNat % 8 = 0 ∧
    ((d.core 0).sr 1 + (0 : BitVec 37).signExtend 64).toNat + 8 ≤ 0x800000 ∧ Takes e 0 g0 ∧
    ((e.core 0).sr 1 + (0 : BitVec 37).signExtend 64).toNat % 8 ≠ 0 := by unfold Takes; decide

theorem test_hyp_ScalarLoad_reads : ∃ b d, run0.coreRead 0 0 0 8 8 false = (.ok b, d) := ⟨_, _, rfl⟩
theorem test_hyp_ScalarStore_writes : ∃ d, run0.coreWrite 0 0 0 8 (leBytes 8 5) = (.ok (), d) := ⟨_, rfl⟩

theorem test_hyp_BranchesAndLoops :
    let l (last : BitVec 48) : LoopAct := ⟨0, 0, last⟩
    let four := run0.updCore 0 fun x => { x with loops := List.replicate 4 (l 64) }
    let one := run0.updCore 0 fun x => { x with loops := [l 64] }
    let endAt := run0.updCore 0 fun x => { x with loops := [l 0] }
    TakesFlow run0 0 g0 ∧ (run0.core 0).skipSlot = none ∧ TakesFlow four 0 g0 ∧ 4 ≤ (four.core 0).loops.length ∧ TakesFlow one 0 g0 ∧
    (one.core 0).loops = l 64 :: [] ∧ (l 64).last ≤ (one.core 0).pc + BitVec.ofNat 48 (8 * 8) ∧
    (run0.core 0).loops.length < 4 ∧ (endAt.core 0).slot = none ∧ (endAt.core 0).loops = l 0 :: [] ∧ (l 0).last = (endAt.core 0).pc ∧
    (endAt.core 0).lcr 0 ≠ 1 ∧ ((endAt.updCore 0 fun x => x.setLc 0 1).core 0).lcr 0 = 1 := by unfold TakesFlow; decide

theorem test_hyp_ModeFields :
    let q := ent 1 0x50 (1 * 2 ^ 47) 1
    let n := ent 1 0 0
    Takes run0 0 g0 ∧ (Dev.modeSet (run0.core 0) 0 0 64).isSome = true ∧ 2 ≤ (2 : BitVec 6).toNat ∧
    Executes (up |> onQ 1 q) 0 1 0x50 q ∧ wF q.word 40 40 = 0 ∧ (Dev.modeSet ((up |> onQ 1 q).core 0) 1 (wF q.word 46 41) q.ra).isSome = true ∧
    (Dev.modeGet (run0.core 0) 1 0).isSome = true ∧ Dev.modeGet (run0.core 0) 1 60 = none ∧ Executes (up |> onQ 1 n) 0 1 0 n := by
  unfold Takes Executes; decide

/-- The lowest FIFO and the highest port; no record VALID, and one. -/
theorem test_hyp_SystemInstructions :
    let d := run0.setF (Reg.EXR_CAUSE_VALID 0 2)
    Takes run0 0 g0 ∧ 16 ≤ (16 : BitVec 6).toNat ∧ (15 : BitVec 6).toNat < 16 ∧ run0.anyValid 0 = false ∧ Takes d 0 g0 ∧
    d.anyValid 0 = true := by unfold Takes; decide

theorem test_hyp_FaultsTrapsAndResumption :
    let d := up.updCore 0 fun x => { x with tvec := 0x1000 }
    let v := (run0.updCore 0 fun x => { x with tvec := 0x1000 }).setF (Reg.EXR_CAUSE_VALID 0 2)
    let h := v.setF (Reg.SQ_TRAP_INTRAP 0)
    let a := up.updCore 0 fun x => { x with stopReq := 1 }
    (d.core 0).tvec ≠ 0 ∧ d.inTrap 0 = false ∧ d.coreOwner 0 = none ∧ v.trapDue 0 = true ∧ (v.core 0).e0.stopped = false ∧
    (v.core 0).obj = none ∧ (v.core 0).loadWait = none ∧ (v.core 0).e0.wait = none ∧ (v.core 0).e0.releasing = none ∧
    Takes run0 0 g0 ∧ run0.anyValid 0 = false ∧ Takes h 0 g0 ∧ h.valid 0 0 = false ∧ h.valid 0 2 = true ∧ (h.core 0).tvec ≠ 0 ∧
    v.coreOwner 0 = none ∧ v.valid 0 2 = true ∧ v.inTrap 0 = false ∧ (v.core 0).faultStop = false ∧
    v.partFailed 0 = false ∧ (∀ k : Fin 4, (v.eng 0 k).wait = none) ∧
    a.coreOwner 0 = none ∧ a.stopAsked 0 = true ∧ a.atBoundary 0 1 = true ∧ (a.eng 0 1).stopped = false ∧ up.stopAsked 0 = false := by
  unfold Takes; decide

/-- A pass of FP32 tiles: stations 16 to mx.a and 17 to mx.b. -/
def qMma : QEntry := ent 1 0x01 (16 * 2 ^ 43 + 17 * 2 ^ 37)
def mma0 : Dev := up |> fifo 16 11 0 0 |> fifo 17 11 1 256 |> onQ 1 qMma
def pass0 : Pass := ((mma0.mmaPass 0 qMma).getD ⟨0, 0, 0, 0, 0, false, false, 0, false, 0, 0, 0, .untagged, 0, [], [], .broadcast⟩)
def passing (p : Pass) : Dev := (mma0 |> tiles 16 2 16384 |> tiles 17 2 16384).updMx 0 fun m => { m with pass := some p }

theorem test_hyp_MmaBegins :
    let bad := ent 1 0x01 (16 * 2 ^ 43 + 17 * 2 ^ 37 + 3 * 2 ^ 20)
    Executes mma0 0 1 0x01 qMma ∧ (mma0.core 0).mx.pass = none ∧ mma0.mmaPass 0 qMma = some pass0 ∧ pass0.drn = false ∧
    mma0.resolveSt 0 true (fun n => n ≤ 2) pass0.a = .ok 16 ∧ mma0.resolveSt 0 true (fun n => n ≤ 2) pass0.b = .ok 17 ∧
    Executes (up |> onQ 1 bad) 0 1 0x01 bad ∧ (up |> onQ 1 bad).mmaPass 0 bad = none := by unfold Executes; decide

theorem test_hyp_MmaRunsPasses :
    let w := mma0.updMx 0 fun m => { m with pass := some pass0 }
    let d := passing pass0
    Executes w 0 1 0x01 qMma ∧ (w.core 0).mx.pass = some pass0 ∧ pass0.phase = .broadcast ∧ w.canPop 0 pass0.a = false ∧
    Executes d 0 1 0x01 qMma ∧ (d.core 0).mx.pass = some pass0 ∧ pass0.a ≠ pass0.b ∧ fmtOf pass0.fa = some (.flt layFP32) ∧
    fmtOf pass0.fb = some (.flt layFP32) ∧ d.fifoOn 0 pass0.a = true ∧ d.fifoOn 0 pass0.b = true ∧ 2 ≤ d.occ 0 pass0.a ∧ 2 ≤ d.occ 0 pass0.b ∧
    d.headLen 0 pass0.a = some (Fmt.flt layFP32).tileBytes ∧ d.headLen 0 pass0.b = some (Fmt.flt layFP32).tileBytes ∧
    (pass0.popped + 1) = pass0.k / 64 := by unfold Executes; decide

theorem test_hyp_LadderCountsInBinary : ∃ xs : List (List Cell), xs.length ≤ 4096 ∧ xs ≠ [] ∧ ∀ x ∈ xs, x.length = 4096 := by
  have h (l : List Cell) (hl : l.length = 4096) : ∃ xs : List (List Cell), xs.length ≤ 4096 ∧ xs ≠ [] ∧ ∀ x ∈ xs, x.length = 4096 :=
    ⟨[l], by simp, by simp, fun x h => by rw [List.mem_singleton.mp h, hl]⟩
  exact h (List.replicate 4096 (0, false)) List.length_replicate

theorem test_hyp_MatrixChecks :
    let chk := passing { pass0 with phase := .check }
    let chk2 := chk.updMx 0 fun m => { m with chk := .try2 }
    let col := passing { pass0 with phase := .collapse }
    let col1 := col.updMx 0 fun m => { m with chk := .try1 }
    let dr := passing { pass0 with phase := .drain, drn := true, out := 18 } |> fifo 18 3 4 512
    Executes chk 0 1 0x01 qMma ∧ (chk.core 0).mx.pass = some { pass0 with phase := .check } ∧ (chk.core 0).mx.chk = .try0 ∧
    Executes chk2 0 1 0x01 qMma ∧ (chk2.core 0).mx.chk = .try2 ∧ Executes col 0 1 0x01 qMma ∧ pass0.drn = false ∧
    Executes col1 0 1 0x01 qMma ∧ (col1.core 0).mx.chk = .try1 ∧ Executes dr 0 1 0x01 qMma ∧ pass0.fuse = 0 ∧
    fmtOf pass0.tag.code = some (.flt layFP32) ∧ dr.canPush 0 18 = true ∧ dr.tooBig 0 18 (Fmt.flt layFP32).tileBytes = false := by
  unfold Executes; decide

theorem test_hyp_mdrain :
    let q := ent 1 0x02 (18 * 2 ^ 43)
    let bad := ent 1 0x02 (18 * 2 ^ 43 + 5 * 2 ^ 28)
    let d := (up |> fifo 18 3 4 0 |> onQ 1 q).updMx 0 fun m => { m with tags := [(0, .f32)] }
    Executes d 0 1 0x02 q ∧ (d.eng 0 1).begun = false ∧ ((up |> onQ 1 bad).eng 0 1).begun = false ∧ (drainFmts ((d.core 0).mx.tag (wF q.word 36 33))).contains (wF q.word 32 28) = true ∧
    wF q.word 18 17 = 0 ∧ fmtOf (wF q.word 32 28) = some (.flt layFP32) ∧
    d.resolveSt 0 false (fun n => n = 3) (wF q.word 48 43) = .ok 18 ∧ d.canPush 0 18 = true ∧
    d.tooBig 0 18 (Fmt.flt layFP32).tileBytes = false ∧ (d.core 0).mx.chk ≠ .persistent ∧ Executes (up |> onQ 1 bad) 0 1 0x02 bad ∧
    (drainFmts (((up |> onQ 1 bad).core 0).mx.tag (wF bad.word 36 33))).contains (wF bad.word 32 28) = false := by
  unfold Executes; decide

theorem test_hyp_mpre_mtrans :
    let q := ent 1 0x03 (16 * 2 ^ 43)
    let bad := ent 1 0x03 (16 * 2 ^ 43 + 5 * 2 ^ 28)
    let d := up |> fifo 16 11 2 0 |> tiles 16 2 16384 |> onQ 1 q
    let t := ent 1 0x04 (16 * 2 ^ 43 + 18 * 2 ^ 37)
    let tb := ent 1 0x04 (16 * 2 ^ 43 + 18 * 2 ^ 37 + 5 * 2 ^ 28)
    let e := up |> fifo 16 11 2 0 |> fifo 18 3 4 256 |> tiles 16 2 16384 |> onQ 1 t
    Executes d 0 1 0x03 q ∧ (d.eng 0 1).begun = false ∧ (e.eng 0 1).begun = false ∧ Dev.mpreTag (wF q.word 32 28) = some .f32 ∧ fmtOf (wF q.word 32 28) = some (.flt layFP32) ∧
    d.resolveSt 0 true (fun n => n = 2) (wF q.word 48 43) = .ok 16 ∧ d.fifoOn 0 16 = true ∧ 2 ≤ d.occ 0 16 ∧
    d.headLen 0 16 = some (Fmt.flt layFP32).tileBytes ∧ Executes (up |> onQ 1 bad) 0 1 0x03 bad ∧ Dev.mpreTag (wF bad.word 32 28) = none ∧
    Executes (up |> onQ 1 tb) 0 1 0x04 tb ∧ fmtOf (wF tb.word 32 28) = some (.blk layE4M3 false) ∧ (Fmt.blk layE4M3 false).scaleBytes ≠ 0 ∧
    Executes e 0 1 0x04 t ∧ (Fmt.flt layFP32).scaleBytes = 0 ∧ e.resolveSt 0 true (fun n => n ≤ 2) (wF t.word 48 43) = .ok 16 ∧
    e.resolveSt 0 false (fun n => n = 3) (wF t.word 42 37) = .ok 18 ∧ e.canPush 0 18 = true ∧
    e.tooBig 0 18 (Fmt.flt layFP32).tileBytes = false ∧ 2 ≤ e.occ 0 16 := by unfold Executes; decide

theorem test_hyp_AccumulatorRead :
    let d := up.updCore 0 fun x => { x with stopReq := 1, e0 := { x.e0 with stopped := true }, e1 := { x.e1 with stopped := true },
                                              e2 := { x.e2 with stopped := true }, e3 := { x.e3 with stopped := true } }
    let t := up.updMx 0 fun m => { m with tags := [(0, .i32)] }
    (d.core 0).inDebug = true ∧ (up.core 0).inDebug = false ∧ (t.core 0).mx.tag (t.rd (Reg.MX_ACCSEL_SLOT 0)) = .i32 ∧
    t.rd (Reg.MX_ACCSEL_SRC 0) = 0 := by decide

/-- Every opcode of the lane arithmetic, of each of the three lane kinds. -/
theorem test_hyp_LaneOperations :
    (∀ op ∈ [0x01, 0x02, 0x03, 0x04, 0x05, 0x06, 0x07, 0x08, 0x09, 0x0A, 0x0B], ∀ t ∈ [0, 1, 2],
      Executes (up |> onQ 2 (ent 2 op (t * 2 ^ 32))) 0 2 op (ent 2 op (t * 2 ^ 32)) ∧ wF (ent 2 op (t * 2 ^ 32)).word 33 32 = t) ∧
    (∀ x ∈ [(0x10, 2 ^ 32 + 2 * 2 ^ 23), (0x10, 6 * 2 ^ 23), (0x11, 2 ^ 26), (0x11, 0), (0x12, 0), (0x30, 0), (0x31, 0), (0x18, 0)],
      Executes (up |> onQ 2 (ent 2 x.1 x.2)) 0 2 x.1 (ent 2 x.1 x.2)) ∧
    wF (ent 2 0x10 (2 ^ 32 + 2 * 2 ^ 23)).word 25 23 = 2 ∧ wF (ent 2 0x10 (6 * 2 ^ 23)).word 25 23 = 6 ∧
    wF (ent 2 0x11 (2 ^ 26)).word 26 26 = 1 ∧ wF (ent 2 0x11 0).word 26 26 = 0 ∧
    cvtFmt (wF (ent 2 0x18 0).word 22 18) = true ∧ fmtOf (wF (ent 2 0x18 0).word 17 13) = some (.flt layFP32) := by
  unfold Executes; decide

/-- The tile store's last 512 bytes; one byte further; the reserved space. -/
theorem test_hyp_VectorMemoryAccess :
    let q := ent 2 0x20 0 0x7FFE00
    let w := ent 2 0x21 0 0x7FFE00
    let m := ent 2 0x21 0 0x7FFE01
    let b := ent 2 0x20 (3 * 2 ^ 12) 0
    Executes (up |> onQ 2 q) 0 2 0x20 q ∧ wF q.word 13 12 = 0 ∧ (q.ra + sext 19 (wF q.word 38 20)).toNat % 4 = 0 ∧
    (q.ra + sext 19 (wF q.word 38 20)).toNat + 512 ≤ 0x800000 ∧ wF q.word 14 14 = 0 ∧ Executes (up |> onQ 2 w) 0 2 0x21 w ∧
    (w.ra + sext 19 (wF w.word 38 20)).toNat + 512 ≤ 0x800000 ∧ Executes (up |> onQ 2 m) 0 2 0x21 m ∧
    (m.ra + sext 19 (wF m.word 38 20)).toNat % 4 ≠ 0 ∧ Executes (up |> onQ 2 b) 0 2 0x20 b ∧ wF b.word 13 12 = 3 := by
  unfold Executes; decide

set_option maxRecDepth 20000 in
theorem test_hyp_vectorRuns :
    let q := ent 2 0x20 0 0x100
    (∃ l d, Dev.laneReads 0 0 false ((up |> onQ 2 q).vmRuns 0 q) (up |> onQ 2 q) = (l, .ok d)) ∧
    ∃ d, Dev.laneWrites 0 0 (up |> onQ 2 q) (((up |> onQ 2 q).vmRuns 0 q).map fun (i, a, n) => (i, a, List.replicate n (0 : Byte))) (up |> onQ 2 q) = .ok d :=
  ⟨⟨_, _, rfl⟩, _, rfl⟩

theorem test_hyp_VectorTileAccess :
    let q := ent 2 0x28 (16 * 2 ^ 38)
    let w := ent 2 0x29 (18 * 2 ^ 38)
    let c := ent 2 0x2A (16 * 2 ^ 38)
    let p := ent 2 0x2B (18 * 2 ^ 38)
    let t (n : Nat) : OpenTile := ⟨n, n, 0, [1, 2], [], false⟩
    let openIn (d : Dev) : Dev := d.updVx 0 fun v => { v with ins := [t 16] }
    let openOut (d : Dev) : Dev := d.updVx 0 fun v => { v with outs := [t 18] }
    let d := up |> fifo 16 3 4 0 |> fifo 18 6 7 256 |> tiles 16 2 16384
    Executes (openIn d |> onQ 2 q) 0 2 0x28 q ∧ fmtOf (wF q.word 31 27) = some (.flt layFP32) ∧ wF q.word 37 32 % 2 = 0 ∧
    Dev.openAt (wF q.word 43 38) ((openIn d).core 0).vx.ins = some (t 16) ∧ (t 16).fmt = wF q.word 31 27 ∧
    Executes (d |> onQ 2 q) 0 2 0x28 q ∧ Dev.openAt (wF q.word 43 38) (d.core 0).vx.ins = none ∧ (d.core 0).vx.ins.length < 4 ∧
    d.resolveSt 0 true (fun n => n = 4 || n = 5) (wF q.word 43 38) = .ok 16 ∧ Dev.openAt 16 (d.core 0).vx.ins = none ∧
    d.fifoOn 0 16 = true ∧ 2 ≤ d.occ 0 16 ∧ d.headLen 0 16 = some (Fmt.flt layFP32).tileBytes ∧
    Executes (openOut d |> onQ 2 w) 0 2 0x29 w ∧ Dev.openAt (wF w.word 43 38) ((openOut d).core 0).vx.outs = some (t 18) ∧
    Executes (d |> onQ 2 w) 0 2 0x29 w ∧ d.resolveSt 0 false (fun n => n = 6) (wF w.word 43 38) = .ok 18 ∧
    (d.core 0).vx.outs.length < 2 ∧ Executes (openIn d |> onQ 2 c) 0 2 0x2A c ∧ Executes (openOut d |> onQ 2 p) 0 2 0x2B p ∧
    (openOut d).canPush 0 18 = true ∧ (openOut d).tooBig 0 18 2 = false ∧ ((d |> onQ 2 q).eng 0 2).begun = false ∧
    ((openOut d |> onQ 2 p).eng 0 2).begun = false := by unfold Executes; decide

/-- A tile of FP32 that waits for the SFU, with another behind it, and an output FIFO. -/
def tileQ (op fn : Nat) : QEntry := ent 2 op (16 * 2 ^ 43 + 18 * 2 ^ 37 + fn * 2 ^ 29)
def tileDev (fn : Nat) : Dev := up |> fifo 16 3 4 0 |> fifo 18 6 7 256 |> tiles 16 2 16384 |> onQ 2 (tileQ 0x41 fn)

theorem test_hyp_SfuFunctions :
    let q := ent 2 0x40 (4 * 2 ^ 26)
    let b := ent 2 0x40 (0x1F * 2 ^ 26)
    Executes (up |> onQ 2 q) 0 2 0x40 q ∧ Dev.fnCtxVec (Dev.sfFn q) = false ∧ up.fnPlain 0 (Dev.sfFn q) = true ∧
    up.fnCompat 0 (Dev.sfFn q) = true ∧ Executes (up |> onQ 2 b) 0 2 0x40 b ∧ Dev.fnCtxVec (Dev.sfFn b) = false ∧
    up.fnPlain 0 (Dev.sfFn b) = false ∧ (up.core 0).e2.compat = false ∧ fIsNan 0x3F800000 = false ∧ f32 0x7FC00000 = .nan ∧
    Executes (tileDev 4) 0 2 0x41 (tileQ 0x41 4) ∧ Dev.fnCtxTile (Dev.stFn (tileQ 0x41 4)) = false ∧
    (tileDev 4).fnPlain 0 (Dev.stFn (tileQ 0x41 4)) = true ∧ (tileDev 4).fnCompat 0 (Dev.stFn (tileQ 0x41 4)) = true ∧
    TileRuns (tileDev 4) 0 (tileQ 0x41 4) 16 18 (.flt layFP32) := by unfold Executes TileRuns; decide

/-- The first and the last context of every softmax and normalisation operation. -/
theorem test_hyp_SoftmaxAndNormalisation :
    (∀ f ∈ [0x20, 0x23, 0x24, 0x27, 0x40, 0x43, 0x4C, 0x4F], Executes (up |> onQ 2 (ent 2 0x40 (f * 2 ^ 26))) 0 2 0x40 (ent 2 0x40 (f * 2 ^ 26)) ∧
      Dev.sfFn (ent 2 0x40 (f * 2 ^ 26)) = f) ∧
    (∀ f ∈ [0x28, 0x2B, 0x2C, 0x2F, 0x30, 0x33, 0x44, 0x47, 0x48, 0x4B, 0x50, 0x53], Executes (tileDev f) 0 2 0x41 (tileQ 0x41 f) ∧
      Dev.stFn (tileQ 0x41 f) = f ∧ TileRuns (tileDev f) 0 (tileQ 0x41 f) 16 18 (.flt layFP32)) ∧
    tabGet false 0 (((tileDev 0x48).updVx 0 fun v => { v with shiftTaken := [(0, true)] }).core 0).vx.shiftTaken = true := by
  unfold Executes TileRuns; decide

/-- Descriptors at the tile store's end, one past it, and misaligned; one-tile transfers each way. -/
theorem test_hyp_DescriptorsBeginTileTransfers :
    let x (op : Nat) (a : Word) := ent 3 op 0 a
    let dl (op st spc : Nat) (a : Word) := ent 3 op (st * 2 ^ 43 + spc * 2 ^ 31) a
    let d := up |> fifo 16 8 4 0 |> fifo 18 3 12 256
    (∀ p ∈ [(0x01, (0x7FFFC0 : Word)), (0x01, 32), (0x02, 0x7FFFC0), (0x02, 0x800000), (0x02, 32)],
      Executes (up |> onQ 3 (x p.1 p.2)) 0 3 p.1 (x p.1 p.2)) ∧
    (up.core 0).dm.job = none ∧ (up.core 0).dm.descNo = 0 ∧ (0x7FFFC0 : Word).toNat % 64 = 0 ∧ (0x7FFFC0 : Word).toNat + 64 ≤ 0x800000 ∧
    0x800000 < (0x800000 : Word).toNat + 64 ∧ (32 : Word).toNat % 64 ≠ 0 ∧
    (∀ p ∈ [(0x08, 16, 0, (0x100 : Word)), (0x09, 18, 0, 0x100), (0x08, 16, 3, 0x100), (0x09, 18, 0, 0x101)],
      Executes (d |> onQ 3 (dl p.1 p.2.1 p.2.2.1 p.2.2.2)) 0 3 p.1 (dl p.1 p.2.1 p.2.2.1 p.2.2.2)) ∧
    fmtOf (wF (dl 0x08 16 0 0x100).word 37 33) = some (.flt layFP32) ∧
    d.resolveSt 0 true (fun n => 12 ≤ n && n ≤ 15) (wF (dl 0x09 18 0 0x100).word 48 43) = .ok 18 ∧
    d.resolveSt 0 false (fun n => 8 ≤ n && n ≤ 11) (wF (dl 0x08 16 0 0x100).word 48 43) = .ok 16 ∧
    wF (dl 0x08 16 3 0x100).word 32 31 = 3 := by unfold Executes; decide

/-- One row of 64 bytes from 0 to 0x100 of the tile store. -/
def desc0 : Desc := { parseDesc (List.replicate 64 0) with op := 1, src := 0, dst := 0x100, rowlen := 64, rows := 1 }
def job0 : DmaJob := Dev.jobOf desc0 false
def withJob (j : DmaJob) (d : Dev) : Dev := d.updCore 0 fun x => { x with dm := { x.dm with job := some j } }

theorem test_hyp_TransfersAreAdmitted :
    let d := up |> withJob job0
    let bad := { desc0 with tag := 1 }
    let sv := { desc0 with op := 3, sk := 3, src := 16, dk := 0, remote := 100000 }
    let rs := { desc0 with op := 4, sk := 0, dk := 3, dst := 18 }
    let e := up |> fifo 16 8 12 0 |> fifo 18 8 4 256
    d.engReady 0 3 = true ∧ (d.core 0).dm.job = some job0 ∧ job0.checked = false ∧ job0.direct = false ∧ Dev.unusedOk desc0 = true ∧
    Dev.unusedOk bad = false ∧ desc0.csop ≠ 3 ∧ desc0.rows ≠ 0 ∧ desc0.cvt = false ∧ desc0.sk ≤ 2 ∧ desc0.dk ≤ 2 ∧ desc0.rowlen % 4 = 0 ∧
    ({ desc0 with dst := 0x101 } : Desc).dst % 4 ≠ 0 ∧
    Dev.sideBad desc0.dk desc0.dst desc0.dstride desc0.rowlen desc0.rows = none ∧ Dev.sideBad desc0.sk desc0.src desc0.sstride desc0.rowlen desc0.rows = none ∧
    (desc0.rows * desc0.rowlen + desc0.fragBytes - 1) / desc0.fragBytes ≤ 64 ∧ desc0.sten = false ∧
    Dev.unusedOk { desc0 with op := 2 } = true ∧ Dev.unusedOk sv = true ∧ fmtOf sv.fmt = some (.flt layFP32) ∧
    (min sv.remote (sv.rowlen * maxRecord sv.fmt (saveMode sv.fmt sv.nsf)) + sv.fragBytes - 1) / sv.fragBytes ≤ 64 ∧
    e.resolveSt 0 true (fun n => 12 ≤ n && n ≤ 15) (sv.src % 64) = .ok 16 ∧ Dev.unusedOk rs = true ∧
    ({ rs with rowlen := 1 }.rowlen * (Fmt.flt layFP32).tileBytes + rs.fragBytes - 1) / rs.fragBytes ≤ 64 ∧
    e.resolveSt 0 false (fun n => 8 ≤ n && n ≤ 11) (rs.dst % 64) = .ok 18 := by decide

def unit0 : DUnit := ⟨0, 0, 64, [], false, false⟩
theorem test_hyp_TransfersRun :
    let j : DmaJob := { job0 with checked := true, total := 64, drow := 64, nunits := 1 }
    let f : DmaJob := { j with inflight := List.replicate 16 unit0 }
    let u : DmaJob := { j with inflight := [unit0], next := 1 }
    let done : DmaJob := { j with next := 1, done := [(0, 64)] }
    let d (j : DmaJob) := up |> withJob j
    ((d j).core 0).dm.job = some j ∧ (d j).engReady 0 3 = true ∧ (d j).stopAsked 0 = false ∧ j.inflight.length < 16 ∧ j.next < j.nunits ∧ 16 ≤ f.inflight.length ∧
    Dev.checkPieces (d j) 0 j.desc.dk .write (Dev.dstPieces j 0 64) = none ∧ Dev.checkPieces (d j) 0 j.desc.sk .read (Dev.srcPieces j 0 64) = none ∧
    u.inflight.find? (fun u => u.idx = 0) = some unit0 ∧ (d u).valid 0 3 = false ∧ ((d u).eng 0 3).rwait = none ∧
    ((d u).eng 0 3).cow = none ∧ unit0.sent = false ∧ u.loose = false ∧ (d done).engReady 0 3 = true ∧ done.inflight = [] ∧
    done.nunits ≤ done.next ∧ done.failed = [] ∧ done.desc.sig = false := by decide

theorem test_hyp_TransfersMove :
    let u : DmaJob := { job0 with checked := true, total := 64, drow := 64, nunits := 1, inflight := [unit0], next := 1 }
    (∃ b d d', Dev.readPieces 0 0 false (Dev.srcPieces u 0 64) (up |> withJob u) = (.ok b, d) ∧
      Dev.writePieces 0 0 (Dev.dstPieces u 0 64) b d = (.ok (), d')) := ⟨_, _, _, rfl, rfl⟩

theorem test_hyp_SpillwayRowsRestoreExactly : codedLay 0 = some layFP32 ∧ (List.range 64).length = 64 ∧ ∀ x ∈ List.range 64, x < 2 ^ layFP32.width := by
  decide

/-- A context open to device 0, and a sequenced packet that it expects. -/
def ctx0 (d : Dev) : Dev := d.updCtx 0 fun x => { x with st := .opened }

theorem test_hyp_FlagUpdates :
    let y : SyF := ⟨3, 1, 2, false, 0⟩
    let z : SyF := ⟨3, 3, 2, false, 0⟩
    let q := ent 1 0x70 (2 ^ 38)
    let w := ent 1 0x72 (2 ^ 38)
    let rel := run0.updEng 0 0 fun g => { g with releasing := some ⟨3, 1, 5, none⟩ }
    let held := rel.updEng 0 0 fun g => { g with remote := [(0, 1)] }
    let noc : Dev := { up with nocFlags := [(0, 3, 1, 5)] }
    let p := pkt0 ptFLAG
    let c := ctx0 part0
    Takes run0 0 g0 ∧ y.rem = false ∧ y.sop.toNat ≤ 2 ∧ 2 < z.sop.toNat ∧ Executes (up |> onQ 1 q) 0 1 0x70 q ∧ wF q.word 32 32 = 0 ∧
    wF q.word 40 38 ≤ 2 ∧ Executes (up |> onQ 1 w) 0 1 0x72 w ∧ (rel.eng 0 0).releasing = some ⟨3, 1, 5, none⟩ ∧ (rel.eng 0 0).remote = [] ∧
    (held.eng 0 0).releasing = some ⟨3, 1, 5, none⟩ ∧ (held.eng 0 0).remote ≠ [] ∧ noc.nocFlags = (0, 3, 1, 5) :: [] ∧
    p.ptype = ptFLAG ∧ p.flg = true ∧ NextPkt c p ∧ c.deviceNo (c.ctx p.dctx).part (byteField p.payload 0 1) = some 0 := by
  unfold Takes Executes NextPkt; decide

/-- The three compares on either side, and the subtracting test at equality. -/
theorem test_hyp_FlagTests :
    let t (sop : BitVec 3) : SyF := ⟨3, sop, 2, false, 0⟩
    let d := (run0.updCore 0 fun x => x.setSr 2 5).wr (Reg.SY_FLAG_VALUE 0 3) 5
    let q := ent 1 0x71 (3 * 2 ^ 41) 0
    let w := ent 1 0x73 (3 * 2 ^ 41) 0
    let waits := d.updEng 0 1 fun g => { g with wait := some ⟨3, 0, 9⟩ }
    Takes d 0 g0 ∧ (t 0).rem = false ∧ flagTest 0 (d.flagVal 0 3) 5 = true ∧ flagTest 1 (d.flagVal 0 3) 5 = true ∧
    flagTest 2 (d.flagVal 0 3) 5 = false ∧ ((d.core 0).sr 2).toNat ≤ d.flagVal 0 3 ∧ flagTest 3 4 5 = false ∧ flagTest 0 4 5 = false ∧
    3 < (t 4).sop.toNat ∧ Executes (d |> onQ 1 q) 0 1 0x71 q ∧ Executes (d |> onQ 1 w) 0 1 0x73 w ∧ wF q.word 32 32 = 0 ∧
    flagTest (wF q.word 40 38) (d.flagVal 0 (wF q.word 48 41)) q.ra.toNat = true ∧ (waits.eng 0 1).wait = some ⟨3, 0, 9⟩ ∧
    (waits.eng 0 1).stopped = false ∧ waits.stopAsked 0 = false ∧ waits.valid 0 1 = false ∧
    (∀ k ∈ [0, 2, 3], (waits.eng 0 k).wait = none) ∧ flagTest 0 (flagOp 0 (waits.flagVal 0 3) 9) 9 = true := by
  unfold Takes Executes; decide

theorem test_hyp_HallPassesServeInOrder :
    let ours := part0.setPass 0 63 ⟨true, 0, part0.epochOf 0, false, []⟩
    let other := (code (run0.updPart 0 fun x => { x with cores := 3 })).setPass 0 63 ⟨true, 1, run0.epochOf 1, false, []⟩
    let orph := part0.setPass 0 63 ⟨true, 1, 0, true, []⟩
    let waits := (part0.setPass 0 63 ⟨false, 0, 0, false, [0]⟩).updCore 0 fun x => { x with obj := some (.hallPass 63 4) }
    let busy := part0.updEng 0 1 fun g => { g with queue := [ent 1 0 0] }
    Takes ours 0 g0 ∧ ours.partOf 0 = 0 ∧ (ours.pass 0 63).held = true ∧ ours.orphaned 0 (ours.pass 0 63) = false ∧
    (ours.pass 0 63).owner = ours.localNo 0 0 ∧ Takes part0 0 g0 ∧ (part0.pass 0 63).waiters = [] ∧ (part0.pass 0 63).held = false ∧
    Takes other 0 g0 ∧ (other.pass 0 63).held = true ∧ other.orphaned 0 (other.pass 0 63) = false ∧
    (other.pass 0 63).owner ≠ other.localNo 0 0 ∧ orph.orphaned 0 (orph.pass 0 63) = true ∧ (waits.pass 0 63).waiters = 0 :: [] ∧
    (waits.core 0).obj = some (.hallPass 63 4) ∧ (waits.pass 0 63).held = false ∧ ours.coreWideReady 0 = true ∧
    Takes busy 0 g0 ∧ busy.coreWideReady 0 = false := by unfold Takes; decide

/-- A roll call of one member, core 0, at home. -/
def roll0 : Dev := ((part0.setF (Reg.RC_CFG_EN 0 31)).setF (Reg.RC_CFG_MEMBER 0 31)).wr (Reg.RC_CFG_EXPECT 0 31) 2

theorem test_hyp_RollCalls :
    let arr := roll0.setF (Reg.RC_STAT_ARRIVED 0 31)
    let moved := arr.wr (Reg.RC_STAT_GEN 0 31) 1
    Takes part0 0 g0 ∧ part0.rcMember 0 31 = false ∧ Takes roll0 0 g0 ∧ roll0.rcMember 0 31 = true ∧ roll0.coreWideReady 0 = true ∧
    roll0.flag (Reg.RC_STAT_ARRIVED 0 31) = false ∧ arr.flag (Reg.RC_STAT_ARRIVED 0 31) = true ∧
    arr.rcGen 0 31 = tabGet 0 31 (arr.core 0).rcRec ∧ moved.rcGen 0 31 ≠ tabGet 0 31 (moved.core 0).rcRec ∧
    roll0.rcCarrier 0 31 = some 0 ∧ roll0.rd (Reg.RC_CFG_HDEV 0 31) = roll0.myDev ∧
    roll0.deviceNo 0 (roll0.rd (Reg.RC_CFG_HCORE 0 31)) = some 0 ∧
    roll0.rd (Reg.RC_STAT_COUNT 0 31) + 1 < roll0.rd (Reg.RC_CFG_EXPECT 0 31) ∧
    roll0.rd (Reg.RC_CFG_EXPECT 0 31) ≤ roll0.rd (Reg.RC_STAT_COUNT 0 31) + 2 ∧ roll0.rcHome 0 31 = true ∧ part0.rcHome 0 31 = false ∧
    NextPkt (ctx0 part0) (pkt0 ptRCARR) ∧ NextPkt (ctx0 part0) (pkt0 ptRCREL) := by unfold Takes NextPkt; decide

theorem test_hyp_Watchdogs :
    let lim := up.wr (Reg.SY_WDCFG_LIMIT 0) 1
    let w (e : Nat) := lim.updEng 0 e fun g => { g with wait := some ⟨3, 0, 9⟩ }
    let rc := (roll0.wr (Reg.RC_NET_WDLIM 0 31) 1).wr (Reg.RC_STAT_COUNT 0 31) 1
    (up.wr (Reg.SY_WDCFG_LIMIT 0) 0).rd (Reg.SY_WDCFG_LIMIT 0) = 0 ∧ lim.rd (Reg.SY_WDCFG_LIMIT 0) ≠ 0 ∧ lim.stalling 0 1 = false ∧ (w 0).stalling 0 0 = true ∧
    (w 3).stalling 0 3 = true ∧ ((w 3).eng 0 3).stopped = false ∧ (w 3).flag (Reg.SY_WDCFG_FENCE 0) = false ∧ (w 3).valid 0 3 = false ∧
    rc.rcHome 0 31 = true ∧ rc.rd (Reg.RC_NET_WDLIM 0 31) ≠ 0 ∧ rc.rd (Reg.RC_STAT_COUNT 0 31) ≠ 0 ∧
    rc.flag (Reg.RC_NET_WDFENCE 0 31) = false ∧ (rc.setF (Reg.RC_NET_WDFENCE 0 31)).flag (Reg.RC_NET_WDFENCE 0 31) = true := by decide

/-- Two different sectors, the last of the hashed space among them. -/
theorem test_hyp_HashPlacesSectorsApart : (3 * 2 ^ 38 - 32) % 32 = 0 ∧ 3 * 2 ^ 38 - 32 < 3 * 2 ^ 38 ∧ 0 % 32 = 0 := by decide

/-- Every stack ready, and extent 0 of partition 0. -/
def hbmUp : Dev := { (List.range 12).foldl (fun (d : Dev) k => d.wr (Reg.HBM_STAT_STATE k) 2) up with owner := [(0, 1)] }

theorem test_hyp_HbmReadsWritesAndAtomics :
    let bad : Dev := { hbmUp with hbmPoison := [(0, true)] }
    let q := hbmUp.updPart 0 fun x => { x with quiet := true }
    let m (k : Nat) : Dev := { hbmUp with merge := [⟨5, k, 0, none⟩] }
    hbmUp.notOwned (some 0) 0 = false ∧ hbmUp.merge.find? (fun m => m.sector = 0) = none ∧ hbmUp.stackUp (hbmUp.stackOf 0) = true ∧
    tabGet false 0 hbmUp.hbmPoison = false ∧ tabGet false 0 bad.hbmPoison = true ∧ up.notOwned none 0 = false ∧
    up.stackUp (up.stackOf 0) = false ∧ hbmUp.ownerOf 0 ≠ 2 ∧ hbmUp.ownerOf 31 = 1 ∧ hbmUp.isQuiet 0 = false ∧ q.isQuiet 0 = true ∧
    [(7 : Byte)].length ≤ 32 - 31 % 32 ∧ 24 % AtomOp.iadd.width true = 0 ∧
    (m (2 ^ 32 - 1)).merge.find? (fun m => m.sector = 5) = some ⟨5, 2 ^ 32 - 1, 0, none⟩ ∧
    (m 1).merge.find? (fun m => m.sector = 5) = some ⟨5, 1, 0, none⟩ := by decide

theorem test_hyp_StacksUpkeep :
    let d := (hbmUp.wr (Reg.HBM_THERM_THROT_T 11) 95).wr (Reg.HBM_THERM_HYST 11) 5
    let t (temp lev : Nat) := ((d.setF (Reg.HBM_STAT_THROT 11)).wr (Reg.HBM_STAT_TEMP 11) temp).wr (Reg.HBM_STAT_LEVEL 11) lev
    d.flag (Reg.HBM_STAT_THROT 11) = false ∧ d.rd (Reg.HBM_THERM_THROT_T 11) ≤ (95 : BitVec 16).toNat % 256 ∧
    (95 : BitVec 16).toNat < d.rd Reg.THM_CFG_STRIP ∧ d.rd Reg.THM_CFG_STRIP ≤ (105 : BitVec 16).toNat ∧ d.flag Reg.THM_STAT_TRIPPED = false ∧
    (94 : BitVec 16).toNat < d.rd (Reg.HBM_THERM_THROT_T 11) ∧ (t 95 1).flag (Reg.HBM_STAT_THROT 11) = true ∧
    (t 95 1).rd (Reg.HBM_THERM_THROT_T 11) ≤ (t 95 1).rd (Reg.HBM_STAT_TEMP 11) ∧
    (t 89 6).rd (Reg.HBM_STAT_TEMP 11) + (t 89 6).rd (Reg.HBM_THERM_HYST 11) < (t 89 6).rd (Reg.HBM_THERM_THROT_T 11) ∧
    (t 89 6).rd (Reg.HBM_STAT_LEVEL 11) + 1 < 8 ∧ 7 ≤ (t 89 7).rd (Reg.HBM_STAT_LEVEL 11) ∧
    (t 90 7).rd (Reg.HBM_THERM_THROT_T 11) ≤ (t 90 7).rd (Reg.HBM_STAT_TEMP 11) + (t 90 7).rd (Reg.HBM_THERM_HYST 11) := by decide

theorem test_hyp_StacksScrubTestAndRetrain :
    let run := (hbmUp.setF (Reg.SCR_STAT_RUN 0)).setScrub 0 ⟨0, 1, false, []⟩
    let loc := run.setF (Reg.SCR_CTL_LOCAL 0)
    let ended := (hbmUp.setF (Reg.SCR_STAT_RUN 0)).setScrub 0 ⟨1, 0, false, []⟩
    let abort := (hbmUp.setF (Reg.SCR_STAT_RUN 0)).setScrub 0 ⟨0, 1, true, []⟩
    let held := hbmUp.wr (Reg.PT_STAT_STATE 0) 3
    let rh (row : Nat) (l : List Nat) : Dev := { hbmUp with rehash := some ⟨0, 0, 2 ^ 25 - 1, row, l⟩ }
    let down := hbmUp.wr (Reg.HBM_STAT_STATE 0) 1
    hbmUp.flag (Reg.SCR_STAT_RUN 0) = false ∧ run.flag (Reg.SCR_STAT_RUN 0) = true ∧ (run.scrub 0).left ≠ 0 ∧ (run.scrub 0).abort = false ∧
    run.flag (Reg.SCR_CTL_LOCAL 0) = false ∧ run.stackOf ((run.scrub 0).next * 32) = 0 ∧
    tabGet false (run.scrub 0).next run.hbmPoison = false ∧ run.stackUp 0 = true ∧ loc.flag (Reg.SCR_CTL_LOCAL 0) = true ∧
    ((run.setScrub 0 ⟨1, 1, false, []⟩).stackOf (1 * 32)) ≠ 0 ∧ (ended.scrub 0).left = 0 ∧ (ended.scrub 0).abort = false ∧
    (abort.scrub 0).abort = true ∧ (3 : BitVec 4).toNat ≤ 3 ∧ 3 < (4 : BitVec 4).toNat ∧
    (hbmUp.setF (Reg.TG_STAT_RUN 0 31)).flag (Reg.TG_STAT_RUN 0 31) = true ∧ held.ptState 0 = 3 ∧ held.rehash = none ∧ hbmUp.ptState 0 ≠ 3 ∧
    (rh 0 [0]).rehash = some ⟨0, 0, 2 ^ 25 - 1, 0, [0]⟩ ∧ 0 + 1 < (0 + 1) * 256 ∧ (rh 255 [0]).rehash = some ⟨0, 0, 2 ^ 25 - 1, 255, [0]⟩ ∧
    (0 + 1) * 256 ≤ 255 + 1 ∧ 2 ^ 25 - 1 < 2 ^ 25 ∧ down.rd (Reg.HBM_STAT_STATE 0) = 1 := by decide

def lk (n : Nat) : Dev := ((up.setF Reg.RTE_ID_VALID).wr (Reg.LNK_STAT_STATE 31) n).updLink 31 fun x => { x with light := 15 }
def nbr0 : NbrId := ⟨0, 0, 15, 0⟩

theorem test_hyp_LinksFollowTheirStates :
    let on := (lk 0).setF (Reg.LNK_CTL_EN 31)
    let dark (n : Nat) := (lk n).updLink 31 fun x => { x with light := 0 }
    let exp := ((lk 2).setF (Reg.LNK_EXPECT_VALID 31)).wr (Reg.LNK_EXPECT_DEV 31) 7
    let ok := (lk 1).wr (Reg.LNK_CTL_LANEOK 31) 15
    (lk 0).lkState 31 = 0 ∧ (lk 0).flag Reg.RTE_ID_VALID = true ∧ (lk 0).domOn (16 + 31 / 8) = true ∧ ((lk 0).link 31).light ≠ 0 ∧
    on.flag (Reg.LNK_CTL_EN 31) = true ∧ (on.link 31).hold = false ∧ (dark 0).lkState 31 = 0 ∧ ((dark 0).link 31).light = 0 ∧
    ok.lkState 31 = 1 ∧ Nat.land (8 : BitVec 4).toNat (ok.rd (Reg.LNK_CTL_LANEOK 31)) ≠ 0 ∧ (lk 2).lkState 31 = 2 ∧ hdr0.bad = false ∧
    (lk 2).flag (Reg.LNK_EXPECT_VALID 31) = false ∧ exp.lkState 31 = 2 ∧ exp.flag (Reg.LNK_EXPECT_VALID 31) = true ∧
    exp.rd (Reg.LNK_EXPECT_DEV 31) ≠ nbr0.dev.toNat ∧ ((lk 2).clrF (Reg.LNK_TIMECFG_TEN 31)).flag (Reg.LNK_TIMECFG_TEN 31) = false ∧ (lk 3).lkState 31 = 3 ∧
    (lk 3).rd (Reg.LNK_NBR_DEV 31) = (0 : BitVec 20).toNat ∧ (lk 4).lkState 31 = 4 ∧ (lk 5).lkState 31 = 5 ∧ (lk 5).sameNbr 31 nbr0 = true ∧
    ((lk 5).link 31).naks + 1 < ((lk 5).wr (Reg.LNK_CTL_NAKMAX 31) 15).rd (Reg.LNK_CTL_NAKMAX 31) ∧
    (lk 5).sameNbr 31 { nbr0 with dev := 9 } = false ∧ (lk 5).flag (Reg.LNK_CTL_EN 31) = false ∧ (dark 5).lkState 31 = 5 ∧
    (dark 6).lkState 31 = 6 ∧ (lk 6).sameNbr 31 nbr0 = true ∧
    ((0 : BitVec 12).toNat + 4096 - ((lk 6).link 31).o) % 4096 ≤ (((lk 6).link 31).n + 4096 - ((lk 6).link 31).o) % 4096 := by decide

theorem test_hyp_LinkFlits :
    let d := (lk 4).wr (Reg.LNK_CTL_NAKMAX 31) 15
    let nak := d.updLink 31 fun x => { x with nakOut := true }
    let tx := (d.updVc 31 7 fun y => { y with txq := [⟨pkt0 ptWRITE, [1], none⟩], credits := 1 })
    let ten := d.setF (Reg.LNK_TIMECFG_TEN 31)
    let un := d.updLink 31 fun x => { x with n := 2, replay := [[1], [2]] }
    let time := (d.wr Reg.BL_STAT_STATE 1).updLink 31 fun x => { x with departs := [(5, 16)], arrives := [(6, 32)] }
    d.lkState 31 = 4 ∧ (d.link 31).degrade = none ∧ ((0 : BitVec 12).toNat + 4096 - (d.link 31).e) % 4096 = 0 ∧
    (nak.link 31).nakOut = true ∧ 2048 ≤ ((4095 : BitVec 12).toNat + 4096 - (d.link 31).e) % 4096 ∧
    0 < ((2047 : BitVec 12).toNat + 4096 - (d.link 31).e) % 4096 ∧ ((2047 : BitVec 12).toNat + 4096 - (d.link 31).e) % 4096 < 2048 ∧
    (d.link 31).nakOut = false ∧ (d.link 31).naks + 1 < d.rd (Reg.LNK_CTL_NAKMAX 31) ∧ tx.mayData 31 = true ∧ ((tx.link 31).vc 7).txq ≠ [] ∧
    ((tx.link 31).vc 7).credits ≠ 0 ∧ (tx.link 31).replay.length < 1024 ∧ ((tx.link 31).n + 4096 - (tx.link 31).o) % 4096 + 1 ≤ 2047 ∧
    un.lkState 31 = 4 ∧ ((1 : BitVec 12).toNat + 4096 - (un.link 31).o) % 4096 < ((un.link 31).n + 4096 - (un.link 31).o) % 4096 ∧
    d.flag (Reg.LNK_STAT_NQUIET 31) = hdr0.q ∧ d.devQuiet = false ∧ hdr0.av = false ∧ hdr0.crn = 0 ∧
    ((un.link 31).n + 4096 - (un.link 31).o) % 4096 < ((3 : BitVec 12).toNat + 4096 - (un.link 31).o) % 4096 ∧
    (lk 4).rd (Reg.LNK_CTL_NAKMAX 31) ≤ 15 ∧ ((d.wr (Reg.LNK_CTL_NAKMAX 31) 1).rd (Reg.LNK_CTL_NAKMAX 31)) ≤ (nak.link 31).naks + 1 ∧
    (∀ u ∈ List.range 8, ((d.link 31).vc u).creditIn < 2 ^ 16) ∧ (d.clrF (Reg.LNK_TIMECFG_TEN 31)).flag (Reg.LNK_TIMECFG_TEN 31) = false ∧
    ten.flag (Reg.LNK_TIMECFG_TEN 31) = true ∧ (time.link 31).departs.lookup 5 = some 16 ∧ (time.link 31).arrives.lookup 6 = some 32 ∧
    time.blState = 1 ∧ ((16 : Word) - BitVec.ofNat 64 16).toInt + (BitVec.ofNat 64 32 - (32 : Word)).toInt = 0 := by decide

theorem test_hyp_LinkLanes :
    let rx (m : Nat) := (lk 4).wr (Reg.LNK_STAT_RXLANES 31) m
    let tr := ((rx 7).wr (Reg.LNK_CTL_LANEOK 31) 15).updLink 31 fun x => { x with trying := 8 }
    let deg := (rx 15).updLink 31 fun x => { x with degrade := some 7 }
    (rx 15).lkState 31 = 4 ∧ bit ((rx 15).rd (Reg.LNK_STAT_RXLANES 31)) 3 = true ∧ setBit ((rx 15).rd (Reg.LNK_STAT_RXLANES 31)) 3 false ≠ 0 ∧
    setBit ((rx 8).rd (Reg.LNK_STAT_RXLANES 31)) 3 false = 0 ∧ (lk 4).rd (Reg.LNK_STAT_TXLANES 31) ≠ (7 : BitVec 4).toNat ∧
    (deg.link 31).degrade = some (7 : BitVec 4).toNat ∧ ((lk 4).setF (Reg.LNK_CTL_AUTORD 31)).flag (Reg.LNK_CTL_AUTORD 31) = true ∧
    bit (tr.link 31).trying 3 = true ∧ bit (tr.rd (Reg.LNK_CTL_LANEOK 31)) 3 = true := by decide

theorem test_hyp_FeedSwitch :
    let to0 := up.wr Reg.LAS_FEED_FEED 0
    let on := to0.wr (Reg.LAS_SLOT_STATE (feedCart 7 1 1)) 4
    on.feed 7 1 = 0 ∧ on.slState (feedCart 7 1 1) = 4 ∧ up.feed 7 1 = 2 ∧ to0.feed 7 1 < 2 ∧ to0.cartHealthy (feedCart 7 1 0) = false := by decide

theorem test_hyp_Packets :
    let p := { pkt0 ptWRITE with ddev := 1 }
    let inj (q : Pkt) (d : Dev) : Dev := { d with inject := [q] }
    let out := ((up.wr (Reg.LNK_STAT_STATE 0) 4).clrF Reg.RTE_CTL_ADAPT)
    let rx := up.updVc 31 7 fun y => { y with rxq := [(pkt0 ptWRITE, 1)] }
    let tx := up.updVc 31 7 fun y => { y with txq := [⟨p, p.bytes, none⟩] }
    up.inject[0]? = none ∧ (inj (pkt0 ptWRITE) up).inject[0]? = some (pkt0 ptWRITE) ∧ (inj (pkt0 ptWRITE) up).taken (pkt0 ptWRITE) = true ∧
    (pkt0 ptWRITE).ddev = up.myDev ∧ ((rx.link 31).vc 7).rxq = (pkt0 ptWRITE, 1) :: [] ∧ rx.devQuiet = false ∧
    (inj p out).inject[0]? = some p ∧ (inj p out).taken p = true ∧ p.ddev ≠ out.myDev ∧ p.nm = false ∧ p.path = 0 ∧
    out.flag Reg.RTE_CTL_ADAPT = false ∧ out.pathOutputs 0 (out.candidates (idPod p.ddev) (idGrp p.ddev) (idL p.ddev)) = [⟨0, false⟩] ∧
    up.pathOutputs 0 (up.candidates (idPod p.ddev) (idGrp p.ddev) (idL p.ddev)) = [] ∧ ((up.link 31).vc 7).txq = [] ∧
    ((tx.link 31).vc 7).txq = ⟨p, p.bytes, none⟩ :: [] := by decide

theorem test_hyp_Reshapes :
    let bell := (up.wr Reg.BL_STAT_STATE 1).wr Reg.RTE_SWAPAT_T 10
    let free := up.wr Reg.BL_STAT_STATE 4
    let armed (d : Dev) := d.setF Reg.RTE_RESHAPE_ARMED
    let tel := (up.setF Reg.RTE_TELCFG_EN).wr Reg.RTE_TELCFG_RINGLOG 0
    bell.now < bell.rd Reg.RTE_SWAPAT_T ∧ { bell with now := 10 }.rd Reg.RTE_SWAPAT_T ≤ { bell with now := 10 }.now ∧
    bell.blState ≠ 0 ∧ bell.blState ≠ 4 ∧ bell.devQuiet = false ∧ bell.rd Reg.RTE_CTL_BANK ≤ 1 ∧ (armed bell).flag Reg.RTE_RESHAPE_ARMED = true ∧
    (armed bell).blState ≠ 2 ∧ bell.flag Reg.RTE_RESHAPE_ARMED = false ∧ (armed free).blState = 4 ∧
    bit (((armed bell).wr Reg.RTE_RESHAPE_LINKS (2 ^ 31)).rd Reg.RTE_RESHAPE_LINKS) 31 = true ∧ up.flag Reg.RTE_TELCFG_EN = false ∧
    tel.flag Reg.RTE_TELCFG_EN = true ∧ (tel.rd Reg.RTE_TELPTR_TAIL + 1) % 2 ^ tel.rd Reg.RTE_TELCFG_RINGLOG =
      tel.rd Reg.RTE_TELPTR_HEAD % 2 ^ tel.rd Reg.RTE_TELCFG_RINGLOG := by decide

/-- Packets at, below and far beyond what the context expects; a closed context; a load's answer; a held packet. -/
theorem test_hyp_StreamPackets :
    let q (t : Nat) := { pkt0 t with flg := false }
    let c := ctx0 up
    let at5 := c.updCtx 0 fun x => { x with b := 5 }
    let ld := c.updCtx 0 fun x => { x with ops := [⟨0, 0, .load 0 0, 0, 0⟩] }
    let held := at5.updCtx 0 fun x => { x with held := [pkt0 ptWRITE] }
    NextPkt c (q ptWRITE) ∧ (q ptWRITE).flg = false ∧ (c.ctx 0).sinceAck < 31 ∧ c.pktHeld (q ptWRITE) = false ∧ NextPkt c (q ptREAD) ∧
    NextPkt c (q ptENGINE) ∧ NextPkt c (pkt0 ptPOISON) ∧ (up.ctx 0).st ≠ .opened ∧ (c.ctx 0).st = .opened ∧ (q ptWRITE).sdev = (c.ctx 0).fdev ∧
    2 ^ 31 ≤ Dev.seqDist (at5.ctx 0).b (q ptWRITE).seq ∧ 256 ≤ Dev.seqDist (c.ctx 0).b 256 ∧ Dev.seqDist (c.ctx 0).b (2 ^ 31 - 1) < 2 ^ 31 ∧
    (ld.ctx 0).ops = [⟨0, 0, .load 0 0, 0, 0⟩] ∧ c.pastDeadline (q ptRDATA).deadline = false ∧ (held.ctx 0).held = [pkt0 ptWRITE] ∧
    Dev.below (held.ctx 0).b (pkt0 ptWRITE).seq = true ∧ (c.ctx 0).held = [] := by unfold NextPkt; decide

theorem test_hyp_StreamPacketsAccess : (∃ d, (pktTaken (pkt0 ptWRITE) (ctx0 up)).vaWrite 0 none 0 [] = (.ok (), d)) ∧
    ∃ b d, (pktTaken (pkt0 ptREAD) (ctx0 up)).vaRead 0 none 0 0 = (.ok b, d) := ⟨⟨_, rfl⟩, _, _, rfl⟩

theorem test_hyp_StreamsOpenAcknowledgeAndFail :
    let c := ctx0 up
    let sent := c.updCtx 0 fun x => { x with n := 1, unacked := [pkt0 ptWRITE] }
    let op := sent.updCtx 0 fun x => { x with ops := [⟨0, 0, .store 143 3, 0, 0⟩] }
    let opening := up.updCtx 0 fun x => { x with st := .opening, syncAck := true }
    let failed := up.updCtx 0 fun x => { x with st := .failed }
    let ack := { pkt0 ptACK with payload := leBytes 8 1 ++ leBytes 8 0 }
    (c.ctx 0).st = .opened ∧ ack.sdev = (c.ctx 0).fdev ∧ (c.ctx 0).gcm = false ∧ (sent.ctx 0).ops = [] ∧
    Dev.seqDist (sent.ctx 0).o (byteField ack.payload 0 4) ≤ Dev.seqDist (sent.ctx 0).o (sent.ctx 0).n ∧
    (op.ctx 0).ops = [⟨0, 0, .store 143 3, 0, 0⟩] ∧ byteField ack.payload 8 8 = 0 ∧
    Dev.seqDist (op.ctx 0).o 0 < Dev.seqDist (op.ctx 0).o (byteField ack.payload 0 4) ∧ (opening.ctx 0).st = .opening ∧
    (opening.ctx 0).syncAck = true ∧ (opening.ctx 0).failedFrags = [] ∧ (up.ctx 0).st = .closed ∧
    ((c.updCtx 0 fun x => { x with sinceAck := 1 }).ctx 0).sinceAck ≠ 0 ∧ (c.ctx 0).sinceAck = 0 ∧ (sent.failTimes 0).length = 1 ∧ c.failTimes 0 = [] ∧
    (c.ctx 0).partial_ = [] ∧ ((c.updCtx 0 fun x => { x with closing := true }).ctx 0).closing = true ∧ (c.ctx 0).o = (c.ctx 0).n ∧
    (sent.ctx 0).o ≠ (sent.ctx 0).n ∧ (failed.ctx 0).st = .failed ∧ (failed.ctx 0).syncIn = false := by decide

/-- A packet, a chunk and a ferry header with every field at its width's last value. -/
theorem test_hyp_PacketsReadBack :
    let p : Pkt := ⟨10, true, 3, true, 3, 2 ^ 20 - 1, 2 ^ 20 - 1, 2 ^ 17 - 1, 2 ^ 32 - 1, 2 ^ 32 - 1, 2 ^ 32 - 1, 2 ^ 14 - 1, 2 ^ 48 - 1, 2 ^ 48 - 1, 255, [1]⟩
    1 ≤ p.ptype ∧ p.ptype ≤ 10 ∧ p.path < 4 ∧ p.phase < 4 ∧ p.ddev < 2 ^ 20 ∧ p.sdev < 2 ^ 20 ∧ p.dctx < 2 ^ 17 ∧ p.seq < 2 ^ 32 ∧
    p.opend < 2 ^ 32 ∧ p.deadline < 2 ^ 32 ∧ p.inter < 2 ^ 14 ∧ p.addr < 2 ^ 48 ∧ p.frbase < 2 ^ 48 ∧ p.frlog < 256 ∧ p.payload.length ≤ 4096 := by
  decide

theorem test_hyp_FerryHeadersReadBack :
    let h : FryHdr := {
      mtype := 255, job := 255, queue := 255, k := 255, gen := 2 ^ 32 - 1, t := 2 ^ 32 - 1, dev := 2 ^ 24 - 1, code := 255,
      rowb := 2 ^ 16 - 1, rrowb := 2 ^ 16 - 1, batch := 2 ^ 32 - 1, rows := 2 ^ 32 - 1, off := 2 ^ 32 - 1 }
    h.mtype < 256 ∧ h.job < 256 ∧ h.queue < 256 ∧ h.k < 256 ∧ h.gen < 2 ^ 32 ∧ h.t < 2 ^ 32 ∧ h.dev < 2 ^ 24 ∧ h.code < 256 ∧ h.rowb < 2 ^ 16 ∧
    h.rrowb < 2 ^ 16 ∧ h.batch < 2 ^ 32 ∧ h.rows < 2 ^ 32 ∧ h.off < 2 ^ 32 := by decide

theorem test_hyp_ChunksReadBack :
    let c : CfChunk := {
      level := 3, ph := 1, byp := true, close := true, ring := 255, a := 255, bid := 2 ^ 32 - 1, gen := 2 ^ 32 - 1,
      step := 2 ^ 32 - 1, pos := 2 ^ 20 - 1, count := 2 ^ 32 - 1, kind := 15, arith := 3, elem := 2 ^ 64 - 1,
      meta_ := ⟨true, true, 2 ^ 32 - 1, 2 ^ 32 - 1, 2 ^ 32 - 1, 2 ^ 32 - 1, 2 ^ 20 - 1⟩, vals := [2 ^ 32 - 1] }
    c.level < 4 ∧ c.ph < 2 ∧ c.ring < 256 ∧ c.a < 256 ∧ c.bid < 2 ^ 32 ∧
    c.gen < 2 ^ 32 ∧ c.step < 2 ^ 32 ∧ c.pos < 2 ^ 20 ∧ c.count < 2 ^ 32 ∧ c.kind < 16 ∧ c.arith < 4 ∧ c.elem < 2 ^ 64 ∧
    c.meta_.wcount < 2 ^ 32 ∧ c.meta_.wfirst < 2 ^ 20 ∧ c.meta_.flush < 2 ^ 32 ∧ c.meta_.wovf < 2 ^ 32 ∧ c.meta_.nan < 2 ^ 32 ∧
    ∀ v ∈ c.vals, v.toNat < 2 ^ (8 * 4) := by simp

/-- Slot 63 of partition 0 with a descriptor, in a state; a message of its generation from context 0. -/
def cfD (kind a : Nat) : CfDesc := { cfDescOf (List.replicate 128 0) with kind := kind, anchor := a }
def cfDev (st kind a : Nat) : Dev :=
  (((ctx0 up).setF (Reg.CF_SLOT_V 1 31)).wr (Reg.CF_SLOT_STATE 1 31) st).updCf 63 fun y => { y with desc := some (cfD kind a) }

theorem test_hyp_Collectives :
    let m (t : Nat) : List Byte := leBytes 1 t ++ List.replicate 63 0
    let d := cfDev 2 1 0
    let hop := (d.wr (Reg.CF_TIME_HOPTMO 1) 1).wr (Reg.CF_SLOTWAIT_WAITMAX 1 31) 1
    (cfDev 1 1 0).cfSt 63 = 1 ∧ (cfDev 1 1 0).cfHeld 63 (cfD 1 0) = false ∧ (cfDev 1 1 0).paused ((cfDev 1 1 0).cfPart 63) = false ∧
    (cfD 1 0).rel = false ∧ (cfD 1 0).lsb = false ∧ ((cfDev 1 1 0).cfSlot 63).desc = some (cfD 1 0) ∧ Dev.s8 (cfD 1 0x81).anchor < -126 ∧
    -126 ≤ Dev.s8 (cfD 1 0x82).anchor ∧ ((cfDev 0 1 0).cfSt 63 ≠ 1) ∧ (∀ t ∈ [1, 2, 3, 4, 5], byteField (m t) 0 1 = t ∧
      d.cfFind 0 (byteField (m t) 4 4) = some 63 ∧ byteField (m t) 8 4 = d.cfGen 63) ∧ d.paused (d.ctx 0).part = false ∧ d.cfSt 63 = 2 ∧
    (cfParse 8 ((m 3).take 64)).pos = d.cfPos 1 (cfD 1 0).plan (cfParse 8 ((m 3).take 64)).level (cfParse 8 ((m 3).take 64)).ring ∧
    (cfParse 8 ((m 3).take 64)).pos ≠ (d.wr (Reg.CF_RINGB_POS 1 0 0 0) 1).cfPos 1 (cfD 1 0).plan (cfParse 8 ((m 3).take 64)).level (cfParse 8 ((m 3).take 64)).ring ∧
    (hop.cfSlot 63).ready.contains ((hop.cfSlot 63).level, 0) = false ∧ hop.rd (Reg.CF_TIME_HOPTMO 1) ≠ 0 ∧ hop.rd (Reg.CF_TIME_HOPTMO 1) ≤ hop.rd (Reg.CF_SLOTWAIT_WAITMAX 1 31) ∧
    (d.wr (Reg.CF_TIME_HOPTMO 1) 0).rd (Reg.CF_TIME_HOPTMO 1) = 0 ∧ (d.wr (Reg.CF_TIME_CWD 1) 1).rd (Reg.CF_TIME_CWD 1) ≠ 0 ∧
    (d.wr (Reg.CF_TIME_CWD 1) 0).rd (Reg.CF_TIME_CWD 1) = 0 := by decide

def fryD : FryDesc := { fryDescOf (List.replicate 128 0) with k := 1, rrowb := 1, rowb := 1 }
/-- Job 63 in a state with a descriptor; queue 0 valid for partition 0 with an open batch. -/
def fryDev (st : Nat) : Dev :=
  (((((ctx0 up).wr (Reg.FRY_JOB_STATE 63) st).updFry 63 fun y => { y with desc := some fryD }).setF (Reg.FRY_EQA_V 0)).updFryQ 0
    fun q => { q with open_ := [⟨0, 1, 1, false, []⟩] })

theorem test_hyp_FerryJobs :
    let m (t rows : Nat) : List Byte := FryHdr.bytes { FryHdr.parse (List.replicate 64 0) with mtype := t, job := 63, rows := rows }
    let d := fryDev 2
    let z := (List.range (fryD.count * fryD.k)).foldl (Dev.fryWalk 63 fryD) ([], false, (fryDev 1).wr (Reg.FRY_JOB_STATE 63) 2)
    let ret := ((d.updPart 0 fun x => { x with cores := 1 }).updFryQ 0 fun q => { q with closed := [(0, 1)] }).wr (Reg.SY_FLAG_VALUE 0 0) 1
    let sent := d.setFrySlot 63 0 (.sent 1 0)
    (fryDev 0).frySt 63 ≠ 1 ∧ ((fryDev 1).fryJob 63).desc = some fryD ∧ (fryDev 1).frySt 63 = 1 ∧ (fryDev 1).fryHeld 63 fryD = false ∧
    (fryDev 1).paused ((fryDev 1).fryPart 63) = false ∧ z.2.1 = false ∧
    (∀ t ∈ [0x11, 0x12, 0x13, 0x14, 0x15], byteField (m t 1) 0 1 = t) ∧ d.paused (d.fryFar 0) = false ∧ d.fryCode 0 (FryHdr.parse (m 0x11 1)) = 0 ∧
    up.fryCode 0 (FryHdr.parse (m 0x11 1)) ≠ 0 ∧ (FryHdr.parse (m 0x12 0)).rows = 0 ∧ (FryHdr.parse (m 0x12 1)).rows ≠ 0 ∧
    d.frySt (FryHdr.parse (m 0x12 1)).job = 2 ∧ (FryHdr.parse (m 0x12 1)).gen = d.fryGen 63 ∧ d.fryPart 63 = d.fryFar 0 ∧
    (fryDev 0).frySt (FryHdr.parse (m 0x12 1)).job ≠ 2 ∧ (d.fryQ 0).open_.find? (fun (y : FryBatch) => decide (y.no = 0)) = some ⟨0, 1, 1, false, []⟩ ∧
    d.fryRB 0 ≤ ((m 0x13 1 ++ List.replicate 64 0).drop 64).length ∧ (up.fryQ 0).open_ = [] ∧ (up.fryQ 0).closed = [] ∧
    (ret.fryQ 0).closed = (0, 1) :: [] ∧ ret.deviceNo (ret.rd (Reg.FRY_EQA_PART 0)) (ret.rd (Reg.FRY_EQA_NCORE 0)) = some 0 ∧
    (ret.flagVal 0 (ret.rd (Reg.FRY_EQA_RFLAG 0)) + 2 ^ 64 - (ret.fryQ 0).seen) % 2 ^ 64 ≠ 0 ∧
    sent.frySlotOf 63 (fryD.k * 0 + 0) = .sent (Dev.fryDest 0) 0 ∧ (d.wr Reg.FRY_BDL_JWD 1).rd Reg.FRY_BDL_JWD ≠ 0 ∧
    (d.wr Reg.FRY_BDL_JWD 0).rd Reg.FRY_BDL_JWD = 0 ∧ 4 < [0, 5].sum ∧ (0 : Nat) < 1 := by decide

/-- A frame's 96 symbols for T: the mark, T, its check, and fifteen zeros. -/
def frameSyms (t : Nat) : List Nat :=
  let body := (List.range 64).map fun i => t / 2 ^ (63 - i) % 2
  2 :: body ++ ((List.range 16).map fun i => crc16 body / 2 ^ (15 - i) % 2) ++ List.replicate 15 0

set_option maxRecDepth 20000 in
theorem test_hyp_Bell :
    let b (n : Nat) := up.wr Reg.BL_STAT_STATE n
    let src (d : Dev) := (d.setF Reg.BL_CTL_EN).wr Reg.BL_CTL_SRCSEL 0
    let fr (n t0 : Nat) : Dev := { src (b n) with bell := { (b n).bell with syms := frameSyms 384000, prevT := some 0 }, now := t0 }
    let bad : Dev := { b 1 with bell := { (b 1).bell with syms := List.replicate 96 2 } }
    let miss : Dev := { b 1 with bell := { (b 1).bell with missing := 3 } }
    let cand := ((((b 2).wr Reg.BL_SRC_CAND 0x21).wr (Reg.LNK_STAT_STATE 1) 4).updLink 1 fun x =>
      { x with nbState := 1, nbDepth := 14, lastEx := some 0 }).wr (Reg.LNK_TIME_OFFSET 1) 0
    (b 0).blState ≠ 1 ∧ (b 1).blState = 1 ∧ (b 1).edgeErr.natAbs ≤ 3200 ∧ 3200 < ({ b 1 with now := 1000 } : Dev).edgeErr.natAbs ∧
    (b 1).bell.syms.length < 96 ∧ 96 ≤ bad.bell.syms.length ∧ frameOf (bad.bell.syms.take 96) = none ∧
    frameOf ((fr 0 0).bell.syms.take 96) = some 384000 ∧ (fr 0 0).bell.prevT = some (384000 - 384000) ∧ (fr 0 0).flag Reg.BL_CTL_EN = true ∧
    (fr 0 0).rd Reg.BL_CTL_SRCSEL = 0 ∧ (fr 0 0).blState = 0 ∧ (0 : Int) ≤ 16 * 384000 + (fr 0 0).refDly - 16 * ((0 + 0 : Nat) : Int) ∧
    (16 * 384000 + (fr 3 384000).refDly - 16 * ((384000 + 0 : Nat) : Int)).natAbs ≤ slewMax16 ∧
    slewMax16 < (16 * 384000 + (fr 4 0).refDly - 16 * ((0 + 0 : Nat) : Int)).natAbs ∧ 4 ≤ miss.bell.missing + 1 ∧
    ((b 1).clrF Reg.BL_CTL_FALLBK).flag Reg.BL_CTL_FALLBK = false ∧ (b 2).blState = 2 ∧ (b 2).blCands = [] ∧
    cand.blCands.find? (fun l => cand.lkUsableErr l && !([cand.rd Reg.BL_STAT_SRCLINK].contains l)) = some 1 ∧ (b 3).blState = 3 ∧
    (fr 3 0).refErr = some 0 := by decide

theorem test_hyp_TimetableAndLossScale :
    let on := (up.setF (Reg.TT_ACT_EN 7 255)).wr Reg.BL_STAT_STATE 1
    let ls := up.setF (Reg.LS_CFG_EN 7)
    ¬ up.flag (Reg.TT_ACT_EN 7 255) = true ∧ on.flag (Reg.TT_ACT_EN 7 255) = true ∧ (on.advanceTo 0).ttCanFire 7 = true ∧
    on.now ≤ on.rd (Reg.TT_TIME_TIME 7 255) ∧ tabGet 0 255 (on.part 7).ttMiss ≠ 0 + 1 ∧ (up.updPart 7 fun x => { x with quiet := true }).ttCanFire 7 = false ∧
    up.paused 7 = false ∧ (up.wr (Reg.TT_ACT_ACT 7 255) 5).rd (Reg.TT_ACT_ACT 7 255) = 5 ∧ up.rd (Reg.TT_ACT_PER 7 255) = 0 ∧
    (up.wr (Reg.TT_ACT_PER 7 255) 1).rd (Reg.TT_ACT_PER 7 255) ≠ 0 ∧ up.rd (Reg.TT_ACT_REP 7 255) = 0 ∧
    ¬ up.flag (Reg.LS_STAT_CLOSING 7) = true ∧ (up.setF (Reg.LS_STAT_CLOSING 7)).flag (Reg.LS_STAT_CLOSING 7) = true ∧
    ls.flag (Reg.LS_CFG_EN 7) = true ∧ ls.flag (Reg.LS_MIRROR_EN 7) = false ∧ up.flag (Reg.LS_CFG_EN 7) = false ∧
    ls.flag (Reg.LS_STAT_OVF_LOCAL 7) = false ∧ (ls.setF (Reg.LS_STAT_OVF_LOCAL 7)).flag (Reg.LS_STAT_OVF_LOCAL 7) = true ∧
    ls.rd (Reg.LS_STAT_CLEAN 7) + 1 < (ls.wr (Reg.LS_CFG_N 7) 2).rd (Reg.LS_CFG_N 7) ∧
    (ls.wr (Reg.LS_CFG_N 7) 1).rd (Reg.LS_CFG_N 7) ≤ ls.rd (Reg.LS_STAT_CLEAN 7) + 1 ∧ (1 : BitVec 16) ≠ 0 ∧ -32 ≤ Dev.s8 (0xE0 : BitVec 8).toNat ∧
    Dev.s8 (0xE0 : BitVec 8).toNat ≤ Dev.s8 (48 : BitVec 8).toNat ∧ Dev.s8 (48 : BitVec 8).toNat ≤ 48 := by decide

/-- HBM in service with a translation of partition 0: both stages map the first GiB to itself. -/
def mapped : Dev := { hbmUp with hbm := [(0, 0x1F)] }

/-- Ring 0 of partition 0 has an entry declared at address 64 * b, and a journal slot is free. -/
def ring0 (b : Nat) : Dev :=
  (((((mapped.setF (Reg.RING_CFG_EN 0 0)).setF Reg.JNL_CTL_EN).wr (Reg.PT_STAT_STATE 0) 1).wr (Reg.JNL_PSIZE_SLOTS 0) 1).wr
    (Reg.RING_BASE_BASE 0 0) b).setRing 0 0 { (r0.ring 0 0) with d := 1 }

set_option maxRecDepth 40000 in
theorem test_hyp_RingsAcceptInOrder :
    let d := ring0 1
    let odd := { ring0 1 with hbm := [(0, 0x1F), (72, 5)] }
    (r0.ring 0 0).d ≤ 1 ∧ 1 ≤ r0.ringAcc 0 0 + r0.ringSize 0 0 ∧ 0 < (d.ring 0 0).d ∧ r0.ringAcc 0 0 + r0.ringSize 0 0 < 2 ^ 40 ∧
    d.acceptSlot 0 0 = some 0 ∧ r0.acceptSlot 7 63 = none ∧ d.rrNext = 64 * 0 + 0 ∧ d.hostHeld 0 64 64 = false ∧
    (d.intakeRead 0 64 64).1 = some (List.replicate 64 0) ∧ (cmdEnt (List.replicate 64 0)).seq = d.ringAcc 0 0 ∧
    (cmdEnt (List.replicate 64 0)).bad (d.coresOf 0).length = false ∧ (cmdEnt (List.replicate 64 0)).op = 0 ∧
    (cmdEnt (List.replicate 64 0)).nout = 0 ∧ (ring0 0).acceptSlot 0 0 = some 0 ∧ (ring0 0).hostHeld 0 0 64 = false ∧
    ((ring0 0).intakeRead 0 0 64).1.map (fun b => (cmdEnt b).seq) = some 0x1F ∧ (ring0 0).ringAcc 0 0 ≠ 0x1F ∧
    odd.acceptSlot 0 0 = some 0 ∧ (odd.intakeRead 0 64 64).1.map (fun b => ((cmdEnt b).seq, (cmdEnt b).bad 0)) = some (0, true) ∧
    (ring0 (2 ^ 24)).acceptSlot 0 0 = some 0 ∧ ((ring0 (2 ^ 24)).intakeRead 0 (2 ^ 30) 64).1 = none ∧ (ring0 (2 ^ 24)).hostHeld 0 (2 ^ 30) 64 = false ∧
    (d.ring 0 0).enReq = false ∧ d.flag (Reg.RING_CFG_EN 0 0) = true ∧ r0.flag (Reg.RING_CFG_EN 0 0) = false ∧
    (r0.wr (Reg.RING_ACC_ACC 0 0) 1).ringAcc 0 0 ≠ (r0.wr (Reg.RING_ACC_ACC 0 0) 1).ringDone 0 0 ∧ r0.ringAcc 0 0 = r0.ringDone 0 0 := by
  decide

/-- Journal slot 0 of partition 0, in a state, with a command of an operation; core 0 is the partition's. -/
def cmd0 (st : JState) (op : Nat) : Dev :=
  (((mapped.wr (Reg.PT_STAT_STATE 0) 1).updPart 0 fun x => { x with cores := 1 }).setJr 0
    { JRec.reset with st := st, entry := List.replicate 8 0 ++ leBytes 1 op ++ List.replicate 4 0 ++ leBytes 1 1 ++ List.replicate 50 0 })
def jrW (f : JRec → JRec) (d : Dev) : Dev := d.setJr 0 (f (d.jr 0))

set_option maxRecDepth 40000 in
theorem test_hyp_CommandsRunOnShadows :
    let a := cmd0 .accepted
    let r := cmd0 .running 0
    let ok (d : Dev) : Bool := d.startOk 0 0 && !(d.flag (Reg.PD_STEP_EN 0)) && decide ((d.jr 0).step = 0)
    let ended (d : Dev) : Bool := decide ((d.jr 0).st = .running ∧ d.isQuiet 0 = false ∧ d.ptState 0 = 1 ∧ d.flag (Reg.PD_STEP_EN 0) = false ∧
      (d.jr 0).step = 0 ∧ (d.jr 0).parts = [])
    let stepped := (a 0).setF (Reg.PD_STEP_EN 0)
    let again := (r.wr (Reg.JNL_PCFG_REPLAYMAX 0) 1)
    let waits := (jrW (fun x => { x with entry := List.replicate 8 0 ++ leBytes 1 4 ++ List.replicate 15 0 ++ leBytes 1 1 ++ List.replicate 39 0 }) (a 4))
    let rep := jrW (fun x => { x with rptDone := true }) (cmd0 .reporting 0)
    let sh (b : Bool) (o : List (Nat × Nat)) : Shadow := ⟨0, 5, 2 ^ 22 + 3, 1, 0, o, true, b, false⟩
    let cow (b : Bool) := (r.updPart 0 fun x => { x with shadows := [sh b [(0, 32)]] })
    (r0.startOk 0 0 = false) ∧ (jrW (fun x => { x with step := 1 }) (a 0)).startOk 0 0 = true ∧ ok (a 0) = true ∧
    stepped.startOk 0 0 = true ∧ stepped.flag (Reg.PD_STEP_EN 0) = true ∧ (stepped.jr 0).step = 0 ∧ (cmdEnt ((a 1).jr 0).entry).op = 1 ∧
    (cmdEnt ((a 0).jr 0).entry).op = 0 ∧ ((a 0).jr 0).replay = false ∧ ok (jrW (fun x => { x with replay := true }) (a 0)) = true ∧ ok (a 1) = true ∧
    (a 1).namedCores 0 ((a 1).jr 0) = [0] ∧ ok (a 2) = true ∧ (cmdEnt ((a 2).jr 0).entry).op = 2 ∧ ok (a 3) = true ∧ (cmdEnt ((a 3).jr 0).entry).op = 3 ∧
    ok waits = true ∧ waits.ringDone 0 (cmdEnt (waits.jr 0).entry).pc < (cmdEnt (waits.jr 0).entry).args ∧ ok (a 4) = true ∧
    (cmdEnt ((a 4).jr 0).entry).args ≤ (a 4).ringDone 0 (cmdEnt ((a 4).jr 0).entry).pc ∧ ((a 0).jr 0).st ≠ .running ∧
    ended r = true ∧ (r.jr 0).outcome = none ∧ (r.jr 0).marked = false ∧ r.namedCores 0 (r.jr 0) = [] ∧
    ended (jrW (fun x => { x with marked := true }) again) = true ∧ again.replayable 0 (again.jr 0) = true ∧ (r.wr (Reg.JNL_PCFG_REPLAYMAX 0) 0).replayable 0 (r.jr 0) = false ∧
    ended (jrW (fun x => { x with outcome := some (3, 4, 0) }) r) = true ∧ ((a 0).jr 0).st ≠ .committing ∧ ((cmd0 .committing 0).jr 0).st = .committing ∧
    (r.recsOf 0).find? (fun e => e.2.ring = 0 && e.2.seq = r.ringDone 0 0 && e.2.st = .reporting) = none ∧
    (rep.recsOf 0).find? (fun e => e.2.ring = 0 && e.2.seq = rep.ringDone 0 0 && e.2.st = .reporting) = some (0, rep.jr 0) ∧
    rep.canReport 0 0 = true ∧ (rep.ring 0 0).rej = [] ∧ (rep.ring 0 0).enReq = false ∧ r0.recsOf 0 = [] ∧ r0.isQuiet 0 = false ∧
    ((a 0).recsOf 0).filter (fun e => e.2.ring = 0) = [(0, (a 0).jr 0)] ∧ (r.part 0).shadows = [] ∧
    ((cow false).part 0).shadows.find? (fun x => x.slot = 0 && x.va = 5 && x.copying && !x.filled) = some (sh false [(0, 32)]) ∧ (cow false).isQuiet 0 = false ∧
    ((cow false).updPart 0 fun x => { x with quiet := true }).isQuiet 0 = true ∧
    Dev.leafPage (sh false []).leaf ≠ (sh false []).shadow ∧ tabWf 0 (cow false).hbm = true ∧
    ((cow true).part 0).shadows.any (fun x => x.slot = 0 && x.va = 5 && x.copying && x.filled) = true ∧ r0.flag Reg.JNL_STAT_REMIRROR = false ∧
    (r0.setF Reg.JNL_STAT_REMIRROR).flag Reg.JNL_STAT_REMIRROR = true ∧ tabWf JRec.reset (r0.setJr 0 { JRec.reset with copies := [(0, 0)] }).jrec = true ∧
    ((r0.setJr 0 { JRec.reset with copies := [(0, 0)] }).jr 0).copies.length = 1 := by
  decide

def ptAt (st : Nat) : Dev := up.wr (Reg.PT_STAT_STATE 7) st

set_option maxRecDepth 40000 in
theorem test_hyp_PartitionsFollowTheirStates :
    let key (d : Dev) : Dev := d.updPart 7 fun x => { x with hkey := some 5 }
    let z : Dev := (ptAt 4).updPart 7 fun x => { x with zeroing := [(0, 1)] }
    let q : Dev := (ptAt 2).updPart 7 fun x => { x with quiesce := true }
    let ran : Dev := ((ptAt 2).updPart 7 fun x => { x with cores := 1 }).updCore 0 fun x => { x with e0 := { x.e0 with stopped := false } }
    let used : Dev := (ptAt 1).setJr (4096 * 7) { JRec.reset with st := .accepted }
    let gcm : Dev := up.updCtx 0 fun x => { x with st := .opened, part := 7, gcm := true }
    (ptAt 1).ptState 7 ≠ 0 ∧ (ptAt 0).ptState 7 = 0 ∧ ((ptAt 0).part 7).hkey = none ∧ ((key (ptAt 0)).part 7).hkey ≠ none ∧
    ((key z).part 7).hkey ≠ none ∧ (z.part 7).zeroing ≠ [] ∧ ((key (ptAt 0)).part 7).zeroing = [] ∧ (ptAt 4).ptState 7 = 4 ∧
    (ptAt 3).ptState 7 = 3 ∧ (ptAt 1).ptState 7 = 1 ∧ (ptAt 2).ptState 7 = 2 ∧ ran.ptState 7 = 2 ∧ ran.allStopped (ran.coresOf 7) = false ∧
    (ptAt 2).allStopped ((ptAt 2).coresOf 7) = true ∧ (q.part 7).quiesce = true ∧ q.allStopped (q.coresOf 7) = true ∧
    ((ptAt 2).part 7).quiesce = false ∧ ((ptAt 3).setF Reg.HBM_REHASH_BUSY).flag Reg.HBM_REHASH_BUSY = true ∧
    (ptAt 3).flag Reg.HBM_REHASH_BUSY = false ∧ used.ptState 7 = 1 ∧ used.inUse 7 ≠ 0 ∧ (ptAt 1).releasable 7 = true ∧
    (ptAt 4).allStopped ((ptAt 4).coresOf 7) = true ∧ ((ptAt 4).part 7).pendCores = none ∧ z.hkeyFree 7 = false ∧ gcm.lkeyFree 7 = false ∧
    up.hkeyFree 7 = true ∧ up.lkeyFree 7 = true := by decide

set_option maxRecDepth 20000 in
theorem test_hyp_ExtentsReserveAndInvalidations :
    let key (d : Dev) : Dev := d.updPart 7 fun x => { x with hkey := some 5 }
    let e : Nat := 130559
    let z : Dev := (ptAt 1).updPart 7 fun x => { x with zeroing := [(e, 1)] }
    let s1 (b : Bool) : Dev := up.updPart 7 fun x => { x with s1inv := [(b, 2 ^ 30)] }
    let mine : Dev := { up with owner := [(e, 8)] }
    let other : Dev := { up with owner := [(e, 1)] }
    let sus : Dev := up.updPart 7 fun x => { x with susp := [(7, 1)] }
    (up.part 7).hkey = none ∧ ((key other).part 7).hkey ≠ none ∧ tabGet 0 e other.owner ≠ 0 ∧ tabGet 0 e other.owner ≠ 7 + 1 ∧
    tabGet 0 e up.owner = 0 ∧ e < 130560 ∧ e ∉ up.tableExtents ∧ (List.range 8).all (fun q => (up.part q).zeroing.isEmpty) = true ∧ z.devQuiet = false ∧
    (z.part 7).zeroing = [(e, 1)] ∧ tabWf 0 z.hbm = true ∧ (z.part 7).creating = false ∧
    ((z.updPart 7 fun x => { x with creating := true }).part 7).creating = true ∧ tabGet 0 e mine.owner = 7 + 1 ∧
    (∀ j, j < 3 → tabGet 0 (3 * e + j) mine.rsv = 0) ∧ (ptAt 1).ptState 7 ≠ 0 ∧ (ptAt 0).ptState 7 = 0 ∧
    ((up.updPart 7 fun x => { x with pendRm := [(e, 1)] }).part 7).pendRm = [(e, 1)] ∧ (up.part 7).s1inv = [] ∧
    ((s1 true).part 7).s1inv = [(true, 2 ^ 30)] ∧ ((s1 false).part 7).s1inv = [(false, 2 ^ 30)] ∧ tabWf Leaf.reset ((s1 false).part 7).tlb = true ∧
    tabGet 0 7 (up.part 7).susp = 0 ∧ tabGet 0 7 (sus.part 7).susp ≠ 0 := by decide

theorem test_hyp_AttestationAndTenantKeys :
    let x (ver : Nat) (caps algs : Bool) (l : List (Nat × Bool)) : Dev :=
      (up.updPart 7 fun y => { y with vfOn := true }).setSpdm 8 ⟨ver, caps, algs, l⟩
    let d := x 0x12 true true [(7, true), (8, false)]
    let held : Dev := d.updPart 7 fun y => { y with zeroing := [(0, 1)] }
    let gcm : Dev := d.updCtx 0 fun y => { y with st := .opened, part := 7, gcm := true }
    up.fnUp 8 = false ∧ up.fnUp 0 = true ∧ d.fnUp 8 = true ∧ (x 0 false false []).fnUp 8 = true ∧ ((x 0 false false []).spdmOf 8).ver = 0 ∧
    ((x 0x12 false false []).spdmOf 8).ver ≠ 0 ∧ ((x 0x12 false false []).spdmOf 8).caps = false ∧ ((x 0x12 true false []).spdmOf 8).caps = true ∧
    ((x 0x12 true false []).spdmOf 8).algs = false ∧ (d.spdmOf 8).algs = true ∧ (15 : BitVec 4).toNat ≥ 2 ∧ (1 : BitVec 4).toNat < 2 ∧
    (d.measurement 8 5).isSome = true ∧ d.measurement 8 16 = none ∧ (9, true) ∉ (d.spdmOf 8).sessions ∧ (9, false) ∉ (d.spdmOf 8).sessions ∧ (7, true) ∈ (d.spdmOf 8).sessions ∧
    (7, false) ∉ (d.spdmOf 8).sessions ∧ (8, false) ∈ (d.spdmOf 8).sessions ∧ (8, true) ∉ (d.spdmOf 8).sessions ∧
    (3 : BitVec 8).toNat ≤ 3 ∧ 3 < (255 : BitVec 8).toNat ∧ (3 : BitVec 16) = 3 ∧ (0x1D7C : BitVec 16) = 0x1D7C ∧
    (List.replicate 64 (0 : Byte)).length = 64 ∧ (List.replicate 32 (0 : Byte)).length = 32 ∧ d.hkeyFree 7 = true ∧ d.lkeyFree 7 = true ∧
    held.hkeyFree 7 = false ∧ (held.spdmOf 8).sessions = (d.spdmOf 8).sessions ∧ gcm.lkeyFree 7 = false ∧ gcm.fnUp 8 = true ∧
    (2 : BitVec 8).toNat < 3 ∧ 3 ≤ (3 : BitVec 8).toNat := by decide

theorem test_hyp_ErrorBanksKeepTwoRecords :
    let p (sev : Nat) : Dev := up.wr (Reg.ERR_P_WORD 63 0) (1 + sev * 2)
    let q (sev : Nat) : Dev := (p sev).wr (Reg.ERR_Q_WORD 63 0) 1
    (0x05 : BitVec 8) ≠ 0x04 ∧ (0x05 : BitVec 8) ≠ 0x20 ∧ up.bankPrim 63 = false ∧ (p 1).bankPrim 63 = true ∧ (p 1).bankPend 63 = false ∧
    (q 1).bankPrim 63 = true ∧ (q 1).bankPend 63 = true ∧ (p 3).bankSev 63 = 3 ∧ (p 1).bankSev 63 < 3 ∧ up.lastExit = none ∧
    (up.wr (Reg.ERR_CFG_ESCT 63) 0).rd (Reg.ERR_CFG_ESCT 63) = 0 ∧ ((p 1).wr (Reg.ERR_CFG_ESCT 63) 1).rd (Reg.ERR_CFG_ESCT 63) ≠ 0 ∧ (p 1).flag (Reg.ERR_STAT_ESC 63) = false ∧
    up.flag Reg.RST_STAT_READY = true ∧ up.flag Reg.RST_STAT_INRESET = false := by decide

theorem test_hyp_QuietScopesEnterAndExit :
    let ent : Dev := up.updPart 7 fun x => { x with quiet := true, entering := true }
    let dev : Dev := { up with devQuiet := true, devEntering := true }
    let blk (n : Nat) : Dev := (up.updPart 7 fun x => { x with quiet := true }).wr (Reg.QT_PCAUSE_BLOCK 7) n
    (up.part 7).quiet = false ∧ up.devQuiet = false ∧ ¬ (up.part 7).entering = true ∧ (ent.part 7).entering = true ∧
    ent.allStopped (ent.coresOf 7) = true ∧ up.devEntering = false ∧ dev.devEntering = true ∧ dev.devQuiet = true ∧
    (∀ q, q < 8 → dev.allStopped (dev.coresOf q) = true) ∧ (blk 1).rd (Reg.QT_PCAUSE_BLOCK 7) ≤ 1 ∧ ((blk 1).part 7).quiet = true ∧
    (blk 1).devQuiet = false ∧ 1 < (blk 15).rd (Reg.QT_PCAUSE_BLOCK 7) ∧ (blk 15).rd (Reg.QT_PCAUSE_BLOCK 7) < 16 := by decide

theorem test_hyp_CoresAndPairsAreRetired :
    let av : Dev := up.wr Reg.LG_STAT_AVOID (2 ^ 31)
    let ok (n : Nat) : Dev := { av.wr Reg.LG_CFG_LGLINK 9 with lgOk := [(31, n)] }
    144 ≤ (144 : BitVec 8).toNat ∧ (143 : BitVec 8).toNat < 144 ∧ up.coreOffline 143 = false ∧ ({ up with offline := 1 } : Dev).coreOffline 0 = true ∧
    bit (up.rd Reg.SP_STAT_AVAIL) 7 = true ∧ bit ((up.wr Reg.SP_STAT_AVAIL 0).rd Reg.SP_STAT_AVAIL) 7 = false ∧
    (up.wr Reg.SP_STAT_AVAIL 0).coreOffline 143 = false ∧ (∀ p, p < 8 → up.ptState p = 0) ∧ (ptAt 1).ptState 7 ≠ 0 ∧
    bit (up.rd Reg.SP_STAT_PAIRRET) 5 = false ∧ bit ((up.wr Reg.SP_STAT_PAIRRET 32).rd Reg.SP_STAT_PAIRRET) 5 = true ∧
    up.rd Reg.LG_CFG_LGCORE < 2 ^ 40 ∧ up.flag Reg.LG_CFG_ACTRET = false ∧ up.rd Reg.LG_CFG_LGLINK < 2 ^ 40 ∧
    (up.setF Reg.LG_CFG_ACTREROUTE).flag Reg.LG_CFG_ACTREROUTE = true ∧ bit (up.rd Reg.LG_STAT_AVOID) 31 = false ∧
    2 * 4 < (ok 6).rd Reg.LG_CFG_LGLINK ∧ bit ((ok 6).rd Reg.LG_STAT_AVOID) 31 = true ∧ tabGet 0 31 (ok 6).lgOk < 7 ∧
    tabGet 0 31 (ok 7).lgOk = 7 ∧ 5 ≤ (ok 7).rd Reg.LG_CFG_LGLINK ∧ (ok 7).rd Reg.LG_CFG_LGLINK ≤ 2 * 5 ∧
    (∀ n, n < 16 → up.flag (Reg.FRY_LAG_V n) = false) ∧ up.rd Reg.LG_CFG2_LGFRY < 2 ^ 40 ∧
    (up.setF Reg.LG_CFG_ACTDEW).flag Reg.LG_CFG_ACTDEW = true ∧ up.rd Reg.LG_CFG2_LGCF < 2 ^ 40 := by decide

theorem test_hyp_SourcesFollowTheirStates :
    let m (n : Nat) : Dev := up.setSrc 0 { Src.reset with en := true, st := .pending, offered := n }
    Dev.srcReal 1000 = false ∧ Dev.srcReal 3859 = true ∧ Dev.srcReal 0 = true ∧ (up.src 3859).en = false ∧ (up.src 3859).st = .idle ∧
    (let d := up.setSrc 3859 { Src.reset with en := true }; (d.src 3859).en = true ∧ (d.src 3859).st = .idle) ∧
    (let d := up.setSrc 3859 { Src.reset with en := true, st := .pending, cnt := 255 }; (d.src 3859).en = true ∧ (d.src 3859).st = .pending) ∧
    (let d := up.setSrc 3859 { Src.reset with en := true, st := .inService }; (d.src 3859).st = .inService) ∧ (4094 : Nat) ≠ 3859 ∧
    up.srcOwner 0 = none ∧ up.srcOwner 3859 ≠ none ∧
    (let d := up.setSrc 3859 { Src.reset with raw := true }; (d.src 3859).raw = true ∧ (d.src 3859).en = false ∧ (d.src 3859).st = .idle) ∧
    Dev.condSource 1025 = true ∧ Dev.condSource 0 = false ∧ (up.src 0).st ≠ .pending ∧ ((m 1).src 0).st = .pending ∧ ((m 1).src 0).cls = 0 ∧
    ((m 1).src 0).offered = 1 ∧ ((m 2).src 0).offered = 2 := by decide

theorem test_hyp_ClaimsServeTheBestSource :
    let x (st : SrcState) (lv : Bool) : Dev :=
      (up.updPart 7 fun y => { y with vfOn := true }).setSrc 4083 { Src.reset with en := true, st := st, cls := 2, tmask := 2 ^ 63, page := 7, level := lv, cnt := 1 }
    let d := (x .pending false).wr (Reg.PT_STAT_STATE 7) 1
    let m := up.setSrc 0 { Src.reset with en := true, st := .pending, offered := 2 }
    let held := { up with undel := [(7 * 64 + 63, 1)], msixEn := 128 }
    let masked := { up with pba := [(7 * 64 + 63, true)] }
    (d.reqUp (Dev.pageReq 7) = true ∧ d.ptState 7 ≠ 0) ∧ up.reqUp (Dev.pageReq 8) = true ∧ up.eligible 7 63 4083 = false ∧
    d.eligible 7 63 4083 = true ∧ tabWf Src.reset d.srcs = true ∧ m.reqUp (.mgmt 1) = true ∧ (m.src 0).st = .pending ∧ (m.src 0).cls = 0 ∧
    bit (m.src 0).offered 1 = true ∧ tabWf Src.reset m.srcs = true ∧ up.srcs = [] ∧ ((x .inService true).src 4083).st = .inService ∧
    ((x .inService false).src 4083).page = 7 ∧ ((x .inService false).src 4083).en = true ∧ Dev.srcReal 4083 = true ∧ (up.src 4083).st ≠ .inService ∧
    tabGet 0 (7 * 64 + 63) up.undel = 0 ∧ tabGet 0 (7 * 64 + 63) held.undel ≠ 0 ∧ bit up.msixEn 7 = false ∧ bit held.msixEn 7 = true ∧
    tabGet false (7 * 64 + 63) ({ up with vmask := [(7 * 64 + 63, true)] } : Dev).vmask = true ∧ tabGet false (7 * 64 + 63) up.vmask = false ∧
    tabGet false (7 * 64 + 63) masked.pba = true ∧ tabGet false (7 * 64 + 63) up.pba = false := by decide

/-- Slot 7 in a state, a cartridge in it, its port in a state; identity bytes of PLAN, slot strap 7, MAC and serial. -/
def slot7 (st port : Nat) : Dev :=
  (((up.clrF Reg.LAS_CFG_AUTOON).wr (Reg.LAS_SLOT_STATE 7) st).setF (Reg.LAS_SLOT_PRSNT 7)).wr (Reg.SBB_STAT_STATE 1) port
def id7 (plan : Nat) : List Byte := [0, 0, 1, 0, 0, 0, 0, 0, 0, 0] ++ leBytes 1 plan ++ [7, 1, 0, 0, 0] ++ List.replicate 16 0

theorem test_hyp_SlotsFollowTheirStates :
    let plan := up.rd Reg.LAS_CFG_PLAN
    let d := slot7 slJOINING sbACTIVE
    let fed := (slot7 slON sbACTIVE).setFeed 7 0 0
    let alone := (slot7 slON sbACTIVE).wr Reg.LAS_FEED_FEED 0xFFFFFFFF
    (slot7 slEMPTY sbDAA).rd (Reg.SBB_STAT_STATE 1) = sbDAA ∧ d.rd (Reg.SBB_STAT_STATE 1) = sbACTIVE ∧
    (slot7 slEMPTY sbSTUCK).rd (Reg.SBB_STAT_STATE 1) ≠ sbDAA ∧ (slot7 slEMPTY sbSTUCK).rd (Reg.SBB_STAT_STATE 1) ≠ sbACTIVE ∧
    d.flag (Reg.LAS_SLOT_PRSNT 7) = true ∧ d.flag (Reg.LAS_SLOT_LEGACY 7) = false ∧ bit (8 : BitVec 4).toNat (7 % 4) = true ∧
    bit (7 : BitVec 4).toNat (7 % 4) = false ∧ (slot7 slEMPTY sbDAA).slState 7 = slEMPTY ∧
    (slot7 slEMPTY sbDAA).rd (Reg.SBB_STAT_STATE (7 / 4)) ≠ sbSTUCK ∧ d.slState 7 ≠ slEMPTY ∧ (slot7 slREADY 2).slState 7 ≠ slJOINING ∧
    d.slState 7 = slJOINING ∧ d.idRefused 7 (id7 (plan + 1)) = some 4 ∧ byteField (id7 (plan + 1)) 0xA 1 ≠ plan ∧
    d.idRefused 7 (id7 plan) = none ∧ d.flag Reg.LAS_CFG_AUTOON = false ∧ byteField (id7 plan) 0xB 1 % 8 = 7 ∧
    (d.cart 7).lastSerial = d.cartSerial 7 ∧ (d.setCart 7 { Cart.reset with lastSerial := 5 }).slState 7 = slJOINING ∧ d.slState 7 ≠ slREADY ∧
    d.slState 7 ≠ slOFF ∧ (slot7 slREADY 2).slState 7 = slREADY ∧ (slot7 slOFF 2).slState 7 = slOFF ∧ (slot7 slON 2).slState 7 = slON ∧
    (fed.groupsOn 7).any (fun x => fed.slState (feedCart x.1 x.2 (1 - fed.feed x.1 x.2)) ≠ slON) = true ∧
    alone.groupsOn 7 = [] ∧ alone.slState 7 = slON ∧ (slot7 slWARMING 2).slState 7 = slWARMING := by decide

theorem test_hyp_CartridgesArePolledAndRecovered :
    let d (st : Nat) : Dev := slot7 st sbACTIVE
    let side : Nat := (r0.feed 7 1)
    let other : Dev := (List.range 8).foldl (fun (d : Dev) c => d.wr (Reg.LAS_SLOT_STATE c) slON) up
    let rec_ (n : Nat) : Dev := (slot7 slON sbRECOVERING).wr (Reg.SBB_STAT_TRIES 1) n
    up.polled 7 = false ∧ (d slON).polled 7 = true ∧ (d slON).slState 7 = slON ∧ (d slWARMING).polled 7 = true ∧
    (d slWARMING).slState 7 = slWARMING ∧ (d slOFF).polled 7 = true ∧ (d slOFF).slState 7 ≠ slWARMING ∧ (d slOFF).slState 7 ≠ slON ∧
    ((d slON).setF (Reg.LAS_SLOT_LEGACY 7)).flag (Reg.LAS_SLOT_LEGACY 7) = true ∧ (d slON).flag (Reg.LAS_SLOT_LEGACY 7) = false ∧
    (d slON).identified 7 = true ∧ (d slON).rd (Reg.SBB_STAT_STATE (7 / 4)) = sbACTIVE ∧ up.identified 7 = false ∧ side < 3 ∧
    (up.setFeed 7 1 1).feed 7 1 = 1 ∧ (up.setFeed 7 1 1).feed 7 1 ≠ 0 ∧ (up.setFeed 7 1 1).slState (feedCart 7 1 0) ≠ slON ∧
    (other.setFeed 7 1 1).slState (feedCart 7 1 0) = slON ∧ (other.setFeed 7 1 1).feed 7 1 ≠ 2 ∧ other.feed 7 1 = 2 ∧
    other.slState (feedCart 7 1 1) = slON ∧ up.rd (Reg.SBB_STAT_STATE 1) ≠ sbRECOVERING ∧ (rec_ 1).rd (Reg.SBB_STAT_STATE 1) = sbRECOVERING ∧
    (rec_ 1).rd (Reg.SBB_STAT_TRIES 1) < 2 ∧ (rec_ 2).rd (Reg.SBB_STAT_TRIES 1) = 2 ∧ (rec_ 2).slState (4 * 1 + 3) ≠ slEMPTY := by decide

theorem test_hyp_PowerAndThermalGovern :
    let off (n : Nat) : Dev := up.wr Reg.PWR_DOMSTAT_ON (2 ^ 25 - 1 - 2 ^ n)
    let owned := up.updPart 7 fun x => { x with cores := 2 ^ 143 }
    let hotD := { up with sensHot := 2 ^ 47 }
    let warm (t : Nat) : Dev := up.wr (Reg.THM_SENS_TEMP 31) t
    let dt := up.rd Reg.THM_CFG_DTHROT
    up.flag Reg.THM_STAT_TRIPPED = false ∧ up.flag Reg.RST_STAT_INRESET = false ∧ up.rd Reg.PWR_CAP_LEVEL ≤ 16 ∧ 25 ≤ (25 : BitVec 5).toNat ∧
    r0.domainsOk = false ∧ up.domOn 24 = true ∧ (off 24).domOn 24 = false ∧ up.domainsOk = true ∧ (off 24).domainsOk = true ∧
    owned.domainBusy 7 = some 1 ∧ owned.domOn 7 = true ∧ owned.domainsOk = true ∧ up.domainBusy 24 = none ∧ up.domainBusy 7 = none ∧
    owned.coreOwner (18 * 7 + 17) ≠ none ∧ 16 * (up.rd Reg.THM_CFG_TRIP : Int) ≤ Dev.temp (2047 : BitVec 16).toNat ∧
    ¬ 16 * (up.rd Reg.THM_CFG_TRIP : Int) ≤ Dev.temp (0x8000 : BitVec 16).toNat ∧ bit up.thmSeen 47 = false ∧ bit hotD.sensHot 47 = true ∧
    hotD.flag Reg.THM_STAT_TRIPPED = false ∧ bit up.sensHot 47 = false ∧ up.rd (Dev.lvlFld 1) ≤ 16 ∧
    16 * (up.rd Reg.THM_CFG_DTHROT : Int) ≤ Dev.temp ((warm (16 * dt)).rd (Reg.THM_SENS_TEMP (16 * 1 + 15))) ∧
    Dev.temp ((warm (16 * dt - 1)).rd (Reg.THM_SENS_TEMP (16 * 1 + 15))) < 16 * (up.rd Reg.THM_CFG_DTHROT : Int) ∧
    16 * (up.rd Reg.THM_CFG_DTHROT : Int) - 16 * ((up.setF Reg.THM_CFG_DHYST).rd Reg.THM_CFG_DHYST : Int) ≤ 16 * (dt : Int) - 1 ∧
    (∀ i, i < 16 → Dev.temp (up.rd (Reg.THM_SENS_TEMP (16 * 1 + i))) < 16 * (up.rd Reg.THM_CFG_DTHROT : Int) - 16 * (up.rd Reg.THM_CFG_DHYST : Int)) := by
  decide

/-- An image whose magic number is wrong. -/
def badImg : FwImg := { (r0.imgA) with magic := 0 }

theorem test_hyp_ResetsAndBringUps :
    let trip := up.setF Reg.THM_STAT_TRIPPED
    let cool := trip
    let hotT := trip.wr (Reg.THM_SENS_TEMP 47) (16 * up.rd Reg.THM_CFG_TRIP)
    let cold := r0.wr Reg.RST_STAT_LAST 1
    let warm := r0.wr Reg.RST_STAT_LAST 2
    let bad := { cold with imgA := badImg, imgB := badImg }
    trip.flag Reg.THM_STAT_TRIPPED = true ∧ hotT.trippedCool = false ∧ cool.trippedCool = true ∧ up.flag Reg.THM_STAT_TRIPPED = false ∧
    cold.flag Reg.RST_STAT_INRESET = true ∧ cold.flag Reg.THM_STAT_TRIPPED = false ∧ cold.rd Reg.RST_STAT_LAST = 1 ∧
    up.flag Reg.RST_STAT_INRESET = false ∧ warm.rd Reg.RST_STAT_LAST = 2 ∧ warm.resetHeld = false ∧ cold.resetHeld = false ∧
    warm.flag Reg.RST_STAT_INRESET = true ∧ bad.imgValid badImg = false ∧ bad.flag Reg.RST_STAT_INRESET = true ∧ bad.resetHeld = false ∧
    up.vstby = true ∧ ({ up with vstby := false } : Dev).vstby = false ∧ (8 : Fin 9) ≠ 0 := by decide

set_option maxRecDepth 40000 in
theorem test_hyp_MailboxesServeTheirCommands :
    let d := { up with mbq := [⟨2, 0x11, []⟩] }
    let none_ := (up.clrF Reg.MGT_LOCK_P0UP).clrF Reg.MGT_LOCK_P1UP
    let recov := up.setF Reg.MGT_BOOT_RECOV
    let grp := up.wr (Reg.CNT_GRP_KIND 31) 10
    ¬ (∀ x ∈ d.mbq, x.mb ≠ 2) ∧ (∀ x ∈ up.mbq, x.mb ≠ 2) ∧ none_.mbq = [] ∧ none_.flag Reg.MGT_LOCK_P0UP = false ∧
    none_.flag Reg.MGT_LOCK_P1UP = false ∧ up.flag Reg.MGT_LOCK_P0UP = true ∧ recov.flag Reg.MGT_BOOT_RECOV = true ∧ recov.flag Reg.MGT_LOCK_P0UP = true ∧
    (Instr.errread 2 64 : Instr) ≠ .mailboxIdent 2 ∧ up.flag Reg.MGT_BOOT_RECOV = false ∧ 64 ≤ (64 : Word).toNat ∧ (63 : Word).toNat < 64 ∧
    8 ≤ (8 : Word).toNat ∧ (7 : Word).toNat < 8 ∧ (0xFF : Word).toNat = 0xFF ∧ 1024 ≤ (1024 : Word).toNat ∧ (1023 : Word).toNat < 1024 ∧
    grp.grpValid 31 = true ∧ up.flag Reg.THM_STAT_TRIPPED = false ∧ (up.setF Reg.THM_STAT_TRIPPED).flag Reg.THM_STAT_TRIPPED = true ∧
    bits (1 : Word).toNat 2 0 = 1 ∧ bits (2 : Word).toNat 2 0 = 2 ∧ bits (0x73 : Word).toNat 2 0 = 3 ∧ bits (0x8F04 : Word).toNat 2 0 = 4 ∧
    bits (0x8F04 : Word).toNat 15 8 < 144 ∧ bits (0x9004 : Word).toNat 2 0 = 4 ∧ 144 ≤ bits (0x9004 : Word).toNat 15 8 ∧ bits (5 : Word).toNat 2 0 = 5 ∧
    up.log.length ≤ (2 ^ 63 : Word).toNat ∧ ({ up with log := [[1]] } : Dev).log[0]? = some [1] := by decide

set_option maxRecDepth 40000 in
theorem test_hyp_FirmwarePairsAndHostLink :
    let d := { up with sfuPend := List.replicate 64 1 }
    let down := up.clrF (Dev.pairUp 1)
    let ready := { up with fwReady := true }
    let work := up.setJr 0 { JRec.reset with st := .running }
    let active := up.wr (Reg.LNK_STAT_STATE 31) lkACTIVE
    up.flag Reg.MGT_LOCK_P0UP = true ∧ up.mbServes 0x11 = true ∧ ¬ (1 = 0 ∨ 1 = up.sfuBuf.length) ∧ [(1 : Byte)].length ≤ 4096 ∧
    ([] ++ [(1 : Byte)]).length < 64 ∧ 64 ≤ (List.replicate 160 (0 : Byte)).length ∧
    64 + byteField (List.replicate 160 0) 16 4 + 96 ≤ (List.replicate 160 (0 : Byte)).length ∧ up.imageBad (List.replicate 160 0) = true ∧
    up.sfuPend = [] ∧ work.jnlQuiet = false ∧ d.sfuPend ≠ [] ∧ d.jnlQuiet = true ∧ down.flag (Dev.pairUp 1) = false ∧ up.flag (Dev.pairUp 1) = true ∧
    down.mbq = [] ∧ up.imgValid badImg = false ∧ up.fwReady = false ∧ up.sfuCand = [] ∧ ready.fwReady = true ∧ ready.sfuCand = [] ∧
    ready.rd Reg.MGT_BOOT_RUN ≤ 1 ∧ (4 : BitVec 8) = 4 ∧ (5 : BitVec 8) ≠ 4 ∧ up.fnUp 8 = false ∧ up.fnUp 0 = true ∧
    active.lkState 31 ≠ lkDOWN ∧ (5 : BitVec 20).toNat ≠ active.rd Reg.RTE_ID_DEV ∧ (∀ l, l < 32 → up.lkState l = lkDOWN) := by decide

set_option maxRecDepth 20000 in
theorem test_hyp_CapturesDumpsAndStepping :
    let grp := up.wr (Reg.CNT_GRP_KIND 31) 10
    let two := { grp with caps := [(31, 2)] }
    let name : List Byte := List.replicate 32 0
    let dmp (len : Nat) : Dev := { mapped with hbm := [(0, 0x1F), (64 + 40, BitVec.ofNat 8 len)] }
    let look (d : Dev) := Dev.dumpFind 0 name [0] (d.wr (Reg.PD_DUMPTAB_VA 0) 64)
    let armed := up.updPart 0 fun x => { x with dump := some ⟨[], 0, 1, 0⟩ }
    let held := up.setJr 0 { JRec.reset with st := .accepted, step := 1 }
    let ap (sp : Nat) := (up.wr Reg.DBG_APADDR_SPACE sp).wr Reg.DBG_APADDR_ADDR 8
    let ram : Dev := (mapped.wr Reg.DBG_APADDR_SPACE 1).wr Reg.DBG_APADDR_ADDR 8
    up.grpValid 31 = false ∧ grp.grpValid 31 = true ∧ tabGet 0 31 grp.caps < 2 ∧ 2 ≤ tabGet 0 31 two.caps ∧ two.grpValid 31 = true ∧
    grp.rd (Reg.CNT_GRP_KIND 31) = 10 ∧ (up.wr (Reg.CNT_GRP_KIND 31) 9).rd (Reg.CNT_GRP_KIND 31) = 9 ∧ (armed.part 0).dump ≠ none ∧
    (look up).1 = none ∧ (look (dmp 0)).1 = some ⟨name, 0, 0, 0⟩ ∧ (look (dmp 7)).1 = some ⟨name, 0, 7, 0⟩ ∧ up.recsOf 0 = [] ∧
    (held.recsOf 0).find? (fun e => e.2.step = 1 || e.2.step = 3) = some (0, held.jr 0) ∧ (held.jr 0).step = 1 ∧
    Nat.land (up.core 143).stopReq 254 = 0 ∧ (up.core 143).faultStop = false ∧ (up.core 143).e0.wait = none ∧ (up.core 143).e3.wait = none ∧
    up.reqUp .dbg = false ∧ up.reqUp .pf = true ∧ up.rd Reg.DBG_APADDR_SPACE = 0 ∧ (ap 0).rd Reg.DBG_APADDR_SPACE = 0 ∧
    (match (ap 0).apReach with | .reg _ _ _ => true | _ => false) = true ∧ (ap 1).rd Reg.DBG_APADDR_SPACE ≠ 0 ∧
    (match (ram.wr Reg.DBG_APADDR_ADDR (2 ^ 30)).apPhys with | .error .translation => true | _ => false) = true ∧
    (match ram.apPhys with | .ok (.hbm 8) => true | _ => false) = true ∧ ram.devQuiet = false := by decide

theorem test_hyp_TestPortInstructions :
    let held := { r0 with modLow := true }
    let open_ := up.setF Reg.DBG_STAT_JUNLOCK
    ({ Tap.reset with low := true } : Tap).low = true ∧ Tap.reset.low = false ∧ held.modLow = true ∧ held.flag Reg.RST_STAT_INRESET = true ∧
    up.modLow = false ∧ up.flag Reg.DBG_STAT_JUNLOCK = false ∧ open_.flag Reg.DBG_STAT_JUNLOCK = true ∧ ([] : List Byte).length ≠ 96 := by decide

/-! The spec's worked examples. Each expected value stands in the example named. -/

set_option exponentiation.threshold 512 in
/-- Example NF-2: conversions to nearest even, and the stochastic one of its last lines. -/
theorem test_conversions_nf2 :
    (let c (l : FLay) (x : Nat) := l.encode .rne false (layFP32.decode x)
     c layBF16 0x3F808000 = (0x3F80, .none) ∧ c layBF16 0x3F818000 = (0x3F82, .none) ∧ c layFP16 0x47960000 = (0x7C00, .sat) ∧
     c layE4M3 0x43FA0000 = (0x7E, .sat) ∧ layE4M3.encode .rne true (layFP32.decode 0x43FA0000) = (0x7F, .nan) ∧
     c layE4M3 0x43960000 = (0x79, .none) ∧ c layE4M3 0x3A83126F = (0, .flush) ∧ c layFP16 0x3A83126F = (0x1419, .none) ∧
     c layBF16 0x00000001 = (0, .flush) ∧ c layBF16 0x7F800001 = (0x7FC0, .nan) ∧
     encodeInt 8 false .rne (layFP32.decode 0xBF800000) = (0, .sat) ∧
     (layBF16.encode (.stoch 0x417A2C) false (layFP32.decode 0x3F808000)).1 = 0x3F80 ∧
     (layBF16.encode (.stoch 0x9E0135) false (layFP32.decode 0x3F808000)).1 = 0x3F81) := by decide

/-- Example NF-3: histogram bins. -/
theorem test_histogram_nf3 :
    Dev.histBin (layBF16.decode 0x4040) = 65 ∧ Dev.histBin (layFP16.decode 0xB600) = 62 ∧ Dev.histBin (layFP32.decode 0x800) = 0 ∧
    Dev.histBin (layFP32.decode 0x5F000000) = 127 ∧ Dev.histBin (layE4M3.decode 0x80) = 128 ∧
    Dev.histBin ((layE2M1.decode 6).scale (0x87 - 127)) = 74 := by decide

set_option maxRecDepth 20000 in
/-- Example NF-1: the block as MXFP4 and as NSF4, from FP32 elements 1000, 0.3, 150 and 20. -/
theorem test_block_nf1 :
    let vs := (List.range 32).map fun i => layFP32.decode
      (if i = 0 then 0x447A0000 else if i = 1 then 0x3E99999A else if i = 8 then 0x43160000 else if i = 24 then 0x41A00000 else 0)
    let e (nsf : Bool) := encodeBlock (.blk layE2M1 nsf) nsf (fun _ => .rne) false vs
    (e false).1 = 0x87 ∧ (e true).1 = 0x87 ∧ (e true).2.1 = 0xFC ∧ ((e false).2.2.map Prod.fst).sum = 6 ∧
    (e true).2.2.map Prod.fst = (List.range 32).map (fun i => if i = 0 ∨ i = 8 then 6 else 0) ∧
    ((e false).2.2.filter fun x => x.2 = .flush).length = 3 ∧ ((e true).2.2.filter fun x => x.2 = .flush).length = 2 := by decide

/-- Example GL-1: the word of the long-form pass; its fields as the table lists them. -/
theorem test_word_gl1 :
    mkWord 1 true 0x01 ⟨false, 0⟩ (0xA00000000000 + 0x2000000000 + 0xA00000000 + 0x10000000 + 0x800000 + 0x400000 + 0x60000 + 0x10000) =
      0x6020A02A10C70000 ∧ legalWord 0x6020A02A10C70000 0x400 = true ∧ wEng 0x6020A02A10C70000 = 1 ∧ wOp 0x6020A02A10C70000 = 1 := by decide

/-- Example MX-2: sixteen chunks of one element, in the ladder's order. -/
theorem test_ladder_mx2 :
    let x (k : Nat) : List Cell := [⟨if k = 0 then 0x3F800000 else if k < 4 then 0x33800000 else 0, false⟩]
    let l := (List.range 16).foldl (fun l k => ladEnter .f32 false 12 0 (x k) l) []
    l = [(4, [⟨0x3F800001, false⟩])] ∧ ladCollapse .f32 false l = [⟨0x3F800001, false⟩] := by decide

/-- Example HB-1: three sectors of a hashed address. -/
theorem test_hash_hb1 :
    let p (a : Nat) := placeOf 0x1C3D (0x100000040 + a)
    p 0 = ⟨0, 2, 1, 0x0A, 0, 0x55⟩ ∧ p 32 = ⟨1, 2, 1, 0x0A, 0, 0x55⟩ ∧ p 64 = ⟨11, 3, 1, 0x0A, 0, 0x55⟩ := by decide

/-- Example SY-4: the record of pass 12 held by core 7 at epoch 41, now at epoch 42. -/
theorem test_pass_sy4 :
    let d := (up.wr (Reg.SY_EPOCH_EPOCH 7) 42).updPart 0 fun x => { x with cores := 2 ^ 144 - 1 }
    let d := d.setPass 0 12 ⟨true, 7, 41, false, []⟩
    d.hpReg 7 12 = 0x0000000000290703 := by decide

/-- Example CF-1: AX64 with a = 4. -/
theorem test_ax64_cf1 :
    axOf 4 (layFP32.decode 0x41400000) = (0x60000000000, .plain) ∧ (axOf 4 (layFP32.decode 0xC1400000)).1 = 0xFFFFFA0000000000 ∧
    (axOf 4 (layFP32.decode 0x33C00000)).1 = 0xC000 ∧ axOf 4 (layFP32.decode 0x2B800000) = (0, .flush) := by decide

set_option maxRecDepth 20000 in
/-- Example DM-1: a row of 64 bf16 elements with 24 zeros and exponents 0x79 to 0x7E takes 65 bytes. -/
theorem test_spill_row_dm1 :
    let xs := (List.range 64).map fun i => if i < 24 then 0 else (0x79 + i % 6) * 128
    ((codeRow layBF16 0 xs).1).length = 65 := by decide

/-- Example RT-1: device 0x1096B reaches group 300 by L0 = 23 and K0 = 9: within its board to device 7. -/
theorem test_route_rt1 :
    let d := ((((up.setF Reg.RTE_ID_VALID).wr Reg.RTE_ID_DEV 0x1096B).setF (Reg.RTE_GRP_V0 0 300)).wr (Reg.RTE_GRP_L0 0 300) 23).wr
      (Reg.RTE_GRP_K0 0 300) 9
    idGrp 0x14B0E = 300 ∧ idPod 0x14B0E = 2 ∧ d.candidates 2 300 14 = [[⟨6, false⟩, ⟨7, false⟩]] := by decide

/-- Example PT-1: the load of partition 3 reaches HBM at PA 0xC7801234, and its fetch is not granted. -/
theorem test_walk_pt1 :
    let d := hbmUp.updPart 3 fun x => { x with s1base := 0x100004, s2base := 0 }
    let d := { d with owner := [(512, 4), (514, 4), (532, 4)],
                      hbm := tabPutList 0 0xC1000008 (leBytes 8 0x780000F) (tabPutList 0 0xC0100008 (leBytes 8 0x1000001) (tabPutList 0 0 (leBytes 8 0xC000000F) [])) }
    (d.walk 3 0x40201234).toOption.map (fun l => (l.tgt, l.base + 0x40201234 % pageBytes, l.r, l.w, l.x)) = some (0, 0xC7801234, true, true, false) := by
  decide

end Sys2Proof.Tests
end

section
/-!
The queue (O2): commands take effect in the order in which they wait.
-/
namespace Sys2Proof.Machine

/-- A run of commands, like one of them, does not depend on the queue. -/
theorem foldl_after_queue (cs p : List Instr) (s : State) :
    cs.foldl (fun u c => after c u) { s with pending := p } = { cs.foldl (fun u c => after c u) s with pending := p } := by
  induction cs generalizing s with
  | nil => rfl
  | cons c cs ih => simp only [List.foldl_cons, after_queue, ih]

theorem step_empty {s : State} (h : s.pending = []) : step s = .next { s with dev := s.dev.tick } := by
  simp only [step, h]

/-- A step takes the front command's effect and leaves the queue's rest. -/
theorem step_cons {s : State} {c : Instr} {p : List Instr} (h : s.pending = c :: p) :
    step s = .next { after c s with pending := p } := by
  simp only [step, h, after_eq, after_queue]

/-- As many steps as there are commands at the front of the queue run exactly those, in their order. -/
theorem run_append (cs r : List Instr) (s : State) (h : s.pending = cs ++ r) :
    Host.Core.run Sys2Proof.core cs.length s = .next { cs.foldl (fun u c => after c u) s with pending := r } := by
  induction cs generalizing s with
  | nil => exact congrArg _ (by rw [List.foldl_nil, ← List.nil_append r, ← h])
  | cons c cs ih =>
    have hs : Sys2Proof.core.step s = .next { after c s with pending := cs ++ r } := step_cons h
    simp only [List.length_cons, Host.Core.run, hs, List.foldl_cons]
    rw [ih _ rfl, foldl_after_queue]

/-- Settles O2: the idle step is one tick, and the queue's commands run by induction over those ahead. -/
theorem queueRunsInOrder : Obligations.QueueRunsInOrder := by
  refine ⟨fun s h => ⟨fun hv => ?_, fun hv => ?_⟩, run_append⟩
  · simp [step_empty h, Dev.tick, hv]
  · simp [step_empty h, Dev.tick, hv]

end Sys2Proof.Machine
end

section
/-!
The rules of the host accesses (R10 to R17): what an access of a register does, given that its requester reaches it, and
that a host access error leaves every latch and holding register.
-/
namespace Sys2Proof.Machine.Dev

variable {d : Dev} {r : Requester} {off : Nat} {n : RegName} {i : List Nat} {a : Nat}

theorem access_up (h : d.reqUp r = true) (f : Dev → Dev) : d.access r f = f d := if_pos h

theorem read64_reg (h : d.reach r off = .reg n i a) (hn : n ≠ .DBG_APDATA) : d.read64 r off = readReg n i a d := by
  unfold read64
  split <;> simp_all

theorem write64_reg (h : d.reach r off = .reg n i a) (hn : n ≠ .DBG_APDATA) {user : Bool} (hw : mayWrite r user n = true)
    (v : Nat) : d.write64 r user off v = d.commitReg n i a v := by
  unfold write64
  split <;> simp_all

theorem commitReg_plain {v : Nat} (h : d.plainWrite n i a v) : d.commitReg n i a v = d.storeFields n i v := by
  obtain ⟨hcore, hfabric, hpart, hmgmt⟩ := h
  simp only [commitReg, hcore, hfabric, hpart, hmgmt]

/-! A host access error makes a record and an event; neither touches a requester's registers. -/

@[simp] theorem fresh_ports (d : Dev) : d.fresh.2.ports = d.ports := rfl
@[simp] theorem alertPin_ports (d : Dev) : d.alertPin.ports = d.ports := rfl
@[simp] theorem setPrim_ports (d : Dev) (b w0 w1 w2 w3 : Nat) : (d.setPrim b w0 w1 w2 w3).ports = d.ports := rfl
@[simp] theorem setPend_ports (d : Dev) (b w0 w1 w2 w3 : Nat) : (d.setPend b w0 w1 w2 w3).ports = d.ports := rfl

@[simp] theorem vecSend_ports (d : Dev) (page v : Nat) : (d.vecSend page v).ports = d.ports := by
  simp only [vecSend]
  split
  · rfl
  · split <;> rfl

@[simp] theorem vecCount_ports (d : Dev) (page v k : Nat) : (d.vecCount page v k).ports = d.ports := by
  simp only [vecCount]
  split
  · exact vecSend_ports _ _ _
  · rfl

@[simp] theorem eligibleCount_ports (d : Dev) (n k : Nat) : (d.eligibleCount n k).ports = d.ports := by
  unfold eligibleCount
  split
  · rfl
  · refine foldl_keeps (fun e : Dev => e.ports = d.ports) _ _ d rfl fun e v he => ?_
    split
    · rw [vecCount_ports, he]
    · exact he

@[simp] theorem offer_ports (d : Dev) (n : Nat) : (d.offer n).ports = d.ports := by
  unfold offer
  dsimp only
  split <;> rfl

@[simp] theorem srcArrive_ports (d : Dev) (n : Nat) : (d.srcArrive n).ports = d.ports := by
  simp only [srcArrive]
  split
  · rfl
  · split
    · simp
    · simp
    · split <;> rfl

@[simp] theorem irqEvent_ports (d : Dev) (n : Nat) : (d.irqEvent n).ports = d.ports := by
  unfold irqEvent
  split
  · rfl
  · simp

@[simp] theorem escalate_ports (d : Dev) (b : Nat) : (d.escalate b).ports = d.ports := by simp [escalate, setF]

@[simp] theorem bankDrop_ports (d : Dev) (b : Nat) : (d.bankDrop b).ports = d.ports := by
  simp only [bankDrop]
  split
  · exact escalate_ports _ _
  · rfl

@[simp] theorem becomePrim_ports (d : Dev) (b w0 w1 w2 w3 : Nat) : (d.becomePrim b w0 w1 w2 w3).ports = d.ports := by
  simp [becomePrim]

@[simp] theorem bankArrive_ports (d : Dev) (b w0 w1 w2 w3 : Nat) : (d.bankArrive b w0 w1 w2 w3).ports = d.ports := by
  simp only [bankArrive]
  split
  · simp
  · split
    · split <;> simp [setF]
    · split <;> simp

@[simp] theorem hostErr_ports (d : Dev) (addr : Nat) : (d.hostErr addr).ports = d.ports := by
  simp only [hostErr, err, bankArrive_ports, fresh_ports]

end Sys2Proof.Machine.Dev
end

section
/-!
The halves of a register (O5, O6): each 32-bit access by what the requester's latch or holding register has (R13, R14).
-/
namespace Sys2Proof.Machine.Dev

variable {d : Dev} {r : Requester} {off : Nat} {n : RegName} {i : List Nat} {a : Nat}

theorem lowWordRead_reg (hu : d.reqUp r = true) (h : d.reach r off = .reg n i a) :
    d.lowWordRead r off =
      ((d.read64 r off).2.setPort r.num { (d.read64 r off).2.port r.num with
        latch := some (a, BitVec.ofNat 32 ((d.read64 r off).1 / 2 ^ 32)) }).answer r ((d.read64 r off).1 % 2 ^ 32) := by
  simp only [lowWordRead, access_up hu, regTag, h]

theorem highWordRead_latched (hu : d.reqUp r = true) (h : d.reach r off = .reg n i a) {w : BitVec 32}
    (hl : (d.port r.num).latch = some (a, w)) :
    d.highWordRead r off = (d.setPort r.num { d.port r.num with latch := none }).answer r w.toNat := by
  simp only [highWordRead, access_up hu, h, hl, if_true]

theorem highWordRead_unlatched (hu : d.reqUp r = true) (h : d.reach r off = .reg n i a)
    (hl : (d.port r.num).latch.map (·.1) ≠ some a) :
    d.highWordRead r off = (highNow n i a d).2.answer r (highNow n i a d).1 := by
  simp only [highWordRead, access_up hu, h]
  split
  · next t w ht => rw [if_neg fun e => hl (by simp [ht, e])]
  · rfl

/-- A read through a page's source window leaves every latch, logged or not. -/
theorem readReg_window_ports (hn : n = .IC_PCFG ∨ n = .IC_PTMASK ∨ n = .IC_PSTAT) : (readReg n i a d).2.ports = d.ports := by
  obtain rfl | rfl | rfl := hn <;> simp only [readReg] <;> split <;> simp

theorem highNow_ports : (highNow n i a d).2.ports = d.ports := by
  unfold highNow
  split
  case h_5 | h_6 | h_7 => exact readReg_window_ports (by simp)
  all_goals rfl

/-- Where the high word can be had without the read, it is the read's. -/
theorem highNow_eq_readReg (hc : n ≠ .IC_CLAIM) (hm : n ≠ .IRQ_MCLAIM) (hd : n ≠ .DBG_APDATA) :
    (highNow n i a d).1 = (readReg n i a d).1 / 2 ^ 32 := by
  unfold highNow
  split
  case h_1 | h_2 | h_3 => contradiction
  case h_4 =>
    simp only [readReg, accRead]
    split <;> simp
  case h_5 | h_6 | h_7 => rfl
  case h_8 =>
    unfold readReg
    split
    case h_7 => rfl
    all_goals contradiction

theorem lowWordWrite_reg {user : Bool} (hu : d.reqUp r = true) (h : d.reach r off = .reg n i a)
    (hw : mayWrite r user n = true) (w : BitVec 32) :
    d.lowWordWrite r user off w = d.setPort r.num { d.port r.num with hold := some (a, w) } := by
  simp only [lowWordWrite, access_up hu, h, hw, if_true]

theorem highWordWrite_held (hu : d.reqUp r = true) (h : d.reach r off = .reg n i a) {lo : BitVec 32}
    (hl : (d.port r.num).hold = some (a, lo)) (user : Bool) (w : BitVec 32) :
    d.highWordWrite r user off w =
      write64 r user off (w.toNat * 2 ^ 32 + lo.toNat) (d.setPort r.num { d.port r.num with hold := none }) := by
  simp only [highWordWrite, access_up hu, h, hl, if_true]

theorem highWordWrite_unheld (hu : d.reqUp r = true) (h : d.reach r off = .reg n i a)
    (hl : (d.port r.num).hold.map (·.1) ≠ some a) (user : Bool) (w : BitVec 32) :
    d.highWordWrite r user off w = d.hostErr (off + 4) := by
  simp only [highWordWrite, access_up hu, h]
  split
  · next t lo ht => rw [if_neg fun e => hl (by simp [ht, e])]
  · rfl

end Sys2Proof.Machine.Dev

namespace Sys2Proof.Machine

/-! Each access is its command's whole effect. -/

theorem completes_registerWrite (s : State) (r : Requester) (user : Bool) (off : BitVec 28) (v : Word) :
    Completes (.registerWrite r user off v) s (s.dev.registerWrite r user off.toNat v.toNat) := rfl
theorem completes_lowWordRead (s : State) (r : Requester) (off : BitVec 28) :
    Completes (.lowWordRead r off) s (s.dev.lowWordRead r off.toNat) := rfl
theorem completes_highWordRead (s : State) (r : Requester) (off : BitVec 28) :
    Completes (.highWordRead r off) s (s.dev.highWordRead r off.toNat) := rfl
theorem completes_lowWordWrite (s : State) (r : Requester) (user : Bool) (off : BitVec 28) (w : BitVec 32) :
    Completes (.lowWordWrite r user off w) s (s.dev.lowWordWrite r user off.toNat w) := rfl
theorem completes_highWordWrite (s : State) (r : Requester) (user : Bool) (off : BitVec 28) (w : BitVec 32) :
    Completes (.highWordWrite r user off w) s (s.dev.highWordWrite r user off.toNat w) := rfl

/-- Settles O5: a rule per state of the latch, and the high word read alone against the 64-bit read. -/
theorem lowThenHighWordRead : Obligations.LowThenHighWordRead := by
  intro s r off n i a hu h
  refine ⟨?_, fun w hl => ?_, fun hl => ?_, Dev.highNow_ports, ?_, fun hc hm hd => ?_⟩
  · rw [← Dev.lowWordRead_reg hu h]; exact completes_lowWordRead s r off
  · rw [← Dev.highWordRead_latched hu h hl]; exact completes_highWordRead s r off
  · rw [← Dev.highWordRead_unlatched hu h hl]; exact completes_highWordRead s r off
  · rintro (rfl | rfl) <;> rfl
  · rw [Dev.read64_reg h hd, Dev.highNow_eq_readReg hc hm hd]

/-- Settles O6: a rule for the low word, and one per state of the holding register for the high word. -/
theorem lowThenHighWordWrite : Obligations.LowThenHighWordWrite := by
  intro s r user off w n i a hu h hw
  refine ⟨?_, fun lo hl => ?_, fun hl => ?_⟩
  · rw [← Dev.lowWordWrite_reg hu h hw]; exact completes_lowWordWrite s r user off w
  · rw [← Dev.highWordWrite_held hu h hl]; exact completes_highWordWrite s r user off w
  · rw [← Dev.highWordWrite_unheld hu h hl user w]; exact completes_highWordWrite s r user off w

end Sys2Proof.Machine
end

section
/-!
The fields of a register (O7): each has its own place in the register's 64 bits (R9), so storing them one after another gives
each the value of its type (R10).
-/
namespace Sys2Proof.Machine

/-- The address of a register's fields: that of its first. -/
def fieldAddr (n : RegName) (i : List Nat) : Nat := ((fieldsOf n i).map Fld.addr).headD 0

theorem fieldsOf_map_addr (n : RegName) (i : List Nat) :
    (fieldsOf n i).map Fld.addr = List.replicate (fieldsOf n i).length (fieldAddr n i) := by
  cases n <;> rfl

/-! The places and widths of a register's fields are numerals whatever its indices, so they are compared by evaluation. -/

theorem fieldsOf_width_pos (n : RegName) (i : List Nat) : ∀ f ∈ fieldsOf n i, 0 < f.width := by
  cases n <;> exact of_decide_eq_true rfl

/-- The fields stand in the order of their places, which do not overlap (R9). -/
theorem fieldsOf_disjoint (n : RegName) (i : List Nat) : (fieldsOf n i).Pairwise fun f g => f.lo + f.width ≤ g.lo := by
  cases n <;> exact of_decide_eq_true rfl

theorem fieldsOf_addr {n : RegName} {i : List Nat} {f : Fld} (h : f ∈ fieldsOf n i) : f.addr = fieldAddr n i :=
  List.eq_of_mem_replicate (fieldsOf_map_addr n i ▸ List.mem_map_of_mem h)

/-- The fields of one register are held under different keys. -/
theorem fieldsOf_keys (n : RegName) (i : List Nat) : (fieldsOf n i).Pairwise fun f g => f.key ≠ g.key := by
  refine (fieldsOf_disjoint n i).imp_of_mem fun {f g} hf hg hlo => ?_
  have hw := fieldsOf_width_pos n i f hf
  simp only [Fld.key, fieldsOf_addr hf, fieldsOf_addr hg]
  omega

/-- What a field of value `old` holds after a write of its bits as `w`, by its type (Table SC-2). -/
def Fld.stored (f : Fld) (w old : Nat) : Nat :=
  match f.ty with
  | .rw => w % 2 ^ f.width
  | .rw1c => (old - Nat.land old w) % 2 ^ f.width
  | _ => old

namespace Dev

/-- One field's part in a write of its register with `v`. -/
def storeField (v : Nat) (d : Dev) (f : Fld) : Dev :=
  match f.ty with
  | .rw => d.wr f (v / 2 ^ f.lo % 2 ^ f.width)
  | .rw1c => d.wr f (d.rd f - Nat.land (d.rd f) (v / 2 ^ f.lo % 2 ^ f.width))
  | _ => d

theorem storeFields_eq_foldl (n : RegName) (i : List Nat) (v : Nat) (d : Dev) :
    d.storeFields n i v = (fieldsOf n i).foldl (storeField v) d := rfl

theorem storeField_ports (v : Nat) (d : Dev) (f : Fld) : (storeField v d f).ports = d.ports := by
  unfold storeField
  split <;> rfl

theorem rd_storeField_same (v : Nat) (d : Dev) (f : Fld) :
    (storeField v d f).rd f = f.stored (v / 2 ^ f.lo % 2 ^ f.width) (d.rd f) := by
  unfold storeField Fld.stored
  split <;> simp

theorem rd_storeField_ne (v : Nat) (d : Dev) {f g : Fld} (h : g.key ≠ f.key) : (storeField v d f).rd g = d.rd g := by
  unfold storeField
  split
  · exact rd_wr_ne d f g _ h
  · exact rd_wr_ne d f g _ h
  · rfl

theorem rd_foldl_storeField_ne (v : Nat) (l : List Fld) (d : Dev) {g : Fld} (h : ∀ f ∈ l, g.key ≠ f.key) :
    (l.foldl (storeField v) d).rd g = d.rd g := by
  induction l generalizing d with
  | nil => rfl
  | cons f l ih =>
    obtain ⟨hf, hl⟩ := List.forall_mem_cons.mp h
    rw [List.foldl_cons, ih _ hl, rd_storeField_ne v d hf]

/-- Fields of different places are stored without regard to one another. -/
theorem rd_foldl_storeField_mem (v : Nat) (l : List Fld) (d : Dev) (hl : l.Pairwise fun f g => f.key ≠ g.key) {f : Fld}
    (hf : f ∈ l) : (l.foldl (storeField v) d).rd f = f.stored (v / 2 ^ f.lo % 2 ^ f.width) (d.rd f) := by
  induction l generalizing d with
  | nil => cases hf
  | cons g l ih =>
    obtain ⟨hg, hl⟩ := List.pairwise_cons.mp hl
    rw [List.foldl_cons]
    obtain rfl | hf := List.mem_cons.mp hf
    · rw [rd_foldl_storeField_ne v l _ hg, rd_storeField_same]
    · rw [ih _ hl hf, rd_storeField_ne v d (hg f hf).symm]

variable (n : RegName) (i : List Nat) (v : Nat) (d : Dev)

theorem storeFields_ports : (d.storeFields n i v).ports = d.ports :=
  foldl_keeps (fun e : Dev => e.ports = d.ports) (storeField v) _ d rfl fun e f he => (storeField_ports v e f).trans he

theorem rd_storeFields_mem {f : Fld} (hf : f ∈ fieldsOf n i) :
    (d.storeFields n i v).rd f = f.stored (v / 2 ^ f.lo % 2 ^ f.width) (d.rd f) :=
  rd_foldl_storeField_mem v _ d (fieldsOf_keys n i) hf

theorem rd_storeFields_ne {g : Fld} (hg : ∀ f ∈ fieldsOf n i, g.key ≠ f.key) : (d.storeFields n i v).rd g = d.rd g :=
  rd_foldl_storeField_ne v _ d hg

end Dev

theorem Fld.stored_rw {f : Fld} (h : f.ty = .rw) (w old : Nat) : f.stored w old = w % 2 ^ f.width := by simp [stored, h]
theorem Fld.stored_rw1c {f : Fld} (h : f.ty = .rw1c) (w old : Nat) :
    f.stored w old = (old - Nat.land old w) % 2 ^ f.width := by simp [stored, h]
theorem Fld.stored_other {f : Fld} (hrw : f.ty ≠ .rw) (hc : f.ty ≠ .rw1c) (w old : Nat) : f.stored w old = old := by
  unfold stored
  split
  · contradiction
  · contradiction
  · rfl

/-- A write of a register that only stores is the store of its fields. -/
theorem completes_registerWrite_plain {s : State} {r : Requester} {user : Bool} {off : BitVec 28} {v : Word} {n : RegName}
    {i : List Nat} {a : Nat} (hu : s.dev.reqUp r = true) (h : s.dev.reach r off.toNat = .reg n i a)
    (hw : Dev.mayWrite r user n = true) (hn : n ≠ .DBG_APDATA) (hp : s.dev.plainWrite n i a v.toNat) :
    Completes (.registerWrite r user off v) s (s.dev.storeFields n i v.toNat) := by
  rw [← Dev.commitReg_plain hp, ← Dev.write64_reg h hn hw, ← Dev.access_up hu (Dev.write64 r user off.toNat v.toNat)]
  exact completes_registerWrite s r user off v

/-- Settles O7: the fields of a register are disjoint, so each reads back as its type stores it. -/
theorem registerWriteStoresFields : Obligations.RegisterWriteStoresFields := by
  refine ⟨fun s r user off v n i a hu h hw hn hp => ⟨_, completes_registerWrite_plain hu h hw hn hp,
    Dev.storeFields_ports .., fun f hf ht => ?_, fun f hf ht => ?_, fun f hf hrw hc => ?_,
    fun g hg => Dev.rd_storeFields_ne _ _ _ _ hg⟩, fieldsOf_disjoint⟩
  · rw [Dev.rd_storeFields_mem _ _ _ _ hf, Fld.stored_rw ht, Nat.mod_mod]
  · rw [Dev.rd_storeFields_mem _ _ _ _ hf, Fld.stored_rw1c ht]
  · rw [Dev.rd_storeFields_mem _ _ _ _ hf, Fld.stored_other hrw hc]

end Sys2Proof.Machine
end

section
/-!
Accesses that reach several registers or none (O8): a wide access as its words in turn (R16), and the logged ones (R16, R28).
-/
namespace Sys2Proof.Machine.Dev

variable {d : Dev} {r : Requester} {off : Nat}

/-! Word `k` of a wide access lies `8 * k` bytes above the first (R16). -/

theorem wideReads_eq_foldl (r : Requester) (off n : Nat) (d : Dev) :
    wideReads r off n d = (List.range n).foldl (fun (d : Dev) k =>
      (d.read64 r (off + 8 * k)).2.answer r (d.read64 r (off + 8 * k)).1) d := by
  induction n generalizing off d with
  | zero => rfl
  | succ n ih =>
    have next (k : Nat) : off + 8 + 8 * k = off + 8 * (k + 1) := by omega
    simp only [wideReads, ih, List.range_succ_eq_map, List.foldl_cons, List.foldl_map, next, Nat.mul_zero, Nat.add_zero,
      Nat.succ_eq_add_one]

theorem wideWrites_eq_foldl (r : Requester) (user : Bool) (off : Nat) (vs : List Nat) (d : Dev) :
    wideWrites r user off vs d = (List.range vs.length).foldl (fun (d : Dev) k =>
      write64 r user (off + 8 * k) (vs.getD k 0) d) d := by
  induction vs generalizing off d with
  | nil => rfl
  | cons v vs ih =>
    have next (k : Nat) : off + 8 + 8 * k = off + 8 * (k + 1) := by omega
    simp only [wideWrites, ih, List.length_cons, List.range_succ_eq_map, List.foldl_cons, List.foldl_map, next, Nat.mul_zero,
      Nat.add_zero, Nat.succ_eq_add_one, List.getD_cons_zero, List.getD_cons_succ]

theorem wideRead_ok (hu : d.reqUp r = true) {n : Nat} (h : wideOk off n = true) :
    d.wideRead r off n = wideReads r off n d := by
  rw [wideRead, if_pos h, access_up hu]

theorem wideWrite_ok (hu : d.reqUp r = true) {vs : List Nat} (h : wideOk off vs.length = true) (user : Bool) :
    d.wideWrite r user off vs = wideWrites r user off vs d := by
  rw [wideWrite, if_pos h, access_up hu]

theorem invalidAccess_bad (hu : d.reqUp r = true) {width : Nat} (h : badAccess off width = true) (write : Bool) :
    d.invalidAccess r write off width = if write then d.hostErr off else (d.hostErr off).answer r 0 := by
  rw [invalidAccess, if_pos h, invalidWidth, access_up hu]

theorem unmappedAccess_nothing (hu : d.reqUp r = true) (h : d.reach r off = .nothing) (write : Bool) :
    d.unmappedAccess r write off = if write then d.hostErr off else (d.hostErr off).answer r 0 := by
  simp only [unmappedAccess, access_up hu, h]

end Sys2Proof.Machine.Dev

namespace Sys2Proof.Machine

theorem completes_wideRead (s : State) (r : Requester) (user : Bool) (off : BitVec 28) (n : Nat) :
    Completes (.wideAccess r user off (.inl n)) s (s.dev.wideRead r off.toNat n) := rfl
theorem completes_wideWrite (s : State) (r : Requester) (user : Bool) (off : BitVec 28) (vs : List Word) :
    Completes (.wideAccess r user off (.inr vs)) s (s.dev.wideWrite r user off.toNat (vs.map (·.toNat))) := rfl
theorem completes_invalidWidthAccess (s : State) (r : Requester) (write : Bool) (off : BitVec 28) (width : Nat) :
    Completes (.invalidWidthAccess r write off width) s (s.dev.invalidAccess r write off.toNat width) := rfl
theorem completes_unmappedAccess (s : State) (r : Requester) (write : Bool) (off : BitVec 28) :
    Completes (.unmappedAccess r write off) s (s.dev.unmappedAccess r write off.toNat) := rfl

/-- Settles O8: a wide access unrolls to its words' fold by induction on their number; the logged ones by their rules. -/
theorem wideAndBadAccesses : Obligations.WideAndBadAccesses := by
  refine ⟨fun s r user off hu => ⟨fun n h => ⟨_, completes_wideRead s r user off n, ?_⟩,
    fun vs h => ⟨_, completes_wideWrite s r user off vs, ?_⟩⟩,
    fun s r off width hu => ⟨fun h => ⟨?_, ?_⟩, fun h => ⟨?_, ?_⟩⟩⟩
  · rw [Dev.wideRead_ok hu h, Dev.wideReads_eq_foldl]
  · have hl : Dev.wideOk off.toNat (vs.map (·.toNat)).length = true := by rwa [List.length_map]
    rw [Dev.wideWrite_ok hu hl, Dev.wideWrites_eq_foldl, List.length_map]
  · simpa [Dev.invalidAccess_bad hu h] using completes_invalidWidthAccess s r false off width
  · simpa [Dev.invalidAccess_bad hu h] using completes_invalidWidthAccess s r true off width
  · simpa [Dev.unmappedAccess_nothing hu h] using completes_unmappedAccess s r false off
  · simpa [Dev.unmappedAccess_nothing hu h] using completes_unmappedAccess s r true off

end Sys2Proof.Machine
end

section
/-!
The frame of an interrupt event (R377): only the sources, the outgoing messages and the vectors' books change.
-/
namespace Sys2Proof.Machine.Dev

/-- `e` is `d` but for the messages sent and the books of the vectors (R381). -/
def SameButVectors (d e : Dev) : Prop := e = { d with out := e.out, pba := e.pba, undel := e.undel }

theorem SameButVectors.refl (d : Dev) : SameButVectors d d := rfl

theorem SameButVectors.trans {d e f : Dev} (h : SameButVectors d e) (h' : SameButVectors e f) : SameButVectors d f := by
  unfold SameButVectors at *
  rw [h'.trans (congrArg (fun x : Dev => { x with out := f.out, pba := f.pba, undel := f.undel }) h)]

theorem vecSend_frame (page v : Nat) (d : Dev) : SameButVectors d (d.vecSend page v) := by
  simp only [vecSend]
  split
  · rfl
  · split <;> rfl

theorem vecCount_frame (page v k : Nat) (d : Dev) : SameButVectors d (d.vecCount page v k) := by
  simp only [vecCount]
  split
  · exact SameButVectors.trans (.refl d) (vecSend_frame page v _)
  · rfl

theorem eligibleCount_frame (n k : Nat) (d : Dev) : SameButVectors d (d.eligibleCount n k) := by
  unfold eligibleCount
  split
  · rfl
  · next page _ =>
    refine foldl_keeps (SameButVectors d) _ _ d rfl fun e v he => ?_
    split
    · exact he.trans (vecCount_frame page v k e)
    · exact he

theorem eligibleCount_regs (d : Dev) (n k : Nat) : (d.eligibleCount n k).regs = d.regs := by
  rw [eligibleCount_frame n k d]

theorem src_eligibleCount (d : Dev) (n k m : Nat) : (d.eligibleCount n k).src m = d.src m := by
  rw [eligibleCount_frame n k d]; rfl

theorem offer_regs (d : Dev) (n : Nat) : (d.offer n).regs = d.regs := by
  unfold offer
  dsimp only
  split <;> rfl

/-- An offer leaves whether the source's event has been. -/
theorem raw_offer (d : Dev) (n : Nat) : ((d.offer n).src n).raw = (d.src n).raw := by
  unfold offer
  dsimp only
  split <;> simp

theorem srcArrive_regs (d : Dev) (n : Nat) : (d.srcArrive n).regs = d.regs := by
  simp only [srcArrive]
  split
  · rfl
  · split
    · simp [offer_regs, eligibleCount_regs]
    · simp [eligibleCount_regs]
    · split <;> rfl

/-- An arrival leaves whether the source's event has been, whatever state the source is in. -/
theorem raw_srcArrive (d : Dev) (n : Nat) : ((d.srcArrive n).src n).raw = (d.src n).raw := by
  simp only [srcArrive]
  split
  · rfl
  · split
    · simp [raw_offer, src_eligibleCount]
    · simp [src_eligibleCount]
    · split <;> simp

theorem irqEvent_regs (d : Dev) (n : Nat) : (d.irqEvent n).regs = d.regs := by
  unfold irqEvent
  split
  · rfl
  · rw [srcArrive_regs, setSrc_regs]

@[simp] theorem rd_irqEvent (d : Dev) (n : Nat) (f : Fld) : (d.irqEvent n).rd f = d.rd f := by
  rw [rd, irqEvent_regs, ← rd]

/-- An event at a source that is not reserved sets its RAW (R377). -/
theorem raw_irqEvent {n : Nat} (h : srcReal n = true) (d : Dev) : ((d.irqEvent n).src n).raw = true := by
  rw [irqEvent, if_neg (by simp [h]), raw_srcArrive, src_setSrc_same]

end Sys2Proof.Machine.Dev
end

section
/-!
The profile change (O9): the request stops the intake, and the clocks follow when the journal has drained (R23, R420).
-/
namespace Sys2Proof.Machine.Dev

variable {d : Dev}

@[simp] theorem rd_setF_same {f : Fld} (hf : f.width = 1) : (d.setF f).rd f = 1 := by simp [setF, hf]
@[simp] theorem rd_setF_ne {f g : Fld} (h : g.key ≠ f.key) : (d.setF f).rd g = d.rd g := rd_wr_ne _ _ _ _ h
@[simp] theorem rd_clrF_same (f : Fld) : (d.clrF f).rd f = 0 := by simp [clrF]
@[simp] theorem rd_clrF_ne {f g : Fld} (h : g.key ≠ f.key) : (d.clrF f).rd g = d.rd g := rd_wr_ne _ _ _ _ h

/-! Stopping the intake and resuming it (R23, R143): only acceptance and the note of how it stood change. -/

theorem rd_intakeStop_ne (i : Nat) {f : Fld} (h : f.key ≠ Reg.JNL_CTL_EN.key) : (d.intakeStop i).rd f = d.rd f :=
  rd_clrF_ne h

theorem rd_intakeStop_enable (d : Dev) (i : Nat) : (d.intakeStop i).rd Reg.JNL_CTL_EN = 0 := rd_clrF_same Reg.JNL_CTL_EN

/-- The first reason to stop the intake notes how acceptance stood. -/
theorem accWas_intakeStop (h : d.accStop = 0) (i : Nat) : (d.intakeStop i).accWas = d.flag Reg.JNL_CTL_EN := if_pos h

theorem rd_intakeResume_ne (i : Nat) {f : Fld} (h : f.key ≠ Reg.JNL_CTL_EN.key) : (d.intakeResume i).rd f = d.rd f := by
  simp only [intakeResume]
  split
  · exact rd_wr_ne _ _ _ _ h
  · rfl

/-- With the last reason gone acceptance stands as the first stop found it. -/
theorem flag_intakeResume_last {i : Nat} (h : setBit d.accStop i false = 0) :
    (d.intakeResume i).flag Reg.JNL_CTL_EN = d.accWas := by
  simp only [intakeResume, h, if_true, flag, rd_wr_same]
  cases d.accWas <;> decide

@[simp] theorem rd_setProfTo (p : Nat) (f : Fld) : ({ d with profTo := p } : Dev).rd f = d.rd f := rfl

theorem flag_irqEvent (d : Dev) (n : Nat) (f : Fld) : (d.irqEvent n).flag f = d.flag f := by simp only [flag, rd_irqEvent]

/-- A request that finds no change in progress, is not refused and asks for another profile stops the intake (R420). -/
theorem profileChange_start {req : Nat} (hb : d.flag Reg.PWR_PROFILE_BUSY = false) (h3 : req ≠ 3)
    (h0 : req = 0 → d.flag Reg.HIF_MODID_BALMAX = false) (hc : req ≠ d.rd Reg.PWR_PROFILE_CUR) :
    d.profileChange req =
      { ((d.wr Reg.PWR_PROFILE_REQ req).setF Reg.PWR_PROFILE_BUSY).intakeStop 0 with profTo := req } := by
  have hreq (f : Fld) (h : f.key ≠ Reg.PWR_PROFILE_REQ.key) : (d.wr Reg.PWR_PROFILE_REQ req).rd f = d.rd f :=
    rd_wr_ne _ _ _ _ h
  simp only [flag, decide_eq_false_iff_not] at hb h0
  rw [profileChange, if_neg, if_neg]
  · rwa [hreq _ (by decide)]
  · simp only [flag, hreq Reg.PWR_PROFILE_BUSY (by decide), hreq Reg.HIF_MODID_BALMAX (by decide), decide_eq_true_eq]
    tauto

/-- Profile code 3 is refused whatever is in progress (R420). -/
theorem profileChange_three (d : Dev) :
    d.profileChange 3 = (d.wr Reg.PWR_PROFILE_REQ 3).setF Reg.PWR_PROFILE_REFUSED := if_pos (.inr (.inl rfl))

/-- The clocks of a change in progress follow once the journal has drained (R23). -/
theorem profileClockChange_drained (hb : d.flag Reg.PWR_PROFILE_BUSY = true) (hq : d.jnlQuiet = true) :
    d.profileClockChange =
      (((d.wr Reg.PWR_PROFILE_CUR d.profTo).clrF Reg.PWR_PROFILE_BUSY).intakeResume 0).irqEvent 3 :=
  if_neg (by simp [hb, hq])

end Sys2Proof.Machine.Dev

namespace Sys2Proof.Machine

theorem completes_profileChange (s : State) (req : BitVec 2) :
    Completes (.profileChange req) s (s.dev.profileChange req.toNat) := rfl
theorem completes_profileClockChange (s : State) : Completes .profileClockChange s s.dev.profileClockChange := rfl

open Reg Dev in
/-- Settles O9: a rule for the request taken up, for code 3 and for the drained journal; the intake's rules give acceptance. -/
theorem profileChangesWhenDrained : Obligations.ProfileChangesWhenDrained := by
  refine ⟨fun s req hb h3 h0 hc ha => ⟨_, completes_profileChange s req, ?_⟩,
    fun s => ⟨_, completes_profileChange s 3, ?_⟩,
    fun s hb hq ha hp => ⟨_, completes_profileClockChange s, ?_⟩⟩
  · have h3' : req.toNat ≠ 3 := fun h => h3 (BitVec.eq_of_toNat_eq h)
    have h0' : req.toNat = 0 → s.dev.flag HIF_MODID_BALMAX = false := fun h => h0 (BitVec.eq_of_toNat_eq h)
    rw [profileChange_start hb h3' h0' hc]
    refine ⟨?_, rfl, ?_, ?_, ?_⟩
    · simp (disch := decide) [flag, rd_intakeStop_ne]
    · simp [flag, rd_intakeStop_enable]
    · have hwas := accWas_intakeStop (d := (s.dev.wr PWR_PROFILE_REQ req.toNat).setF PWR_PROFILE_BUSY) ha 0
      refine hwas.trans ?_
      simp (disch := decide) [flag, rd_wr_ne]
    · simp (disch := decide) [rd_intakeStop_ne, rd_wr_ne]
  · rw [show (3 : BitVec 2).toNat = 3 from rfl, profileChange_three]
    refine ⟨?_, rfl, ?_⟩
    · simp (disch := decide) [flag]
    · simp (disch := decide) [rd_wr_ne]
  · rw [profileClockChange_drained hb hq]
    refine ⟨?_, ?_, ?_, raw_irqEvent rfl _⟩
    · simp (disch := decide) only [rd_irqEvent, rd_intakeResume_ne, rd_clrF_ne, rd_wr_same]
      exact Nat.mod_eq_of_lt hp
    · simp (disch := decide) [flag, rd_intakeResume_ne]
    · have hlast : setBit s.dev.accStop 0 false = 0 := by rw [ha]; rfl
      rw [flag_irqEvent]
      exact flag_intakeResume_last (d := (s.dev.wr PWR_PROFILE_CUR s.dev.profTo).clrF PWR_PROFILE_BUSY) hlast

end Sys2Proof.Machine
end

section
/-!
A scalar instruction of eight bytes that is taken, by what its body answers (R49): completed, faulted, or gone elsewhere.
-/
namespace Sys2Proof.Machine

theorem Completes.congr {i : Instr} {s : State} {d e : Dev} (h : Completes i s d) (hd : d = e) : Completes i s e := hd ▸ h

namespace Dev

variable {d e : Dev} {c op o : Nat} {g : Guard} {body : Dev → SRes}

theorem scalar_done (h : Takes d c g) (hb : body d = .done e) :
    d.scalar c g (mkWord 0 false op g o) 0 false body = e.retire c 8 := by
  have hw := wLong_mkWord_short 0 op g o
  rw [scalar_takes _ _ _ (by rwa [hw]), hb, hw]
  rfl

theorem scalar_fault {a : FArgs} (h : Takes d c g) (hb : body d = .fault a e) :
    d.scalar c g (mkWord 0 false op g o) 0 false body = e.seqFault c (mkWord 0 false op g o) 0 a := by
  rw [scalar_takes _ _ _ (by rwa [wLong_mkWord_short]), hb]

theorem scalar_jumped (h : Takes d c g) (hb : body d = .jumped e) :
    d.scalar c g (mkWord 0 false op g o) 0 false body = e := by
  rw [scalar_takes _ _ _ (by rwa [wLong_mkWord_short]), hb]

end Dev
end Sys2Proof.Machine
end

section
/-!
Mode fields (R63): what is written reads back, and what setm and getm do with a listed field and with an unlisted one.
-/
namespace Sys2Proof.Machine

/-- The engines of a core are four. -/
theorem Core.eng_setEng_same (x : Core) {k : Nat} (hk : k < 4) (g : Eng) : (x.setEng k g).eng k = g := by
  match k, hk with
  | 0, _ | 1, _ | 2, _ | 3, _ => rfl

/-- A field of one bit gives back the word written to it. -/
theorem ofNat_b2n_toNat_eq_one {v : Word} (h : v.toNat ≤ 1) : BitVec.ofNat 64 (b2n (decide (v.toNat = 1))) = v := by
  apply BitVec.eq_of_toNat_eq
  obtain h0 | h1 : v.toNat = 0 ∨ v.toNat = 1 := by omega
  · simp [h0, b2n]
  · simp [h1, b2n]

/-- A handler's address has 48 bits, and gives back the word written to it. -/
theorem setWidth_ofNat_toNat {v : Word} (h : v.toNat < 2 ^ 48) : (BitVec.ofNat 48 v.toNat).setWidth 64 = v := by
  apply BitVec.eq_of_toNat_eq
  have hv := v.isLt
  simp only [BitVec.toNat_setWidth, BitVec.toNat_ofNat]
  rw [Nat.mod_eq_of_lt h, Nat.mod_eq_of_lt hv]

namespace Dev

/-- The sequencer has two mode fields (Table GL-12). -/
theorem modeSet_seq_unlisted (x : Core) {f : Nat} (hf : 2 ≤ f) (v : Word) : modeSet x 0 f v = none := by
  match f, hf with
  | _ + 2, _ => rfl

theorem modeGet_modeSet_seq {x x' : Core} {f : Nat} {v : Word} (h : modeSet x 0 f v = some x') :
    modeGet x' 0 f = some v := by
  match f with
  | 0 =>
    obtain ⟨⟨hv, -⟩, hx⟩ := Option.ite_none_right_eq_some.mp h
    cases hx
    exact congrArg some (setWidth_ofNat_toNat hv)
  | 1 =>
    obtain ⟨hv, hx⟩ := Option.ite_none_right_eq_some.mp h
    cases hx
    exact congrArg some (ofNat_b2n_toNat_eq_one hv)
  | _ + 2 => rw [modeSet_seq_unlisted x (by omega)] at h; cases h

theorem modeGet_modeSet_eng {x x' : Core} {k f : Nat} (hk : k < 4) (h0 : k ≠ 0) {v : Word}
    (h : modeSet x k f v = some x') : modeGet x' k f = some v := by
  unfold modeSet at h
  unfold modeGet
  simp only [h0, if_false] at h ⊢
  match f with
  | 0 | 1 =>
    obtain ⟨hv, hx⟩ := Option.ite_none_right_eq_some.mp h
    cases hx
    simp [Core.eng_setEng_same x hk, ofNat_b2n_toNat_eq_one hv]
  | 2 =>
    obtain ⟨⟨rfl, hv⟩, hx⟩ := Option.ite_none_right_eq_some.mp h
    cases hx
    simp [Core.eng_setEng_same x hk, ofNat_b2n_toNat_eq_one hv]
  | 3 =>
    obtain ⟨⟨rfl, hv⟩, hx⟩ := Option.ite_none_right_eq_some.mp h
    cases hx
    simp [Core.eng_setEng_same x hk]
  | _ + 4 => cases h

/-- Whatever engine's field setm wrote, getm reads the same word. -/
theorem modeGet_modeSet {x x' : Core} {k f : Nat} (hk : k < 4) {v : Word} (h : modeSet x k f v = some x') :
    modeGet x' k f = some v := by
  by_cases h0 : k = 0
  · subst h0; exact modeGet_modeSet_seq h
  · exact modeGet_modeSet_eng hk h0 h

variable {d : Dev} {c : Nat} {g : Guard} {rd ra : BitVec 5} {e : BitVec 2} {fld : BitVec 6}

theorem setmSeq_listed {x : Core} (h : Takes d c g) (hm : modeSet (d.core c) 0 fld.toNat ((d.core c).sr ra.toNat) = some x) :
    d.setmSeq c g 0 fld (.reg ra) = (d.setCore c x).retire c 8 := by
  rw [setmSeq]
  exact scalar_done h (by simp [hm])

theorem setmSeq_unlisted (h : Takes d c g) (hf : 2 ≤ fld.toNat) :
    d.setmSeq c g 0 fld (.reg ra) = d.seqFault c (mkWord 0 false 0x50 g (opSETM 0 fld (.reg ra))) 0 { cause := cOPERAND } := by
  rw [setmSeq]
  exact scalar_fault h (by simp [modeSet_seq_unlisted _ hf])

/-- An engine's setm acts at the head of its queue. -/
theorem setmEng_listed {k : Nat} {q : QEntry} {x : Core} (h : Executes d c k 0x50 q) (hr : wF q.word 40 40 = 0)
    (hm : modeSet (d.core c) k (wF q.word 46 41) q.ra = some x) : d.setmEng c k = (d.setCore c x).engDone c k false := by
  rw [setmEng, onHead_executes _ h]
  simp [hr, hm]

theorem getm_listed {k : Nat} {v : Word} (h : Takes d c g) (he : e.toNat = k) (hm : modeGet (d.core c) k fld.toNat = some v) :
    d.getm c g rd e fld = (d.updCore c fun x => x.setSr rd.toNat v).retire c 8 :=
  scalar_done h (by simp [he, hm])

theorem getm_unlisted {k : Nat} (h : Takes d c g) (he : e.toNat = k) (hm : modeGet (d.core c) k fld.toNat = none) :
    d.getm c g rd e fld = d.seqFault c
      (mkWord 0 false 0x51 g (rd.toNat * 2 ^ 44 + k * 2 ^ 42 + fld.toNat * 2 ^ 36)) 0 { cause := cOPERAND } := by
  subst he
  exact scalar_fault h (by simp [hm])

/-- The code of an engine in a word is its number. -/
theorem toNat_engineCode (e : EngNo) : (BitVec.ofNat 2 (e + 1)).toNat = e + 1 := by
  rw [BitVec.toNat_ofNat]; omega

end Dev
end Sys2Proof.Machine
end

section
/-!
The system instructions (R43, R46, R64, R66, R327), each when it is taken.
-/
namespace Sys2Proof.Machine

namespace Dev

variable {d : Dev} {c : Nat} {g : Guard}

theorem nopSeq_takes (h : Takes d c g) : d.nopSeq c g = d.retire c 8 := scalar_done h rfl

theorem nopEng_executes {e : Nat} {q : QEntry} (h : Executes d c e 0 q) : d.nopEng c e = d.engDone c e false :=
  onHead_executes _ h

theorem mfx_takes (h : Takes d c g) (rd : BitVec 5) (e : BitVec 2) (w : BitVec 3) :
    d.mfx c g rd e w =
      (d.updCore c fun x => x.setSr rd.toNat (BitVec.ofNat 64 (d.exrWord c e.toNat w.toNat))).retire c 8 :=
  scalar_done h rfl

/-- Stations 16 to 63 are FIFOs. -/
theorem stcfg_fifo (h : Takes d c g) {n : BitVec 6} (hn : 16 ≤ n.toNat) (ra : BitVec 5) :
    d.stcfg c g n ra = (d.stCfgWrite c n.toNat ((d.core c).sr ra.toNat).toNat).retire c 8 :=
  scalar_done h (if_neg (by omega))

theorem ststat_fifo (h : Takes d c g) {n : BitVec 6} (hn : 16 ≤ n.toNat) (rd : BitVec 5) :
    d.ststat c g rd n = (d.updCore c fun x => x.setSr rd.toNat (BitVec.ofNat 64 (d.stStat c n.toNat))).retire c 8 :=
  scalar_done h (if_neg (by omega))

/-- Stations below 16 are ports. -/
theorem ststat_port (h : Takes d c g) {n : BitVec 6} (hn : n.toNat < 16) (rd : BitVec 5) :
    d.ststat c g rd n =
      d.seqFault c (mkWord 0 false 0x61 g (rd.toNat * 2 ^ 44 + n.toNat * 2 ^ 38)) 0 { cause := cOPERAND } :=
  scalar_fault h (if_pos hn)

theorem trap_takes (h : Takes d c g) (code : BitVec 16) :
    d.trap c g code = d.seqFault c (mkWord 0 false 0x5B g code.toNat) 0 { cause := cTRAP } :=
  scalar_fault h rfl

theorem halt_clean (h : Takes d c g) (hv : d.anyValid c = false) :
    d.halt c g = d.updCore c fun x => { x with run := false, slot := none } :=
  scalar_jumped h (if_neg (by simp [hv]))

theorem halt_recorded (h : Takes d c g) (hv : d.anyValid c = true) : d.halt c g = d.failStop c 0x05 :=
  scalar_jumped h (if_pos hv)

end Dev

theorem completes_setmSeq (s : State) (c : CoreNo) (g : Guard) (e : BitVec 2) (fld : BitVec 6) (v : SetmVal) :
    Completes (.setm c (.seq g e fld v)) s (s.dev.setmSeq c g e fld v) := rfl
theorem completes_setmEng (s : State) (c : CoreNo) (e : EngNo) :
    Completes (.setm c (.eng e)) s (s.dev.setmEng c (e + 1)) := rfl
theorem completes_getm (s : State) (c : CoreNo) (g : Guard) (rd : BitVec 5) (e : BitVec 2) (fld : BitVec 6) :
    Completes (.getm c g rd e fld) s (s.dev.getm c g rd e fld) := rfl
theorem completes_nopSeq (s : State) (c : CoreNo) (g : Guard) (e : EngNo) :
    Completes (.nop c (some g) e) s (s.dev.nopSeq c g) := rfl
theorem completes_nopEng (s : State) (c : CoreNo) (e : EngNo) : Completes (.nop c none e) s (s.dev.nopEng c (e + 1)) := rfl
theorem completes_mfx (s : State) (c : CoreNo) (g : Guard) (rd : BitVec 5) (e : BitVec 2) (w : BitVec 3) :
    Completes (.mfx c g rd e w) s (s.dev.mfx c g rd e w) := rfl
theorem completes_stcfg (s : State) (c : CoreNo) (g : Guard) (n : BitVec 6) (ra : BitVec 5) :
    Completes (.stcfg c g n ra) s (s.dev.stcfg c g n ra).watch := rfl
theorem completes_ststat (s : State) (c : CoreNo) (g : Guard) (rd : BitVec 5) (n : BitVec 6) :
    Completes (.ststat c g rd n) s (s.dev.ststat c g rd n) := rfl
theorem completes_trap (s : State) (c : CoreNo) (g : Guard) (code : BitVec 16) :
    Completes (.trap c g code) s (s.dev.trap c g code) := rfl
theorem completes_halt (s : State) (c : CoreNo) (g : Guard) : Completes (.halt c g) s (s.dev.halt c g) := rfl

open Dev in
/-- Settles O15: a rule per instruction and case; a written mode field reads back field by field. -/
theorem modeFieldsAndSystemInstructions : Obligations.ModeFieldsAndSystemInstructions := by
  refine ⟨fun s c g rd ra e fld v => ⟨?setmListed, ?setmUnlisted, ?setmQueued, ?readsBack, ?getmListed, ?getmUnlisted,
      ?nopSequencer, ?nopEngine⟩,
    fun s c g rd ra e w n code h => ⟨?mfxPc, ?mfx, ?stcfg, ?ststatFifo, ?ststatPort, ?trap, ?haltClean, ?haltRecorded⟩⟩
  case setmListed => exact fun _ h hm => (completes_setmSeq s c g 0 fld (.reg ra)).congr (setmSeq_listed h hm)
  case setmUnlisted => exact fun h hf => (completes_setmSeq s c g 0 fld (.reg ra)).congr (setmSeq_unlisted h hf)
  case setmQueued => exact fun _ _ h hr hm => (completes_setmEng s c e).congr (setmEng_listed h hr hm)
  case readsBack => exact fun _ _ _ _ hk h => modeGet_modeSet hk h
  case getmListed => exact fun _ h hm => (completes_getm s c g rd _ fld).congr (getm_listed h (toNat_engineCode e) hm)
  case getmUnlisted => exact fun h hm => (completes_getm s c g rd _ fld).congr (getm_unlisted h (toNat_engineCode e) hm)
  case nopSequencer => exact fun h => (completes_nopSeq s c g e).congr (nopSeq_takes h)
  case nopEngine => exact fun _ h => (completes_nopEng s c e).congr (nopEng_executes h)
  case mfxPc =>
    rintro rfl
    exact (completes_mfx s c g rd e 1).congr (mfx_takes h rd e 1)
  case mfx => exact (completes_mfx s c g rd e w).congr (mfx_takes h rd e w)
  case stcfg => exact fun hn => (completes_stcfg s c g n ra).congr (congrArg Dev.watch (stcfg_fifo h hn ra))
  case ststatFifo => exact fun hn => (completes_ststat s c g rd n).congr (ststat_fifo h hn rd)
  case ststatPort => exact fun hn => (completes_ststat s c g rd n).congr (ststat_port h hn rd)
  case trap => exact (completes_trap s c g code).congr (trap_takes h code)
  case haltClean => exact fun hv => (completes_halt s c g).congr (halt_clean h hv)
  case haltRecorded => exact fun hv => (completes_halt s c g).congr (halt_recorded h hv)

end Sys2Proof.Machine
end

section
/-!
Register arithmetic, compares and predicate logic (R51, R56): a taken instruction writes its result and goes on, and leaves all
else of the part.
-/
namespace Sys2Proof.Machine

/-- p0 reads 1 (R51). -/
theorem Core.pred_zero (x : Core) : x.pred 0 = true := rfl

theorem Core.pred_setPred (x : Core) {k m : Fin 8} (v : Bool) (hk : k ≠ 0) :
    (x.setPred k v).pred m = if m = k then v else x.pred m := by
  have hk0 : (k : Nat) ≠ 0 := fun h => hk (Fin.ext h)
  unfold Core.pred Core.setPred
  by_cases hm : m = 0
  · subst hm
    simp [Ne.symm hk]
  · have hm0 : (m : Nat) ≠ 0 := fun h => hm (Fin.ext h)
    by_cases hmk : m = k
    · subst hmk
      cases v <;> simp [hk0]
    · have hne : (m : Nat) ≠ k := fun h => hmk (Fin.ext h)
      have hbit : (1#8 <<< (k : Nat)).getLsbD m = false := by
        rw [← BitVec.twoPow_eq, BitVec.getLsbD_twoPow, decide_eq_false (Ne.symm hne), Bool.and_false]
      have hm8 : (m : Nat) < 8 := m.isLt
      cases v <;> simp only [hk0, hm0, hmk, hbit, if_false, if_true, Bool.false_eq_true, BitVec.getLsbD_or, BitVec.getLsbD_and,
        BitVec.getLsbD_not, hm8, decide_true, Bool.or_false, Bool.not_false, Bool.and_true]

theorem opMin_eq (a b : Word) : Dev.opMin a b = if a.toInt ≤ b.toInt then a else b := by
  unfold Dev.opMin
  by_cases h : b.toInt < a.toInt
  · rw [if_pos (BitVec.slt_iff_toInt_lt.mpr h), if_neg (by omega)]
  · rw [if_neg (fun hs => h (BitVec.slt_iff_toInt_lt.mp hs)), if_pos (by omega)]

theorem opMax_eq (a b : Word) : Dev.opMax a b = if a.toInt < b.toInt then b else a := by
  simp only [Dev.opMax, BitVec.slt_iff_toInt_lt]

namespace Dev

variable {d : Dev} {c : Nat} {g : Guard}

/-- A scalar instruction's result in rd, and on to the next instruction. -/
def result (c : Nat) (rd : BitVec 5) (len : Nat) (d : Dev) (v : Word) : Dev := (d.updCore c fun x => x.setSr rd.toNat v).retire c len

theorem aluSR_takes (h : Takes d c g) (op : Nat) (rd ra rb : BitVec 5) (f : Word → Word → Word) :
    d.aluSR op c g rd ra rb f = d.result c rd 8 (f ((d.core c).sr ra.toNat) ((d.core c).sr rb.toNat)) := scalar_done h rfl

theorem aluSI_takes (h : Takes d c g) (op : Nat) (rd ra : BitVec 5) (imm : BitVec 39) (f : Word → Word → Word) :
    d.aluSI op c g rd ra imm f = d.result c rd 8 (f ((d.core c).sr ra.toNat) (imm.signExtend 64)) := scalar_done h rfl

theorem li_short (h : Takes d c g) (rd : BitVec 5) (imm : BitVec 39) :
    d.li c g rd (.inl imm) = d.result c rd 8 (imm.signExtend 64) := by
  simp only [li]
  exact scalar_done h rfl

theorem li_long (h : Takes d c g) (hf : d.fetched c true = .ok) (rd : BitVec 5) (ext : Word) :
    d.li c g rd (.inr ext) = d.result c rd 16 ext := by
  obtain ⟨hready, -, hguard, htook, hslot⟩ := h
  have hw := wLong_mkWord_long 0 0x20 g (opSI rd 0 0)
  simp only [li]
  rw [scalar_takes _ _ _ ⟨hready, by rwa [hw], hguard, htook, hslot⟩, hw]
  rfl

/-- The second operand of a compare. -/
def cmpArg (x : Core) : RegImm → Word
  | .reg rb => x.sr rb.toNat
  | .imm i => i.signExtend 64

theorem cmp_takes (h : Takes d c g) (op : Nat) (pd : BitVec 3) (ra : BitVec 5) (y : RegImm) (f : Word → Word → Bool) :
    d.cmp op c g pd ra y f =
      (d.updCore c fun x => x.setPred pd.toNat (f ((d.core c).sr ra.toNat) (cmpArg (d.core c) y))).retire c 8 := by
  cases y <;> exact scalar_done h rfl

theorem plog_takes (h : Takes d c g) (pd pa pb : BitVec 3) (lop : BitVec 2) :
    d.plog c g pd pa pb lop = (d.updCore c fun x => x.setPred pd.toNat
      (let p := (d.core c).pred pa.toNat
       let q := (d.core c).pred pb.toNat
       if lop = 0 then p && q else if lop = 1 then p || q else if lop = 2 then xor p q else p && !q)).retire c 8 := by
  obtain rfl | rfl | rfl | rfl : lop = 0 ∨ lop = 1 ∨ lop = 2 ∨ lop = 3 := by bv_omega
  all_goals exact scalar_done h rfl

/-- Outside a delay slot and a loop's end an instruction is followed by the next (R57, R58). -/
theorem retire_plain (hs : (d.core c).slot = none) (hl : atLoopEnd (d.core c) = false) (len : Nat) :
    d.retire c len = d.updCore c fun x => { x with pc := x.pc + BitVec.ofNat 48 len } := by
  unfold retire
  unfold atLoopEnd at hl
  simp only [updCore, hs]
  split at hl
  · next l r hlr => simp only [hlr, of_decide_eq_false hl, if_false]
  · next hnil => simp only [hnil]

/-- The result's core is the old one but for the scalar registers and the address. -/
theorem result_plain (hs : (d.core c).slot = none) (hl : atLoopEnd (d.core c) = false) (rd : BitVec 5) (v : Word) :
    d.result c rd 8 v = (d.updCore c fun x => x.setSr rd.toNat v).updCore c fun x => { x with pc := x.pc + 8 } :=
  retire_plain (d := d.updCore c fun x => x.setSr rd.toNat v) (by rwa [core_updCore_same]) (by rwa [core_updCore_same]) 8

end Dev

section
variable {s : State} {c : CoreNo} {g : Guard} {rd ra rb : BitVec 5} {imm : BitVec 39} {op : Nat} {i : Instr} {f : Word → Word → Word}
  {v : Word}

/-- A register form completes with its operation's value. -/
theorem completes_aluSR (h : Takes s.dev c g) (hi : exec i s = s.apply fun d => d.aluSR op c g rd ra rb f)
    (hv : f ((s.dev.core c).sr ra.toNat) ((s.dev.core c).sr rb.toNat) = v) : Completes i s (s.dev.result c rd 8 v) :=
  Completes.congr (d := s.dev.aluSR op c g rd ra rb f) hi (hv ▸ Dev.aluSR_takes h op rd ra rb f)

/-- An immediate form likewise. -/
theorem completes_aluSI (h : Takes s.dev c g) (hi : exec i s = s.apply fun d => d.aluSI op c g rd ra imm f)
    (hv : f ((s.dev.core c).sr ra.toNat) (imm.signExtend 64) = v) : Completes i s (s.dev.result c rd 8 v) :=
  Completes.congr (d := s.dev.aluSI op c g rd ra imm f) hi (hv ▸ Dev.aluSI_takes h op rd ra imm f)

theorem completes_cmp {pd : BitVec 3} {y : RegImm} {f : Word → Word → Bool} {v : Bool} (h : Takes s.dev c g)
    (hi : exec i s = s.apply fun d => d.cmp op c g pd ra y f)
    (hv : f ((s.dev.core c).sr ra.toNat) (Dev.cmpArg (s.dev.core c) y) = v) :
    Completes i s ((s.dev.updCore c fun x => x.setPred pd.toNat v).retire c 8) :=
  Completes.congr (d := s.dev.cmp op c g pd ra y f) hi (hv ▸ Dev.cmp_takes h op pd ra y f)

/-- Whatever its operation, an arithmetic instruction only has a result. -/
theorem completes_arithmetic (h : Takes s.dev c g) :
    ∀ i ∈ [Instr.add c g rd ra rb, .sub c g rd ra rb, .and c g rd ra rb, .or c g rd ra rb, .xor c g rd ra rb, .shl c g rd ra rb,
      .shr c g rd ra rb, .sra c g rd ra rb, .mul c g rd ra rb, .min c g rd ra rb, .max c g rd ra rb, .addi c g rd ra imm,
      .andi c g rd ra imm, .ori c g rd ra imm, .xori c g rd ra imm, .shli c g rd ra imm, .shri c g rd ra imm, .srai c g rd ra imm,
      .muli c g rd ra imm, .mini c g rd ra imm, .maxi c g rd ra imm, .mov c g rd ra],
      ∃ v, Completes i s (s.dev.result c rd 8 v) := by
  have sr {i op f rb} (hi : exec i s = s.apply fun d => d.aluSR op c g rd ra rb f) : ∃ v, Completes i s (s.dev.result c rd 8 v) :=
    ⟨_, completes_aluSR h hi rfl⟩
  have si {i op f} (hi : exec i s = s.apply fun d => d.aluSI op c g rd ra imm f) : ∃ v, Completes i s (s.dev.result c rd 8 v) :=
    ⟨_, completes_aluSI h hi rfl⟩
  simp only [List.forall_mem_cons]
  exact ⟨sr rfl, sr rfl, sr rfl, sr rfl, sr rfl, sr rfl, sr rfl, sr rfl, sr rfl, sr rfl, sr rfl, si rfl, si rfl, si rfl, si rfl,
    si rfl, si rfl, si rfl, si rfl, si rfl, si rfl, sr rfl, List.forall_mem_nil _⟩

end

open Dev in
/-- Settles O12: the forms SR and SI by one lemma each over their operation, and the frame from the one state they all leave. -/
theorem scalarArithmeticAndFrame : Obligations.ScalarArithmeticAndFrame := by
  refine ⟨fun s c g rd ra rb imm ext h => ?arithmetic, fun s c g pd pa pb ra y lop h => ?compares,
    fun s t c g rd ra rb imm i h hslot hloop hi ht => ?frame⟩
  case arithmetic =>
    dsimp only
    refine ⟨?add, ?sub, ?and, ?or, ?xor, ?shl, ?shr, ?sra, ?mul, ?min, ?max, ?addi, ?andi, ?ori, ?xori, ?shli, ?shri, ?srai, ?muli,
      ?mini, ?maxi, ?li, fun hf => ?lil, ?mov⟩
    case min => exact completes_aluSR h rfl (opMin_eq _ _)
    case max => exact completes_aluSR h rfl (opMax_eq _ _)
    case mini => exact completes_aluSI h rfl (opMin_eq _ _)
    case maxi => exact completes_aluSI h rfl (opMax_eq _ _)
    case li => exact Completes.congr (d := s.dev.li c g rd (.inl imm)) rfl (li_short h rd imm)
    case lil => exact Completes.congr (d := s.dev.li c g rd (.inr ext)) rfl (li_long h hf rd ext)
    case addi | andi | ori | xori | shli | shri | srai | muli => exact completes_aluSI h rfl rfl
    all_goals exact completes_aluSR h rfl rfl
  case compares =>
    refine ⟨completes_cmp h rfl ?eq, completes_cmp h rfl ?ne, completes_cmp h rfl ?lt, completes_cmp h rfl ?ltu,
      completes_cmp h rfl ?le, completes_cmp h rfl ?leu, ?plog, fun x v => (x.setPred 0 v).pred_zero,
      fun x k m v hk => x.pred_setPred v hk⟩
    case plog => exact Completes.congr (d := s.dev.plog c g pd pa pb lop) rfl (plog_takes h pd pa pb lop)
    case ne => cases y <;> exact Bool.eq_iff_iff.mpr (by simp [cmpArg])
    all_goals cases y <;> rfl
  case frame =>
    obtain ⟨v, hv⟩ := completes_arithmetic h i hi
    obtain rfl : { s with dev := s.dev.result c rd 8 v } = t := by
      have := hv.symm.trans ht
      simpa using this
    simp only [result_plain hslot hloop]
    refine ⟨fun r hr => ?_, ?_, fun k hk => ?_, rfl⟩
    · simp only [core_updCore_same]
      exact tabGet_tabPut_ne _ _ _ _ _ hr
    · simp only [core_updCore_same]
      rfl
    · rw [core_updCore_ne _ _ _ _ hk, core_updCore_ne _ _ _ _ hk]

end Sys2Proof.Machine
end

section
/-!
Scalar loads and stores (R56): the check of the space and the address first, then the access.
-/
namespace Sys2Proof.Machine

namespace Dev

variable {d e : Dev} {c : Nat} {g : Guard} {rd ra : BitVec 5} {spc : BitVec 2} {imm : BitVec 37} {ue : Bool}

theorem smCheck_space {spc : Nat} (hs : spc = 3) (a : Nat) : smCheck spc a = some { cause := cOPERAND } := if_pos hs

theorem smCheck_align {spc a : Nat} (hs : spc ≠ 3) (ha : a % 8 ≠ 0) :
    smCheck spc a = some { cause := cALIGN, addr := a, aspace := spc } := by
  rw [smCheck, if_neg hs, if_pos ha]

theorem smCheck_none {spc a : Nat} (hs : spc ≠ 3) (ha : a % 8 = 0) : smCheck spc a = none := by
  rw [smCheck, if_neg hs, if_neg (not_not.mpr ha)]

/-- The address of a scalar access. -/
def smAddr (d : Dev) (c : Nat) (ra : BitVec 5) (imm : BitVec 37) : Nat := ((d.core c).sr ra.toNat + imm.signExtend 64).toNat

theorem ld_bad (h : Takes d c g) {f : FArgs} (hc : smCheck spc.toNat (d.smAddr c ra imm) = some f) :
    d.ld c g rd ra spc imm ue = d.seqFault c (mkWord 0 false 0x30 g (opSM rd ra spc imm)) 0 f := by
  rw [ld]
  exact scalar_fault h (by rw [smAddr] at hc; simp only [hc])

theorem st_bad (h : Takes d c g) {f : FArgs} (hc : smCheck spc.toNat (d.smAddr c ra imm) = some f) :
    d.st c g rd ra spc imm = d.seqFault c (mkWord 0 false 0x31 g (opSM rd ra spc imm)) 0 f := by
  rw [st]
  exact scalar_fault h (by rw [smAddr] at hc; simp only [hc])

theorem ld_ok (h : Takes d c g) (hc : smCheck spc.toNat (d.smAddr c ra imm) = none) {b : List Byte}
    (hr : d.coreRead c 0 spc.toNat (d.smAddr c ra imm) 8 ue = (.ok b, e)) :
    d.ld c g rd ra spc imm ue = e.result c rd 8 (BitVec.ofNat 64 (leNat b)) := by
  rw [ld]
  exact scalar_done h (by rw [smAddr] at hc hr; simp only [hc, hr])

theorem st_ok (h : Takes d c g) (hc : smCheck spc.toNat (d.smAddr c ra imm) = none)
    (hw : d.coreWrite c 0 spc.toNat (d.smAddr c ra imm) (leBytes 8 ((d.core c).sr rd.toNat).toNat) = (.ok (), e)) :
    d.st c g rd ra spc imm = e.retire c 8 := by
  rw [st]
  exact scalar_done h (by rw [smAddr] at hc hw; simp only [hc, hw])

/-- A result may be read off the core's record in the update itself. -/
theorem result_of_core (len : Nat) (f : Core → Word) :
    d.result c rd len (f (d.core c)) = (d.updCore c fun x => x.setSr rd.toNat (f x)).retire c len := rfl

/-- The tile store is 8 MiB (R32). -/
theorem coreRead_tileStore {k a n : Nat} (ha : a + n ≤ 0x800000) :
    d.coreRead c k 0 a n ue = (.ok ((d.core c).tsRead a n), d) := if_neg (by omega)

theorem coreWrite_tileStore {k a : Nat} {bs : List Byte} (ha : a + bs.length ≤ 0x800000) :
    d.coreWrite c k 0 a bs = (.ok (), d.tileWrite c a bs) := if_neg (by omega)

end Dev

theorem length_leBytes (n x : Nat) : (leBytes n x).length = n := by
  induction n generalizing x with
  | zero => rfl
  | succ n ih => exact congrArg (· + 1) (ih (x / 256))

theorem completes_ld (s : State) (c : CoreNo) (g : Guard) (rd ra : BitVec 5) (spc : BitVec 2) (imm : BitVec 37) (ue : Bool) :
    Completes (.ld c g rd ra spc imm ue) s (s.dev.ld c g rd ra spc imm ue) := rfl
theorem completes_st (s : State) (c : CoreNo) (g : Guard) (rd ra : BitVec 5) (spc : BitVec 2) (imm : BitVec 37) :
    Completes (.st c g rd ra spc imm) s (s.dev.st c g rd ra spc imm) := rfl

open Dev in
/-- Settles O13: each access by what its check answers, and for the tile store by the access within its 8 MiB. -/
theorem scalarLoadsAndStores : Obligations.ScalarLoadsAndStores := by
  intro s c g rd ra spc imm ue h a
  have hld := completes_ld s c g rd ra spc imm ue
  have hst := completes_st s c g rd ra spc imm
  have hn (hs : spc ≠ 3) : spc.toNat ≠ 3 := fun e => hs (BitVec.eq_of_toNat_eq e)
  refine ⟨?space, fun hs ha => ?align, fun hs ha hlim => ?tileStore, fun b d hs ha hr => ?load, fun d hs ha hw => ?store⟩
  case space =>
    intro hs
    have hs3 : spc.toNat = 3 := congrArg BitVec.toNat hs
    exact ⟨hld.congr (ld_bad h (smCheck_space hs3 _)), hst.congr (st_bad h (smCheck_space hs3 _))⟩
  case align => exact ⟨hld.congr (ld_bad h (smCheck_align (hn hs) ha)), hst.congr (st_bad h (smCheck_align (hn hs) ha))⟩
  case tileStore =>
    subst hs
    have hc := smCheck_none (spc := (0 : BitVec 2).toNat) (by decide) ha
    exact ⟨hld.congr ((ld_ok h hc (coreRead_tileStore hlim)).trans
        (result_of_core 8 fun x => BitVec.ofNat 64 (leNat (x.tsRead a 8)))),
      hst.congr (st_ok h hc (coreWrite_tileStore (by rwa [length_leBytes])))⟩
  case load => exact hld.congr (ld_ok h (smCheck_none (hn hs) ha) hr)
  case store => exact hst.congr (st_ok h (smCheck_none (hn hs) ha) hw)

end Sys2Proof.Machine
end

section
/-!
Branches and hardware loops (R57, R58): each when it is taken, and what retiring an instruction does in a delay slot and at a
loop's end.
-/
namespace Sys2Proof.Machine

namespace Dev

variable {d e : Dev} {c op o : Nat} {g g' gw : Guard} {body : Dev → SRes}

theorem flow_jumped (h : TakesFlow d c g) (hb : body d = .jumped e) :
    d.scalar c g' (mkWord 0 false op gw o) 0 true body = e := by
  rw [scalar_takesFlow _ _ _ (wLong_mkWord_short 0 op gw o) h, hb]

theorem flow_fault {a : FArgs} (h : TakesFlow d c g) (hb : body d = .fault a e) :
    d.scalar c g' (mkWord 0 false op gw o) 0 true body = e.seqFault c (mkWord 0 false op gw o) 0 a := by
  rw [scalar_takesFlow _ _ _ (wLong_mkWord_short 0 op gw o) h, hb]

theorem guardOn_of_takesFlow (h : TakesFlow d c g) : d.guardOn c g = true := by
  obtain ⟨-, -, hguard, -⟩ := h
  exact hguard

/-- A taken branch to t stands before its delay slot (R57). -/
def beforeSlot (x : Core) (t : BitVec 48) : Core := { x with slot := some ⟨x.pc, some t⟩, pc := x.pc + 8 }

theorem branch_taken (hs : (d.core c).skipSlot = none) (t : BitVec 48) :
    d.branch c true t = d.updCore c fun x => beforeSlot x t := by
  simp only [branch, updCore]
  split
  · rfl
  · next n hn => rw [hs] at hn; cases hn

theorem jump_unlinked (h : TakesFlow d c g) (hs : (d.core c).skipSlot = none) (long : Bool) (target : Core → BitVec 48) :
    d.jump op c g o none long target = d.updCore c fun x => beforeSlot x (target x) := by
  rw [jump]
  refine flow_jumped h ?_
  dsimp only
  rw [guardOn_of_takesFlow h, branch_taken hs]
  rfl

theorem jump_linked (h : TakesFlow d c g) (hs : (d.core c).skipSlot = none) (rd : BitVec 5) (long : Bool)
    (target : Core → BitVec 48) :
    d.jump op c g o (some rd) long target =
      (d.updCore c fun x => x.setSr rd.toNat (retAddr x.pc long)).updCore c fun x => beforeSlot x (target (d.core c)) := by
  rw [jump]
  refine flow_jumped h ?_
  simp only [guardOn_of_takesFlow h, if_true]
  rw [branch_taken (by rw [core_updCore_same]; exact hs)]

theorem core_jump_linked (h : TakesFlow d c g) (hs : (d.core c).skipSlot = none) (rd : BitVec 5) (long : Bool)
    (target : Core → BitVec 48) :
    (d.jump op c g o (some rd) long target).core c =
      beforeSlot ((d.core c).setSr rd.toNat (retAddr (d.core c).pc long)) (target (d.core c)) := by
  rw [jump_linked h hs, core_updCore_same, core_updCore_same]

/-- blr to the register that it links is ILLEGAL (R57). -/
theorem blr_same (h : TakesFlow d c g) (rd : BitVec 5) (long : Bool) :
    d.blr c g rd rd long = d.seqFault c (mkWord 0 false 0x43 g (opSB rd rd 0)) 0 { cause := cILLEGAL } := by
  rw [blr, if_pos rfl]
  exact flow_fault h rfl

theorem blr_linked {rd ra : BitVec 5} (hr : rd ≠ ra) (long : Bool) (d : Dev) :
    d.blr c g rd ra long = d.jump 0x43 c g (opSB rd ra 0) (some rd) long fun x => (x.sr ra.toNat).setWidth 48 := if_neg hr

/-! Retiring the delay slot, and the last instruction of a loop's body. -/

theorem retire_slot_taken {b t : BitVec 48} (hs : (d.core c).slot = some ⟨b, some t⟩) (len : Nat) :
    (d.retire c len).core c = { d.core c with pc := t, slot := none, loops := leaveLoops t (d.core c).loops } := by
  simp only [retire, core_updCore_same, hs]

theorem retire_slot_untaken {b : BitVec 48} (hs : (d.core c).slot = some ⟨b, none⟩) (len : Nat) :
    (d.retire c len).core c = { d.core c with pc := (d.core c).pc + BitVec.ofNat 48 len, slot := none } := by
  simp only [retire, core_updCore_same, hs]

variable {l : LoopAct} {r : List LoopAct}

theorem retire_loop_again (hs : (d.core c).slot = none) (hl : (d.core c).loops = l :: r) (he : l.last = (d.core c).pc)
    (hn : (d.core c).lcr l.lc ≠ 1) (len : Nat) :
    (d.retire c len).core c = { (d.core c).setLc l.lc ((d.core c).lcr l.lc - 1) with pc := l.first } := by
  simp only [retire, core_updCore_same, hs, hl, he, if_true]
  rw [if_pos (fun h => hn (sub_eq_zero.mp h))]

theorem retire_loop_last (hs : (d.core c).slot = none) (hl : (d.core c).loops = l :: r) (he : l.last = (d.core c).pc)
    (hn : (d.core c).lcr l.lc = 1) (len : Nat) :
    (d.retire c len).core c = { (d.core c).setLc l.lc 0 with pc := (d.core c).pc + BitVec.ofNat 48 len, loops := r } := by
  simp only [retire, core_updCore_same, hs, hl, he, if_true, hn, sub_self, ne_eq, not_true_eq_false, if_false]

/-! The loop instruction. -/

/-- The count of a loop instruction, and the address of its body's last instruction (R58). -/
def loopCount (x : Core) : LoopCnt → Word
  | .reg ra => x.sr ra.toNat
  | .imm k => k.setWidth 64
def loopEnd (x : Core) (e : BitVec 25) : BitVec 48 := x.pc + BitVec.ofNat 48 (8 * e.toNat)

/-- A body that does not end before the enclosing one's (R58). -/
def loopCrosses (x : Core) (last : BitVec 48) : Bool :=
  match x.loops with
  | l :: _ => decide (l.last ≤ last)
  | [] => false

theorem loopCrosses_cons {x : Core} (hl : x.loops = l :: r) (last : BitVec 48) : loopCrosses x last = decide (l.last ≤ last) := by
  rw [loopCrosses, hl]

theorem loopCrosses_inside {x : Core} {last : BitVec 48} (h : ∀ l r, x.loops = l :: r → last < l.last) :
    loopCrosses x last = false := by
  unfold loopCrosses
  split
  · next l r hl => exact decide_eq_false (BitVec.not_le.mpr (h l r hl))
  · rfl

variable {lc : BitVec 2} {n : LoopCnt} {e : BitVec 25} {long : Bool}

theorem loop_depth (h : TakesFlow d c g) (hd : 4 ≤ (d.core c).loops.length) :
    d.loop c g lc n e long = d.seqFault c (mkWord 0 false 0x48 g (opSL lc n e)) 0 { cause := cLOOPDEPTH } := by
  rw [loop]
  exact flow_fault h (by simp only [guardOn_of_takesFlow h, not_true_eq_false, if_false, ge_iff_le, hd, if_true])

theorem loop_form (h : TakesFlow d c g) (hd : (d.core c).loops.length < 4)
    (hc : loopCrosses (d.core c) (loopEnd (d.core c) e) = true) :
    d.loop c g lc n e long = d.seqFault c (mkWord 0 false 0x48 g (opSL lc n e)) 0 { cause := cLOOPFORM } := by
  rw [loop]
  refine flow_fault h ?_
  simp only [guardOn_of_takesFlow h, not_true_eq_false, if_false, ge_iff_le, Nat.not_le.mpr hd]
  exact if_pos hc

/-- A loop instruction whose body is well placed loads its counter; a count of zero skips the body (R58). -/
theorem loop_core (h : TakesFlow d c g) (hd : (d.core c).loops.length < 4)
    (hc : loopCrosses (d.core c) (loopEnd (d.core c) e) = false) :
    (d.loop c g lc n e long).core c =
      let x := (d.core c).setLc lc.toNat (loopCount (d.core c) n)
      if loopCount (d.core c) n = 0 then { x with pc := loopEnd (d.core c) e + (if long then 16 else 8) }
      else { x with loops := ⟨lc.toNat, x.pc + 8, loopEnd (d.core c) e⟩ :: x.loops, pc := x.pc + 8 } := by
  have hloop : d.loop c g lc n e long =
      let d' := d.updCore c fun x => x.setLc lc.toNat (loopCount (d.core c) n)
      if loopCount (d.core c) n = 0 then d'.updCore c fun x => { x with pc := loopEnd (d.core c) e + (if long then 16 else 8) }
      else d'.updCore c fun x => { x with loops := ⟨lc.toNat, x.pc + 8, loopEnd (d.core c) e⟩ :: x.loops, pc := x.pc + 8 } := by
    rw [loop]
    refine flow_jumped h ?_
    simp only [guardOn_of_takesFlow h, not_true_eq_false, if_false, ge_iff_le, Nat.not_le.mpr hd]
    refine (if_neg (fun hx => Bool.false_ne_true (hc.symm.trans hx))).trans ?_
    cases n <;> exact (apply_ite SRes.jumped _ _ _).symm
  rw [hloop]
  dsimp only
  split <;> simp only [core_updCore_same]

theorem mflc_takes (h : Takes d c g) (rd : BitVec 5) :
    d.mflc c g rd lc = (d.updCore c fun x => x.setSr rd.toNat (x.lcr lc.toNat)).retire c 8 := scalar_done h rfl

theorem mtlc_takes (h : Takes d c g) (ra : BitVec 5) :
    d.mtlc c g lc ra = (d.updCore c fun x => x.setLc lc.toNat (x.sr ra.toNat)).retire c 8 := scalar_done h rfl

end Dev

theorem completes_b (s : State) (c : CoreNo) (g : Guard) (off : BitVec 39) : Completes (.b c g off) s (s.dev.b c g off) := rfl
theorem completes_br (s : State) (c : CoreNo) (g : Guard) (ra : BitVec 5) : Completes (.br c g ra) s (s.dev.br c g ra) := rfl
theorem completes_bl (s : State) (c : CoreNo) (g : Guard) (rd : BitVec 5) (off : BitVec 39) (long : Bool) :
    Completes (.bl c g rd off long) s (s.dev.bl c g rd off long) := rfl
theorem completes_blr (s : State) (c : CoreNo) (g : Guard) (rd ra : BitVec 5) (long : Bool) :
    Completes (.blr c g rd ra long) s (s.dev.blr c g rd ra long) := rfl
theorem completes_loop (s : State) (c : CoreNo) (g : Guard) (lc : BitVec 2) (n : LoopCnt) (e : BitVec 25) (long : Bool) :
    Completes (.loop c g lc n e long) s (s.dev.loop c g lc n e long) := rfl
theorem completes_mflc (s : State) (c : CoreNo) (g : Guard) (rd : BitVec 5) (lc : BitVec 2) :
    Completes (.mflc c g rd lc) s (s.dev.mflc c g rd lc) := rfl
theorem completes_mtlc (s : State) (c : CoreNo) (g : Guard) (lc : BitVec 2) (ra : BitVec 5) :
    Completes (.mtlc c g lc ra) s (s.dev.mtlc c g lc ra) := rfl

open Dev in
/-- Settles O14: the jumps from one lemma with a link and one without, and a lemma per outcome of loop and of retirement. -/
theorem branchesAndLoops : Obligations.BranchesAndLoops := by
  refine ⟨fun s c g rd ra off long h hs => ⟨?b, ?br, ?bl, fun hr => ?blr, ?blrSame, fun d b t hd => ?taken, fun d b hd => ?untaken⟩,
    fun s c g rd ra lc n e long => ⟨fun h => ⟨fun hd => ?depth, fun l r hl hr he => ?form, fun hd hin => ?body⟩,
      fun h => ⟨?mflc, ?mtlc⟩, fun l r hslot hl he => ⟨fun hn => ?again, fun hn => ?last⟩⟩⟩
  case b => exact (completes_b s c g off).congr (jump_unlinked h hs false fun x => relTarget x.pc off)
  case br => exact (completes_br s c g ra).congr (jump_unlinked h hs false fun x => (x.sr ra.toNat).setWidth 48)
  case bl => exact ⟨_, completes_bl s c g rd off long, core_jump_linked h hs rd long fun x => relTarget x.pc off⟩
  case blr =>
    refine ⟨_, completes_blr s c g rd ra long, ?_⟩
    rw [blr_linked hr]
    exact core_jump_linked h hs rd long _
  case blrSame => exact (completes_blr s c g rd rd long).congr (blr_same h rd long)
  case taken => rw [retire_slot_taken hd]; exact ⟨rfl, rfl⟩
  case untaken => rw [retire_slot_untaken hd]; exact ⟨rfl, rfl⟩
  case depth => exact (completes_loop s c g lc n e long).congr (loop_depth h hd)
  case form =>
    refine (completes_loop s c g lc n e long).congr (loop_form h (by rw [hl, List.length_cons]; omega) ?_)
    rw [loopCrosses_cons hl]
    exact decide_eq_true he
  case body =>
    have hcore := loop_core (lc := lc) (n := n) (long := long) h hd (loopCrosses_inside hin)
    refine ⟨fun h0 => ⟨_, completes_loop s c g lc n e long, ?_⟩, fun h0 => ⟨_, completes_loop s c g lc n e long, ?_⟩⟩
    · have h0' : loopCount (s.dev.core c) n = 0 := by cases n <;> exact h0
      rw [hcore, h0']
      rfl
    · have h0' : loopCount (s.dev.core c) n ≠ 0 := by cases n <;> exact h0
      simp only [hcore, if_neg h0']
      cases n <;> rfl
  case mflc => exact (completes_mflc s c g rd lc).congr (mflc_takes h rd)
  case mtlc => exact (completes_mtlc s c g lc ra).congr (mtlc_takes h ra)
  case again => exact retire_loop_again hslot hl he hn 8
  case last => exact retire_loop_last hslot hl he hn 8

end Sys2Proof.Machine
end

section
/-!
Flag updates and tests (R151 to R158): what each synchronisation instruction comes to, and the test that an update frees.
-/
namespace Sys2Proof.Machine

theorem flagOp_set (f v : Nat) : flagOp 0 f v = v := rfl
theorem flagOp_one (f v : Nat) : flagOp 1 f v = (f + v) % 2 ^ 64 := by simp only [flagOp]
theorem flagOp_two (f v : Nat) : flagOp 2 f v = (f + 2 ^ 64 - v) % 2 ^ 64 := by simp only [flagOp]

theorem flagOp_add (f v : Word) : flagOp 1 f.toNat v.toNat = (f + v).toNat := by
  rw [flagOp_one, BitVec.toNat_add]

theorem flagOp_sub (f v : Word) : flagOp 2 f.toNat v.toNat = (f - v).toNat := by
  have hf := f.isLt
  have hv := v.isLt
  rw [flagOp_two, BitVec.toNat_sub]
  omega

/-- A flag's new value fits its 64 bits. -/
theorem flagOp_lt {u : Nat} (hu : u < 2 ^ 64) (sop f : Nat) : flagOp sop f u < 2 ^ 64 := by
  match sop with
  | 0 => exact hu
  | 1 => rw [flagOp_one]; exact Nat.mod_lt _ (Nat.two_pow_pos 64)
  | n + 2 =>
    have hs : flagOp (n + 2) f u = (f + 2 ^ 64 - u) % 2 ^ 64 := by simp only [flagOp]
    rw [hs]
    exact Nat.mod_lt _ (Nat.two_pow_pos 64)

/-- Engines 0 to 3 have each their own place. -/
theorem Core.eng_setEng_ne (x : Core) {k m : Nat} (hk : k < 4) (hm : m < 4) (h : m ≠ k) (g : Eng) : (x.setEng k g).eng m = x.eng m := by
  match k, m, hk, hm with
  | 0, 1, _, _ | 0, 2, _, _ | 0, 3, _, _ | 1, 0, _, _ | 1, 2, _, _ | 1, 3, _, _ | 2, 0, _, _ | 2, 1, _, _ | 2, 3, _, _
  | 3, 0, _, _ | 3, 1, _, _ | 3, 2, _, _ => rfl
  | 0, 0, _, _ | 1, 1, _, _ | 2, 2, _, _ | 3, 3, _, _ => exact absurd rfl h

namespace Dev

variable {d e : Dev} {c op k : Nat} {g : Guard} {y : SyF} {o : SyOp} {q : QEntry} {f : Nat → SyOp → Word → Dev → SyRes}

/-! An update of an engine's record. -/

theorem eng_updEng_same (d : Dev) (c : Nat) (hk : k < 4) (f : Eng → Eng) : (d.updEng c k f).eng c k = f (d.eng c k) := by
  simp only [eng, updEng, core_updCore_same, Core.eng_setEng_same _ hk]

theorem eng_updEng_ne (d : Dev) (c : Nat) {m : Nat} (hk : k < 4) (hm : m < 4) (h : m ≠ k) (f : Eng → Eng) :
    (d.updEng c k f).eng c m = d.eng c m := by
  simp only [eng, updEng, core_updCore_same, Core.eng_setEng_ne _ hk hm h]

/-! The operands, and what the instruction comes to by what its operation answers (R53, R62). -/

/-- The operands of the sequencer's instruction, and of the instruction at the head of an engine's queue. -/
def seqOperands (d : Dev) (c : Nat) (y : SyF) : SyOp :=
  ⟨y.flag.toNat, y.sop.toNat, y.rem, (d.core c).sr y.ra.toNat, (d.core c).sr y.rb.toNat⟩
def headOperands (q : QEntry) : SyOp := ⟨wF q.word 48 41, wF q.word 40 38, wF q.word 32 32 = 1, q.ra, q.rb⟩

theorem headOperands_local (hr : wF q.word 32 32 = 0) : (headOperands q).rem = false := by
  simp only [headOperands, hr]
  rfl

theorem syncOp_seq_done (h : Takes d c g) (hf : f 0 (d.seqOperands c y) (mkWord 0 false op g (opSY y)) d = .done e) :
    d.syncOp op c (.seq g y) f = e.retire c 8 := by
  rw [seqOperands] at hf
  rw [syncOp]
  exact scalar_done h (by simp only [hf])

theorem syncOp_seq_fault {a : FArgs} (h : Takes d c g)
    (hf : f 0 (d.seqOperands c y) (mkWord 0 false op g (opSY y)) d = .fault a) :
    d.syncOp op c (.seq g y) f = d.seqFault c (mkWord 0 false op g (opSY y)) 0 a := by
  rw [seqOperands] at hf
  rw [syncOp]
  exact scalar_fault h (by simp only [hf])

theorem syncOp_seq_own (h : Takes d c g) (hf : f 0 (d.seqOperands c y) (mkWord 0 false op g (opSY y)) d = .own e) :
    d.syncOp op c (.seq g y) f = e := by
  rw [seqOperands] at hf
  rw [syncOp]
  exact scalar_jumped h (by simp only [hf])

theorem syncOp_eng_done {m : Fin 3} (h : Executes d c (m + 1) op q) (hf : f (m + 1) (headOperands q) q.word d = .done e) :
    d.syncOp op c (.eng m) f = e.engDone c (m + 1) false := by
  rw [headOperands] at hf
  simp only [syncOp, onHead_executes _ h, hf]

theorem syncOp_eng_own {m : Fin 3} (h : Executes d c (m + 1) op q) (hf : f (m + 1) (headOperands q) q.word d = .own e) :
    d.syncOp op c (.eng m) f = e := by
  rw [headOperands] at hf
  simp only [syncOp, onHead_executes _ h, hf]

/-! The operations (R152, R156). -/

theorem signalOp_local (hr : o.rem = false) (hs : o.sop ≤ 2) :
    d.signalOp c k o = .done (d.flagUpdate c o.flag o.sop o.v.toNat) := by
  rw [signalOp, if_neg (by omega), if_pos (by simp [hr])]

theorem signalOp_bad (hs : 2 < o.sop) : d.signalOp c k o = .fault { cause := cOPERAND } := if_pos hs

theorem releaseOp_local (hr : o.rem = false) (hs : o.sop ≤ 2) :
    d.releaseOp c k o = .own (d.updEng c k fun g => { g with releasing := some ⟨o.flag, o.sop, o.v, none⟩ }) := by
  rw [releaseOp, if_neg (by simp [hr]; omega), if_neg (by simp [hr])]

theorem testOp_bad {w : Word} (h : o.rem = true ∨ 3 < o.sop) : d.testOp c k o w = .fault { cause := cOPERAND } := if_pos h

theorem testOp_seq {w : Word} (hr : o.rem = false) (hs : o.sop ≤ 3) :
    d.testOp c 0 o w = .own ((d.updCore c fun x => { x with stallWord := w }).startTest c 0 ⟨o.flag, o.sop, o.v⟩) := by
  rw [testOp, if_neg (by simp [hr]; omega), if_pos rfl]

theorem testOp_eng {w : Word} (hr : o.rem = false) (hs : o.sop ≤ 3) (hk : k ≠ 0) :
    d.testOp c k o w = .own (d.startTest c k ⟨o.flag, o.sop, o.v⟩) := by
  rw [testOp, if_neg (by simp [hr]; omega), if_neg hk]

/-! Tests (R156). -/

variable {t : TestWait}

theorem startTest_true (ht : flagTest t.sop (d.flagVal c t.flag) t.v.toNat = true) : d.startTest c k t = d.testDone c k t := if_pos ht

theorem startTest_false (ht : flagTest t.sop (d.flagVal c t.flag) t.v.toNat = false) :
    d.startTest c k t = d.updEng c k fun g => { g with wait := some t } := if_neg (by simp [ht])

theorem testDone_seq (hs : t.sop ≠ 3) : d.testDone c 0 t = (d.updEng c 0 fun g => { g with wait := none }).retire c 8 := by
  simp only [testDone, if_neg hs, if_true]

/-- The subtracting test lowers its flag (R156). -/
theorem testDone_seq_sub (hs : t.sop = 3) :
    d.testDone c 0 t = ((d.wr (Reg.SY_FLAG_VALUE c t.flag) ((d.flagVal c t.flag + 2 ^ 64 - t.v.toNat) % 2 ^ 64)).updEng c 0
      fun g => { g with wait := none }).retire c 8 := by
  simp only [testDone, if_pos hs, if_true, flagOp_two]

theorem testDone_eng (hs : t.sop ≠ 3) (hk : k ≠ 0) :
    d.testDone c k t = (d.updEng c k fun g => { g with wait := none }).engDone c k false := by
  simp only [testDone, if_neg hs, if_neg hk]

/-! The tests that an update frees (R151, R156, R157). -/

/-- Engine k's turn when the tests on flag n are granted. -/
def grantOne (c n : Nat) (d : Dev) (k : Nat) : Dev :=
  match (d.eng c k).wait with
  | some t =>
    if t.flag = n ∧ flagTest t.sop (d.flagVal c n) t.v.toNat ∧ ¬ (d.eng c k).stopped ∧ ¬ d.stopAsked c
        ∧ ¬ (k ≠ 0 ∧ d.valid c k) then
      d.testDone c k t else d
  | none => d

theorem grantTests_eq_foldl (d : Dev) (c n : Nat) : d.grantTests c n = [0, 1, 2, 3].foldl (grantOne c n) d := rfl

theorem grantOne_none (n : Nat) (h : (d.eng c k).wait = none) : grantOne c n d k = d := by
  simp only [grantOne, h]

/-- Where one engine alone waits, granting in engine order is that engine's turn. -/
theorem grantTests_of_one (n : Nat) (hk : k < 4) (hne : ∀ m, m < 4 → m ≠ k → (d.eng c m).wait = none)
    (hne' : ∀ m, m < 4 → m ≠ k → ((grantOne c n d k).eng c m).wait = none) : d.grantTests c n = grantOne c n d k := by
  rw [grantTests_eq_foldl]
  match k, hk with
  | 0, _ => simp [grantOne_none, hne']
  | 1, _ => simp [grantOne_none, hne, hne']
  | 2, _ => simp [grantOne_none, hne, hne']
  | 3, _ => simp [grantOne_none, hne]

/-- A flag and an exception record have different places. -/
theorem key_flag_ne_valid (c n : Nat) {k : Nat} (hk : k < 4) : (Reg.EXR_CAUSE_VALID c k).key ≠ (Reg.SY_FLAG_VALUE c n).key := by
  simp only [Fld.key, Reg.EXR_CAUSE_VALID, Reg.SY_FLAG_VALUE, Reg.EXR_CAUSE, Reg.SY_FLAG]
  omega

/-- An update that makes an engine's test true completes the engine's instruction. -/
theorem flagUpdate_frees (hk0 : k ≠ 0) (hk : k < 4) (hsop : t.sop ≠ 3) (hw : (d.eng c k).wait = some t)
    (hstop : (d.eng c k).stopped = false) (hask : d.stopAsked c = false) (hval : d.valid c k = false)
    (hne : ∀ m, m < 4 → m ≠ k → (d.eng c m).wait = none) {sop u : Nat} (hu : u < 2 ^ 64)
    (ht : flagTest t.sop (flagOp sop (d.flagVal c t.flag) u) t.v.toNat = true) :
    d.flagUpdate c t.flag sop u =
      ((d.wr (Reg.SY_FLAG_VALUE c t.flag) (flagOp sop (d.flagVal c t.flag) u)).updEng c k fun g => { g with wait := none }).engDone c k
        false := by
  rw [flagUpdate]
  generalize hd' : d.wr (Reg.SY_FLAG_VALUE c t.flag) (flagOp sop (d.flagVal c t.flag) u) = d'
  have heng (m : Nat) : d'.eng c m = d.eng c m := by rw [← hd']; rfl
  have hflag : d'.flagVal c t.flag = flagOp sop (d.flagVal c t.flag) u := by
    rw [← hd', flagVal, rd_wr_same]
    exact Nat.mod_eq_of_lt (flagOp_lt hu _ _)
  have hask' : d'.stopAsked c = false := by rw [← hd']; exact hask
  have hval' : d'.valid c k = false := by
    rw [← hd', valid, flag, rd_wr_ne _ _ _ _ (key_flag_ne_valid c t.flag hk)]
    exact hval
  have hone : grantOne c t.flag d' k = d'.testDone c k t := by
    rw [grantOne, heng, hw]
    exact if_pos ⟨rfl, by rw [hflag]; exact ht, by simp [hstop], by simp [hask'], by simp [hval']⟩
  rw [grantTests_of_one t.flag hk (fun m hm h => by rw [heng]; exact hne m hm h) (fun m hm h => ?_), hone, testDone_eng hsop hk0]
  rw [hone, testDone_eng hsop hk0, engDone, eng_updEng_ne _ _ hk hm h, eng_updEng_ne _ _ hk hm h, heng]
  exact hne m hm h

/-! RELEASE_PERFORM and FLAG. -/

theorem releasePerform_local {n sop : Nat} {v : Word} (hr : (d.eng c 0).releasing = some ⟨n, sop, v, none⟩)
    (hq : (d.eng c 0).remote = []) :
    d.releasePerform c 0 = ((d.flagUpdate c n sop v.toNat).updEng c 0 fun g => { g with releasing := none }).retire c 8 := by
  simp [releasePerform, hr, hq]

/-- A local release waits for every remote write of its engine (R152). -/
theorem releasePerform_waits {r : FlagRel} (hr : (d.eng c k).releasing = some r) (hl : r.remote = none)
    (hq : (d.eng c k).remote ≠ []) : d.releasePerform c k = d := by
  simp only [releasePerform, hr, hl, Option.bind_none]
  exact if_pos (by simpa [List.any_eq_true, List.eq_nil_iff_forall_not_mem] using hq)

theorem flagNoc_cons {m n sop v : Nat} {l : List (Nat × Nat × Nat × Nat)} (h : d.nocFlags = (m, n, sop, v) :: l) :
    d.flagNoc = ({ d with nocFlags := l }).flagUpdate m n sop v := by
  simp only [flagNoc, h]

theorem flagPacket_home {m : Nat} {p : Nat} {b : List Byte} (h : d.deviceNo p (byteField b 0 1) = some m) :
    d.flagPacket p b = d.flagUpdate m (byteField b 1 1) (byteField b 2 1) (byteField b 8 8) := by
  simp only [flagPacket, h]

/-! A sequenced packet that is the next of its context (R246). -/

theorem ctx_updCtx_same (d : Dev) (k : Nat) (f : Ctx → Ctx) : (d.updCtx k f).ctx k = f (d.ctx k) := tabGet_tabPut_same _ _ _ _

/-- With one number received B moves just past it. -/
theorem advanceB_next (b n : Nat) : advanceB (n + 2) b [b] = (b + 1) % 2 ^ 32 := by
  have hne : (b + 1) % 2 ^ 32 ≠ b := by omega
  simp only [advanceB, List.contains_cons, List.contains_nil, Bool.or_false, beq_self_eq_true, if_true, beq_iff_eq, hne, if_false]

theorem below_next {b : Nat} (hb : b < 2 ^ 32) : below ((b + 1) % 2 ^ 32) b = true := by
  rw [below, seqDist, decide_eq_true_eq]
  omega

variable {p : Pkt} {ue : Bool}

theorem pktTaken_ctx (h : NextPkt d p) :
    ((pktTaken p d).ctx p.dctx).b = (p.seq + 1) % 2 ^ 32 ∧ ((pktTaken p d).ctx p.dctx).held = [] ∧
      ((pktTaken p d).ctx p.dctx).part = (d.ctx p.dctx).part := by
  obtain ⟨-, -, -, -, hb, htaken, hheld, -⟩ := h
  rw [pktTaken, markTaken, ctx_updCtx_same, notePartial, ctx_updCtx_same]
  refine ⟨?_, hheld, rfl⟩
  change advanceB 256 (d.ctx p.dctx).b (p.seq :: (d.ctx p.dctx).taken) = _
  rw [hb, htaken, advanceB_next _ 254]

/-- The next packet, flagged, is taken and applied at once. -/
theorem takePkt_next_flagged (h : NextPkt d p) (hf : p.flg = true) :
    d.takePkt p ue = (pktTaken p d).applyFlagged p.dctx p ue := by
  obtain ⟨hbnext, hheld', -⟩ := pktTaken_ctx h
  obtain ⟨hopen, hfrom, hgcm, hseq, hb, htaken, -, hdead⟩ := h
  have hopened : (d.unqueue p).openPkt p.dctx p = some p := if_pos (.inl (by
    change ¬ (d.ctx p.dctx).gcm = true
    simp [hgcm]))
  have hdist : seqDist (d.ctx p.dctx).b p.seq = 0 := by
    rw [hb, seqDist]
    omega
  have hctx : (d.unqueue p).ctx p.dctx = d.ctx p.dctx := rfl
  have hlate : (d.unqueue p).pastDeadline p.deadline = false := hdead
  rw [takePkt]
  simp only [hctx, hopen, hfrom, hopened, hdist, htaken, hlate, hf, ne_eq, not_true_eq_false, or_self, if_false, if_true,
    List.contains_nil, Bool.false_eq_true, not_false_eq_true, and_true, Nat.reduceLT]
  exact if_pos ⟨by rw [← pktTaken, hbnext]; exact below_next hseq, hheld'⟩

theorem applyPkt_flag (ht : p.ptype = ptFLAG) (m : Nat) (d : Dev) : d.applyPkt m p ue = d.flagPacket (d.ctx m).part p.payload := by
  unfold applyPkt
  rw [ht]
  rfl

/-- A FLAG packet that is the next of its context updates the flag at its home and is acknowledged (R158, R247). -/
theorem streamFlag_next {m : Nat} (ht : p.ptype = ptFLAG) (hf : p.flg = true) (h : NextPkt d p)
    (hm : d.deviceNo (d.ctx p.dctx).part (byteField p.payload 0 1) = some m) :
    d.streamFlag p = (((pktTaken p d).flagUpdate m (byteField p.payload 1 1) (byteField p.payload 2 1)
      (byteField p.payload 8 8)).sendAck p.dctx).watch := by
  obtain ⟨-, -, hpart⟩ := pktTaken_ctx h
  have hlate : (pktTaken p d).pastDeadline p.deadline = false := by
    obtain ⟨-, -, -, -, -, -, -, hdead⟩ := h
    exact hdead
  rw [streamFlag, flagPkt, onType, if_pos ht, takePkt_next_flagged h hf, applyFlagged, if_neg (by simp [hlate]), applyPkt_flag ht,
    hpart, flagPacket_home]
  exact hm

end Dev

theorem completes_signal (s : State) (c : CoreNo) (a : SyncAt) : Completes (.signal c a) s (s.dev.signal c a).watch := rfl
theorem completes_release (s : State) (c : CoreNo) (a : SyncAt) : Completes (.release c a) s (s.dev.release c a) := rfl
theorem completes_releasePerform (s : State) (c : CoreNo) (e : Fin 4) :
    Completes (.releasePerform c e) s (s.dev.releasePerform c e).watch := rfl
theorem completes_flagNoc (s : State) : Completes (.flag none) s s.dev.flagNoc.watch := rfl
theorem completes_flagPacket (s : State) (p : Pkt) : Completes (.flag (some p)) s (s.dev.streamFlag p) := rfl

/-- wait and acquire are one test under two opcodes (R153, R154). -/
theorem completes_test (s : State) (c : CoreNo) (acq : Bool) (a : SyncAt) :
    Completes (if acq then .acquire c a else .wait c a) s
      (s.dev.syncOp (if acq then 0x73 else 0x71) c a fun e o w d => d.testOp c e o w) := by
  cases acq <;> rfl

open Dev in
/-- Settles O27: what each operation answers, the sequencer's and the engines' issue of it once, and the test that an update frees. -/
theorem flagsAndTheirTests : Obligations.FlagsAndTheirTests := by
  refine ⟨fun s c g y e q => ⟨fun h hr hs => ?signalSeq, fun h hs => ?signalBad, fun h hr hs => ?signalEng, fun h hr hs => ?releaseSeq,
      fun h hr hs => ?releaseEng, fun n sop v hr hq => ?perform, fun k r hr hl hq => ?performWaits, fun k n sop v l hl => ?noc,
      fun p k ht hf h hk => ?packet, fun n v => rfl, fun f v => ⟨flagOp_set _ _, flagOp_add f v, flagOp_sub f v⟩⟩,
    fun s c g y q acq => ⟨fun h hr hs ht => ?testTrue, fun h hr hs ht => ?testSub, fun h hr hs ht => ?testFalse,
      fun h hbad => ?testBad, fun e h hr hs ht => ?testEng, fun d e t he0 he hs hw hstop hask hval hne sop u hu ht => ?freed⟩⟩
  case signalSeq =>
    exact (completes_signal s c _).congr (congrArg watch (syncOp_seq_done h (signalOp_local (o := s.dev.seqOperands c y) hr hs)))
  case signalBad => exact (completes_signal s c _).congr (congrArg watch (syncOp_seq_fault h (signalOp_bad hs)))
  case signalEng =>
    exact (completes_signal s c _).congr (congrArg watch (syncOp_eng_done h (signalOp_local (headOperands_local hr) hs)))
  case releaseSeq =>
    exact (completes_release s c _).congr (syncOp_seq_own h (releaseOp_local (o := s.dev.seqOperands c y) hr hs))
  case releaseEng => exact (completes_release s c _).congr (syncOp_eng_own h (releaseOp_local (headOperands_local hr) hs))
  case perform => exact (completes_releasePerform s c 0).congr (congrArg watch (releasePerform_local hr hq))
  case performWaits => exact (completes_releasePerform s c k).congr (congrArg watch (releasePerform_waits hr hl hq))
  case noc => exact (completes_flagNoc s).congr (congrArg watch (flagNoc_cons hl))
  case packet => exact (completes_flagPacket s p).congr (streamFlag_next ht hf h hk)
  case testTrue =>
    exact (completes_test s c acq _).congr ((syncOp_seq_own h (testOp_seq hr (hs.trans (by decide)))).trans
      ((startTest_true ht).trans (testDone_seq (Nat.ne_of_lt (Nat.lt_succ_of_le hs)))))
  case testSub =>
    have hs3 : y.sop.toNat = 3 := congrArg BitVec.toNat hs
    have htest : flagTest y.sop.toNat (s.dev.flagVal c y.flag.toNat) ((s.dev.core c).sr y.ra.toNat).toNat = true := by
      rw [hs3]
      exact decide_eq_true ht
    exact (completes_test s c acq _).congr ((syncOp_seq_own h (testOp_seq hr hs3.le)).trans
      ((startTest_true htest).trans (testDone_seq_sub hs3)))
  case testFalse =>
    exact (completes_test s c acq _).congr ((syncOp_seq_own h (testOp_seq hr hs)).trans (startTest_false ht))
  case testBad => exact (completes_test s c acq _).congr (syncOp_seq_fault h (testOp_bad hbad))
  case testEng =>
    exact (completes_test s c acq _).congr ((syncOp_eng_own h (testOp_eng (headOperands_local hr) (hs.trans (by decide)) (by omega))).trans
      ((startTest_true ht).trans (testDone_eng (Nat.ne_of_lt (Nat.lt_succ_of_le hs)) (by omega))))
  case freed =>
    rw [flagUpdate_frees (by omega) he (by omega) hw hstop hask hval hne hu ht, engDone, eng_updEng_same _ _ he,
      eng_updEng_same _ _ he]
    exact ⟨rfl, rfl⟩

end Sys2Proof.Machine
end

section
/-!
Lane operations (R60, R129 to R136): what writing the active lanes of a vector register does, and each instruction's lanes.
-/
namespace Sys2Proof.Machine

/-! Writing lanes. -/

/-- The lanes of `is` that are active, written in a core's vector register vd. -/
def Core.putLanes (x : Core) (vd : Nat) (act : Nat → Bool) (f : Nat → Lane) (is : List Nat) : Core :=
  is.foldl (fun y i => if act i then y.setLane vd i (f i) else y) x

/-- Two lanes are the same place only as the same lane of the same register. -/
theorem lane_place_inj {r r' i j : Nat} (hi : i < 128) (hj : j < 128) : r * 128 + i = r' * 128 + j ↔ r = r' ∧ i = j := by
  omega

theorem lane_setLane (x : Core) {r vd i j : Nat} (hi : i < 128) (hj : j < 128) (v : Lane) :
    (x.setLane vd i v).lane r j = if r = vd ∧ j = i then v else x.lane r j := by
  by_cases h : r = vd ∧ j = i
  · obtain ⟨rfl, rfl⟩ := h
    simp [lane_setLane_same]
  · rw [if_neg h, lane_setLane_ne _ _ _ _ _ _ fun e => h ((lane_place_inj hj hi).mp e)]

theorem Core.lane_putLanes (x : Core) (vd : Nat) (act : Nat → Bool) (f : Nat → Lane) {n : Nat} (hn : n ≤ 128) (r : Nat) {k : Nat}
    (hk : k < 128) :
    (x.putLanes vd act f (List.range n)).lane r k = if r = vd ∧ k < n ∧ act k = true then f k else x.lane r k := by
  induction n with
  | zero => simp [Core.putLanes]
  | succ n ih =>
    have ih := ih (by omega)
    have hstep : x.putLanes vd act f (List.range (n + 1)) =
        if act n then (x.putLanes vd act f (List.range n)).setLane vd n (f n) else x.putLanes vd act f (List.range n) := by
      rw [Core.putLanes, List.range_succ, List.foldl_append]
      rfl
    rw [hstep]
    by_cases hkn : k = n
    · subst hkn
      by_cases ha : act k = true <;> simp [ha, ih, lane_setLane _ hk hk]
    · have hlt : k < n + 1 ↔ k < n := by omega
      have hlane : (if act n then (x.putLanes vd act f (List.range n)).setLane vd n (f n)
          else x.putLanes vd act f (List.range n)).lane r k = (x.putLanes vd act f (List.range n)).lane r k := by
        split
        · rw [lane_setLane _ (by omega) hk, if_neg (fun h => hkn h.2)]
        · rfl
      simp only [hlane, ih, hlt]

/-- Only the vector registers change. -/
theorem Core.putLanes_frame (x : Core) (vd : Nat) (act : Nat → Bool) (f : Nat → Lane) (is : List Nat) :
    x.putLanes vd act f is = { x with vx := { x.vx with v := (x.putLanes vd act f is).vx.v } } :=
  foldl_keeps (fun y : Core => y = { x with vx := { x.vx with v := y.vx.v } }) _ is x rfl fun y i hy => by
    split
    · rw [Core.setLane, hy]
    · exact hy

/-! An engine's own record is apart from the units of its core. -/

@[simp] theorem Core.vx_setEng (x : Core) (e : Nat) (g : Eng) : (x.setEng e g).vx = x.vx := by unfold Core.setEng; split <;> rfl
@[simp] theorem Core.mx_setEng (x : Core) (e : Nat) (g : Eng) : (x.setEng e g).mx = x.mx := by unfold Core.setEng; split <;> rfl
@[simp] theorem Core.ts_setEng (x : Core) (e : Nat) (g : Eng) : (x.setEng e g).ts = x.ts := by unfold Core.setEng; split <;> rfl
@[simp] theorem Core.fifo_setEng (x : Core) (e : Nat) (g : Eng) (n : Nat) : (x.setEng e g).fifo n = x.fifo n := by
  unfold Core.setEng; split <;> rfl
@[simp] theorem Core.lane_setEng (x : Core) (e : Nat) (g : Eng) (r k : Nat) : (x.setEng e g).lane r k = x.lane r k := by
  rw [Core.lane, Core.vx_setEng, Core.lane]

/-! One lane of the operations that compare. -/

theorem laneCmp_lt_signed (a b : Lane) : laneCmp 2 1 a b = some (decide (a.toInt < b.toInt)) := by
  simp [laneCmp, laneInt]

theorem lane_min (t : Nat) (a b o : Lane) :
    VOp.min.lane t a b o =
      if t = 0 then fMin a b else if t = 1 then (if a.toInt ≤ b.toInt then a else b) else if a.toNat ≤ b.toNat then a else b := by
  simp only [VOp.lane, laneInt]
  by_cases h0 : t = 0
  · simp [h0]
  · by_cases h1 : t = 1
    · simp only [h1, if_true, ← not_le, ite_not]
    · simp only [h0, h1, if_false, ← not_le, ite_not, Nat.cast_le]

theorem lane_max (t : Nat) (a b o : Lane) :
    VOp.max.lane t a b o =
      if t = 0 then fMax a b else if t = 1 then (if a.toInt < b.toInt then b else a) else if a.toNat < b.toNat then b else a := by
  simp only [VOp.lane, laneInt]
  by_cases h0 : t = 0
  · simp [h0]
  · by_cases h1 : t = 1 <;> simp [h0, h1]

namespace Dev

variable {d : Dev} {c : Nat} {q : QEntry} {vd : Nat} {act : Nat → Bool} {f : Nat → Lane}

theorem core_putLanes (d : Dev) (c vd : Nat) (act : Nat → Bool) (f : Nat → Lane) :
    (d.putLanes c vd act f).core c = (d.core c).putLanes vd act f (List.range 128) := core_updCore_same _ _ _

/-- The active lanes take the values of `f`, and every other lane stays. -/
theorem lane_putLanes (d : Dev) (c vd : Nat) (act : Nat → Bool) (f : Nat → Lane) (r : Nat) {k : Nat} (hk : k < 128) :
    ((d.putLanes c vd act f).core c).lane r k = if r = vd ∧ act k = true then f k else (d.core c).lane r k := by
  simp only [core_putLanes, Core.lane_putLanes _ _ _ _ (le_refl _) r hk, hk, true_and]

theorem eng_putLanes (d : Dev) (c vd : Nat) (act : Nat → Bool) (f : Nat → Lane) (e : Nat) :
    (d.putLanes c vd act f).eng c e = d.eng c e := by
  rw [eng, core_putLanes, Core.putLanes_frame]
  rfl

/-! An instruction of an engine that is done. -/

theorem core_engDone (d : Dev) (c e : Nat) (b : Bool) :
    ∃ g, (d.engDone c e b).core c = (d.core c).setEng e g := ⟨_, core_updCore_same _ _ _⟩

theorem core_engDone_ne (d : Dev) {c k : Nat} (h : k ≠ c) (e : Nat) (b : Bool) : (d.engDone c e b).core k = d.core k :=
  core_updCore_ne _ _ _ _ h

theorem queue_engDone (d : Dev) (c : Nat) {e : Nat} (he : e < 4) (b : Bool) :
    ((d.engDone c e b).eng c e).queue = (d.eng c e).queue.tail := by
  rw [engDone, eng_updEng_same _ _ he]

@[simp] theorem lane_engDone (d : Dev) (c e : Nat) (b : Bool) (r k : Nat) :
    ((d.engDone c e b).core c).lane r k = (d.core c).lane r k := by
  obtain ⟨g, hg⟩ := core_engDone d c e b
  rw [hg, Core.lane_setEng]

/-! The instructions. -/

/-- Format V with a type that its operation takes (R60). -/
theorem vecOp_lanes {op : Nat} {bad : Nat → Bool} (h : Executes d c 2 op q) (ht : wF q.word 33 32 ≠ 3)
    (hb : bad (wF q.word 33 32) = false) (f : Nat → Lane → Lane → Lane → Lane) :
    d.vecOp op c bad f = (d.putLanes c (wF q.word 48 44) (actV d c q) fun k =>
      f (wF q.word 33 32) ((d.core c).lane (wF q.word 43 39) k) ((d.core c).lane (wF q.word 38 34) k)
        ((d.core c).lane (wF q.word 48 44) k)).engDone c 2 false := by
  rw [vecOp, onHead_executes _ h]
  exact if_neg (by simp [ht, hb])

theorem vecOp_bad {op : Nat} {bad : Nat → Bool} (h : Executes d c 2 op q) (hb : bad (wF q.word 33 32) = true)
    (f : Nat → Lane → Lane → Lane → Lane) : d.vecOp op c bad f = d.engFault c 2 { cause := cOPERAND } := by
  rw [vecOp, onHead_executes _ h]
  exact if_pos (.inr hb)

theorem vcmp_lanes (h : Executes d c 2 0x10 q) (ht : wF q.word 33 32 ≠ 3) (hc : wF q.word 25 23 ≤ 5) :
    d.vcmp c = (d.putLanes c (wF q.word 48 44) (actV d c q) fun k =>
      if laneCmp (wF q.word 25 23) (wF q.word 33 32) ((d.core c).lane (wF q.word 43 39) k) ((d.core c).lane (wF q.word 38 34) k)
        = some true then 1 else 0).engDone c 2 false := by
  rw [vcmp, onHead_executes _ h]
  exact if_neg (by omega)

theorem vcmp_bad (h : Executes d c 2 0x10 q) (hc : 5 < wF q.word 25 23) : d.vcmp c = d.engFault c 2 { cause := cOPERAND } := by
  rw [vcmp, onHead_executes _ h]
  exact if_pos (.inr hc)

theorem vsel_lanes (h : Executes d c 2 0x11 q) (hm : wF q.word 26 26 = 1) :
    d.vsel c = (d.putLanes c (wF q.word 48 44) (fun _ => true) fun k =>
      if (d.core c).lane (wF q.word 31 27) k ≠ 0 then (d.core c).lane (wF q.word 43 39) k
      else (d.core c).lane (wF q.word 38 34) k).engDone c 2 false := by
  rw [vsel, onHead_executes _ h]
  exact if_neg (by omega)

theorem vsel_bad (h : Executes d c 2 0x11 q) (hm : wF q.word 26 26 = 0) : d.vsel c = d.engFault c 2 { cause := cOPERAND } := by
  rw [vsel, onHead_executes _ h]
  exact if_pos hm

theorem vbcast_lanes (h : Executes d c 2 0x12 q) :
    d.vbcast c = (d.putLanes c (wF q.word 48 44) (actV d c q) fun _ => q.ra.setWidth 32).engDone c 2 false := by
  rw [vbcast, onHead_executes _ h]
  rfl

theorem vred_lanes {op : Nat} (h : Executes d c 2 op q) (ht : wF q.word 33 32 ≠ 3) (ident : Nat → Lane)
    (f : Nat → List Lane → Lane) :
    d.vred op c ident f = (d.putLanes c (wF q.word 48 44) (actV d c q) fun k =>
      f (wF q.word 33 32) (halfLanes (d.core c) (wF q.word 43 39) (actV d c q) (ident (wF q.word 33 32)) (k / 64))).engDone c 2
        false := by
  rw [vred, onHead_executes _ h]
  exact if_neg ht

/-- The lanes of a conversion. -/
def cvtLane (d : Dev) (c : Nat) (q : QEntry) (fi fo : Fmt) (k : Nat) : Nat × GCls :=
  encodePlain fo (d.rndOf c 2 k) (d.core c).e2.e4m3nan (plainVal fi (((d.core c).lane (wF q.word 43 39) k).toNat % 2 ^ fi.bits))

theorem vcvt_lanes {fi fo : Fmt} (h : Executes d c 2 0x18 q) (hci : cvtFmt (wF q.word 22 18) = true)
    (hco : cvtFmt (wF q.word 17 13) = true) (hfi : fmtOf (wF q.word 22 18) = some fi) (hfo : fmtOf (wF q.word 17 13) = some fo) :
    d.vcvt c =
      let r := (List.range 128).map (cvtLane d c q fi fo)
      ((d.gaugeCount c 2 (((List.range 128).filter (actV d c q)).map fun i => (r.getD i (0, .none)).2)).putLanes c
        (wF q.word 48 44) (actV d c q) fun i => BitVec.ofNat 32 (r.getD i (0, .none)).1).engDone c 2
          ((d.core c).e2.rnd && canDiscard fi fo) := by
  rw [vcvt, onHead_executes _ h]
  simp only [hci, hco, hfi, hfo, Bool.and_self]
  rfl

end Dev

/-- An instruction that writes the active lanes and is done sets those lanes and nothing else. -/
theorem setsLanes_of_putLanes {i : Instr} {s : State} {c vd : Nat} {act : Nat → Bool} {f : Nat → Lane} {b : Bool}
    (h : Completes i s ((s.dev.putLanes c vd act f).engDone c 2 b)) : SetsLanes i s c vd act f := by
  refine ⟨_, h, fun k hk => ?_, fun r k hk hr => ?_, ?_, fun k hk => ?_, rfl⟩
  · simp only [Dev.lane_engDone, Dev.lane_putLanes _ _ _ _ _ _ hk, true_and]
  · simp only [Dev.lane_engDone, Dev.lane_putLanes _ _ _ _ _ _ hk, hr, false_and, if_false]
  · rw [Dev.queue_engDone _ _ (by decide), Dev.eng_putLanes]
  · rw [Dev.core_engDone_ne _ hk]
    exact Dev.core_updCore_ne _ _ _ _ hk

/-- Lane arithmetic of an operation, by the function that it computes for the type. -/
theorem laneOp_vArith {i : Instr} {s : State} {c : Nat} {op : Nat} {q : QEntry} {o : VOp} (h : Executes s.dev c 2 op q)
    (ht : wF q.word 33 32 ≠ 3) (hb : (o = .shr && wF q.word 33 32 = 0) = false) (hi : exec i s = s.apply fun d => d.vArith op c o)
    {f : Lane → Lane → Lane → Lane} (hf : o.lane (wF q.word 33 32) = f) : LaneOp i s c q f := by
  subst hf
  exact setsLanes_of_putLanes (b := false) (Completes.congr (d := s.dev.vArith op c o) hi (Dev.vecOp_lanes h ht hb _))

open Dev in
/-- Settles O20: each instruction as the writing of its active lanes, and that write once for all. -/
theorem laneOperations : Obligations.LaneOperations := by
  refine ⟨fun s c op q h ht => ⟨?vadd, ?vsub, ?vmul, ?vfma, ?vmin, ?vmax, ?vand, ?vor, ?vxor, ?vshl, ?vshr, ?vshrBad⟩,
    fun s c q => ⟨fun h ht hc => ?vcmpSigned, fun h ht hc => ?vcmp, fun h hc => ?vcmpBad, fun h hm => ?vsel, fun h hm => ?vselBad,
      fun h => ?vbcast, fun h ht => ?vredsum, fun h ht => ?vredmax, fun fi fo h hci hco hfi hfo => ?vcvt⟩⟩
  case vmin => rintro rfl; exact laneOp_vArith h ht rfl rfl (funext₃ fun a b o => lane_min _ a b o)
  case vmax => rintro rfl; exact laneOp_vArith h ht rfl rfl (funext₃ fun a b o => lane_max _ a b o)
  case vshr => rintro rfl h0; exact laneOp_vArith h ht (by simp [h0]) rfl rfl
  case vshrBad =>
    rintro rfl h0
    exact Completes.congr (d := s.dev.vArith 0x0B c .shr) rfl (vecOp_bad h (by simp [h0]) _)
  case vadd | vsub | vmul | vfma | vand | vor | vxor | vshl => rintro rfl; exact laneOp_vArith h ht rfl rfl rfl
  case vcmp => exact setsLanes_of_putLanes (b := false) (Completes.congr (d := s.dev.vcmp c) rfl (vcmp_lanes h ht hc))
  case vcmpSigned =>
    refine setsLanes_of_putLanes (b := false) (Completes.congr (d := s.dev.vcmp c) rfl ?_)
    rw [vcmp_lanes h (by omega) (by omega), ht, hc]
    simp only [laneCmp_lt_signed, Option.some.injEq, decide_eq_true_eq]
  case vcmpBad => exact Completes.congr (d := s.dev.vcmp c) rfl (vcmp_bad h hc)
  case vsel => exact setsLanes_of_putLanes (b := false) (Completes.congr (d := s.dev.vsel c) rfl (vsel_lanes h hm))
  case vselBad => exact Completes.congr (d := s.dev.vsel c) rfl (vsel_bad h hm)
  case vbcast => exact setsLanes_of_putLanes (b := false) (Completes.congr (d := s.dev.vbcast c) rfl (vbcast_lanes h))
  case vredsum =>
    exact setsLanes_of_putLanes (b := false) (Completes.congr (d := s.dev.vredsum c) rfl (vred_lanes h ht _ _))
  case vredmax =>
    refine setsLanes_of_putLanes (b := false) (Completes.congr (d := s.dev.vredmax c) rfl ?_)
    rw [vredmax, vred_lanes h (by omega), ht]
    rfl
  case vcvt =>
    refine ⟨_, Completes.congr (d := s.dev.vcvt c) rfl (vcvt_lanes h hci hco hfi hfo), ?_, rfl, fun k hk => ?_⟩
    · rw [queue_engDone _ _ (by decide), eng_putLanes]
      rfl
    · simp only [lane_engDone, lane_putLanes _ _ _ _ _ _ hk, true_and]
      rw [List.getD_eq_getElem _ _ (by simpa using hk), List.getElem_map, List.getElem_range]
      rfl

end Sys2Proof.Machine
end

section
/-!
Tiles that an engine's instruction takes from its FIFOs (R35, R37, R38, R41): what the instruction's beginning leaves, and a pop
that leaves a tile behind.
-/
namespace Sys2Proof.Machine.Dev

variable {d : Dev} {c e n : Nat}

/-! An engine's record and the stations are apart. -/

@[simp] theorem slotAddr_updEng (d : Dev) (c e : Nat) (f : Eng → Eng) (c' n i : Nat) :
    (d.updEng c e f).slotAddr c' n i = d.slotAddr c' n i := rfl

theorem core_updEng (d : Dev) (c e : Nat) (f : Eng → Eng) : (d.updEng c e f).core c = (d.core c).setEng e (f ((d.core c).eng e)) :=
  core_updCore_same _ _ _

@[simp] theorem vx_updEng (d : Dev) (c e : Nat) (f : Eng → Eng) : ((d.updEng c e f).core c).vx = (d.core c).vx := by
  rw [core_updEng, Core.vx_setEng]
@[simp] theorem mx_updEng (d : Dev) (c e : Nat) (f : Eng → Eng) : ((d.updEng c e f).core c).mx = (d.core c).mx := by
  rw [core_updEng, Core.mx_setEng]
@[simp] theorem fifo_updEng (d : Dev) (c e : Nat) (f : Eng → Eng) (n : Nat) : ((d.updEng c e f).core c).fifo n = (d.core c).fifo n := by
  rw [core_updEng, Core.fifo_setEng]
@[simp] theorem tsRead_updEng (d : Dev) (c e : Nat) (f : Eng → Eng) (a len : Nat) :
    ((d.updEng c e f).core c).tsRead a len = (d.core c).tsRead a len := by
  rw [core_updEng, Core.tsRead, Core.ts_setEng, Core.tsRead]
@[simp] theorem occ_updEng (d : Dev) (c e : Nat) (f : Eng → Eng) (n : Nat) : (d.updEng c e f).occ c n = d.occ c n := by
  rw [occ, fifo_updEng, occ]
@[simp] theorem headLen_updEng (d : Dev) (c e : Nat) (f : Eng → Eng) (n : Nat) : (d.updEng c e f).headLen c n = d.headLen c n := by
  rw [headLen, fifo_updEng, headLen]
@[simp] theorem canPush_updEng (d : Dev) (c e : Nat) (f : Eng → Eng) (n : Nat) : (d.updEng c e f).canPush c n = d.canPush c n := by
  rw [canPush, occ_updEng, canPush]
  rfl
@[simp] theorem oldest_updEng (d : Dev) (c e : Nat) (f : Eng → Eng) (n len : Nat) :
    oldest (d.updEng c e f) c n len = oldest d c n len := by
  simp only [oldest, tsRead_updEng, slotAddr_updEng, fifo_updEng]

/-- What an instruction has resolved stays; before it begins, its operand is resolved (R35). -/
theorem resolveHeld_fresh (hb : (d.eng c e).begun = false) (i : Nat) (pop : Bool) (ok : Nat → Bool) (st : Nat) :
    d.resolveHeld c e i pop ok st = d.resolveSt c pop ok st := by
  simp [resolveHeld, hb]

/-! A pop that leaves a tile. -/

/-- The FIFO without its oldest tile. -/
def popped (d : Dev) (c n : Nat) (f : Fifo) : Fifo := ⟨f.tiles.tail, (f.head + 1) % max 1 (d.fifoCap c n)⟩

theorem pop_leaving {len : Nat} (hocc : 2 ≤ d.occ c n) (hlen : d.headLen c n = some len) :
    ∃ m, d.pop c n = (some (oldest d c n len, m), d.updCore c fun x => x.setFifo n (d.popped c n (x.fifo n))) := by
  unfold occ at hocc
  unfold headLen at hlen
  unfold pop
  match ht : ((d.core c).fifo n).tiles with
  | [] => simp [ht] at hocc
  | [_] => simp [ht] at hocc
  | t :: u :: r =>
    rw [ht, List.head?_cons, Option.map_some, Option.some.injEq] at hlen
    refine ⟨t.marked, ?_⟩
    simp only [ht, hlen, List.isEmpty_cons, Bool.false_eq_true, if_false]
    rw [updCore, popped, ht]
    rfl

theorem dev_pop_leaving {len : Nat} (hocc : 2 ≤ d.occ c n) (hlen : d.headLen c n = some len) :
    (d.pop c n).2 = d.updCore c fun x => x.setFifo n (d.popped c n (x.fifo n)) := by
  obtain ⟨m, hm⟩ := pop_leaving hocc hlen
  rw [hm]

theorem popTile_leaving {f : Fmt} (hon : d.fifoOn c n = true) (hocc : 2 ≤ d.occ c n) (hlen : d.headLen c n = some f.tileBytes)
    (st : Nat) (go : List Byte → Bool → Dev → Dev) :
    ∃ m, d.popTile c e n st f go = go (oldest d c n f.tileBytes) m (d.pop c n).2 := by
  obtain ⟨m, hm⟩ := pop_leaving hocc hlen
  refine ⟨m, ?_⟩
  have hpop : d.canPop c n = true := by
    simp only [canPop, hon, Bool.true_and, decide_eq_true_eq]
    omega
  rw [popTile, if_neg (by simp [hpop]), if_neg (by simp [hlen]), hm]

theorem fifo_pop_leaving {len : Nat} (hocc : 2 ≤ d.occ c n) (hlen : d.headLen c n = some len) :
    ((d.pop c n).2.core c).fifo n = d.popped c n ((d.core c).fifo n) := by
  rw [dev_pop_leaving hocc hlen, core_updCore_same]
  exact tabGet_tabPut_same _ _ _ _

theorem occ_pop_leaving {len : Nat} (hocc : 2 ≤ d.occ c n) (hlen : d.headLen c n = some len) :
    (d.pop c n).2.occ c n + 1 = d.occ c n := by
  rw [occ, fifo_pop_leaving hocc hlen, popped]
  rw [occ] at hocc
  rw [occ, List.length_tail]
  omega

/-! The same of an instruction that has just begun (R35): its beginning leaves the stations. -/

theorem popTile_begin {f : Fmt} (hon : d.fifoOn c n = true) (hocc : 2 ≤ d.occ c n) (hlen : d.headLen c n = some f.tileBytes)
    (l : List Nat) (st : Nat) (go : List Byte → Bool → Dev → Dev) :
    ∃ m, (d.begin c e l).popTile c e n st f go = go (oldest d c n f.tileBytes) m ((d.begin c e l).pop c n).2 := by
  obtain ⟨m, hm⟩ := popTile_leaving (d := d.begin c e l) (e := e) hon (by rwa [begin, occ_updEng])
    (by rwa [begin, headLen_updEng]) st go
  refine ⟨m, ?_⟩
  rw [hm, begin, oldest_updEng]

theorem occ_begin_pop {len : Nat} (hocc : 2 ≤ d.occ c n) (hlen : d.headLen c n = some len) (l : List Nat) :
    ((d.begin c e l).pop c n).2.occ c n + 1 = d.occ c n := by
  rw [occ_pop_leaving (d := d.begin c e l) (by rwa [begin, occ_updEng]) (by rwa [begin, headLen_updEng]), begin, occ_updEng]

theorem vx_begin_pop {len : Nat} (hocc : 2 ≤ d.occ c n) (hlen : d.headLen c n = some len) (l : List Nat) :
    (((d.begin c e l).pop c n).2.core c).vx = (d.core c).vx := by
  rw [dev_pop_leaving (d := d.begin c e l) (by rwa [begin, occ_updEng]) (by rwa [begin, headLen_updEng]), core_updCore_same]
  change ((d.begin c e l).core c).vx = _
  rw [begin, vx_updEng]

end Sys2Proof.Machine.Dev
end

section
/-!
The tiles of the vector engine (R134, R135): an access to an open tile, the access that opens one, closing and pushing.
-/
namespace Sys2Proof.Machine

namespace Dev

variable {d : Dev} {c : Nat} {q : QEntry} {t : OpenTile} {f : Fmt}

/-- The active lanes of a tile access. -/
def actT (d : Dev) (c : Nat) (q : QEntry) : Nat → Bool := d.active c (wF q.word 26 22) (wF q.word 21 21 = 1)

theorem lane_vtrdRows (d : Dev) (c : Nat) (q : QEntry) (f : Fmt) (t : OpenTile) {k : Nat} (hk : k < 128) :
    ((d.vtrdRows c q f t).core c).lane (wF q.word 48 44) k =
      if d.actT c q k then widen f (t.elems ++ t.scales) (64 * wF q.word 37 32 + k) else (d.core c).lane (wF q.word 48 44) k := by
  simp only [vtrdRows, lane_engDone, lane_putLanes _ _ _ _ _ _ hk, true_and]
  rfl

theorem ins_putLanes (d : Dev) (c vd : Nat) (act : Nat → Bool) (f : Nat → Lane) :
    ((d.putLanes c vd act f).core c).vx.ins = (d.core c).vx.ins := by
  rw [core_putLanes, Core.putLanes_frame]

theorem fifo_putLanes (d : Dev) (c vd : Nat) (act : Nat → Bool) (f : Nat → Lane) (n : Nat) :
    ((d.putLanes c vd act f).core c).fifo n = (d.core c).fifo n := by
  rw [core_putLanes, Core.putLanes_frame]
  rfl

theorem occ_updVx (d : Dev) (c : Nat) (f : Vx → Vx) (n : Nat) : (d.updVx c f).occ c n = d.occ c n := by
  rw [occ, updVx, core_updCore_same]
  rfl

theorem ins_vtrdRows (d : Dev) (c : Nat) (q : QEntry) (f : Fmt) (t : OpenTile) :
    ((d.vtrdRows c q f t).core c).vx.ins = (d.core c).vx.ins := by
  rw [vtrdRows, engDone, vx_updEng, ins_putLanes]

theorem occ_vtrdRows (d : Dev) (c : Nat) (q : QEntry) (f : Fmt) (t : OpenTile) (n : Nat) :
    (d.vtrdRows c q f t).occ c n = d.occ c n := by
  rw [vtrdRows, engDone, occ_updEng, occ, fifo_putLanes, occ]

theorem vtrd_open (h : Executes d c 2 0x28 q) (hf : fmtOf (wF q.word 31 27) = some f) (hr : wF q.word 37 32 % 2 = 0)
    (ho : openAt (wF q.word 43 38) (d.core c).vx.ins = some t) (ht : t.fmt = wF q.word 31 27) : d.vtrd c = d.vtrdRows c q f t := by
  rw [vtrd, onHead_executes _ h]
  simp only [hf, ho, hr, ht, Nat.zero_ne_one, if_false, ne_eq, not_true_eq_false]

/-- The tile that a first access opens, marked as it was pushed (R117, R135). -/
def tileOpened (d : Dev) (c : Nat) (q : QEntry) (n : Nat) (f : Fmt) (m : Bool) : OpenTile :=
  ⟨wF q.word 43 38, n, wF q.word 31 27, (oldest d c n f.tileBytes).take (512 * f.bits),
    (oldest d c n f.tileBytes).drop (512 * f.bits), m⟩

theorem vtrd_first {n : Nat} (h : Executes d c 2 0x28 q) (hb : (d.eng c 2).begun = false) (hf : fmtOf (wF q.word 31 27) = some f)
    (hr : wF q.word 37 32 % 2 = 0) (hs : openAt (wF q.word 43 38) (d.core c).vx.ins = none) (hl : (d.core c).vx.ins.length < 4)
    (hn : d.resolveSt c true (fun n => n = 4 || n = 5) (wF q.word 43 38) = .ok n) (hno : openAt n (d.core c).vx.ins = none)
    (hon : d.fifoOn c n = true) (hocc : 2 ≤ d.occ c n) (hlen : d.headLen c n = some f.tileBytes) :
    ∃ m, d.vtrd c = (((d.begin c 2 [n]).pop c n).2.updVx c fun v =>
      { v with ins := v.ins ++ [d.tileOpened c q n f m] }).vtrdRows c q f (d.tileOpened c q n f m) := by
  obtain ⟨m, hm⟩ := popTile_begin (e := 2) hon hocc hlen [n] (wF q.word 43 38) fun b m d =>
    let t : OpenTile := ⟨wF q.word 43 38, n, wF q.word 31 27, b.take (512 * f.bits), b.drop (512 * f.bits), m⟩
    (d.updVx c fun v => { v with ins := v.ins ++ [t] }).vtrdRows c q f t
  refine ⟨m, ?_⟩
  rw [vtrd, onHead_executes _ h]
  simp only [hf, hr, hs, resolveHeld_fresh hb, hn, hno, Nat.zero_ne_one, if_false, Nat.not_le.mpr hl]
  rw [hm]
  rfl

theorem vtwr_open (h : Executes d c 2 0x29 q) (hf : fmtOf (wF q.word 31 27) = some f) (hr : wF q.word 37 32 % 2 = 0)
    (ho : openAt (wF q.word 43 38) (d.core c).vx.outs = some t) (ht : t.fmt = wF q.word 31 27) : d.vtwr c = d.vtwrRows c q f t := by
  rw [vtwr, onHead_executes _ h]
  simp only [hf, ho, hr, ht, Nat.zero_ne_one, if_false, ne_eq, not_true_eq_false]

theorem vtwr_first {n : Nat} (h : Executes d c 2 0x29 q) (hf : fmtOf (wF q.word 31 27) = some f)
    (hr : wF q.word 37 32 % 2 = 0) (hs : openAt (wF q.word 43 38) (d.core c).vx.outs = none) (hl : (d.core c).vx.outs.length < 2)
    (hn : d.resolveSt c false (fun n => n = 6) (wF q.word 43 38) = .ok n) (hno : openAt n (d.core c).vx.outs = none) :
    d.vtwr c =
      let t : OpenTile := ⟨wF q.word 43 38, n, wF q.word 31 27, List.replicate (512 * f.bits) 0, List.replicate f.scaleBytes 0, false⟩
      (d.updVx c fun v => { v with outs := v.outs ++ [t] }).vtwrRows c q f t := by
  rw [vtwr, onHead_executes _ h]
  simp only [hf, hr, hs, hn, hno, Nat.zero_ne_one, if_false, Nat.not_le.mpr hl]

theorem openNamed_open {pop : Bool} {ok : Nat → Bool} {st : Nat} {l : List OpenTile} (ho : openAt st l = some t) :
    d.openNamed c pop ok st l = some t := by
  simp only [openNamed, ho]

theorem vtclose_open (h : Executes d c 2 0x2A q) (ho : openAt (wF q.word 43 38) (d.core c).vx.ins = some t) :
    d.vtclose c = (d.updVx c fun v => { v with ins := v.ins.filter fun u => u.fifo ≠ t.fifo }).engDone c 2 false := by
  rw [vtclose, onHead_executes _ h]
  simp only [openNamed_open ho]

theorem vtpush_open (h : Executes d c 2 0x2B q) (hb : (d.eng c 2).begun = false)
    (ho : openAt (wF q.word 43 38) (d.core c).vx.outs = some t) (ht : t.fmt = wF q.word 31 27) (hp : d.canPush c t.fifo = true)
    (hz : d.tooBig c t.fifo (t.elems.length + t.scales.length) = false) :
    d.vtpush c = (((d.begin c 2 [t.fifo]).push c t.fifo t.fmt (t.elems ++ t.scales) t.marked).updVx c fun v =>
      { v with outs := v.outs.filter fun u => u.fifo ≠ t.fifo }).engDone c 2 false := by
  have hp' : (d.begin c 2 [t.fifo]).canPush c t.fifo = true := by rw [begin, canPush_updEng, hp]
  have hz' : (d.begin c 2 [t.fifo]).tooBig c t.fifo (t.elems.length + t.scales.length) = false := hz
  rw [vtpush, onHead_executes _ h]
  simp only [hb, openNamed_open ho, ht, hp', hz', Bool.false_eq_true, if_false, ne_eq, not_true_eq_false]

end Dev

open Dev in
/-- Settles O22: an access to an open tile reads its rows, and the first access is the same after its pop. -/
theorem vectorTileAccess : Obligations.VectorTileAccess := by
  refine fun s c q t f => ⟨fun h hf hr ho ht => ?read, fun n h hb hf hr hs hl hn hno hon hocc hlen => ?readFirst,
    fun h hf hr ho ht => ?write, fun n h hf hr hs hl hn hno => ?writeFirst, fun h ho => ?close, fun h hb ho ht hp hz => ?push⟩
  case read =>
    refine ⟨s.dev.vtrd c, rfl, ?_⟩
    rw [vtrd_open h hf hr ho ht]
    exact ⟨ins_vtrdRows _ _ _ _ _, fun k hk => lane_vtrdRows _ _ _ _ _ hk⟩
  case readFirst =>
    obtain ⟨m, hm⟩ := vtrd_first h hb hf hr hs hl hn hno hon hocc hlen
    refine ⟨s.dev.vtrd c, rfl, ?_, m, ?_⟩
    · rw [hm, occ_vtrdRows, occ_updVx, occ_begin_pop hocc hlen]
    · rw [hm, ins_vtrdRows, updVx, core_updCore_same]
      simp only [vx_begin_pop hocc hlen]
      rfl
  case write => exact Completes.congr (d := s.dev.vtwr c) rfl (vtwr_open h hf hr ho ht)
  case writeFirst => exact Completes.congr (d := s.dev.vtwr c) rfl (vtwr_first h hf hr hs hl hn hno)
  case close => exact Completes.congr (d := s.dev.vtclose c) rfl (vtclose_open h ho)
  case push => exact Completes.congr (d := (s.dev.vtpush c).watch) rfl (congrArg watch (vtpush_open h hb ho ht hp hz))

end Sys2Proof.Machine
end

section
/-!
The checks of the matrix array, its drains and loads, and its accumulators (R82 to R99).
-/
namespace Sys2Proof.Machine

/-! The ladders and slots of the array. -/

theorem Mx.lad_setLad_same (m : Mx) (bank : Nat) (l : Ladder) : (m.setLad bank l).lad bank = l := by
  unfold Mx.setLad Mx.lad
  split <;> rfl

theorem Mx.tag_setLad (m : Mx) (bank : Nat) (l : Ladder) (s : Nat) : (m.setLad bank l).tag s = m.tag s := by
  unfold Mx.setLad
  split <;> rfl

theorem Mx.slot_setLad (m : Mx) (bank : Nat) (l : Ladder) (s : Nat) : (m.setLad bank l).slot s = m.slot s := by
  unfold Mx.setLad
  split <;> rfl

theorem Mx.tag_setSlot_same (m : Mx) (s : Nat) (l : List Cell) (t : SlotTag) (w : Bool) : (m.setSlot s l t w).tag s = t :=
  tabGet_tabPut_same _ _ _ _

theorem Mx.slot_setSlot_same (m : Mx) (s : Nat) {l : List Cell} (hl : l ≠ []) (t : SlotTag) (w : Bool) :
    (m.setSlot s l t w).slot s = l := by
  obtain ⟨x, r, rfl⟩ := List.exists_cons_of_ne_nil hl
  simp only [Mx.slot, Mx.setSlot, tabGet_tabPut_same]

namespace Dev

variable {d : Dev} {c : Nat} {q : QEntry} {p : Pass} {f : Fmt}

/-! The array's record apart from the engines, the stations and the registers. -/

theorem mx_updMx (d : Dev) (c : Nat) (f : Mx → Mx) : ((d.updMx c f).core c).mx = f (d.core c).mx := by
  rw [updMx, core_updCore_same]

theorem eng_updMx (d : Dev) (c : Nat) (f : Mx → Mx) (e : Nat) : (d.updMx c f).eng c e = d.eng c e := by
  rw [eng, eng, updMx, core_updCore_same]
  unfold Core.eng
  split <;> rfl

theorem occ_updMx (d : Dev) (c : Nat) (f : Mx → Mx) (n : Nat) : (d.updMx c f).occ c n = d.occ c n := by
  rw [occ, updMx, core_updCore_same]
  rfl

theorem canPush_updMx (d : Dev) (c : Nat) (f : Mx → Mx) (n : Nat) : (d.updMx c f).canPush c n = d.canPush c n := by
  rw [canPush, occ_updMx, canPush]
  rfl

theorem rndOf_updMx (d : Dev) (c : Nat) (f : Mx → Mx) : (d.updMx c f).rndOf c 1 = d.rndOf c 1 := by
  funext idx
  rw [rndOf, eng_updMx]
  rfl

/-! The outcome of the checks through Table MX-3. -/

section
variable {next again : Dev → Dev} {row col : BitVec 6} {kind : BitVec 3} {lv : Bool}

theorem chkStep_clean (h : (d.core c).mx.chk ≠ .persistent) :
    d.chkStep c .clean next again = next (d.updMx c fun m => { m with chk := .try0 }) := by
  cases hk : (d.core c).mx.chk with
  | persistent => exact absurd hk h
  | try0 | try1 | try2 => simp only [chkStep, hk]

theorem chkStep_try0 (h : (d.core c).mx.chk = .try0) :
    d.chkStep c (.mismatch row col kind lv) next again =
      again (((d.incSat (Reg.MX_CHKCNT_MISMATCH c) 1).incSat (Reg.MX_CHKCNT_RETRY c) 1).updMx c fun m => { m with chk := .try1 }) := by
  simp only [chkStep, h]

theorem chkStep_try1 (h : (d.core c).mx.chk = .try1) :
    d.chkStep c (.mismatch row col kind lv) next again =
      again ((d.incSat (Reg.MX_CHKCNT_RETRY c) 1).updMx c fun m => { m with chk := .try2 }) := by
  simp only [chkStep, h]

theorem chkStep_try2 (h : (d.core c).mx.chk = .try2) :
    d.chkStep c (.mismatch row col kind lv) next again = d.mxPersist c row col kind lv := by
  simp only [chkStep, h]

end

/-- An engine that takes a step has no persistent mismatch (R95). -/
theorem chk_of_executes {op : Nat} (h : Executes d c 1 op q) : (d.core c).mx.chk ≠ .persistent := by
  obtain ⟨hready, -⟩ := h
  intro hp
  simp [engReady, hp] at hready

theorem onPhase_executes {ph : PassPhase} (h : Executes d c 1 0x01 q) (hp : (d.core c).mx.pass = some p) (hph : p.phase = ph)
    (g : Pass → Dev → Dev) : d.onPhase c ph g = g p d := by
  rw [onPhase, onHead_executes _ h]
  simp only [hp, hph, if_true]

/-! The segment, the collapse and the drain of a pass. -/

theorem mmaSegmentEnd_clean (h : Executes d c 1 0x01 q) (hp : (d.core c).mx.pass = some p) (hph : p.phase = .check) :
    d.mmaSegmentEnd c .clean = (d.updMx c fun m => { m with chk := .try0 }).updMx c fun m =>
      { m with pass := some { p with
        replay := [], shadow := m.lad (p.slot / 8), phase := if p.popped = p.k / 64 then .collapse else .broadcast } } := by
  rw [mmaSegmentEnd, onPhase_executes h hp hph, chkStep_clean (chk_of_executes h)]

theorem collapse_clean (h : Executes d c 1 0x01 q) (hp : (d.core c).mx.pass = some p) (hph : p.phase = .collapse)
    (hd : p.drn = false) :
    d.collapse c .clean = (((d.updMx c fun m => { m with chk := .try0 }).updMx c fun m =>
      (m.setSlot p.slot (collapsed m p) p.tag p.wrap).setLad (p.slot / 8) []).updMx c fun m => { m with pass := none }).engDone c 1
        false := by
  rw [collapse, onPhase_executes h hp hph, chkStep_clean (chk_of_executes h)]
  simp only [hd, Bool.false_eq_true, if_false]

theorem collapse_again {row col : BitVec 6} {kind : BitVec 3} {lv : Bool} (h : Executes d c 1 0x01 q)
    (hp : (d.core c).mx.pass = some p) (hph : p.phase = .collapse) (hk : (d.core c).mx.chk = .try1) :
    d.collapse c (.mismatch row col kind lv) =
      (d.incSat (Reg.MX_CHKCNT_RETRY c) 1).updMx c fun m => { m with chk := .try2 } := by
  rw [collapse, onPhase_executes h hp hph, chkStep_try1 hk]

/-- A drain without side records (R85, R86). -/
theorem drainTo_push {n s fo st : Nat} (hf : fmtOf fo = some f) (hp : d.canPush c n = true) (hz : d.tooBig c n f.tileBytes = false)
    (done : Dev → Dev) :
    d.drainTo c s n fo 0 st done =
      let r := drainTile ((d.core c).mx.tag s) (tabGet false s (d.core c).mx.slotWrap) f (d.rndOf c 1) (d.eng c 1).e4m3nan
        ((d.core c).mx.slot s)
      done ((d.gaugeCount c 1 r.2).push c n fo r.1 (marks r.2)) := by
  rw [drainTo, hf]
  simp only [hp, hz, not_true_eq_false, Bool.false_eq_true, if_false]
  rfl

theorem drain_clean (h : Executes d c 1 0x01 q) (hp : (d.core c).mx.pass = some p) (hph : p.phase = .drain) (hfuse : p.fuse = 0)
    (hf : fmtOf p.tag.code = some f) (hc : d.canPush c p.out = true) (hz : d.tooBig c p.out f.tileBytes = false) :
    d.drain c .clean =
      let d' := d.updMx c fun m => { m with chk := .try0 }
      let r := drainTile ((d.core c).mx.tag p.slot) (tabGet false p.slot (d.core c).mx.slotWrap) f (d.rndOf c 1) (d.eng c 1).e4m3nan
        ((d.core c).mx.slot p.slot)
      ((((d'.gaugeCount c 1 r.2).push c p.out p.tag.code r.1 (marks r.2)).updMx c fun m => { m with pass := none }).engDone c 1
        false) := by
  have hc' : (d.updMx c fun m => { m with chk := .try0 }).canPush c p.out = true := by rwa [canPush_updMx]
  rw [drain, onPhase_executes h hp hph, chkStep_clean (chk_of_executes h), hfuse, drainTo_push hf hc' hz, rndOf_updMx, eng_updMx,
    mx_updMx]
  rfl

/-! mdrain, mpre and mtrans. -/

theorem mdrain_bad (h : Executes d c 1 0x02 q) (hb : (d.eng c 1).begun = false)
    (hf : (drainFmts ((d.core c).mx.tag (wF q.word 36 33))).contains (wF q.word 32 28) = false) :
    d.mdrain c .clean = d.engFault c 1 { cause := cOPERAND } := by
  rw [mdrain, onHead_executes _ h]
  exact if_pos ⟨by simp [hb], .inl (by simpa using hf)⟩

theorem mdrain_clean {n : Nat} (h : Executes d c 1 0x02 q) (hb : (d.eng c 1).begun = false)
    (hd : (drainFmts ((d.core c).mx.tag (wF q.word 36 33))).contains (wF q.word 32 28) = true) (hfuse : wF q.word 18 17 = 0)
    (hf : fmtOf (wF q.word 32 28) = some f) (hn : d.resolveSt c false (fun n => n = 3) (wF q.word 48 43) = .ok n)
    (hc : d.canPush c n = true) (hz : d.tooBig c n f.tileBytes = false) :
    d.mdrain c .clean =
      let d' := (d.begin c 1 [n]).updMx c fun m => { m with chk := .try0 }
      let r := drainTile ((d.core c).mx.tag (wF q.word 36 33)) (tabGet false (wF q.word 36 33) (d.core c).mx.slotWrap) f
        (d'.rndOf c 1) (d.eng c 1).e4m3nan ((d.core c).mx.slot (wF q.word 36 33))
      let after := (d'.gaugeCount c 1 r.2).push c n (wF q.word 32 28) r.1 (marks r.2)
      after.engDone c 1 ((after.eng c 1).rnd && drainRounds ((d.core c).mx.tag (wF q.word 36 33)) (wF q.word 32 28)) := by
  have hmx : ((d.begin c 1 [n]).core c).mx = (d.core c).mx := by rw [begin, mx_updEng]
  have hchk : ((d.begin c 1 [n]).core c).mx.chk ≠ .persistent := by rw [hmx]; exact chk_of_executes h
  have hc' : ((d.begin c 1 [n]).updMx c fun m => { m with chk := .try0 }).canPush c n = true := by
    rwa [canPush_updMx, begin, canPush_updEng]
  have hnan : (((d.begin c 1 [n]).updMx c fun m => { m with chk := .try0 }).eng c 1).e4m3nan = (d.eng c 1).e4m3nan := by
    rw [eng_updMx, begin, eng_updEng_same _ _ (by decide)]
  have hfuse' : d.fuseBad c (wF q.word 18 17) = false := by rw [hfuse]; rfl
  rw [mdrain, onHead_executes _ h]
  dsimp only
  rw [if_neg (by simp only [hd, hfuse', not_true_eq_false, Bool.false_eq_true, or_self, and_false, not_false_eq_true]),
    resolveHeld_fresh hb, hn]
  dsimp only
  rw [chkStep_clean hchk, hfuse, drainTo_push hf hc' hz, hnan, mx_updMx, hmx]
  rfl

theorem mpre_bad (h : Executes d c 1 0x03 q) (ht : mpreTag (wF q.word 32 28) = none) :
    d.mpre c = d.engFault c 1 { cause := cOPERAND } := by
  rw [mpre, onHead_executes _ h]
  simp only [ht]

/-- The slot that a preload gives: each element widened (R88). -/
def preloaded (d : Dev) (c : Nat) (q : QEntry) (n : Nat) (f : Fmt) : List Cell :=
  (List.range 4096).map fun i => (mpreCell (wF q.word 32 28) (elemAt f.bits (oldest d c n f.tileBytes) i), false)

theorem preloaded_ne_nil (d : Dev) (c : Nat) (q : QEntry) (n : Nat) (f : Fmt) : d.preloaded c q n f ≠ [] := by
  intro h
  have := congrArg List.length h
  simp [preloaded] at this

theorem mpre_pops {n : Nat} {t : SlotTag} (h : Executes d c 1 0x03 q) (hb : (d.eng c 1).begun = false)
    (ht : mpreTag (wF q.word 32 28) = some t) (hf : fmtOf (wF q.word 32 28) = some f)
    (hn : d.resolveSt c true (fun n => n = 2) (wF q.word 48 43) = .ok n) (hon : d.fifoOn c n = true) (hocc : 2 ≤ d.occ c n)
    (hlen : d.headLen c n = some f.tileBytes) :
    d.mpre c = (((d.begin c 1 [n]).pop c n).2.updMx c fun m =>
      m.setSlot (wF q.word 36 33) (d.preloaded c q n f) t false).engDone c 1 false := by
  obtain ⟨m, hm⟩ := popTile_begin (e := 1) hon hocc hlen [n] (wF q.word 48 43) fun b _ d =>
    (d.updMx c fun m => m.setSlot (wF q.word 36 33)
      ((List.range 4096).map fun i => (mpreCell (wF q.word 32 28) (elemAt f.bits b i), false)) t false).engDone c 1 false
  rw [mpre, onHead_executes _ h]
  simp only [ht, hf, resolveHeld_fresh hb, hn]
  rw [hm]
  rfl

theorem mtrans_scaled (h : Executes d c 1 0x04 q) (hf : fmtOf (wF q.word 32 28) = some f) (hs : f.scaleBytes ≠ 0) :
    d.mtrans c = d.engFault c 1 { cause := cOPERAND } := by
  rw [mtrans, onHead_executes _ h]
  simp only [hf]
  exact if_pos hs

theorem mtrans_pops {n o : Nat} (h : Executes d c 1 0x04 q) (hb : (d.eng c 1).begun = false) (hf : fmtOf (wF q.word 32 28) = some f)
    (hs : f.scaleBytes = 0) (hn : d.resolveSt c true (fun n => n ≤ 2) (wF q.word 48 43) = .ok n)
    (ho : d.resolveSt c false (fun n => n = 3) (wF q.word 42 37) = .ok o) (hc : d.canPush c o = true)
    (hz : d.tooBig c o f.tileBytes = false) (hon : d.fifoOn c n = true) (hocc : 2 ≤ d.occ c n) (hlen : d.headLen c n = some f.tileBytes) :
    d.mtrans c = (((d.begin c 1 [n, o]).pop c n).2.push c o (wF q.word 32 28) (transposed f (oldest d c n f.tileBytes)) false).engDone c 1
      false := by
  have hc' : (d.begin c 1 [n, o]).canPush c o = true := by rwa [begin, canPush_updEng]
  have hz' : (d.begin c 1 [n, o]).tooBig c o f.tileBytes = false := hz
  obtain ⟨m, hm⟩ := popTile_begin (e := 1) hon hocc hlen [n, o] (wF q.word 48 43) fun b _ d =>
    (d.push c o (wF q.word 32 28) (transposed f b) false).engDone c 1 false
  rw [mtrans, onHead_executes _ h]
  simp only [hf, hs, resolveHeld_fresh hb, hn, ho, hc', hz', ne_eq, not_true_eq_false, Bool.false_eq_true, if_false]
  rw [hm]

/-! The accumulators in debug mode (R99). -/

theorem accRead_debug (h : (d.core c).inDebug = true) (n : Nat) : d.accRead c n = (d.accData c n, d) := if_pos h

theorem accRead_denied (h : (d.core c).inDebug = false) (n : Nat) : d.accRead c n = (0, d.setF (Reg.MX_STAT_ACCDENY c)) :=
  if_neg (by simp [h])

/-- A slot's elements in INT32 are read as they stand. -/
theorem accData_i32 (ht : (d.core c).mx.tag (d.rd (Reg.MX_ACCSEL_SLOT c)) = .i32) (hs : d.rd (Reg.MX_ACCSEL_SRC c) = 0) (n : Nat) :
    d.accData c n =
      let l := (d.core c).mx.slot (d.rd (Reg.MX_ACCSEL_SLOT c))
      let row := d.rd (Reg.MX_ACCSEL_ROW c)
      (l.getD (64 * row + 2 * n) (0, false)).1.toNat + 2 ^ 32 * (l.getD (64 * row + (2 * n + 1)) (0, false)).1.toNat := by
  rw [accData]
  simp only [hs, ht, accLane, reduceCtorEq, if_false]

end Dev

open Dev in
/-- Settles O19: Table MX-3 by the state of the checks, each phase's clean end, and the pop that the loads share. -/
theorem matrixChecksDrainsAndDebug : Obligations.MatrixChecksDrainsAndDebug := by
  refine ⟨fun s c q p row col kind lv h hp => ⟨fun hph => ⟨?segmentClean, fun hk => ?segmentAgain, fun hk => ?segmentPersists⟩,
      fun hph hd => ?collapseClean, fun hph hk => ?collapseAgain, fun f hph hfuse hf hc hz => ?drain⟩,
    fun s c q n o f => ⟨fun h hb hf => ?mdrainBad, fun h hb hd hfuse hf hn hc hz _ => ?mdrain,
      fun t h hb ht hf hn hon hocc hlen => ?mpre, fun h ht => ?mpreBad, fun h hf hs => ?mtransScaled,
      fun h hb hf hs hno hn ho hc hz hon hocc hlen => ?mtrans⟩,
    fun s r c n => ⟨fun h => ?debug, fun h => ?denied, fun ht hs => accData_i32 ht hs n⟩⟩
  case segmentClean =>
    refine ⟨_, Completes.congr (d := s.dev.mmaSegmentEnd c .clean) rfl (mmaSegmentEnd_clean h hp hph), ?_⟩
    simp only [mx_updMx]
    exact ⟨trivial, rfl⟩
  case segmentAgain =>
    refine Completes.congr (d := s.dev.mmaSegmentEnd c (.mismatch row col kind lv)) rfl ?_
    rw [mmaSegmentEnd, onPhase_executes h hp hph, chkStep_try0 hk]
  case segmentPersists =>
    refine Completes.congr (d := s.dev.mmaSegmentEnd c (.mismatch row col kind lv)) rfl ?_
    rw [mmaSegmentEnd, onPhase_executes h hp hph, chkStep_try2 hk]
  case collapseClean =>
    refine ⟨_, Completes.congr (d := s.dev.collapse c .clean) rfl (collapse_clean h hp hph hd), ?_, ?_, ?_, ?_, fun hne => ?_⟩
    · rw [engDone, mx_updEng, mx_updMx]
    · rw [engDone, mx_updEng, mx_updMx, mx_updMx]
      exact Mx.lad_setLad_same _ _ _
    · rw [engDone, mx_updEng, mx_updMx, mx_updMx]
      exact (Mx.tag_setLad _ _ _ _).trans (Mx.tag_setSlot_same _ _ _ _ _)
    · rw [queue_engDone _ _ (by decide), eng_updMx, eng_updMx, eng_updMx]
    · rw [engDone, mx_updEng, mx_updMx, mx_updMx, mx_updMx]
      exact (Mx.slot_setLad _ _ _ _).trans (Mx.slot_setSlot_same _ _ hne _ _)
  case collapseAgain =>
    refine ⟨_, Completes.congr (d := s.dev.collapse c (.mismatch row col kind lv)) rfl (collapse_again h hp hph hk), ?_⟩
    simp only [mx_updMx]
    exact ⟨trivial, hp, rfl⟩
  case drain => exact Completes.congr (d := (s.dev.drain c .clean).watch) rfl (congrArg watch (drain_clean h hp hph hfuse hf hc hz))
  case mdrainBad => exact Completes.congr (d := (s.dev.mdrain c .clean).watch) rfl (congrArg watch (mdrain_bad h hb hf))
  case mdrain =>
    exact ⟨_, Completes.congr (d := (s.dev.mdrain c .clean).watch) rfl
      (congrArg watch (mdrain_clean h hb hd hfuse hf hn hc hz))⟩
  case mpre =>
    refine ⟨s.dev.mpre c, rfl, ?_⟩
    rw [mpre_pops h hb ht hf hn hon hocc hlen]
    refine ⟨?_, ?_, ?_⟩
    · rw [engDone, occ_updEng, occ_updMx, occ_begin_pop hocc hlen]
    · rw [engDone, mx_updEng, mx_updMx]
      exact Mx.tag_setSlot_same _ _ _ _ _
    · rw [engDone, mx_updEng, mx_updMx]
      exact Mx.slot_setSlot_same _ _ (preloaded_ne_nil _ _ _ _ _) _ _
  case mpreBad => exact Completes.congr (d := (s.dev.mpre c).watch) rfl (congrArg watch (mpre_bad h ht))
  case mtransScaled => exact Completes.congr (d := (s.dev.mtrans c).watch) rfl (congrArg watch (mtrans_scaled h hf hs))
  case mtrans =>
    exact Completes.congr (d := (s.dev.mtrans c).watch) rfl (congrArg watch (mtrans_pops h hb hf hs hn ho hc hz hon hocc hlen))
  case debug =>
    refine Completes.congr (d := s.dev.accumulatorRead r c n) rfl ?_
    rw [accumulatorRead, accRead_debug h]
  case denied =>
    refine Completes.congr (d := s.dev.accumulatorRead r c n) rfl ?_
    rw [accumulatorRead, accRead_denied h]
    rfl

end Sys2Proof.Machine
end

section
/-!
The ladder of the matrix array as a binary counter (R81).
-/
namespace Sys2Proof.Machine

/-! Binary addition at one place. -/

theorem bit_eq_testBit (n i : Nat) : bit n i = n.testBit i := Nat.testBit_eq_decide_div_mod_eq.symm

/-- Where bit i is clear, adding 2^i sets it and carries nothing. -/
theorem testBit_add_two_pow {n i : Nat} (h : n.testBit i = false) (j : Nat) :
    (n + 2 ^ i).testBit j = if j = i then true else n.testBit j := by
  induction i generalizing n j with
  | zero =>
    have even : n % 2 = 0 := by simpa using h
    cases j with
    | zero => simp [Nat.add_mod, even]
    | succ j => simp [Nat.testBit_add_one, show (n + 1) / 2 = n / 2 by omega]
  | succ i ih =>
    cases j with
    | zero => simp [Nat.pow_succ]
    | succ j =>
      have half : (n + 2 ^ (i + 1)) / 2 = n / 2 + 2 ^ i := by omega
      simp [Nat.testBit_add_one, half, ih (Nat.testBit_add_one n i ▸ h)]

/-- A number with bit i set is 2^i and a number with that bit clear. -/
theorem exists_add_two_pow {n i : Nat} (h : n.testBit i = true) : ∃ r, n = r + 2 ^ i ∧ r.testBit i = false := by
  obtain ⟨r, rfl⟩ := Nat.exists_eq_add_of_le' (Nat.ge_two_pow_of_testBit h)
  rw [Nat.add_comm, Nat.testBit_two_pow_add_eq] at h
  exact ⟨r, rfl, by simpa using h⟩

/-! The ladder as a counter. -/

/-- The rungs and the carry of a ladder spell n in binary: a place holds all 4,096 cells where n has a 1 and none elsewhere. -/
def LadCounts (n : Nat) (l : Ladder) : Prop := ∀ i ≤ 12, (tabGet [] i l).length = if n.testBit i then 4096 else 0

theorem ladCounts_zero : LadCounts 0 [] := by simp [LadCounts]

namespace LadCounts

variable {n i : Nat} {l : Ladder}

theorem rung_nonempty_iff (h : LadCounts n l) (hi : i ≤ 12) : (tabGet [] i l).isEmpty = false ↔ n.testBit i = true := by
  rw [List.isEmpty_eq_false_iff, ne_eq, ← List.length_eq_zero_iff, h i hi]
  split <;> simp [*]

/-- A chunk in a free rung i counts for 2^i. -/
theorem fill {x : List Cell} (h : LadCounts n l) (hb : n.testBit i = false) (hx : x.length = 4096) :
    LadCounts (n + 2 ^ i) (tabPut [] i x l) := by
  intro j hj
  rw [testBit_add_two_pow hb]
  by_cases hji : j = i
  · simp [hji, hx]
  · simp [hji, tabGet_tabPut_ne, h j hj]

/-- Marking the occupied rung i empty takes its 2^i chunks off the count. -/
theorem vacate (h : LadCounts (n + 2 ^ i) l) (hb : n.testBit i = false) : LadCounts n (tabPut [] i [] l) := by
  intro j hj
  by_cases hji : j = i
  · simp [hji, hb]
  · simp [hji, tabGet_tabPut_ne, h j hj, testBit_add_two_pow hb]

/-- A chunk that enters at rung i adds 2^i to the count: an occupied rung passes its 2^i chunks on with it as a carry. -/
theorem enter (tag : SlotTag) (wrap : Bool) {m : Nat} {x : List Cell} (h : LadCounts n l) (hm : m + i = 12) (hn : n + 2 ^ i ≤ 4096)
    (hx : x.length = 4096) : LadCounts (n + 2 ^ i) (ladEnter tag wrap m i x l) := by
  induction m generalizing n i x l with
  | zero =>
    obtain rfl : i = 12 := by omega
    obtain rfl : n = 0 := by omega
    exact h.fill (Nat.zero_testBit 12) hx
  | succ m ih =>
    have rung := h.rung_nonempty_iff (i := i) (by omega)
    rw [ladEnter]
    split
    case h_1 free =>
      exact h.fill (by simpa [free] using rung) hx
    case h_2 occupied =>
      obtain ⟨r, rfl, hr⟩ := exists_add_two_pow (rung.mp (by simpa using occupied))
      have carry : r + 2 ^ i + 2 ^ i = r + 2 ^ (i + 1) := by omega
      have full : (tabGet [] i l).length = 4096 := by simp [h i (by omega), testBit_add_two_pow hr]
      rw [carry] at hn ⊢
      exact ih (h.vacate hr) (by omega) hn (by simp [full, hx])

/-- Chunk after chunk entered from rung 0, the ladder counts them. -/
theorem foldl_enter (tag : SlotTag) (wrap : Bool) (xs : List (List Cell)) (h : LadCounts n l) (hn : n + xs.length ≤ 4096)
    (hx : ∀ x ∈ xs, x.length = 4096) : LadCounts (n + xs.length) (xs.foldl (fun l x => ladEnter tag wrap 12 0 x l) l) := by
  induction xs generalizing n l with
  | nil => exact h
  | cons x xs ih =>
    rw [List.length_cons] at hn ⊢
    have entered : LadCounts (n + 1) (ladEnter tag wrap 12 0 x l) :=
      h.enter tag wrap (m := 12) (i := 0) rfl (by omega) (hx x List.mem_cons_self)
    rw [List.foldl_cons, show n + (xs.length + 1) = n + 1 + xs.length by omega]
    exact ih entered (by omega) fun y hy => hx y (List.mem_cons_of_mem x hy)

end LadCounts

/-- Settles O18, by induction over the chunks of the pass and, for each, over the rungs its carry passes. -/
theorem ladderCountsInBinary : Obligations.LadderCountsInBinary := by
  intro tag wrap xs hlen hx i hi
  have counts := ladCounts_zero.foldl_enter tag wrap xs (by omega) hx
  rw [counts.rung_nonempty_iff hi, Nat.zero_add, bit_eq_testBit]

end Sys2Proof.Machine
end

section
/-!
What an event leaves (R377): the sources, the messages sent and the books of the vectors apart, the device is as it was.
-/
namespace Sys2Proof.Machine.Dev

/-- `e` is `d` but for the sources, the messages sent and the books of the vectors (R377, R381). -/
def SameButSources (d e : Dev) : Prop := e = { d with srcs := e.srcs, out := e.out, pba := e.pba, undel := e.undel }

namespace SameButSources

variable {d e f : Dev}

theorem refl (d : Dev) : SameButSources d d := rfl

theorem trans (h : SameButSources d e) (h' : SameButSources e f) : SameButSources d f := by
  unfold SameButSources at *
  rw [h'.trans (congrArg (fun x : Dev => { x with srcs := f.srcs, out := f.out, pba := f.pba, undel := f.undel }) h)]

theorem of_vectors (h : SameButVectors d e) : SameButSources d e := by
  rw [h]
  rfl

theorem rd (h : SameButSources d e) (f : Fld) : e.rd f = d.rd f := by
  rw [h]
  rfl
theorem flag (h : SameButSources d e) (f : Fld) : e.flag f = d.flag f := by
  rw [h]
  rfl
theorem sfuPend (h : SameButSources d e) : e.sfuPend = d.sfuPend := by rw [h]
theorem sfuBuf (h : SameButSources d e) : e.sfuBuf = d.sfuBuf := by rw [h]
theorem mbq (h : SameButSources d e) : e.mbq = d.mbq := by rw [h]
theorem imgA (h : SameButSources d e) : e.imgA = d.imgA := by rw [h]
theorem imgB (h : SameButSources d e) : e.imgB = d.imgB := by rw [h]
theorem fwReady (h : SameButSources d e) : e.fwReady = d.fwReady := by rw [h]

end SameButSources

theorem setSrc_sources (n : Nat) (x : Src) (d : Dev) : SameButSources d (d.setSrc n x) := rfl
theorem emit_sources (e : Emit) (d : Dev) : SameButSources d (d.emit e) := rfl

theorem eligibleCount_sources (n k : Nat) (d : Dev) : SameButSources d (d.eligibleCount n k) :=
  .of_vectors (eligibleCount_frame n k d)

theorem offer_sources (n : Nat) (d : Dev) : SameButSources d (d.offer n) := by
  unfold offer
  dsimp only
  split <;> rfl

/-- An arrival keeps to the sources, whatever state its source is in (Table IC-2). -/
theorem srcArrive_sources (n : Nat) (d : Dev) : SameButSources d (d.srcArrive n) := by
  simp only [srcArrive]
  split
  · rfl
  · split
    · exact (setSrc_sources n _ d).trans ((eligibleCount_sources n 1 _).trans (offer_sources n _))
    · exact (setSrc_sources n _ d).trans (eligibleCount_sources n 1 _)
    · split <;> rfl

theorem irqEvent_sources (n : Nat) (d : Dev) : SameButSources d (d.irqEvent n) := by
  unfold irqEvent
  split
  · rfl
  · exact (setSrc_sources n _ d).trans (srcArrive_sources n _)

end Sys2Proof.Machine.Dev
end

section
/-!
The microprogram images (R142, R143): a mailbox's answer, a piece of an image at each stage of its transfer, and the installation.
-/
namespace Sys2Proof.Machine.Dev

variable {d : Dev}

/-! An answer without words (R411): mailbox 0 shows it in MGT_MBSTAT, another sends it. -/

theorem mbReply_nil (mb code : Nat) (d : Dev) :
    d.mbReply mb code [] = irqEvent 0 (if mb = 0 then
      (((d.clrF Reg.MGT_MBSTAT_BUSY).setF Reg.MGT_MBSTAT_DONE).wr Reg.MGT_MBSTAT_RESULT code).wr Reg.MGT_MBSTAT_RLEN 0
    else d.emit (.reply mb code [])) := rfl

theorem rd_mbReply_nil {f : Fld} (h : f.addr ≠ Reg.MGT_MBSTAT) (hl : f.lo < 64) (mb code : Nat) (d : Dev) :
    (d.mbReply mb code []).rd f = d.rd f := by
  have ne (g : Fld) (hg : g.addr = Reg.MGT_MBSTAT) (hgl : g.lo < 64) : f.key ≠ g.key := by
    rw [← hg] at h
    simp only [Fld.key]
    omega
  rw [mbReply_nil, rd_irqEvent]
  split
  · rw [rd_wr_ne _ _ _ _ (ne _ rfl (by decide)), rd_wr_ne _ _ _ _ (ne _ rfl (by decide)), rd_setF_ne (ne _ rfl (by decide)),
      rd_clrF_ne (ne _ rfl (by decide))]
  · rfl

theorem sfuPend_mbReply_nil (mb code : Nat) (d : Dev) : (d.mbReply mb code []).sfuPend = d.sfuPend := by
  rw [mbReply_nil, (irqEvent_sources 0 _).sfuPend]
  split <;> rfl

theorem sfuBuf_mbReply_nil (mb code : Nat) (d : Dev) : (d.mbReply mb code []).sfuBuf = d.sfuBuf := by
  rw [mbReply_nil, (irqEvent_sources 0 _).sfuBuf]
  split <;> rfl

/-! A piece of an image while the island serves SFUIMG (R142). -/

/-- What has arrived of an image once a piece is added at its offset. -/
def sfuWhole (d : Dev) (off : Nat) (piece : List Byte) : List Byte := (if off = 0 then [] else d.sfuBuf) ++ piece

/-- An image is whole once its header, body and signature have arrived (R143). -/
def ImageWhole (b : List Byte) : Prop := 64 ≤ b.length ∧ 64 + byteField b 16 4 + 96 ≤ b.length

/-- The island is up and serves SFUIMG (R410, R413). -/
def SfuServed (d : Dev) : Prop :=
  (d.flag Reg.MGT_LOCK_P0UP = true ∨ d.flag Reg.MGT_LOCK_P1UP = true) ∧ d.mbServes 0x11 = true

/-- A piece of at most a page, at the start or where the last one ended (R142). -/
def SfuFits (d : Dev) (off : Nat) (piece : List Byte) : Prop := piece.length ≤ 4096 ∧ (off = 0 ∨ off = d.sfuBuf.length)

section piece

variable {off : Nat} {piece : List Byte} (mb : Nat)

theorem sfuImg_unfit (hs : SfuServed d) (hf : ¬ SfuFits d off piece) : d.sfuImg mb off piece = d.mbReply mb 2 [] := by
  obtain ⟨hup, hs⟩ := hs
  rw [sfuImg, if_pos hup, mbSfuImg, if_neg (by simp [hs]), if_pos]
  unfold SfuFits at hf
  omega

/-- A piece that fits is added; an image that is whole by it is checked, and refused or accepted. -/
theorem sfuImg_fits (hs : SfuServed d) (hf : SfuFits d off piece) :
    d.sfuImg mb off piece =
      if (d.sfuWhole off piece).length < 64 ∨ (d.sfuWhole off piece).length < 64 + byteField (d.sfuWhole off piece) 16 4 + 96 then
        { d with sfuBuf := d.sfuWhole off piece }.mbReply mb 0 []
      else if d.imageBad (d.sfuWhole off piece) then { d with sfuBuf := [] }.imageRefused.mbReply mb 3 []
      else ({ d with sfuBuf := [] }.imageAccept (d.sfuWhole off piece)).mbReply mb 0 [] := by
  obtain ⟨hup, hs⟩ := hs
  rw [sfuImg, if_pos hup, mbSfuImg, if_neg (by simp [hs]), if_neg]
  · rfl
  · unfold SfuFits at hf
    omega

theorem sfuImg_partial (hs : SfuServed d) (hf : SfuFits d off piece) (hw : ¬ ImageWhole (d.sfuWhole off piece)) :
    d.sfuImg mb off piece = { d with sfuBuf := d.sfuWhole off piece }.mbReply mb 0 [] := by
  rw [sfuImg_fits mb hs hf, if_pos]
  unfold ImageWhole at hw
  omega

theorem sfuImg_refused (hs : SfuServed d) (hf : SfuFits d off piece) (hw : ImageWhole (d.sfuWhole off piece))
    (hb : d.imageBad (d.sfuWhole off piece) = true) :
    d.sfuImg mb off piece = { d with sfuBuf := [] }.imageRefused.mbReply mb 3 [] := by
  unfold ImageWhole at hw
  rw [sfuImg_fits mb hs hf, if_neg (by omega), if_pos hb]

theorem sfuImg_accepted (hs : SfuServed d) (hf : SfuFits d off piece) (hw : ImageWhole (d.sfuWhole off piece))
    (hb : d.imageBad (d.sfuWhole off piece) = false) :
    d.sfuImg mb off piece = ({ d with sfuBuf := [] }.imageAccept (d.sfuWhole off piece)).mbReply mb 0 [] := by
  unfold ImageWhole at hw
  rw [sfuImg_fits mb hs hf, if_neg (by omega), if_neg (by simp [hb])]

end piece

/-- An accepted image stops the intake until it is installed (R143). -/
theorem rd_imageAccept_enable (b : List Byte) (d : Dev) : (d.imageAccept b).rd Reg.JNL_CTL_EN = 0 := rd_intakeStop_enable d 1

/-! The installation (R143). -/

/-- Word n of the map of functions that an image defines (R142). -/
def fnMask (b : List Byte) (n : Nat) : Nat :=
  ((List.range (byteField b 22 2)).map fun i =>
    if (byteField b 20 2 + i) / 64 = n then 2 ^ ((byteField b 20 2 + i) % 64) else 0).sum

/-- One core's part of an installation. -/
def installCore (b : List Byte) (d : Dev) (c : Nat) : Dev :=
  ((d.wr (Reg.SFU_SETID_SETID c) (byteField b 8 8)).wr (Reg.SFU_FNMAP_DEF c 2) (fnMask b 2)).wr (Reg.SFU_FNMAP_DEF c 3) (fnMask b 3)

/-- With an image pending and every accepted command ended, every core takes the image and the intake resumes. -/
theorem microprogramInstall_quiet (hp : d.sfuPend ≠ []) (hq : d.jnlQuiet = true) :
    d.microprogramInstall =
      { (List.range 144).foldl (installCore d.sfuPend) d with
        sfuSet := d.sfuPend.take (64 + byteField d.sfuPend 16 4), sfuPend := [] }.intakeResume 1 :=
  if_neg (by simp [hp, hq])

theorem microprogramInstall_waits (h : d.sfuPend = [] ∨ d.jnlQuiet = false) : d.microprogramInstall = d :=
  if_pos (by simpa using h)

theorem rd_images (installed pending : List Byte) (f : Fld) (d : Dev) :
    ({ d with sfuSet := installed, sfuPend := pending } : Dev).rd f = d.rd f := rfl

theorem sfuPend_intakeResume (i : Nat) (d : Dev) : (d.intakeResume i).sfuPend = d.sfuPend := by
  simp only [intakeResume]
  split <;> rfl

theorem sfuSet_intakeResume (i : Nat) (d : Dev) : (d.intakeResume i).sfuSet = d.sfuSet := by
  simp only [intakeResume]
  split <;> rfl

theorem setId_key_ne_fnMap (c k : Nat) {n : Nat} (h : n < 4) : (Reg.SFU_SETID_SETID c).key ≠ (Reg.SFU_FNMAP_DEF k n).key := by
  simp only [Fld.key, Reg.SFU_SETID_SETID, Reg.SFU_SETID, Reg.SFU_FNMAP_DEF, Reg.SFU_FNMAP]
  omega

theorem setId_key_inj {c k : Nat} (h : c ≠ k) : (Reg.SFU_SETID_SETID c).key ≠ (Reg.SFU_SETID_SETID k).key := by
  simp only [Fld.key, Reg.SFU_SETID_SETID, Reg.SFU_SETID]
  omega

theorem leNat_lt (b : List Byte) : leNat b < 256 ^ b.length := by
  induction b with
  | nil => decide
  | cons x b ih =>
    have hx := x.isLt
    simp only [leNat, List.length_cons, Nat.pow_succ]
    omega

theorem byteField_lt (b : List Byte) (lo n : Nat) : byteField b lo n < 256 ^ n :=
  (leNat_lt _).trans_le (Nat.pow_le_pow_right (by decide) (List.length_take_le n _))

theorem rd_setId_installCore (b : List Byte) (d : Dev) (c k : Nat) :
    (installCore b d k).rd (Reg.SFU_SETID_SETID c) = if c = k then byteField b 8 8 else d.rd (Reg.SFU_SETID_SETID c) := by
  rw [installCore, rd_wr_ne _ _ _ _ (setId_key_ne_fnMap c k (by decide)), rd_wr_ne _ _ _ _ (setId_key_ne_fnMap c k (by decide))]
  split
  · next h =>
    subst h
    rw [rd_wr_same]
    exact Nat.mod_eq_of_lt (byteField_lt b 8 8)
  · next h => exact rd_wr_ne _ _ _ _ (setId_key_inj h)

/-- Every core reached by the installation shows the image's set number. -/
theorem rd_setId_foldl_installCore (b : List Byte) (l : List Nat) (d : Dev) (c : Nat) :
    (l.foldl (installCore b) d).rd (Reg.SFU_SETID_SETID c) = if c ∈ l then byteField b 8 8 else d.rd (Reg.SFU_SETID_SETID c) := by
  induction l generalizing d with
  | nil => rfl
  | cons k l ih =>
    rw [List.foldl_cons, ih, rd_setId_installCore]
    by_cases hl : c ∈ l <;> by_cases hk : c = k <;> simp [hl, hk]

theorem rd_setId_microprogramInstall (hp : d.sfuPend ≠ []) (hq : d.jnlQuiet = true) {c : Nat} (hc : c < 144) :
    d.microprogramInstall.rd (Reg.SFU_SETID_SETID c) = byteField d.sfuPend 8 8 := by
  have ne : (Reg.SFU_SETID_SETID c).key ≠ Reg.JNL_CTL_EN.key := by
    simp only [Fld.key, Reg.SFU_SETID_SETID, Reg.SFU_SETID, Reg.JNL_CTL_EN, Reg.JNL_CTL]
    omega
  rw [microprogramInstall_quiet hp hq, rd_intakeResume_ne 1 ne]
  rw [rd_images, rd_setId_foldl_installCore, if_pos (List.mem_range.mpr hc)]

end Sys2Proof.Machine.Dev
end

section
/-!
The lockstep pairs (R409, R410): a mismatch takes its pair out of service and no other, and a pair that returns is in service.
-/
namespace Sys2Proof.Machine.Dev

variable {d : Dev} {m : Nat}

theorem pairUp_width (m : Nat) : (pairUp m).width = 1 := by
  unfold pairUp
  split <;> rfl

theorem pairUp_other_key_ne (m : Fin 2) : (pairUp (1 - m)).key ≠ (pairUp m).key := by
  revert m
  decide

/-- The count of a pair's mismatches. -/
def mismFld (m : Nat) : Fld := if m = 0 then Reg.MGT_LOCK_MISM0 else Reg.MGT_LOCK_MISM1

theorem pairUp_key_ne_mismFld (k m : Nat) : (pairUp k).key ≠ (mismFld m).key := by
  unfold pairUp mismFld
  split <;> split <;> decide

/-- Offering sources anew keeps to the sources (R384, R409). -/
theorem reoffer_sources (m : Nat) (d : Dev) : SameButSources d (d.reoffer m) := by
  unfold reoffer
  refine foldl_keeps (SameButSources d) _ _ d rfl fun e n he => ?_
  dsimp only
  split
  · exact he.trans rfl
  · exact he

theorem lockstepMismatch_down (h : d.flag (pairUp m) = false) : d.lockstepMismatch m = d := if_pos (by simp [h])

/-- The sources apart, a mismatch of a pair in service counts and takes the pair out. -/
theorem lockstepMismatch_sources (h : d.flag (pairUp m) = true) :
    SameButSources ((d.incSat (mismFld m) 1).clrF (pairUp m)) (d.lockstepMismatch m) := by
  have counted (x : Dev) : SameButSources x (if x.flag (pairUp (1 - m)) then x.reoffer m else x) := by
    split
    · exact reoffer_sources m x
    · rfl
  rw [lockstepMismatch, if_neg (by simp [h])]
  exact (counted _).trans (irqEvent_sources 1 _)

theorem raw_lockstepMismatch (h : d.flag (pairUp m) = true) : ((d.lockstepMismatch m).src 1).raw = true := by
  rw [lockstepMismatch, if_neg (by simp [h])]
  exact raw_irqEvent rfl _

theorem pairReturn_up (h : d.flag (pairUp m) = true) : d.pairReturn m = d := if_pos h

theorem with_mbq_nil (h : d.mbq = []) : ({ d with mbq := [] } : Dev) = d := by rw [← h]

/-- The sources apart, a return with no command waiting puts the pair in service. -/
theorem pairReturn_sources (h : d.flag (pairUp m) = false) (hq : d.mbq = []) : SameButSources (d.setF (pairUp m)) (d.pairReturn m) := by
  rw [pairReturn, if_neg (by simp [h])]
  have offered : SameButSources (d.setF (pairUp m))
      (if (d.setF (pairUp m)).flag (pairUp (1 - m)) then d.setF (pairUp m) else (d.setF (pairUp m)).reoffer (1 - m)) := by
    split
    · rfl
    · exact reoffer_sources _ _
  have empty := offered.mbq.trans hq
  dsimp only
  rw [empty, with_mbq_nil empty]
  exact offered.trans (irqEvent_sources 2 _)

theorem raw_pairReturn (h : d.flag (pairUp m) = false) : ((d.pairReturn m).src 2).raw = true := by
  rw [pairReturn, if_neg (by simp [h])]
  exact raw_irqEvent rfl _

end Sys2Proof.Machine.Dev
end

section
/-!
Firmware updates and the other PLDM types (R429, R430): what each answers, and which image an update and an activation change.
-/
namespace Sys2Proof.Machine.Dev

variable {d : Dev}

theorem firmwareUpdate_refused {i : FwImg} {whole : Bool} (h : whole = false ∨ d.imgValid i = false) :
    d.firmwareUpdate (.firmware i) whole = (d.pldmReply 205 false []).irqEvent 13 := by
  simp only [firmwareUpdate]
  rw [if_pos (by simpa using h)]

/-- The image that does not run takes the firmware. -/
def takeFirmware (i : FwImg) (d : Dev) : Dev :=
  if d.flag Reg.MGT_BOOT_RUN then { d with imgA := i, fwReady := true } else { d with imgB := i, fwReady := true }

theorem firmwareUpdate_valid {i : FwImg} (h : d.imgValid i = true) :
    d.firmwareUpdate (.firmware i) true = ((d.takeFirmware i).pldmReply 205 true []).irqEvent 13 := by
  simp only [firmwareUpdate, takeFirmware]
  rw [if_neg (by simp [h])]
  cases d.flag Reg.MGT_BOOT_RUN <;> rfl

theorem firmwareUpdate_microprograms {b : List Byte} (h : d.imageBad b = false) :
    d.firmwareUpdate (.microprograms b) true = ({ d with sfuCand := b }.pldmReply 205 true []).irqEvent 13 := by
  simp only [firmwareUpdate]
  rw [if_neg (by simp [h])]

/-- A PLDM success and its event keep to the sources. -/
theorem answered_sources (chan n : Nat) (b : List Byte) (d : Dev) : SameButSources d ((d.pldmReply chan true b).irqEvent n) :=
  (emit_sources _ d).trans (irqEvent_sources n _)

theorem activateFirmware_refused {selfContained : Bool} (h : selfContained = true ∨ (d.fwReady = false ∧ d.sfuCand = [])) :
    d.activateFirmware selfContained = d.pldmReply 205 false [] := by
  rw [activateFirmware, if_pos (by simpa using h)]

theorem activateFirmware_firmware (hr : d.fwReady = true) (hc : d.sfuCand = []) :
    d.activateFirmware false =
      ({ d.wr Reg.MGT_BOOT_SEL (1 - d.rd Reg.MGT_BOOT_RUN) with fwReady := false }.pldmReply 205 true []).irqEvent 13 := by
  rw [activateFirmware, if_neg (by simp [hr])]
  simp only [hr, if_true]
  rw [if_pos]
  exact hc

/-- An activation selects the image that does not run. -/
theorem flag_select_other (h : d.rd Reg.MGT_BOOT_RUN ≤ 1) :
    (d.wr Reg.MGT_BOOT_SEL (1 - d.rd Reg.MGT_BOOT_RUN)).flag Reg.MGT_BOOT_SEL = !(d.flag Reg.MGT_BOOT_RUN) := by
  rw [flag, flag, rd_wr_same]
  generalize d.rd Reg.MGT_BOOT_RUN = run at h
  interval_cases run <;> rfl

theorem pldmMonitor_serves (h : d.flag Reg.MGT_BOOT_RECOV = false) (x : PldmSensor) :
    d.pldmMonitor x = d.emit (.reply 202 0 (leBytes 8 (d.pldmValue x))) := if_neg (by simp [h])

theorem pldmBase_types (h : d.flag Reg.MGT_BOOT_RECOV = false) : d.pldmBase 4 = d.emit (.reply 200 0 (leBytes 8 0x25)) :=
  if_neg (by simp [h])

theorem pldmBase_other (h : d.flag Reg.MGT_BOOT_RECOV = false) {cmd : Nat} (hc : cmd ≠ 4) :
    d.pldmBase cmd = d.fresh.2.emit (.reply 200 0 (leBytes 8 d.fresh.1)) := by
  rw [pldmBase, if_neg (by simp [h]), if_neg hc]
  rfl

end Sys2Proof.Machine.Dev
end

section
/-!
The host's side (R455 to R459) and the device's identity (R234): failed reads, the functions' enables, and RTE_ID while links train.
-/
namespace Sys2Proof.Machine.Dev

variable {d : Dev}

/-- The read of a host page that failed leaves the page's bytes as POISON and the host's memory alone. -/
theorem hostPoison_completionTimeout (e : HostEnd) (page : Nat) (d : Dev) :
    tabGet false page (d.completionTimeout e page).hostPoison = true := by
  cases e <;> exact tabGet_tabPut_same false true page d.hostPoison

theorem host_completionTimeout (e : HostEnd) (page : Nat) (d : Dev) : (d.completionTimeout e page).host = d.host := by
  cases e <;> rfl

theorem busMasterEnable_vf {fn : Nat} (h : fn ≠ 0) (on : Bool) (d : Dev) :
    d.busMasterEnable fn on = d.updPart (fn - 1) fun x => { x with bme := on } := if_neg h

/-- An update of several partitions changes a partition once for each time it is listed. -/
theorem part_foldl_updPart_of_notMem (f : Nat → Part → Part) {p : Nat} {l : List Nat} (h : p ∉ l) (d : Dev) :
    (l.foldl (fun (d : Dev) q => d.updPart q (f q)) d).part p = d.part p := by
  induction l generalizing d with
  | nil => rfl
  | cons q l ih =>
    obtain ⟨hq, hl⟩ := not_or.mp (List.mem_cons.not.mp h)
    rw [List.foldl_cons, ih hl, part_updPart_ne _ _ _ _ hq]

theorem part_foldl_updPart_of_mem (f : Nat → Part → Part) {p : Nat} {l : List Nat} (hn : l.Nodup) (h : p ∈ l) (d : Dev) :
    (l.foldl (fun (d : Dev) q => d.updPart q (f q)) d).part p = f p (d.part p) := by
  induction l generalizing d with
  | nil => cases h
  | cons q l ih =>
    obtain ⟨hq, hn⟩ := List.nodup_cons.mp hn
    rw [List.foldl_cons]
    obtain rfl | hl := List.mem_cons.mp h
    · rw [part_foldl_updPart_of_notMem f hq, part_updPart_same]
    · have hne : p ≠ q := fun h => hq (h ▸ hl)
      rw [ih hn hl, part_updPart_ne _ _ _ _ hne]

theorem part_vfEnable (on : Bool) (num : Nat) (p : Fin 8) (d : Dev) :
    (d.vfEnable on num).part p = { d.part p with vfOn := on && decide (p.val < num) } :=
  part_foldl_updPart_of_mem (fun p x => { x with vfOn := on && decide (p < num) }) List.nodup_range (List.mem_range.mpr p.isLt) d

/-! A link that begins to train leaves RTE_ID (R219, R236). -/

@[simp] theorem rd_updLink (l : Nat) (g : Link → Link) (f : Fld) (d : Dev) : (d.updLink l g).rd f = d.rd f := rfl

/-- A field of RTE_ID: its number or its valid bit. -/
def RteIdField (f : Fld) : Prop := f = Reg.RTE_ID_DEV ∨ f = Reg.RTE_ID_VALID

theorem RteIdField.key_ne_done {f : Fld} (h : RteIdField f) : f.key ≠ Reg.RTE_RESHAPE_DONE.key := by
  obtain rfl | rfl := h <;> decide

theorem RteIdField.key_ne_state {f : Fld} (h : RteIdField f) (l : Nat) : f.key ≠ (Reg.LNK_STAT_STATE l).key := by
  obtain rfl | rfl := h <;>
    simp only [Fld.key, Reg.RTE_ID_DEV, Reg.RTE_ID_VALID, Reg.RTE_ID, Reg.LNK_STAT_STATE, Reg.LNK_STAT] <;> omega

theorem RteIdField.key_ne_nbrValid {f : Fld} (h : RteIdField f) (l : Nat) : f.key ≠ (Reg.LNK_NBR_VALID l).key := by
  obtain rfl | rfl := h <;>
    simp only [Fld.key, Reg.RTE_ID_DEV, Reg.RTE_ID_VALID, Reg.RTE_ID, Reg.LNK_NBR_VALID, Reg.LNK_NBR] <;> omega

section identity

variable {f : Fld} (h : RteIdField f) (l : Nat)
include h

theorem rd_reshapeCheck_id (d : Dev) : d.reshapeCheck.rd f = d.rd f := by
  unfold reshapeCheck
  split
  · exact rd_setF_ne h.key_ne_done
  · rfl

theorem rd_lkGo_id (st : Nat) (d : Dev) : (d.lkGo l st).rd f = d.rd f := by
  unfold lkGo
  split
  · rfl
  · rw [rd_reshapeCheck_id h, lkIrq, rd_irqEvent, rd_wr_ne _ _ _ _ (h.key_ne_state l)]

theorem rd_tryTrain_id (d : Dev) : (d.tryTrain l).rd f = d.rd f := by
  unfold tryTrain
  split
  · rw [lkTrain, rd_lkGo_id h, rd_clrF_ne (h.key_ne_nbrValid l), rd_updLink]
  · rfl

end identity

/-- RTE_ID as a request leaves it before any link trains: the old one while a link is out of DOWN and the number is another. -/
def idTaken (dev : Nat) (d : Dev) : Dev :=
  if ((List.range 32).any fun l => d.lkState l ≠ lkDOWN) ∧ dev ≠ d.rd Reg.RTE_ID_DEV then d
  else (d.wr Reg.RTE_ID_DEV dev).wr Reg.RTE_ID_VALID 1

theorem rd_rteId {f : Fld} (h : RteIdField f) (dev : Nat) (d : Dev) : (d.rteId dev true).rd f = (d.idTaken dev).rd f := by
  change Dev.rd (if (d.idTaken dev).flag Reg.RTE_ID_VALID then _ else d.idTaken dev) f = _
  split
  · refine foldl_keeps (fun e : Dev => e.rd f = (d.idTaken dev).rd f) _ _ _ rfl fun e l he => ?_
    split
    · exact he
    · rw [rd_tryTrain_id h, he]
  · rfl

theorem idTaken_ignored {dev : Nat} (hb : ∃ l, l < 32 ∧ d.lkState l ≠ lkDOWN) (hd : dev ≠ d.rd Reg.RTE_ID_DEV) :
    d.idTaken dev = d :=
  if_pos ⟨by simpa using hb, hd⟩

theorem idTaken_down (h : ∀ l, l < 32 → d.lkState l = lkDOWN) (dev : Nat) :
    d.idTaken dev = (d.wr Reg.RTE_ID_DEV dev).wr Reg.RTE_ID_VALID 1 :=
  if_neg (by simpa using fun l hl hne => absurd (h l hl) hne)

end Sys2Proof.Machine.Dev
end

section
/-!
Images, firmware, pairs and the host's side (O58): each clause by the rule of its operation.
-/
namespace Sys2Proof.Machine

/-! Each event is its command's whole effect. -/

theorem completes_sfuimg (s : State) (mb : Fin 3) (off : Nat) (piece : List Byte) :
    Completes (.sfuimg mb off piece) s (s.dev.sfuImg mb off piece) := rfl
theorem completes_microprogramInstall (s : State) : Completes .microprogramInstall s s.dev.microprogramInstall := rfl
theorem completes_lockstepMismatch (s : State) (m : Fin 2) : Completes (.lockstepMismatch m) s (s.dev.lockstepMismatch m) := rfl
theorem completes_pairReturn (s : State) (m : Fin 2) : Completes (.pairReturn m) s (s.dev.pairReturn m) := rfl
theorem completes_firmwareUpdate (s : State) (x : FwComp) (whole : Bool) :
    Completes (.firmwareUpdate x whole) s (s.dev.firmwareUpdate x whole) := rfl
theorem completes_activateFirmware (s : State) (self : Bool) : Completes (.activateFirmware self) s (s.dev.activateFirmware self) := rfl
theorem completes_pldmPlatformMonitoring (s : State) (x : PldmSensor) :
    Completes (.pldmPlatformMonitoring x) s (s.dev.pldmMonitor x) := rfl
theorem completes_pldmBaseDiscovery (s : State) (cmd : BitVec 8) : Completes (.pldmBaseDiscovery cmd) s (s.dev.pldmBase cmd.toNat) := rfl
theorem completes_completionTimeout (s : State) (e : HostEnd) (page : BitVec 52) :
    Completes (.completionTimeout e page) s (s.dev.completionTimeout e page.toNat) := rfl
theorem completes_atsInvalidation (s : State) (fn : Fin 9) : Completes (.atsInvalidation fn) s (s.dev.atsInvalidation fn) := rfl
theorem completes_poisonedTlp (s : State) (addr : BitVec 28) : Completes (.poisonedTlp addr) s (s.dev.poisonedTlp addr.toNat) := rfl
theorem completes_busMasterEnable (s : State) (fn : Fin 9) (on : Bool) :
    Completes (.busMasterEnable fn on) s (s.dev.busMasterEnable fn on) := rfl
theorem completes_vfEnable (s : State) (on : Bool) (num : BitVec 16) : Completes (.vfEnable on num) s (s.dev.vfEnable on num.toNat) := rfl
theorem completes_rteIdValid (s : State) (dev : BitVec 20) : Completes (.rteIdValid dev) s (s.dev.rteId dev.toNat true) := rfl

open Dev

/-- An accepted image is held for its installation and acceptance is stopped (R143). -/
theorem sfuimg_accepted {s : State} {off : Nat} {piece : List Byte} (mb : Fin 3) (hs : SfuServed s.dev) (hf : SfuFits s.dev off piece)
    (hw : ImageWhole (s.dev.sfuWhole off piece)) (hb : s.dev.imageBad (s.dev.sfuWhole off piece) = false) :
    ∃ d, Completes (.sfuimg mb off piece) s d ∧ d.sfuPend = s.dev.sfuWhole off piece ∧ d.sfuBuf = [] ∧
      d.flag Reg.JNL_CTL_EN = false := by
  refine ⟨_, (completes_sfuimg s mb off piece).congr (sfuImg_accepted mb hs hf hw hb),
    sfuPend_mbReply_nil .., sfuBuf_mbReply_nil .., ?_⟩
  rw [flag, rd_mbReply_nil (by decide) (by decide), rd_imageAccept_enable]
  rfl

/-- An installation takes the pending image into every core at once (R143). -/
theorem microprogramInstall_installs {s : State} (hp : s.dev.sfuPend ≠ []) (hq : s.dev.jnlQuiet = true) (c : Nat) :
    ∃ d, Completes .microprogramInstall s d ∧ d.sfuPend = [] ∧
      d.sfuSet = s.dev.sfuPend.take (64 + byteField s.dev.sfuPend 16 4) ∧
      (c < 144 → d.rd (Reg.SFU_SETID_SETID c) = byteField s.dev.sfuPend 8 8) := by
  refine ⟨_, completes_microprogramInstall s, ?_, ?_, rd_setId_microprogramInstall hp hq⟩
  · rw [microprogramInstall_quiet hp hq, sfuPend_intakeResume]
  · rw [microprogramInstall_quiet hp hq, sfuSet_intakeResume]

/-- A mismatch takes its pair out of service and leaves the other as it was (R409). -/
theorem lockstepMismatch_stops {s : State} {m : Fin 2} (h : s.dev.flag (pairUp m) = true) :
    ∃ d, Completes (.lockstepMismatch m) s d ∧ d.flag (pairUp m) = false ∧
      d.flag (pairUp (1 - m : Nat)) = s.dev.flag (pairUp (1 - m : Nat)) ∧ (d.src 1).raw = true := by
  have same := lockstepMismatch_sources h
  refine ⟨_, completes_lockstepMismatch s m, ?_, ?_, raw_lockstepMismatch h⟩
  · rw [same.flag, flag, rd_clrF_same]
    rfl
  · rw [same.flag, flag, rd_clrF_ne (pairUp_other_key_ne m), incSat, rd_wr_ne _ _ _ _ (pairUp_key_ne_mismFld _ m)]
    rfl

theorem pairReturn_serves {s : State} {m : Fin 2} (h : s.dev.flag (pairUp m) = false) (hq : s.dev.mbq = []) :
    ∃ d, Completes (.pairReturn m) s d ∧ d.flag (pairUp m) = true ∧ (d.src 2).raw = true := by
  refine ⟨_, completes_pairReturn s m, ?_, raw_pairReturn h⟩
  rw [(pairReturn_sources h hq).flag, flag, rd_setF_same (pairUp_width m)]
  rfl

/-- A firmware that passes the checks goes to the image that does not run (R430). -/
theorem firmwareUpdate_ready {s : State} {i : FwImg} (h : s.dev.imgValid i = true) :
    ∃ d, Completes (.firmwareUpdate (.firmware i) true) s d ∧ d.fwReady = true ∧
      (if s.dev.flag Reg.MGT_BOOT_RUN then d.imgA = i ∧ d.imgB = s.dev.imgB else d.imgB = i ∧ d.imgA = s.dev.imgA) := by
  refine ⟨_, (completes_firmwareUpdate s _ _).congr (firmwareUpdate_valid h), ?_⟩
  have same := answered_sources 205 13 [] (s.dev.takeFirmware i)
  rw [same.fwReady, same.imgA, same.imgB, takeFirmware]
  split <;> exact ⟨rfl, rfl, rfl⟩

/-- Its activation selects that image for the next boot and leaves the one that runs (R430). -/
theorem activateFirmware_selects {s : State} (hr : s.dev.fwReady = true) (hc : s.dev.sfuCand = [])
    (hrun : s.dev.rd Reg.MGT_BOOT_RUN ≤ 1) :
    ∃ d, Completes (.activateFirmware false) s d ∧ d.fwReady = false ∧
      (d.flag Reg.MGT_BOOT_SEL = !(s.dev.flag Reg.MGT_BOOT_RUN)) ∧ d.flag Reg.MGT_BOOT_RUN = s.dev.flag Reg.MGT_BOOT_RUN := by
  refine ⟨_, (completes_activateFirmware s false).congr (activateFirmware_firmware hr hc), ?_⟩
  have same := answered_sources 205 13 []
    { s.dev.wr Reg.MGT_BOOT_SEL (1 - s.dev.rd Reg.MGT_BOOT_RUN) with fwReady := false }
  refine ⟨same.fwReady, (same.flag _).trans (flag_select_other hrun), (same.flag _).trans ?_⟩
  exact congrArg (fun v => decide (v = 1)) (rd_wr_ne s.dev Reg.MGT_BOOT_SEL Reg.MGT_BOOT_RUN _ (by decide))

/-- While a link is out of DOWN the device keeps its number (R234). -/
theorem rteIdValid_ignored {s : State} {dev : BitVec 20} (hb : ∃ l, l < 32 ∧ s.dev.lkState l ≠ lkDOWN)
    (hd : dev.toNat ≠ s.dev.rd Reg.RTE_ID_DEV) :
    ∃ d, Completes (.rteIdValid dev) s d ∧ d.rd Reg.RTE_ID_DEV = s.dev.rd Reg.RTE_ID_DEV :=
  ⟨_, completes_rteIdValid s dev, by rw [rd_rteId (.inl rfl), idTaken_ignored hb hd]⟩

/-- With every link in DOWN the device takes the number, which stands while links begin to train (R234, R236). -/
theorem rteIdValid_taken {s : State} (h : ∀ l, l < 32 → s.dev.lkState l = lkDOWN) (dev : BitVec 20) :
    ∃ d, Completes (.rteIdValid dev) s d ∧ d.rd Reg.RTE_ID_DEV = dev.toNat ∧ d.flag Reg.RTE_ID_VALID = true := by
  refine ⟨_, completes_rteIdValid s dev, ?_, ?_⟩
  · rw [rd_rteId (.inl rfl), idTaken_down h, rd_wr_ne _ _ _ _ (by decide), rd_wr_same]
    exact Nat.mod_eq_of_lt dev.isLt
  · rw [flag, rd_rteId (.inr rfl), idTaken_down h, rd_wr_same]
    rfl

/-- Settles O58: a rule for each operation, with the frame of its event for what it leaves. -/
theorem firmwarePairsAndHostLink : Obligations.FirmwarePairsAndHostLink := by
  refine ⟨fun s mb m off piece i id self whole sensor cmd c => ⟨fun hs hf => ?_, fun hs hf hw => ?_, fun hs hf hw hb => ?_,
    sfuimg_accepted mb, fun h => ?_, fun hp hq => microprogramInstall_installs hp hq c, fun h => ?_, lockstepMismatch_stops,
    fun h => ?_, pairReturn_serves, fun h => ?_, firmwareUpdate_ready, fun h => ?_, completes_firmwareUpdate s _ _, fun h => ?_,
    activateFirmware_selects, fun h => ?_, fun h => ⟨?_, ?_⟩, ⟨rfl, rfl⟩, fun h hc => ?_, fun h hc => ?_⟩,
    fun s e page fn addr on num p dev => ⟨
      ⟨_, completes_completionTimeout s e page, hostPoison_completionTimeout .., host_completionTimeout ..⟩,
      completes_completionTimeout s _ page, completes_completionTimeout s _ page, completes_completionTimeout s _ page,
      fun h => ?_, fun h => ?_, completes_poisonedTlp s addr, fun h => ?_, fun h => ?_, ?_, rteIdValid_ignored,
      fun h => rteIdValid_taken h dev⟩⟩
  · exact (completes_sfuimg s mb off piece).congr (sfuImg_unfit mb hs hf)
  · exact (completes_sfuimg s mb off piece).congr (sfuImg_partial mb hs hf hw)
  · exact (completes_sfuimg s mb off piece).congr (sfuImg_refused mb hs hf hw hb)
  · exact (completes_microprogramInstall s).congr (microprogramInstall_waits h)
  · exact (completes_lockstepMismatch s m).congr (lockstepMismatch_down h)
  · exact (completes_pairReturn s m).congr (pairReturn_up h)
  · exact (completes_firmwareUpdate s _ whole).congr (firmwareUpdate_refused h)
  · exact (completes_firmwareUpdate s _ true).congr (firmwareUpdate_microprograms h)
  · exact (completes_activateFirmware s self).congr (activateFirmware_refused h)
  · exact (completes_pldmPlatformMonitoring s sensor).congr (pldmMonitor_serves h sensor)
  · exact (completes_pldmPlatformMonitoring s sensor).congr (if_pos h)
  · exact (completes_pldmBaseDiscovery s cmd).congr (if_pos h)
  · subst hc
    exact (completes_pldmBaseDiscovery s 4).congr (pldmBase_types h)
  · exact (completes_pldmBaseDiscovery s cmd).congr (pldmBase_other h fun e => hc (BitVec.eq_of_toNat_eq e))
  · exact (completes_atsInvalidation s fn).congr (if_neg (by simp [h]))
  · exact (completes_atsInvalidation s fn).congr (if_pos h)
  · exact (completes_busMasterEnable s fn on).congr (if_pos (congrArg Fin.val h))
  · exact (completes_busMasterEnable s fn on).congr (busMasterEnable_vf (Fin.val_ne_of_ne h) on s.dev)
  · exact ⟨_, completes_vfEnable s on num, by rw [part_vfEnable], by rw [part_vfEnable]⟩

end Sys2Proof.Machine
end

section
/-!
Hall passes (R162, R163, R174): what each instruction comes to by who holds the pass, the grant to the first waiter, and HP_CTL.
-/
namespace Sys2Proof.Machine

namespace Dev

variable {d : Dev} {c p k m j r : Nat} {g : Guard} {rd : BitVec 5} {n : BitVec 6} {h : HallPass} {l : List Nat}

/-! Passes and cores, each read after an update of the other. -/

@[simp] theorem pass_setPass_same (d : Dev) (p m : Nat) (h : HallPass) : (d.setPass p m h).pass p m = h := tabGet_tabPut_same _ _ _ _
@[simp] theorem pass_updCore (d : Dev) (c : Nat) (f : Core → Core) (p m : Nat) : (d.updCore c f).pass p m = d.pass p m := rfl
@[simp] theorem pass_retire (d : Dev) (c len p m : Nat) : (d.retire c len).pass p m = d.pass p m := rfl

/-- The completion of an instruction moves its core's address, slot, loops and loop counters alone (R57, R58). -/
theorem core_retire_frame (d : Dev) (c len : Nat) :
    (d.retire c len).core c = { d.core c with
      pc := ((d.retire c len).core c).pc, slot := ((d.retire c len).core c).slot,
      loops := ((d.retire c len).core c).loops, lc := ((d.retire c len).core c).lc } := by
  rw [retire, core_updCore_same]
  split
  · split <;> rfl
  · split
    · dsimp only
      split
      · split <;> rfl
      · rfl
    · rfl

@[simp] theorem obj_retire (d : Dev) (c len : Nat) : ((d.retire c len).core c).obj = (d.core c).obj :=
  (congrArg Core.obj (core_retire_frame d c len)).trans rfl

@[simp] theorem sr_retire (d : Dev) (c len r : Nat) : ((d.retire c len).core c).sr r = (d.core c).sr r :=
  (congrArg (fun x : Core => x.sr r) (core_retire_frame d c len)).trans rfl

/-- A sequencer that waits for a pass or a roll call takes no instruction (R155). -/
theorem seqReady_of_obj {o : ObjWait} (h : (d.core c).obj = some o) : d.seqReady c = false := by simp [seqReady, h]

/-! Who holds a pass (R162), and when it may go to another core (R163). -/

/-- Core c holds the pass, at the epoch at which it took it. -/
def HoldsPass (d : Dev) (p c : Nat) (h : HallPass) : Prop := h.held = true ∧ d.orphaned p h = false ∧ h.owner = d.localNo p c

/-- The pass is free or orphaned. -/
def Grantable (d : Dev) (p : Nat) (h : HallPass) : Prop := h.held = false ∨ d.orphaned p h = true

theorem Grantable.not_holdsPass (hg : Grantable d p h) (c : Nat) : ¬ HoldsPass d p c h := by
  rintro ⟨hheld, horph, -⟩
  simp [Grantable, hheld, horph] at hg

theorem not_grantable (hheld : h.held = true) (horph : d.orphaned p h = false) : ¬ Grantable d p h := by
  simp [Grantable, hheld, horph]

theorem orphaned_of_mark (hheld : h.held = true) (hmark : h.mark = true) : d.orphaned p h = true := by
  simp [orphaned, hheld, hmark]

/-! The instructions and the commands. -/

theorem hpAcq_holds (ht : Takes d c g) (hm : HoldsPass d (d.partOf c) c (d.pass (d.partOf c) n.toNat)) :
    d.hpAcq c g rd n = (d.updCore c fun x => x.setSr rd.toNat 2).retire c 8 := by
  obtain ⟨hheld, horph, howner⟩ := hm
  rw [hpAcq]
  exact scalar_done ht (by simp [hheld, horph, howner])

theorem hpAcq_takes (ht : Takes d c g) (hw : (d.pass (d.partOf c) n.toNat).waiters = [])
    (hg : Grantable d (d.partOf c) (d.pass (d.partOf c) n.toNat)) :
    d.hpAcq c g rd n = (d.passTake (d.partOf c) n.toNat c rd.toNat).retire c 8 := by
  have hm := hg.not_holdsPass c
  simp only [HoldsPass, Grantable, ← Bool.not_eq_true] at hm hg
  rw [hpAcq]
  exact scalar_done ht (by dsimp only; rw [if_neg hm, if_pos ⟨by simp [hw], hg⟩])

/-- A core that another holder keeps from the pass goes behind those that wait already. -/
theorem hpAcq_waits (ht : Takes d c g) (hm : ¬ HoldsPass d (d.partOf c) c (d.pass (d.partOf c) n.toNat))
    (hg : ¬ Grantable d (d.partOf c) (d.pass (d.partOf c) n.toNat)) :
    d.hpAcq c g rd n = (d.setPass (d.partOf c) n.toNat { d.pass (d.partOf c) n.toNat with
        waiters := (d.pass (d.partOf c) n.toNat).waiters ++ [c] }).updCore c fun x => { x with
        obj := some (.hallPass n.toNat rd.toNat),
        stallWord := mkWord 0 false 0x74 g (rd.toNat * 2 ^ 44 + n.toNat * 2 ^ 38) } := by
  simp only [HoldsPass, Grantable, ← Bool.not_eq_true] at hm hg
  rw [hpAcq]
  exact scalar_jumped ht (by dsimp only; rw [if_neg hm, if_neg fun ⟨_, h⟩ => hg h])

/-- The device once the pass has gone to its first waiter k, with its status in register r, and `l` wait on. -/
def grantedTo (d : Dev) (p m k r : Nat) (l : List Nat) : Dev :=
  (((d.passTake p m k r).setPass p m { (d.passTake p m k r).pass p m with waiters := l }).updCore k fun x =>
    { x with obj := none }).retire k 8

theorem hallPassGrant_serves (hw : (d.pass p m).waiters = k :: l) (ho : (d.core k).obj = some (.hallPass j r))
    (hg : Grantable d p (d.pass p m)) : d.hallPassGrant p m = d.grantedTo p m k r l := by
  simp only [Grantable, ← Bool.not_eq_true] at hg
  simp only [hallPassGrant, hw, ho, if_pos hg, grantedTo]

theorem hallPassGrant_waits (hw : (d.pass p m).waiters = k :: l) (ho : (d.core k).obj = some (.hallPass j r))
    (hg : ¬ Grantable d p (d.pass p m)) : d.hallPassGrant p m = d := by
  simp only [Grantable, ← Bool.not_eq_true] at hg
  simp only [hallPassGrant, hw, ho, if_neg hg]

theorem pass_grantedTo (d : Dev) (p m k r : Nat) (l : List Nat) :
    (d.grantedTo p m k r l).pass p m = ⟨true, d.localNo p k, d.epochOf k, false, l⟩ := by
  simp [grantedTo, passTake]

theorem obj_grantedTo (d : Dev) (p m k r : Nat) (l : List Nat) : ((d.grantedTo p m k r l).core k).obj = none := by
  simp [grantedTo]

theorem sr_grantedTo (d : Dev) (p m k r : Nat) (l : List Nat) :
    ((d.grantedTo p m k r l).core k).sr r = if (d.pass p m).held then 1 else 0 := by
  simp only [grantedTo, sr_retire, core_updCore_same, core_setPass, passTake]
  exact tabGet_tabPut_same _ _ _ _

theorem hpRel_holds (ht : Takes d c g) (hc : d.coreWideReady c = true)
    (hm : HoldsPass d (d.partOf c) c (d.pass (d.partOf c) n.toNat)) :
    d.hpRel c g n = (d.setPass (d.partOf c) n.toNat { d.pass (d.partOf c) n.toNat with
      held := false, owner := 0, epoch := 0, mark := false }).retire c 8 := by
  obtain ⟨hheld, horph, howner⟩ := hm
  rw [hpRel]
  exact scalar_done ht (by simp [hc, hheld, horph, howner])

theorem hpRel_other (ht : Takes d c g) (hc : d.coreWideReady c = true)
    (hm : ¬ HoldsPass d (d.partOf c) c (d.pass (d.partOf c) n.toNat)) :
    d.hpRel c g n = d.seqFault c (mkWord 0 false 0x75 g (n.toNat * 2 ^ 43)) 0 { cause := cOPERAND } := by
  simp only [HoldsPass, ← Bool.not_eq_true] at hm
  rw [hpRel]
  exact scalar_fault ht (by dsimp only; rw [if_neg (by simp [hc]), if_pos (by tauto)])

/-- A release waits for all that its core dispatched before it (R155). -/
theorem hpRel_waits (ht : Takes d c g) (hc : d.coreWideReady c = false) : d.hpRel c g n = d := by
  rw [hpRel, scalar_takes _ _ _ (by rwa [wLong_mkWord_short]), if_pos (by simp [hc])]

theorem hpFree_held (hh : (d.pass (d.partOf c) m).held = true) :
    d.hpFree c m = d.setPass (d.partOf c) m { d.pass (d.partOf c) m with held := false, owner := 0, epoch := 0, mark := false } :=
  if_pos hh

theorem hpMark_held (hh : (d.pass (d.partOf c) m).held = true) :
    d.hpMark c m = d.setPass (d.partOf c) m { d.pass (d.partOf c) m with owner := 0xFF, mark := true } :=
  if_pos hh

end Dev

theorem completes_hpAcq (s : State) (c : CoreNo) (g : Guard) (rd : BitVec 5) (n : BitVec 6) :
    Completes (.hpAcq c g rd n) s (s.dev.hpAcq c g rd n) := rfl
theorem completes_hallPassGrant (s : State) (p : PartNo) (m : Fin 64) :
    Completes (.hallPassGrant p m) s (s.dev.hallPassGrant p m) := rfl
theorem completes_hpRel (s : State) (c : CoreNo) (g : Guard) (n : BitVec 6) :
    Completes (.hpRel c g n) s (s.dev.hpRel c g n) := rfl
theorem completes_hpFree (s : State) (c : CoreNo) (m : Fin 64) : Completes (.hpFree c m) s (s.dev.hpFree c m) := rfl
theorem completes_hpMark (s : State) (c : CoreNo) (m : Fin 64) : Completes (.hpMarkOrphaned c m) s (s.dev.hpMark c m) := rfl

open Dev in
/-- Settles O28: an equation per case of each instruction, by whether the core holds the pass and whether it may go to another. -/
theorem hallPassesServeInOrder : Obligations.HallPassesServeInOrder := by
  refine fun s c g rd n => ⟨fun ht hm => ?recursive, fun ht hw hg => ?taken, fun ht hheld horph howner => ?queued,
    fun p m k r j l hw _ ho => ⟨fun hg => ?served, fun hheld horph => ?kept⟩, fun ht hc hm => ?released, fun ht hc hm => ?notMine,
    fun ht hc => ?waits, fun m hh => ⟨?freed, ?marked⟩⟩
  case recursive => exact (completes_hpAcq s c g rd n).congr (hpAcq_holds ht hm)
  case taken => exact (completes_hpAcq s c g rd n).congr (hpAcq_takes ht hw hg)
  case queued =>
    have hwait := hpAcq_waits (rd := rd) ht (fun hm => howner hm.2.2) (not_grantable hheld horph)
    refine ⟨_, (completes_hpAcq s c g rd n).congr hwait, ?_, ?_, ?_, ?_⟩
    · rw [pass_updCore, pass_setPass_same]
    · rw [core_updCore_same]
    · rw [core_updCore_same, core_setPass]
    · exact seqReady_of_obj (by rw [core_updCore_same])
  case served =>
    exact ⟨_, (completes_hallPassGrant s p m).congr (hallPassGrant_serves hw ho hg), pass_grantedTo .., obj_grantedTo ..,
      fun _ => sr_grantedTo ..⟩
  case kept =>
    exact (completes_hallPassGrant s p m).congr (hallPassGrant_waits hw ho (not_grantable hheld horph))
  case released => exact (completes_hpRel s c g n).congr (hpRel_holds ht hc hm)
  case notMine => exact (completes_hpRel s c g n).congr (hpRel_other ht hc hm)
  case waits => exact (completes_hpRel s c g n).congr (hpRel_waits ht hc)
  case freed => exact (completes_hpFree s c m).congr (hpFree_held hh)
  case marked =>
    refine ⟨_, (completes_hpMark s c m).congr (hpMark_held hh), ?_, ?_⟩
    · rw [pass_setPass_same]
      exact orphaned_of_mark hh rfl
    · rw [pass_setPass_same]

end Sys2Proof.Machine
end

section
/-!
What an error record (R365) and a fault (R64 to R67) leave: every register field that is none of those that they write.
-/
namespace Sys2Proof.Machine

/-- A field of a core's window. -/
def CoreField (f : Fld) : Prop := 0x1000000 ≤ f.addr

/-- The fields of an exception record and of the trap unit, written when engine e of core c faults (R64, R65). Reducible, so that a
membership proved through the list stands for the name. -/
abbrev faultFields (c e : Nat) : List Fld :=
  [Reg.EXR_CAUSE_CAUSE c e, Reg.EXR_CAUSE_SUB c e, Reg.EXR_CAUSE_DS c e, Reg.EXR_CAUSE_LEND c e, Reg.EXR_CAUSE_LDEPTH c e,
    Reg.EXR_CAUSE_STATION c e, Reg.EXR_CAUSE_PVALID c e, Reg.EXR_CAUSE_ASPACE c e, Reg.EXR_PC_VAL c e, Reg.EXR_INSN_VAL c e,
    Reg.EXR_EXT_VAL c e, Reg.EXR_ADDR_VAL c e, Reg.EXR_PROG_VAL c e, Reg.EXR_MODE_VAL c e, Reg.EXR_CAUSE_VALID c e,
    Reg.SQ_TRAP_PEND c, Reg.SQ_TRAP_INTRAP c, Reg.SQ_TRAP_TRET c]

/-- The field is none of those that a trace record changes (R201, R437). -/
structure TraceLeaves (f : Fld) : Prop where
  sectors : ∀ k, f.key ≠ (Reg.HBM_UECNT_UE k).key
  tail : ∀ p, f.key ≠ (Reg.PD_TRC_TAIL p).key

/-- The field is none of those that a fault of engine e of core c changes. -/
structure FaultLeaves (c e : Nat) (f : Fld) : Prop extends TraceLeaves f where
  record : ∀ g ∈ faultFields c e, f.key ≠ g.key

theorem faultLeaves_fence (c : Nat) {e : Nat} (_ : e < 4) : FaultLeaves c e (Reg.SY_WDCFG_FENCE c) where
  sectors k := by
    simp only [Fld.key, Reg.SY_WDCFG_FENCE, Reg.SY_WDCFG, Reg.HBM_UECNT_UE, Reg.HBM_UECNT]
    omega
  tail p := by
    simp only [Fld.key, Reg.SY_WDCFG_FENCE, Reg.SY_WDCFG, Reg.PD_TRC_TAIL, Reg.PD_TRC]
    omega
  record := by
    simp only [faultFields, List.forall_mem_cons, List.not_mem_nil, false_implies, implies_true, and_true, Fld.key, Reg.SY_WDCFG_FENCE,
      Reg.SY_WDCFG, Reg.EXR_CAUSE_CAUSE, Reg.EXR_CAUSE_SUB, Reg.EXR_CAUSE_DS, Reg.EXR_CAUSE_LEND, Reg.EXR_CAUSE_LDEPTH,
      Reg.EXR_CAUSE_STATION, Reg.EXR_CAUSE_PVALID, Reg.EXR_CAUSE_ASPACE, Reg.EXR_PC_VAL, Reg.EXR_INSN_VAL, Reg.EXR_EXT_VAL,
      Reg.EXR_ADDR_VAL, Reg.EXR_PROG_VAL, Reg.EXR_MODE_VAL, Reg.EXR_CAUSE_VALID, Reg.SQ_TRAP_PEND, Reg.SQ_TRAP_INTRAP,
      Reg.SQ_TRAP_TRET, Reg.EXR_CAUSE, Reg.EXR_PC, Reg.EXR_INSN, Reg.EXR_EXT, Reg.EXR_ADDR, Reg.EXR_PROG, Reg.EXR_MODE, Reg.SQ_TRAP]
    omega

namespace Dev

variable {f : Fld} {b c e : Nat}

@[simp] theorem rd_retire (d : Dev) (c len : Nat) (f : Fld) : (d.retire c len).rd f = d.rd f := rfl
@[simp] theorem rd_updEng (d : Dev) (c e : Nat) (g : Eng → Eng) (f : Fld) : (d.updEng c e g).rd f = d.rd f := rfl
@[simp] theorem rd_alertPin (d : Dev) (f : Fld) : d.alertPin.rd f = d.rd f := rfl

/-! The banks of error records lie below the cores' windows. -/

section bank
variable (hf : CoreField f) (hb : b < 64)
include hf hb

theorem rd_wr_bank {g : Fld} (hg : g.addr < 0x51000 + 0x80 * (b + 1)) (hl : g.lo < 64) (v : Nat) (d : Dev) :
    (d.wr g v).rd f = d.rd f := by
  refine rd_wr_ne _ _ _ _ ?_
  simp only [CoreField] at hf
  simp only [Fld.key]
  omega

theorem rd_setPrim (w0 w1 w2 w3 : Nat) (d : Dev) : (d.setPrim b w0 w1 w2 w3).rd f = d.rd f := by
  have word (w : Nat) (hw : w < 4) := rd_wr_bank (g := Reg.ERR_P_WORD b w) hf hb (by simp only [Reg.ERR_P_WORD, Reg.ERR_P]; omega)
    (Nat.two_pow_pos 6)
  simp [setPrim, word]

theorem rd_setPend (w0 w1 w2 w3 : Nat) (d : Dev) : (d.setPend b w0 w1 w2 w3).rd f = d.rd f := by
  have word (w : Nat) (hw : w < 4) := rd_wr_bank (g := Reg.ERR_Q_WORD b w) hf hb (by simp only [Reg.ERR_Q_WORD, Reg.ERR_Q]; omega)
    (Nat.two_pow_pos 6)
  simp [setPend, word]

theorem rd_wr_errStat {lo width : Nat} {ty : FTy} {reset : Nat} (hl : lo < 64) (v : Nat) (d : Dev) :
    (d.wr ⟨Reg.ERR_STAT b, lo, width, ty, reset⟩ v).rd f = d.rd f :=
  rd_wr_bank hf hb (by simp only [Reg.ERR_STAT]; omega) hl v d

theorem rd_escalate (d : Dev) : (d.escalate b).rd f = d.rd f := by
  rw [escalate, rd_alertPin, rd_irqEvent]
  exact rd_wr_errStat hf hb (by decide) 1 d

theorem rd_bankDrop (d : Dev) : (d.bankDrop b).rd f = d.rd f := by
  have counted : (d.incSat (Reg.ERR_STAT_OVF b) 1).rd f = d.rd f := rd_wr_errStat hf hb (by decide) _ d
  simp only [bankDrop]
  split
  · rw [rd_escalate hf hb, counted]
  · exact counted

theorem rd_becomePrim (w0 w1 w2 w3 : Nat) (d : Dev) : (d.becomePrim b w0 w1 w2 w3).rd f = d.rd f := by
  simp only [becomePrim, rd_alertPin, rd_irqEvent]
  exact rd_setPrim hf hb w0 w1 w2 w3 d

theorem rd_bankArrive (w0 w1 w2 w3 : Nat) (d : Dev) : (d.bankArrive b w0 w1 w2 w3).rd f = d.rd f := by
  have preempts (e : Dev) : (e.setF (Reg.ERR_STAT_PREEMPT b)).rd f = e.rd f := rd_wr_errStat hf hb (by decide) 1 e
  simp only [bankArrive]
  split
  · exact rd_becomePrim hf hb ..
  · split
    · split <;> simp only [rd_bankDrop hf hb, preempts, rd_becomePrim hf hb, rd_setPend hf hb]
    · split
      · exact rd_setPend hf hb ..
      · exact rd_bankDrop hf hb d

theorem rd_err (a : ErrArgs) (d : Dev) : (d.err b a).rd f = d.rd f := rd_bankArrive hf hb ..

end bank

/-! A trace record moves its region's tail, and counts the sectors that a stack cannot take. -/

section trace
variable (hf : TraceLeaves f)
include hf

theorem rd_hbmWrite (pa : Nat) (bs : List Byte) (d : Dev) : (d.hbmWrite pa bs).rd f = d.rd f :=
  foldl_keeps (fun x : Dev => x.rd f = d.rd f) _ _ d rfl fun x _ hx => (rd_wr_ne x _ f _ (hf.sectors _)).trans hx

theorem rd_trcPut (p : Nat) (bs : List Byte) (d : Dev) : (d.trcPut p bs).rd f = d.rd f := by
  rw [trcPut, rd_wr_ne _ _ _ _ (hf.tail p), rd_hbmWrite hf]

theorem rd_trcFlush (n p : Nat) (d : Dev) : (trcFlush n p d).rd f = d.rd f := by
  induction n generalizing d with
  | zero => rfl
  | succ n ih =>
    simp only [trcFlush]
    split
    · rfl
    · split
      · rw [ih, rd_trcPut hf, rd_setPart]
      · split
        · rfl
        · rw [rd_trcPut hf, rd_setPart]

theorem rd_trace (p die evt src lcore : Nat) (r : JRec) (data : Nat) (d : Dev) :
    (d.trace p die evt src lcore r data).rd f = d.rd f := by
  simp only [trace]
  split
  · rfl
  · split
    · rfl
    · rw [rd_trcFlush hf, rd_setPart]

theorem rd_traceEng (c e evt data : Nat) (d : Dev) : (d.traceEng c e evt data).rd f = d.rd f := by
  simp only [traceEng]
  split
  · rfl
  · exact rd_trace hf ..

end trace

/-! What a fault does beside its record reaches no register. -/

@[simp] theorem rd_jrOutcome (g : Option Nat) (o : Nat × Nat × Nat) (d : Dev) (f : Fld) : (d.jrOutcome g o).rd f = d.rd f := by
  simp only [jrOutcome]
  split
  · split <;> rfl
  · rfl

@[simp] theorem rd_failPart (c cause : Nat) (d : Dev) (f : Fld) : (d.failPart c cause).rd f = d.rd f := by
  rw [failPart, rd_jrOutcome, rd_updCore]

@[simp] theorem rd_faultIrq (c : Nat) (d : Dev) (f : Fld) : (d.faultIrq c).rd f = d.rd f := rd_irqEvent ..

@[simp] theorem rd_noTrap (c cause : Nat) (d : Dev) (f : Fld) : (d.noTrap c cause).rd f = d.rd f := by
  simp only [noTrap]
  split <;> simp

@[simp] theorem rd_failStop (c cause : Nat) (d : Dev) (f : Fld) : (d.failStop c cause).rd f = d.rd f := by
  rw [failStop, rd_failPart, rd_faultIrq, rd_updCore]

section fault
variable (hf : FaultLeaves c e f)
include hf

theorem rd_wr_fault {g : Fld} (hg : g ∈ faultFields c e) (v : Nat) (d : Dev) : (d.wr g v).rd f = d.rd f :=
  rd_wr_ne _ _ _ _ (hf.record g hg)

theorem rd_fillRec (pc : BitVec 48) (w ext : Word) (ds lend : Bool) (a : FArgs) (d : Dev) :
    (d.fillRec c e pc w ext ds lend a).rd f = d.rd f := by
  simp (disch := simp [faultFields]) only [fillRec, setValid, rd_traceEng hf.toTraceLeaves, rd_wr_fault hf]

theorem rd_engFault (a : FArgs) (d : Dev) : (d.engFault c e a).rd f = d.rd f := by
  simp only [engFault]
  split
  · rfl
  · split
    · simp only [rd_noTrap, rd_updEng, rd_fillRec hf]
    · split <;> simp only [rd_failStop, rd_updEng, rd_fillRec hf]

theorem rd_enterTrap (tret : BitVec 48) (d : Dev) : (d.enterTrap c tret).rd f = d.rd f := by
  simp (disch := simp [faultFields]) only [enterTrap, rd_updCore, setF, rd_wr_fault hf]

end fault

theorem rd_seqFault (hf : FaultLeaves c 0 f) (w ext : Word) (a : FArgs) (d : Dev) : (d.seqFault c w ext a).rd f = d.rd f := by
  simp only [seqFault]
  split
  · rw [rd_failStop, rd_fillRec hf]
  · split
    · rw [rd_enterTrap hf, rd_fillRec hf]
    · rw [rd_updCore, rd_noTrap, rd_fillRec hf]

end Dev
end Sys2Proof.Machine
end

section
/-!
Roll calls (R155, R165 to R168, R174): the registers of a roll call after a release at its home, and what each instruction, packet and
command comes to.
-/
namespace Sys2Proof.Machine

namespace Dev

variable {d : Dev} {c h k m p gen : Nat} {g : Guard} {n : BitVec 5} {f : Fld} {pkt : Pkt}

theorem partOf_le (d : Dev) (c : Nat) : d.partOf c ≤ 8 := by
  rw [partOf, coreOwner]
  cases ho : (List.range 8).find? fun p => bit (d.part p).cores c with
  | none => exact Nat.le_refl 8
  | some p => exact (List.mem_range.mp (List.mem_of_find?_eq_some ho)).le

/-! Handing an operation to a stream writes no register. -/

theorem sealPkt_regs (k : Nat) (p : Pkt) (d : Dev) : (d.sealPkt k p).2.regs = d.regs := by
  simp only [sealPkt]
  split <;> rfl

theorem sendOp_regs (k ptype : Nat) (flg : Bool) (owner : OpOwner) (addr frbase frlog : Nat) (l : List (Nat × List Byte)) (d : Dev) :
    (d.sendOp k ptype flg owner addr frbase frlog l).regs = d.regs :=
  foldl_keeps (fun x : Dev => x.regs = d.regs) _ _ _ rfl fun x _ hx => (sealPkt_regs k _ x).trans hx

@[simp] theorem rd_sendOp (k ptype : Nat) (flg : Bool) (owner : OpOwner) (addr frbase frlog : Nat) (l : List (Nat × List Byte))
    (d : Dev) (f : Fld) : (d.sendOp k ptype flg owner addr frbase frlog l).rd f = d.rd f := by
  rw [rd, sendOp_regs, ← rd]

/-! GEN, COUNT and ARRIVED of a roll call have places of their own (R174). -/

theorem key_count_ne_gen {h m c n : Nat} : (Reg.RC_STAT_COUNT h m).key ≠ (Reg.RC_STAT_GEN c n).key := by
  simp only [Fld.key, Reg.RC_STAT_COUNT, Reg.RC_STAT_GEN]
  omega

theorem key_count_ne_arrived {h m c n : Nat} : (Reg.RC_STAT_COUNT h m).key ≠ (Reg.RC_STAT_ARRIVED c n).key := by
  simp only [Fld.key, Reg.RC_STAT_COUNT, Reg.RC_STAT_ARRIVED]
  omega

theorem key_gen_ne_arrived {h m c n : Nat} : (Reg.RC_STAT_GEN h m).key ≠ (Reg.RC_STAT_ARRIVED c n).key := by
  simp only [Fld.key, Reg.RC_STAT_GEN, Reg.RC_STAT_ARRIVED]
  omega

theorem key_gen_ne_gen {h c : Nat} (hne : h ≠ c) (m : Nat) : (Reg.RC_STAT_GEN h m).key ≠ (Reg.RC_STAT_GEN c m).key := by
  simp only [Fld.key, Reg.RC_STAT_GEN, Reg.RC_STAT]
  omega

/-! A core's view of the generation (R166, R168). -/

theorem rd_rcWake (hf : f.key ≠ (Reg.RC_STAT_ARRIVED c m).key) (d : Dev) : (d.rcWake c m).rd f = d.rd f := by
  rw [rcWake]
  split
  · rw [rd_retire, rd_updCore, rd_clrF_ne hf]
  · rfl

theorem rd_rcSetGen (hg : f.key ≠ (Reg.RC_STAT_GEN c m).key) (ha : f.key ≠ (Reg.RC_STAT_ARRIVED c m).key) (gen : Nat) (d : Dev) :
    (d.rcSetGen c m gen).rd f = d.rd f := by
  rw [rcSetGen, rd_rcWake ha, rd_wr_ne _ _ _ _ hg]

theorem rcGen_rcSetGen (c m gen : Nat) (d : Dev) : (d.rcSetGen c m gen).rcGen c m = gen % 2 ^ 32 := by
  rw [rcGen, rcSetGen, rd_rcWake key_gen_ne_arrived, rd_wr_same]
  rfl

/-- A release of the generation that a core sees already leaves it. -/
theorem rcGen_rcSetGen_kept (hk : d.rcGen h m = gen % 2 ^ 32) (c : Nat) : (d.rcSetGen c m gen).rcGen h m = gen % 2 ^ 32 := by
  by_cases hc : h = c
  · rw [hc, rcGen_rcSetGen]
  · rw [rcGen, rd_rcSetGen (key_gen_ne_gen hc m) key_gen_ne_arrived]
    exact hk

theorem count_rcRelease (h p m gen : Nat) (d : Dev) :
    (d.rcRelease p m gen).rd (Reg.RC_STAT_COUNT h m) = d.rd (Reg.RC_STAT_COUNT h m) := by
  refine foldl_keeps (fun e : Dev => e.rd (Reg.RC_STAT_COUNT h m) = d.rd (Reg.RC_STAT_COUNT h m)) _ _ d rfl fun e c he => ?_
  split
  · rw [rd_rcSetGen key_count_ne_gen key_count_ne_arrived, he]
  · exact he

theorem rcGen_rcRelease (hk : d.rcGen h m = gen % 2 ^ 32) (p : Nat) : (d.rcRelease p m gen).rcGen h m = gen % 2 ^ 32 := by
  refine foldl_keeps (fun e : Dev => e.rcGen h m = gen % 2 ^ 32) _ _ d hk fun e c he => ?_
  split
  · exact rcGen_rcSetGen_kept he c
  · exact he

/-! The release at the home (R168). -/

/-- The home and this device's members as the release leaves them, before it is broadcast. -/
def released (d : Dev) (c m : Nat) (excess : Bool) : Dev :=
  (((if excess then d.setF (Reg.RC_STAT_OVER c m) else d).wr (Reg.RC_STAT_COUNT c m) 0).rcSetGen c m
    ((d.rcGen c m + 1) % 2 ^ 32)).rcRelease (d.partOf c) m ((d.rcGen c m + 1) % 2 ^ 32)

/-- The broadcast changes no register of a core. -/
theorem rd_rcFire (hf : CoreField f) (c m : Nat) (excess : Bool) (d : Dev) :
    (d.rcFire c m excess).rd f = (d.released c m excess).rd f := by
  have hb : 48 + d.partOf c < 64 := by have := d.partOf_le c; omega
  simp only [rcFire]
  rw [← released]
  split
  · rfl
  · split
    · exact rd_sendOp ..
    · exact rd_err hf hb ..

theorem count_rcFire (c m : Nat) (excess : Bool) (d : Dev) : (d.rcFire c m excess).rd (Reg.RC_STAT_COUNT c m) = 0 := by
  have hf : CoreField (Reg.RC_STAT_COUNT c m) := by simp only [CoreField, Reg.RC_STAT_COUNT, Reg.RC_STAT]; omega
  rw [rd_rcFire hf, released, count_rcRelease, rd_rcSetGen key_count_ne_gen key_count_ne_arrived, rd_wr_same]
  exact Nat.zero_mod _

theorem rcGen_rcFire (c m : Nat) (excess : Bool) (d : Dev) : (d.rcFire c m excess).rcGen c m = (d.rcGen c m + 1) % 2 ^ 32 := by
  have hf : CoreField (Reg.RC_STAT_GEN c m) := by simp only [CoreField, Reg.RC_STAT_GEN, Reg.RC_STAT]; omega
  rw [rcGen, rd_rcFire hf, released, ← rcGen, rcGen_rcRelease (rcGen_rcSetGen ..), Nat.mod_mod]

/-! Arrivals at the home (R167, R168). -/

theorem rcCount_stale (hk : gen ≠ d.rcGen h m) (k : Nat) : d.rcCount h m k gen = d := if_pos hk

theorem rcCount_adds (hk : gen = d.rcGen h m) (hs : d.rd (Reg.RC_STAT_COUNT h m) + k < d.rd (Reg.RC_CFG_EXPECT h m)) :
    d.rcCount h m k gen = d.wr (Reg.RC_STAT_COUNT h m) (d.rd (Reg.RC_STAT_COUNT h m) + k) :=
  (if_neg (not_not.mpr hk)).trans (if_pos hs)

theorem rcCount_fires (hk : gen = d.rcGen h m) (hs : d.rd (Reg.RC_CFG_EXPECT h m) ≤ d.rd (Reg.RC_STAT_COUNT h m) + k) :
    d.rcCount h m k gen = d.rcFire h m (decide (d.rd (Reg.RC_CFG_EXPECT h m) < d.rd (Reg.RC_STAT_COUNT h m) + k)) :=
  (if_neg (not_not.mpr hk)).trans (if_neg (Nat.not_lt.mpr hs))

theorem arrivalForward_home (hc : d.rcCarrier p m = some c) (hd : d.rd (Reg.RC_CFG_HDEV c m) = d.myDev)
    (hh : d.deviceNo p (d.rd (Reg.RC_CFG_HCORE c m)) = some h) :
    d.arrivalForward p m = (d.roll p m).held.foldl (fun (d : Dev) x => d.rcCount h m x.2 x.1) (d.setRoll p m ⟨[]⟩) := by
  have hd' : (d.setRoll p m ⟨[]⟩).rd (Reg.RC_CFG_HDEV c m) = (d.setRoll p m ⟨[]⟩).myDev := hd
  have hh' : (d.setRoll p m ⟨[]⟩).deviceNo p ((d.setRoll p m ⟨[]⟩).rd (Reg.RC_CFG_HCORE c m)) = some h := hh
  simp only [arrivalForward, hc, if_pos hd', hh']

/-! The instructions. -/

theorem rcArr_stranger (ht : Takes d c g) (hm : d.rcMember c n.toNat = false) :
    d.rcArr c g n = d.seqFault c (mkWord 0 false 0x76 g (n.toNat * 2 ^ 44)) 0 { cause := cOPERAND } := by
  rw [rcArr]
  exact scalar_fault ht (if_pos (by simp [hm]))

theorem rcArr_member (ht : Takes d c g) (hm : d.rcMember c n.toNat = true) (hw : d.coreWideReady c = true) :
    d.rcArr c g n = (((d.rcHold (d.partOf c) n.toNat 1 (d.rcGen c n.toNat)).setF (Reg.RC_STAT_ARRIVED c n.toNat)).updCore c fun x =>
      { x with rcRec := tabPut 0 n.toNat (d.rcGen c n.toNat) x.rcRec }).retire c 8 := by
  rw [rcArr]
  exact scalar_done ht (by simp [hm, hw])

theorem rcWait_stranger (ht : Takes d c g) (hm : d.rcMember c n.toNat = false) :
    d.rcWait c g n = d.seqFault c (mkWord 0 false 0x77 g (n.toNat * 2 ^ 44)) 0 { cause := cOPERAND } := by
  rw [rcWait]
  exact scalar_fault ht (if_pos (by simp [hm]))

section member
variable (ht : Takes d c g) (hm : d.rcMember c n.toNat = true)
include ht hm

theorem rcWait_noArrival (ha : d.flag (Reg.RC_STAT_ARRIVED c n.toNat) = false) : d.rcWait c g n = d.retire c 8 := by
  rw [rcWait]
  exact scalar_done ht (by simp [hm, ha])

theorem rcWait_released (ha : d.flag (Reg.RC_STAT_ARRIVED c n.toNat) = true)
    (hg : d.rcGen c n.toNat ≠ tabGet 0 n.toNat (d.core c).rcRec) :
    d.rcWait c g n = (d.clrF (Reg.RC_STAT_ARRIVED c n.toNat)).retire c 8 := by
  rw [rcWait]
  exact scalar_done ht (by simp [hm, ha, hg])

theorem rcWait_waits (ha : d.flag (Reg.RC_STAT_ARRIVED c n.toNat) = true)
    (hg : d.rcGen c n.toNat = tabGet 0 n.toNat (d.core c).rcRec) :
    d.rcWait c g n = d.updCore c fun x => { x with
      obj := some (.rollCall n.toNat), stallWord := mkWord 0 false 0x77 g (n.toNat * 2 ^ 44) } := by
  rw [rcWait]
  exact scalar_jumped ht (by simp [hm, ha, hg])

end member

/-! The packets (R167, R168, R246). -/

/-- The next packet of its context, flagged, is applied and acknowledged at once. -/
theorem takePkt_next_applied (hn : NextPkt d pkt) (hf : pkt.flg = true) (ue : Bool) :
    d.takePkt pkt ue = ((pktTaken pkt d).applyPkt pkt.dctx pkt ue).sendAck pkt.dctx := by
  have hlate : (pktTaken pkt d).pastDeadline pkt.deadline = false := by
    obtain ⟨-, -, -, -, -, -, -, hdead⟩ := hn
    exact hdead
  rw [takePkt_next_flagged hn hf, applyFlagged, if_neg (by simp [hlate])]

theorem rcArrPkt_next (ht : pkt.ptype = ptRCARR) (hf : pkt.flg = true) (hn : NextPkt d pkt) :
    d.rcArrPkt pkt = ((pktTaken pkt d).rcHold (d.ctx pkt.dctx).part (byteField pkt.payload 0 1 % 32) (byteField pkt.payload 4 4)
      (byteField pkt.payload 8 4)).sendAck pkt.dctx := by
  obtain ⟨-, -, hpart⟩ := pktTaken_ctx hn
  rw [rcArrPkt, onType, if_pos ht, takePkt_next_applied hn hf, ← hpart, applyPkt, ht]
  rfl

theorem rcRelPkt_next (ht : pkt.ptype = ptRCREL) (hf : pkt.flg = true) (hn : NextPkt d pkt) :
    d.rcRelPkt pkt = ((pktTaken pkt d).rcRelease (d.ctx pkt.dctx).part (byteField pkt.payload 0 1 % 32)
      (byteField pkt.payload 8 4)).sendAck pkt.dctx := by
  obtain ⟨-, -, hpart⟩ := pktTaken_ctx hn
  rw [rcRelPkt, onType, if_pos ht, takePkt_next_applied hn hf, ← hpart, applyPkt, ht]
  rfl

/-! Hand control (R174). -/

theorem releaseNow_home (hh : d.rcHome c m = true) : d.releaseNow c m = d.rcFire c m false := if_pos hh
theorem releaseNow_elsewhere (hh : d.rcHome c m = false) : d.releaseNow c m = d.hostErr (Reg.RC_CTL c) := if_neg (by simp [hh])
theorem countClear_home (hh : d.rcHome c m = true) : d.countClear c m = d.wr (Reg.RC_STAT_COUNT c m) 0 := if_pos hh
theorem countClear_elsewhere (hh : d.rcHome c m = false) : d.countClear c m = d.hostErr (Reg.RC_CTL c) := if_neg (by simp [hh])

end Dev

theorem completes_rcArr (s : State) (c : CoreNo) (g : Guard) (n : BitVec 5) : Completes (.rcArr c g n) s (s.dev.rcArr c g n) := rfl
theorem completes_rcWait (s : State) (c : CoreNo) (g : Guard) (n : BitVec 5) : Completes (.rcWait c g n) s (s.dev.rcWait c g n) := rfl
theorem completes_rcarr (s : State) (p : Pkt) : Completes (.rcarr p) s (s.dev.rcArrPkt p) := rfl
theorem completes_rcrel (s : State) (p : Pkt) : Completes (.rcrel p) s (s.dev.rcRelPkt p) := rfl
theorem completes_arrivalForward (s : State) (p : PartNo) (m : Fin 32) :
    Completes (.arrivalForward p m) s (s.dev.arrivalForward p m) := rfl
theorem completes_releaseNow (s : State) (c : CoreNo) (m : Fin 32) : Completes (.releaseNow c m) s (s.dev.releaseNow c m) := rfl
theorem completes_countClear (s : State) (c : CoreNo) (m : Fin 32) : Completes (.countClear c m) s (s.dev.countClear c m) := rfl
theorem completes_advanceGen (s : State) (c : CoreNo) (m : Fin 32) : Completes (.advanceGen c m) s (s.dev.advanceGen c m) := rfl

end Sys2Proof.Machine
end

section
/-!
Watchdogs (R170 to R172): the engine's, which takes it out of its wait, and the roll call's at its home.
-/
namespace Sys2Proof.Machine

namespace Dev

variable {d : Dev} {c e n : Nat}

theorem watchdog_idle (h : d.rd (Reg.SY_WDCFG_LIMIT c) = 0 ∨ d.stalling c e = false) : d.watchdog c e = d :=
  if_pos (by rcases h with h | h <;> simp [h])

@[simp] theorem rd_unstall (d : Dev) (c e : Nat) (f : Fld) : (d.unstall c e).rd f = d.rd f := by
  simp only [unstall, rd_updEng]
  split <;> split <;> rfl

/-- The engine taken out of its wait, and its watchdog fired. -/
def wdFired (d : Dev) (c e : Nat) : Dev :=
  (d.unstall c e).wr (Reg.SY_WDSTAT_FIRED c) (setBit ((d.unstall c e).rd (Reg.SY_WDSTAT_FIRED c)) e true)

/-- What the fault's record says: the cause, and the station that the engine waited for. -/
def wdArgs (d : Dev) (c e : Nat) : FArgs := { cause := cWATCHDOG, station := ((d.eng c e).stall.map fun k => k % 64).getD 0 }

theorem flag_fence_wdFired (d : Dev) (c e : Nat) : (d.wdFired c e).flag (Reg.SY_WDCFG_FENCE c) = d.flag (Reg.SY_WDCFG_FENCE c) := by
  have hne : (Reg.SY_WDCFG_FENCE c).key ≠ (Reg.SY_WDSTAT_FIRED c).key := by
    simp only [Fld.key, Reg.SY_WDCFG_FENCE, Reg.SY_WDSTAT_FIRED]
    omega
  rw [flag, wdFired, rd_wr_ne _ _ _ _ hne, rd_unstall, ← flag]

/-- The fault of a watchdog that fired. -/
def wdFault (d : Dev) (c e : Nat) : Dev :=
  if e = 0 then (d.wdFired c e).seqFault c (d.core c).stallWord 0 (d.wdArgs c e) else (d.wdFired c e).engFault c e (d.wdArgs c e)

theorem flag_fence_wdFault (he : e < 4) (d : Dev) : (d.wdFault c e).flag (Reg.SY_WDCFG_FENCE c) = d.flag (Reg.SY_WDCFG_FENCE c) := by
  rw [← flag_fence_wdFired d c e, wdFault, flag, flag]
  split
  · rw [rd_seqFault (faultLeaves_fence c (by decide))]
  · rw [rd_engFault (faultLeaves_fence c he)]

/-- A watchdog that does not fence its partition leaves the fault alone. -/
theorem watchdog_faults (hl : d.rd (Reg.SY_WDCFG_LIMIT c) ≠ 0) (hs : d.stalling c e = true) (hr : (d.eng c e).stopped = false)
    (hv : e ≠ 0 → d.valid c e = false) (he : e < 4) (hf : d.flag (Reg.SY_WDCFG_FENCE c) = false) : d.watchdog c e = d.wdFault c e := by
  have hreached : ¬ (d.rd (Reg.SY_WDCFG_LIMIT c) = 0 ∨ ¬ d.stalling c e = true ∨ (d.eng c e).stopped = true ∨
      (e ≠ 0 ∧ d.valid c e = true)) := by simpa [hl, hs, hr] using hv
  have hfence := (flag_fence_wdFault he d).trans hf
  simp only [wdFault, wdFired, wdArgs, rd_unstall] at hfence ⊢
  rw [watchdog, if_neg hreached]
  simp only [hfence]

theorem rollCallWatchdog_fires (hh : d.rcHome c n = true) (hl : d.rd (Reg.RC_NET_WDLIM c n) ≠ 0)
    (hk : d.rd (Reg.RC_STAT_COUNT c n) ≠ 0) :
    d.rollCallWatchdog c n =
      if d.flag (Reg.RC_NET_WDFENCE c n) then
        (d.setF (Reg.RC_STAT_WDFIRED c n)).quietPart (d.partOf c) 0x14 qMANUAL (n + 2 ^ 5 * d.rd (Reg.RC_CFG_HCORE c n))
          (d.rcGen c n + 2 ^ 32 * d.rd (Reg.RC_STAT_COUNT c n))
      else
        (d.setF (Reg.RC_STAT_WDFIRED c n)).err (48 + d.partOf c)
          { cls := 0x15, part := some (d.partOf c), info := n + 2 ^ 5 * d.rd (Reg.RC_CFG_HCORE c n),
            extra := d.rcGen c n + 2 ^ 32 * d.rd (Reg.RC_STAT_COUNT c n) } := by
  have hne : (Reg.RC_NET_WDFENCE c n).key ≠ (Reg.RC_STAT_WDFIRED c n).key := by
    simp only [Fld.key, Reg.RC_NET_WDFENCE, Reg.RC_STAT_WDFIRED]
    omega
  have hfence : (d.setF (Reg.RC_STAT_WDFIRED c n)).flag (Reg.RC_NET_WDFENCE c n) = d.flag (Reg.RC_NET_WDFENCE c n) := by
    rw [flag, rd_setF_ne hne, ← flag]
  rw [rollCallWatchdog, if_neg (by simp [hh, hl, hk])]
  simp only [hfence]

end Dev

theorem completes_watchdog (s : State) (c : CoreNo) (e : Fin 4) : Completes (.watchdog c e) s (s.dev.watchdog c e) := rfl
theorem completes_rollCallWatchdog (s : State) (c : CoreNo) (n : Fin 32) :
    Completes (.rollCallWatchdog c n) s (s.dev.rollCallWatchdog c n) := rfl

open Dev in
/-- Settles O29: an equation per case of each command; a release's registers from the frame of its broadcast, and a watchdog's fault
from the frame of faults, which leaves FENCE. -/
theorem rollCallsAndWatchdogs : Obligations.RollCallsAndWatchdogs := by
  refine ⟨fun s c g n m p pkt => ⟨fun ht hm => ⟨?arrStranger, ?waitStranger⟩, fun ht hm hw => ?arrives, fun ht hm ha => ?noArrival,
      fun ht hm ha => ⟨fun hg => ?released, fun hg => ?waits⟩, fun h hc hd hh => ?forward,
      fun d h k a => ⟨fun hk => ?stale, fun hk hs => ?adds, fun hk hs => ?fires⟩, fun ht hf hn => ?arrPacket,
      fun ht hf hn => ?relPacket, fun hh => ⟨?now, ?clear⟩, fun hh => ⟨?nowElsewhere, ?clearElsewhere⟩, ?advance⟩,
    fun s c e n => ⟨fun h => ?idle, fun hl hs hr hf => ⟨fun h0 => ?sequencer, fun h0 hv => ?engine⟩,
      fun hh hl hk => ⟨fun hf => ?recorded, fun hf => ?fenced⟩⟩⟩
  case arrStranger => exact (completes_rcArr s c g n).congr (rcArr_stranger ht hm)
  case waitStranger => exact (completes_rcWait s c g n).congr (rcWait_stranger ht hm)
  case arrives => exact (completes_rcArr s c g n).congr (rcArr_member ht hm hw)
  case noArrival => exact (completes_rcWait s c g n).congr (rcWait_noArrival ht hm ha)
  case released => exact (completes_rcWait s c g n).congr (rcWait_released ht hm ha hg)
  case waits =>
    exact ⟨_, (completes_rcWait s c g n).congr (rcWait_waits ht hm ha hg), by rw [core_updCore_same],
      seqReady_of_obj (by rw [core_updCore_same])⟩
  case forward => exact (completes_arrivalForward s p m).congr (arrivalForward_home hc hd hh)
  case stale => exact rcCount_stale hk k
  case adds => exact rcCount_adds hk hs
  case fires =>
    rw [rcCount_fires hk hs]
    exact ⟨count_rcFire .., rcGen_rcFire ..⟩
  case arrPacket => exact (completes_rcarr s pkt).congr (rcArrPkt_next ht hf hn)
  case relPacket => exact (completes_rcrel s pkt).congr (rcRelPkt_next ht hf hn)
  case now => exact (completes_releaseNow s c m).congr (releaseNow_home hh)
  case clear => exact (completes_countClear s c m).congr (countClear_home hh)
  case nowElsewhere => exact (completes_releaseNow s c m).congr (releaseNow_elsewhere hh)
  case clearElsewhere => exact (completes_countClear s c m).congr (countClear_elsewhere hh)
  case advance => exact ⟨_, completes_advanceGen s c m, rcGen_rcSetGen ..⟩
  case idle => exact (completes_watchdog s c e).congr (watchdog_idle h)
  case sequencer =>
    exact (completes_watchdog s c e).congr ((watchdog_faults hl hs hr (fun h => absurd (congrArg Fin.val h0) h) e.isLt hf).trans
      (if_pos (congrArg Fin.val h0)))
  case engine =>
    exact (completes_watchdog s c e).congr ((watchdog_faults hl hs hr (fun _ => hv) e.isLt hf).trans (if_neg (Fin.val_ne_of_ne h0)))
  case recorded => exact (completes_rollCallWatchdog s c n).congr ((rollCallWatchdog_fires hh hl hk).trans (if_neg (by simp [hf])))
  case fenced => exact (completes_rollCallWatchdog s c n).congr ((rollCallWatchdog_fires hh hl hk).trans (if_pos hf))

end Sys2Proof.Machine
end

section
/-!
The coded rows of a save (R186): a number's bytes and packed fields read back, the zero mask gives the columns of the coded
elements, and every element is its sign, exponent field and significand.
-/
namespace Sys2Proof.Machine

/-! A number's bytes (R31). -/

theorem pow_256 (n : Nat) : 256 ^ n = 2 ^ (8 * n) := (Nat.pow_mul 2 8 n).symm

theorem leNat_leBytes (n x : Nat) : leNat (leBytes n x) = x % 256 ^ n := by
  induction n generalizing x with
  | zero => simp [leBytes, leNat, Nat.mod_one]
  | succ n ih => rw [leBytes, leNat, ih, Nat.pow_succ', Nat.mod_mul, BitVec.toNat_ofNat]

theorem leNat_append (a b : List Byte) : leNat (a ++ b) = leNat a + 256 ^ a.length * leNat b := by
  induction a with
  | nil => simp [leNat]
  | cons x a ih =>
    rw [List.cons_append, leNat, ih, leNat, List.length_cons, Nat.pow_succ']
    ring

theorem leNat_drop (b : List Byte) (k : Nat) : leNat (b.drop k) = leNat b / 256 ^ k := by
  induction k generalizing b with
  | zero => simp
  | succ k ih =>
    cases b with
    | nil => simp [leNat]
    | cons x b =>
      have hx := x.isLt
      rw [List.drop_succ_cons, ih, leNat, Nat.pow_succ', ← Nat.div_div_eq_div_mul]
      congr 1
      omega

/-- An element field of at most four bytes is that field of the region as one little-endian number. -/
theorem elemAt_eq {w n : Nat} (h : n * w % 8 + w ≤ 32) (b : List Byte) : elemAt w b n = leNat b / 2 ^ (n * w) % 2 ^ w := by
  have hword (c : List Byte) : (c.getD 0 0).toNat + 256 * (c.getD 1 0).toNat + 65536 * (c.getD 2 0).toNat
      + 16777216 * (c.getD 3 0).toNat = leNat c % 2 ^ 32 := by
    match c with
    | [] => rfl
    | [_] | [_, _] | [_, _, _] | _ :: _ :: _ :: _ :: _ => simp [leNat]; omega
  have hplace : 2 ^ (n * w) = 256 ^ (n * w / 8) * 2 ^ (n * w % 8) := by
    rw [pow_256, ← Nat.pow_add, Nat.div_add_mod]
  have hb := hword (b.drop (n * w / 8))
  simp only [List.getD_eq_getElem?_getD, List.getElem?_drop, Nat.add_zero, leNat_drop] at hb
  simp only [elemAt, List.getD_eq_getElem?_getD, hb]
  rw [hplace, ← Nat.div_div_eq_div_mul, show 32 = n * w % 8 + (32 - n * w % 8) by omega, Nat.pow_add, Nat.mod_mul_right_div_self,
    Nat.mod_mod_of_dvd _ (Nat.pow_dvd_pow 2 (by omega))]

/-! Packed fields (R105). -/

theorem packElems_lt (w : Nat) (l : List Nat) : packElems w l < 2 ^ (l.length * w) := by
  induction l with
  | nil => simp [packElems]
  | cons x l ih =>
    have hx : x % 2 ^ w < 2 ^ w := Nat.mod_lt _ (Nat.two_pow_pos w)
    rw [packElems, List.length_cons, Nat.add_mul, Nat.one_mul, Nat.add_comm (l.length * w), Nat.pow_add]
    calc x % 2 ^ w + 2 ^ w * packElems w l < 2 ^ w * (packElems w l + 1) := by rw [Nat.mul_succ]; omega
      _ ≤ 2 ^ w * 2 ^ (l.length * w) := Nat.mul_le_mul_left _ ih

theorem packElems_field {w : Nat} {l : List Nat} {i : Nat} (hi : i < l.length) (h : ∀ x ∈ l, x < 2 ^ w) :
    packElems w l / 2 ^ (i * w) % 2 ^ w = l[i] := by
  induction l generalizing i with
  | nil => simp at hi
  | cons x l ih =>
    have hx : x < 2 ^ w := h x List.mem_cons_self
    cases i with
    | zero => simp [packElems, Nat.mod_eq_of_lt hx]
    | succ i =>
      rw [packElems, Nat.add_mul, Nat.one_mul, Nat.add_comm (i * w), Nat.pow_add, ← Nat.div_div_eq_div_mul,
        Nat.add_mul_div_left _ _ (Nat.two_pow_pos w), Nat.div_eq_of_lt (Nat.mod_lt _ (Nat.two_pow_pos w)), Nat.zero_add]
      exact ih (Nat.lt_of_succ_lt_succ hi) fun y hy => h y (List.mem_cons_of_mem x hy)

/-- A number below 2^(8 n) is read back from its n bytes. -/
theorem leNat_leBytes_of_lt {n m x : Nat} (h : x < 2 ^ m) (hm : m ≤ 8 * n) : leNat (leBytes n x) = x := by
  rw [leNat_leBytes, pow_256, Nat.mod_eq_of_lt (h.trans_le (Nat.pow_le_pow_right (by decide) hm))]

theorem length_packBits (w : Nat) (l : List Nat) : (packBits w l).length = (l.length * w + 7) / 8 := length_leBytes ..

theorem leNat_packBits (w : Nat) (l : List Nat) : leNat (packBits w l) = packElems w l :=
  leNat_leBytes_of_lt (packElems_lt w l) (by omega)

/-- A row of whole-byte elements reads back from its raw bytes, whatever follows them. -/
theorem map_elemAt_raw {w : Nat} {xs : List Nat} (h8 : 8 ∣ w) (hw : w ≤ 32) (hlen : xs.length = 64) (h : ∀ x ∈ xs, x < 2 ^ w)
    (r : List Byte) : (List.range 64).map (elemAt w (leBytes (8 * w) (packElems w xs) ++ r)) = xs := by
  refine List.ext_getElem (by simp [hlen]) fun i hi hx => ?_
  have hplace : i * w + w ≤ 64 * w := by
    rw [← Nat.succ_mul]
    exact Nat.mul_le_mul_right w (by omega)
  have haligned : i * w % 8 = 0 := Nat.mod_eq_zero_of_dvd (h8.mul_left i)
  have hp : leNat (leBytes (8 * w) (packElems w xs)) = packElems w xs :=
    leNat_leBytes_of_lt (packElems_lt w xs) (by rw [hlen]; omega)
  have hdvd : 2 ^ (i * w + w) ∣ 2 ^ (8 * (8 * w)) := Nat.pow_dvd_pow 2 (by omega)
  rw [List.getElem_map, List.getElem_range, elemAt_eq (by omega), leNat_append, hp, length_leBytes, pow_256,
    ← Nat.mod_mul_right_div_self, ← Nat.pow_add, Nat.add_mod, Nat.mod_eq_zero_of_dvd (hdvd.mul_right _), Nat.add_zero, Nat.mod_mod,
    Nat.pow_add, Nat.mod_mul_right_div_self, packElems_field hx h]

/-! The zero mask (R186). -/

/-- The elements that a row codes. -/
def nonzeros (xs : List Nat) : List Nat := xs.filter fun x => x ≠ 0

/-- Bit c is set when element c is +0. -/
def zeroMask (xs : List Nat) : Nat := packElems 1 (xs.map fun x => b2n (decide (x = 0)))

@[simp] theorem zeroMask_cons (x : Nat) (xs : List Nat) : zeroMask (x :: xs) = b2n (decide (x = 0)) + 2 * zeroMask xs := by
  by_cases h : x = 0 <;> simp [zeroMask, packElems, h, b2n]

theorem zeroMask_lt (xs : List Nat) : zeroMask xs < 2 ^ xs.length := by
  simpa [zeroMask] using packElems_lt 1 (xs.map fun x => b2n (decide (x = 0)))

theorem bit_zeroMask {xs : List Nat} {i : Nat} (hi : i < xs.length) : bit (zeroMask xs) i = decide (xs[i] = 0) := by
  induction xs generalizing i with
  | nil => simp at hi
  | cons x xs ih =>
    cases i with
    | zero => by_cases h : x = 0 <;> simp [bit, b2n, h, Nat.add_mod]
    | succ i =>
      have hhalf : zeroMask (x :: xs) / 2 = zeroMask xs := by
        rw [zeroMask_cons, b2n]
        split <;> omega
      rw [List.getElem_cons_succ, ← ih (Nat.lt_of_succ_lt_succ hi), bit, Nat.pow_succ', ← Nat.div_div_eq_div_mul, hhalf, bit]

/-- The coder adds up the mask's bits, one element after the other. -/
theorem foldl_zeroMask {f : Nat → Nat × Nat → Nat} (hf : ∀ s x i, f s (x, i) = if x = 0 then s + 2 ^ i else s) (xs : List Nat)
    (k s : Nat) : (xs.zipIdx k).foldl f s = s + 2 ^ k * zeroMask xs := by
  induction xs generalizing k s with
  | nil => rfl
  | cons x xs ih =>
    rw [List.zipIdx_cons, List.foldl_cons, ih, hf, zeroMask_cons]
    split
    · next h => simp only [h, b2n, decide_true, if_true]; ring
    · next h => simp only [h, b2n, decide_false, Bool.false_eq_true, if_false]; ring

theorem count_zeroMask (xs : List Nat) :
    ((List.range xs.length).filter fun i => !(bit (zeroMask xs) i)).length = (nonzeros xs).length := by
  have hxs : xs = (List.range xs.length).map fun i => xs.getD i 0 :=
    List.ext_getElem (by simp) fun i hi _ => by simp [hi]
  conv_rhs => rw [nonzeros, hxs, List.filter_map, List.length_map]
  congr 1
  refine List.filter_congr fun i hi => ?_
  have hi := List.mem_range.mp hi
  simp [bit_zeroMask hi, hi]

/-- Of any mask whose bits from column c on are those of `xs`, the coded elements return to their columns. -/
theorem unmask_nonzeros {z c : Nat} {xs : List Nat} (h : z / 2 ^ c = zeroMask xs) : unmask z xs.length c (nonzeros xs) = xs := by
  induction xs generalizing c with
  | nil => rfl
  | cons x xs ih =>
    have hrest : z / 2 ^ (c + 1) = zeroMask xs := by
      rw [Nat.pow_succ, ← Nat.div_div_eq_div_mul, h, zeroMask_cons, b2n]
      split <;> omega
    have hbit : bit z c = decide (x = 0) := by
      rw [bit, h, zeroMask_cons, b2n]
      by_cases hx : x = 0 <;> simp [hx, Nat.add_mod]
    rw [List.length_cons, unmask, hbit]
    by_cases hx : x = 0
    · simpa [nonzeros, hx] using ih hrest
    · simpa [nonzeros, hx] using ih hrest

/-! An element and its fields (R186). -/

/-- The stored exponent field of an element. -/
def expField (l : FLay) (x : Nat) : Nat := x / 2 ^ l.mbits % 2 ^ l.ebits

/-- The sign of an element above its significand; that order is the model's choice (assumption log 30). -/
def signSig (l : FLay) (x : Nat) : Nat := x / 2 ^ (l.ebits + l.mbits) * 2 ^ l.mbits + x % 2 ^ l.mbits

/-- The element of an exponent field and a sign with significand. -/
def joinElem (l : FLay) (e s : Nat) : Nat := s / 2 ^ l.mbits * 2 ^ (l.ebits + l.mbits) + e * 2 ^ l.mbits + s % 2 ^ l.mbits

theorem expField_lt (l : FLay) (x : Nat) : expField l x < 2 ^ l.ebits := Nat.mod_lt _ (Nat.two_pow_pos _)

theorem signSig_lt {l : FLay} {x : Nat} (h : x < 2 ^ l.width) : signSig l x < 2 ^ (l.mbits + 1) := by
  have hs : x / 2 ^ (l.ebits + l.mbits) < 2 := by
    rw [Nat.div_lt_iff_lt_mul (Nat.two_pow_pos _), ← Nat.pow_succ']
    exact h.trans_eq (congrArg _ (by rw [FLay.width]; omega))
  have hm := Nat.mod_lt x (Nat.two_pow_pos l.mbits)
  have : x / 2 ^ (l.ebits + l.mbits) * 2 ^ l.mbits ≤ 1 * 2 ^ l.mbits := Nat.mul_le_mul_right _ (by omega)
  rw [signSig, Nat.pow_succ]
  omega

theorem joinElem_fields (l : FLay) (x : Nat) : joinElem l (expField l x) (signSig l x) = x := by
  have hm := Nat.mod_lt x (Nat.two_pow_pos l.mbits)
  have hsign : signSig l x / 2 ^ l.mbits = x / 2 ^ l.mbits / 2 ^ l.ebits := by
    rw [signSig, Nat.mul_comm, Nat.mul_add_div (Nat.two_pow_pos _), Nat.div_eq_of_lt hm, Nat.add_zero, Nat.div_div_eq_div_mul,
      ← Nat.pow_add, Nat.add_comm l.mbits]
  have hsig : signSig l x % 2 ^ l.mbits = x % 2 ^ l.mbits := by rw [signSig, Nat.mul_add_mod_self_right, Nat.mod_mod]
  calc joinElem l (expField l x) (signSig l x)
      = 2 ^ l.mbits * (2 ^ l.ebits * (x / 2 ^ l.mbits / 2 ^ l.ebits) + x / 2 ^ l.mbits % 2 ^ l.ebits) + x % 2 ^ l.mbits := by
        rw [joinElem, hsign, hsig, expField, Nat.pow_add]
        ring
    _ = x := by rw [Nat.div_add_mod, Nat.div_add_mod]

/-! The base and the width of a row's exponent fields (R186). -/

/-- EBASE: the least field; the spec gives none for a row of +0 alone, whose base is the coder's free value. -/
def rowBase (e0 : Nat) : List Nat → Nat
  | [] => e0 % 256
  | e :: r => r.foldl min e

/-- Fields less EBASE. -/
def deltas (eb : Nat) (exps : List Nat) : List Nat := exps.map fun e => e - eb

/-- W: the least width that holds every field less EBASE. -/
def rowWidth (eb : Nat) (exps : List Nat) : Nat := ((List.range 9).find? fun w => exps.all fun e => e - eb < 2 ^ w).getD 8

theorem rowBase_min? {e0 : Nat} {exps : List Nat} : rowBase e0 exps = exps.min?.getD (e0 % 256) := by
  cases exps with
  | nil => rfl
  | cons e r => rw [List.min?_cons', Option.getD_some, rowBase]

theorem rowBase_le {e0 e : Nat} {exps : List Nat} (h : e ∈ exps) : rowBase e0 exps ≤ e := by
  obtain ⟨m, hm⟩ : ∃ m, exps.min? = some m := Option.ne_none_iff_exists'.mp (by simpa using List.ne_nil_of_mem h)
  rw [rowBase_min?, hm]
  exact (List.min?_eq_some_iff.mp hm).2 e h

theorem rowBase_lt {e0 : Nat} {exps : List Nat} (h : ∀ e ∈ exps, e < 256) : rowBase e0 exps < 256 := by
  rw [rowBase_min?]
  cases hm : exps.min? with
  | none => exact Nat.mod_lt _ (by decide)
  | some m => exact h m (List.min?_eq_some_iff.mp hm).1

theorem rowWidth_le (eb : Nat) (exps : List Nat) : rowWidth eb exps ≤ 8 := by
  rw [rowWidth]
  cases h : (List.range 9).find? fun w => exps.all fun e => e - eb < 2 ^ w with
  | none => rfl
  | some w => exact Nat.le_of_lt_succ (List.mem_range.mp (List.mem_of_find?_eq_some h))

theorem deltas_lt {eb : Nat} {exps : List Nat} (h : ∀ e ∈ exps, e < 256) : ∀ d ∈ deltas eb exps, d < 2 ^ rowWidth eb exps := by
  refine List.forall_mem_map.mpr fun e he => ?_
  rw [rowWidth]
  cases hw : (List.range 9).find? fun w => exps.all fun e => e - eb < 2 ^ w with
  | none => exact (Nat.sub_le e eb).trans_lt (h e he)
  | some w =>
    have hall : (exps.all fun e => e - eb < 2 ^ w) = true := List.find?_some (p := fun w => exps.all fun e => e - eb < 2 ^ w) hw
    exact of_decide_eq_true (List.all_eq_true.mp hall e he)

/-! A row's bytes (R186). -/

/-- The exponent fields that a row codes. -/
def codedExps (l : FLay) (xs : List Nat) : List Nat := (nonzeros xs).map (expField l)

/-- A row that is kept raw. -/
def rawRow (l : FLay) (xs : List Nat) : List Byte := [0xFF, 0x00] ++ leBytes (8 * l.width) (packElems l.width xs)

/-- The bytes of a width, base, mask, exponent deltas and signs with significands, in the order of R186. -/
def rowBytes (l : FLay) (w eb z : Nat) (ds ss : List Nat) : List Byte :=
  [BitVec.ofNat 8 w, BitVec.ofNat 8 eb] ++ leBytes 8 z ++ packBits w ds ++ packBits (l.mbits + 1) ss

/-- A row that is coded. -/
def codedRow (l : FLay) (e0 : Nat) (xs : List Nat) : List Byte :=
  let exps := codedExps l xs
  rowBytes l (rowWidth (rowBase e0 exps) exps) (rowBase e0 exps) (zeroMask xs) (deltas (rowBase e0 exps) exps)
    ((nonzeros xs).map (signSig l))

/-- A row is kept raw where that takes fewer bytes. -/
theorem codeRow_eq (l : FLay) (e0 : Nat) (xs : List Nat) :
    codeRow l e0 xs =
      if (rawRow l xs).length < (codedRow l e0 xs).length then (rawRow l xs, true) else (codedRow l e0 xs, false) := by
  have hz : xs.zipIdx.foldl (fun s (x, i) => if x = 0 then s + 2 ^ i else s) 0 = zeroMask xs := by
    rw [foldl_zeroMask fun _ _ _ => rfl]
    simp
  rw [codedRow, ← hz]
  rfl

theorem uncodeRow_rawRow {l : FLay} {xs : List Nat} (h8 : 8 ∣ l.width) (hw : l.width ≤ 32) (hlen : xs.length = 64)
    (h : ∀ x ∈ xs, x < 2 ^ l.width) (r : List Byte) : uncodeRow l (rawRow l xs ++ r) = (xs, r) := by
  refine Prod.ext (map_elemAt_raw h8 hw hlen h r) ?_
  exact List.drop_left' (length_leBytes ..)

theorem uncodeRow_rowBytes {l : FLay} {w eb z : Nat} {ds ss : List Nat} (hw : w ≤ 8) (heb : eb < 256) (hz : z < 2 ^ 64)
    (hds : ∀ d ∈ ds, d < 2 ^ w) (hss : ∀ s ∈ ss, s < 2 ^ (l.mbits + 1)) (hlen : ss.length = ds.length)
    (hn : ((List.range 64).filter fun i => !(bit z i)).length = ds.length) (r : List Byte) :
    uncodeRow l (rowBytes l w eb z ds ss ++ r) =
      (unmask z 64 0 (List.zipWith (fun d s => joinElem l ((eb + d) % 2 ^ l.ebits) s) ds ss), r) := by
  have hbytes : rowBytes l w eb z ds ss ++ r =
      BitVec.ofNat 8 w :: BitVec.ofNat 8 eb :: (leBytes 8 z ++ (packBits w ds ++ (packBits (l.mbits + 1) ss ++ r))) := by
    simp [rowBytes]
  have hw8 : (BitVec.ofNat 8 w).toNat = w := (BitVec.toNat_ofNat ..).trans (Nat.mod_eq_of_lt (by omega))
  have heb8 : (BitVec.ofNat 8 eb).toNat = eb := (BitVec.toNat_ofNat ..).trans (Nat.mod_eq_of_lt heb)
  have hnd := (length_packBits w ds).symm
  have hns := (length_packBits (l.mbits + 1) ss).symm
  rw [hlen] at hns
  simp only [hbytes, uncodeRow, List.getD_cons_zero, List.getD_cons_succ, hw8, heb8, List.drop_succ_cons, List.drop_zero]
  rw [if_neg (by omega), List.take_left' (length_leBytes 8 z), List.drop_left' (length_leBytes 8 z), leNat_leBytes_of_lt hz le_rfl, hn,
    hnd, hns, List.take_left, List.drop_left, List.take_left, leNat_packBits, leNat_packBits, ← List.drop_drop, List.drop_left,
    List.drop_left]
  congr 2
  refine List.ext_getElem (by simp [hlen]) fun i hi _ => ?_
  replace hi : i < ds.length := by simpa using hi
  simp only [List.getElem_map, List.getElem_range, List.getElem_zipWith, packElems_field hi hds, packElems_field (hlen ▸ hi) hss,
    joinElem]

theorem codedExps_lt {l : FLay} (hl : l.ebits ≤ 8) (xs : List Nat) : ∀ e ∈ codedExps l xs, e < 256 :=
  List.forall_mem_map.mpr fun x _ => (expField_lt l x).trans_le (Nat.pow_le_pow_right (by decide) hl)

/-- Each coded element is its base with its delta, and its sign with significand. -/
theorem zipWith_joinElem (l : FLay) {eb : Nat} {xs : List Nat} (h : ∀ e ∈ codedExps l xs, eb ≤ e) :
    List.zipWith (fun d s => joinElem l ((eb + d) % 2 ^ l.ebits) s) (deltas eb (codedExps l xs)) ((nonzeros xs).map (signSig l)) =
      nonzeros xs := by
  have helem (x : Nat) (hx : x ∈ nonzeros xs) : joinElem l ((eb + (expField l x - eb)) % 2 ^ l.ebits) (signSig l x) = x := by
    rw [Nat.add_sub_cancel' (h _ (List.mem_map_of_mem hx)), Nat.mod_eq_of_lt (expField_lt l x), joinElem_fields]
  rw [deltas, codedExps, List.map_map, List.zipWith_map, List.zipWith_self]
  exact (List.map_congr_left helem).trans (List.map_id' _)

theorem uncodeRow_codedRow {l : FLay} {xs : List Nat} (hl : l.ebits ≤ 8) (hlen : xs.length = 64) (h : ∀ x ∈ xs, x < 2 ^ l.width)
    (e0 : Nat) (r : List Byte) : uncodeRow l (codedRow l e0 xs ++ r) = (xs, r) := by
  have hexp := codedExps_lt hl xs
  have hsig : ∀ s ∈ (nonzeros xs).map (signSig l), s < 2 ^ (l.mbits + 1) :=
    List.forall_mem_map.mpr fun x hx => signSig_lt (h x (List.mem_of_mem_filter hx))
  have hcount : ((List.range 64).filter fun i => !(bit (zeroMask xs) i)).length =
      (deltas (rowBase e0 (codedExps l xs)) (codedExps l xs)).length := by
    rw [← hlen, count_zeroMask, deltas, List.length_map, codedExps, List.length_map]
  have hmask : unmask (zeroMask xs) 64 0 (nonzeros xs) = xs := hlen ▸ unmask_nonzeros (by simp)
  rw [codedRow, uncodeRow_rowBytes (rowWidth_le _ _) (rowBase_lt hexp) (hlen ▸ zeroMask_lt xs) (deltas_lt hexp) hsig
    (by simp [deltas, codedExps]) hcount, zipWith_joinElem l fun e he => rowBase_le he, hmask]

theorem codedLay_bounds {fmt : Nat} {l : FLay} (h : codedLay fmt = some l) : l.ebits ≤ 8 ∧ 8 ∣ l.width ∧ l.width ≤ 32 := by
  unfold codedLay at h
  split at h <;> cases h <;> decide

/-- Settles O26: a row is restored from its raw bytes, or from the mask, deltas and significands of its elements. -/
theorem spillwayRowsRestoreExactly : Obligations.SpillwayRowsRestoreExactly := by
  intro fmt e0 l xs r hl hlen hxs
  obtain ⟨hebits, hbytes, hwidth⟩ := codedLay_bounds hl
  rw [codeRow_eq]
  split
  case isTrue => exact uncodeRow_rawRow hbytes hwidth hlen hxs r
  case isFalse => exact uncodeRow_codedRow hebits hlen hxs e0 r

end Sys2Proof.Machine
end

section
/-!
The hash of stacked memory (O30): a place gives back the number of its group of three sectors, and the sector within the group (R194).
-/
namespace Sys2Proof.Machine

/-- The hash's X for group `q` of three sectors. -/
def hashX (seed q : Nat) : Nat := Nat.xor (bits q 32 8) (seed % 2 ^ 25)

/-- X folded to eight bits: the hash's F. -/
def hashFold (x : Nat) : Nat := Nat.xor (Nat.xor (bits x 7 0) (bits x 15 8)) (Nat.xor (bits x 23 16) (bits x 24 24))

/-- The eight bits that choose the stacks of a group, the channel and the pseudo-channel: the hash's C. -/
def hashC (seed q : Nat) : Nat := Nat.xor (bits q 7 0) (hashFold (hashX seed q))

theorem placeOf_eq (seed pa : Nat) :
    placeOf seed pa =
      { stack := 3 * bits (hashC seed (pa / 32 / 3)) 1 0 + (pa / 32 % 3 + hashX seed (pa / 32 / 3) % 3) % 3
        channel := bits (hashC seed (pa / 32 / 3)) 6 2
        pch := bits (hashC seed (pa / 32 / 3)) 7 7
        col := bits (bits (pa / 32 / 3) 32 8) 4 0
        bank := Nat.xor (bits (bits (pa / 32 / 3) 32 8) 10 5) (bits (bits (pa / 32 / 3) 32 8) 16 11)
        row := bits (bits (pa / 32 / 3) 32 8) 24 11 } := rfl

theorem bits_lt (x hi lo : Nat) : bits x hi lo < 2 ^ (hi + 1 - lo) := Nat.mod_lt _ (Nat.two_pow_pos _)

theorem hashFold_lt (x : Nat) : hashFold x < 2 ^ 8 :=
  Nat.xor_lt_two_pow (Nat.xor_lt_two_pow (bits_lt x 7 0) (bits_lt x 15 8))
    (Nat.xor_lt_two_pow (bits_lt x 23 16) ((bits_lt x 24 24).trans (by decide)))

theorem hashC_lt (seed q : Nat) : hashC seed q < 2 ^ 8 := Nat.xor_lt_two_pow (bits_lt q 7 0) (hashFold_lt _)

/-- Column, bank and row determine the sector within the pseudo-channel: the row holds the bits that the bank is mixed with. -/
theorem eq_of_col_bank_row {l m : Nat} (hl : l < 2 ^ 25) (hm : m < 2 ^ 25) (hcol : bits l 4 0 = bits m 4 0)
    (hbank : Nat.xor (bits l 10 5) (bits l 16 11) = Nat.xor (bits m 10 5) (bits m 16 11))
    (hrow : bits l 24 11 = bits m 24 11) : l = m := by
  have hmix : bits l 16 11 = bits m 16 11 := by
    simp only [bits] at hrow ⊢
    omega
  have hmid : bits l 10 5 = bits m 10 5 := by
    rw [hmix] at hbank
    exact Nat.xor_left_inj.mp hbank
  simp only [bits] at hcol hmid hrow
  omega

/-- Stack, channel and pseudo-channel determine C. -/
theorem eq_of_stack_channel_pch {b c u v : Nat} (hb : b < 2 ^ 8) (hc : c < 2 ^ 8)
    (hstack : 3 * bits b 1 0 + u % 3 = 3 * bits c 1 0 + v % 3) (hchannel : bits b 6 2 = bits c 6 2)
    (hpch : bits b 7 7 = bits c 7 7) : b = c := by
  simp only [bits] at hstack hchannel hpch
  omega

/-- Under one seed, C and the bits that make X determine the group. -/
theorem group_eq_of_hashC {seed q r : Nat} (hq : q < 2 ^ 33) (hr : r < 2 ^ 33) (hl : bits q 32 8 = bits r 32 8)
    (hc : hashC seed q = hashC seed r) : q = r := by
  have hlow : bits q 7 0 = bits r 7 0 := by
    simp only [hashC, hashX, hl] at hc
    exact Nat.xor_left_inj.mp hc
  simp only [bits] at hl hlow
  omega

/-- Settles O30: the place gives the group's upper bits, then C and with it the lower bits, and then the sector within the group. -/
theorem hashPlacesSectorsApart : Obligations.HashPlacesSectorsApart := by
  intro seed a b ha hb hla hlb hplace
  simp only [placeOf_eq, Place.mk.injEq] at hplace
  obtain ⟨hstack, hchannel, hpch, hcol, hbank, hrow⟩ := hplace
  have hupper := eq_of_col_bank_row (bits_lt _ 32 8) (bits_lt _ 32 8) hcol hbank hrow
  have hC := eq_of_stack_channel_pch (hashC_lt _ _) (hashC_lt _ _) hstack hchannel hpch
  have hgroup : a / 32 / 3 = b / 32 / 3 := group_eq_of_hashC (by omega) (by omega) hupper hC
  rw [hgroup] at hstack
  omega

end Sys2Proof.Machine
end

section
/-!
What an error record leaves (R365): the registers from the stacks' upward, the memories, and who owns them.
-/
namespace Sys2Proof.Machine.Dev

/-- `e` is `d` but for an error record's traces: the registers below the stacks', the pins, and an event's traces (R365, R377). -/
structure OnlyRecords (d e : Dev) : Prop where
  rest : e = { d with
    regs := e.regs, bankSince := e.bankSince, pins := e.pins, srcs := e.srcs, out := e.out, pba := e.pba, undel := e.undel }
  above : ∀ f : Fld, 0x400000 ≤ f.addr → e.rd f = d.rd f

namespace OnlyRecords

variable {d e f : Dev}

theorem trans (h : OnlyRecords d e) (h' : OnlyRecords e f) : OnlyRecords d f where
  rest := h'.rest.trans (congrArg (fun x : Dev => { x with
    regs := f.regs, bankSince := f.bankSince, pins := f.pins, srcs := f.srcs, out := f.out, pba := f.pba, undel := f.undel }) h.rest)
  above g hg := (h'.above g hg).trans (h.above g hg)

theorem of_sources (h : SameButSources d e) : OnlyRecords d e where
  rest := by rw [h]
  above g _ := h.rd g

end OnlyRecords

variable (d : Dev) {b : Nat}

theorem wr_records {g : Fld} (ha : g.addr < 0x400000) (hl : g.lo < 64) (v : Nat) : OnlyRecords d (d.wr g v) where
  rest := rfl
  above f hf := rd_wr_ne d g f v (by simp only [Fld.key]; omega)

theorem alertPin_records : OnlyRecords d d.alertPin := ⟨rfl, fun _ _ => rfl⟩

theorem irqEvent_records (n : Nat) : OnlyRecords d (d.irqEvent n) := .of_sources (irqEvent_sources n d)

section bank
variable (hb : b < 64)
include hb

/-- The banks' registers all lie below the stacks'. -/
theorem wr_bank_records {g : Fld} (ha : g.addr < 0x51000 + 0x80 * (b + 1)) (hl : g.lo < 64) (v : Nat) : OnlyRecords d (d.wr g v) :=
  wr_records d (by omega) hl v

theorem setPrim_records (w0 w1 w2 w3 : Nat) : OnlyRecords d (d.setPrim b w0 w1 w2 w3) := by
  have word (w : Nat) (hw : w < 4) (v : Nat) (d : Dev) : OnlyRecords d (d.wr (Reg.ERR_P_WORD b w) v) :=
    wr_bank_records d hb (by simp only [Reg.ERR_P_WORD, Reg.ERR_P]; omega) (Nat.two_pow_pos 6) v
  exact (word 0 (by decide) w0 d).trans <| (word 1 (by decide) w1 _).trans <| (word 2 (by decide) w2 _).trans (word 3 (by decide) w3 _)

theorem setPend_records (w0 w1 w2 w3 : Nat) : OnlyRecords d (d.setPend b w0 w1 w2 w3) := by
  have word (w : Nat) (hw : w < 4) (v : Nat) (d : Dev) : OnlyRecords d (d.wr (Reg.ERR_Q_WORD b w) v) :=
    wr_bank_records d hb (by simp only [Reg.ERR_Q_WORD, Reg.ERR_Q]; omega) (Nat.two_pow_pos 6) v
  exact (word 0 (by decide) w0 d).trans <| (word 1 (by decide) w1 _).trans <| (word 2 (by decide) w2 _).trans (word 3 (by decide) w3 _)

theorem wr_errStat_records {lo width : Nat} {ty : FTy} {reset : Nat} (hl : lo < 64) (v : Nat) :
    OnlyRecords d (d.wr ⟨Reg.ERR_STAT b, lo, width, ty, reset⟩ v) :=
  wr_bank_records d hb (by simp only [Reg.ERR_STAT]; omega) hl v

theorem escalate_records : OnlyRecords d (d.escalate b) :=
  (wr_errStat_records d hb (by decide) 1).trans <| (irqEvent_records _ _).trans (alertPin_records _)

theorem bankDrop_records : OnlyRecords d (d.bankDrop b) := by
  have counted : OnlyRecords d (d.incSat (Reg.ERR_STAT_OVF b) 1) := wr_errStat_records d hb (by decide) _
  simp only [bankDrop]
  split
  · exact counted.trans (escalate_records _ hb)
  · exact counted

theorem becomePrim_records (w0 w1 w2 w3 : Nat) : OnlyRecords d (d.becomePrim b w0 w1 w2 w3) := by
  have since (e : Dev) : OnlyRecords e { e with bankSince := tabPut 0 b e.now e.bankSince } := ⟨rfl, fun _ _ => rfl⟩
  exact (setPrim_records d hb w0 w1 w2 w3).trans <| (since _).trans <| (irqEvent_records _ _).trans (alertPin_records _)

theorem bankArrive_records (w0 w1 w2 w3 : Nat) : OnlyRecords d (d.bankArrive b w0 w1 w2 w3) := by
  have preempt (e : Dev) : OnlyRecords e (e.setF (Reg.ERR_STAT_PREEMPT b)) := wr_errStat_records e hb (by decide) 1
  simp only [bankArrive]
  split
  · exact becomePrim_records d hb ..
  · split
    · have preempted := (setPend_records d hb (d.rd (Reg.ERR_P_WORD b 0)) (d.rd (Reg.ERR_P_WORD b 1)) (d.rd (Reg.ERR_P_WORD b 2))
        (d.rd (Reg.ERR_P_WORD b 3))).trans <| (becomePrim_records _ hb w0 w1 w2 w3).trans
          (preempt _)
      split
      · exact preempted.trans (bankDrop_records _ hb)
      · exact preempted
    · split
      · exact setPend_records d hb ..
      · exact bankDrop_records d hb

theorem err_records (a : ErrArgs) : OnlyRecords d (d.err b a) := bankArrive_records d hb ..

end bank
end Sys2Proof.Machine.Dev
end

section
/-!
Where a sector lies (R194): within one sector every address has the same owner, seed and stack.
-/
namespace Sys2Proof.Machine

theorem placeOf_stack_lt (seed pa : Nat) : (placeOf seed pa).stack < 12 := by
  have hc := bits_lt (hashC seed (pa / 32 / 3)) 1 0
  simp only [placeOf_eq]
  omega

namespace Dev

variable (d : Dev) {pa n : Nat}

theorem ownerOf_sector (pa : Nat) : d.ownerOf (pa / 32 * 32) = d.ownerOf pa := by
  have h : pa / 32 * 32 / extentBytes = pa / extentBytes := by simp only [extentBytes]; omega
  simp only [ownerOf, h]

theorem seedOf_sector (pa : Nat) : d.seedOf (pa / 32 * 32) = d.seedOf pa := by
  have h : pa / 32 * 32 / 24576 = pa / 24576 := by omega
  simp only [seedOf, ownerOf_sector, h]

theorem stackOf_sector (pa : Nat) : d.stackOf (pa / 32 * 32) = d.stackOf pa := by
  have h : pa / 32 * 32 / 32 = pa / 32 := Nat.mul_div_cancel _ (by decide)
  simp only [stackOf, seedOf_sector, placeOf_eq, h]

/-- Bytes that stay within one sector touch that sector alone. -/
theorem sectorsOf_within (hn : 0 < n) (h : pa % 32 + n ≤ 32) : sectorsOf pa n = [pa / 32] := by
  have hlen : (pa + n + 31) / 32 - pa / 32 = 1 := by omega
  simp [sectorsOf, hlen]

theorem eq_of_mem_sectorsOf (h : pa % 32 + n ≤ 32) {k : Nat} (hk : k ∈ sectorsOf pa n) : k = pa / 32 := by
  simp only [sectorsOf, List.mem_map, List.mem_range] at hk
  omega

theorem hbmRead_sector (k : Nat) :
    d.hbmRead (k * 32) 32 = if d.hbmBad k then .error .poison else .ok (tabGetList 0 (k * 32) 32 d.hbm) := by
  simp [hbmRead, sectorsOf_within (pa := k * 32) (n := 32) (by decide) (by omega)]

/-- A sector that is not poisoned, of a stack that can be read, is read (R199, R201). -/
theorem hbmBad_clear (hup : d.stackUp (d.stackOf (pa / 32 * 32)) = true) (hclear : tabGet false (pa / 32) d.hbmPoison = false) :
    d.hbmBad (pa / 32) = false := by
  simp [hbmBad, hup, hclear]

theorem hbmBad_poisoned (h : tabGet false (pa / 32) d.hbmPoison = true) : d.hbmBad (pa / 32) = true := by simp [hbmBad, h]

end Dev
end Sys2Proof.Machine
end

section
/-!
What the controllers' books leave (R199, R204): counters, records and merge entries move no byte, owner, seed or stack state.
-/
namespace Sys2Proof.Machine.Dev

/-- From `d` to `e` no byte changes, and every sector of a partition or of no owner keeps its place and its stack's state. -/
structure KeepsMemory (d e : Dev) : Prop where
  hbm : e.hbm = d.hbm
  owner : e.owner = d.owner
  rehash : e.rehash = d.rehash
  seed : ∀ p, p < 8 → e.rd (Reg.HBM_SEED_SEED p) = d.rd (Reg.HBM_SEED_SEED p)
  state : ∀ k, e.rd (Reg.HBM_STAT_STATE k) = d.rd (Reg.HBM_STAT_STATE k)

namespace KeepsMemory

variable {d e f : Dev} {pa : Nat}

theorem of_regs (hregs : e.regs = d.regs) (hhbm : e.hbm = d.hbm) (howner : e.owner = d.owner) (hrehash : e.rehash = d.rehash) :
    KeepsMemory d e :=
  ⟨hhbm, howner, hrehash, fun _ _ => by simp only [rd, hregs], fun _ => by simp only [rd, hregs]⟩

theorem trans (h : KeepsMemory d e) (h' : KeepsMemory e f) : KeepsMemory d f :=
  ⟨h'.hbm.trans h.hbm, h'.owner.trans h.owner, h'.rehash.trans h.rehash, fun p hp => (h'.seed p hp).trans (h.seed p hp),
    fun k => (h'.state k).trans (h.state k)⟩

theorem of_records (h : OnlyRecords d e) : KeepsMemory d e where
  hbm := by rw [h.rest]
  owner := by rw [h.rest]
  rehash := by rw [h.rest]
  seed p _ := h.above _ (by simp only [Reg.HBM_SEED_SEED, Reg.HBM_SEED]; omega)
  state k := h.above _ (by simp only [Reg.HBM_STAT_STATE, Reg.HBM_STAT]; omega)

theorem stackUp (h : KeepsMemory d e) (k : Nat) : e.stackUp k = d.stackUp k := by simp only [Dev.stackUp, h.state]

/-- A partition's number is below 8 (R336); an owner is that number and one, or 0. -/
theorem seedOf (h : KeepsMemory d e) (ho : d.ownerOf pa ≤ 8) : e.seedOf pa = d.seedOf pa := by
  have howner : e.ownerOf pa = d.ownerOf pa := by simp only [ownerOf, h.owner]
  unfold Dev.seedOf
  rw [howner, h.rehash]
  cases hp : d.ownerOf pa with
  | zero => rfl
  | succ p => simp only [h.seed p (by omega)]

theorem stackOf (h : KeepsMemory d e) (ho : d.ownerOf pa ≤ 8) : e.stackOf pa = d.stackOf pa := by
  simp only [Dev.stackOf, h.seedOf ho]

end KeepsMemory

variable {d : Dev}

/-- A stack's counters stand above the stacks' states and below the seeds. -/
theorem incSat_keepsMemory {c k l width reset : Nat} {ty : FTy} (hc : 0x400000 < c ∧ c < 0x40f000 ∧ l < 64) (n : Nat) (d : Dev) :
    KeepsMemory d (d.incSat ⟨c + 0x10000 * k, l, width, ty, reset⟩ n) where
  hbm := rfl
  owner := rfl
  rehash := rfl
  seed p hp := rd_wr_ne _ _ _ _ (by simp only [Fld.key, Reg.HBM_SEED_SEED, Reg.HBM_SEED]; omega)
  state j := rd_wr_ne _ _ _ _ (by simp only [Fld.key, Reg.HBM_STAT_STATE, Reg.HBM_STAT]; omega)

theorem serve_keepsMemory (pa n : Nat) (d : Dev) : KeepsMemory d (d.serve pa n) := .of_regs rfl rfl rfl rfl

theorem mergeRmw_keepsMemory (e : MergeEnt) (ue : Bool) (d : Dev) : KeepsMemory d (d.mergeRmw e ue) := by
  have counted (k : Nat) : KeepsMemory d (d.incSat (Reg.HBM_REFCNT_MRMW k) 1) :=
    incSat_keepsMemory (by decide) 1 d
  have poisons (d : Dev) : KeepsMemory d (d.hbmPoisonRange (e.sector * 32) 1) := .of_regs rfl rfl rfl rfl
  have hbank := placeOf_stack_lt (d.seedOf (e.sector * 32)) (e.sector * 32)
  simp only [mergeRmw]
  split
  · exact (counted _).trans ((poisons _).trans (.of_records (err_records _ (by omega) _)))
  · exact counted _

theorem mergeRetire_keepsMemory (e : MergeEnt) (ue : Bool) (d : Dev) : KeepsMemory d (d.mergeRetire e ue) := by
  have leaves : KeepsMemory d { d with merge := d.merge.filter fun x => x.sector ≠ e.sector } :=
    .of_regs rfl rfl rfl rfl
  have unpoisons (d : Dev) : KeepsMemory d (d.unpoison e.sector) := .of_regs rfl rfl rfl rfl
  simp only [mergeRetire]
  split
  · exact leaves.trans (unpoisons _)
  · exact leaves.trans (mergeRmw_keepsMemory e ue _)

theorem mergeFlush_keepsMemory (k : Nat) (d : Dev) : KeepsMemory d (d.mergeFlush k) := by
  simp only [mergeFlush]
  split
  · exact mergeRetire_keepsMemory _ false d
  · exact .of_regs rfl rfl rfl rfl

theorem mergeWhole_keepsMemory (pa n : Nat) (d : Dev) : KeepsMemory d (d.mergeWhole pa n) :=
  foldl_keeps (KeepsMemory d) _ _ d (.of_regs rfl rfl rfl rfl) fun e k he => he.trans (mergeFlush_keepsMemory k e)

theorem mergeNote_hbm (req : Nat) (p : Option Nat) (pa n : Nat) (d : Dev) : (d.mergeNote req p pa n).hbm = d.hbm := by
  refine foldl_keeps (fun e : Dev => e.hbm = d.hbm) _ _ d rfl fun e k he => ?_
  dsimp only
  split
  · exact he
  · split
    · split
      · exact (mergeRetire_keepsMemory _ false e).hbm.trans he
      · exact he
    · split
      · split
        · exact (mergeRetire_keepsMemory _ false e).hbm.trans he
        · exact he
      · exact he

/-- A sector without a merge entry is served at once (R204). -/
theorem mergeFlush_fresh {k : Nat} (h : d.merge.find? (fun m => m.sector = k) = none) : d.mergeFlush k = d := by
  simp only [mergeFlush, h]

end Sys2Proof.Machine.Dev
end

section
/-!
A run of values in a table, read at any key.
-/
namespace Sys2Proof.Machine

theorem tabGet_tabPutList {α : Type} [DecidableEq α] (d : α) (k j : Nat) (vs : List α) (t : Tab α) :
    tabGet d j (tabPutList d k vs t) = if k ≤ j ∧ j < k + vs.length then vs.getD (j - k) d else tabGet d j t := by
  induction vs generalizing k t with
  | nil => rw [if_neg (by simp only [List.length_nil]; omega)]; rfl
  | cons v vs ih =>
    rw [tabPutList, ih]
    simp only [List.length_cons]
    obtain hj | rfl | hj := Nat.lt_trichotomy j k
    · rw [if_neg (by omega), if_neg (by omega), tabGet_tabPut_ne d v k j t (by omega)]
    · rw [if_neg (by omega), if_pos (by omega), tabGet_tabPut_same, Nat.sub_self, List.getD_cons_zero]
    · obtain ⟨i, rfl⟩ := Nat.exists_eq_add_of_lt hj
      rw [tabGet_tabPut_ne d v k _ t (by omega), show k + i + 1 - k = i + 1 by omega, List.getD_cons_succ,
        show k + i + 1 - (k + 1) = i by omega]
      exact if_congr (by omega) rfl rfl

end Sys2Proof.Machine
end

section
/-!
The controllers' accesses (O31; R199 to R204, R209, R337), a rule per clause of the statement. The rule of corrected reads alone needs a
premise that the statement does not give: that the sector's owner is a partition or none (R336). Without it the clause fails.
-/
namespace Sys2Proof.Machine.Dev

variable {d : Dev} {p : Option Nat} {q req pa : Nat}

/-! An access that is not performed (R337, R201, R202). -/

theorem notOwned_some : d.notOwned (some q) pa = true ↔ d.ownerOf pa ≠ q + 1 := by simp [notOwned]

theorem hbmReadCmd_unowned (h : d.ownerOf (pa / 32 * 32) ≠ q + 1) (cls : EccClass) :
    d.hbmReadCmd (some q) req pa cls = d.ownViol q := if_pos (notOwned_some.mpr h)

theorem hbmWriteCmd_unowned (h : d.ownerOf pa ≠ q + 1) (bs : List Byte) : d.hbmWriteCmd (some q) req pa bs = d.ownViol q :=
  if_pos (notOwned_some.mpr h)

theorem nearMemoryAtomic_unowned {o : AtomOp} {wide : Bool} (ha : pa % o.width wide = 0) (h : d.ownerOf pa ≠ q + 1) (v cmp : Nat)
    (ue : Bool) : d.nearMemoryAtomic q req pa o wide v cmp ue = d.ownViol q := by
  rw [nearMemoryAtomic, if_neg (by simp [ha]), if_pos (notOwned_some.mpr h)]

theorem hbmReadCmd_down (hown : d.notOwned p (pa / 32 * 32) = false) (hdown : d.stackUp (d.stackOf (pa / 32 * 32)) = false)
    (cls : EccClass) : d.hbmReadCmd p req pa cls = d.emit (.mem req none) := by
  simp [hbmReadCmd, hown, hdown]

theorem hbmWriteCmd_quiet (hown : d.ownerOf pa = q + 1) (hq : d.isQuiet q = true) (bs : List Byte) :
    d.hbmWriteCmd (some q) req pa bs = d.incSat (Reg.HBM_UECNT_QDROP (d.stackOf pa)) 1 := by
  rw [hbmWriteCmd, if_neg (by simp [notOwned, hown]), if_pos (by simp [hq])]

/-! A read (R199): the sector is classified, and then answered. -/

section read
variable {cls : EccClass} {e : Dev} (hown : d.notOwned p (pa / 32 * 32) = false)
  (hup : d.stackUp (d.stackOf (pa / 32 * 32)) = true)
  (he : ((d.mergeFlush (pa / 32)).serve (pa / 32 * 32) 32).classify p req (pa / 32 * 32) cls = e)
include hown hup he

theorem hbmReadCmd_good (hgood : e.hbmBad (pa / 32) = false) (hcls : cls ≠ .lost) :
    d.hbmReadCmd p req pa cls = e.emit (.mem req (some (tabGetList 0 (pa / 32 * 32) 32 e.hbm))) := by
  simp [hbmReadCmd, hown, hup, he, hbmRead_sector, hgood, hcls]

theorem hbmReadCmd_bad (hbad : e.hbmBad (pa / 32) = true) : d.hbmReadCmd p req pa cls = e.emit (.mem req none) := by
  simp [hbmReadCmd, hown, hup, he, hbmRead_sector, hbad]

end read

section answered
variable (hown : d.notOwned p (pa / 32 * 32) = false) (hfresh : d.merge.find? (fun m => m.sector = pa / 32) = none)
  (hup : d.stackUp (d.stackOf (pa / 32 * 32)) = true)
include hown hfresh hup

/-- A clean read answers the sector's bytes, and changes nothing but the demand counts. -/
theorem hbmReadCmd_clean (hclear : tabGet false (pa / 32) d.hbmPoison = false) :
    d.hbmReadCmd p req pa .clean =
      (d.serve (pa / 32 * 32) 32).emit (.mem req (some (tabGetList 0 (pa / 32 * 32) 32 d.hbm))) := by
  refine hbmReadCmd_good (e := d.serve (pa / 32 * 32) 32) hown hup ?_ (hbmBad_clear _ hup hclear) (by decide)
  rw [mergeFlush_fresh hfresh]
  simp [classify, serve, hclear]

/-- A corrected read counts, and answers the sector's bytes. -/
theorem hbmReadCmd_corrected (hclear : tabGet false (pa / 32) d.hbmPoison = false) (howner : d.ownerOf (pa / 32 * 32) ≤ 8)
    {cls : EccClass} {f : Fld}
    (hf : (cls = .ce1 ∧ f = Reg.HBM_ECCCNT_CE1 (d.stackOf (pa / 32 * 32))) ∨
      (cls = .ce2 ∧ f = Reg.HBM_ECCCNT_CE2 (d.stackOf (pa / 32 * 32)))) :
    d.hbmReadCmd p req pa cls =
      ((d.serve (pa / 32 * 32) 32).incSat f 1).emit (.mem req (some (tabGetList 0 (pa / 32 * 32) 32 d.hbm))) := by
  have hkeeps : KeepsMemory d ((d.serve (pa / 32 * 32) 32).incSat f 1) := by
    refine (serve_keepsMemory (pa / 32 * 32) 32 d).trans ?_
    obtain ⟨-, rfl⟩ | ⟨-, rfl⟩ := hf
    · exact incSat_keepsMemory (by decide) 1 _
    · exact incSat_keepsMemory (by decide) 1 _
  refine hbmReadCmd_good hown hup ?_ (hbmBad_clear _ (by rwa [hkeeps.stackUp, hkeeps.stackOf howner]) hclear) ?_
  · rw [mergeFlush_fresh hfresh]
    obtain ⟨rfl, rfl⟩ | ⟨rfl, rfl⟩ := hf <;> rfl
  · obtain ⟨rfl, -⟩ | ⟨rfl, -⟩ := hf <;> decide

/-- A poisoned sector answers POISON, and the read is counted. -/
theorem hbmReadCmd_poisoned (hpoison : tabGet false (pa / 32) d.hbmPoison = true) :
    d.hbmReadCmd p req pa .clean =
      ((d.serve (pa / 32 * 32) 32).incSat (Reg.HBM_UECNT_PRD (d.stackOf (pa / 32 * 32))) 1).emit (.mem req none) := by
  refine hbmReadCmd_bad hown hup ?_ (hbmBad_poisoned _ hpoison)
  rw [mergeFlush_fresh hfresh]
  have hsector : pa / 32 * 32 / 32 = pa / 32 := Nat.mul_div_cancel _ (by decide)
  simp only [classify, serve, hsector, hpoison, if_true]
  rfl

end answered

/-- An uncorrectable read poisons its sector and moves no byte (R199). -/
theorem hbmUE_hbm (d : Dev) : (d.hbmUE p req pa).hbm = d.hbm := by
  have hbank := placeOf_stack_lt (d.seedOf pa) pa
  rw [hbmUE, (err_records _ (by omega) _).rest, (irqEvent_records _ _).rest]
  rfl

theorem hbmUE_poison (d : Dev) : tabGet false (pa / 32) (d.hbmUE p req pa).hbmPoison = true := by
  have hbank := placeOf_stack_lt (d.seedOf pa) pa
  rw [hbmUE, (err_records _ (by omega) _).rest, (irqEvent_records _ _).rest]
  simp [hbmPoisonRange, incSat, sectorsOf_within (pa := pa) (n := 1) (by decide) (by omega)]

theorem hbmReadCmd_uncorrectable (hown : d.notOwned p (pa / 32 * 32) = false) (hup : d.stackUp (d.stackOf (pa / 32 * 32)) = true) :
    ∃ e : Dev, d.hbmReadCmd p req pa .ue = e.emit (.mem req none) ∧ e.hbm = d.hbm ∧ tabGet false (pa / 32) e.hbmPoison = true := by
  have hpoison := hbmUE_poison (p := p) (req := req) (pa := pa / 32 * 32) ((d.mergeFlush (pa / 32)).serve (pa / 32 * 32) 32)
  rw [Nat.mul_div_cancel _ (by decide)] at hpoison
  exact ⟨_, hbmReadCmd_bad hown hup rfl (hbmBad_poisoned _ hpoison), (hbmUE_hbm _).trans (mergeFlush_keepsMemory _ d).hbm, hpoison⟩

/-! A write (R200). -/

/-- A write within one sector of a stack that is up stores its bytes. -/
theorem hbmWrite_hbm {bs : List Byte} (hup : d.stackUp (d.stackOf (pa / 32 * 32)) = true) (hlen : pa % 32 + bs.length ≤ 32) :
    (d.hbmWrite pa bs).hbm = tabPutList 0 pa bs d.hbm := by
  have hdown : d.downSectors pa bs.length = [] :=
    List.filter_eq_nil_iff.mpr fun k hk => by rw [eq_of_mem_sectorsOf hlen hk, hup]; decide
  simp [hbmWrite, hdown]

theorem hbmWriteCmd_stores {bs : List Byte} (hown : d.ownerOf pa = q + 1) (hq8 : q < 8) (hquiet : d.isQuiet q = false)
    (hup : d.stackUp (d.stackOf (pa / 32 * 32)) = true) (hlen : bs.length ≤ 32 - pa % 32) (a : Nat) :
    tabGet 0 a (d.hbmWriteCmd (some q) req pa bs).hbm =
      if pa ≤ a ∧ a < pa + bs.length then bs.getD (a - pa) 0 else tabGet 0 a d.hbm := by
  have hflush := mergeWhole_keepsMemory pa bs.length d
  have hdev : d.devQuiet = false := (Bool.or_eq_false_iff.mp hquiet).2
  have hup' : (d.mergeWhole pa bs.length).stackUp ((d.mergeWhole pa bs.length).stackOf (pa / 32 * 32)) = true := by
    rwa [hflush.stackUp, hflush.stackOf (by rw [ownerOf_sector]; omega)]
  rw [stackOf_sector] at hup
  simp only [hbmWriteCmd, List.take_of_length_le hlen]
  rw [if_neg (by simp [notOwned, hown]), if_neg (by simp [hdev, hquiet]), if_neg (by simp [hup]), mergeNote_hbm]
  rw [serve, hbmWrite_hbm hup' (by omega), hflush.hbm, tabGet_tabPutList]

/-! An atomic (R209). -/

theorem operand_width (o : AtomOp) (wide : Bool) : o.width wide = 4 ∨ o.width wide = 8 := by
  cases o <;> cases wide <;> decide

/-- A naturally aligned operand lies within one sector. -/
theorem aligned_within_sector {o : AtomOp} {wide : Bool} (ha : pa % o.width wide = 0) : pa % 32 + o.width wide ≤ 32 := by
  obtain h | h := operand_width o wide <;> rw [h] at ha ⊢ <;> omega

/-- An atomic answers the old value and writes the operation's result. -/
theorem nearMemoryAtomic_applies {o : AtomOp} {wide : Bool} (ha : pa % o.width wide = 0) (hown : d.ownerOf pa = q + 1)
    (hquiet : d.isQuiet q = false) (hfresh : d.merge.find? (fun m => m.sector = pa / 32) = none)
    (hup : d.stackUp (d.stackOf (pa / 32 * 32)) = true) (hclear : tabGet false (pa / 32) d.hbmPoison = false) (v cmp : Nat) :
    let w := o.width wide
    let old := leNat (tabGetList (0 : Byte) pa w d.hbm)
    d.nearMemoryAtomic q req pa o wide v cmp false =
      ((d.serve pa w).hbmWrite pa (leBytes w (o.apply w old (v % 2 ^ (8 * w)) (cmp % 2 ^ (8 * w))))).emit
        (.mem req (some (leBytes w old))) := by
  have hgood : (d.serve pa (o.width wide)).hbmBad (pa / 32) = false := hbmBad_clear _ hup hclear
  have hquiet' : (d.serve pa (o.width wide)).isQuiet q = false := hquiet
  have hbytes : (d.serve pa (o.width wide)).hbm = d.hbm := rfl
  rw [nearMemoryAtomic, if_neg (by simp [ha]), if_neg (by simp [notOwned, hown]), if_neg (by simp)]
  simp only [atomic, mergeFlush_fresh hfresh, hbmRead_sector, hgood, hquiet', hbytes, Bool.false_eq_true, if_false, Option.map_some]

/-- Its bytes are the result, and every other byte stays. -/
theorem hbmWrite_atomic_hbm {o : AtomOp} {wide : Bool} (ha : pa % o.width wide = 0)
    (hup : d.stackUp (d.stackOf (pa / 32 * 32)) = true) (x : Nat) :
    ((d.serve pa (o.width wide)).hbmWrite pa (leBytes (o.width wide) x)).hbm = tabPutList 0 pa (leBytes (o.width wide) x) d.hbm :=
  hbmWrite_hbm (d := d.serve pa (o.width wide)) hup (by rw [length_leBytes]; exact aligned_within_sector ha)

/-! An entry of the merge buffer retires (R204). -/

theorem mergeEntryRetire_full {k : Nat} {e : MergeEnt} (h : d.merge.find? (fun m => m.sector = k) = some e)
    (hmask : e.mask = 2 ^ 32 - 1) (ue : Bool) :
    d.mergeEntryRetire k ue =
      { d with merge := d.merge.filter fun m => m.sector ≠ e.sector, hbmPoison := tabPut false e.sector false d.hbmPoison } := by
  simp only [mergeEntryRetire, h]
  exact if_pos hmask

theorem mergeRmw_uncorrectable_poison (e : MergeEnt) (d : Dev) : tabGet false e.sector (d.mergeRmw e true).hbmPoison = true := by
  have hbank := placeOf_stack_lt (d.seedOf (e.sector * 32)) (e.sector * 32)
  simp only [mergeRmw, true_or, if_true]
  rw [(err_records _ (by omega) _).rest]
  simp [hbmPoisonRange, incSat, sectorsOf_within (pa := e.sector * 32) (n := 1) (by decide) (by omega)]

theorem mergeRmw_merge (e : MergeEnt) (ue : Bool) (d : Dev) : (d.mergeRmw e ue).merge = d.merge := by
  have hbank := placeOf_stack_lt (d.seedOf (e.sector * 32)) (e.sector * 32)
  simp only [mergeRmw]
  split
  · rw [(err_records _ (by omega) _).rest]
    rfl
  · rfl

/-- A partial entry whose read is uncorrectable leaves its sector poisoned. -/
theorem mergeEntryRetire_partial {k : Nat} {e : MergeEnt} (h : d.merge.find? (fun m => m.sector = k) = some e)
    (hmask : e.mask < 2 ^ 32 - 1) :
    tabGet false e.sector (d.mergeEntryRetire k true).hbmPoison = true ∧
      (d.mergeEntryRetire k true).merge = d.merge.filter fun m => m.sector ≠ e.sector := by
  have hretire : d.mergeRetire e true = mergeRmw e true { d with merge := d.merge.filter fun m => m.sector ≠ e.sector } :=
    if_neg (Nat.ne_of_lt hmask)
  simp only [mergeEntryRetire, h, hretire]
  exact ⟨mergeRmw_uncorrectable_poison e _, mergeRmw_merge e true _⟩

end Sys2Proof.Machine.Dev

namespace Sys2Proof.Machine

theorem completes_hbmRead (s : State) (p : Option PartNo) (req : BitVec 32) (pa : BitVec 40) (cls : EccClass) :
    Completes (.hbmRead p req pa cls) s (s.dev.hbmReadCmd (p.map (·.val)) req.toNat pa.toNat cls) := rfl

theorem Completes.unique {i : Instr} {s : State} {d e : Dev} (hd : Completes i s d) (he : Completes i s e) : d = e := by
  have h := hd.symm.trans he
  simpa using h

/-- Stack 1 ready and no other, and extent 0 entered as that of partition number 514, which no part has: its HBM_SEED would stand at
the address of HBM_ECCCNT of stack 1. -/
def seedAtCounter : Dev := { State.reset.dev.wr (Reg.HBM_STAT_STATE 1) 2 with owner := [(0, 515)] }

/-- The count changes the seed, and the sector moves to stack 5, which is not ready, before its bytes are read. -/
theorem seedAtCounter_answers_poison : (seedAtCounter.hbmReadCmd none 0 32 .ce1).out = [.mem 0 none] := by decide

/-- Refutes O31: its clause on corrected reads speaks of states whose extents may have an owner that is no partition (R336). There a
read made for no partition counts into that owner's seed, and answers POISON. Where the owner is a partition or none, the
clause holds: `hbmReadCmd_corrected`. -/
theorem not_hbmReadsWritesAndAtomics : ¬ Obligations.HbmReadsWritesAndAtomics := by
  intro h
  obtain ⟨-, hcorrected, -⟩ := h { State.reset with dev := seedAtCounter } none 0 0 32 [] .swap false 0 0 ⟨0, 0, 0, none⟩ 0
  obtain ⟨d, hd, -, hout⟩ := hcorrected rfl rfl (by decide) rfl (Reg.HBM_ECCCNT_CE1 1) .ce1 (.inl ⟨rfl, by decide⟩)
  rw [hd.unique (completes_hbmRead ..)] at hout
  exact absurd (seedAtCounter_answers_poison.symm.trans hout) (by decide)

end Sys2Proof.Machine
end

section
/-!
What a link's operations leave (R216 to R232): the books of its flits and events apart no register, and of the links' records only what
their input buffers hold and owe.
-/
namespace Sys2Proof.Machine

/-- A link's record without its virtual channels. -/
def Link.bare (x : Link) : Link := { x with vcs := [] }

@[simp] theorem Link.bare_setVc (x : Link) (v : Nat) (y : LinkVc) : (x.setVc v y).bare = x.bare := rfl
@[simp] theorem Link.vc_setVc_same (x : Link) (v : Nat) (y : LinkVc) : (x.setVc v y).vc v = y := tabGet_tabPut_same _ _ _ _
theorem Link.vc_setVc_ne (x : Link) {v w : Nat} (h : w ≠ v) (y : LinkVc) : (x.setVc v y).vc w = x.vc w := tabGet_tabPut_ne _ _ _ _ _ h

theorem Link.eq_of_bare {x y : Link} (h : y.bare = x.bare) : y = { x with vcs := y.vcs } :=
  congrArg (fun z : Link => { z with vcs := y.vcs }) h

/-- The registers that link l's flits and events count or note in: the neighbour's quiet state, retries, events, malformed packets and
the end of a reshape (R218, R222, R235, R241, R252). -/
abbrev bookFields (l : Nat) : List Fld :=
  [Reg.LNK_STAT_NQUIET l, Reg.LNK_RETRYCNT_BADFLIT l, Reg.LNK_RETRYCNT_NAKTX l, Reg.LNK_RETRYCNT_NAKRX l, Reg.LNK_EVCNT_DEGRADE l,
    Reg.LNK_EVCNT_RETRAINS l, Reg.LNK_EVCNT_DOWNS l, Reg.RTE_DROPCNT_BADPKT, Reg.RTE_RESHAPE_DONE]

/-- The field is none of link l's books, and none of the error banks' below them. -/
structure OutsideBooks (l : Nat) (f : Fld) : Prop where
  bank : 0x53000 ≤ f.addr
  books : ∀ g ∈ bookFields l, f.key ≠ g.key

/-- A field's key within the window of 0x4000 addresses that a link's registers take. -/
def Fld.place (f : Fld) : Nat := f.key % 2 ^ 20

/-- The places of a link's books, the same for every link. -/
def bookPlaces : List Nat := [524, 4096, 4120, 4140, 4608, 4624, 4656, 3616, 1586]

theorem bookFields_places (l : Nat) : (bookFields l).map Fld.place = bookPlaces := by
  simp only [bookPlaces, List.map_cons, List.map_nil, Fld.place, Fld.key, Reg.LNK_STAT_NQUIET, Reg.LNK_STAT,
    Reg.LNK_RETRYCNT_BADFLIT,
    Reg.LNK_RETRYCNT_NAKTX, Reg.LNK_RETRYCNT_NAKRX, Reg.LNK_RETRYCNT, Reg.LNK_EVCNT_DEGRADE, Reg.LNK_EVCNT_RETRAINS,
    Reg.LNK_EVCNT_DOWNS, Reg.LNK_EVCNT, Reg.RTE_DROPCNT_BADPKT, Reg.RTE_DROPCNT, Reg.RTE_RESHAPE_DONE, Reg.RTE_RESHAPE,
    List.cons.injEq, and_true]
  omega

theorem outsideBooks_of_place {f : Fld} (l : Nat) (hb : 0x53000 ≤ f.addr)
    (hp : f.place ∉ bookPlaces) : OutsideBooks l f where
  bank := hb
  books g hg h := hp (by rw [← bookFields_places l, Fld.place, h]; exact List.mem_map_of_mem (f := Fld.place) hg)

/-- A field of a link's own registers is told from the books by its place. -/
theorem outsideBooks_link {c lo width reset : Nat} {ty : FTy} (l k : Nat) (hc : 0x600000 ≤ c)
    (hp : (c * 64 + lo) % 2 ^ 20 ∉ bookPlaces) :
    OutsideBooks l ⟨c + 0x4000 * k, lo, width, ty, reset⟩ := by
  have hplace : Fld.place ⟨c + 0x4000 * k, lo, width, ty, reset⟩ = (c * 64 + lo) % 2 ^ 20 := by
    simp only [Fld.place, Fld.key]
    omega
  exact outsideBooks_of_place l (hc.trans' (by decide) |>.trans (Nat.le_add_right ..)) (hplace ▸ hp)

theorem outsideBooks_state (l k : Nat) : OutsideBooks l (Reg.LNK_STAT_STATE k) := outsideBooks_link l k (by decide) (by decide)
theorem outsideBooks_txLanes (l : Nat) : OutsideBooks l (Reg.LNK_STAT_TXLANES l) := outsideBooks_link l l (by decide) (by decide)
theorem outsideBooks_rxLanes (l : Nat) : OutsideBooks l (Reg.LNK_STAT_RXLANES l) := outsideBooks_link l l (by decide) (by decide)
theorem outsideBooks_nakMax (l : Nat) : OutsideBooks l (Reg.LNK_CTL_NAKMAX l) := outsideBooks_link l l (by decide) (by decide)
theorem outsideBooks_rxBody (l : Nat) : OutsideBooks l (Reg.LNK_RXBODY_BYTES l) := outsideBooks_link l l (by decide) (by decide)
theorem outsideBooks_asym (l : Nat) : OutsideBooks l (Reg.LNK_TIMECFG_ASYM l) := outsideBooks_link l l (by decide) (by decide)

theorem outsideBooks_failed (l : Nat) {k : Nat} (hk : k < 4) : OutsideBooks l (Reg.LNK_LANE_FAILED l k) := by
  refine outsideBooks_of_place l (by simp only [Reg.LNK_LANE_FAILED, Reg.LNK_LANE]; omega) ?_
  simp only [Fld.place, Fld.key, Reg.LNK_LANE_FAILED, Reg.LNK_LANE, bookPlaces, List.mem_cons, List.not_mem_nil, or_false]
  omega

theorem outsideBooks_bellState (l : Nat) : OutsideBooks l Reg.BL_STAT_STATE := outsideBooks_of_place l (by decide) (by decide)
theorem outsideBooks_feeds (l : Nat) : OutsideBooks l Reg.LAS_FEED_FEED := outsideBooks_of_place l (by decide) (by decide)

namespace Dev

variable (d : Dev)

/-! A link's record under the updates that are not its own. -/

@[simp] theorem link_incSat (f : Fld) (k l : Nat) : (d.incSat f k).link l = d.link l := rfl
@[simp] theorem link_incWrap (f : Fld) (k l : Nat) : (d.incWrap f k).link l = d.link l := rfl
@[simp] theorem link_updLink_same (l : Nat) (g : Link → Link) : (d.updLink l g).link l = g (d.link l) := tabGet_tabPut_same _ _ _ _
theorem link_updLink_ne {l k : Nat} (h : k ≠ l) (g : Link → Link) : (d.updLink l g).link k = d.link k := tabGet_tabPut_ne _ _ _ _ _ h
@[simp] theorem link_setLink_same (l : Nat) (x : Link) : (d.setLink l x).link l = x := tabGet_tabPut_same _ _ _ _
@[simp] theorem rd_setLink (l : Nat) (x : Link) (f : Fld) : (d.setLink l x).rd f = d.rd f := rfl
@[simp] theorem rd_updVc (l v : Nat) (g : LinkVc → LinkVc) (f : Fld) : (d.updVc l v g).rd f = d.rd f := rfl
@[simp] theorem link_updVc_same (l v : Nat) (g : LinkVc → LinkVc) :
    (d.updVc l v g).link l = (d.link l).setVc v (g ((d.link l).vc v)) := link_updLink_same ..

theorem link_irqEvent (n l : Nat) : (d.irqEvent n).link l = d.link l := by
  rw [irqEvent_sources n d]
  rfl

@[simp] theorem link_lkIrq (l e k : Nat) : (d.lkIrq l e).link k = d.link k := link_irqEvent ..
@[simp] theorem rd_lkIrq (l e : Nat) (f : Fld) : (d.lkIrq l e).rd f = d.rd f := rd_irqEvent ..

/-- From `d` to `e`, link l's books and the error banks apart, no register changes, and of the links' records only what their channels'
input and output hold and owe. -/
structure OnlyBooks (l : Nat) (d e : Dev) : Prop where
  rd : ∀ f, OutsideBooks l f → e.rd f = d.rd f
  bare : ∀ k, (e.link k).bare = (d.link k).bare
  credits : ∀ k v, ((e.link k).vc v).credits = ((d.link k).vc v).credits

namespace OnlyBooks

variable {d} {e f : Dev} {l : Nat}

theorem refl (l : Nat) (d : Dev) : OnlyBooks l d d := ⟨fun _ _ => rfl, fun _ => rfl, fun _ _ => rfl⟩

theorem trans (h : OnlyBooks l d e) (h' : OnlyBooks l e f) : OnlyBooks l d f :=
  ⟨fun g hg => (h'.rd g hg).trans (h.rd g hg), fun k => (h'.bare k).trans (h.bare k),
    fun k v => (h'.credits k v).trans (h.credits k v)⟩

/-- What leaves the links' table leaves their records. -/
theorem of_links (hl : e.links = d.links) (hr : ∀ f, OutsideBooks l f → e.rd f = d.rd f) : OnlyBooks l d e := by
  have link (k : Nat) : e.link k = d.link k := by rw [Dev.link, hl, Dev.link]
  exact ⟨hr, fun k => by rw [link], fun k v => by rw [link]⟩

theorem of_sources (l : Nat) (h : SameButSources d e) : OnlyBooks l d e := .of_links (by rw [h]) fun f _ => h.rd f

theorem lkState (h : OnlyBooks l d e) (k : Nat) : e.lkState k = d.lkState k := h.rd _ (outsideBooks_state l k)

theorem link (h : OnlyBooks l d e) (k : Nat) : e.link k = { d.link k with vcs := (e.link k).vcs } := Link.eq_of_bare (h.bare k)

end OnlyBooks

variable (l : Nat)

theorem irqEvent_books (n : Nat) : OnlyBooks l d (d.irqEvent n) := .of_sources l (irqEvent_sources n d)

theorem wr_books {g : Fld} (hg : g ∈ bookFields l) (v : Nat) : OnlyBooks l d (d.wr g v) :=
  .of_links rfl fun f hf => rd_wr_ne d g f v (hf.books g hg)

theorem noteQuiet_books (q : Bool) : OnlyBooks l d (d.noteQuiet l q) := by
  unfold noteQuiet
  split
  · exact .refl l d
  · exact (wr_books d l (by simp) _).trans (irqEvent_books _ l _)

theorem reshapeCheck_books : OnlyBooks l d d.reshapeCheck := by
  unfold reshapeCheck
  split
  · exact (show OnlyBooks l d { d with reshaped := false } from .of_links rfl fun _ _ => rfl).trans (wr_books _ l (by simp) 1)
  · exact .refl l d

/-- An update of a channel that leaves its credits. -/
theorem updVc_books (k v : Nat) {g : LinkVc → LinkVc} (hg : ∀ y, (g y).credits = y.credits) : OnlyBooks l d (d.updVc k v g) where
  rd _ _ := rfl
  bare j := by
    by_cases h : j = k
    · rw [h, link_updVc_same, Link.bare_setVc]
    · rw [updVc, link_updLink_ne d h]
  credits j w := by
    by_cases h : j = k
    · subst h
      rw [link_updVc_same]
      by_cases hw : w = v
      · rw [hw, Link.vc_setVc_same, hg]
      · rw [Link.vc_setVc_ne _ hw]
    · rw [updVc, link_updLink_ne d h]

theorem OnlyBooks.updVc {d e : Dev} {l : Nat} (h : OnlyBooks l d e) {k v : Nat} {g : LinkVc → LinkVc}
    (hg : ∀ y, (g y).credits = y.credits) : OnlyBooks l d (e.updVc k v g) := h.trans (updVc_books e l k v hg)

theorem freeFlits_books (k v n : Nat) : OnlyBooks l d (d.freeFlits k v n) := (OnlyBooks.refl l d).updVc (by intro; rfl)

/-- The input flits of a packet that leaves an output are freed (R244). -/
theorem freed_books (t : TxPkt) : OnlyBooks l d (match t.from_ with | some (a, b, n) => d.freeFlits a b n | none => d) := by
  split
  · exact freeFlits_books d l ..
  · exact .refl l d

theorem foldl_books {α : Type} {g : Dev → α → Dev} (xs : List α) (hg : ∀ d x, OnlyBooks l d (g d x)) :
    OnlyBooks l d (xs.foldl g d) :=
  foldl_keeps (OnlyBooks l d) g xs d (.refl l d) fun e x he => he.trans (hg e x)

theorem takeOwed_books (k : Nat) : OnlyBooks l d (d.takeOwed k).2.2 := by
  simp only [takeOwed]
  split
  · exact .refl l d
  · have drawn : OnlyBooks l d d.fresh.2 := .of_links rfl fun _ _ => rfl
    dsimp only
    exact drawn.updVc (by intro; rfl)

/-- Sending a flit moves no field of the link but the credits it returns (R216). -/
theorem sendFlit_books (k typ seq : Nat) (body : List Byte) : OnlyBooks l d (d.sendFlit k typ seq body) :=
  (takeOwed_books d l k).trans (.of_links rfl fun _ _ => rfl)

theorem takeOwed_out (k : Nat) : (d.takeOwed k).2.2.out = d.out := by
  simp only [takeOwed]
  split <;> rfl

theorem sendFlit_out (k typ seq : Nat) (body : List Byte) :
    ∃ q av a c n, (d.sendFlit k typ seq body).out = .flit k typ seq q av a c n body :: d.out :=
  ⟨_, _, _, _, _, congrArg _ (takeOwed_out d k)⟩

/-- An accepted body goes to its channel's input and to the router's counts (R241). -/
theorem takeBody_books (v : Nat) (bytes : List Byte) : OnlyBooks l d (d.takeBody l v bytes) := by
  have counted : OnlyBooks l d (d.incSat Reg.RTE_DROPCNT_BADPKT (parseStream 246 (((d.link l).vc v).held)
    (((d.link l).vc v).part ++ bytes) [] 0 0).2.2.2) := wr_books d l (by simp) _
  simp only [takeBody]
  refine .trans ?_ (freeFlits_books _ l l v _)
  split
  · exact (counted.updVc (by intro; rfl)).updVc (by intro; rfl)
  · split
    · exact (counted.updVc (by intro; rfl)).updVc (by intro; rfl)
    · exact ((counted.updVc (by intro; rfl)).updVc (by intro; rfl)).trans (freeFlits_books _ l l v 1)

/-! A change of state (Table LK-4). -/

theorem lkGo_link (st k : Nat) : (d.lkGo l st).link k = d.link k := by
  unfold lkGo reshapeCheck
  split
  · rfl
  · split
    · exact link_lkIrq ..
    · exact link_lkIrq ..

theorem lkState_lkGo {st : Nat} (h : st < 16) : (d.lkGo l st).lkState l = st := by
  unfold lkGo
  split
  · assumption
  · rw [(reshapeCheck_books _ l).lkState, lkState, rd_lkIrq, rd_wr_same]
    exact Nat.mod_eq_of_lt h

theorem rd_lkGo {f : Fld} (hf : OutsideBooks l f) (hs : f.key ≠ (Reg.LNK_STAT_STATE l).key) (st : Nat) : (d.lkGo l st).rd f = d.rd f := by
  unfold lkGo
  split
  · rfl
  · rw [(reshapeCheck_books _ l).rd f hf, rd_lkIrq, rd_wr_ne _ _ _ _ hs]

end Dev
end Sys2Proof.Machine
end

section
/-!
Flits received on an active link (R216, R217, R221, R222): what a flit's header brings, what becomes of a DATA flit by its number, and
the NAK that answers a gap.
-/
namespace Sys2Proof.Machine.Dev

variable {d : Dev} {l : Nat} {h : FlitHdr}

/-! The header. -/

theorem link_noteQuiet (l k : Nat) (q : Bool) (d : Dev) : (d.noteQuiet l q).link k = d.link k := by
  unfold noteQuiet
  split
  · rfl
  · exact link_lkIrq ..

theorem noteQuiet_same {q : Bool} (hq : d.flag (Reg.LNK_STAT_NQUIET l) = q) : d.noteQuiet l q = d := if_pos hq

/-- A new acknowledgement frees the replay buffer up to its number (R221). -/
theorem takeAck_new {a : Nat} (hk : (a + 4096 - (d.link l).o) % 4096 < ((d.link l).n + 4096 - (d.link l).o) % 4096) :
    d.takeAck l a = d.setLink l { d.link l with
      o := (a + 1) % 4096, replay := (d.link l).replay.drop ((a + 4096 - (d.link l).o) % 4096 + 1) } := if_pos hk

theorem link_takeAck (l a : Nat) (d : Dev) : ∃ o r, (d.takeAck l a).link l = { d.link l with o := o, replay := r } := by
  simp only [takeAck]
  split
  · exact ⟨_, _, link_setLink_same ..⟩
  · exact ⟨_, _, rfl⟩

theorem rd_takeAck (l a : Nat) (f : Fld) (d : Dev) : (d.takeAck l a).rd f = d.rd f := by
  simp only [takeAck]
  split <;> rfl

/-- The credits that a header returns (R217). -/
def returned (h : FlitHdr) (y : LinkVc) : LinkVc :=
  { y with credits := y.credits + h.crn.toNat, creditIn := (y.creditIn + h.crn.toNat) % 2 ^ 16 }

/-- On an active link a header brings Q, its acknowledgement and its credits. -/
theorem takeHdr_active (h4 : d.lkState l = 4) :
    d.takeHdr l h = (if h.av then (d.noteQuiet l h.q).takeAck l h.ack.toNat else d.noteQuiet l h.q).updVc l h.crvc (returned h) :=
  if_neg (not_not.mpr (((noteQuiet_books d l h.q).lkState l).trans h4))

/-- A header that acknowledges nothing and brings the Q already noted returns its credits alone. -/
theorem takeHdr_credits (h4 : d.lkState l = 4) (hav : h.av = false) (hq : d.flag (Reg.LNK_STAT_NQUIET l) = h.q) :
    d.takeHdr l h = d.updVc l h.crvc (returned h) := by
  rw [takeHdr_active h4, hav, noteQuiet_same hq]
  rfl

/-- A header moves no field of the link but the replay buffer, the number it starts at, and the channels. -/
theorem link_takeHdr (l : Nat) (h : FlitHdr) (d : Dev) :
    ∃ o r w, (d.takeHdr l h).link l = { d.link l with o := o, replay := r, vcs := w } := by
  by_cases h4 : d.lkState l = 4
  · rw [takeHdr_active h4, link_updVc_same]
    split
    · obtain ⟨o, r, hx⟩ := link_takeAck l h.ack.toNat (d.noteQuiet l h.q)
      rw [hx, link_noteQuiet]
      exact ⟨o, r, _, rfl⟩
    · rw [link_noteQuiet]
      exact ⟨_, _, _, rfl⟩
  · rw [takeHdr, if_pos (by rwa [← (noteQuiet_books d l h.q).lkState l] at h4), link_noteQuiet]
    exact ⟨_, _, _, rfl⟩

theorem rd_takeHdr {f : Fld} (hf : OutsideBooks l f) (h : FlitHdr) (d : Dev) : (d.takeHdr l h).rd f = d.rd f := by
  have noted := (noteQuiet_books d l h.q).rd f hf
  simp only [takeHdr]
  split
  · exact noted
  · split
    · rw [rd_updVc, rd_takeAck, noted]
    · rw [rd_updVc, noted]

theorem lkState_takeHdr (l k : Nat) (h : FlitHdr) (d : Dev) : (d.takeHdr l h).lkState k = d.lkState k :=
  rd_takeHdr (outsideBooks_state l k) h d

/-! Control flits (R217). -/

theorem ctrlFlit_good (h4 : d.lkState l = 4) (hb : h.bad = false) (f : Dev → Dev) : d.ctrlFlit l h f = f (d.takeHdr l h) := by
  rw [ctrlFlit, if_neg (by simp [h4, lkDOWN, lkTRAIN]), if_neg (by simp [hb])]

theorem ctrlFlit_bad (h4 : d.lkState l = 4) (hb : h.bad = true) (f : Dev → Dev) : d.ctrlFlit l h f = d.badFlit l := by
  rw [ctrlFlit, if_neg (by simp [h4, lkDOWN, lkTRAIN]), if_pos hb]

/-! DATA flits (R222). -/

/-- How far ahead of the number expected a flit's number is. -/
def ahead (d : Dev) (l seq : Nat) : Nat := (seq + 4096 - (d.link l).e) % 4096

/-- The flit expected is accepted: E moves on, no NAK is outstanding, and the body is delivered. -/
def accept (l v : Nat) (bytes : List Byte) (d : Dev) : Dev :=
  ((d.updLink l fun x => { x with e := (x.e + 1) % 4096, got := true, nakOut := false, naks := 0 }).incWrap
    (Reg.LNK_RXBODY_BYTES l) 246).takeBody l v ((bytes ++ List.replicate 245 0).take 245)

theorem dataFlit_bad (h4 : d.lkState l = 4) (hb : h.bad = true) (hn : (d.link l).nakOut = true) (seq v : Nat) (bytes : List Byte) :
    d.dataFlit l h seq v bytes = d.badFlit l := by
  rw [dataFlit, if_neg (by simp [h4, lkACTIVE]), if_pos (.inl hb)]
  exact if_pos hn

/-- An uncorrupted flit goes by how far its number is ahead. -/
theorem dataFlit_good (h4 : d.lkState l = 4) (hb : h.bad = false) (hg : (d.link l).degrade = none) (seq v : Nat) (bytes : List Byte) :
    d.dataFlit l h seq v bytes =
      if d.ahead l seq = 0 then (d.takeHdr l h).accept l v bytes
      else if d.ahead l seq < 2048 then (d.takeHdr l h).nakOnce l
      else d.takeHdr l h := by
  obtain ⟨o, r, w, hx⟩ := link_takeHdr l h d
  have he : ((d.takeHdr l h).link l).e = (d.link l).e := by rw [hx]
  rw [dataFlit, if_neg (by simp [h4, lkACTIVE]), if_neg (by simp [hb, hg])]
  simp only [he]
  rfl

section numbered

variable (h4 : d.lkState l = 4) (hb : h.bad = false) (hg : (d.link l).degrade = none) {seq : Nat}
include h4 hb hg

theorem dataFlit_expected (ha : d.ahead l seq = 0) (v : Nat) (bytes : List Byte) :
    d.dataFlit l h seq v bytes = (d.takeHdr l h).accept l v bytes := by
  rw [dataFlit_good h4 hb hg, if_pos ha]

theorem dataFlit_duplicate (ha : 2048 ≤ d.ahead l seq) (v : Nat) (bytes : List Byte) :
    d.dataFlit l h seq v bytes = d.takeHdr l h := by
  rw [dataFlit_good h4 hb hg, if_neg (by omega), if_neg (by omega)]

theorem dataFlit_gap (h0 : 0 < d.ahead l seq) (ha : d.ahead l seq < 2048) (v : Nat) (bytes : List Byte) :
    d.dataFlit l h seq v bytes = (d.takeHdr l h).nakOnce l := by
  rw [dataFlit_good h4 hb hg, if_neg (by omega), if_pos ha]

end numbered

theorem link_accept (l v : Nat) (bytes : List Byte) (d : Dev) : ∃ w, (d.accept l v bytes).link l =
    { d.link l with e := ((d.link l).e + 1) % 4096, got := true, nakOut := false, naks := 0, vcs := w } := by
  rw [accept, (takeBody_books _ l v _).link l, link_incWrap, link_updLink_same]
  exact ⟨_, rfl⟩

theorem rd_rxBody_accept (l v : Nat) (bytes : List Byte) (d : Dev) :
    (d.accept l v bytes).rd (Reg.LNK_RXBODY_BYTES l) = (d.rd (Reg.LNK_RXBODY_BYTES l) + 246) % 2 ^ 64 :=
  ((takeBody_books _ l v _).rd _ (outsideBooks_rxBody l)).trans (rd_wr_same _ _ _)

/-! The NAK (R222). -/

/-- A NAK carrying E has been sent and counted. -/
def nakSent (l : Nat) (d : Dev) : Dev :=
  ((d.sendFlit l 2 0 (ctrlBody 1 (leBytes 2 (d.link l).e))).incSat (Reg.LNK_RETRYCNT_NAKTX l) 1).updLink l fun x =>
    { x with nakOut := true, naks := x.naks + 1 }

theorem nakSent_books (l : Nat) (d : Dev) :
    OnlyBooks l d ((d.sendFlit l 2 0 (ctrlBody 1 (leBytes 2 (d.link l).e))).incSat (Reg.LNK_RETRYCNT_NAKTX l) 1) :=
  (sendFlit_books d l l _ _ _).trans (wr_books _ l (by simp) _)

theorem link_nakSent (l : Nat) (d : Dev) :
    ∃ w, (d.nakSent l).link l = { d.link l with nakOut := true, naks := (d.link l).naks + 1, vcs := w } := by
  rw [nakSent, link_updLink_same, (nakSent_books l d).link l]
  exact ⟨_, rfl⟩

theorem rd_nakSent {f : Fld} (hf : OutsideBooks l f) (d : Dev) : (d.nakSent l).rd f = d.rd f := (nakSent_books l d).rd f hf

theorem out_nakSent (l : Nat) (d : Dev) : ∃ q av a c n, (d.nakSent l).out.head? =
    some (.flit l 2 0 q av a c n (ctrlBody 1 (leBytes 2 (d.link l).e))) := by
  obtain ⟨q, av, a, c, n, hout⟩ := sendFlit_out d l 2 0 (ctrlBody 1 (leBytes 2 (d.link l).e))
  exact ⟨q, av, a, c, n, congrArg List.head? hout⟩

/-- NAKMAX in a row for one E retrain the link; one fewer does not. -/
theorem sendNak_eq (l : Nat) (d : Dev) : d.sendNak l =
    if max 1 (d.rd (Reg.LNK_CTL_NAKMAX l)) ≤ (d.link l).naks + 1 then (d.nakSent l).lkRetrain l else d.nakSent l := by
  obtain ⟨w, hx⟩ := link_nakSent l d
  have hn : ((d.nakSent l).link l).naks = (d.link l).naks + 1 := by rw [hx]
  rw [← hn, ← rd_nakSent (outsideBooks_nakMax l) d]
  rfl

theorem sendNak_below (hn : (d.link l).naks + 1 < d.rd (Reg.LNK_CTL_NAKMAX l)) : d.sendNak l = d.nakSent l := by
  rw [sendNak_eq, if_neg (by omega)]

theorem sendNak_limit (hn : d.rd (Reg.LNK_CTL_NAKMAX l) ≤ (d.link l).naks + 1) : d.sendNak l = (d.nakSent l).lkRetrain l := by
  rw [sendNak_eq, if_pos (by omega)]

theorem nakOnce_free (hn : (d.link l).nakOut = false) : d.nakOnce l = d.sendNak l := if_neg (by simp [hn])

/-- After a header a link with no NAK outstanding sends one, and goes on while NAKMAX is not reached. -/
theorem nakOnce_takeHdr (hn : (d.link l).nakOut = false) (hm : (d.link l).naks + 1 < d.rd (Reg.LNK_CTL_NAKMAX l)) :
    (d.takeHdr l h).nakOnce l = (d.takeHdr l h).nakSent l := by
  obtain ⟨o, r, w, hx⟩ := link_takeHdr l h d
  rw [nakOnce_free (by rw [hx]; exact hn), sendNak_below]
  rw [hx, rd_takeHdr (outsideBooks_nakMax l)]
  exact hm

theorem nakResend_outstanding (h4 : d.lkState l = 4) (hn : (d.link l).nakOut = true) : d.nakResend l = d.sendNak l := if_pos ⟨h4, hn⟩

/-! Retraining keeps the replay buffer and the numbers (Table LK-4). -/

theorem link_lkRetrain (l : Nat) (d : Dev) : (d.lkRetrain l).link l = { d.link l with departs := [], arrives := [] } := by
  rw [lkRetrain, lkGo_link, timeCross, link_updLink_same, link_incSat]

theorem lkState_lkRetrain (l : Nat) (d : Dev) : (d.lkRetrain l).lkState l = 6 := lkState_lkGo _ l (by decide)

theorem rd_lkRetrain {f : Fld} (hf : OutsideBooks l f) (hs : f.key ≠ (Reg.LNK_STAT_STATE l).key) (d : Dev) :
    (d.lkRetrain l).rd f = d.rd f := by
  rw [lkRetrain, rd_lkGo _ l hf hs, timeCross, rd_updLink]
  exact (wr_books d l (by simp) _).rd f hf

end Sys2Proof.Machine.Dev
end

section
/-!
Flits sent on an active link (R217, R221): a replay, a new DATA flit, and the credits.
-/
namespace Sys2Proof.Machine.Dev

variable {d : Dev} {l : Nat} {h : FlitHdr}

/-! Replay (R221). -/

theorem takeNak_inWindow {e : Nat} (h4 : d.lkState l = 4) (hq : d.devQuiet = false)
    (hk : (e + 4096 - (d.link l).o) % 4096 ≤ ((d.link l).n + 4096 - (d.link l).o) % 4096) :
    d.takeNak l e = (d.incSat (Reg.LNK_RETRYCNT_NAKRX l) 1).resend l e := by
  simp only [takeNak]
  rw [if_neg (by simp [h4, lkACTIVE]), if_pos hk, if_neg]
  simp [incSat, hq]

theorem takeNak_outOfWindow {e : Nat} (h4 : d.lkState l = 4)
    (hk : ((d.link l).n + 4096 - (d.link l).o) % 4096 < (e + 4096 - (d.link l).o) % 4096) : d.takeNak l e = d.lkRetrain l := by
  simp only [takeNak]
  rw [if_neg (by simp [h4, lkACTIVE]), if_neg (by omega)]

theorem resend_books (l e : Nat) (d : Dev) : OnlyBooks l d (d.resend l e) :=
  foldl_books d l _ fun d _ => sendFlit_books d l l _ _ _

/-- A replay sends each of its flits once. -/
theorem length_out_resend (l e : Nat) (d : Dev) :
    (d.resend l e).out.length = d.out.length + ((d.link l).replay.drop ((e + 4096 - (d.link l).o) % 4096)).length := by
  have sends (xs : List (List Byte × Nat)) (d : Dev) :
      (xs.foldl (fun d b => d.sendFlit l 1 ((e + b.2) % 4096) b.1) d).out.length = d.out.length + xs.length := by
    induction xs generalizing d with
    | nil => rfl
    | cons b xs ih =>
      obtain ⟨q, av, a, c, n, hout⟩ := sendFlit_out d l 1 ((e + b.2) % 4096) b.1
      rw [List.foldl_cons, ih, hout, List.length_cons, List.length_cons]
      omega
  exact (sends _ d).trans (by rw [List.length_zipIdx])

section nak

variable {e : Nat} (h4 : d.lkState l = 4) (hb : h.bad = false) (hav : h.av = false) (hq : d.flag (Reg.LNK_STAT_NQUIET l) = h.q)
include h4 hb hav hq

/-- A NAK that acknowledges nothing returns its credits, and the replay starts at its E. -/
theorem nakFlit_inWindow (hdq : d.devQuiet = false)
    (hk : (e + 4096 - (d.link l).o) % 4096 ≤ ((d.link l).n + 4096 - (d.link l).o) % 4096) :
    d.nakFlit l h e = ((d.updVc l h.crvc (returned h)).incSat (Reg.LNK_RETRYCNT_NAKRX l) 1).resend l e := by
  rw [nakFlit, ctrlFlit_good h4 hb, takeHdr_credits h4 hav hq]
  exact takeNak_inWindow h4 hdq (by rw [link_updVc_same]; exact hk)

theorem nakFlit_outOfWindow (hk : ((d.link l).n + 4096 - (d.link l).o) % 4096 < (e + 4096 - (d.link l).o) % 4096) :
    d.nakFlit l h e = (d.updVc l h.crvc (returned h)).lkRetrain l := by
  rw [nakFlit, ctrlFlit_good h4 hb, takeHdr_credits h4 hav hq]
  exact takeNak_outOfWindow h4 (by rw [link_updVc_same]; exact hk)

end nak

/-! A new DATA flit (R221, R241). -/

/-- The body of the next DATA flit of a channel. -/
def nextBody (v : Nat) (y : LinkVc) : List Byte :=
  (leBytes 1 v ++ (y.txq.flatMap TxPkt.left).take 245 ++ List.replicate 245 0).take 246

theorem dataTransmit_waits {v : Nat} (hw : ((d.link l).vc v).credits = 0 ∨ d.mayData l = false) : d.dataTransmit l v = d := by
  refine if_pos ?_
  obtain hc | hm := hw
  · exact .inr (.inr (.inl hc))
  · exact .inl (by simp [hm])

/-- A new flit of a channel takes one credit and the next number, and joins the replay buffer. -/
def numbered (l v : Nat) (rest : List TxPkt) (body : List Byte) (d : Dev) : Dev :=
  (d.updVc l v fun y => { y with txq := rest, credits := y.credits - 1 }).updLink l fun x =>
    { x with n := (x.n + 1) % 4096, replay := x.replay ++ [body], sent := x.sent + 1 }

theorem link_numbered (l v : Nat) (rest : List TxPkt) (body : List Byte) (d : Dev) : (d.numbered l v rest body).link l =
    { (d.link l).setVc v { (d.link l).vc v with txq := rest, credits := ((d.link l).vc v).credits - 1 } with
      n := ((d.link l).n + 1) % 4096, replay := (d.link l).replay ++ [body], sent := (d.link l).sent + 1 } := by
  rw [numbered, link_updLink_same, link_updVc_same]
  rfl

section transmit

variable {v : Nat} (hm : d.mayData l = true) (ht : ((d.link l).vc v).txq ≠ []) (hc : ((d.link l).vc v).credits ≠ 0)
  (hr : (d.link l).replay.length < 1024) (hn : ((d.link l).n + 4096 - (d.link l).o) % 4096 + 1 ≤ 2047)
include hm ht hc hr hn

/-- What may be sent is numbered and sent; the input flits freed by it move nothing else. -/
theorem dataTransmit_sends : ∃ e rest, OnlyBooks l d e ∧ d.dataTransmit l v =
    (e.numbered l v rest (nextBody v ((d.link l).vc v))).sendFlit l 1 (d.link l).n (nextBody v ((d.link l).vc v)) := by
  simp only [dataTransmit]
  rw [if_neg]
  · exact ⟨_, _, foldl_books d l _ fun d t => freed_books d l t, rfl⟩
  · simp only [not_or]
    exact ⟨by simp [hm], ht, hc, by omega, by omega⟩

theorem dataTransmit_effect :
    ∃ q av a c n, ((d.dataTransmit l v).link l).n = ((d.link l).n + 1) % 4096 ∧
      ((d.dataTransmit l v).link l).replay = (d.link l).replay ++ [nextBody v ((d.link l).vc v)] ∧
      (((d.dataTransmit l v).link l).vc v).credits = ((d.link l).vc v).credits - 1 ∧
      (d.dataTransmit l v).out.head? = some (.flit l 1 (d.link l).n q av a c n (nextBody v ((d.link l).vc v))) := by
  obtain ⟨e, rest, he, heq⟩ := dataTransmit_sends hm ht hc hr hn
  have hready := link_numbered l v rest (nextBody v ((d.link l).vc v)) e
  have hsent := sendFlit_books (e.numbered l v rest (nextBody v ((d.link l).vc v))) l l 1 (d.link l).n (nextBody v ((d.link l).vc v))
  obtain ⟨q, av, a, c, n, hout⟩ := sendFlit_out (e.numbered l v rest (nextBody v ((d.link l).vc v))) l 1 (d.link l).n
    (nextBody v ((d.link l).vc v))
  rw [heq]
  refine ⟨q, av, a, c, n, ?_, ?_, ?_, congrArg List.head? hout⟩
  · rw [hsent.link, hready, he.link]
  · rw [hsent.link, hready, he.link]
  · rw [hsent.credits, hready, ← he.credits]
    exact congrArg LinkVc.credits (Link.vc_setVc_same (e.link l) v _)

end transmit

/-! Credits (R217). -/

/-- A new acknowledgement and the credits beside it, on the link's record. -/
theorem link_takeHdr_new (h4 : d.lkState l = 4) (hav : h.av = true)
    (hk : (h.ack.toNat + 4096 - (d.link l).o) % 4096 < ((d.link l).n + 4096 - (d.link l).o) % 4096) :
    (d.takeHdr l h).link l = { (d.link l).setVc h.crvc (returned h ((d.link l).vc h.crvc)) with
      o := (h.ack.toNat + 1) % 4096,
      replay := (d.link l).replay.drop ((h.ack.toNat + 4096 - (d.link l).o) % 4096 + 1) } := by
  rw [takeHdr_active h4, if_pos hav, link_updVc_same, takeAck_new (by rwa [link_noteQuiet]), link_setLink_same, link_noteQuiet]
  rfl

theorem returned_none (hc : h.crn = 0) {y : LinkVc} (hy : y.creditIn < 2 ^ 16) : returned h y = y := by
  have hin : (y.creditIn + (0 : BitVec 5).toNat) % 2 ^ 16 = y.creditIn := Nat.mod_eq_of_lt hy
  rw [returned, hc, hin]
  rfl

/-- A header that returns no credits leaves a count of 16 bits as it is. -/
theorem vc_takeHdr_none (hc : h.crn = 0) (d : Dev) {u : Nat} (hu : ((d.link l).vc u).creditIn < 2 ^ 16) :
    (((d.takeHdr l h).link l).vc u) = (d.link l).vc u := by
  have acked : (((if h.av then (d.noteQuiet l h.q).takeAck l h.ack.toNat else d.noteQuiet l h.q).link l).vc u) = (d.link l).vc u := by
    split
    · obtain ⟨o, r, hx⟩ := link_takeAck l h.ack.toNat (d.noteQuiet l h.q)
      rw [hx, link_noteQuiet]
      rfl
    · rw [link_noteQuiet]
  by_cases h4 : d.lkState l = 4
  · rw [takeHdr_active h4, link_updVc_same]
    by_cases hv : u = h.crvc
    · rw [hv] at acked hu ⊢
      rw [Link.vc_setVc_same, acked, returned_none hc hu]
    · rw [Link.vc_setVc_ne _ hv, acked]
  · rw [takeHdr, if_pos (by rwa [← (noteQuiet_books d l h.q).lkState l] at h4), link_noteQuiet]

/-- One channel after a CREDSYNC with its count: the credits that were lost are added (R217). -/
def synced (c : Nat) (y : LinkVc) : LinkVc := { y with credits := y.credits + (c + 2 ^ 16 - y.creditIn) % 2 ^ 16, creditIn := c }

theorem vc_foldl_updVc (g : Nat → LinkVc → LinkVc) (n l : Nat) (d : Dev) (u : Nat) :
    (((List.range n).foldl (fun d v => d.updVc l v (g v)) d).link l).vc u = if u < n then g u ((d.link l).vc u) else (d.link l).vc u := by
  induction n with
  | zero => rfl
  | succ n ih =>
    rw [List.range_succ, List.foldl_append, List.foldl_cons, List.foldl_nil, link_updVc_same]
    obtain rfl | hu := eq_or_ne u n
    · rw [Link.vc_setVc_same, ih, if_neg (Nat.lt_irrefl u), if_pos (Nat.lt_succ_self u)]
    · rw [Link.vc_setVc_ne _ hu, ih]
      exact if_congr (by omega) rfl rfl

theorem vc_credSync (h4 : d.lkState l = 4) (hb : h.bad = false) (hc : h.crn = 0) (counts : List (BitVec 16)) {u : Nat} (hu : u < 8)
    (hin : ((d.link l).vc u).creditIn < 2 ^ 16) :
    (((d.credSync l h counts).link l).vc u) = synced (counts.getD u 0).toNat ((d.link l).vc u) := by
  rw [credSync, ctrlFlit_good h4 hb]
  refine (vc_foldl_updVc (fun v => synced (counts.getD v 0).toNat) 8 l _ u).trans ?_
  rw [if_pos hu, vc_takeHdr_none hc d hin]

end Sys2Proof.Machine.Dev
end

section
/-!
The time exchange (R231): a TIME flit sent, and one received that completes an exchange while the bell unit follows the reference.
-/
namespace Sys2Proof.Machine.Dev

variable {d : Dev} {l : Nat} {h : FlitHdr}

theorem link_sendTime (l sub : Nat) (d : Dev) : ∃ w, (d.sendTime l sub).link l = { d.link l with
    tnum := ((d.link l).tnum + 1) % 2 ^ 16, tdep := (16 * d.now + sub % 16) % 2 ^ 64, tprev := true, vcs := w,
    departs := ((((d.link l).tnum + 1) % 2 ^ 16, (16 * d.now + sub % 16) % 2 ^ 64) :: (d.link l).departs).take 4 } := by
  simp only [sendTime]
  rw [link_updLink_same, (sendFlit_books d l l _ _ _).link]
  exact ⟨_, rfl⟩

theorem timeFlitSend_off (ht : d.flag (Reg.LNK_TIMECFG_TEN l) = false) (sub : Nat) : d.timeFlitSend l sub = d :=
  if_neg (by simp [ht])

theorem timeFlitSend_on (h4 : d.lkState l = 4) (ht : d.flag (Reg.LNK_TIMECFG_TEN l) = true) (sub : Nat) :
    d.timeFlitSend l sub = d.sendTime l sub := if_pos ⟨h4, ht⟩

/-- An even number is halved exactly. -/
theorem halve_even {x : Int} (hx : x % 2 = 0) (d : Dev) : d.halve x = (x / 2, d) := if_pos hx

/-- A unit locked to the reference takes nothing from a link's exchange (R300). -/
theorem bellExchange_refLock (hs : d.blState = 1) (off : Int) : d.bellExchange l off = d := by
  simp [bellExchange, hs, bsLINKLOCK, bsUNLOCKED, bsHOLDOVER, bsFREE]

/-- Twice the offset that an exchange of four stamps gives: out, less home, with the asymmetry that the link is given (R231). -/
def twiceOffset (l : Nat) (b : TimeBody) (t1 t4 : Nat) (d : Dev) : Int :=
  (b.tarr - BitVec.ofNat 64 t1).toInt - (BitVec.ofNat 64 t4 - b.tdep).toInt +
    (BitVec.ofNat 16 (d.rd (Reg.LNK_TIMECFG_ASYM l))).toInt
/-- Twice the delay: out and home. -/
def twiceDelay (b : TimeBody) (t1 t4 : Nat) : Int := (b.tarr - BitVec.ofNat 64 t1).toInt + (BitVec.ofNat 64 t4 - b.tdep).toInt

/-- A TIME flit's arrival is stamped, and what it says of its sender kept (R231). -/
def stamped (l : Nat) (b : TimeBody) (sub : Nat) (d : Dev) : Dev :=
  let stamp := (16 * d.now + sub % 16) % 2 ^ 64
  d.setLink l { d.link l with arrives := ((b.tnum.toNat, stamp) :: (d.link l).arrives).take 4, tarr := stamp, tlast := some b.tnum.toNat,
                              nbState := b.bstate, nbDepth := b.depth.toNat }

/-- A completed exchange is written to LNK_TIME and counted (R231). -/
def exchanged (l : Nat) (off del : Int) (d : Dev) : Dev :=
  (((d.wr (Reg.LNK_TIME_OFFSET l) (BitVec.ofInt 32 off).toNat).wr (Reg.LNK_TIME_DELAY l) (BitVec.ofInt 32 del).toNat).incWrap
    (Reg.LNK_TSEQ_TDONE l) 1).updLink l fun x => { x with lastEx := some d.now, exchanges := x.exchanges + 1 }

theorem twiceOffset_stamped (l : Nat) (h : FlitHdr) (b : TimeBody) (sub t1 t4 : Nat) (d : Dev) :
    ((d.takeHdr l h).stamped l b sub).twiceOffset l b t1 t4 = d.twiceOffset l b t1 t4 := by
  simp only [twiceOffset, stamped, rd_setLink, rd_takeHdr (outsideBooks_asym l)]

theorem rd_exchanged {f : Fld} (l : Nat) (off del : Int) (d : Dev) (ho : f.key ≠ (Reg.LNK_TIME_OFFSET l).key)
    (hd : f.key ≠ (Reg.LNK_TIME_DELAY l).key) (hc : f.key ≠ (Reg.LNK_TSEQ_TDONE l).key) : (d.exchanged l off del).rd f = d.rd f := by
  rw [exchanged, rd_updLink, incWrap, rd_wr_ne _ _ _ _ hc, rd_wr_ne _ _ _ _ hd, rd_wr_ne _ _ _ _ ho]

theorem blState_exchanged (l : Nat) (off del : Int) (d : Dev) : (d.exchanged l off del).blState = d.blState := by
  refine rd_exchanged l off del d ?_ ?_ ?_ <;>
    simp only [Fld.key, Reg.BL_STAT_STATE, Reg.BL_STAT, Reg.LNK_TIME_OFFSET, Reg.LNK_TIME_DELAY, Reg.LNK_TIME, Reg.LNK_TSEQ_TDONE,
      Reg.LNK_TSEQ] <;> omega

theorem rd_offset_exchanged (l : Nat) (off del : Int) (d : Dev) :
    (d.exchanged l off del).rd (Reg.LNK_TIME_OFFSET l) = (BitVec.ofInt 32 off).toNat := by
  have hdel : (Reg.LNK_TIME_OFFSET l).key ≠ (Reg.LNK_TIME_DELAY l).key := by simp [Fld.key, Reg.LNK_TIME_OFFSET, Reg.LNK_TIME_DELAY]
  have hcount : (Reg.LNK_TIME_OFFSET l).key ≠ (Reg.LNK_TSEQ_TDONE l).key := by
    simp [Fld.key, Reg.LNK_TIME_OFFSET, Reg.LNK_TSEQ_TDONE, Reg.LNK_TIME, Reg.LNK_TSEQ]
  rw [exchanged, rd_updLink, incWrap, rd_wr_ne _ _ _ _ hcount, rd_wr_ne _ _ _ _ hdel, rd_wr_same]
  exact Nat.mod_eq_of_lt (BitVec.isLt _)

theorem rd_delay_exchanged (l : Nat) (off del : Int) (d : Dev) :
    (d.exchanged l off del).rd (Reg.LNK_TIME_DELAY l) = (BitVec.ofInt 32 del).toNat := by
  have hcount : (Reg.LNK_TIME_DELAY l).key ≠ (Reg.LNK_TSEQ_TDONE l).key := by
    simp only [Fld.key, Reg.LNK_TIME_DELAY, Reg.LNK_TSEQ_TDONE, Reg.LNK_TIME, Reg.LNK_TSEQ]
    omega
  rw [exchanged, rd_updLink, incWrap, rd_wr_ne _ _ _ _ hcount, rd_wr_same]
  exact Nat.mod_eq_of_lt (BitVec.isLt _)

section completes

variable (h4 : d.lkState l = 4) (hb : h.bad = false) {b : TimeBody} (hv : b.valid = 3) {t1 t4 : Nat}
  (hdep : (d.link l).departs.lookup b.rnum.toNat = some t1) (harr : (d.link l).arrives.lookup b.pnum.toNat = some t4)
  (ho : d.twiceOffset l b t1 t4 % 2 = 0) (hd : twiceDelay b t1 t4 % 2 = 0)
include h4 hb hv hdep harr ho hd

/-- An exchange with both local stamps held, and no half to round, completes. -/
theorem takeTime_completes (sub : Nat) :
    takeTime l h b sub d = (some (d.twiceOffset l b t1 t4 / 2, twiceDelay b t1 t4 / 2),
      ((d.takeHdr l h).stamped l b sub).exchanged l (d.twiceOffset l b t1 t4 / 2) (twiceDelay b t1 t4 / 2)) := by
  obtain ⟨o, r, w, hx⟩ := link_takeHdr l h d
  have hdep' : ((d.takeHdr l h).link l).departs.lookup b.rnum.toNat = some t1 := by rw [hx]; exact hdep
  have harr' : ((d.takeHdr l h).link l).arrives.lookup b.pnum.toNat = some t4 := by rw [hx]; exact harr
  rw [← twiceOffset_stamped l h b sub] at ho ⊢
  have hoff := halve_even ho ((d.takeHdr l h).stamped l b sub)
  have hdel := halve_even hd ((d.takeHdr l h).stamped l b sub)
  simp only [twiceOffset, twiceDelay, stamped] at hoff hdel
  simp only [takeTime]
  rw [if_neg (by simp [h4, lkACTIVE]), if_neg (by simp [hb]), if_neg (by simp [hv])]
  simp only [hdep', harr', hoff, hdel]
  rfl

/-- While the bell unit follows the reference, a TIME flit that completes an exchange ends with LNK_TIME. -/
theorem timeFlit_completes (hs : d.blState = 1) (sub : Nat) :
    d.timeFlit l 0 h b sub =
      ((d.takeHdr l h).stamped l b sub).exchanged l (d.twiceOffset l b t1 t4 / 2) (twiceDelay b t1 t4 / 2) := by
  have hnow : { d with now := d.now + 0 } = d := rfl
  rw [timeFlit, hnow, takeTime_completes h4 hb hv hdep harr ho hd]
  refine bellExchange_refLock ?_ _
  rw [blState_exchanged]
  exact (rd_takeHdr (outsideBooks_bellState l) h d).trans hs

end completes

end Sys2Proof.Machine.Dev
end

section
/-!
A link that goes DOWN (R219, R220), and its lanes (R225 to R227): what a dropped, a restriped and a readmitted lane change.
-/
namespace Sys2Proof.Machine.Dev

variable {d : Dev} {l : Nat} {h : FlitHdr}

/-! An error record (R365) keeps to its bank's registers, which end below 0x53000. -/

section bank

variable {f : Fld} {b : Nat} (hf : 0x53000 ≤ f.addr) (hb : b < 64)
include hf hb

theorem rd_wr_inBank {g : Fld} (hg : g.addr < 0x51000 + 0x80 * (b + 1)) (hl : g.lo < 64) (v : Nat) (d : Dev) :
    (d.wr g v).rd f = d.rd f :=
  rd_wr_ne _ _ _ _ (by simp only [Fld.key]; omega)

theorem rd_becomePrim_outside (w0 w1 w2 w3 : Nat) (d : Dev) : (d.becomePrim b w0 w1 w2 w3).rd f = d.rd f := by
  have word (w : Nat) (hw : w < 4) := rd_wr_inBank (g := Reg.ERR_P_WORD b w) hf hb (by simp only [Reg.ERR_P_WORD, Reg.ERR_P]; omega)
    (Nat.two_pow_pos 6)
  have primary : (d.setPrim b w0 w1 w2 w3).rd f = d.rd f := by simp [setPrim, word]
  simp only [becomePrim, rd_alertPin, rd_irqEvent]
  exact primary

theorem rd_setPend_outside (w0 w1 w2 w3 : Nat) (d : Dev) : (d.setPend b w0 w1 w2 w3).rd f = d.rd f := by
  have word (w : Nat) (hw : w < 4) := rd_wr_inBank (g := Reg.ERR_Q_WORD b w) hf hb (by simp only [Reg.ERR_Q_WORD, Reg.ERR_Q]; omega)
    (Nat.two_pow_pos 6)
  simp [setPend, word]

theorem rd_bankDrop_outside (d : Dev) : (d.bankDrop b).rd f = d.rd f := by
  have stat {lo width reset : Nat} {ty : FTy} (hl : lo < 64) (v : Nat) (d : Dev) :
      (d.wr ⟨Reg.ERR_STAT b, lo, width, ty, reset⟩ v).rd f = d.rd f :=
    rd_wr_inBank hf hb (by simp only [Reg.ERR_STAT]; omega) hl v d
  have counted : (d.incSat (Reg.ERR_STAT_OVF b) 1).rd f = d.rd f := stat (by decide) _ d
  simp only [bankDrop]
  split
  · rw [escalate, rd_alertPin, rd_irqEvent]
    exact (stat (by decide) 1 _).trans counted
  · exact counted

theorem rd_err_outside (a : ErrArgs) (d : Dev) : (d.err b a).rd f = d.rd f := by
  have preempts (e : Dev) : (e.setF (Reg.ERR_STAT_PREEMPT b)).rd f = e.rd f :=
    rd_wr_inBank hf hb (by simp only [Reg.ERR_STAT_PREEMPT, Reg.ERR_STAT]; omega) (by simp [Reg.ERR_STAT_PREEMPT]) 1 e
  simp only [err, bankArrive]
  split
  · exact rd_becomePrim_outside hf hb ..
  · split
    · split <;> simp only [rd_bankDrop_outside hf hb, preempts, rd_becomePrim_outside hf hb, rd_setPend_outside hf hb]
    · split
      · exact rd_setPend_outside hf hb ..
      · exact rd_bankDrop_outside hf hb d

end bank

theorem err_books (l : Nat) {b : Nat} (hb : b < 64) (a : ErrArgs) (d : Dev) : OnlyBooks l d (d.err b a) :=
  .of_links (by rw [(err_records d hb a).rest]) fun _ hf => rd_err_outside hf.bank hb a d

/-! DOWN (Table LK-4). -/

theorem lkState_lkDown (l : Nat) (d : Dev) : (d.lkDown l).lkState l = 0 := by
  simp only [lkDown]
  split
  · assumption
  · exact lkState_lkGo _ l (by decide)

/-- A link that goes DOWN moves no register but its state and its books. -/
theorem rd_lkDown {f : Fld} (hl : l < 32) (hf : OutsideBooks l f) (hs : f.key ≠ (Reg.LNK_STAT_STATE l).key) (d : Dev) :
    (d.lkDown l).rd f = d.rd f := by
  simp only [lkDown]
  split
  · rfl
  · rw [rd_lkGo _ l hf hs, timeCross, rd_updLink, rd_updLink]
    refine (OnlyBooks.trans ?_ (foldl_books _ l _ fun e v => ?_)).rd f hf
    · split
      · exact (wr_books d l (by simp) _).trans (err_books l (by omega) _ _)
      · exact .refl l d
    · exact (foldl_books e l _ fun e t => freed_books e l t).updVc (by intro; rfl)

/-! Masks and lanes. -/

/-- The lanes' own registers apart, setting the receive lanes is the write of their mask. -/
theorem rd_setRxLanes {f : Fld} (hf : ∀ k, f.key ≠ (Reg.LNK_LANE_ACTIVE l k).key) (m : Nat) (d : Dev) :
    (d.setRxLanes l m).rd f = (d.wr (Reg.LNK_STAT_RXLANES l) m).rd f :=
  foldl_keeps (fun e : Dev => e.rd f = (d.wr (Reg.LNK_STAT_RXLANES l) m).rd f) _ _ _ rfl fun e _ he =>
    (rd_wr_ne e _ f _ (hf _)).trans he

/-- Fields are apart whose places within 64 bits differ. -/
theorem key_ne_of_lo {f g : Fld} (h : f.lo % 64 ≠ g.lo % 64) : f.key ≠ g.key := by
  simp only [Fld.key]
  omega

theorem rd_rxLanes_setRxLanes (l m : Nat) (d : Dev) : (d.setRxLanes l m).rd (Reg.LNK_STAT_RXLANES l) = m % 16 := by
  rw [rd_setRxLanes fun k => key_ne_of_lo (by simp [Reg.LNK_STAT_RXLANES, Reg.LNK_LANE_ACTIVE]), rd_wr_same]
  rfl

theorem lkState_setRxLanes (l m k : Nat) (d : Dev) : (d.setRxLanes l m).lkState k = d.lkState k := by
  rw [lkState, rd_setRxLanes fun k => key_ne_of_lo (by simp [Reg.LNK_STAT_STATE, Reg.LNK_LANE_ACTIVE])]
  exact rd_wr_ne _ _ _ _ (key_ne_of_lo (by simp [Reg.LNK_STAT_STATE, Reg.LNK_STAT_RXLANES]))

/-- Asking for a mask: the exchanges that cross it are discarded, and the mask is noted until the mark (R226, R232). -/
theorem link_askMask (l m : Nat) (d : Dev) :
    ∃ w, (d.askMask l m).link l = { d.link l with departs := [], arrives := [], degrade := some m, vcs := w } := by
  rw [askMask, (sendFlit_books _ l l _ _ _).link, link_updLink_same, timeCross, link_updLink_same, link_lkIrq, link_incSat]
  exact ⟨_, rfl⟩

theorem rd_askMask {f : Fld} (hf : OutsideBooks l f) (m : Nat) (d : Dev) : (d.askMask l m).rd f = d.rd f := by
  rw [askMask, (sendFlit_books _ l l _ _ _).rd f hf, rd_updLink, timeCross, rd_updLink, rd_lkIrq]
  exact (wr_books d l (by simp) _).rd f hf

/-- A lane that fails is marked and leaves the mask (R226). -/
def laneDropped (l k : Nat) (d : Dev) : Dev :=
  (d.setF (Reg.LNK_LANE_FAILED l k)).setRxLanes l (setBit (d.rd (Reg.LNK_STAT_RXLANES l)) k false)

theorem laneFail_active {k : Nat} (h4 : d.lkState l = 4) (hk : bit (d.rd (Reg.LNK_STAT_RXLANES l)) k = true) :
    d.laneFail l k = if setBit (d.rd (Reg.LNK_STAT_RXLANES l)) k false = 0 then (d.laneDropped l k).lkDown l
      else (d.laneDropped l k).askMask l (setBit (d.rd (Reg.LNK_STAT_RXLANES l)) k false) := by
  rw [laneFail, if_neg (by simp [h4, hk, lkACTIVE])]
  rfl

theorem lkState_laneDropped (l k j : Nat) (d : Dev) : (d.laneDropped l k).lkState j = d.lkState j := by
  rw [laneDropped, lkState_setRxLanes]
  exact rd_setF_ne (key_ne_of_lo (by simp [Reg.LNK_STAT_STATE, Reg.LNK_LANE_FAILED]))

theorem flag_failed_laneDropped (l k : Nat) (d : Dev) : (d.laneDropped l k).flag (Reg.LNK_LANE_FAILED l k) = true := by
  rw [flag, laneDropped, rd_setRxLanes fun k => key_ne_of_lo (by simp [Reg.LNK_LANE_FAILED, Reg.LNK_LANE_ACTIVE]),
    rd_wr_ne _ _ _ _ (key_ne_of_lo (by simp [Reg.LNK_LANE_FAILED, Reg.LNK_STAT_RXLANES])), rd_setF_same rfl]
  rfl

/-! The transmitter's and the receiver's part (R226). -/

/-- The transmitter acknowledges a mask, marks it and stripes over it. -/
def restriped (l m : Nat) (d : Dev) : Dev :=
  (((((d.sendFlit l 2 0 (ctrlBody 3 (leBytes 1 m))).sendFlit l 2 0 (ctrlBody 4 [])).wr (Reg.LNK_STAT_TXLANES l) m).incSat
    (Reg.LNK_EVCNT_DEGRADE l) 1).lkIrq l 1).timeCross l

theorem degradeFlit_new {m : Nat} (h4 : d.lkState l = 4) (hb : h.bad = false) (hm : m ≠ 0)
    (ht : d.rd (Reg.LNK_STAT_TXLANES l) ≠ m) : d.degradeFlit l h m = (d.takeHdr l h).restriped l m := by
  have hrd := (sendFlit_books (d.takeHdr l h) l l 2 0 (ctrlBody 3 (leBytes 1 m))).rd _ (outsideBooks_txLanes l)
  rw [rd_takeHdr (outsideBooks_txLanes l)] at hrd
  rw [degradeFlit, ctrlFlit_good h4 hb, if_neg (by rw [lkState_takeHdr, h4]; decide), if_neg hm]
  exact if_neg (hrd ▸ ht)

theorem degradeFlit_none (h4 : d.lkState l = 4) (hb : h.bad = false) : d.degradeFlit l h 0 = (d.takeHdr l h).lkDown l := by
  rw [degradeFlit, ctrlFlit_good h4 hb, if_neg (by rw [lkState_takeHdr, h4]; decide), if_pos rfl]

/-- A restriping reads, its books apart, as the write of the mask. -/
theorem rd_restriped {f : Fld} (hf : OutsideBooks l f) (m : Nat) (d : Dev) :
    ∃ e, OnlyBooks l d e ∧ (d.restriped l m).rd f = (e.wr (Reg.LNK_STAT_TXLANES l) m).rd f := by
  refine ⟨_, (sendFlit_books d l l 2 0 (ctrlBody 3 (leBytes 1 m))).trans (sendFlit_books _ l l 2 0 (ctrlBody 4 [])), ?_⟩
  rw [restriped, timeCross, rd_updLink, rd_lkIrq]
  exact (wr_books _ l (by simp) _).rd f hf

theorem rd_txLanes_restriped (l m : Nat) (d : Dev) : (d.restriped l m).rd (Reg.LNK_STAT_TXLANES l) = m % 16 := by
  obtain ⟨e, -, he⟩ := rd_restriped (outsideBooks_txLanes l) m d
  rw [he, rd_wr_same]
  rfl

theorem lkState_restriped (l m k : Nat) (d : Dev) : (d.restriped l m).lkState k = d.lkState k := by
  obtain ⟨e, hbooks, he⟩ := rd_restriped (outsideBooks_state l k) m d
  rw [lkState, he, rd_wr_ne _ _ _ _ (key_ne_of_lo (by simp [Reg.LNK_STAT_STATE, Reg.LNK_STAT_TXLANES]))]
  exact hbooks.lkState k

/-- The receiver locks to the mask it asked for: the lanes in it have not failed, and none of them is on trial. -/
def relocked (l m : Nat) (d : Dev) : Dev :=
  ((List.range 4).foldl (fun (d : Dev) k => if bit m k then d.clrF (Reg.LNK_LANE_FAILED l k) else d) (d.setRxLanes l m)).updLink l
    fun x => { x with degrade := none, trying := Nat.land x.trying (15 - m) }

theorem laneMark_asked {m : Nat} (h4 : d.lkState l = 4) (hb : h.bad = false) (hg : (d.link l).degrade = some m) :
    d.laneMark l h = ((d.takeHdr l h).relocked l m).sendNak l := by
  obtain ⟨o, r, w, hx⟩ := link_takeHdr l h d
  have hg' : ((d.takeHdr l h).link l).degrade = some m := by rw [hx]; exact hg
  rw [laneMark, ctrlFlit_good h4 hb]
  simp only [hg']
  rfl

theorem degrade_relocked (l m : Nat) (d : Dev) : ((d.relocked l m).link l).degrade = none :=
  congrArg Link.degrade (link_updLink_same ..)

theorem rd_rxLanes_relocked (l m : Nat) (d : Dev) : (d.relocked l m).rd (Reg.LNK_STAT_RXLANES l) = m % 16 := by
  refine foldl_keeps (fun e : Dev => e.rd (Reg.LNK_STAT_RXLANES l) = m % 16) _ _ _ (rd_rxLanes_setRxLanes l m d) fun e k he => ?_
  split
  · exact (rd_clrF_ne (key_ne_of_lo (by simp [Reg.LNK_STAT_RXLANES, Reg.LNK_LANE_FAILED]))).trans he
  · exact he

theorem degrade_sendNak (l : Nat) (d : Dev) : ((d.sendNak l).link l).degrade = (d.link l).degrade := by
  obtain ⟨w, hx⟩ := link_nakSent l d
  rw [sendNak_eq]
  split
  · rw [link_lkRetrain, hx]
  · rw [hx]

theorem rd_rxLanes_sendNak (l : Nat) (d : Dev) : (d.sendNak l).rd (Reg.LNK_STAT_RXLANES l) = d.rd (Reg.LNK_STAT_RXLANES l) := by
  rw [sendNak_eq]
  split
  · rw [rd_lkRetrain (outsideBooks_rxLanes l) (key_ne_of_lo (by simp [Reg.LNK_STAT_RXLANES, Reg.LNK_STAT_STATE])),
      rd_nakSent (outsideBooks_rxLanes l)]
  · exact rd_nakSent (outsideBooks_rxLanes l) d

theorem readmit_active (h4 : d.lkState l = 4) : d.readmit l = d.updLink l fun x => { x with
    trying := Nat.land (d.rd (Reg.LNK_CTL_LANEOK l)) (15 - d.rd (Reg.LNK_STAT_RXLANES l)) } := if_pos h4

theorem laneReadmission_tried {k : Nat} (h4 : d.lkState l = 4) (ht : bit (d.link l).trying k = true)
    (ho : bit (d.rd (Reg.LNK_CTL_LANEOK l)) k = true) :
    d.laneReadmission l k = d.askMask l (setBit (d.rd (Reg.LNK_STAT_RXLANES l)) k true) :=
  if_neg (by simp [h4, ht, ho, lkACTIVE])

end Sys2Proof.Machine.Dev
end

section
/-!
The laser feeds (R228 to R230): what a group's switch to its other cartridge changes, and a group that goes dark.
-/
namespace Sys2Proof.Machine.Dev

variable {d : Dev} {e g : Nat}

/-- Two bits of a number are replaced by taking their value away and adding the new one. -/
theorem bits_replace (x n : Nat) {f : Nat} (hf : f < 4) : bits (x - bits x (n + 1) n * 2 ^ n + f * 2 ^ n) (n + 1) n = f := by
  have hp : 0 < 2 ^ n := Nat.two_pow_pos n
  have hw : n + 1 + 1 - n = 2 := by omega
  have hle : x / 2 ^ n % 4 * 2 ^ n ≤ x := (Nat.mul_le_mul_right _ (Nat.mod_le ..)).trans (Nat.div_mul_le_self ..)
  have hsub : (x - x / 2 ^ n % 4 * 2 ^ n) / 2 ^ n = x / 2 ^ n - x / 2 ^ n % 4 := by rw [Nat.mul_comm, Nat.sub_mul_div]
  simp only [bits, hw, Nat.reducePow]
  rw [Nat.add_mul_div_right _ _ hp, hsub]
  omega

/-- Two bits below a width survive the cut to it. -/
theorem bits_mod_two_pow (x : Nat) {n w : Nat} (h : n + 2 ≤ w) : bits (x % 2 ^ w) (n + 1) n = bits x (n + 1) n := by
  obtain ⟨k, rfl⟩ := Nat.exists_eq_add_of_le h
  have hw : n + 1 + 1 - n = 2 := by omega
  rw [bits, bits, hw, Nat.add_assoc, Nat.pow_add, Nat.mod_mul_right_div_self, Nat.mod_mod_of_dvd _ (Nat.pow_dvd_pow 2 (by omega))]

theorem setFeed_self {f : Nat} (h : d.feed e g = f) : d.setFeed e g f = d := if_pos h

/-- A feed group shows the feed that it takes. -/
theorem rd_feeds_setFeed {f : Nat} (h : d.feed e g ≠ f) : (d.setFeed e g f).rd Reg.LAS_FEED_FEED =
    (d.rd Reg.LAS_FEED_FEED - d.feed e g * 2 ^ (4 * e + 2 * g) + f * 2 ^ (4 * e + 2 * g)) % 2 ^ 32 := by
  rw [setFeed, if_neg h]
  refine foldl_keeps (fun x : Dev => x.rd Reg.LAS_FEED_FEED = _) _ _ _ (rd_wr_same ..) fun x l hx => ?_
  rw [rd_lkIrq, rd_wr_ne _ _ _ _ (key_ne_of_lo (by simp [Reg.LAS_FEED_FEED, Reg.LNK_STAT_FEED])), hx]

theorem feed_setFeed (he : e < 8) (hg : g < 2) {f : Nat} (hf : f < 4) : (d.setFeed e g f).feed e g = f := by
  by_cases h : d.feed e g = f
  · rw [setFeed_self h, h]
  · rw [feed, rd_feeds_setFeed h, bits_mod_two_pow _ (by omega), feed, bits_replace _ _ hf]

theorem lkState_setFeed (e g f k : Nat) (d : Dev) : (d.setFeed e g f).lkState k = d.lkState k := by
  unfold setFeed
  split
  · rfl
  · refine foldl_keeps (fun x : Dev => x.lkState k = d.lkState k) _ _ _ ?_ fun x l hx => ?_
    · refine rd_wr_ne _ _ _ _ ?_
      simp only [Fld.key, Reg.LNK_STAT_STATE, Reg.LNK_STAT, Reg.LAS_FEED_FEED, Reg.LAS_FEED]
      omega
    · rw [lkState, rd_lkIrq, rd_wr_ne _ _ _ _ (key_ne_of_lo (by simp [Reg.LNK_STAT_STATE, Reg.LNK_STAT_FEED]))]
      exact hx

theorem feedLeave_lit {f : Nat} (h : d.feed e g = f) (hf : f ≠ 2) (ho : d.slState (feedCart e g (1 - f)) = 4) :
    d.feedLeave e g true = d.setFeed e g (1 - f) := by
  simp only [feedLeave, h]
  rw [if_neg hf, if_pos ⟨trivial, ho⟩]

theorem feedLeave_dark (h : d.feed e g = 2) (lit : Bool) : d.feedLeave e g lit = d := if_pos h

theorem feedLeave_unlit (h : d.feed e g ≠ 2) : d.feedLeave e g false = d.feedDark e g := by
  simp only [feedLeave]
  rw [if_neg h, if_neg (by simp)]

/-- A group goes dark for want of light: its two links go DOWN, and the loss is recorded (R230). -/
theorem feedDark_unhealthy (h : d.cartHealthy (feedCart e g 0) = false) : d.feedDark e g =
    (((d.setFeed e g 2).lkDown (4 * e + 2 * g)).lkDown (4 * e + 2 * g + 1)).err 18
      { cls := 0x33, unit := 2 * e + g, info := cartsInfo e g } := by
  simp only [feedDark, h, Bool.false_and, Bool.false_eq_true, if_false, feedLinks, List.foldl_cons, List.foldl_nil]

theorem feed_feedDark (he : e < 8) (hg : g < 2) (h : d.cartHealthy (feedCart e g 0) = false) : (d.feedDark e g).feed e g = 2 := by
  have down (l : Nat) (hl : l < 32) (x : Dev) : (x.lkDown l).rd Reg.LAS_FEED_FEED = x.rd Reg.LAS_FEED_FEED :=
    rd_lkDown hl (outsideBooks_feeds l) (by
      simp only [Fld.key, Reg.LNK_STAT_STATE, Reg.LNK_STAT, Reg.LAS_FEED_FEED, Reg.LAS_FEED]
      omega) x
  rw [feedDark_unhealthy h, feed, (err_books 0 (by decide) _ _).rd _ (outsideBooks_feeds 0), down _ (by omega), down _ (by omega)]
  exact feed_setFeed he hg (by decide)

theorem lkState_feedDark (he : e < 8) (hg : g < 2) (h : d.cartHealthy (feedCart e g 0) = false) {l : Nat} (hl : l ∈ feedLinks e g) :
    (d.feedDark e g).lkState l = 0 := by
  rw [feedDark_unhealthy h, (err_books 0 (by decide) _ _).lkState]
  simp only [feedLinks, List.mem_cons, List.not_mem_nil, or_false] at hl
  obtain rfl | rfl := hl
  · refine (rd_lkDown (by omega) (outsideBooks_state _ _) ?_ _).trans (lkState_lkDown ..)
    simp only [Fld.key, Reg.LNK_STAT_STATE, Reg.LNK_STAT]
    omega
  · exact lkState_lkDown ..

end Sys2Proof.Machine.Dev
end

section
/-!
The commands of flits, lanes and feeds (O34): each clause from the rule of its row.
-/
namespace Sys2Proof.Machine

theorem Completes.of_eq {i : Instr} {s : State} {d e : Dev} (h : Completes i s d) (he : d = e) : Completes i s e := he ▸ h

/-! Each row is its command's whole effect. -/

section rows

variable (s : State) (l : LinkNo) (h : FlitHdr)

theorem completes_dataFlit (seq : BitVec 12) (v : Fin 8) (bytes : List Byte) :
    Completes (.dataFlit l h seq v bytes) s (s.dev.dataFlit l h seq.toNat v bytes) := rfl
theorem completes_dataFlitTransmit (v : Fin 8) : Completes (.dataFlitTransmit l v) s (s.dev.dataTransmit l v) := rfl
theorem completes_idle : Completes (.idle l h) s (s.dev.idleFlit l h) := rfl
theorem completes_nak (e : BitVec 12) : Completes (.nak l h e) s (s.dev.nakFlit l h e.toNat) := rfl
theorem completes_nakResend : Completes (.nakResend l) s (s.dev.nakResend l) := rfl
theorem completes_credsync (counts : List (BitVec 16)) : Completes (.credsync l h counts) s (s.dev.credSync l h counts) := rfl
theorem completes_credsyncSend : Completes (.credsyncSend l) s (s.dev.credSyncSend l) := rfl
theorem completes_timeFlitSend (sub : BitVec 16) : Completes (.timeFlitSend l sub) s (s.dev.timeFlitSend l sub.toNat) := rfl
theorem completes_time (dt : Nat) (b : TimeBody) (sub : BitVec 16) :
    Completes (.time l dt h b sub) s (s.dev.timeFlit l dt h b sub.toNat) := rfl
theorem completes_laneFail (k : Fin 4) : Completes (.laneFail l k) s (s.dev.laneFail l k) := rfl
theorem completes_degrade (m : BitVec 4) : Completes (.degrade l h m) s (s.dev.degradeFlit l h m.toNat) := rfl
theorem completes_degack (m : BitVec 4) : Completes (.degack l h m) s (s.dev.degAckFlit l h m.toNat) := rfl
theorem completes_lanemark : Completes (.lanemark l h) s (s.dev.laneMark l h) := rfl
theorem completes_readmit : Completes (.readmit l) s (s.dev.readmit l) := rfl
theorem completes_autoReadmit : Completes (.autoReadmit l) s (s.dev.autoReadmit l) := rfl
theorem completes_laneReadmission (k : Fin 4) : Completes (.laneReadmission l k) s (s.dev.laneReadmission l k) := rfl
theorem completes_feedSwitch (e : Fin 8) (g : Fin 2) (lit : Bool) :
    Completes (.feedSwitch e g lit) s (s.dev.feedLeave e g lit) := rfl

end rows

open Dev in
/-- Settles O34: each clause by the rule of its row, and by what the row's flit, event and record leave (`OnlyBooks`). -/
theorem linkFlitsAndLanes : Obligations.LinkFlitsAndLanes := by
  refine ⟨fun s l h seq e v bytes counts b sub => ?_, fun s l h k m e g => ?_⟩
  · intro x gap nmax h4
    refine ⟨fun hb hg h0 => ?accepted, fun hb hn => ?corrupted, fun hb hg hd => ?duplicate, fun hb hg h0 h1 hn hm => ?gap,
      fun hm ht hc hr hn => ?sent, fun hw => ?waits, fun hb => ?idle, fun hb => ?idleCorrupted, fun d h4 hav hk => ?acknowledged,
      fun hb hav hq hdq => ⟨fun hk => ?replayed, fun hk => ?outOfWindow⟩, fun hn hm => ?nakAgain, fun hn hm => ?nakMax,
      fun hb hc hin => ?credsync, ?credsyncSend, fun ht => ?timeOff, fun ht => ?timeSent,
      fun t1 t4 hb hv hdep harr hs ho hd => ?exchange⟩
    case accepted =>
      obtain ⟨w, hx⟩ := link_accept l v bytes (s.dev.takeHdr l h)
      obtain ⟨o, r, w', hx'⟩ := link_takeHdr l h s.dev
      refine ⟨_, (completes_dataFlit s l h seq v bytes).of_eq (dataFlit_expected h4 hb hg h0 v bytes), ?_, ?_, ?_, ?_⟩
      · rw [hx, hx']
      · rw [hx]
      · rw [hx]
      · rw [rd_rxBody_accept, rd_takeHdr (outsideBooks_rxBody l)]
    case corrupted => exact (completes_dataFlit ..).of_eq (dataFlit_bad h4 hb hn _ _ _)
    case duplicate => exact (completes_dataFlit ..).of_eq (dataFlit_duplicate h4 hb hg hd _ _)
    case gap =>
      obtain ⟨o, r, w, hx⟩ := link_takeHdr l h s.dev
      obtain ⟨w', hx'⟩ := link_nakSent l (s.dev.takeHdr l h)
      obtain ⟨q, av, a, c, n, hout⟩ := out_nakSent l (s.dev.takeHdr l h)
      refine ⟨_, q, av, a, c, n, (completes_dataFlit s l h seq v bytes).of_eq
        ((dataFlit_gap h4 hb hg h0 h1 v bytes).trans (nakOnce_takeHdr hn hm)), ?_, ?_, ?_⟩
      · rw [hx', hx]
      · rw [hx']
      · rw [hout, hx]
    case sent =>
      obtain ⟨q, av, a, c, n, hx⟩ := dataTransmit_effect hm ht hc hr hn
      exact ⟨_, q, av, a, c, n, completes_dataFlitTransmit s l v, hx⟩
    case waits => exact (completes_dataFlitTransmit ..).of_eq (dataTransmit_waits hw)
    case idle => exact (completes_idle ..).of_eq (ctrlFlit_good h4 hb _)
    case idleCorrupted => exact (completes_idle ..).of_eq (ctrlFlit_bad h4 hb _)
    case acknowledged =>
      rw [link_takeHdr_new h4 hav hk]
      exact ⟨rfl, rfl, congrArg LinkVc.credits (Link.vc_setVc_same (d.link l) h.crvc _)⟩
    case replayed =>
      refine ⟨_, (completes_nak s l h e).of_eq (nakFlit_inWindow h4 hb hav hq hdq hk), ?_, ?_, ?_⟩
      · rw [(resend_books ..).link, link_incSat, link_updVc_same]
        rfl
      · rw [length_out_resend, link_incSat, link_updVc_same]
        rfl
      · exact ((resend_books ..).lkState l).trans (((wr_books _ l (by simp) _).lkState l).trans h4)
    case outOfWindow =>
      refine ⟨_, (completes_nak s l h e).of_eq (nakFlit_outOfWindow h4 hb hav hq hk), lkState_lkRetrain .., ?_⟩
      rw [link_lkRetrain, link_updVc_same]
      rfl
    case nakAgain =>
      obtain ⟨w, hx⟩ := link_nakSent l s.dev
      obtain ⟨q, av, a, c, n, hout⟩ := out_nakSent l s.dev
      exact ⟨_, q, av, a, c, n, (completes_nakResend s l).of_eq ((nakResend_outstanding h4 hn).trans (sendNak_below hm)),
        congrArg Link.naks hx, hout⟩
    case nakMax =>
      exact ⟨_, (completes_nakResend s l).of_eq ((nakResend_outstanding h4 hn).trans (sendNak_limit hm)), lkState_lkRetrain ..⟩
    case credsync =>
      refine ⟨_, completes_credsync s l h counts, fun u hu => ?_⟩
      rw [vc_credSync h4 hb hc counts hu (hin u hu)]
      exact ⟨rfl, rfl⟩
    case credsyncSend =>
      obtain ⟨q, av, a, c, n, hout⟩ := sendFlit_out s.dev l 2 0
        (ctrlBody 5 ((List.range 8).flatMap fun u => leBytes 2 ((s.dev.link l).vc u).creditOut))
      exact ⟨_, q, av, a, c, n, (completes_credsyncSend s l).of_eq (if_neg (not_not.mpr h4)), congrArg List.head? hout⟩
    case timeOff => exact (completes_timeFlitSend ..).of_eq (timeFlitSend_off ht _)
    case timeSent =>
      obtain ⟨w, hx⟩ := link_sendTime l sub.toNat s.dev
      exact ⟨_, (completes_timeFlitSend s l sub).of_eq (timeFlitSend_on h4 ht _), congrArg Link.tnum hx, congrArg Link.departs hx⟩
    case exchange =>
      exact ⟨_, (completes_time s l h 0 b sub).of_eq (timeFlit_completes h4 hb hv hdep harr ho hd hs _), rd_offset_exchanged ..,
        rd_delay_exchanged ..⟩
  · intro x rxm trial
    have drops (h4 : s.dev.lkState l = 4) (hk : bit rxm k = true) := (completes_laneFail s l k).of_eq (laneFail_active h4 hk)
    refine ⟨fun h4 hk hm => ?dropped, fun h4 hk hm => ?lastDropped, fun h4 hb hm ht => ?restriped, fun h4 hb => ?noMask,
      fun h4 hb => ?acknowledged, fun h4 hb hg => ?marked, fun h4 => ⟨?readmit, fun ha => ?auto, fun ha => ?autoOff⟩,
      fun h4 ht ho => ?readmitted, fun hf ho => ?switched, fun hf lit => ?dark, fun hf hc => ?goesDark⟩
    case dropped =>
      obtain ⟨w, hx⟩ := link_askMask l (setBit rxm k false) (s.dev.laneDropped l k)
      refine ⟨_, (drops h4 hk).of_eq (if_neg hm), ?_, ?_, ?_, congrArg Link.degrade hx⟩
      · exact (rd_askMask (outsideBooks_state l l) _ _).trans ((lkState_laneDropped ..).trans h4)
      · exact (rd_askMask (outsideBooks_rxLanes l) _ _).trans (rd_rxLanes_setRxLanes ..)
      · rw [flag, rd_askMask (outsideBooks_failed l k.isLt), ← flag]
        exact flag_failed_laneDropped ..
    case lastDropped => exact ⟨_, (drops h4 hk).of_eq (if_pos hm), lkState_lkDown ..⟩
    case restriped =>
      have hm' : m.toNat ≠ 0 := fun h0 => hm (BitVec.eq_of_toNat_eq h0)
      refine ⟨_, (completes_degrade s l h m).of_eq (degradeFlit_new h4 hb hm' ht), ?_, ?_⟩
      · rw [rd_txLanes_restriped, Nat.mod_eq_of_lt m.isLt]
      · rw [lkState_restriped, lkState_takeHdr, h4]
    case noMask => exact ⟨_, (completes_degrade s l h 0).of_eq (degradeFlit_none h4 hb), lkState_lkDown ..⟩
    case acknowledged => exact (completes_degack ..).of_eq (ctrlFlit_good h4 hb _)
    case marked =>
      refine ⟨_, (completes_lanemark s l h).of_eq (laneMark_asked h4 hb hg), ?_, ?_⟩
      · rw [degrade_sendNak, degrade_relocked]
      · rw [rd_rxLanes_sendNak, rd_rxLanes_relocked, Nat.mod_eq_of_lt m.isLt]
    case readmit => exact (completes_readmit ..).of_eq (readmit_active h4)
    case auto => exact (completes_autoReadmit ..).of_eq ((if_pos ha).trans (readmit_active h4))
    case autoOff => exact (completes_autoReadmit ..).of_eq (if_neg (by simp [ha]))
    case readmitted =>
      obtain ⟨w, hx⟩ := link_askMask l (setBit rxm k true) s.dev
      exact ⟨_, (completes_laneReadmission s l k).of_eq (laneReadmission_tried h4 ht ho), congrArg Link.degrade hx,
        (rd_askMask (outsideBooks_state l l) _ _).trans h4⟩
    case switched =>
      exact ⟨_, (completes_feedSwitch s e g true).of_eq (feedLeave_lit hf (by decide) ho), feed_setFeed e.isLt g.isLt (by decide),
        fun j => lkState_setFeed ..⟩
    case dark => exact (completes_feedSwitch ..).of_eq (feedLeave_dark hf lit)
    case goesDark =>
      exact ⟨_, (completes_feedSwitch s e g false).of_eq (feedLeave_unlit hf.ne), feed_feedDark e.isLt g.isLt hc,
        fun j hj => lkState_feedDark e.isLt g.isLt hc hj⟩

end Sys2Proof.Machine
end

section
/-!
The router's packets (R242 to R245): how PACKET_FORWARD takes a packet, delivers it, queues it on a minimal output or discards it, and
how a queued packet is discarded at its DEADLINE.
-/
namespace Sys2Proof.Machine.Dev

variable {d e : Dev} {p : Pkt} {i n : Nat} {l : LinkNo} {v : Fin 8} {r : List (Pkt × Nat)} {fwd : FwdFrom}
  {fl : Option (Nat × Nat × Nat)} {outs : List RtOut}

/-! The packet taken. -/

theorem takeFwd_own_none (h : d.inject[i]? = none) : d.takeFwd (.own i) = none := by simp only [takeFwd, h]

theorem takeFwd_own (h : d.inject[i]? = some p) (ht : d.taken p = true) :
    d.takeFwd (.own i) = some (p, none, { d with inject := d.inject.eraseIdx i }) := by
  simp only [takeFwd, h, ht, if_true]

theorem takeFwd_port (h : ((d.link l).vc v).rxq = (p, n) :: r) (hq : d.devQuiet = false) :
    d.takeFwd (.port l v) = some (p, some (l.val, v.val, n), d.updVc l v fun y => { y with rxq := r }) := by
  simp only [takeFwd, h, hq, Bool.false_eq_true, false_and, if_false]

/-! Where it goes. -/

theorem packetForward_none (h : d.takeFwd fwd = none) : d.packetForward fwd = d := by simp only [packetForward, h]

theorem packetForward_here (h : d.takeFwd fwd = some (p, fl, e)) (hd : p.ddev = e.myDev) :
    d.packetForward fwd = (({ e with arrived := e.arrived ++ [p] }).freeFrom fl).emit (.deliver p) := by
  simp only [packetForward, h, hd, if_true]

/-- Without adaptive routing a packet of PATH 0 takes the first usable minimal output (R242, R245). -/
theorem route_minimal (hn : p.nm = false) (hp : p.path = 0) (ha : d.flag Reg.RTE_CTL_ADAPT = false) (src : Bool) :
    d.route src p = ((d.pathOutputs 0 (d.candidates (idPod p.ddev) (idGrp p.ddev) (idL p.ddev))).head?.map fun o => (o, p), d) := by
  simp [route, hn, hp, ha]

/-- A packet that leaves this device's own queue finds the outputs that it would have found there. -/
theorem route_own (hn : p.nm = false) (hp : p.path = 0) (ha : d.flag Reg.RTE_CTL_ADAPT = false)
    (ho : d.pathOutputs 0 (d.candidates (idPod p.ddev) (idGrp p.ddev) (idL p.ddev)) = outs) (i : Nat) :
    ({ d with inject := d.inject.eraseIdx i } : Dev).route true p =
      (outs.head?.map fun o => (o, p), { d with inject := d.inject.eraseIdx i }) := by
  rw [← ho]
  exact route_minimal (d := { d with inject := d.inject.eraseIdx i }) hn hp ha true

section minimal

variable (hi : d.inject[i]? = some p) (ht : d.taken p = true) (hf : p.ddev ≠ d.myDev) (hn : p.nm = false) (hp : p.path = 0)
  (ha : d.flag Reg.RTE_CTL_ADAPT = false)
  (ho : d.pathOutputs 0 (d.candidates (idPod p.ddev) (idGrp p.ddev) (idL p.ddev)) = outs)
include hi ht hf hn hp ha ho

theorem packetForward_noRoute (h : outs = []) :
    d.packetForward (.own i) = ({ d with inject := d.inject.eraseIdx i } : Dev).incSat Reg.RTE_DROPCNT_NOROUTE 1 := by
  have hf' : p.ddev ≠ ({ d with inject := d.inject.eraseIdx i } : Dev).myDev := hf
  simp only [packetForward, takeFwd_own hi ht, if_neg hf', route_own hn hp ha ho, h]
  rfl

theorem packetForward_queued {o : RtOut} {t : List RtOut} (h : outs = o :: t) (hk : o.link < 21 ∨ o.inc = false) :
    d.packetForward (.own i) = (((({ d with inject := d.inject.eraseIdx i } : Dev).updVc o.link (2 * p.phase + p.cls) fun y =>
      { y with txq := y.txq ++ [⟨p, p.bytes, none⟩] }).updLink o.link fun x => { x with nmSent := x.nmSent + 0 }).emit
        (.forward o.link (2 * p.phase + p.cls) p)) := by
  have hf' : p.ddev ≠ ({ d with inject := d.inject.eraseIdx i } : Dev).myDev := hf
  have hphase : ¬ (21 ≤ o.link ∧ o.inc = true) := by
    rintro ⟨hl, hinc⟩
    rcases hk with hk | hk
    · omega
    · simp [hk] at hinc
  simp only [packetForward, takeFwd_own hi ht, if_neg hf', route_own hn hp ha ho, h, List.head?_cons, Option.map_some,
    if_neg hphase, hn]
  rfl

end minimal

/-! A DEADLINE passes (R244). -/

theorem packetDeadline_empty {l v : Nat} (h : ((d.link l).vc v).txq = []) : d.packetDeadline l v = d := by
  simp only [packetDeadline, h]

theorem packetDeadline_whole {l v : Nat} {t : TxPkt} {u : List TxPkt} (h : ((d.link l).vc v).txq = t :: u)
    (hw : t.left.length = t.p.bytes.length) (hn : t.from_ = none) :
    d.packetDeadline l v = ((d.advanceTo (d.pastAt t.p.deadline)).updVc l v fun y => { y with txq := u }).incSat
      Reg.RTE_DROPCNT_LATE 1 := by
  simp only [packetDeadline, h, hw, if_true, hn, freeFrom]

end Sys2Proof.Machine.Dev
end

section
/-!
Reshaping (R252, R304): what arming stores, when a swap falls due, and what it leaves of the router's registers and of the links.
-/
namespace Sys2Proof.Machine

/-- What one element of a list brings about, and the others keep, holds after the whole list. -/
theorem foldl_reaches {α β : Type} {before after : β → Prop} {f : β → α → β} {l : List α} {a : α} (ha : a ∈ l) {b : β}
    (hb : before b) (wait : ∀ b, before b → ∀ x ∈ l, before (f b x)) (hit : ∀ b, before b → after (f b a))
    (keep : ∀ b, after b → ∀ x ∈ l, after (f b x)) : after (l.foldl f b) := by
  obtain ⟨l₁, l₂, rfl⟩ := List.append_of_mem ha
  rw [List.foldl_append, List.foldl_cons]
  refine List.foldlRecOn l₂ f (hit _ ?_) fun b hb x hx => keep b hb x (by simp [hx])
  exact List.foldlRecOn l₁ f hb fun b hb x hx => wait b hb x (by simp [hx])

namespace Dev

variable {d : Dev} {f : Fld} {k l : Nat}

/-! The parts of a swap (Table RT-6). -/

/-- The other bank is active and SHAPE stands; the LINKS have still to retrain. -/
def swapped (d : Dev) : Dev :=
  let e := (d.clrF Reg.RTE_RESHAPE_ARMED).wr Reg.RTE_CTL_BANK (1 - d.rd Reg.RTE_CTL_BANK)
  { e with shape := e.flag Reg.RTE_CTL_SHAPE, draining := 0, reshaped := true }

/-- One link of a swap: it retrains when LINKS names it and it is up. -/
def retrainListed (d : Dev) (l : Nat) : Dev :=
  if bit (d.rd Reg.RTE_RESHAPE_LINKS) l ∧ (d.lkState l = lkACTIVE ∨ d.lkState l = lkPAUSE) then d.lkRetrain l else d

theorem doSwap_eq (d : Dev) : d.doSwap = ((List.range 32).foldl retrainListed d.swapped).reshapeCheck := rfl

/-- What no link's state takes part in: the time, the shape and the links that leave. -/
def reshapeView (d : Dev) : Nat × Bool × Nat := (d.now, d.shape, d.draining)

theorem reshapeView_reshapeCheck (d : Dev) : d.reshapeCheck.reshapeView = d.reshapeView := by
  unfold reshapeCheck
  split <;> rfl

theorem reshapeView_lkRetrain (l : Nat) (d : Dev) : (d.lkRetrain l).reshapeView = d.reshapeView := by
  unfold lkRetrain lkGo
  split
  · rfl
  · rw [reshapeView_reshapeCheck, lkIrq, irqEvent_sources]
    rfl

theorem reshapeView_doSwap (d : Dev) : d.doSwap.reshapeView = (d.now, d.flag Reg.RTE_CTL_SHAPE, 0) := by
  rw [doSwap_eq, reshapeView_reshapeCheck]
  refine foldl_keeps (fun e : Dev => e.reshapeView = _) _ _ _ ?_ fun e l he => ?_
  · have hs : d.swapped.flag Reg.RTE_CTL_SHAPE = d.flag Reg.RTE_CTL_SHAPE := by
      change decide (((d.clrF Reg.RTE_RESHAPE_ARMED).wr Reg.RTE_CTL_BANK _).rd Reg.RTE_CTL_SHAPE = 1) = _
      rw [rd_wr_ne _ _ _ _ (by decide), rd_clrF_ne (by decide), flag]
    exact congrArg (fun b => (d.now, b, 0)) hs
  · unfold retrainListed
    split
    · exact (reshapeView_lkRetrain l e).trans he
    · exact he

/-! The router's registers lie above the links'. -/

theorem key_ne_state_of_router (hf : 0x700000 ≤ f.addr) (hl : l < 32) : f.key ≠ (Reg.LNK_STAT_STATE l).key := by
  simp only [Fld.key, Reg.LNK_STAT_STATE, Reg.LNK_STAT]
  omega

theorem rd_retrainListed (hf : OutsideBooks l f) (hs : f.key ≠ (Reg.LNK_STAT_STATE l).key) (d : Dev) :
    (d.retrainListed l).rd f = d.rd f := by
  unfold retrainListed
  split
  · exact rd_lkRetrain hf hs d
  · rfl

theorem rd_retrainListed_router (hf : 0x700000 ≤ f.addr) (hp : f.place ∉ bookPlaces) (hl : l < 32) (d : Dev) :
    (d.retrainListed l).rd f = d.rd f :=
  rd_retrainListed (outsideBooks_of_place l (hf.trans' (by decide)) hp) (key_ne_state_of_router hf hl) d

theorem rd_doSwap (hf : 0x700000 ≤ f.addr) (hp : f.place ∉ bookPlaces) (d : Dev) : d.doSwap.rd f = d.swapped.rd f := by
  rw [doSwap_eq, (reshapeCheck_books _ 0).rd f (outsideBooks_of_place 0 (hf.trans' (by decide)) hp)]
  exact List.foldlRecOn (motive := fun e : Dev => e.rd f = d.swapped.rd f) _ _ rfl fun e he l hl =>
    (rd_retrainListed_router hf hp (List.mem_range.mp hl) e).trans he

theorem rd_bank_doSwap (d : Dev) : d.doSwap.rd Reg.RTE_CTL_BANK = 1 - d.rd Reg.RTE_CTL_BANK := by
  have hb : d.swapped.rd Reg.RTE_CTL_BANK = (1 - d.rd Reg.RTE_CTL_BANK) % 2 ^ 1 := rd_wr_same ..
  rw [rd_doSwap (by decide) (by decide), hb]
  omega

theorem flag_armed_doSwap (d : Dev) : d.doSwap.flag Reg.RTE_RESHAPE_ARMED = false := by
  have ha : d.swapped.rd Reg.RTE_RESHAPE_ARMED = 0 :=
    (rd_wr_ne _ Reg.RTE_CTL_BANK Reg.RTE_RESHAPE_ARMED _ (by decide)).trans (rd_clrF_same _)
  rw [flag, rd_doSwap (by decide) (by decide), ha]
  rfl

/-! The links of a swap. -/

theorem lkState_swapped (hk : k < 32) (d : Dev) : d.swapped.lkState k = d.lkState k := by
  have ne (g : Fld) (hg : 0x700000 ≤ g.addr) := (key_ne_state_of_router hg hk).symm
  exact (rd_wr_ne _ Reg.RTE_CTL_BANK _ _ (ne _ (by decide))).trans (rd_clrF_ne (ne _ (by decide)))

theorem links_swapped (d : Dev) : d.swapped.rd Reg.RTE_RESHAPE_LINKS = d.rd Reg.RTE_RESHAPE_LINKS :=
  (rd_wr_ne _ Reg.RTE_CTL_BANK _ _ (by decide)).trans (rd_clrF_ne (by decide))

theorem lkState_retrainListed_ne (h : k ≠ l) (d : Dev) : (d.retrainListed l).lkState k = d.lkState k :=
  rd_retrainListed (outsideBooks_state l k) (by simp only [Fld.key, Reg.LNK_STAT_STATE, Reg.LNK_STAT]; omega) d

theorem lkState_retrainListed_unlisted (h : bit (d.rd Reg.RTE_RESHAPE_LINKS) k = false) (l : Nat) :
    (d.retrainListed l).lkState k = d.lkState k := by
  by_cases hkl : k = l
  · rw [retrainListed, if_neg (by simp [← hkl, h])]
  · exact lkState_retrainListed_ne hkl d

/-- A link that is named goes from ACTIVE to RETRAIN, and stays there. -/
theorem lkState_retrainListed_listed (hb : bit (d.rd Reg.RTE_RESHAPE_LINKS) k = true) (h : d.lkState k = 4 ∨ d.lkState k = 6) :
    (d.retrainListed k).lkState k = 6 := by
  unfold retrainListed
  split
  case isTrue => exact lkState_lkRetrain k d
  case isFalse hc => exact h.resolve_left fun h4 => hc ⟨hb, .inl h4⟩

theorem links_retrainListed (hl : l < 32) (d : Dev) : (d.retrainListed l).rd Reg.RTE_RESHAPE_LINKS = d.rd Reg.RTE_RESHAPE_LINKS :=
  rd_retrainListed_router (by decide) (by decide) hl d

theorem lkState_doSwap_unlisted (hk : k < 32) (h : bit (d.rd Reg.RTE_RESHAPE_LINKS) k = false) : d.doSwap.lkState k = d.lkState k := by
  rw [doSwap_eq, (reshapeCheck_books _ 0).lkState]
  refine (List.foldlRecOn
    (motive := fun e : Dev => e.rd Reg.RTE_RESHAPE_LINKS = d.rd Reg.RTE_RESHAPE_LINKS ∧ e.lkState k = d.lkState k) _ _
    ⟨links_swapped d, lkState_swapped hk d⟩ fun e ⟨hm, hs⟩ l hl => ?_).2
  exact ⟨(links_retrainListed (List.mem_range.mp hl) e).trans hm, (lkState_retrainListed_unlisted (hm ▸ h) l).trans hs⟩

theorem lkState_doSwap_listed (hk : k < 32) (h : bit (d.rd Reg.RTE_RESHAPE_LINKS) k = true) (h4 : d.lkState k = 4) :
    d.doSwap.lkState k = 6 := by
  rw [doSwap_eq, (reshapeCheck_books _ 0).lkState]
  refine foldl_reaches (after := fun e : Dev => e.lkState k = 6)
    (before := fun e : Dev => e.rd Reg.RTE_RESHAPE_LINKS = d.rd Reg.RTE_RESHAPE_LINKS ∧ (e.lkState k = 4 ∨ e.lkState k = 6))
    (List.mem_range.mpr hk) ⟨links_swapped d, .inl ((lkState_swapped hk d).trans h4)⟩ (fun e ⟨hm, hs⟩ l hl => ?_)
    (fun e ⟨hm, hs⟩ => ?_) fun e h6 l _ => ?_
  · refine ⟨(links_retrainListed (List.mem_range.mp hl) e).trans hm, ?_⟩
    by_cases hkl : k = l
    · exact .inr (hkl ▸ lkState_retrainListed_listed (hm ▸ h) hs)
    · rwa [lkState_retrainListed_ne hkl]
  · exact lkState_retrainListed_listed (hm ▸ h) hs
  · by_cases hkl : k = l
    · rw [retrainListed, if_neg (by simp [← hkl, h6, lkACTIVE, lkPAUSE]), h6]
    · rwa [lkState_retrainListed_ne hkl]

/-! A swap that falls due (R304). -/

theorem swapDue_runs (h0 : d.blState ≠ 0) (h4 : d.blState ≠ 4) (hq : d.devQuiet = false) : d.swapDue = d.doSwap := by
  rw [blState] at h0 h4
  exact if_neg (by simp [h0, h4, hq])

theorem swapDue_fenced (h : ¬ (d.blState ≠ 0 ∧ d.blState ≠ 4 ∧ d.devQuiet = false)) :
    d.swapDue = ({ d with draining := 0 }.clrF Reg.RTE_RESHAPE_ARMED).err 13 { cls := 0x35, extra := d.rd Reg.RTE_SWAPAT_T } := by
  rw [blState] at h
  exact if_pos (by simpa only [ne_eq, not_and_or, not_not, Bool.not_eq_false] using h)

theorem rd_swapDue_fenced (h : ¬ (d.blState ≠ 0 ∧ d.blState ≠ 4 ∧ d.devQuiet = false)) (hf : 0x700000 ≤ f.addr) :
    d.swapDue.rd f = (d.clrF Reg.RTE_RESHAPE_ARMED).rd f := by
  rw [swapDue_fenced h]
  exact rd_err_outside (hf.trans' (by decide)) (by decide) _ _

theorem draining_swapDue_fenced (h : ¬ (d.blState ≠ 0 ∧ d.blState ≠ 4 ∧ d.devQuiet = false)) : d.swapDue.draining = 0 := by
  rw [swapDue_fenced h, (err_records _ (by decide) _).rest]
  rfl

/-! The commands. -/

theorem bankSwap_armed (h : d.flag Reg.RTE_RESHAPE_ARMED = true) : d.bankSwap = (d.advanceTo (d.rd Reg.RTE_SWAPAT_T)).swapDue := if_pos h
theorem bankSwap_unarmed (h : d.flag Reg.RTE_RESHAPE_ARMED = false) : d.bankSwap = d := if_neg (by simp [h])

/-- What ARM stores before its T is looked at. -/
def armed (d : Dev) (links drain : Nat) : Dev :=
  ((d.wr Reg.RTE_RESHAPE_LINKS links).wr Reg.RTE_RESHAPE_DRAIN drain).setF Reg.RTE_RESHAPE_ARMED

theorem rd_armed (links drain : Nat) (hf : f.addr ≠ Reg.RTE_RESHAPE) (hl : f.lo < 64) : (d.armed links drain).rd f = d.rd f := by
  have ne (g : Fld) (ha : g.addr = Reg.RTE_RESHAPE) (hg : g.lo < 64) : f.key ≠ g.key := by
    simp only [Fld.key]
    omega
  rw [armed, rd_setF_ne (ne _ rfl (by decide)), rd_wr_ne _ _ _ _ (ne _ rfl (by decide)), rd_wr_ne _ _ _ _ (ne _ rfl (by decide))]

theorem flag_armed (links drain : Nat) : (d.armed links drain).flag Reg.RTE_RESHAPE_ARMED = true :=
  decide_eq_true (rd_setF_same rfl)

theorem arm_waits (h : d.now < d.rd Reg.RTE_SWAPAT_T) (links drain : Nat) : d.arm links drain = d.armed links drain := by
  refine if_neg fun ⟨_, hle⟩ => ?_
  exact absurd ((rd_armed links drain (by decide) (by decide)).symm.le.trans hle) (Nat.not_le.mpr h)

theorem arm_due (h : d.rd Reg.RTE_SWAPAT_T ≤ d.now) (links drain : Nat) : d.arm links drain = (d.armed links drain).swapDue :=
  if_pos ⟨flag_armed links drain, (rd_armed links drain (by decide) (by decide)).le.trans h⟩

theorem reshapeDrain_unarmed (h : d.flag Reg.RTE_RESHAPE_ARMED = false) : d.reshapeDrain = d := by
  simp [reshapeDrain, drainLinks, h]

theorem reshapeDrain_armed (h : d.flag Reg.RTE_RESHAPE_ARMED = true) (hb : d.blState ≠ 2) : d.reshapeDrain =
    { d with now := max d.now (d.rd Reg.RTE_SWAPAT_T - 1024 * d.rd Reg.RTE_RESHAPE_DRAIN), draining := d.rd Reg.RTE_RESHAPE_LINKS } := by
  have hd : d.drainLinks = { d with
      now := max d.now (d.rd Reg.RTE_SWAPAT_T - 1024 * d.rd Reg.RTE_RESHAPE_DRAIN), draining := d.rd Reg.RTE_RESHAPE_LINKS } := if_pos h
  simp only [reshapeDrain, hd]
  exact if_neg fun ⟨_, hs, _⟩ => hb hs

end Dev
end Sys2Proof.Machine
end

section
/-!
Telemetry (R250): the end of an interval writes one record for each port, or drops it, and starts the port's counts anew.
-/
namespace Sys2Proof.Machine.Dev

variable {d : Dev} {k l : Nat}

/-- A port's counts start anew (R250). -/
def countsAnew (x : Link) : Link :=
  { x with sent := 0, nmSent := 0, vcs := x.vcs.map fun e => (e.1, { e.2 with maxOcc := e.2.occ }) }

/-- The ring for telemetry records has room for none (R250). -/
def telFull (d : Dev) : Prop :=
  (d.rd Reg.RTE_TELPTR_TAIL + 1) % 2 ^ d.rd Reg.RTE_TELCFG_RINGLOG = d.rd Reg.RTE_TELPTR_HEAD % 2 ^ d.rd Reg.RTE_TELCFG_RINGLOG

/-- A record goes to the ring, or is counted as dropped. -/
def telStore (l : Nat) (d : Dev) : Dev :=
  let r := d.telRecord l
  let e := r.2
  let size := 2 ^ e.rd Reg.RTE_TELCFG_RINGLOG
  let tail := e.rd Reg.RTE_TELPTR_TAIL
  if (tail + 1) % size = e.rd Reg.RTE_TELPTR_HEAD % size then e.incSat Reg.RTE_TELCFG_TELDROP 1
  else (e.hostWrite (e.rd Reg.RTE_TELBASE_BASE * 4096 + 64 * (tail % size)) r.1).wr Reg.RTE_TELPTR_TAIL ((tail + 1) % size)

/-- One port of an interval's end. -/
def telPort (d : Dev) (l : Nat) : Dev := (d.telStore l).updLink l countsAnew

theorem telemetryRecord_off (h : d.flag Reg.RTE_TELCFG_EN = false) : d.telemetryRecord = d := if_pos (by simp [h])

theorem telemetryRecord_on (h : d.flag Reg.RTE_TELCFG_EN = true) : d.telemetryRecord = (List.range 32).foldl telPort d :=
  if_neg (by simp [h])

theorem link_telStore (l k : Nat) (d : Dev) : (d.telStore l).link k = d.link k := by
  simp only [telStore]
  split <;> rfl

theorem link_telPort_same (l : Nat) (d : Dev) : (d.telPort l).link l = countsAnew (d.link l) := by
  rw [telPort, link_updLink_same, link_telStore]

theorem link_telPort_ne (h : k ≠ l) (d : Dev) : (d.telPort l).link k = d.link k := by
  rw [telPort, link_updLink_ne _ h, link_telStore]

/-- After an interval's end every port's counts are zero, and no sequence number has moved. -/
theorem link_telPorts {ls : List Nat} (hk : k ∈ ls) (d : Dev) :
    ((ls.foldl telPort d).link k).sent = 0 ∧ ((ls.foldl telPort d).link k).nmSent = 0 ∧
      ((ls.foldl telPort d).link k).n = (d.link k).n := by
  refine foldl_reaches (before := fun e : Dev => (e.link k).n = (d.link k).n)
    (after := fun e : Dev => (e.link k).sent = 0 ∧ (e.link k).nmSent = 0 ∧ (e.link k).n = (d.link k).n) hk rfl
    (fun e he l _ => ?_) (fun e he => ?_) fun e ⟨hs, hm, hn⟩ l _ => ?_
  · by_cases hkl : k = l
    · rw [hkl, link_telPort_same, ← hkl]
      exact he
    · rw [link_telPort_ne hkl, he]
  · rw [link_telPort_same]
    exact ⟨rfl, rfl, he⟩
  · by_cases hkl : k = l
    · subst hkl
      rw [link_telPort_same]
      exact ⟨rfl, rfl, hn⟩
    · rw [link_telPort_ne hkl]
      exact ⟨hs, hm, hn⟩

/-- A full ring drops the record of a port and stays full (R250). -/
theorem telStore_full (h : d.telFull) (l : Nat) : d.telStore l = (d.telRecord l).2.incSat Reg.RTE_TELCFG_TELDROP 1 := if_pos h

theorem rd_telPort_full (h : d.telFull) {f : Fld} (hf : f.key ≠ Reg.RTE_TELCFG_TELDROP.key) (l : Nat) :
    (d.telPort l).rd f = d.rd f := by
  rw [telPort, rd_updLink, telStore_full h]
  exact rd_wr_ne _ _ _ _ hf

theorem host_telPort_full (h : d.telFull) (l : Nat) : (d.telPort l).host = d.host := by
  rw [telPort, telStore_full h]
  rfl

theorem telFull_telPort (h : d.telFull) (l : Nat) : (d.telPort l).telFull := by
  unfold telFull
  rwa [rd_telPort_full h (by decide), rd_telPort_full h (by decide), rd_telPort_full h (by decide)]

/-- Through a whole interval's end a full ring takes no record. -/
theorem telPorts_full (h : d.telFull) (ls : List Nat) :
    (ls.foldl telPort d).rd Reg.RTE_TELPTR_TAIL = d.rd Reg.RTE_TELPTR_TAIL ∧ (ls.foldl telPort d).host = d.host := by
  induction ls generalizing d with
  | nil => exact ⟨rfl, rfl⟩
  | cons l ls ih =>
    obtain ⟨htail, hhost⟩ := ih (telFull_telPort h l)
    exact ⟨htail.trans (rd_telPort_full h (by decide) l), hhost.trans (host_telPort_full h l)⟩

end Sys2Proof.Machine.Dev
end

section
/-!
The commands of the router, of reshaping and of telemetry (O35): each clause from the rule of its row.
-/
namespace Sys2Proof.Machine

section rows

variable (s : State)

theorem completes_packetForward (f : FwdFrom) : Completes (.packetForward f) s (s.dev.packetForward f) := rfl
theorem completes_packetDeadline (l : LinkNo) (v : Fin 8) : Completes (.packetDeadline l v) s (s.dev.packetDeadline l v) := rfl
theorem completes_arm (links : BitVec 32) (drain : BitVec 16) :
    Completes (.arm links drain) s (s.dev.arm links.toNat drain.toNat) := rfl
theorem completes_cancel (links : BitVec 32) (drain : BitVec 16) :
    Completes (.cancel links drain) s (s.dev.cancel links.toNat drain.toNat) := rfl
theorem completes_reshapeDrain : Completes .reshapeDrain s s.dev.reshapeDrain := rfl
theorem completes_bankSwap : Completes .bankSwap s s.dev.bankSwap := rfl
theorem completes_telemetryRecord : Completes .telemetryRecord s s.dev.telemetryRecord := rfl

end rows

open Dev in
/-- Settles O35: the packet's clauses from where it is taken and what `route` finds; the reshape's from what a swap leaves of the
router's registers and of each link; telemetry's by the ports in order. -/
theorem packetsAndReshapes : Obligations.PacketsAndReshapes := by
  refine ⟨fun s i p l v n r => ?_, fun s links drain => ?_⟩
  · intro rest mine front without outs minimal
    refine ⟨fun hi => ?absent, fun ⟨hi, ht⟩ hd => ?delivered, fun ⟨hr, hq⟩ hd => ?deliveredFromPort,
      fun ⟨hi, ht⟩ ⟨hf, hn, hp, ha⟩ o t ho hk => ?queued, fun ⟨hi, ht⟩ ⟨hf, hn, hp, ha⟩ ho => ?noRoute, fun h => ?noneQueued,
      fun t u h hw hn => ?late⟩
    case absent => exact (completes_packetForward ..).of_eq (packetForward_none (takeFwd_own_none hi))
    case delivered => exact (completes_packetForward ..).of_eq (packetForward_here (takeFwd_own hi ht) hd)
    case deliveredFromPort => exact (completes_packetForward ..).of_eq (packetForward_here (takeFwd_port hr hq) hd)
    case queued => exact (completes_packetForward ..).of_eq (packetForward_queued hi ht hf hn hp ha rfl ho hk)
    case noRoute => exact (completes_packetForward ..).of_eq (packetForward_noRoute hi ht hf hn hp ha rfl ho)
    case noneQueued => exact (completes_packetDeadline ..).of_eq (packetDeadline_empty h)
    case late => exact (completes_packetDeadline ..).of_eq (packetDeadline_whole h hw hn)
  · intro stored t armed bank runs
    refine ⟨fun ht => ?armWaits, fun ht ⟨h0, h4, hq⟩ _ => ?armSwaps, completes_cancel s links drain, fun ha hb => ?drains,
      fun ha => ⟨?noSwap, ?noDrain⟩, fun ha ⟨h0, h4, hq⟩ _ => ?swaps, fun ha hr => ?cancelled, fun he => ?telemetryOff,
      fun he => ?telemetry⟩
    case armWaits => exact (completes_arm ..).of_eq (arm_waits ht _ _)
    case armSwaps =>
      have rd (f : Fld) (hf : f.addr ≠ Reg.RTE_RESHAPE) (hl : f.lo < 64) := rd_armed (d := s.dev) links.toNat drain.toNat hf hl
      have hst : (s.dev.armed links.toNat drain.toNat).blState = s.dev.blState := rd _ (by decide) (by decide)
      refine ⟨_, (completes_arm s links drain).of_eq ((arm_due ht _ _).trans (swapDue_runs (hst ▸ h0) (hst ▸ h4) hq)), ?_,
        flag_armed_doSwap _, ?_⟩
      · rw [rd_bank_doSwap, rd _ (by decide) (by decide)]
      · rw [flag, ← rd Reg.RTE_CTL_SHAPE (by decide) (by decide)]
        exact congrArg (fun x => x.2.1) (reshapeView_doSwap (s.dev.armed links.toNat drain.toNat))
    case drains => exact (completes_reshapeDrain s).of_eq (reshapeDrain_armed ha hb)
    case noSwap => exact (completes_bankSwap s).of_eq (bankSwap_unarmed ha)
    case noDrain => exact (completes_reshapeDrain s).of_eq (reshapeDrain_unarmed ha)
    case swaps =>
      have hv := reshapeView_doSwap (s.dev.advanceTo t)
      exact ⟨_, (completes_bankSwap s).of_eq ((bankSwap_armed ha).trans (swapDue_runs h0 h4 hq)), rd_bank_doSwap _, flag_armed_doSwap _,
        congrArg (fun x => x.2.2) hv, congrArg (fun x => x.2.1) hv, congrArg (fun x => x.1) hv,
        fun l hb h4 => lkState_doSwap_listed l.isLt hb h4, fun l hb => lkState_doSwap_unlisted l.isLt hb⟩
    case cancelled =>
      have rd {f : Fld} (hf : 0x700000 ≤ f.addr) := rd_swapDue_fenced (d := s.dev.advanceTo t) hr hf
      refine ⟨_, (completes_bankSwap s).of_eq (bankSwap_armed ha), (rd (by decide)).trans (rd_clrF_ne (by decide)), ?_,
        draining_swapDue_fenced (d := s.dev.advanceTo t) hr⟩
      rw [flag, rd (by decide), rd_clrF_same]
      rfl
    case telemetryOff => exact (completes_telemetryRecord s).of_eq (telemetryRecord_off he)
    case telemetry =>
      exact ⟨_, (completes_telemetryRecord s).of_eq (telemetryRecord_on he), fun l => link_telPorts (List.mem_range.mpr l.isLt) s.dev,
        fun hfull => telPorts_full hfull _⟩

end Sys2Proof.Machine
end

section
/-!
A stream context's record (R246 to R249): what sending on the context, a packet's arrival and an error record leave of it.
-/
namespace Sys2Proof.Machine.Dev

@[simp] theorem ctx_setCtx_same (d : Dev) (k : Nat) (x : Ctx) : (d.setCtx k x).ctx k = x := tabGet_tabPut_same _ _ _ _
@[simp] theorem ctx_injectPkt (d : Dev) (p : Pkt) (k : Nat) : (d.injectPkt p).ctx k = d.ctx k := rfl
@[simp] theorem ctx_unqueue (d : Dev) (p : Pkt) (k : Nat) : (d.unqueue p).ctx k = d.ctx k := rfl

/-! An error record is none of a context's (R365). -/

theorem ctxs_irqEvent (n : Nat) (d : Dev) : (d.irqEvent n).ctxs = d.ctxs := by rw [irqEvent_sources]

theorem ctxs_becomePrim (b w0 w1 w2 w3 : Nat) (d : Dev) : (d.becomePrim b w0 w1 w2 w3).ctxs = d.ctxs :=
  ctxs_irqEvent _ { d.setPrim b w0 w1 w2 w3 with bankSince := _ }

theorem ctxs_bankDrop (b : Nat) (d : Dev) : (d.bankDrop b).ctxs = d.ctxs := by
  simp only [bankDrop]
  split
  · exact ctxs_irqEvent _ _
  · rfl

theorem ctxs_err (b : Nat) (a : ErrArgs) (d : Dev) : (d.err b a).ctxs = d.ctxs := by
  simp only [err, bankArrive]
  split
  case isTrue => exact ctxs_becomePrim ..
  case isFalse =>
    split
    · split
      · exact (ctxs_bankDrop ..).trans (ctxs_becomePrim ..)
      · exact ctxs_becomePrim ..
    · split
      · rfl
      · exact ctxs_bankDrop ..

/-! Sealing a packet changes its payload, and moves only the counter of sealed packets (R353). -/

theorem sealPkt_header (k : Nat) (p : Pkt) (d : Dev) :
    (d.sealPkt k p).1.ptype = p.ptype ∧ (d.sealPkt k p).1.ddev = p.ddev ∧ (d.sealPkt k p).1.dctx = p.dctx := by
  simp only [sealPkt]
  split <;> exact ⟨rfl, rfl, rfl⟩

theorem ctx_sealPkt (k : Nat) (p : Pkt) (d : Dev) : ∃ c, (d.sealPkt k p).2.ctx k = { d.ctx k with tctr := c } := by
  simp only [sealPkt]
  split
  · exact ⟨_, rfl⟩
  · exact ⟨_, ctx_setCtx_same ..⟩

theorem inject_sealPkt (k : Nat) (p : Pkt) (d : Dev) : (d.sealPkt k p).2.inject = d.inject := by
  simp only [sealPkt]
  split <;> rfl

/-! An unsequenced packet on a context (R239, R247, R249). -/

/-- The packet that `sendRaw` seals, if it does, and hands to the router. -/
def rawPkt (k t n : Nat) (b : List Byte) (d : Dev) : Pkt :=
  { ptype := t, flg := false, path := 0, nm := false, phase := 0, ddev := (d.ctx k).fdev, sdev := d.myDev, dctx := (d.ctx k).fctx,
    seq := n, opend := n, deadline := d.deadlineIn (d.rd Reg.STM_TIME_LIFE), inter := 0, addr := 0, frbase := 0, frlog := 0,
    payload := b }

theorem sendRaw_sealed (k t n : Nat) (b : List Byte) (d : Dev) :
    d.sendRaw k t n true b = (d.sealPkt k (d.rawPkt k t n b)).2.injectPkt (d.sealPkt k (d.rawPkt k t n b)).1 := rfl

/-- What the router is handed in `e` beyond `d`: one packet of a type, for context k's far end. -/
def Hands (t k : Nat) (d e : Dev) : Prop :=
  ∃ q, e.inject = d.inject ++ [q] ∧ q.ptype = t ∧ q.ddev = (d.ctx k).fdev ∧ q.dctx = (d.ctx k).fctx

section sends

variable (k t n : Nat) (sealed : Bool) (b : List Byte) (d : Dev)

theorem ctx_sendRaw : ∃ c, (d.sendRaw k t n sealed b).ctx k = { d.ctx k with tctr := c } := by
  cases sealed with
  | false => exact ⟨_, rfl⟩
  | true =>
    rw [sendRaw_sealed, ctx_injectPkt]
    exact ctx_sealPkt ..

theorem sendRaw_hands : Hands t k d (d.sendRaw k t n sealed b) := by
  cases sealed with
  | false => exact ⟨_, rfl, rfl, rfl, rfl⟩
  | true =>
    obtain ⟨ht, hdev, hctx⟩ := sealPkt_header k (d.rawPkt k t n b) d
    exact ⟨_, congrArg (· ++ [_]) (inject_sealPkt ..), ht, hdev, hctx⟩

theorem ctx_sendAck : ∃ c, (d.sendAck k).ctx k = { d.ctx k with tctr := c, sinceAck := 0, err := none } := by
  obtain ⟨c, hc⟩ := ctx_sendRaw k ptACK 0 true (ackPayload (d.ctx k)) d
  exact ⟨c, by rw [sendAck, ctx_updCtx_same, hc]⟩

theorem sendAck_hands : Hands ptACK k d (d.sendAck k) := sendRaw_hands k ptACK 0 true (ackPayload (d.ctx k)) d

theorem ctx_sendSync : (d.sendSync k).ctx k = d.ctx k := rfl

theorem sendSync_hands : Hands ptSYNC k d (d.sendSync k) := sendRaw_hands ..

end sends

end Sys2Proof.Machine.Dev
end

section
/-!
The sender's side of a context (R247, R248): what an ACK covers, a retransmission, and a context that fails.
-/
namespace Sys2Proof.Machine.Dev

variable {d : Dev} {k : Nat} {p : Pkt}

theorem openPkt_clear (h : (d.ctx p.dctx).gcm = false) : (d.unqueue p).openPkt p.dctx p = some p := if_pos (.inl (by simp [h]))

/-! An ACK (R247). -/

/-- A context without the packets below B, which has moved to `b`. -/
def ackedTo (x : Ctx) (b : Nat) : Ctx :=
  { x with o := b, unacked := x.unacked.filter fun q => !(decide (seqDist x.o q.seq < seqDist x.o b)) }

section ack

variable {x : Ctx} {b : Nat} (hx : d.ctx p.dctx = x) (ht : p.ptype = ptACK) (ho : x.st = .opened) (hf : p.sdev = x.fdev)
  (hg : x.gcm = false) (hb : byteField p.payload 0 4 = b) (hw : seqDist x.o b ≤ seqDist x.o x.n)
include hx ht ho hf hg hb hw

/-- With no operation under way an ACK moves the context and tells nobody. -/
theorem ackPkt_noOps (hops : x.ops = []) : d.ackPkt p = (d.unqueue p).setCtx p.dctx (ackedTo x b) := by
  have hopen : (d.unqueue p).openPkt p.dctx p = some p := openPkt_clear (by rw [hx, hg])
  simp only [ackPkt, onType, ht, if_true, ctx_unqueue, hx, ho, hf, hopen, hb, hw, hops, updCtx, List.filter_nil, List.foldl_nil, ackedTo]
  simp

/-- The ACK that covers a store tells its engine (R152, R247). -/
theorem ackPkt_store {o : SOp} {co e : Nat} (hops : x.ops = [o]) (hc : byteField p.payload 8 8 = 0) (hs : o.owner = .store co e)
    (hl : seqDist x.o o.last < seqDist x.o b) :
    d.ackPkt p = ((d.unqueue p).setCtx p.dctx { ackedTo x b with ops := [] }).updEng co e fun g =>
      { g with remote := g.remote.erase (p.dctx, o.last) } := by
  have hopen : (d.unqueue p).openPkt p.dctx p = some p := openPkt_clear (by rw [hx, hg])
  simp only [ackPkt, onType, ht, if_true, ctx_unqueue, hx, ho, hf, hopen, hb, hw, hops, updCtx, hc, ownerTold, ackedTo]
  simp [hs, hl]

end ack

/-! A retransmission (R248). -/

/-- The packets not acknowledged, one PATH up. -/
def onePathUp (x : Ctx) : List Pkt := x.unacked.map fun q => { q with path := min 3 (q.path + 1) }

/-- A context that has sent them. -/
def resent (x : Ctx) : Ctx := { x with unacked := onePathUp x, retx := satAdd 24 x.retx (onePathUp x).length }

theorem retransmit_opened (h : (d.ctx k).st = .opened) :
    d.retransmit k = (onePathUp (d.ctx k)).foldl (fun e q => e.injectPkt q) (d.setCtx k (resent (d.ctx k))) :=
  if_neg (by simp [h])

theorem inject_foldl_injectPkt (l : List Pkt) (d : Dev) : (l.foldl (fun e q => e.injectPkt q) d).inject = d.inject ++ l := by
  induction l generalizing d with
  | nil => exact (List.append_nil _).symm
  | cons q l ih => exact (ih _).trans (List.append_assoc d.inject [q] l)

theorem ctx_foldl_injectPkt (l : List Pkt) (k : Nat) (d : Dev) : (l.foldl (fun e q => e.injectPkt q) d).ctx k = d.ctx k :=
  foldl_keeps (fun e : Dev => e.ctx k = d.ctx k) _ _ _ rfl fun e q he => (ctx_injectPkt e q k).trans he

theorem inject_retransmit (h : (d.ctx k).st = .opened) : (d.retransmit k).inject = d.inject ++ onePathUp (d.ctx k) := by
  rw [retransmit_opened h, inject_foldl_injectPkt]
  rfl

theorem ctx_retransmit (h : (d.ctx k).st = .opened) : (d.retransmit k).ctx k = resent (d.ctx k) := by
  rw [retransmit_opened h, ctx_foldl_injectPkt, ctx_setCtx_same]

/-! A context that fails (R248). -/

theorem ctx_err (b : Nat) (a : ErrArgs) (k : Nat) (d : Dev) : (d.err b a).ctx k = d.ctx k := by rw [ctx, ctxs_err, ctx]

/-- A context with nothing under way either way fails with its numbers kept. -/
theorem ctx_ctxFail_idle (h : (d.ctx k).st = .opened) (hops : (d.ctx k).ops = []) (hpart : (d.ctx k).partial_ = []) :
    (d.ctxFail k).ctx k = { d.ctx k with
      st := .failed, taken := [], held := [], partial_ := [], unacked := [], ops := [], syncIn := false, syncAck := false } := by
  simp only [ctxFail, h, hops, hpart, ne_eq, not_true_eq_false, if_false, List.filter_nil, List.map_nil, List.foldl_nil, ctx_err]
  exact (ctx_setCtx_same ..).trans (by simp)

theorem streamFail_due {t : Nat} {r : List Nat} (h : d.failTimes k = t :: r) :
    d.streamFail k = (d.advanceTo (r.foldl min t)).streamFailNow k := by simp only [streamFail, h]

theorem streamFail_none (h : d.failTimes k = []) : d.streamFail k = d := by simp only [streamFail, h]

end Sys2Proof.Machine.Dev
end

section
/-!
The states of a context (R249, Table RT-4): opening and resynchronising through SYNC both ways, and closing.
-/
namespace Sys2Proof.Machine.Dev

variable {d : Dev} {k : Nat} {p : Pkt}

/-- An opening context whose own SYNC is acknowledged, and that owes no POISON, opens once a SYNC has come. -/
theorem ctx_openNow (hs : (d.ctx k).st = .opening) (hi : (d.ctx k).syncIn = true) (ha : (d.ctx k).syncAck = true)
    (hf : (d.ctx k).failedFrags = []) : (d.openNow k).ctx k = { d.ctx k with st := .opened } := by
  simp only [openNow, hs, hi, ha, and_self, if_true, sendOwed, ctx_setCtx_same, ne_eq, not_true_eq_false, if_false, hf, List.foldl_nil,
    ctx_updCtx_same]

/-- What an opening context takes from the neighbour's SYNC. -/
def afterSync (b : List Byte) (x : Ctx) : Ctx :=
  { x with b := byteField b 0 8 % 2 ^ 32, taken := [], held := [], partial_ := [], syncBase := byteField b 0 8 % 2 ^ 32, syncIn := true,
           confirmB := byteField b 8 8 % 2 ^ 32, fboot := byteField b 16 8, fopen := byteField b 24 8 }

theorem syncPkt_opening (ht : p.ptype = ptSYNC) (hs : (d.ctx p.dctx).st = .opening) (hf : p.sdev = (d.ctx p.dctx).fdev) :
    d.syncPkt p = (((d.unqueue p).updCtx p.dctx (afterSync p.payload)).sendAck p.dctx).openNow p.dctx := by
  simp only [syncPkt, onType, ht, if_true, ctx_unqueue, hs, hf]
  exact if_neg (by simp)

theorem syncPkt_closed (ht : p.ptype = ptSYNC) (hs : (d.ctx p.dctx).st = .closed) : d.syncPkt p = (d.unqueue p).badCtx := by
  simp only [syncPkt, onType, ht, if_true, ctx_unqueue, hs, true_or]

theorem ctx_syncPkt_opens (ht : p.ptype = ptSYNC) (hs : (d.ctx p.dctx).st = .opening) (hf : p.sdev = (d.ctx p.dctx).fdev)
    (ha : (d.ctx p.dctx).syncAck = true) (hfrags : (d.ctx p.dctx).failedFrags = []) :
    ∃ c, (d.syncPkt p).ctx p.dctx = { afterSync p.payload (d.ctx p.dctx) with tctr := c, sinceAck := 0, err := none, st := .opened } := by
  obtain ⟨c, hc⟩ := ctx_sendAck p.dctx ((d.unqueue p).updCtx p.dctx (afterSync p.payload))
  rw [ctx_updCtx_same, ctx_unqueue] at hc
  refine ⟨c, ?_⟩
  rw [syncPkt_opening ht hs hf, ctx_openNow, hc] <;> rw [hc]
  · exact hs
  · rfl
  · exact ha
  · exact hfrags

/-- A context opened anew: what names its far end and counts its events is kept. -/
def opening (x : Ctx) : Ctx :=
  { Ctx.reset with st := .opening, fdev := x.fdev, fctx := x.fctx, part := x.part, gcm := x.gcm, opencnt := x.opencnt + 1,
                   tctr := x.tctr, retx := x.retx, dups := x.dups, outwin := x.outwin }

/-- A failed context that resynchronises before a SYNC has come: its numbers go on from N. -/
def resyncing (x : Ctx) : Ctx := { x with st := .opening, o := x.n, opencnt := x.opencnt + 1 }

/-- A context that has closed. -/
def closedOf (x : Ctx) : Ctx :=
  { x with st := .closed, closing := false, held := [], ops := [], unacked := [], partial_ := [] }

theorem streamOpen_closed (h : (d.ctx k).st = .closed) : d.streamOpen k = (d.setCtx k (opening (d.ctx k))).sendSync k :=
  if_neg (by simp [h])

theorem streamResync_failed (h : (d.ctx k).st = .failed) (hi : (d.ctx k).syncIn = false) :
    d.streamResync k = (d.setCtx k (resyncing (d.ctx k))).sendSync k := by
  simp only [streamResync, h, hi, ne_eq, not_true_eq_false, if_false, Bool.false_eq_true, resyncing]

/-- A context given a new record sends its SYNC and keeps the record. -/
theorem setCtx_sendSync (k : Nat) (x : Ctx) (d : Dev) : ((d.setCtx k x).sendSync k).ctx k = x ∧
    ∃ q, ((d.setCtx k x).sendSync k).inject = d.inject ++ [q] ∧ q.ptype = ptSYNC := by
  obtain ⟨q, hq, ht, -, -⟩ := sendSync_hands k (d.setCtx k x)
  exact ⟨(ctx_sendSync ..).trans (ctx_setCtx_same ..), q, hq, ht⟩

theorem closeDone_ready (hc : (d.ctx k).closing = true)
    (h : (d.ctx k).st = .failed ∨ (d.ctx k).st = .opened ∧ (d.ctx k).o = (d.ctx k).n) :
    d.closeDone k = d.setCtx k (closedOf (d.ctx k)) := if_pos ⟨hc, h.symm⟩

theorem closeDone_unacked (h : (d.ctx k).st = .opened) (hn : (d.ctx k).o ≠ (d.ctx k).n) : d.closeDone k = d :=
  if_neg (by simp [h, hn])

end Sys2Proof.Machine.Dev
end

section
/-!
The commands of a stream's sender and of its states (O37): each clause from the rule of its row.
-/
namespace Sys2Proof.Machine

section rows

variable (s : State) (k : Stream) (p : Pkt)

theorem completes_ack : Completes (.ack p) s (s.dev.streamAck p).watch := rfl
theorem completes_sync : Completes (.sync p) s (s.dev.syncPkt p) := rfl
theorem completes_ackSend : Completes (.ackSend k) s (s.dev.ackSend k) := rfl
theorem completes_retransmit : Completes (.retransmit k) s (s.dev.retransmit k) := rfl
theorem completes_streamFail : Completes (.streamFail k) s (s.dev.streamFail k).watch := rfl
theorem completes_openStream : Completes (.openStream k) s (s.dev.streamOpen k) := rfl
theorem completes_closeStream : Completes (.closeStream k) s (s.dev.streamClose k) := rfl
theorem completes_closeDone : Completes (.closeDone k) s (s.dev.closeDone k) := rfl
theorem completes_resync : Completes (.resync k) s (s.dev.streamResync k) := rfl
theorem completes_syncSend : Completes (.syncSend k) s (s.dev.syncSend k) := rfl

end rows

open Dev in
/-- Settles O37: each clause by the rule of its row, and by what the packet sent leaves of the context (`ctx_sendRaw`). -/
theorem streamsOpenAcknowledgeAndFail : Obligations.StreamsOpenAcknowledgeAndFail := by
  intro s k p x c y b
  refine ⟨fun _ => completes_ack s p, fun ht ho hf hg hw hops => ?acked, fun o co e ht ho hf hg hw hops hc hs hl _ he => ?stored,
    fun ht hs hf ha hfrags => ?synced, fun ht hs => ?syncClosed, fun ho ha => ?ackSent, fun ha => ?noAck, fun ho => ?retransmitted,
    fun t r h => ?failsDue, fun h => ?failsNone, fun d ho hops hpart => ?failed, fun h => ?opens, fun h => ?openAlready,
    fun h => ?closes, fun hc h => ?closed, fun h hn => ?closeWaits, fun h hi => ?resynced, fun h => ?syncSent, fun h => ?noSync⟩
  case acked =>
    rw [ackPkt_noOps rfl ht ho hf hg rfl hw hops, ctx_setCtx_same]
    rfl
  case stored =>
    rw [ackPkt_store rfl ht ho hf hg rfl hw hops hc hs hl]
    exact ⟨congrArg Ctx.ops (ctx_setCtx_same ..), congrArg Eng.remote (eng_updEng_same _ co he _)⟩
  case synced =>
    obtain ⟨t, hd⟩ := ctx_syncPkt_opens ht hs hf ha hfrags
    exact ⟨_, completes_sync s p, congrArg Ctx.st hd, congrArg Ctx.b hd, congrArg Ctx.taken hd, congrArg Ctx.held hd⟩
  case syncClosed => exact (completes_sync s p).of_eq (syncPkt_closed ht hs)
  case ackSent =>
    obtain ⟨t, hd⟩ := ctx_sendAck k s.dev
    exact ⟨_, (completes_ackSend s k).of_eq (if_pos ⟨ho, ha⟩), congrArg Ctx.sinceAck hd, sendAck_hands k s.dev⟩
  case noAck => exact (completes_ackSend s k).of_eq (if_neg fun ⟨_, hn⟩ => hn ha)
  case retransmitted =>
    refine ⟨_, completes_retransmit s k, ?_⟩
    rw [ctx_retransmit ho, inject_retransmit ho]
    exact ⟨rfl, rfl, rfl, rfl⟩
  case failsDue => exact (completes_streamFail s k).of_eq (congrArg watch (streamFail_due h))
  case failsNone => exact (completes_streamFail s k).of_eq (congrArg watch (streamFail_none h))
  case failed =>
    rw [ctx_ctxFail_idle ho hops hpart]
    exact ⟨rfl, rfl, rfl, rfl⟩
  case opens =>
    obtain ⟨hx, hq⟩ := setCtx_sendSync k (opening x) s.dev
    refine ⟨_, (completes_openStream s k).of_eq (streamOpen_closed h), ?_⟩
    rw [hx]
    exact ⟨rfl, rfl, rfl, rfl, rfl, hq⟩
  case openAlready => exact (completes_openStream s k).of_eq (if_pos h)
  case closes => exact (completes_closeStream s k).of_eq (if_pos h)
  case closed =>
    refine ⟨_, (completes_closeDone s k).of_eq (closeDone_ready hc h), ?_⟩
    rw [ctx_setCtx_same]
    exact ⟨rfl, rfl⟩
  case closeWaits => exact (completes_closeDone s k).of_eq (closeDone_unacked h hn)
  case resynced =>
    obtain ⟨hx, hq⟩ := setCtx_sendSync k (resyncing x) s.dev
    refine ⟨_, (completes_resync s k).of_eq (streamResync_failed h hi), ?_⟩
    rw [hx]
    exact ⟨rfl, rfl, rfl, rfl, hq⟩
  case syncSent => exact (completes_syncSend s k).of_eq (if_pos h)
  case noSync => exact (completes_syncSend s k).of_eq (if_neg h)

end Sys2Proof.Machine
end

section
/-!
The step, the reset state and the test access port (O1, O3, O4, O60): what each command of the port leaves in it, and that the others
leave it alone.
-/
namespace Sys2Proof.Machine

/-- Settles O1: the step's own definition, by the queue's front. -/
theorem stepRunsFrontCommand : Obligations.StepRunsFrontCommand := by
  intro s c r h
  simp only [step, h]

namespace Tap

variable {t : Tap} {d : Dev}

theorem gate_low (h : t.low = true) (f : Tap → Dev → Tap × Dev) : gate f t d = (t, d) := if_pos h

theorem gate_open (h : t.low = false) (f : Tap → Dev → Tap × Dev) : gate f t d = f t d := if_neg (by simp [h])

/-- Selecting any instruction takes the outputs out of test operation; with TRST_N high that is sound. -/
theorem sound_sel (h : t.low = false) (ir : Nat) : (t.sel ir).sound := by simp [sound, sel, h]

theorem sound_reset : Tap.reset.sound := by simp [sound, Tap.reset]

/-- An instruction that the gate lets through keeps the port sound when it does so with TRST_N high. -/
theorem sound_gate {f : Tap → Dev → Tap × Dev} (hs : t.sound) (hf : t.low = false → (f t d).1.sound) : (gate f t d).1.sound := by
  cases hl : t.low with
  | true => rwa [gate_low hl]
  | false => rw [gate_open hl]; exact hf hl

theorem sound_bypass (hs : t.sound) : (bypass t d).1.sound := sound_gate hs fun hl => sound_sel hl _

theorem sound_extest (hs : t.sound) (v : Nat) : (extest v t d).1.sound := by
  refine sound_gate hs fun hl => ?_
  cases d.tapHeld
  · exact sound_bypass hs
  · simp [sound, sel, hl]

theorem sound_clamp (hs : t.sound) : (clamp t d).1.sound := by
  refine sound_gate hs fun hl => ?_
  cases d.tapHeld
  · exact sound_bypass hs
  · simp [sound, sel, hl]

theorem sound_highz (hs : t.sound) : (highz t d).1.sound := by
  refine sound_gate hs fun hl => ?_
  cases d.tapHeld
  · exact sound_bypass hs
  · simp [sound, sel, hl]

theorem sound_dbgap (hs : t.sound) (data : Word) (ap wr : Bool) : (dbgap data ap wr t d).1.sound := by
  refine sound_gate hs fun hl => ?_
  cases d.flag Reg.DBG_STAT_JUNLOCK
  · exact sound_bypass hs
  · exact sound_sel hl _

theorem sound_trstN (hs : t.sound) (low : Bool) : (t.trstN low).sound := by
  cases low
  · obtain ⟨hp, hf, -⟩ := hs
    exact ⟨hp, hf, nofun⟩
  · simp [sound, trstN, sel]

/-- A sound port has outputs in test operation only under the instructions that MOD_RESET_N high takes out. -/
theorem released_normal (hs : t.sound) : t.released.pins = none ∧ t.released.float = false ∧
    t.released.ir ≠ 3 ∧ t.released.ir ≠ 4 ∧ t.released.ir ≠ 5 := by
  obtain ⟨hp, hf, -⟩ := hs
  by_cases h : t.ir = 3 ∨ t.ir = 4 ∨ t.ir = 5
  · simp [released, h, sel]
  · rw [released, if_neg h]
    push Not at h
    obtain ⟨h3, h4, h5⟩ := h
    exact ⟨not_ne_iff.mp fun hn => (hp hn).elim h3 h4, eq_false_of_ne_true fun ht => h5 (hf ht), h3, h4, h5⟩

theorem sound_released (hs : t.sound) : t.released.sound := by
  obtain ⟨hp, hf, h3, h4, h5⟩ := released_normal hs
  obtain ⟨-, -, hlow⟩ := hs
  refine ⟨fun h => absurd hp h, fun h => absurd h (by simp [hf]), fun hl => ⟨?_, hp, hf⟩⟩
  by_cases h : t.ir = 3 ∨ t.ir = 4 ∨ t.ir = 5
  · have ht : t.low = true := by simpa [released, h, sel] using hl
    obtain ⟨h1, -, -⟩ := hlow ht
    omega
  · have hr : t.released = t := if_neg h
    rw [hr] at hl ⊢
    exact (hlow hl).1

end Tap

/-- Every command keeps the test port sound: one that uses the port by its own rule, any other because it leaves the port alone. -/
theorem after_sound (i : Instr) {s : State} (hs : s.tap.sound) : (after i s).tap.sound := by
  cases hu : usesTap i with
  | false => rwa [after_tap i s hu]
  | true =>
    cases i
    case modResetN low =>
      cases low
      · exact Tap.sound_released hs
      · exact hs
    case vstbyAbsent => exact Tap.sound_reset
    case idcode => exact Tap.sound_gate hs fun hl => Tap.sound_sel hl _
    case samplePreload v => exact Tap.sound_gate hs fun hl => by simp [Tap.sound, Tap.sel, hl]
    case extest v => exact Tap.sound_extest hs v
    case clamp => exact Tap.sound_clamp hs
    case highz => exact Tap.sound_highz hs
    case chal => exact Tap.sound_gate hs fun hl => Tap.sound_sel hl _
    case unlock sig => exact Tap.sound_gate hs fun hl => Tap.sound_sel hl _
    case dbgap data ap wr => exact Tap.sound_dbgap hs data ap wr
    case bypass op => exact Tap.sound_bypass hs
    case trstN low => exact Tap.sound_trstN hs low
    all_goals cases hu

/-- Settles O4: an idle step leaves the port alone, and every command keeps it sound. -/
theorem testPortSoundAtEveryStep : Obligations.TestPortSoundAtEveryStep := by
  intro s t hs ht
  cases hp : s.pending with
  | nil =>
    rw [step_empty hp] at ht
    cases ht
    exact hs
  | cons c p =>
    rw [step_cons hp] at ht
    cases ht
    exact after_sound c hs

/-- Settles O3: every table of the reset state is empty, and what MOD_RESET_N high leaves of a sound port. -/
theorem resetState : Obligations.ResetState := by
  refine ⟨⟨fun f => rfl, rfl, rfl, fun c => ⟨rfl, fun r => ?_⟩, fun p => rfl, rfl, rfl⟩, Tap.sound_reset, fun s hs => ?_⟩
  · cases r <;> rfl
  · exact ⟨_, rfl, Tap.released_normal hs⟩

section port

variable {s : State} {f : Tap → Dev → Tap × Dev} {i : Instr}

/-- A gated command while TRST_N is high. -/
theorem exec_open (hi : exec i s = s.applyTap (Tap.gate f)) (h : s.tap.low = false) :
    exec i s = .next { s with tap := (f s.tap s.dev).1, dev := (f s.tap s.dev).2 } := by
  rw [hi, State.applyTap, Tap.gate_open h]

/-- A gated command while TRST_N is low. -/
theorem exec_held (hi : exec i s = s.applyTap (Tap.gate f)) (h : s.tap.low = true) : exec i s = .next s := by
  rw [hi, State.applyTap, Tap.gate_low h]

theorem tapHeld_iff (d : Dev) : d.tapHeld = true ↔ d.modLow = true ∧ d.flag Reg.RST_STAT_INRESET = true := Bool.and_eq_true_iff

variable (h : s.tap.low = false)
include h

/-- An instruction that may not act is BYPASS. -/
theorem exec_asBypass (hi : exec i s = s.applyTap (Tap.gate f)) (hf : f s.tap s.dev = Tap.bypass s.tap s.dev) :
    exec i s = .next { s with tap := s.tap.sel 0xFF, dev := s.dev.emit (.tdo 0xFF 0) } := by
  rw [exec_open hi h, hf, Tap.bypass, Tap.gate_open h]

/-- One that may act does what its rule says. -/
theorem exec_acts {t : Tap} {d : Dev} (hi : exec i s = s.applyTap (Tap.gate f)) (hf : f s.tap s.dev = (t, d)) :
    exec i s = .next { s with tap := t, dev := d } := by
  rw [exec_open hi h, hf]

theorem exec_bypass (op : BitVec 8) : exec (.bypass op) s = .next { s with tap := s.tap.sel 0xFF, dev := s.dev.emit (.tdo 0xFF 0) } :=
  exec_acts h rfl rfl

end port

/-- Settles O60: each instruction by whether TRST_N lets it in and its own condition lets it act. -/
theorem testPortInstructions : Obligations.TestPortInstructions := by
  intro s v op sig data ap wr
  refine ⟨fun i hl hi => ?held, fun h => exec_acts h rfl rfl, fun h => exec_acts h rfl rfl, fun h ha => ?extest, fun h ha => ?clamp,
    fun h ha => ?highz, fun h ha => ?asBypass, fun h => exec_acts h rfl rfl, fun h hg => ?unlocks, fun h hg => ?refused,
    fun h hj => ?locked, fun h hj => ?write, fun h hj => ?read, fun h => exec_bypass h op, rfl, rfl⟩
  case held =>
    have hl : s.tap.low = true := by simpa using hl
    simp only [List.mem_cons, List.not_mem_nil, or_false] at hi
    rcases hi with rfl | rfl | rfl | rfl | rfl | rfl | rfl | rfl | rfl <;> exact exec_held rfl hl
  case extest => exact exec_acts h rfl (if_pos ((tapHeld_iff _).mpr ha))
  case clamp => exact exec_acts h rfl (if_pos ((tapHeld_iff _).mpr ha))
  case highz => exact exec_acts h rfl (if_pos ((tapHeld_iff _).mpr ha))
  case asBypass =>
    have hn : ¬ s.dev.tapHeld = true := fun hh => ha ((tapHeld_iff _).mp hh)
    exact ⟨exec_asBypass h rfl (if_neg hn), exec_asBypass h rfl (if_neg hn), exec_asBypass h rfl (if_neg hn)⟩
  case unlocks => exact exec_acts h rfl (by simp only [if_pos hg]; rfl)
  case refused => exact exec_acts h rfl (by simp only [if_neg hg]; rfl)
  case locked => exact exec_asBypass h rfl (if_pos (by simp [hj]))
  case write => exact exec_acts h rfl (if_neg (by simpa using hj))
  case read => exact exec_acts h rfl (if_neg (by simpa using hj))

end Sys2Proof.Machine
end

section
/-!
Fields of a byte string read back (O38): a field of a string begins where those before it end, so each header's fields come out as
they were written, cut to their bytes.
-/
namespace Sys2Proof.Machine

variable (b : List Byte) (x : Nat) {m n lo : Nat}

/-- A field behind the first one is one of the rest. -/
theorem byteField_leBytes_skip (h : m ≤ lo) : byteField (leBytes m x ++ b) lo n = byteField b (lo - m) n := by
  have hl : (leBytes m x ++ b).drop lo = b.drop (lo - m) := by
    rw [List.drop_append, List.drop_of_length_le (by rwa [length_leBytes]), length_leBytes, List.nil_append]
  rw [byteField, hl, byteField]

/-- The first field is the number's low bytes. -/
theorem byteField_leBytes_first (n : Nat) : byteField (leBytes n x ++ b) 0 n = x % 256 ^ n := by
  rw [byteField, List.drop_zero, List.take_left' (length_leBytes n x), leNat_leBytes]

/-- The one field of a string. -/
theorem byteField_leBytes_only (n : Nat) : byteField (leBytes n x) 0 n = x % 256 ^ n := by
  simpa using byteField_leBytes_first [] x n

/-- Values of w bytes each, one after another. -/
theorem byteField_flatMap {w : Nat} (l : List (BitVec 64)) {i : Nat} (hi : i < l.length) :
    byteField (l.flatMap fun v => leBytes w v.toNat) (w * i) w = l[i].toNat % 256 ^ w := by
  induction l generalizing i with
  | nil => simp at hi
  | cons v l ih =>
    rw [List.flatMap_cons]
    cases i with
    | zero => exact byteField_leBytes_first _ _ w
    | succ i =>
      rw [byteField_leBytes_skip _ _ (by simp [Nat.mul_succ]), Nat.mul_succ, Nat.add_sub_cancel]
      exact ih (by simpa using hi)

theorem length_flatMap_leBytes (w : Nat) (l : List (BitVec 64)) : (l.flatMap fun v => leBytes w v.toNat).length = w * l.length := by
  simp [List.length_flatMap, length_leBytes, Nat.mul_comm]

/-! Ferry headers (R286). -/

theorem FryHdr.parse_bytes {h : FryHdr} (r : List Byte) (hmtype : h.mtype < 256) (hjob : h.job < 256) (hqueue : h.queue < 256)
    (hk : h.k < 256) (hgen : h.gen < 2 ^ 32) (ht : h.t < 2 ^ 32) (hdev : h.dev < 2 ^ 24) (hcode : h.code < 256)
    (hrowb : h.rowb < 2 ^ 16) (hrrowb : h.rrowb < 2 ^ 16) (hbatch : h.batch < 2 ^ 32) (hrows : h.rows < 2 ^ 32)
    (hoff : h.off < 2 ^ 32) : FryHdr.parse (h.bytes ++ r) = h := by
  obtain ⟨mtype, job, queue, k, gen, t, dev, code, rowb, rrowb, batch, rows, off⟩ := h
  simp only at *
  simp only [parse, bytes, List.append_assoc, byteField_leBytes_skip, byteField_leBytes_first, Nat.reduceLeDiff, Nat.reduceSub,
    Nat.reducePow, FryHdr.mk.injEq]
  omega

/-! Confluence chunks (Table CF-3). -/

theorem length_cfHeader (t : Nat) (c : CfChunk) : (cfHeader t c).length = 64 := by
  simp only [cfHeader, List.length_append, length_leBytes]

/-- The flags byte of a chunk. -/
def CfChunk.flags (c : CfChunk) : Nat :=
  c.level % 4 + 4 * (c.ph % 2) + 8 * b2n c.byp + 16 * b2n c.meta_.ovf + 32 * b2n c.meta_.mis + 64 * b2n c.close

theorem bit_of_digit {x k : Nat} {v : Bool} (h : x / 2 ^ k % 2 = b2n v) : bit x k = v := by
  cases v <;> simp [bit, h, b2n]

theorem CfChunk.flags_fields {c : CfChunk} (hlevel : c.level < 4) (hph : c.ph < 2) :
    bits c.flags 1 0 = c.level ∧ bits c.flags 2 2 = c.ph ∧ bit c.flags 3 = c.byp ∧ bit c.flags 4 = c.meta_.ovf ∧
    bit c.flags 5 = c.meta_.mis ∧ bit c.flags 6 = c.close := by
  have hb : ∀ v, b2n v < 2 := fun v => by cases v <;> decide
  have h1 := hb c.byp
  have h2 := hb c.meta_.ovf
  have h3 := hb c.meta_.mis
  have h4 := hb c.close
  refine ⟨?_, ?_, bit_of_digit ?_, bit_of_digit ?_, bit_of_digit ?_, bit_of_digit ?_⟩ <;> simp only [flags, bits] <;> omega

/-- The values of a chunk's payload, behind its header. -/
theorem byteField_cfPayload_vals {w : Nat} {c : CfChunk} (hvals : ∀ v ∈ c.vals, v.toNat < 2 ^ (8 * w)) {i : Nat}
    (hi : i < c.vals.length) : byteField (cfPayload w c) (64 + w * i) w = c.vals[i].toNat := by
  have hdrop : (cfPayload w c).drop (64 + w * i) = (c.vals.flatMap fun v => leBytes w v.toNat).drop (w * i) := by
    rw [cfPayload, List.drop_append, length_cfHeader, List.drop_of_length_le (by rw [length_cfHeader]; omega),
      Nat.add_sub_cancel_left, List.nil_append]
  rw [byteField, hdrop]
  calc byteField (c.vals.flatMap fun v => leBytes w v.toNat) (w * i) w
    _ = c.vals[i].toNat % 256 ^ w := byteField_flatMap c.vals hi
    _ = c.vals[i].toNat := by rw [pow_256, Nat.mod_eq_of_lt (hvals _ (List.getElem_mem hi))]

theorem vals_cfPayload {w : Nat} (hw : 0 < w) {c : CfChunk} (hvals : ∀ v ∈ c.vals, v.toNat < 2 ^ (8 * w)) :
    (cfParse w (cfPayload w c)).vals = c.vals := by
  have hlen : ((cfPayload w c).length - 64) / w = c.vals.length := by
    rw [cfPayload, List.length_append, length_cfHeader, length_flatMap_leBytes, Nat.add_sub_cancel_left,
      Nat.mul_div_cancel_left _ hw]
  refine List.ext_getElem (by simp [cfParse, hlen]) fun i hi hi' => ?_
  simp [cfParse, byteField_cfPayload_vals hvals hi']

/-- A chunk's header and values read back. -/
theorem cfParse_cfPayload {w : Nat} {c : CfChunk} (hw : 0 < w) (hlevel : c.level < 4) (hph : c.ph < 2) (hring : c.ring < 256)
    (ha : c.a < 256) (hbid : c.bid < 2 ^ 32) (hgen : c.gen < 2 ^ 32) (hstep : c.step < 2 ^ 32) (hpos : c.pos < 2 ^ 20)
    (hcount : c.count < 2 ^ 32) (hkind : c.kind < 16) (harith : c.arith < 4) (helem : c.elem < 2 ^ 64)
    (hwcount : c.meta_.wcount < 2 ^ 32) (hwfirst : c.meta_.wfirst < 2 ^ 20) (hflush : c.meta_.flush < 2 ^ 32)
    (hwovf : c.meta_.wovf < 2 ^ 32) (hnan : c.meta_.nan < 2 ^ 32) (hvals : ∀ v ∈ c.vals, v.toNat < 2 ^ (8 * w)) :
    cfParse w (cfPayload w c) = c := by
  have hflags : byteField (cfPayload w c) 1 1 = c.flags := by
    have hlt : c.flags < 256 := by
      have hb : ∀ v, b2n v < 2 := fun v => by cases v <;> decide
      have h1 := hb c.byp
      have h2 := hb c.meta_.ovf
      have h3 := hb c.meta_.mis
      have h4 := hb c.close
      simp only [CfChunk.flags]
      omega
    simp only [cfPayload, cfHeader, List.append_assoc, byteField_leBytes_skip, byteField_leBytes_first, Nat.reduceLeDiff, Nat.reduceSub]
    exact Nat.mod_eq_of_lt hlt
  obtain ⟨f1, f2, f3, f4, f5, f6⟩ := CfChunk.flags_fields hlevel hph
  rw [← hflags] at f1 f2 f3 f4 f5 f6
  have hv := vals_cfPayload hw hvals
  obtain ⟨level, ph, byp, close, ring, a, bid, gen, step, pos, count, kind, arith, elem, ⟨ovf, mis, flush, wovf, nan, wcount, wfirst⟩,
    vals⟩ := c
  simp only at *
  simp only [cfParse, CfChunk.mk.injEq, CfMeta.mk.injEq] at hv ⊢
  refine ⟨f1, f2, f3, f6, ?_, ?_, ?_, ?_, ?_, ?_, ?_, ?_, ?_, ?_, ⟨f4, f5, ?_, ?_, ?_, ?_, ?_⟩, hv⟩ <;>
    simp only [cfPayload, cfHeader, List.append_assoc, byteField_leBytes_skip, byteField_leBytes_first, Nat.reduceLeDiff,
      Nat.reduceSub, Nat.reducePow, bits] <;> omega

/-! Packets (Tables RT-2, RT-3). -/

/-- The first two bytes of a packet's header. -/
def Pkt.lead (p : Pkt) : Nat :=
  p.ptype % 16 + (if p.flg then 16 else 0) + p.path % 4 * 2 ^ 5 + (if p.nm then 2 ^ 7 else 0) + p.phase % 4 * 2 ^ 8

theorem Pkt.length_header (p : Pkt) : p.header.length = 48 := by
  simp only [header, List.length_append, length_leBytes]

theorem Pkt.lead_fields {p : Pkt} (ht : p.ptype < 16) (hpath : p.path < 4) (hphase : p.phase < 4) :
    p.lead % 16 = p.ptype ∧ (p.lead / 16 % 2 = 1 ↔ p.flg = true) ∧ p.lead / 2 ^ 5 % 4 = p.path ∧ (p.lead / 2 ^ 7 % 2 = 1 ↔ p.nm = true) ∧
    p.lead / 2 ^ 8 % 4 = p.phase ∧ p.lead / 2 ^ 10 = 0 ∧ p.lead < 65536 := by
  simp only [lead]
  cases p.flg <;> cases p.nm <;> simp only [Bool.false_eq_true, if_false, if_true, iff_true, iff_false] <;> omega

theorem Pkt.parse_bytes {p : Pkt} (r : List Byte) (ht1 : 1 ≤ p.ptype) (ht : p.ptype ≤ 10) (hpath : p.path < 4) (hphase : p.phase < 4)
    (hddev : p.ddev < 2 ^ 20) (hsdev : p.sdev < 2 ^ 20) (hdctx : p.dctx < 2 ^ 17) (hseq : p.seq < 2 ^ 32) (hopend : p.opend < 2 ^ 32)
    (hdeadline : p.deadline < 2 ^ 32) (hinter : p.inter < 2 ^ 14) (haddr : p.addr < 2 ^ 48) (hfrbase : p.frbase < 2 ^ 48)
    (hfrlog : p.frlog < 256) (hlen : p.payload.length ≤ 4096) : Pkt.parse (p.bytes ++ r) = some (p, true, r) := by
  have hdrop : ∀ n, (p.bytes ++ r).drop (48 + n) = (p.payload ++ r).drop n := fun n => by
    rw [Pkt.bytes, List.append_assoc, List.drop_append, length_header, List.drop_of_length_le (by rw [length_header]; omega),
      Nat.add_sub_cancel_left, List.nil_append]
  have hall : (p.bytes ++ r).length = 48 + p.payload.length + r.length := by
    simp only [Pkt.bytes, List.length_append, length_header]
  have hfields : byteField (p.bytes ++ r) 0 2 = p.lead ∧ byteField (p.bytes ++ r) 2 3 = p.ddev ∧ byteField (p.bytes ++ r) 5 3 = p.sdev ∧
      byteField (p.bytes ++ r) 8 4 = p.dctx ∧ byteField (p.bytes ++ r) 12 4 = p.seq ∧ byteField (p.bytes ++ r) 16 4 = p.opend ∧
      byteField (p.bytes ++ r) 20 4 = p.deadline ∧ byteField (p.bytes ++ r) 24 2 = p.inter ∧
      byteField (p.bytes ++ r) 26 2 = p.payload.length ∧ byteField (p.bytes ++ r) 28 4 = 0 ∧ byteField (p.bytes ++ r) 32 8 = p.addr ∧
      byteField (p.bytes ++ r) 40 8 = p.frbase + p.frlog * 2 ^ 48 := by
    obtain ⟨-, -, -, -, -, -, hlead⟩ := lead_fields (p := p) (by omega) hpath hphase
    simp only [Pkt.bytes, header, List.append_assoc, byteField_leBytes_skip, byteField_leBytes_first, Nat.reduceLeDiff, Nat.reduceSub,
      Nat.reducePow]
    simp only [lead, Nat.reducePow] at hlead ⊢
    refine ⟨Nat.mod_eq_of_lt hlead, ?_, ?_, ?_, ?_, ?_, ?_, ?_, ?_, trivial, ?_, ?_⟩ <;> omega
  obtain ⟨g0, g2, g5, g8, g12, g16, g20, g24, g26, g28, g32, g40⟩ := hfields
  obtain ⟨l1, l2, l3, l4, l5, l6, -⟩ := lead_fields (p := p) (by omega) hpath hphase
  have hmod : p.payload.length % 2 ^ 13 = p.payload.length := Nat.mod_eq_of_lt (by omega)
  have ha7 : (p.frbase + p.frlog * 2 ^ 48) % 2 ^ 48 = p.frbase ∧ (p.frbase + p.frlog * 2 ^ 48) / 2 ^ 48 % 256 = p.frlog ∧
      p.frbase + p.frlog * 2 ^ 48 < 2 ^ 56 := by omega
  obtain ⟨a1, a2, a3⟩ := ha7
  have hd : (p.bytes ++ r).drop 48 = p.payload ++ r := hdrop 0
  unfold Pkt.parse
  simp only [g0, g2, g5, g8, g12, g16, g20, g24, g26, g28, g32, g40, l1, l2, l3, l4, l5, l6, hmod, a1, a2, hall]
  rw [if_neg (by omega), hdrop, List.drop_left' rfl, hd, List.take_left' rfl]
  simp only [Bool.decide_eq_true, Option.some.injEq, Prod.mk.injEq, decide_eq_true_eq]
  exact ⟨trivial, ⟨ht1, ht, trivial, hddev, hsdev, hdctx, hinter, hlen, trivial, haddr, a3⟩, trivial⟩

/-- Settles O38: each kind of message by the lemma that its fields read back. -/
theorem messagesReadBackAsWritten : Obligations.MessagesReadBackAsWritten :=
  ⟨fun _ r => Pkt.parse_bytes r, fun _ _ hw => cfParse_cfPayload (by omega), fun _ r => FryHdr.parse_bytes r⟩

end Sys2Proof.Machine
end

section
/-!
The SPDM responder (R356): what a request comes to by whether its function answers, the negotiation has ended, and its session stands.
-/
namespace Sys2Proof.Machine

namespace Dev

variable {d : Dev} {fn : Nat}

theorem spdmOn_up (h : d.fnUp fn = true) (f : Spdm → Dev → Dev) : d.spdmOn fn f = f (d.spdmOf fn) d := if_pos h
theorem spdmOn_down (h : ¬ d.fnUp fn = true) (f : Spdm → Dev → Dev) : d.spdmOn fn f = d := if_neg h

theorem spdmReady_ready (h : d.fnUp fn = true ∧ (d.spdmOf fn).algs = true) (f : Spdm → Dev → Dev) :
    d.spdmReady fn f = f (d.spdmOf fn) d := (spdmOn_up h.1 _).trans (if_pos h.2)
theorem spdmReady_early (h : d.fnUp fn = true) (ha : (d.spdmOf fn).algs = false) (f : Spdm → Dev → Dev) :
    d.spdmReady fn f = d.spdmError fn seUNEXPECTED := (spdmOn_up h _).trans (if_neg (by simp [ha]))
theorem spdmReady_down (h : ¬ d.fnUp fn = true) (f : Spdm → Dev → Dev) : d.spdmReady fn f = d := spdmOn_down h _

variable {sid : Nat}

theorem inSession_inside (h : d.fnUp fn = true ∧ (d.spdmOf fn).algs = true) (hs : (sid, true) ∈ (d.spdmOf fn).sessions)
    (f : Spdm → Dev → Dev) : d.inSession fn sid f = f (d.spdmOf fn) d :=
  (spdmReady_ready h _).trans (if_pos (by simpa using hs))
theorem inSession_outside (h : d.fnUp fn = true ∧ (d.spdmOf fn).algs = true) (hs : (sid, true) ∉ (d.spdmOf fn).sessions)
    (f : Spdm → Dev → Dev) : d.inSession fn sid f = d.spdmError fn seUNEXPECTED :=
  (spdmReady_ready h _).trans (if_neg (by simpa using hs))
theorem inSession_down (h : ¬ d.fnUp fn = true) (f : Spdm → Dev → Dev) : d.inSession fn sid f = d := spdmReady_down h _

theorem any_session {q : Nat} {l : List (Nat × Bool)} : l.any (fun s => s.1 = q) = true ↔ ∃ b, (q, b) ∈ l := by
  simp only [List.any_eq_true, decide_eq_true_eq]
  constructor
  · rintro ⟨⟨_, b⟩, hm, rfl⟩
    exact ⟨b, hm⟩
  · rintro ⟨b, hm⟩
    exact ⟨(q, b), hm, rfl⟩

/-- A function has block 5 unless it is the PF, whose blocks 16 to 23 stand for the partitions (Table PT-8). -/
theorem measurement_five (d : Dev) (fn : Nat) : (d.measurement fn 5).isSome = decide (fn ≠ 0) := by
  by_cases h : fn = 0 <;> simp [measurement, h]

theorem measurement_partitions (d : Dev) (fn : Nat) {k : Nat} (hk : 16 ≤ k) :
    (d.measurement fn k).isSome = decide (fn = 0 ∧ k < 24) := by
  obtain ⟨j, rfl⟩ := Nat.exists_eq_add_of_le' hk
  by_cases h : fn = 0 <;> by_cases hj : j + 16 < 24 <;> simp [measurement, h, hj]

section
variable (h : d.fnUp fn = true ∧ (d.spdmOf fn).algs = true) {i : Nat} (h0 : i ≠ 0) (hf : i ≠ 0xFF)
include h h0 hf

theorem getMeasurements_some {b : List Byte} (hm : d.measurement fn i = some b) :
    d.getMeasurements fn i = d.spdmReply fn 0x60 (leBytes 1 i ++ b) := by
  rw [getMeasurements, spdmReady_ready h, if_neg h0, if_neg hf, hm]

theorem getMeasurements_none (hm : d.measurement fn i = none) : d.getMeasurements fn i = d.spdmError fn seINVALID := by
  rw [getMeasurements, spdmReady_ready h, if_neg h0, if_neg hf, hm]

end

/-- A tenant's key inside a session on its own VF (R355, R356). -/
theorem vendorDefined_key {op : Nat} {key : List Byte} (h : d.fnUp fn = true ∧ (d.spdmOf fn).algs = true)
    (hs : (sid, true) ∈ (d.spdmOf fn).sessions) (hf : fn ≠ 0) (hk : op = 1 ∧ key.length = 64 ∨ op = 2 ∧ key.length = 32) :
    d.vendorDefined fn sid 3 0x1D7C op key =
      if op = 1 then
        if d.hkeyFree (fn - 1) then (d.setHkey (fn - 1) (some (leNat key)) 3).spdmReply fn 0x7E [0] else d.spdmReply fn 0x7E [1]
      else if d.lkeyFree (fn - 1) then (d.setLkey (fn - 1) (some (leNat key)) 3).spdmReply fn 0x7E [0]
      else d.spdmReply fn 0x7E [1] :=
  (inSession_inside h hs _).trans (if_neg (by simp [hf, hk]))

theorem vendorDefined_other {standard vendor op : Nat} {key : List Byte} (h : d.fnUp fn = true ∧ (d.spdmOf fn).algs = true)
    (hs : (sid, true) ∈ (d.spdmOf fn).sessions) (ho : fn = 0 ∨ standard ≠ 3 ∨ vendor ≠ 0x1D7C) :
    d.vendorDefined fn sid standard vendor op key = d.spdmError fn seUNSUPPORTED :=
  (inSession_inside h hs _).trans (if_pos (by tauto))

theorem hkey_setHkey (p : Nat) (k : Option Nat) (n : Nat) (d : Dev) : ((d.setHkey p k n).part p).hkey = k := by simp [setHkey]
theorem lkey_setLkey (p : Nat) (k : Option Nat) (n : Nat) (d : Dev) : ((d.setLkey p k n).part p).lkey = k := by simp [setLkey]
theorem rd_setHkey (p : Nat) (k : Option Nat) (n : Nat) (d : Dev) : (d.setHkey p k n).rd (Reg.PT_STAT_HSRC p) = n % 2 ^ 2 :=
  rd_wr_same ..
theorem rd_setLkey (p : Nat) (k : Option Nat) (n : Nat) (d : Dev) : (d.setLkey p k n).rd (Reg.PT_STAT_LSRC p) = n % 2 ^ 2 :=
  rd_wr_same ..

end Dev

section rows

variable (s : State) (fn : Fin 9)

theorem completes_getVersion : Completes (.getVersion fn) s (s.dev.getVersion fn) := rfl
theorem completes_getCapabilities (ver : BitVec 8) : Completes (.getCapabilities fn ver) s (s.dev.getCapabilities fn ver.toNat) := rfl
theorem completes_negotiateAlgorithms (a b c e : Bool) :
    Completes (.negotiateAlgorithms fn a b c e) s (s.dev.negotiateAlgorithms fn a b c e) := rfl
theorem completes_getDigests : Completes (.getDigests fn) s (s.dev.getDigests fn) := rfl
theorem completes_getCertificate (slot : BitVec 4) (off len : BitVec 16) :
    Completes (.getCertificate fn slot off len) s (s.dev.getCertificate fn slot.toNat off.toNat len.toNat) := rfl
theorem completes_challenge (slot : BitVec 4) : Completes (.challenge fn slot) s (s.dev.challenge fn slot.toNat) := rfl
theorem completes_getMeasurements (i : BitVec 8) : Completes (.getMeasurements fn i) s (s.dev.getMeasurements fn i.toNat) := rfl
theorem completes_keyExchange (q : BitVec 16) : Completes (.keyExchange fn q) s (s.dev.keyExchange fn q.toNat) := rfl
theorem completes_finish (sid : BitVec 32) (valid : Bool) : Completes (.finish fn sid valid) s (s.dev.finish fn sid.toNat valid) := rfl
theorem completes_heartbeat (sid : BitVec 32) : Completes (.heartbeat fn sid) s (s.dev.heartbeat fn sid.toNat) := rfl
theorem completes_keyUpdate (sid : BitVec 32) (op : BitVec 8) :
    Completes (.keyUpdate fn sid op) s (s.dev.keyUpdate fn sid.toNat op.toNat) := rfl
theorem completes_endSession (sid : BitVec 32) : Completes (.endSession fn sid) s (s.dev.endSession fn sid.toNat) := rfl
theorem completes_vendorDefinedRequest (sid : BitVec 32) (std ven : BitVec 16) (op : BitVec 8) (key : List Byte) :
    Completes (.vendorDefinedRequest fn sid std ven op key) s
      (s.dev.vendorDefined fn sid.toNat std.toNat ven.toNat op.toNat key) := rfl
theorem completes_doeDiscovery (i : BitVec 8) : Completes (.doeDiscovery fn i) s (s.dev.doeDiscovery fn i.toNat) := rfl

end rows

theorem ofNat_toNat_ne {w : Nat} {x y : BitVec w} (h : x ≠ y) : x.toNat ≠ y.toNat := fun hn => h (BitVec.eq_of_toNat_eq hn)

open Dev in
/-- Settles O47: each request by the rule of its stage, and a tenant's key by the rule of R355. -/
theorem attestationAndTenantKeys : Obligations.AttestationAndTenantKeys := by
  intro s fn ver i op8 slot off len q std ven sid key valid up x free err ready inside vendor p
  have hfn : fn ≠ 0 → fn.val ≠ 0 := fun h hv => h (Fin.ext hv)
  refine ⟨fun h => ?down, fun h => (completes_getVersion s fn).of_eq (spdmOn_up h _),
    fun h h0 => (completes_getCapabilities s fn ver).of_eq ((spdmOn_up h _).trans (if_pos h0)),
    fun h h0 h2 h3 => ?badVersion, fun h h0 hv => ?capabilities,
    fun a b c e h hc => (completes_negotiateAlgorithms s fn a b c e).of_eq ((spdmOn_up h _).trans (if_pos (by simpa [x] using hc))),
    fun a b c e h hc ha => ?refusedAlgs, fun h hc => ?algs, fun h ha => ?early,
    fun h => (completes_getDigests s fn).of_eq (spdmReady_ready h _), fun h hs => ?slotUsed, fun h hs => ?slotBad,
    fun h hi => ?count, fun h hi => ?block3, fun h h0 hf b hb => ?block, fun h h0 hf hn => ?noBlock,
    ⟨?block5, fun k hk => ?blocks⟩, fun h hn => ?opened, fun b h hm => ?used, fun h hm => ?notOpened, fun h hm => ?finished,
    fun h hm => ?outside, fun h => (completes_heartbeat s fn sid).of_eq (inSession_inside h.1 h.2 _), fun h h1 h3 => ?updated,
    fun h ho => ?badUpdate, fun h => (completes_endSession s fn sid).of_eq (inSession_inside h.1 h.2 _), fun h ho => ?unsupported,
    fun h hf h3 hv hl => ?hbmKey, fun h hf h3 hv hl => ?linkKey, fun h hi => ?discovery, fun h hi => ?noDiscovery⟩
  case down =>
    exact ⟨(completes_getVersion s fn).of_eq (spdmOn_down h _), (completes_getDigests s fn).of_eq (spdmReady_down h _),
      (completes_heartbeat s fn sid).of_eq (inSession_down h _), (completes_doeDiscovery s fn i).of_eq (if_pos h)⟩
  case badVersion =>
    exact (completes_getCapabilities s fn ver).of_eq ((spdmOn_up h _).trans ((if_neg h0).trans
      (if_pos ⟨ofNat_toNat_ne h2, ofNat_toNat_ne h3⟩)))
  case capabilities =>
    refine (completes_getCapabilities s fn ver).of_eq ((spdmOn_up h _).trans ((if_neg h0).trans (if_neg ?_)))
    rintro ⟨h2, h3⟩
    exact hv.elim (fun hh => h2 (congrArg BitVec.toNat hh)) fun hh => h3 (congrArg BitVec.toNat hh)
  case refusedAlgs =>
    exact (completes_negotiateAlgorithms s fn a b c e).of_eq ((spdmOn_up h _).trans ((if_neg (by simpa using hc)).trans (if_neg (by simp [ha]))))
  case algs =>
    exact (completes_negotiateAlgorithms s fn ..).of_eq ((spdmOn_up h _).trans (if_neg (by simpa using hc)))
  case early =>
    exact ⟨(completes_getDigests s fn).of_eq (spdmReady_early h ha _), (completes_getMeasurements s fn i).of_eq (spdmReady_early h ha _),
      (completes_keyExchange s fn q).of_eq (spdmReady_early h ha _)⟩
  case slotUsed =>
    exact ⟨(completes_getCertificate s fn ..).of_eq ((spdmReady_ready h _).trans (if_pos hs)),
      (completes_challenge s fn slot).of_eq ((spdmReady_ready h _).trans (if_pos hs))⟩
  case slotBad =>
    have hn : ¬ slot.toNat < 2 := by omega
    exact ⟨(completes_getCertificate s fn ..).of_eq ((spdmReady_ready h _).trans (if_neg hn)),
      (completes_challenge s fn slot).of_eq ((spdmReady_ready h _).trans (if_neg hn))⟩
  case count =>
    subst hi
    refine (completes_getMeasurements s fn 0).of_eq ((spdmReady_ready h _).trans ((if_pos rfl).trans ?_))
    by_cases hf : fn = 0 <;> simp [measureIdx, hf, hfn]
  case block3 =>
    subst hi
    exact (completes_getMeasurements s fn 3).of_eq (getMeasurements_some h (by decide) (by decide) rfl)
  case block =>
    exact (completes_getMeasurements s fn i).of_eq (getMeasurements_some h (ofNat_toNat_ne h0) (ofNat_toNat_ne hf) hb)
  case noBlock =>
    exact (completes_getMeasurements s fn i).of_eq (getMeasurements_none h (ofNat_toNat_ne h0) (ofNat_toNat_ne hf) hn)
  case block5 =>
    rw [measurement_five]
    exact decide_eq_decide.mpr (not_congr Fin.val_eq_zero_iff)
  case blocks =>
    rw [measurement_partitions _ _ hk]
    exact decide_eq_decide.mpr (and_congr_left fun _ => Fin.val_eq_zero_iff)
  case opened =>
    exact (completes_keyExchange s fn q).of_eq ((spdmReady_ready h _).trans
      (if_neg fun ha => (any_session.mp ha).elim hn))
  case used => exact (completes_keyExchange s fn q).of_eq ((spdmReady_ready h _).trans (if_pos (any_session.mpr ⟨b, hm⟩)))
  case notOpened => exact (completes_finish s fn ..).of_eq ((spdmReady_ready h _).trans (if_pos (by simpa using hm)))
  case finished =>
    have hc : ¬ ¬ (s.dev.spdmOf fn).sessions.contains (sid.toNat, false) = true := by simpa using hm
    exact ⟨(completes_finish s fn ..).of_eq ((spdmReady_ready h _).trans (if_neg hc)),
      (completes_finish s fn ..).of_eq ((spdmReady_ready h _).trans (if_neg hc))⟩
  case outside =>
    have hm' : (sid.toNat, true) ∉ (s.dev.spdmOf fn).sessions := fun hh => hm ⟨h, hh⟩
    exact ⟨(completes_heartbeat s fn sid).of_eq (inSession_outside h hm' _), (completes_keyUpdate s fn ..).of_eq (inSession_outside h hm' _),
      (completes_endSession s fn sid).of_eq (inSession_outside h hm' _),
      (completes_vendorDefinedRequest s fn ..).of_eq (inSession_outside h hm' _)⟩
  case updated => exact (completes_keyUpdate s fn ..).of_eq ((inSession_inside h.1 h.2 _).trans (if_pos ⟨h1, h3⟩))
  case badUpdate => exact (completes_keyUpdate s fn ..).of_eq ((inSession_inside h.1 h.2 _).trans (if_neg (by omega)))
  case unsupported =>
    exact (completes_vendorDefinedRequest s fn ..).of_eq (vendorDefined_other h.1 h.2
      (ho.imp (congrArg Fin.val) (Or.imp ofNat_toNat_ne ofNat_toNat_ne)))
  case hbmKey =>
    subst h3 hv
    have hd := vendorDefined_key (op := 1) h.1 h.2 (hfn hf) (.inl ⟨rfl, hl⟩)
    rw [if_pos rfl] at hd
    refine ⟨fun hk => ⟨_, (completes_vendorDefinedRequest s fn ..).of_eq (hd.trans (if_pos hk)), ?_, ?_, rfl⟩,
      fun hk => (completes_vendorDefinedRequest s fn ..).of_eq (hd.trans (if_neg (by simpa using hk)))⟩
    · exact hkey_setHkey _ _ 3 _
    · exact rd_setHkey ..
  case linkKey =>
    subst h3 hv
    have hd := vendorDefined_key (op := 2) h.1 h.2 (hfn hf) (.inr ⟨rfl, hl⟩)
    rw [if_neg (by decide)] at hd
    refine ⟨fun hk => ⟨_, (completes_vendorDefinedRequest s fn ..).of_eq (hd.trans (if_pos hk)), ?_, ?_⟩,
      fun hk => (completes_vendorDefinedRequest s fn ..).of_eq (hd.trans (if_neg (by simpa using hk)))⟩
    · exact lkey_setLkey _ _ 3 _
    · exact rd_setLkey ..
  case discovery => exact (completes_doeDiscovery s fn i).of_eq ((if_neg (not_not_intro h)).trans (if_pos hi))
  case noDiscovery => exact (completes_doeDiscovery s fn i).of_eq ((if_neg (not_not_intro h)).trans (if_neg (by omega)))

end Sys2Proof.Machine
end

section
/-!
The sources of the interrupt controller (R377 to R384): what an arrival, a configuration, a claim and a completion leave in the
source's record, and which source a claim takes.
-/
namespace Sys2Proof.Machine

namespace Dev

variable {d : Dev} {n k : Nat}

/-! One source's record under the operations on it, and another's. -/

theorem src_offer_same (n : Nat) (d : Dev) : ∃ o, (d.offer n).src n = { d.src n with offered := o } := by
  simp only [offer]
  split
  · exact ⟨_, rfl⟩
  · exact ⟨_, (src_emit ..).trans (src_setSrc_same ..)⟩

theorem src_offer_ne (h : k ≠ n) (d : Dev) : (d.offer n).src k = d.src k := by
  simp only [offer]
  split
  · rfl
  · exact (src_emit ..).trans (src_setSrc_ne _ _ _ _ h)

theorem srcArrive_disabled (h : (d.src n).en = false) : d.srcArrive n = d := if_pos (by simp [h])

theorem src_srcArrive_idle (he : (d.src n).en = true) (hs : (d.src n).st = .idle) :
    ∃ o, (d.srcArrive n).src n = { d.src n with st := .pending, cnt := 1, offered := o } := by
  obtain ⟨o, ho⟩ := src_offer_same n ((d.setSrc n { d.src n with st := .pending, cnt := 1 }).eligibleCount n 1)
  rw [src_eligibleCount, src_setSrc_same] at ho
  refine ⟨o, ?_⟩
  rw [srcArrive]
  simp only [he, hs, not_true_eq_false, if_false] at ho ⊢
  exact ho

theorem src_srcArrive_pending (he : (d.src n).en = true) (hs : (d.src n).st = .pending) :
    (d.srcArrive n).src n = { d.src n with cnt := satAdd 8 (d.src n).cnt 1 } := by
  simp only [srcArrive, he, hs, not_true_eq_false, if_false, src_eligibleCount, src_setSrc_same]

/-- At a source INSERVICE an arrival is only counted, and in level mode not even that (Table IC-2). -/
theorem src_srcArrive_inService (he : (d.src n).en = true) (hs : (d.src n).st = .inService) :
    (d.srcArrive n).src n = { d.src n with cnt := if (d.src n).level then (d.src n).cnt else satAdd 8 (d.src n).cnt 1 } := by
  by_cases hl : (d.src n).level = true
  · have h : d.srcArrive n = d := by simp [srcArrive, he, hs, hl]
    rw [h, if_pos hl]
  · have h : d.srcArrive n = d.setSrc n { d.src n with cnt := satAdd 8 (d.src n).cnt 1 } := by simp [srcArrive, he, hs, hl]
    rw [h, src_setSrc_same, if_neg hl]

theorem src_srcArrive_ne (h : k ≠ n) (d : Dev) : (d.srcArrive n).src k = d.src k := by
  simp only [srcArrive]
  split
  · rfl
  · split
    · rw [src_offer_ne h, src_eligibleCount, src_setSrc_ne _ _ _ _ h]
    · rw [src_eligibleCount, src_setSrc_ne _ _ _ _ h]
    · split
      · rfl
      · exact src_setSrc_ne _ _ _ _ h

theorem tmask_srcArrive (n : Nat) (d : Dev) : ((d.srcArrive n).src n).tmask = (d.src n).tmask := by
  cases he : (d.src n).en with
  | false => rw [srcArrive_disabled he]
  | true =>
    cases hs : (d.src n).st with
    | idle =>
      obtain ⟨o, ho⟩ := src_srcArrive_idle he hs
      rw [ho]
    | pending => rw [src_srcArrive_pending he hs]
    | inService => rw [src_srcArrive_inService he hs]

theorem irqEvent_real (h : srcReal n = true) (d : Dev) : d.irqEvent n = (d.setSrc n { d.src n with raw := true }).srcArrive n :=
  if_neg (by simp [h])

theorem irqEvent_reserved (h : ¬ srcReal n = true) (d : Dev) : d.irqEvent n = d := if_pos h

theorem src_irqEvent_ne (h : k ≠ n) (d : Dev) : (d.irqEvent n).src k = d.src k := by
  by_cases hr : srcReal n = true
  · rw [irqEvent_real hr, src_srcArrive_ne h, src_setSrc_ne _ _ _ _ h]
  · rw [irqEvent_reserved hr]

/-- A source that becomes PENDING keeps all but its state, its count and who was offered it (R381, R384). -/
theorem src_becomePending (n k : Nat) (d : Dev) :
    ∃ o, (d.becomePending n k).src n = { d.src n with st := .pending, cnt := k, offered := o } := by
  obtain ⟨o, ho⟩ := src_offer_same n ((d.setSrc n { d.src n with st := .pending, cnt := k }).eligibleCount n k)
  rw [src_eligibleCount, src_setSrc_same] at ho
  exact ⟨o, ho⟩

/-! Configuration (R378, R379). -/

/-- A source as a write of its configuration leaves it: CLASS changes only to one that can serve it. -/
def configured (d : Dev) (n : Nat) (en level : Bool) (cls prio : Nat) : Src :=
  { d.src n with en := en, level := level, prio := prio,
                 cls := if cls = 3 ∨ (cls = 2 ∧ (d.srcOwner n).isNone) then (d.src n).cls else cls }

section config

variable {en level : Bool} {cls prio : Nat}

theorem sourceConfig_disables : d.sourceConfig n false level cls prio = (d.setSrc n (d.configured n false level cls prio)).srcIdle n := rfl

theorem sourceConfig_enables (h : ¬ (d.src n).en = true ∧ level = true ∧ (d.src n).raw = true ∧ (d.src n).st = .idle) :
    d.sourceConfig n true level cls prio = (d.setSrc n (d.configured n true level cls prio)).becomePending n 1 := by
  rw [sourceConfig]
  exact (if_neg (by simp)).trans (if_pos h)

theorem sourceConfig_stores (h : ¬ (¬ (d.src n).en = true ∧ level = true ∧ (d.src n).raw = true ∧ (d.src n).st = .idle)) :
    d.sourceConfig n true level cls prio = d.setSrc n (d.configured n true level cls prio) := by
  rw [sourceConfig]
  exact (if_neg (by simp)).trans (if_neg h)

/-- Whatever a configuration does to the source's state, it stores its fields and leaves RAW. -/
theorem src_sourceConfig (n : Nat) (en level : Bool) (cls prio : Nat) (d : Dev) : ∃ st cnt o, (d.sourceConfig n en level cls prio).src n =
    { d.configured n en level cls prio with st := st, cnt := cnt, offered := o } := by
  cases en with
  | false => exact ⟨_, _, _, (congrArg (fun e : Dev => e.src n) sourceConfig_disables).trans (by rw [srcIdle, src_setSrc_same, src_setSrc_same])⟩
  | true =>
    by_cases h : ¬ (d.src n).en = true ∧ level = true ∧ (d.src n).raw = true ∧ (d.src n).st = .idle
    · obtain ⟨o, ho⟩ := src_becomePending n 1 (d.setSrc n (d.configured n true level cls prio))
      exact ⟨_, _, o, by rw [sourceConfig_enables h, ho, src_setSrc_same]⟩
    · exact ⟨_, _, _, by rw [sourceConfig_stores h, src_setSrc_same]⟩

theorem cls_sourceConfig (n : Nat) (en level : Bool) (cls prio : Nat) (d : Dev) :
    ((d.sourceConfig n en level cls prio).src n).cls = (d.configured n en level cls prio).cls := by
  obtain ⟨st, cnt, o, hsrc⟩ := src_sourceConfig n en level cls prio d
  rw [hsrc]

end config

/-! Claims (R382). -/

theorem bestSource_eq_none {d : Dev} {l : List Nat} (h : d.bestSource l = none) : l = [] := by
  cases l with
  | nil => rfl
  | cons n ns =>
    rw [bestSource] at h
    split at h
    · cases h
    · split at h <;> cases h

/-- Of a rising list the best source has the highest PRIO, and of those the lowest number. -/
theorem bestSource_best {d : Dev} {l : List Nat} (hl : l.Pairwise (· < ·)) (h : d.bestSource l = some k) :
    k ∈ l ∧ ∀ j ∈ l, (d.src j).prio < (d.src k).prio ∨ (d.src j).prio = (d.src k).prio ∧ k ≤ j := by
  induction l generalizing k with
  | nil => cases h
  | cons n ns ih =>
    obtain ⟨hn, hs⟩ := List.pairwise_cons.mp hl
    rw [bestSource] at h
    split at h
    · next hb =>
      cases h
      rw [bestSource_eq_none hb]
      simp
    · next m hb =>
      obtain ⟨hm, hbest⟩ := ih hs hb
      split at h
      · next hlt =>
        cases h
        refine ⟨List.mem_cons_of_mem _ hm, fun j hj => ?_⟩
        rcases List.mem_cons.mp hj with rfl | hj
        · exact .inl hlt
        · exact hbest j hj
      · next hge =>
        cases h
        refine ⟨List.mem_cons_self, fun j hj => ?_⟩
        rcases List.mem_cons.mp hj with rfl | hj
        · exact .inr ⟨rfl, le_rfl⟩
        · have h1 := hbest j hj
          have h2 := hn j hj
          omega

end Dev

theorem pairwise_keys {α : Type} [DecidableEq α] {d : α} {t : Tab α} (h : tabWf d t = true) : (t.map (·.1)).Pairwise (· < ·) := by
  induction t with
  | nil => exact List.Pairwise.nil
  | cons e r ih =>
    obtain ⟨k, v⟩ := e
    simp only [tabWf, Bool.and_eq_true, tabAbove, List.all_eq_true, decide_eq_true_eq] at h
    obtain ⟨⟨-, ha⟩, hw⟩ := h
    rw [List.map_cons, List.pairwise_cons]
    refine ⟨fun j hj => ?_, ih hw⟩
    obtain ⟨x, hx, rfl⟩ := List.mem_map.mp hj
    exact ha x hx

/-- A key that does not read as the default is listed. -/
theorem mem_keys_of_tabGet {α : Type} {d : α} {k : Nat} {t : Tab α} (h : tabGet d k t ≠ d) : k ∈ t.map (·.1) := by
  induction t with
  | nil => exact absurd rfl h
  | cons e r ih =>
    obtain ⟨k', v⟩ := e
    rw [tabGet] at h
    split at h
    · next hk => exact List.mem_map.mpr ⟨(k', v), List.mem_cons_self, hk⟩
    · split at h
      · exact absurd rfl h
      · exact List.mem_map.mpr ((List.mem_map.mp (ih h)).imp fun _ hx => ⟨List.mem_cons_of_mem _ hx.1, hx.2⟩)

namespace Dev

variable {d : Dev} {f : Nat → Bool}

/-- Source k is the best of those that `f` admits. -/
def Best (d : Dev) (f : Nat → Bool) (k : Nat) : Prop :=
  f k = true ∧ ∀ j, f j = true → (d.src j).prio < (d.src k).prio ∨ (d.src j).prio = (d.src k).prio ∧ k ≤ j

theorem bestSource_listed_none (h : ∀ k, f k = false) : d.bestSource (d.listedSources.filter f) = none := by
  rw [List.filter_eq_nil_iff.mpr fun k _ => by simp [h k]]
  rfl

/-- When sources that wait are admitted, one is the best. -/
theorem bestSource_listed_some (hw : tabWf Src.reset d.srcs = true) (hf : ∀ k, f k = true → (d.src k).st = .pending)
    (h : ∃ k, f k = true) : ∃ k, d.Best f k ∧ d.bestSource (d.listedSources.filter f) = some k := by
  have hmem : ∀ j, f j = true → j ∈ d.listedSources.filter f := fun j hj => by
    refine List.mem_filter.mpr ⟨mem_keys_of_tabGet (d := Src.reset) fun hr => ?_, hj⟩
    have hp := hf j hj
    rw [src, hr] at hp
    cases hp
  obtain ⟨i, hi⟩ := h
  cases hb : d.bestSource (d.listedSources.filter f) with
  | none =>
    have hm := hmem i hi
    rw [bestSource_eq_none hb] at hm
    cases hm
  | some k =>
    obtain ⟨hk, hbest⟩ := bestSource_best ((pairwise_keys hw).filter _) hb
    exact ⟨k, ⟨(List.mem_filter.mp hk).2, fun j hj => hbest j (hmem j hj)⟩, rfl⟩

end Dev

/-- The sources that a management pair may claim (R384). -/
def offeredTo (d : Dev) (m k : Nat) : Bool :=
  decide ((d.src k).st = .pending) && decide ((d.src k).cls = 0) && bit (d.src k).offered m

namespace Dev

variable {d : Dev}

theorem claim_of_none {page v : Nat} (h : d.bestSource (d.listedSources.filter (d.eligible page v)) = none) :
    d.claim page v = (0xFFF, d) := by rw [claim, h]

theorem claim_of_some {page v k : Nat} (h : d.bestSource (d.listedSources.filter (d.eligible page v)) = some k) :
    d.claim page v = d.claimSource page k := by rw [claim, h]

theorem mclaim_of_none {m : Nat} (h : d.bestSource (d.listedSources.filter (offeredTo d m)) = none) : d.mclaim m = (0xFFF, d) := by
  unfold offeredTo at h
  rw [mclaim, h]

theorem mclaim_of_some {m k : Nat} (h : d.bestSource (d.listedSources.filter (offeredTo d m)) = some k) :
    d.mclaim m = d.claimSource (9 + m) k := by
  unfold offeredTo at h
  rw [mclaim, h]

end Dev

/-! The registers of the claim pages (R386, R387). -/

/-- The row's registers all lie below `hi`. -/
def RegRow.below (hi : Nat) (r : RegRow) : Bool :=
  match r.dims with
  | [] => decide (r.base < hi)
  | d :: _ => decide (0 < d.stride ∧ r.base + d.count * d.stride ≤ hi)

/-- An address at or above `hi` lies on no row below it. -/
theorem findReg_filter_below {a hi : Nat} (ha : hi ≤ a) (l : List RegRow) : findReg a l = findReg a (l.filter fun r => !r.below hi) := by
  induction l with
  | nil => rfl
  | cons r l ih =>
    cases hb : r.below hi with
    | false => simp only [List.filter_cons, hb, Bool.not_false, if_true, findReg, ih]
    | true =>
      have hmiss : r.base ≤ a → splitDims r.dims (a - r.base) = none := by
        intro hbase
        rw [RegRow.below] at hb
        cases hd : r.dims with
        | nil =>
          rw [hd] at hb
          obtain ⟨k, hk⟩ : ∃ k, a - r.base = k + 1 := ⟨a - r.base - 1, by have := of_decide_eq_true hb; omega⟩
          rw [hk]
          rfl
        | cons d ds =>
          rw [hd] at hb
          obtain ⟨hs, hspan⟩ := of_decide_eq_true hb
          have hq : ¬ (a - r.base) / d.stride < d.count := by
            rw [Nat.div_lt_iff_lt_mul hs]
            omega
          rw [splitDims, if_neg hq]
      rw [List.filter_cons_of_neg (by simp [hb]), ← ih, findReg]
      split
      · next hbase => rw [hmiss hbase]
      · rfl

/-- The rows of the partitions' own windows (R315, R387). -/
def pagedRows : List RegRow := regRows.filter fun r => !r.below 0x10000000

set_option maxRecDepth 8000 in
theorem pagedRows_eq : pagedRows = [
  ⟨.LS_CFG, 0x10020000, [⟨8, 0x1000000, 0⟩]⟩, ⟨.LS_STAT, 0x10020008, [⟨8, 0x1000000, 0⟩]⟩, ⟨.LS_CTL, 0x10020010, [⟨8, 0x1000000, 0⟩]⟩,
  ⟨.LS_MIRROR, 0x10020018, [⟨8, 0x1000000, 0⟩]⟩, ⟨.SR_SEED, 0x10020020, [⟨8, 0x1000000, 0⟩]⟩, ⟨.PH_SEL, 0x10020040, [⟨8, 0x1000000, 0⟩]⟩,
  ⟨.PH_AUX, 0x10020048, [⟨8, 0x1000000, 0⟩]⟩, ⟨.PH_BIN, 0x10020400, [⟨8, 0x1000000, 0⟩, ⟨64, 0x8, 0⟩]⟩,
  ⟨.IC_CLAIM, 0x10030000, [⟨9, 0x1000000, 0⟩, ⟨64, 0x8, 0⟩]⟩, ⟨.IC_COMPLETE, 0x10030200, [⟨9, 0x1000000, 0⟩]⟩,
  ⟨.IC_VCOAL, 0x10030400, [⟨9, 0x1000000, 0⟩, ⟨64, 0x8, 0⟩]⟩, ⟨.IC_PSEL, 0x10030800, [⟨9, 0x1000000, 0⟩]⟩,
  ⟨.IC_PCFG, 0x10030808, [⟨9, 0x1000000, 0⟩]⟩, ⟨.IC_PTMASK, 0x10030810, [⟨9, 0x1000000, 0⟩]⟩, ⟨.IC_PSTAT, 0x10030818, [⟨9, 0x1000000, 0⟩]⟩] := by
  rfl

section paged

variable {a base p o : Nat} (c : Nat) {ds : List Dim} (ha : a = base + (0x1000000 * p + o)) (ho : o < 0x1000000)
include ha ho

theorem splitDims_paged : splitDims (⟨c, 0x1000000, 0⟩ :: ds) (a - base) = if p < c then (splitDims ds o).map (p :: ·) else none := by
  have hq : (a - base) / 0x1000000 = p := by omega
  have hr : (a - base) % 0x1000000 = o := by omega
  simp only [splitDims, hq, hr, Nat.add_zero]

theorem findReg_paged_miss (name : RegName) (rs : List RegRow) (hd : splitDims ds o = none) :
    findReg a (⟨name, base, ⟨c, 0x1000000, 0⟩ :: ds⟩ :: rs) = findReg a rs := by
  have hs : splitDims (⟨c, 0x1000000, 0⟩ :: ds) (a - base) = none := by
    rw [splitDims_paged c ha ho, hd]
    split <;> rfl
  simp only [findReg, hs]
  split <;> rfl

theorem findReg_paged_hit (name : RegName) (rs : List RegRow) {i : List Nat} (hp : p < c) (hd : splitDims ds o = some i) :
    findReg a (⟨name, base, ⟨c, 0x1000000, 0⟩ :: ds⟩ :: rs) = some (name, p :: i) := by
  have hs : splitDims (⟨c, 0x1000000, 0⟩ :: ds) (a - base) = some (p :: i) := by
    rw [splitDims_paged c ha ho, hd, if_pos hp]
    rfl
  simp only [findReg, hs]
  exact if_pos (by omega)

end paged

theorem splitDims_nil_ne {o : Nat} (h : o ≠ 0) : splitDims [] o = none := by
  obtain ⟨k, rfl⟩ := Nat.exists_eq_succ_of_ne_zero h
  rfl

theorem splitDims_words {c o : Nat} (h : c * 8 ≤ o) : splitDims [⟨c, 8, 0⟩] o = none := by
  have hq : ¬ o / 8 < c := by
    rw [Nat.div_lt_iff_lt_mul (by decide)]
    omega
  exact if_neg hq

/-- Below the claim pages' rows, the windows hold nothing there. -/
theorem regAt_claimPage (p : Nat) {x : Nat} (hx : x < 0x400) :
    regAt (0x10030000 + (0x1000000 * p + x)) = findReg (0x10030000 + (0x1000000 * p + x)) (pagedRows.drop 8) := by
  rw [regAt, findReg_filter_below (hi := 0x10000000) (by omega), ← pagedRows, pagedRows_eq,
    findReg_paged_miss 8 (p := p) (o := 0x10000 + x) (by omega) (by omega) _ _ (splitDims_nil_ne (by omega)),
    findReg_paged_miss 8 (p := p) (o := 0xFFF8 + x) (by omega) (by omega) _ _ (splitDims_nil_ne (by omega)),
    findReg_paged_miss 8 (p := p) (o := 0xFFF0 + x) (by omega) (by omega) _ _ (splitDims_nil_ne (by omega)),
    findReg_paged_miss 8 (p := p) (o := 0xFFE8 + x) (by omega) (by omega) _ _ (splitDims_nil_ne (by omega)),
    findReg_paged_miss 8 (p := p) (o := 0xFFE0 + x) (by omega) (by omega) _ _ (splitDims_nil_ne (by omega)),
    findReg_paged_miss 8 (p := p) (o := 0xFFC0 + x) (by omega) (by omega) _ _ (splitDims_nil_ne (by omega)),
    findReg_paged_miss 8 (p := p) (o := 0xFFB8 + x) (by omega) (by omega) _ _ (splitDims_nil_ne (by omega)),
    findReg_paged_miss 8 (p := p) (o := 0xFC00 + x) (by omega) (by omega) _ _ (splitDims_words (by omega))]
  rfl

theorem regAt_claim {p v : Nat} (hp : p < 9) (hv : v < 64) : regAt (0x10030000 + (0x1000000 * p + 8 * v)) = some (.IC_CLAIM, [p, v]) := by
  have hd : splitDims [⟨64, 8, 0⟩] (8 * v) = some [v] := by
    have hq : 8 * v / 8 = v := by omega
    have hr : 8 * v % 8 = 0 := by omega
    simp [splitDims, hq, hr, hv]
  rw [regAt_claimPage p (by omega), pagedRows_eq]
  exact findReg_paged_hit 9 rfl (by omega) _ _ hp hd

theorem regAt_complete {p : Nat} (hp : p < 9) : regAt (0x10030000 + (0x1000000 * p + 0x200)) = some (.IC_COMPLETE, [p]) := by
  rw [regAt_claimPage p (by omega), pagedRows_eq]
  exact (findReg_paged_miss 9 rfl (by omega) _ _ (splitDims_words (by omega))).trans
    (findReg_paged_hit 9 (o := 0) (by omega) (by omega) _ _ hp rfl)

theorem regAt_mclaim (m : Fin 2) : regAt (Reg.IRQ_MCLAIM m) = some (.IRQ_MCLAIM, [m.val]) := by
  revert m
  decide

theorem regAt_mcomp (m : Fin 2) : regAt (Reg.IRQ_MCOMP m) = some (.IRQ_MCOMP, [m.val]) := by
  revert m
  decide

namespace Dev

variable {d : Dev}

theorem reachMap_of_regAt {a : Nat} {r : RegName} {i : List Nat} (h : regAt a = some (r, i)) (hc : ¬ (0x1000000 ≤ a ∧ a < 0x1900000))
    (hd : regDomain a = none) : d.reachMap a = .reg r i a := by
  rw [reachMap, h]
  simp only [hd]
  rw [if_neg fun hh => hc ⟨hh.1, hh.2.1⟩]

/-- A claim page's offset in its requester's view reaches its place of the map (Tables DV-6, DV-7). -/
theorem reach_page {page : Fin 9} {o : Nat} (ho : o < 0x1000) (ha : page.val < 8 → d.ptState page ≠ 0) :
    d.reach (pageReq page) (pageOff page o) = d.reachMap (0x10030000 + (0x1000000 * page + o)) := by
  by_cases h : page.val < 8
  · have hv : d.vfAddr page (0x30000 + o) = some (0x10030000 + (0x1000000 * page + o)) := by
      simp only [vfAddr, ha h, if_false]
      repeat rw [if_neg (by omega)]
      rw [if_pos (by omega)]
      exact congrArg some (by omega)
    simp only [pageReq, pageOff, h, dif_pos, if_true, reach, hv]
  · have h8 : page.val = 8 := by omega
    simp only [pageReq, pageOff, h, dif_neg, if_false, reach, not_false_eq_true, pfAddr]
    rw [if_pos (by omega)]
    exact congrArg d.reachMap (by omega)

theorem reachMap_page {a : Nat} {r : RegName} {i : List Nat} (h : regAt a = some (r, i)) (ha : 0x1900000 ≤ a) : d.reachMap a = .reg r i a :=
  reachMap_of_regAt h (by omega) (by
    rw [regDomain]
    repeat rw [if_neg (by omega)])

theorem reachMap_low {a : Nat} {r : RegName} {i : List Nat} (h : regAt a = some (r, i)) (ha : a < 0x400000) : d.reachMap a = .reg r i a :=
  reachMap_of_regAt h (by omega) (by
    rw [regDomain]
    repeat rw [if_neg (by omega)])

theorem mayWrite_complete (r : Requester) : mayWrite r false .IC_COMPLETE = true := by cases r <;> rfl

section page

variable {page : Fin 9} (hu : d.reqUp (pageReq page) = true) (ha : page.val < 8 → d.ptState page ≠ 0)
include hu ha

theorem claimRead_reached (v : Fin 64) :
    d.claimRead page v = (d.claim page v).2.answer (pageReq page) (d.claim page v).1 := by
  have hr : d.reach (pageReq page) (pageOff page (8 * v)) = .reg .IC_CLAIM [page.val, v.val] (0x10030000 + (0x1000000 * page + 8 * v)) :=
    (reach_page (by omega) ha).trans (reachMap_page (regAt_claim page.isLt v.isLt) (by omega))
  rw [claimRead, access_up hu, read64_reg hr (by decide)]
  rfl

theorem completeWrite_reached (n : BitVec 12) : d.completeWrite page n.toNat = d.complete page n.toNat (Reg.IC_COMPLETE page) := by
  have hr : d.reach (pageReq page) (pageOff page 0x200) = .reg .IC_COMPLETE [page.val] (0x10030000 + (0x1000000 * page + 0x200)) :=
    (reach_page (by omega) ha).trans (reachMap_page (regAt_complete page.isLt) (by omega))
  have hn : bits n.toNat 11 0 = n.toNat := by
    have := n.isLt
    simp only [bits]
    omega
  have hreg : 0x10030000 + (0x1000000 * page.val + 0x200) = Reg.IC_COMPLETE page := by
    simp only [Reg.IC_COMPLETE]
    omega
  rw [completeWrite, access_up hu, write64_reg hr (by decide) (mayWrite_complete _), hreg]
  exact congrArg (fun k => d.complete page k (Reg.IC_COMPLETE page)) hn

end page

section management

variable {m : Fin 2} (hu : d.reqUp (.mgmt m) = true)
include hu

theorem managementClaim_reached : d.managementClaim m = (d.mclaim m).2.answer (.mgmt m) (d.mclaim m).1 := by
  have hr : d.reach (.mgmt m) (Reg.IRQ_MCLAIM m) = .reg .IRQ_MCLAIM [m.val] (Reg.IRQ_MCLAIM m) := by
    have hp : pfAddr (Reg.IRQ_MCLAIM m) = Reg.IRQ_MCLAIM m := if_neg (by simp only [Reg.IRQ_MCLAIM]; omega)
    show d.reachMap (pfAddr _) = _
    rw [hp]
    exact reachMap_low (regAt_mclaim m) (by simp only [Reg.IRQ_MCLAIM]; omega)
  rw [managementClaim, access_up hu, read64_reg hr (by decide)]
  rfl

theorem managementComplete_reached (n : BitVec 12) :
    d.managementComplete m n.toNat = d.complete (9 + m) n.toNat (Reg.IRQ_MCOMP m) := by
  have hr : d.reach (.mgmt m) (Reg.IRQ_MCOMP m) = .reg .IRQ_MCOMP [m.val] (Reg.IRQ_MCOMP m) := by
    have hp : pfAddr (Reg.IRQ_MCOMP m) = Reg.IRQ_MCOMP m := if_neg (by simp only [Reg.IRQ_MCOMP]; omega)
    show d.reachMap (pfAddr _) = _
    rw [hp]
    exact reachMap_low (regAt_mcomp m) (by simp only [Reg.IRQ_MCOMP]; omega)
  have hn : bits n.toNat 11 0 = n.toNat := by
    have := n.isLt
    simp only [bits]
    omega
  rw [managementComplete, access_up hu, write64_reg hr (by decide) rfl]
  exact congrArg (fun k => d.complete (9 + m) k (Reg.IRQ_MCOMP m)) hn

end management

/-! Completions (R383). -/

theorem complete_other {page n : Nat} (h : (d.src n).st ≠ .inService ∨ (d.src n).page ≠ page) (addr : Nat) :
    d.complete page n addr = d.hostErr addr := if_pos h

/-- A completion by the claimer: in level mode by RAW, else by what was counted since (Table IC-2). -/
theorem src_complete {page n : Nat} (hs : (d.src n).st = .inService) (hp : (d.src n).page = page) (addr : Nat) :
    ((d.complete page n addr).src n).raw = (d.src n).raw ∧
    ((d.complete page n addr).src n).st =
      (if ((d.src n).level && (d.src n).raw) || (!(d.src n).level && decide (0 < (d.src n).cnt)) then .pending else .idle) ∧
    ((d.complete page n addr).src n).cnt = (if (d.src n).level then b2n (d.src n).raw else (d.src n).cnt) := by
  have hn : ¬ ((d.src n).st ≠ .inService ∨ (d.src n).page ≠ page) := by simp [hs, hp]
  rw [complete, if_neg hn]
  obtain ⟨o1, h1⟩ := src_becomePending n 1 d
  obtain ⟨o2, h2⟩ := src_becomePending n (d.src n).cnt d
  cases hl : (d.src n).level
  · by_cases hc : 0 < (d.src n).cnt
    · simp [hc, h2]
    · simp [Nat.eq_zero_of_not_pos hc]
  · cases hr : (d.src n).raw
    · simp [b2n]
    · simp [h1, b2n, hr]

/-! Vectors (R381). -/

theorem bit_setBit_same (x n : Nat) (v : Bool) : bit (setBit x n v) n = v := by
  rw [setBit]
  split
  · assumption
  · next h =>
    cases v with
    | true =>
      have hb : x.testBit n = false := by simpa [bit_eq_testBit] using h
      rw [if_pos rfl, bit_eq_testBit, testBit_add_two_pow hb]
      simp
    | false =>
      have hb : x.testBit n = true := by simpa [bit_eq_testBit] using h
      obtain ⟨r, rfl, hr⟩ := exists_add_two_pow hb
      rw [if_neg (by decide), Nat.add_sub_cancel, bit_eq_testBit, hr]

theorem coalesceTimeout_none {page v : Nat} (h : tabGet 0 (page * 64 + v) d.undel = 0) : d.coalesceTimeout page v = d := if_pos h

theorem coalesceTimeout_some {page v : Nat} (h : tabGet 0 (page * 64 + v) d.undel ≠ 0) : d.coalesceTimeout page v = d.vecSend page v := if_neg h

theorem undel_vecSend (page v : Nat) (d : Dev) : tabGet 0 (page * 64 + v) (d.vecSend page v).undel = 0 := by
  simp only [vecSend]
  split
  · exact tabGet_tabPut_same ..
  · split <;> exact tabGet_tabPut_same ..

/-- The message of a vector: sent, kept in the PBA while the vector is masked, or neither while MSI-X is off. -/
theorem vecSend_message (page v : Nat) (d : Dev) :
    (bit d.msixEn page = false → (d.vecSend page v).out = d.out ∧ (d.vecSend page v).pba = d.pba) ∧
    (bit d.msixEn page = true → tabGet false (page * 64 + v) d.vmask = true → (d.vecSend page v).out = .msix page v :: d.out) ∧
    (bit d.msixEn page = true → tabGet false (page * 64 + v) d.vmask = false →
      (d.vecSend page v).out = d.out ∧ tabGet false (page * 64 + v) (d.vecSend page v).pba = true) := by
  refine ⟨fun h => ?_, fun h hm => ?_, fun h hm => ?_⟩
  · simp [vecSend, h]
  · simp [vecSend, h, hm, emit]
  · simp [vecSend, h, hm]

theorem vectorControl_fields (page v : Nat) (mask en : Bool) (d : Dev) :
    bit (d.vectorControl page v mask en).msixEn page = en ∧ tabGet false (page * 64 + v) (d.vectorControl page v mask en).vmask = !mask := by
  simp only [vectorControl]
  split <;> exact ⟨bit_setBit_same .., tabGet_tabPut_same ..⟩

theorem vectorControl_sends {page v : Nat} (h : tabGet false (page * 64 + v) d.pba = true) :
    tabGet false (page * 64 + v) (d.vectorControl page v false true).pba = false ∧
    (d.vectorControl page v false true).out = .msix page v :: d.out := by
  simp [vectorControl, h, emit]

theorem vectorControl_keeps {page v : Nat} {mask en : Bool} (h : mask = true ∨ en = false ∨ tabGet false (page * 64 + v) d.pba = false) :
    (d.vectorControl page v mask en).pba = d.pba ∧ (d.vectorControl page v mask en).out = d.out := by
  have hn : (!mask && en && tabGet false (page * 64 + v) d.pba) = false := by
    rcases h with rfl | rfl | h <;> simp [*]
  simp [vectorControl, hn]

end Dev

section rows

variable (s : State) (n : BitVec 12)

theorem completes_sourceEnable (en level : Bool) (cls : BitVec 2) (prio : BitVec 3) : Completes (.sourceEnable n en level cls prio) s
    (if Dev.srcReal n.toNat then s.dev.sourceConfig n.toNat en level cls.toNat prio.toNat else s.dev) := rfl
theorem completes_rawClear : Completes (.rawClear n) s (s.dev.rawClear n.toNat) := rfl
theorem completes_offerTimeout : Completes (.offerTimeout n) s (s.dev.offerTimeout n.toNat) := rfl
theorem completes_claim (page : Fin 9) (v : Fin 64) : Completes (.claim page v) s (s.dev.claimRead page v) := rfl
theorem completes_complete (page : Fin 9) : Completes (.complete page n) s (s.dev.completeWrite page n.toNat) := rfl
theorem completes_managementClaim (m : Fin 2) : Completes (.managementClaim m) s (s.dev.managementClaim m) := rfl
theorem completes_managementComplete (m : Fin 2) : Completes (.managementComplete m n) s (s.dev.managementComplete m n.toNat) := rfl
theorem completes_coalesceTimeout (page : Fin 9) (v : Fin 64) : Completes (.coalesceTimeout page v) s (s.dev.coalesceTimeout page v) := rfl
theorem completes_vectorUnmask (page : Fin 9) (v : Fin 64) (mask en : Bool) :
    Completes (.vectorUnmask page v mask en) s (s.dev.vectorControl page v mask en) := rfl

end rows

open Dev in
/-- Settles O51: an arrival by the source's state, and a configuration by whether it disables, pends or only stores. -/
theorem sourcesFollowTheirStates : Obligations.SourcesFollowTheirStates := by
  intro s n en level cls prio k x cmd real y
  have hraw : (s.dev.setSrc n.toNat { x with raw := true }).src n.toNat = { x with raw := true } := src_setSrc_same ..
  refine ⟨fun h => ⟨irqEvent_reserved h _, (completes_sourceEnable s n ..).of_eq (if_neg h)⟩,
    fun h => ⟨raw_irqEvent h _, ?tmask⟩, fun h he => ?disabled, fun h he hs => ?idle, fun h he hs => ?pending, fun h he hs => ?inService,
    fun hk => src_irqEvent_ne hk _, fun h => ⟨_, (completes_sourceEnable s n ..).of_eq (if_pos h), ?config⟩,
    fun h => (completes_rawClear s n).of_eq (if_pos h), fun h => (completes_rawClear s n).of_eq (if_neg (by simp [h])),
    fun h => (completes_offerTimeout s n).of_eq (if_pos (by tauto)), fun hs hc ho => (completes_offerTimeout s n).of_eq (if_neg ?waits)⟩
  case tmask => simp only [y, irqEvent_real h, tmask_srcArrive, src_setSrc_same, x]
  case disabled =>
    simp only [y]
    rw [irqEvent_real h, srcArrive_disabled (by rw [hraw]; exact he), hraw]
    exact ⟨rfl, rfl⟩
  case idle =>
    obtain ⟨o, ho⟩ := src_srcArrive_idle (d := s.dev.setSrc n.toNat { x with raw := true }) (n := n.toNat) (by rw [hraw]; exact he)
      (by rw [hraw]; exact hs)
    simp only [y]
    rw [irqEvent_real h, ho]
    exact ⟨rfl, rfl⟩
  case pending =>
    simp only [y]
    rw [irqEvent_real h, src_srcArrive_pending (by rw [hraw]; exact he) (by rw [hraw]; exact hs), hraw]
    exact ⟨hs, rfl⟩
  case inService =>
    simp only [y]
    rw [irqEvent_real h, src_srcArrive_inService (by rw [hraw]; exact he) (by rw [hraw]; exact hs), hraw]
    exact ⟨hs, rfl⟩
  case config =>
    refine ⟨?en, ?level, ?prio, ?raw, fun h3 => (cls_sourceConfig ..).trans ?cls3, fun h2 ho => (cls_sourceConfig ..).trans ?cls2, fun hc => (cls_sourceConfig ..).trans ?cls,
      fun he => ?off, fun he hn hl hr hi => ?pends, fun he hn => ?keeps⟩
    case en | level | prio | raw =>
      obtain ⟨st, cnt, o, hsrc⟩ := src_sourceConfig n.toNat en level cls.toNat prio.toNat s.dev
      simp only [y, hsrc]
      rfl
    case cls3 => exact if_pos (.inl (congrArg BitVec.toNat h3))
    case cls2 => exact if_pos (.inr ⟨congrArg BitVec.toNat h2, by rw [ho]; rfl⟩)
    case cls =>
      refine if_neg ?_
      rcases hc with rfl | rfl | ⟨rfl, ho⟩
      · simp
      · simp
      · simpa using ho
    case off =>
      subst he
      simp only [y]
      rw [sourceConfig_disables, srcIdle, src_setSrc_same]
      exact ⟨rfl, rfl⟩
    case pends =>
      subst he
      obtain ⟨o, ho⟩ := src_becomePending n.toNat 1 (s.dev.setSrc n.toNat (s.dev.configured n.toNat true level cls.toNat prio.toNat))
      simp only [y]
      rw [sourceConfig_enables ⟨by simpa using hn, hl, hr, hi⟩, ho]
      exact ⟨rfl, rfl⟩
    case keeps =>
      subst he
      have hstores : ¬ (¬ x.en = true ∧ level = true ∧ x.raw = true ∧ x.st = .idle) := fun ⟨h1, h2, h3, h4⟩ => by
        rcases hn with h | h | h | h
        · exact h1 h
        · exact absurd h2 (by simp [h])
        · exact absurd h3 (by simp [h])
        · exact h h4
      simp only [y]
      rw [sourceConfig_stores hstores, src_setSrc_same]
      exact ⟨rfl, rfl⟩
  case waits =>
    have : x.st = .pending ∧ x.cls = 0 ∧ x.offered ≠ 3 ∧ x.offered ≠ 0 := ⟨hs, hc, by omega, by omega⟩
    tauto

open Dev in
/-- Settles O52: a claim takes the best of the sources that `bestSource` sees, and a completion acts on its claimer's source. -/
theorem claimsServeTheBestSource : Obligations.ClaimsServeTheBestSource := by
  intro s page v n m mask en r reached mine offered best value taken x done key wait
  have hcomplete (pg addr : Nat) (i : Instr) (hc : Completes i s (s.dev.complete pg n.toNat addr)) : done pg i :=
    fun hs hp => ⟨_, hc, src_complete hs hp addr⟩
  have hmine : ∀ k, mine k = true → (s.dev.src k).st = .pending := fun k hk => by
    simp only [mine, eligible, Bool.and_eq_true, decide_eq_true_eq] at hk
    exact hk.1.1
  have hoffered : ∀ k, offered k = true → (s.dev.src k).st = .pending := fun k hk => by
    simp only [offered, Bool.and_eq_true, decide_eq_true_eq] at hk
    exact hk.1.1
  have hclaim : reached → Completes (.claim page v) s ((s.dev.claim page v).2.answer r (s.dev.claim page v).1) :=
    fun h => (completes_claim s page v).of_eq (claimRead_reached h.1 h.2 v)
  have hmclaim : s.dev.reqUp (.mgmt m) = true →
      Completes (.managementClaim m) s ((s.dev.mclaim m).2.answer (.mgmt m) (s.dev.mclaim m).1) :=
    fun h => (completes_managementClaim s m).of_eq (managementClaim_reached h)
  have hcomp : reached → Completes (.complete page n) s (s.dev.complete page n.toNat (Reg.IC_COMPLETE page)) :=
    fun h => (completes_complete s n page).of_eq (completeWrite_reached h.1 h.2 n)
  have hmcomp : s.dev.reqUp (.mgmt m) = true →
      Completes (.managementComplete m n) s (s.dev.complete (9 + m) n.toNat (Reg.IRQ_MCOMP m)) :=
    fun h => (completes_managementComplete s n m).of_eq (managementComplete_reached h n)
  refine ⟨fun h hn => (hclaim h).of_eq ?noClaim, fun h hw hk => ?claim, fun h hn => (hmclaim h).of_eq ?noMclaim, fun h hw hk => ?mclaim,
    fun he hs hr => ?arrival, fun h => hcomplete _ _ _ (hcomp h), fun h ho => (hcomp h).of_eq (complete_other ho _),
    fun h => hcomplete _ _ _ (hmcomp h), fun h ho => (hmcomp h).of_eq (complete_other ho _),
    fun h => (completes_coalesceTimeout s page v).of_eq (coalesceTimeout_none h),
    fun h => ⟨_, (completes_coalesceTimeout s page v).of_eq (coalesceTimeout_some h), undel_vecSend .., vecSend_message ..⟩,
    ⟨_, completes_vectorUnmask s page v mask en, (vectorControl_fields ..).1, (vectorControl_fields ..).2, ?_, vectorControl_keeps⟩⟩
  case noClaim => rw [claim_of_none (bestSource_listed_none hn)]
  case claim =>
    obtain ⟨k, hbest, hsome⟩ := bestSource_listed_some hw hmine hk
    exact ⟨k, hbest, (hclaim h).of_eq (by rw [claim_of_some hsome]; rfl)⟩
  case noMclaim => rw [mclaim_of_none (bestSource_listed_none hn)]
  case mclaim =>
    obtain ⟨k, hbest, hsome⟩ := bestSource_listed_some hw hoffered hk
    exact ⟨k, hbest, (hmclaim h).of_eq (by rw [mclaim_of_some hsome]; rfl)⟩
  case arrival =>
    have hraw : (s.dev.setSrc n.toNat { x with raw := true }).src n.toNat = { x with raw := true } := src_setSrc_same ..
    rw [irqEvent_real hr, src_srcArrive_inService (by rw [hraw]; exact he) (by rw [hraw]; exact hs), hraw]
    rfl
  · rintro rfl rfl h
    exact vectorControl_sends h

end Sys2Proof.Machine
end

section
/-!
The error banks (R365 to R367): what an arriving record, an acknowledgement and an escalation leave in a bank's words and counts, in
its sources and at ALERT_N; and what the entry to a quiet scope sets (R360 to R364).
-/
namespace Sys2Proof.Machine

/-- A record's valid bit is set, and its severity stands above it (Table FT-4). -/
theorem ErrArgs.word0_low (a : ErrArgs) : bit a.word0 0 = true ∧ bits a.word0 2 1 = a.sev % 4 := by
  have hlow : ∃ k, a.word0 = 1 + a.sev % 4 * 2 + 8 * k :=
    ⟨a.cls % 256 + (a.part.getD 0) % 8 * 2 ^ 8 + b2n a.part.isSome * 2 ^ 11 + a.qscope % 4 * 2 ^ 12 + a.unit % 2 ^ 15 * 2 ^ 14 +
      a.info % 2 ^ 32 * 2 ^ 29, by simp only [ErrArgs.word0]; omega⟩
  obtain ⟨k, hk⟩ := hlow
  rw [hk]
  exact ⟨decide_eq_true (by omega), by simp only [bits]; omega⟩

theorem b2n_le (b : Bool) : b2n b ≤ 1 := by cases b <;> decide

theorem ErrArgs.word0_lt (a : ErrArgs) : a.word0 < 2 ^ 64 := by
  have hb := b2n_le a.part.isSome
  simp only [ErrArgs.word0]
  omega

namespace Dev

variable {d : Dev} {b i : Nat} {f : Fld}

/-! A bank's words. -/

/-- The four words of a record. -/
def recWord (w0 w1 w2 w3 i : Nat) : Nat := [w0, w1, w2, w3][i]?.getD 0

theorem recWord_mod {w0 w1 w2 w3 : Nat} (h0 : w0 < 2 ^ 64) (h1 : w1 < 2 ^ 64) (h3 : w3 < 2 ^ 64) (hi : i < 4) :
    recWord w0 (w1 % 2 ^ 64) w2 (w3 % 2 ^ 64) i % 2 ^ 64 = [w0, w1, w2 % 2 ^ 64, w3][i]?.getD 0 := by
  match i, hi with
  | 0, _ => exact Nat.mod_eq_of_lt h0
  | 1, _ => exact (Nat.mod_mod w1 _).trans (Nat.mod_eq_of_lt h1)
  | 2, _ => rfl
  | 3, _ => exact (Nat.mod_mod w3 _).trans (Nat.mod_eq_of_lt h3)

theorem recWord_zero (hi : i < 4) : recWord 0 0 0 0 i % 2 ^ 64 = 0 := by
  match i, hi with
  | 0, _ | 1, _ | 2, _ | 3, _ => rfl

theorem recWord_pend (hi : i < 4) :
    recWord (d.rd (Reg.ERR_Q_WORD b 0)) (d.rd (Reg.ERR_Q_WORD b 1)) (d.rd (Reg.ERR_Q_WORD b 2)) (d.rd (Reg.ERR_Q_WORD b 3)) i =
      d.rd (Reg.ERR_Q_WORD b i) := by
  match i, hi with
  | 0, _ | 1, _ | 2, _ | 3, _ => rfl

theorem key_prim_inj {j : Nat} (h : i ≠ j) : (Reg.ERR_P_WORD b i).key ≠ (Reg.ERR_P_WORD b j).key := by
  simp only [Fld.key, Reg.ERR_P_WORD, Reg.ERR_P]
  omega

theorem key_pend_inj {j : Nat} (h : i ≠ j) : (Reg.ERR_Q_WORD b i).key ≠ (Reg.ERR_Q_WORD b j).key := by
  simp only [Fld.key, Reg.ERR_Q_WORD, Reg.ERR_Q]
  omega

/-- The field is none of the bank's words. -/
def OffWords (b : Nat) (f : Fld) : Prop := ∀ w < 4, f.key ≠ (Reg.ERR_P_WORD b w).key ∧ f.key ≠ (Reg.ERR_Q_WORD b w).key

/-- The bank's status and configuration stand below its words. -/
theorem offWords_low {lo width reset : Nat} {ty : FTy} {a : Nat} (ha : a < 0x51020 + 0x80 * b) (hl : lo < 64) :
    OffWords b ⟨a, lo, width, ty, reset⟩ := by
  intro w hw
  simp only [Fld.key, Reg.ERR_P_WORD, Reg.ERR_P, Reg.ERR_Q_WORD, Reg.ERR_Q]
  omega

theorem vstby_setPend (w0 w1 w2 w3 : Nat) (d : Dev) : (d.setPend b w0 w1 w2 w3).vstby = d.vstby := rfl

section words

variable (w0 w1 w2 w3 : Nat) (d : Dev)

theorem prim_setPrim (hi : i < 4) : (d.setPrim b w0 w1 w2 w3).rd (Reg.ERR_P_WORD b i) = recWord w0 w1 w2 w3 i % 2 ^ 64 := by
  have ne {j : Nat} (h : i ≠ j) (v : Nat) (d : Dev) : (d.wr (Reg.ERR_P_WORD b j) v).rd (Reg.ERR_P_WORD b i) = d.rd (Reg.ERR_P_WORD b i) :=
    rd_wr_ne _ _ _ _ (key_prim_inj h)
  simp only [setPrim]
  match i, hi with
  | 0, _ => rw [ne (by decide), ne (by decide), ne (by decide), rd_wr_same]; rfl
  | 1, _ => rw [ne (by decide), ne (by decide), rd_wr_same]; rfl
  | 2, _ => rw [ne (by decide), rd_wr_same]; rfl
  | 3, _ => rw [rd_wr_same]; rfl

theorem pend_setPend (hi : i < 4) : (d.setPend b w0 w1 w2 w3).rd (Reg.ERR_Q_WORD b i) = recWord w0 w1 w2 w3 i % 2 ^ 64 := by
  have ne {j : Nat} (h : i ≠ j) (v : Nat) (d : Dev) : (d.wr (Reg.ERR_Q_WORD b j) v).rd (Reg.ERR_Q_WORD b i) = d.rd (Reg.ERR_Q_WORD b i) :=
    rd_wr_ne _ _ _ _ (key_pend_inj h)
  simp only [setPend]
  match i, hi with
  | 0, _ => rw [ne (by decide), ne (by decide), ne (by decide), rd_wr_same]; rfl
  | 1, _ => rw [ne (by decide), ne (by decide), rd_wr_same]; rfl
  | 2, _ => rw [ne (by decide), rd_wr_same]; rfl
  | 3, _ => rw [rd_wr_same]; rfl

theorem rd_setPrim_ne (h : ∀ w < 4, f.key ≠ (Reg.ERR_P_WORD b w).key) : (d.setPrim b w0 w1 w2 w3).rd f = d.rd f := by
  simp only [setPrim]
  rw [rd_wr_ne _ _ _ _ (h 3 (by decide)), rd_wr_ne _ _ _ _ (h 2 (by decide)), rd_wr_ne _ _ _ _ (h 1 (by decide)),
    rd_wr_ne _ _ _ _ (h 0 (by decide))]

theorem rd_setPend_ne (h : ∀ w < 4, f.key ≠ (Reg.ERR_Q_WORD b w).key) : (d.setPend b w0 w1 w2 w3).rd f = d.rd f := by
  simp only [setPend]
  rw [rd_wr_ne _ _ _ _ (h 3 (by decide)), rd_wr_ne _ _ _ _ (h 2 (by decide)), rd_wr_ne _ _ _ _ (h 1 (by decide)),
    rd_wr_ne _ _ _ _ (h 0 (by decide))]

theorem pend_setPrim (hi : i < 4) : (d.setPrim b w0 w1 w2 w3).rd (Reg.ERR_Q_WORD b i) = d.rd (Reg.ERR_Q_WORD b i) := by
  refine rd_setPrim_ne _ _ _ _ _ fun w hw => ?_
  simp only [Fld.key, Reg.ERR_P_WORD, Reg.ERR_P, Reg.ERR_Q_WORD, Reg.ERR_Q]
  omega

theorem prim_setPend (hi : i < 4) : (d.setPend b w0 w1 w2 w3).rd (Reg.ERR_P_WORD b i) = d.rd (Reg.ERR_P_WORD b i) := by
  refine rd_setPend_ne _ _ _ _ _ fun w hw => ?_
  simp only [Fld.key, Reg.ERR_P_WORD, Reg.ERR_P, Reg.ERR_Q_WORD, Reg.ERR_Q]
  omega

theorem rd_becomePrim_eq (f : Fld) : (d.becomePrim b w0 w1 w2 w3).rd f = (d.setPrim b w0 w1 w2 w3).rd f := by
  simp only [becomePrim, rd_alertPin, rd_irqEvent]
  rfl

end words

/-! ALERT_N and the new-error event. -/

/-- A FATAL primary asserts ALERT_N while standby power is present (R367). -/
theorem alertN_alertPin_fatal (hb : b < 64) (hp : d.bankPrim b = true) (hs : d.bankSev b = 3) : d.alertPin.pins.alertN = d.vstby := by
  have hany : ((List.range 64).any fun b => ((d.flag Reg.RST_STAT_READY && !d.flag Reg.RST_STAT_INRESET) && d.flag (Reg.ERR_STAT_ESC b)) ||
      (d.bankPrim b && decide (d.bankSev b = 3))) = true :=
    List.any_eq_true.mpr ⟨b, List.mem_range.mpr hb, by simp [hp, hs]⟩
  simp only [alertPin, hany, Bool.and_true]

/-- So does an escalation outside a reset. -/
theorem alertN_alertPin_escalated (hb : b < 64) (hr : d.flag Reg.RST_STAT_READY = true) (hi : d.flag Reg.RST_STAT_INRESET = false)
    (he : d.flag (Reg.ERR_STAT_ESC b) = true) : d.alertPin.pins.alertN = d.vstby := by
  have hany : ((List.range 64).any fun b => ((d.flag Reg.RST_STAT_READY && !d.flag Reg.RST_STAT_INRESET) && d.flag (Reg.ERR_STAT_ESC b)) ||
      (d.bankPrim b && decide (d.bankSev b = 3))) = true :=
    List.any_eq_true.mpr ⟨b, List.mem_range.mpr hb, by simp [hr, hi, he]⟩
  simp only [alertPin, hany, Bool.and_true]

theorem srcReal_bank (hb : b < 64) : srcReal (256 + 4 * b) = true ∧ srcReal (256 + 4 * b + 1) = true := by
  simp only [srcReal]
  constructor
  all_goals
    rw [if_neg (by omega), if_neg (by omega), if_pos (by omega)]
    simp only [decide_eq_true_eq]
    omega

theorem raw_becomePrim (hb : b < 64) (w0 w1 w2 w3 : Nat) (d : Dev) : ((d.becomePrim b w0 w1 w2 w3).src (256 + 4 * b)).raw = true :=
  raw_irqEvent (srcReal_bank hb).1 _

theorem vstby_becomePrim (hb : b < 64) (w0 w1 w2 w3 : Nat) (d : Dev) : (d.becomePrim b w0 w1 w2 w3).vstby = d.vstby := by
  rw [(becomePrim_records d hb w0 w1 w2 w3).rest]

theorem alertN_becomePrim (hb : b < 64) {w0 : Nat} (hlt : w0 < 2 ^ 64) (hv : bit w0 0 = true) (hs : bits w0 2 1 = 3) (w1 w2 w3 : Nat) (d : Dev) :
    (d.becomePrim b w0 w1 w2 w3).pins.alertN = d.vstby := by
  have h0 (e : Dev) : (e.setPrim b w0 w1 w2 w3).rd (Reg.ERR_P_WORD b 0) = w0 :=
    (prim_setPrim w0 w1 w2 w3 e (i := 0) (by decide)).trans (Nat.mod_eq_of_lt hlt)
  refine .trans (alertN_alertPin_fatal hb ?_ ?_) (vstby_becomePrim hb w0 w1 w2 w3 d)
  · rw [bankPrim, rd_irqEvent]
    exact (congrArg (bit · 0) (h0 d)).trans hv
  · rw [bankSev, rd_irqEvent]
    exact (congrArg (bits · 2 1) (h0 d)).trans hs

/-! Drops and escalation. -/

theorem rd_escalate_ne (h : f.key ≠ (Reg.ERR_STAT_ESC b).key) (d : Dev) : (d.escalate b).rd f = d.rd f := by
  rw [escalate, rd_alertPin, rd_irqEvent]
  exact rd_setF_ne h

theorem rd_bankDrop_ne (ho : f.key ≠ (Reg.ERR_STAT_OVF b).key) (he : f.key ≠ (Reg.ERR_STAT_ESC b).key) (d : Dev) :
    (d.bankDrop b).rd f = d.rd f := by
  have counted : (d.incSat (Reg.ERR_STAT_OVF b) 1).rd f = d.rd f := rd_wr_ne _ _ _ _ ho
  simp only [bankDrop]
  split
  · rw [rd_escalate_ne he, counted]
  · exact counted

theorem flag_preempt_bankDrop (d : Dev) : (d.bankDrop b).flag (Reg.ERR_STAT_PREEMPT b) = d.flag (Reg.ERR_STAT_PREEMPT b) := by
  rw [flag, rd_bankDrop_ne (by simp [Fld.key, Reg.ERR_STAT_PREEMPT, Reg.ERR_STAT_OVF])
    (by simp [Fld.key, Reg.ERR_STAT_PREEMPT, Reg.ERR_STAT_ESC]), ← flag]

theorem ovf_bankDrop (d : Dev) : (d.bankDrop b).rd (Reg.ERR_STAT_OVF b) = satAdd 32 (d.rd (Reg.ERR_STAT_OVF b)) 1 := by
  have counted : (d.incSat (Reg.ERR_STAT_OVF b) 1).rd (Reg.ERR_STAT_OVF b) = satAdd 32 (d.rd (Reg.ERR_STAT_OVF b)) 1 := by
    rw [incSat, rd_wr_same]
    exact Nat.mod_eq_of_lt (by simp only [satAdd, Reg.ERR_STAT_OVF]; omega)
  have hne : (Reg.ERR_STAT_OVF b).key ≠ (Reg.ERR_STAT_ESC b).key := by simp [Fld.key, Reg.ERR_STAT_OVF, Reg.ERR_STAT_ESC]
  simp only [bankDrop]
  split
  · rw [rd_escalate_ne hne, counted]
  · exact counted

theorem src_bankDrop_ne {n : Nat} (h : n ≠ 256 + 4 * b + 1) (d : Dev) : (d.bankDrop b).src n = d.src n := by
  simp only [bankDrop]
  split
  · exact src_irqEvent_ne h _
  · rfl

/-- A drop leaves ALERT_N asserted for the FATAL primary. -/
theorem alertN_bankDrop_fatal (hb : b < 64) (hp : d.bankPrim b = true) (hs : d.bankSev b = 3) (ha : d.pins.alertN = d.vstby) :
    (d.bankDrop b).pins.alertN = d.vstby := by
  have hne : (Reg.ERR_P_WORD b 0).key ≠ (Reg.ERR_STAT_OVF b).key ∧ (Reg.ERR_P_WORD b 0).key ≠ (Reg.ERR_STAT_ESC b).key := by
    simp only [Fld.key, Reg.ERR_P_WORD, Reg.ERR_P, Reg.ERR_STAT_OVF, Reg.ERR_STAT_ESC, Reg.ERR_STAT]
    omega
  have hrd : (((d.incSat (Reg.ERR_STAT_OVF b) 1).setF (Reg.ERR_STAT_ESC b)).irqEvent (256 + 4 * b + 1)).rd (Reg.ERR_P_WORD b 0) =
      d.rd (Reg.ERR_P_WORD b 0) := by
    rw [rd_irqEvent, rd_setF_ne hne.2]
    exact rd_wr_ne _ _ _ _ hne.1
  simp only [bankDrop]
  split
  · rw [escalate, alertN_alertPin_fatal hb (by rw [bankPrim, hrd]; exact hp) (by rw [bankSev, hrd]; exact hs)]
    rw [irqEvent_sources]
    rfl
  · exact ha

/-! A record's arrival, by what the bank holds (R365). -/

variable {w0 w1 w2 w3 : Nat}

/-- The record pre-empts the bank's primary. -/
def Preempts (d : Dev) (b w0 : Nat) : Prop := bits w0 2 1 = 3 ∧ d.bankSev b < 3

theorem bankArrive_empty (h : d.bankPrim b = false) : d.bankArrive b w0 w1 w2 w3 = d.becomePrim b w0 w1 w2 w3 := if_pos (by simp [h])

theorem bankArrive_second (h : d.bankPrim b = true) (hn : ¬ d.Preempts b w0) (hq : d.bankPend b = false) :
    d.bankArrive b w0 w1 w2 w3 = d.setPend b w0 w1 w2 w3 := by
  rw [bankArrive, if_neg (by simp [h])]
  exact (if_neg hn).trans (if_pos (by simp [hq]))

theorem bankArrive_full (h : d.bankPrim b = true) (hn : ¬ d.Preempts b w0) (hq : d.bankPend b = true) :
    d.bankArrive b w0 w1 w2 w3 = d.bankDrop b := by
  rw [bankArrive, if_neg (by simp [h])]
  exact (if_neg hn).trans (if_neg (by simp [hq]))

/-- The bank after the displaced record became pending and the new one primary. -/
def preempted (d : Dev) (b w0 w1 w2 w3 : Nat) : Dev :=
  ((d.setPend b (d.rd (Reg.ERR_P_WORD b 0)) (d.rd (Reg.ERR_P_WORD b 1)) (d.rd (Reg.ERR_P_WORD b 2)) (d.rd (Reg.ERR_P_WORD b 3))).becomePrim
    b w0 w1 w2 w3).setF (Reg.ERR_STAT_PREEMPT b)

theorem bankArrive_preempts (h : d.bankPrim b = true) (hp : d.Preempts b w0) : d.bankArrive b w0 w1 w2 w3 =
    if d.bankPend b then (d.preempted b w0 w1 w2 w3).bankDrop b else d.preempted b w0 w1 w2 w3 := by
  rw [bankArrive, if_neg (by simp [h])]
  exact if_pos hp

theorem rd_preempted_stat {lo width reset : Nat} {ty : FTy} (hl : lo < 64)
    (hk : (⟨Reg.ERR_STAT b, lo, width, ty, reset⟩ : Fld).key ≠ (Reg.ERR_STAT_PREEMPT b).key) :
    (d.preempted b w0 w1 w2 w3).rd ⟨Reg.ERR_STAT b, lo, width, ty, reset⟩ = d.rd ⟨Reg.ERR_STAT b, lo, width, ty, reset⟩ := by
  have hoff : OffWords b ⟨Reg.ERR_STAT b, lo, width, ty, reset⟩ := offWords_low (by simp only [Reg.ERR_STAT]; omega) hl
  rw [preempted, rd_setF_ne hk, rd_becomePrim_eq, rd_setPrim_ne _ _ _ _ _ fun w hw => (hoff w hw).1,
    rd_setPend_ne _ _ _ _ _ fun w hw => (hoff w hw).2]

theorem vstby_preempted (hb : b < 64) : (d.preempted b w0 w1 w2 w3).vstby = d.vstby := by
  rw [← vstby_setPend (b := b) (d.rd (Reg.ERR_P_WORD b 0)) (d.rd (Reg.ERR_P_WORD b 1)) (d.rd (Reg.ERR_P_WORD b 2)) (d.rd (Reg.ERR_P_WORD b 3)) d]
  exact vstby_becomePrim hb ..

theorem words_preempted (hi : i < 4) :
    (d.preempted b w0 w1 w2 w3).rd (Reg.ERR_P_WORD b i) = recWord w0 w1 w2 w3 i % 2 ^ 64 ∧
    (d.preempted b w0 w1 w2 w3).rd (Reg.ERR_Q_WORD b i) = d.rd (Reg.ERR_P_WORD b i) % 2 ^ 64 := by
  have hoff : OffWords b (Reg.ERR_STAT_PREEMPT b) := offWords_low (by simp only [Reg.ERR_STAT]; omega) (by decide)
  have hold : recWord (d.rd (Reg.ERR_P_WORD b 0)) (d.rd (Reg.ERR_P_WORD b 1)) (d.rd (Reg.ERR_P_WORD b 2)) (d.rd (Reg.ERR_P_WORD b 3)) i =
      d.rd (Reg.ERR_P_WORD b i) := by
    match i, hi with
    | 0, _ | 1, _ | 2, _ | 3, _ => rfl
  constructor
  · rw [preempted, rd_setF_ne (hoff i hi).1.symm, rd_becomePrim_eq, prim_setPrim _ _ _ _ _ hi]
  · rw [preempted, rd_setF_ne (hoff i hi).2.symm, rd_becomePrim_eq, pend_setPrim _ _ _ _ _ hi, pend_setPend _ _ _ _ _ hi, hold]

theorem ovf_preempted : (d.preempted b w0 w1 w2 w3).rd (Reg.ERR_STAT_OVF b) = d.rd (Reg.ERR_STAT_OVF b) :=
  rd_preempted_stat (by decide) (by simp [Fld.key, Reg.ERR_STAT_PREEMPT])

theorem flag_preempted : (d.preempted b w0 w1 w2 w3).flag (Reg.ERR_STAT_PREEMPT b) = true := by
  rw [flag, preempted, rd_setF_same rfl]
  rfl

theorem raw_preempted (hb : b < 64) : ((d.preempted b w0 w1 w2 w3).src (256 + 4 * b)).raw = true := raw_becomePrim hb ..

section fatal

variable (hb : b < 64) (hlt : w0 < 2 ^ 64) (hv : bit w0 0 = true) (hs : bits w0 2 1 = 3)
include hb hlt hv hs

theorem alertN_preempted : (d.preempted b w0 w1 w2 w3).pins.alertN = d.vstby := by
  refine (alertN_becomePrim hb hlt hv hs w1 w2 w3 _).trans ?_
  exact vstby_setPend ..

theorem alertN_preempted_dropped : ((d.preempted b w0 w1 w2 w3).bankDrop b).pins.alertN = d.vstby := by
  have h0 : (d.preempted b w0 w1 w2 w3).rd (Reg.ERR_P_WORD b 0) = w0 := (words_preempted (i := 0) (by decide)).1.trans (Nat.mod_eq_of_lt hlt)
  refine (alertN_bankDrop_fatal hb ?_ ?_ ?_).trans (vstby_preempted hb)
  · rw [bankPrim, h0, hv]
  · rw [bankSev, h0, hs]
  · exact (alertN_preempted hb hlt hv hs).trans (vstby_preempted hb).symm

end fatal

end Dev

/-! The entry to a quiet scope (R360 to R362). -/

namespace Dev

variable {d : Dev} {p c why : Nat}

theorem bit_lor (x y k : Nat) : bit (Nat.lor x y) k = (bit x k || bit y k) := by
  simp only [bit_eq_testBit]
  exact Nat.testBit_lor ..

theorem stopCores_cores (l : List Nat) (why : Nat) (d : Dev) : d.stopCores l why = { d with cores := (d.stopCores l why).cores } :=
  foldl_keeps (fun x : Dev => x = { d with cores := x.cores }) _ l d rfl fun x k hx => by rw [hx]; rfl

theorem bit_stopReq_keeps {k j : Nat} (h : bit (d.core c).stopReq j = true) : bit ((d.stopReq k why).core c).stopReq j = true := by
  by_cases hk : c = k
  · subst hk
    rw [stopReq, updCore, core_setCore_same, bit_lor, h, Bool.true_or]
  · rwa [stopReq, updCore, core_setCore_ne _ _ _ _ hk]

/-- Every core of the list is asked to stop (R73). -/
theorem bit_stopCores {l : List Nat} {j : Nat} (hj : bit why j = true) (h : c ∈ l) (d : Dev) :
    bit ((d.stopCores l why).core c).stopReq j = true := by
  refine foldl_reaches (before := fun _ => True) (after := fun x : Dev => bit (x.core c).stopReq j = true) h trivial
    (fun _ _ _ _ => trivial) (fun x _ => ?_) fun x hx k _ => bit_stopReq_keeps hx
  rw [stopReq, updCore, core_setCore_same, bit_lor, hj, Bool.or_true]

/-! Partition scope (R361 to R364). -/

section scope

variable (cls block info extra : Nat)

/-- The record of an entry and its blocking cause. -/
def quietNoted (d : Dev) (p cls block info extra : Nat) : Dev :=
  let d := d.err (48 + p) { sev := 2, cls := cls, part := some p, qscope := 1, info := info, extra := extra }
  d.wr (Reg.QT_PCAUSE_BLOCK p) (Nat.lor (d.rd (Reg.QT_PCAUSE_BLOCK p)) (2 ^ block))

/-- A partition as its entry leaves it. -/
def quietClosed (d : Dev) (p cls : Nat) : Dev :=
  ((d.wr (Reg.QT_PCAUSE_FIRST p) cls).updPart p fun x => { x with quiet := true, entering := true, held := true }).quietPin

theorem quietNoted_rest (hp : p < 8) : ∃ e, OnlyRecords d e ∧ d.quietNoted p cls block info extra = e :=
  ⟨_, (err_records d (by omega) _).trans (wr_records _ (by simp only [Reg.QT_PCAUSE_BLOCK, Reg.QT_PCAUSE]; omega)
    (by simp [Reg.QT_PCAUSE_BLOCK]) _), rfl⟩

theorem part_quietNoted (hp : p < 8) (q : Nat) : (d.quietNoted p cls block info extra).part q = d.part q := by
  obtain ⟨e, he, hn⟩ := quietNoted_rest cls block info extra (d := d) hp
  rw [hn, part, he.rest]
  rfl

theorem coresOf_quietNoted (hp : p < 8) : (d.quietNoted p cls block info extra).coresOf p = d.coresOf p := by
  simp only [coresOf, part_quietNoted cls block info extra hp]

theorem vstby_quietNoted (hp : p < 8) : (d.quietNoted p cls block info extra).vstby = d.vstby := by
  obtain ⟨e, he, hn⟩ := quietNoted_rest cls block info extra (d := d) hp
  rw [hn, he.rest]

theorem devQuiet_quietNoted (hp : p < 8) : (d.quietNoted p cls block info extra).devQuiet = d.devQuiet := by
  obtain ⟨e, he, hn⟩ := quietNoted_rest cls block info extra (d := d) hp
  rw [hn, he.rest]

theorem block_quietNoted (hb : block < 4) : bit ((d.quietNoted p cls block info extra).rd (Reg.QT_PCAUSE_BLOCK p)) block = true := by
  rw [quietNoted, rd_wr_same, bit_eq_testBit]
  have hl (x : Nat) : (Nat.lor x (2 ^ block)).testBit block = true :=
    (Nat.testBit_lor x (2 ^ block) block).trans (by rw [Nat.testBit_two_pow_self, Bool.or_true])
  simp only [Reg.QT_PCAUSE_BLOCK, Nat.testBit_mod_two_pow, hl, hb, decide_true, Bool.and_self]

theorem quietPart_again (hp : p < 8) (hq : (d.part p).quiet = true) :
    d.quietPart p cls block info extra = d.quietNoted p cls block info extra :=
  if_pos ((congrArg Part.quiet (part_quietNoted cls block info extra hp p)).trans hq)

theorem quietPart_enters (hp : p < 8) (hq : (d.part p).quiet = false) :
    d.quietPart p cls block info extra = ((d.quietNoted p cls block info extra).quietClosed p cls).stopCores (d.coresOf p) 8 := by
  rw [← coresOf_quietNoted cls block info extra hp]
  exact if_neg (show ¬ ((d.quietNoted p cls block info extra).part p).quiet = true by
    rw [part_quietNoted cls block info extra hp, hq]; exact Bool.false_ne_true)

theorem part_quietClosed (d : Dev) (p cls : Nat) :
    (d.quietClosed p cls).part p = { d.part p with quiet := true, entering := true, held := true } := part_setPart_same ..

theorem part_stopCores (l : List Nat) (why q : Nat) (d : Dev) : (d.stopCores l why).part q = d.part q := by
  rw [stopCores_cores]
  rfl

theorem rd_stopCores (l : List Nat) (why : Nat) (d : Dev) (f : Fld) : (d.stopCores l why).rd f = d.rd f := by
  rw [stopCores_cores]
  rfl

theorem pins_stopCores (l : List Nat) (why : Nat) (d : Dev) : (d.stopCores l why).pins = d.pins := by
  rw [stopCores_cores]

/-- QUIET_N is asserted for a quiet partition while standby power is present (R360). -/
theorem quietN_quietPin (hp : p < 8) (hq : (d.part p).quiet = true) : d.quietPin.pins.quietN = d.vstby := by
  have hany : ((List.range 8).any fun p => (d.part p).quiet) = true := List.any_eq_true.mpr ⟨p, List.mem_range.mpr hp, hq⟩
  simp only [quietPin, hany, Bool.or_true, Bool.and_true]

theorem quiet_quietPart (hp : p < 8) (d : Dev) : ((d.quietPart p cls block info extra).part p).quiet = true := by
  cases hq : (d.part p).quiet with
  | true => rw [quietPart_again cls block info extra hp hq, part_quietNoted cls block info extra hp, hq]
  | false => rw [quietPart_enters cls block info extra hp hq, part_stopCores, part_quietClosed]

theorem block_quietPart (hp : p < 8) (hb : block < 4) (d : Dev) :
    bit ((d.quietPart p cls block info extra).rd (Reg.QT_PCAUSE_BLOCK p)) block = true := by
  cases hq : (d.part p).quiet with
  | true => rw [quietPart_again cls block info extra hp hq, block_quietNoted cls block info extra hb]
  | false =>
    have hfirst (e : Dev) : (e.quietClosed p cls).rd (Reg.QT_PCAUSE_BLOCK p) = e.rd (Reg.QT_PCAUSE_BLOCK p) :=
      rd_wr_ne _ _ _ _ (by simp [Fld.key, Reg.QT_PCAUSE_BLOCK, Reg.QT_PCAUSE_FIRST])
    rw [quietPart_enters cls block info extra hp hq, rd_stopCores, hfirst, block_quietNoted cls block info extra hb]

theorem devQuiet_quietPart (hp : p < 8) (d : Dev) : (d.quietPart p cls block info extra).devQuiet = d.devQuiet := by
  cases hq : (d.part p).quiet with
  | true => rw [quietPart_again cls block info extra hp hq, devQuiet_quietNoted cls block info extra hp]
  | false =>
    rw [quietPart_enters cls block info extra hp hq, stopCores_cores]
    exact devQuiet_quietNoted cls block info extra hp

/-- What the first entry sets (R361, R362). -/
theorem quietPart_first (hp : p < 8) (hq : (d.part p).quiet = false) :
    (d.quietPart p cls block info extra).rd (Reg.QT_PCAUSE_FIRST p) = cls % 256 ∧
    ((d.quietPart p cls block info extra).part p).entering = true ∧ ((d.quietPart p cls block info extra).part p).held = true ∧
    (d.quietPart p cls block info extra).pins.quietN = d.vstby ∧
    ∀ c ∈ d.coresOf p, bit ((d.quietPart p cls block info extra).core c).stopReq 3 = true := by
  rw [quietPart_enters cls block info extra hp hq, rd_stopCores, part_stopCores, part_quietClosed]
  refine ⟨rd_wr_same _ (Reg.QT_PCAUSE_FIRST p) cls, rfl, rfl, ?_, fun c hc => bit_stopCores (by decide) hc _⟩
  rw [stopCores_cores]
  exact (quietN_quietPin hp (by rw [part_updPart_same])).trans (vstby_quietNoted cls block info extra hp)

/-! Device scope. -/

variable {bank addr unit : Nat}

/-- The device once its scope is active (R360, R361). -/
def devMarked (d : Dev) (cls : Nat) : Dev := ({ d.wr Reg.QT_STAT_DEVCAUSE cls with devQuiet := true, devEntering := true }).quietPin

theorem quietN_quietPin_dev (h : d.devQuiet = true) : d.quietPin.pins.quietN = d.vstby := by
  simp only [quietPin, h, Bool.or_true, Bool.true_or, Bool.and_true]

theorem quietN_devMarked (d : Dev) (cls : Nat) : (d.devMarked cls).pins.quietN = d.vstby := quietN_quietPin_dev rfl

/-- And once every partition holds its intake, before its cores are asked to stop. -/
def devClosed (d : Dev) (cls : Nat) : Dev := (List.range 8).foldl (fun d p => d.updPart p fun x => { x with held := true }) (d.devMarked cls)

theorem devClosed_parts (d : Dev) (cls : Nat) : d.devClosed cls = { d.devMarked cls with parts := (d.devClosed cls).parts } :=
  foldl_keeps (fun x : Dev => x = { d.devMarked cls with parts := x.parts }) (fun d p => d.updPart p fun x => { x with held := true })
    (List.range 8) (d.devMarked cls) rfl fun x k hx => by rw [hx]; rfl

theorem pins_devClosed (d : Dev) (cls : Nat) : (d.devClosed cls).pins = (d.devMarked cls).pins := by
  rw [devClosed_parts]

theorem devQuiet_err (hb : bank < 64) (a : ErrArgs) (d : Dev) : (d.err bank a).devQuiet = d.devQuiet := by
  rw [(err_records d hb a).rest]

theorem vstby_err (hb : bank < 64) (a : ErrArgs) (d : Dev) : (d.err bank a).vstby = d.vstby := by
  rw [(err_records d hb a).rest]

theorem quietDevice_again (hb : bank < 64) (hq : d.devQuiet = true) : d.quietDevice cls bank info addr unit =
    d.err bank { sev := 3, cls := cls, qscope := 3, info := info, addr := addr, unit := unit } :=
  if_pos ((devQuiet_err hb ..).trans hq)

theorem quietDevice_enters (hb : bank < 64) (hq : d.devQuiet = false) : d.quietDevice cls bank info addr unit =
    ((d.err bank { sev := 3, cls := cls, qscope := 3, info := info, addr := addr, unit := unit }).devClosed cls).stopCores (List.range 144) 8 :=
  if_neg (by rw [devQuiet_err hb, hq]; exact Bool.false_ne_true)

theorem devQuiet_quietDevice (hb : bank < 64) (d : Dev) : (d.quietDevice cls bank info addr unit).devQuiet = true := by
  cases hq : d.devQuiet with
  | true => rw [quietDevice_again cls info hb hq, devQuiet_err hb, hq]
  | false => rw [quietDevice_enters cls info hb hq, stopCores_cores, devClosed_parts]; rfl

theorem quietDevice_first (hb : bank < 64) (hq : d.devQuiet = false) :
    (d.quietDevice cls bank info addr unit).rd Reg.QT_STAT_DEVCAUSE = cls % 256 ∧
    (d.quietDevice cls bank info addr unit).pins.quietN = d.vstby ∧
    ∀ c < 144, bit ((d.quietDevice cls bank info addr unit).core c).stopReq 3 = true := by
  rw [quietDevice_enters cls info hb hq]
  refine ⟨?cause, ?pin, fun c hc => bit_stopCores (by decide) (List.mem_range.mpr hc) _⟩
  case cause =>
    rw [rd_stopCores, devClosed_parts]
    exact rd_wr_same _ Reg.QT_STAT_DEVCAUSE cls
  case pin =>
    rw [pins_stopCores, pins_devClosed, quietN_devMarked, vstby_err hb]

end scope

end Dev

section rows

variable (s : State) (b : BankNo)

theorem completes_errorRecord (sev : BitVec 2) (cls : BitVec 8) (part : Option PartNo) (qs : BitVec 2) (unit : BitVec 15) (info : BitVec 32)
    (addr extra : Word) : Completes (.errorRecord b sev cls part qs unit info addr extra) s (s.dev.errorRecord b
      { sev := sev.toNat, cls := cls.toNat, part := part.map (·.val), qscope := qs.toNat, unit := unit.toNat, info := info.toNat,
        addr := addr.toNat, extra := extra.toNat }) := rfl
theorem completes_errorAck : Completes (.errorAck b) s (s.dev.errorAck b) := rfl
theorem completes_clrovf : Completes (.clrovf b) s (s.dev.clrOvf b) := rfl
theorem completes_escalation : Completes (.escalation b) s (s.dev.escalation b) := rfl

end rows

open Dev in
/-- Settles O48: a record by what its bank holds, an acknowledgement by whether one waits, and an escalation. -/
theorem errorBanksKeepTwoRecords : Obligations.ErrorBanksKeepTwoRecords := by
  intro s b sev cls part qs unit info addr extra cmd a w P Q ovf plain preempts new
  have hb : b.val < 64 := b.isLt
  obtain ⟨hv, hsev⟩ := a.word0_low
  have hsev : bits a.word0 2 1 = sev.toNat := hsev.trans (Nat.mod_eq_of_lt sev.isLt)
  have hpre : s.dev.Preempts b a.word0 ↔ preempts := by
    simp only [Preempts, hsev, preempts]
    exact and_congr_left' ⟨fun h => BitVec.eq_of_toNat_eq h, fun h => congrArg BitVec.toNat h⟩
  have hw : ∀ i < 4, recWord a.word0 (addr.toNat % 2 ^ 64) s.dev.now (extra.toNat % 2 ^ 64) i % 2 ^ 64 = w i := fun i hi =>
    recWord_mod a.word0_lt addr.isLt extra.isLt hi
  have arrives : plain → Completes cmd s (s.dev.bankArrive b a.word0 (addr.toNat % 2 ^ 64) s.dev.now (extra.toNat % 2 ^ 64)) := fun h =>
    (completes_errorRecord s b sev cls part qs unit info addr extra).of_eq
      ((if_neg fun hc => h.1 (BitVec.eq_of_toNat_eq hc)).trans (if_neg fun hc => h.2 (BitVec.eq_of_toNat_eq hc)))
  have halert (e : Dev) (w1 w2 w3 : Nat) (h3 : sev = 3) : (e.becomePrim b a.word0 w1 w2 w3).pins.alertN = e.vstby :=
    alertN_becomePrim hb a.word0_lt hv (by rw [hsev, h3]; rfl) w1 w2 w3 e
  have hovf : OffWords b (Reg.ERR_STAT_OVF b) := offWords_low (by simp only [Reg.ERR_STAT]; omega) (by decide)
  have hesc : OffWords b (Reg.ERR_STAT_ESC b) := offWords_low (by simp only [Reg.ERR_STAT]; omega) (by decide)
  refine ⟨fun h hp => ⟨_, (arrives h).of_eq (bankArrive_empty hp), ?first⟩,
    fun h hp hn hq => ⟨_, (arrives h).of_eq (bankArrive_second hp (mt hpre.mp hn) hq), ?second⟩,
    fun h hp hn hq => ⟨_, (arrives h).of_eq (bankArrive_full hp (mt hpre.mp hn) hq), ?third⟩,
    fun h hp hn => ⟨_, (arrives h).of_eq (bankArrive_preempts hp (hpre.mpr hn)), ?preempts⟩,
    fun h => ⟨_, (completes_errorRecord s b sev cls part qs unit info addr extra).of_eq (if_pos (congrArg BitVec.toNat h)), ?device⟩,
    fun p hc hp hl => ?self, fun hq => ⟨_, (completes_errorAck s b).of_eq (if_neg (by simp [hq])), ?emptied⟩,
    fun hq => ⟨_, (completes_errorAck s b).of_eq (if_pos hq), ?next⟩,
    ⟨_, completes_clrovf s b, rd_wr_same .., fun i hi => ⟨rd_wr_ne _ _ _ _ (hovf i hi).1.symm, rd_wr_ne _ _ _ _ (hovf i hi).2.symm⟩⟩,
    fun h => (completes_escalation s b).of_eq (if_neg ?still), fun hp ht he => ⟨_, (completes_escalation s b).of_eq (if_pos ⟨hp, ht, by simp [he]⟩), ?escalates⟩⟩
  case first =>
    refine ⟨fun i hi => ⟨?_, ?_⟩, ?_, raw_becomePrim hb .., halert _ _ _ _⟩
    · simp only [P, rd_becomePrim_eq, prim_setPrim _ _ _ _ _ hi, hw i hi]
    · simp only [Q, rd_becomePrim_eq, pend_setPrim _ _ _ _ _ hi]
    · simp only [ovf, rd_becomePrim_eq]
      exact rd_setPrim_ne _ _ _ _ _ fun w hw => (hovf w hw).1
  case second =>
    refine ⟨fun i hi => ⟨prim_setPend _ _ _ _ _ hi, ?_⟩, rd_setPend_ne _ _ _ _ _ fun w hw => (hovf w hw).2⟩
    simp only [Q, pend_setPend _ _ _ _ _ hi, hw i hi]
  case third =>
    exact ⟨fun i hi => ⟨rd_bankDrop_ne (hovf i hi).1.symm (hesc i hi).1.symm _, rd_bankDrop_ne (hovf i hi).2.symm (hesc i hi).2.symm _⟩,
      ovf_bankDrop _⟩
  case preempts =>
    obtain ⟨h3, hlow⟩ := hn
    have h64 := a.word0_lt
    have hfatal : bits a.word0 2 1 = 3 := by rw [hsev, h3]; rfl
    cases hq : s.dev.bankPend b with
    | false =>
      rw [if_neg Bool.false_ne_true, if_neg Bool.false_ne_true]
      exact ⟨fun i hi => ⟨(words_preempted hi).1.trans (hw i hi), (words_preempted hi).2⟩, flag_preempted,
        ⟨raw_preempted hb, fun _ => alertN_preempted hb h64 hv hfatal⟩, ovf_preempted⟩
    | true =>
      rw [if_pos rfl, if_pos rfl]
      refine ⟨fun i hi => ⟨?_, ?_⟩, (flag_preempt_bankDrop _).trans flag_preempted, ⟨?_, fun _ => alertN_preempted_dropped hb h64 hv hfatal⟩,
        (ovf_bankDrop _).trans (congrArg (satAdd 32 · 1) ovf_preempted)⟩
      · exact (rd_bankDrop_ne (hovf i hi).1.symm (hesc i hi).1.symm _).trans ((words_preempted hi).1.trans (hw i hi))
      · exact (rd_bankDrop_ne (hovf i hi).2.symm (hesc i hi).2.symm _).trans (words_preempted hi).2
      · rw [src_bankDrop_ne (by omega)]
        exact raw_preempted hb
  case device => exact devQuiet_quietDevice _ _ hb _
  case self =>
    refine ⟨_, (completes_errorRecord s b sev cls part qs unit info addr extra).of_eq ((if_neg ?_).trans (if_pos (congrArg BitVec.toNat hc))), ?_⟩
    · simp [hc]
    · rw [hp, hl]
      exact ⟨quiet_quietPart _ _ _ _ p.isLt _, devQuiet_quietPart _ _ _ _ p.isLt _⟩
  case emptied =>
    exact fun i hi => ⟨(prim_setPend _ _ _ _ _ hi).trans ((prim_setPrim _ _ _ _ _ hi).trans (recWord_zero hi)),
      (pend_setPend _ _ _ _ _ hi).trans (recWord_zero hi)⟩
  case next =>
    refine ⟨fun i hi => ⟨?_, ?_⟩, raw_becomePrim hb ..⟩
    · simp only [P, rd_becomePrim_eq, prim_setPrim _ _ _ _ _ hi, recWord_pend hi, Q]
    · simp only [Q, rd_becomePrim_eq, pend_setPrim _ _ _ _ _ hi, pend_setPend _ _ _ _ _ hi, recWord_zero hi]
  case still =>
    rcases h with h | h | h <;> simp [h]
  case escalates =>
    have hset : ((s.dev.setF (Reg.ERR_STAT_ESC b)).irqEvent (256 + 4 * b + 1)).flag (Reg.ERR_STAT_ESC b) = true := by
      rw [flag, rd_irqEvent, rd_setF_same rfl]
      rfl
    have hkeep {f : Fld} (h : f.key ≠ (Reg.ERR_STAT_ESC b).key) :
        ((s.dev.setF (Reg.ERR_STAT_ESC b)).irqEvent (256 + 4 * b + 1)).flag f = s.dev.flag f := by
      rw [flag, rd_irqEvent, rd_setF_ne h, ← flag]
    have hrst : Reg.RST_STAT_READY.key < 0x51000 * 64 ∧ Reg.RST_STAT_INRESET.key < 0x51000 * 64 := by decide
    have hhigh : 0x51000 * 64 ≤ (Reg.ERR_STAT_ESC b).key := by
      simp only [Fld.key, Reg.ERR_STAT_ESC, Reg.ERR_STAT]
      omega
    refine ⟨hset, raw_irqEvent (srcReal_bank hb).2 _, fun hr hi => ?_⟩
    refine (alertN_alertPin_escalated hb ((hkeep (by omega)).trans hr) ((hkeep (by omega)).trans hi) hset).trans ?_
    rw [irqEvent_sources]
    rfl

end Sys2Proof.Machine
end

section
/-!
A partition's release (R347) on a device whose owner table is not in its canonical form.
-/
namespace Sys2Proof.Machine

theorem completes_releaseDone (s : State) (p : PartNo) : Completes (.releaseDone p) s (s.dev.releaseDone p) := rfl

/-- Partition 1 in RELEASING without cores, and its two extents entered out of order, so that a read of 5 stops at the entry of 7. -/
def extentsOutOfOrder : Dev := { State.reset.dev.wr (Reg.PT_STAT_STATE 1) 4 with owner := [(7, 2), (5, 2)] }

set_option maxRecDepth 40000 in
/-- The release drops the entry of extent 7, whose owner it reads, and the one of extent 5 comes to light. -/
theorem extentsOutOfOrder_released : tabGet 0 5 (extentsOutOfOrder.releaseDone 1).owner = 2 := by decide

/-- Refutes O45: its clause on RELEASE clears the ownership of every state, and so also where the owner table has keys out of order
(`tabWf` fails), which no run makes. There the release leaves extent 5 to the partition. -/
theorem not_partitionsFollowTheirStates : ¬ Obligations.PartitionsFollowTheirStates := by
  intro h
  obtain ⟨-, -, -, -, -, -, -, -, -, -, -, -, -, -, -, -, -, -, -, -, hrelease, -⟩ := h { State.reset with dev := extentsOutOfOrder } 1
  obtain ⟨d, hd, -, -, -, -, howner, -⟩ := hrelease (by decide) (by decide) rfl
  rw [hd.unique (completes_releaseDone ..)] at howner
  exact howner 5 extentsOutOfOrder_released

end Sys2Proof.Machine
end

section
/-!
The laser cartridges and the sideband bus (R388 to R408): what a slot's, a feed group's and a port's operations set, and what the links
that lose or gain a cartridge's light leave alone.
-/
namespace Sys2Proof.Machine

theorem bit_setBit_ne {n k : Nat} (h : k ≠ n) (x : Nat) (v : Bool) : bit (setBit x n v) k = bit x k := by
  rw [setBit]
  split
  · rfl
  · next hb =>
    cases v with
    | true =>
      have hx : x.testBit n = false := by simpa [bit_eq_testBit] using hb
      rw [if_pos rfl, bit_eq_testBit, testBit_add_two_pow hx, if_neg h, bit_eq_testBit]
    | false =>
      have hx : x.testBit n = true := by simpa [bit_eq_testBit] using hb
      obtain ⟨r, rfl, hr⟩ := exists_add_two_pow hx
      rw [if_neg (by decide), Nat.add_sub_cancel, bit_eq_testBit, bit_eq_testBit, testBit_add_two_pow hr, if_neg h]

/-- Two bits at another place stay when two are replaced. -/
theorem bits_replace_ne (x : Nat) {n k : Nat} (f : Nat) (hf : f < 4) (h : k + 2 ≤ n ∨ n + 2 ≤ k) :
    bits (x - bits x (n + 1) n * 2 ^ n + f * 2 ^ n) (k + 1) k = bits x (k + 1) k := by
  have hp : 0 < 2 ^ n := Nat.two_pow_pos n
  have hw : n + 1 + 1 - n = 2 := by omega
  have hx : bits x (n + 1) n = x / 2 ^ n % 4 := by rw [bits, hw]; rfl
  have hle : x / 2 ^ n % 4 * 2 ^ n ≤ x := (Nat.mul_le_mul_right _ (Nat.mod_le ..)).trans (Nat.div_mul_le_self ..)
  rw [hx]
  rcases h with h | h
  · rw [← Dev.bits_mod_two_pow _ h, ← Dev.bits_mod_two_pow x h, Nat.add_mul_mod_self_right]
    congr 1
    conv_rhs => rw [← Nat.sub_add_cancel hle]
    rw [Nat.add_mul_mod_self_right]
  · obtain ⟨j, rfl⟩ := Nat.exists_eq_add_of_le h
    have hsub : (x - x / 2 ^ n % 4 * 2 ^ n) / 2 ^ n = x / 2 ^ n - x / 2 ^ n % 4 := by rw [Nat.mul_comm, Nat.sub_mul_div]
    have hdiv (y : Nat) : y / 2 ^ (n + 2 + j) = y / 2 ^ n / 4 / 2 ^ j := by
      rw [Nat.pow_add, Nat.pow_add, ← Nat.div_div_eq_div_mul, ← Nat.div_div_eq_div_mul]
    have h4 (a : Nat) : (a - a % 4 + f) / 4 = a / 4 := by omega
    rw [bits, bits, hdiv, hdiv, Nat.add_mul_div_right _ _ hp, hsub, h4]

namespace Dev

variable {d e f : Dev} {c k l : Nat} {g : Fld}

/-! Slots and their lasers. -/

@[simp] theorem rd_setLsen (c : Nat) (v : Bool) (d : Dev) (g : Fld) : (d.setLsen c v).rd g = d.rd g := by
  unfold setLsen
  split <;> rfl

theorem slState_setLsen (c : Nat) (v : Bool) (d : Dev) (k : Nat) : (d.setLsen c v).slState k = d.slState k := rd_setLsen ..

theorem carts_setLsen (c : Nat) (v : Bool) (d : Dev) : (d.setLsen c v).carts = d.carts := by
  unfold setLsen
  split <;> rfl

theorem bit_setLsen_same (c : Nat) (v : Bool) (d : Dev) : bit (d.setLsen c v).lsen c = v := by
  unfold setLsen
  split
  · assumption
  · exact bit_setBit_same ..

theorem bit_setLsen_ne (h : k ≠ c) (v : Bool) (d : Dev) : bit (d.setLsen c v).lsen k = bit d.lsen k := by
  unfold setLsen
  split
  · rfl
  · exact bit_setBit_ne h ..

theorem rd_slGo_ne (h : g.key ≠ (Reg.LAS_SLOT_STATE c).key) (st : Nat) (d : Dev) : (d.slGo c st).rd g = d.rd g := by
  unfold slGo
  split
  · rfl
  · rw [rd_irqEvent, rd_wr_ne _ _ _ _ h]

theorem slState_slGo_same (c : Nat) {st : Nat} (h : st < 16) (d : Dev) : (d.slGo c st).slState c = st := by
  unfold slGo
  split
  · assumption
  · rw [slState, rd_irqEvent, rd_wr_same]
    exact Nat.mod_eq_of_lt h

theorem slState_slGo_ne (h : k ≠ c) (st : Nat) (d : Dev) : (d.slGo c st).slState k = d.slState k := by
  refine rd_slGo_ne ?_ st d
  simp only [Fld.key, Reg.LAS_SLOT_STATE, Reg.LAS_SLOT]
  omega

/-- A slot's change of state touches neither the cartridges, nor the lasers, nor the ports' notes. -/
theorem slGo_keeps (c st : Nat) (d : Dev) : (d.slGo c st).carts = d.carts ∧ (d.slGo c st).lsen = d.lsen ∧ (d.slGo c st).sbHj = d.sbHj := by
  unfold slGo
  split
  · exact ⟨rfl, rfl, rfl⟩
  · rw [irqEvent_sources]
    exact ⟨rfl, rfl, rfl⟩

theorem cart_slGo (c st : Nat) (d : Dev) (k : Nat) : (d.slGo c st).cart k = d.cart k := by
  rw [cart, (slGo_keeps c st d).1, ← cart]

theorem cart_setLsen (c : Nat) (v : Bool) (d : Dev) (k : Nat) : (d.setLsen c v).cart k = d.cart k := by
  rw [cart, carts_setLsen, ← cart]

theorem lsen_slGo (c st : Nat) (d : Dev) : (d.slGo c st).lsen = d.lsen := (slGo_keeps c st d).2.1

/-- A laser switched and its slot's state set. -/
theorem switched (c : Nat) (v : Bool) {st : Nat} (h : st < 16) (d : Dev) :
    ((d.setLsen c v).slGo c st).slState c = st ∧ bit ((d.setLsen c v).slGo c st).lsen c = v := by
  rw [lsen_slGo]
  exact ⟨slState_slGo_same c h _, bit_setLsen_same ..⟩

@[simp] theorem cart_setCart_same (c : Nat) (x : Cart) (d : Dev) : (d.setCart c x).cart c = x := tabGet_tabPut_same ..
theorem cart_setCart_ne (h : k ≠ c) (x : Cart) (d : Dev) : (d.setCart c x).cart k = d.cart k := tabGet_tabPut_ne _ _ _ _ _ h

/-! What the links do about light keeps the cartridges' own. -/

/-- The registers of the cartridges and the sideband bus. -/
def LaserField (f : Fld) : Prop := 0x70000 ≤ f.addr ∧ f.addr < 0x71000 ∧ f.lo < 64

/-- From `d` to `e` the cartridges' registers, records and lasers stand. -/
structure KeepsLaser (d e : Dev) : Prop where
  rd : ∀ f, LaserField f → e.rd f = d.rd f
  carts : e.carts = d.carts
  lsen : e.lsen = d.lsen

namespace KeepsLaser

theorem refl (d : Dev) : KeepsLaser d d := ⟨fun _ _ => rfl, rfl, rfl⟩

theorem trans (h : KeepsLaser d e) (h' : KeepsLaser e f) : KeepsLaser d f :=
  ⟨fun g hg => (h'.rd g hg).trans (h.rd g hg), h'.carts.trans h.carts, h'.lsen.trans h.lsen⟩

theorem of_sources (h : SameButSources d e) : KeepsLaser d e := ⟨fun g _ => h.rd g, by rw [h], by rw [h]⟩

/-- Work that writes no register keeps them. -/
theorem of_regs (hr : e.regs = d.regs) (hc : e.carts = d.carts) (hl : e.lsen = d.lsen) : KeepsLaser d e :=
  ⟨fun g _ => by rw [Dev.rd, hr, ← Dev.rd], hc, hl⟩

theorem foldl {α : Type} {step : Dev → α → Dev} {xs : List α} (h : ∀ e, ∀ x ∈ xs, KeepsLaser e (step e x)) (d : Dev) :
    KeepsLaser d (xs.foldl step d) :=
  List.foldlRecOn (motive := KeepsLaser d) xs step (.refl d) fun e he x hx => he.trans (h e x hx)

end KeepsLaser

theorem err_laser {b : Nat} (hb : b < 64) (a : ErrArgs) (d : Dev) : KeepsLaser d (d.err b a) :=
  ⟨fun _ hf => rd_err_outside (by have := hf.1; omega) hb a d, by rw [(err_records d hb a).rest], by rw [(err_records d hb a).rest]⟩

/-- The registers from the links' upward are apart from the cartridges'. -/
theorem wr_laser (h : 0x600000 ≤ g.addr) (v : Nat) (d : Dev) : KeepsLaser d (d.wr g v) := by
  refine ⟨fun f ⟨_, h2, h3⟩ => rd_wr_ne _ _ _ _ ?_, rfl, rfl⟩
  simp only [Fld.key]
  omega

theorem updLink_laser (l : Nat) (u : Link → Link) (d : Dev) : KeepsLaser d (d.updLink l u) := .of_regs rfl rfl rfl

theorem reshapeCheck_laser (d : Dev) : KeepsLaser d d.reshapeCheck := by
  unfold reshapeCheck
  split
  · have reshaped : KeepsLaser d { d with reshaped := false } := .of_regs rfl rfl rfl
    exact reshaped.trans (wr_laser (g := Reg.RTE_RESHAPE_DONE) (by decide) 1 _)
  · exact .refl d

theorem lkGo_laser (l st : Nat) (d : Dev) : KeepsLaser d (d.lkGo l st) := by
  unfold lkGo
  split
  · exact .refl d
  · exact (wr_laser (by simp only [Reg.LNK_STAT_STATE, Reg.LNK_STAT]; omega) st d).trans <|
      (KeepsLaser.of_sources (irqEvent_sources ..)).trans (reshapeCheck_laser _)

theorem tryTrain_laser (l : Nat) (d : Dev) : KeepsLaser d (d.tryTrain l) := by
  unfold tryTrain
  split
  · exact (updLink_laser l _ d).trans <| (wr_laser (by simp only [Reg.LNK_NBR_VALID, Reg.LNK_NBR]; omega) 0 _).trans (lkGo_laser l _ _)
  · exact .refl d

/-- Freeing what a link's channels held touches the links' records alone. -/
theorem lkDown_laser (hl : l < 32) (d : Dev) : KeepsLaser d (d.lkDown l) := by
  have freed (e : Dev) (t : TxPkt) : KeepsLaser e (match t.from_ with | some (a, b, n) => e.freeFlits a b n | none => e) := by
    split
    · exact .of_regs rfl rfl rfl
    · exact .refl e
  simp only [lkDown]
  split
  · exact .refl d
  · refine (KeepsLaser.trans ?_ (KeepsLaser.foldl (fun e v _ => ?_) _)).trans ((updLink_laser l _ _).trans ((updLink_laser l _ _).trans (lkGo_laser l _ _)))
    · split
      · exact (wr_laser (by simp only [Reg.LNK_EVCNT_DOWNS, Reg.LNK_EVCNT]; omega) _ d).trans (err_laser (by omega) _ _)
      · exact .refl d
    · exact (KeepsLaser.foldl (fun e t _ => freed e t) e).trans (updLink_laser l _ _)

/-! Feed groups (R229, R230). -/

variable {e g side : Nat} {d : Dev}

/-- The groups as `feedGroups` lists them. -/
theorem mem_feedGroups {x : Nat × Nat} : x ∈ feedGroups → x.1 < 8 ∧ x.2 < 2 := by
  simp only [feedGroups, List.mem_map, List.mem_range]
  rintro ⟨i, hi, rfl⟩
  exact ⟨by omega, by omega⟩

theorem feed_congr {d e : Dev} (h : e.rd Reg.LAS_FEED_FEED = d.rd Reg.LAS_FEED_FEED) (i j : Nat) : e.feed i j = d.feed i j := by
  simp only [feed, h]

theorem groupsOn_congr {d e : Dev} (h : e.rd Reg.LAS_FEED_FEED = d.rd Reg.LAS_FEED_FEED) (c : Nat) : e.groupsOn c = d.groupsOn c := by
  simp only [groupsOn, feed_congr h]

theorem laserField_feeds : LaserField Reg.LAS_FEED_FEED := ⟨by decide, by decide, by decide⟩

/-- A group that takes a feed changes, of the cartridges' registers, the feeds' alone. -/
theorem rd_setFeed {f : Fld} (hf : LaserField f) (hne : f.key ≠ Reg.LAS_FEED_FEED.key) (e g k : Nat) (d : Dev) :
    (d.setFeed e g k).rd f = d.rd f := by
  unfold setFeed
  split
  · rfl
  · refine foldl_keeps (fun x : Dev => x.rd f = d.rd f) _ _ _ (rd_wr_ne _ _ _ _ hne) fun x l hx => ?_
    rw [rd_lkIrq, (wr_laser (by simp only [Reg.LNK_STAT_FEED, Reg.LNK_STAT]; omega) k x).rd f hf, hx]

theorem setFeed_keeps (e g k : Nat) (d : Dev) : (d.setFeed e g k).carts = d.carts ∧ (d.setFeed e g k).lsen = d.lsen := by
  unfold setFeed
  split
  · exact ⟨rfl, rfl⟩
  · refine foldl_keeps (fun x : Dev => x.carts = d.carts ∧ x.lsen = d.lsen) _ _ _ ⟨rfl, rfl⟩ fun x l hx => ?_
    rw [lkIrq, irqEvent_sources]
    exact hx

theorem feed_setFeed_ne {i j k : Nat} (hg : g < 2) (hi : i < 8) (hj : j < 2) (hne : (i, j) ≠ (e, g)) (hk : k < 4) (d : Dev) :
    (d.setFeed e g k).feed i j = d.feed i j := by
  by_cases h : d.feed e g = k
  · rw [setFeed_self h]
  · have hplace : 4 * i + 2 * j + 2 ≤ 4 * e + 2 * g ∨ 4 * e + 2 * g + 2 ≤ 4 * i + 2 * j := by
      simp only [ne_eq, Prod.mk.injEq] at hne
      omega
    rw [feed, rd_feeds_setFeed h, bits_mod_two_pow _ (by omega), feed, bits_replace_ne _ _ hk hplace, ← feed]

/-- The links of a group. -/
theorem mem_feedLinks {l : Nat} (he : e < 8) (hg : g < 2) (h : l ∈ feedLinks e g) : l < 32 := by
  simp only [feedLinks, List.mem_cons, List.not_mem_nil, or_false] at h
  omega

theorem stopCores_laser (cs : List Nat) (why : Nat) (d : Dev) : KeepsLaser d (d.stopCores cs why) := by
  rw [stopCores_cores]
  exact .of_regs rfl rfl rfl

/-- An entry to device scope keeps the cartridges. -/
theorem quietDevice_laser {bank : Nat} (hb : bank < 64) (cls info addr unit : Nat) (d : Dev) :
    KeepsLaser d (d.quietDevice cls bank info addr unit) := by
  have marked (e : Dev) : KeepsLaser e (e.devMarked cls) := by
    refine ⟨fun f ⟨h1, _, h3⟩ => rd_wr_ne _ _ _ _ ?_, rfl, rfl⟩
    simp only [Fld.key, Reg.QT_STAT_DEVCAUSE, Reg.QT_STAT]
    omega
  have closed (e : Dev) : KeepsLaser e (e.devClosed cls) := by
    rw [devClosed_parts]
    exact (marked e).trans (.of_regs rfl rfl rfl)
  cases hq : d.devQuiet with
  | true => rw [quietDevice_again cls info hb hq]; exact err_laser hb ..
  | false =>
    rw [quietDevice_enters cls info hb hq]
    exact (err_laser hb ..).trans <| (closed _).trans (stopCores_laser ..)

theorem rd_slShut_ne {f : Fld} (h : f.key ≠ (Reg.LAS_SLOT_STATE c).key) (d : Dev) : (d.slShut c).rd f = d.rd f := by
  unfold slShut
  split
  · rfl
  · rw [rd_slGo_ne h, rd_setLsen]

/-- A group that goes dark shows so, and no other group's feed changes. -/
theorem rd_feeds_feedDark (he : e < 8) (hg : g < 2) (d : Dev) : (d.feedDark e g).rd Reg.LAS_FEED_FEED = (d.setFeed e g 2).rd Reg.LAS_FEED_FEED := by
  have hdown : ((feedLinks e g).foldl (fun (d : Dev) l => d.lkDown l) (d.setFeed e g 2)).rd Reg.LAS_FEED_FEED =
      (d.setFeed e g 2).rd Reg.LAS_FEED_FEED :=
    (KeepsLaser.foldl (fun x l hl => lkDown_laser (mem_feedLinks he hg hl) x) _).rd _ laserField_feeds
  simp only [feedDark]
  split
  · rw [(quietDevice_laser (by decide) ..).rd _ laserField_feeds]
    refine .trans (foldl_keeps (fun x : Dev => x.rd Reg.LAS_FEED_FEED = _) _ _ _ rfl fun x k hx => ?_) hdown
    refine (rd_slShut_ne ?_ x).trans hx
    simp only [Fld.key, Reg.LAS_FEED_FEED, Reg.LAS_FEED, Reg.LAS_SLOT_STATE, Reg.LAS_SLOT]
    omega
  · rw [(err_laser (by decide) ..).rd _ laserField_feeds, hdown]

/-- A group that leaves its cartridge takes the other one's light, or none (R229). -/
theorem rd_feeds_feedLeave (he : e < 8) (hg : g < 2) (h : d.feed e g ≠ 2) (lit : Bool) :
    ∃ k, (k = 1 - d.feed e g ∨ k = 2) ∧ (d.feedLeave e g lit).rd Reg.LAS_FEED_FEED = (d.setFeed e g k).rd Reg.LAS_FEED_FEED := by
  simp only [feedLeave, h, if_false]
  split
  · exact ⟨_, .inl rfl, rfl⟩
  · exact ⟨2, .inr rfl, rd_feeds_feedDark he hg d⟩

/-- The group's feed in use is not cartridge c. -/
def OffCart (d : Dev) (x : Nat × Nat) (c : Nat) : Prop := ¬ (d.feed x.1 x.2 < 2 ∧ feedCart x.1 x.2 (d.feed x.1 x.2) = c)

theorem feed_feedLeave_ne {i j : Nat} (he : e < 8) (hg : g < 2) (hi : i < 8) (hj : j < 2) (hne : (i, j) ≠ (e, g)) (d : Dev) (lit : Bool) :
    (d.feedLeave e g lit).feed i j = d.feed i j := by
  by_cases h : d.feed e g = 2
  · rw [feedLeave_dark h]
  · obtain ⟨k, hk, hrd⟩ := rd_feeds_feedLeave he hg h lit
    rw [feed_congr hrd, feed_setFeed_ne hg hi hj hne (by omega)]

theorem offCart_feedLeave (he : e < 8) (hg : g < 2) (h : d.feed e g < 2) (hc : feedCart e g (d.feed e g) = c) (lit : Bool) :
    (d.feedLeave e g lit).OffCart (e, g) c := by
  obtain ⟨k, hk, hrd⟩ := rd_feeds_feedLeave (d := d) he hg (by omega) lit
  rw [OffCart, feed_congr hrd, feed_setFeed he hg (by omega)]
  rintro ⟨h2, hk'⟩
  simp only [feedCart] at hc hk'
  omega

theorem feed_leaves_notMem {x : Nat × Nat} {xs : List (Nat × Nat)} (hx : x.1 < 8 ∧ x.2 < 2) (hs : ∀ y ∈ xs, y.1 < 8 ∧ y.2 < 2)
    (h : x ∉ xs) (d : Dev) : (xs.foldl (fun (d : Dev) y => d.feedLeave y.1 y.2 true) d).feed x.1 x.2 = d.feed x.1 x.2 := by
  refine List.foldlRecOn (motive := fun e : Dev => e.feed x.1 x.2 = d.feed x.1 x.2) xs _ rfl fun e he y hy => ?_
  rw [feed_feedLeave_ne (hs y hy).1 (hs y hy).2 hx.1 hx.2 (fun hxy => h (by rwa [show x = y from hxy])), he]

theorem offCart_leaves {x : Nat × Nat} {xs : List (Nat × Nat)} (hn : xs.Nodup) (hs : ∀ y ∈ xs, y.1 < 8 ∧ y.2 < 2) (h : x ∈ xs)
    {d : Dev} (hd : d.feed x.1 x.2 < 2) (hc : feedCart x.1 x.2 (d.feed x.1 x.2) = c) :
    (xs.foldl (fun (d : Dev) y => d.feedLeave y.1 y.2 true) d).OffCart x c := by
  induction xs generalizing d with
  | nil => cases h
  | cons y ys ih =>
    obtain ⟨hy, hn⟩ := List.nodup_cons.mp hn
    have hb := hs y List.mem_cons_self
    have hs' := fun z hz => hs z (List.mem_cons_of_mem y hz)
    rw [List.foldl_cons]
    by_cases hxy : x = y
    · subst hxy
      have hoff := offCart_feedLeave hb.1 hb.2 hd hc true
      rw [OffCart] at hoff ⊢
      rwa [feed_leaves_notMem hb hs' hy]
    · have hsame := feed_feedLeave_ne hb.1 hb.2 (hs x h).1 (hs x h).2 hxy d true
      exact ih hn hs' ((List.mem_cons.mp h).resolve_left hxy) (by rwa [hsame]) (by rwa [hsame])

theorem nodup_feedGroups : feedGroups.Nodup := by decide

/-- Once its groups have left it, none is on the cartridge. -/
theorem groupsOn_groupsLeave (c : Nat) (d : Dev) : (d.groupsLeave c).groupsOn c = [] := by
  rw [groupsOn, List.filter_eq_nil_iff]
  intro x hx
  have hb := mem_feedGroups hx
  have hs : ∀ y ∈ d.groupsOn c, y.1 < 8 ∧ y.2 < 2 := fun y hy => mem_feedGroups (List.mem_filter.mp hy).1
  have hoff : (d.groupsLeave c).OffCart x c := by
    by_cases h : x ∈ d.groupsOn c
    · have hon := (List.mem_filter.mp h).2
      simp only [Bool.and_eq_true, decide_eq_true_eq] at hon
      exact offCart_leaves (nodup_feedGroups.filter _) hs h hon.1 hon.2
    · rw [OffCart, groupsLeave, feed_leaves_notMem hb hs h]
      simpa [groupsOn, hx] using h
  simpa [OffCart] using hoff

end Dev
end Sys2Proof.Machine
end

section
/-!
The commands of the cartridges' slots (O53): presence, assignment, identity, and the lasers switched.
-/
namespace Sys2Proof.Machine.Dev

variable {d : Dev} {c k p : Nat} {f : Fld}

/-! Fields of one slot, of its identity and of its wear. -/

/-- A field of slot c's status register. -/
theorem key_slot_ne {lo width reset : Nat} {ty : FTy} (h : lo ≠ 0) (h64 : lo < 64) (j : Nat) :
    (⟨Reg.LAS_SLOT k, lo, width, ty, reset⟩ : Fld).key ≠ (Reg.LAS_SLOT_STATE j).key := by
  simp only [Fld.key, Reg.LAS_SLOT_STATE, Reg.LAS_SLOT]
  omega

/-- The field stands in none of the slots' status registers. -/
def OffSlots (f : Fld) : Prop := f.addr < 0x70100 ∨ 0x70200 ≤ f.addr

theorem OffSlots.key_ne (h : OffSlots f) (hl : f.lo < 64) {lo width reset : Nat} {ty : FTy} (hc : c < 8) (h64 : lo < 64) :
    f.key ≠ (⟨Reg.LAS_SLOT c, lo, width, ty, reset⟩ : Fld).key := by
  simp only [OffSlots] at h
  simp only [Fld.key, Reg.LAS_SLOT]
  omega

theorem slState_wr_ne (h : f.key ≠ (Reg.LAS_SLOT_STATE c).key) (v : Nat) (d : Dev) : (d.wr f v).slState c = d.slState c :=
  rd_wr_ne _ _ _ _ h.symm

@[simp] theorem rd_setCart (c : Nat) (x : Cart) (d : Dev) (g : Fld) : (d.setCart c x).rd g = d.rd g := rfl

/-! Presence (R395). -/

/-- The fields that a lost cartridge leaves at zero. -/
def slotCleared (c : Nat) : List Fld :=
  [Reg.LAS_SLOT_PRSNT c, Reg.LAS_SLOT_LEGACY c, Reg.LAS_SLOT_EOL90 c, Reg.LAS_SLOT_EOL98 c, Reg.LAS_SLOT_OVERLIFE c,
    Reg.LAS_SLOT_TEMP c, Reg.LAS_SLOT_BIAS c, Reg.LAS_ID_ID c 0, Reg.LAS_ID_ID c 1, Reg.LAS_ID_ID c 2, Reg.LAS_ID_ID c 3,
    Reg.LAS_WEAR_EHMIN c, Reg.LAS_WEAR_LIFE c, Reg.LAS_WEAR_REMAIN c]

/-- Every field of a list is set to zero. -/
def clearAll (l : List Fld) (d : Dev) : Dev := l.foldl (fun (d : Dev) f => d.wr f 0) d

theorem rd_clearAll_notMem {l : List Fld} (h : ∀ g ∈ l, f.key ≠ g.key) (d : Dev) : (clearAll l d).rd f = d.rd f :=
  List.foldlRecOn (motive := fun e : Dev => e.rd f = d.rd f) l _ rfl fun _ he g hg => (rd_wr_ne _ _ _ _ (h g hg)).trans he

theorem rd_clearAll_head {l : List Fld} (h : ∀ g ∈ l, f.key ≠ g.key) (d : Dev) : (clearAll (f :: l) d).rd f = 0 :=
  (rd_clearAll_notMem h (d.wr f 0)).trans (by rw [rd_wr_same, Nat.zero_mod])

theorem lsen_clearAll (l : List Fld) (d : Dev) : (clearAll l d).lsen = d.lsen :=
  foldl_keeps (fun e : Dev => e.lsen = d.lsen) _ _ _ rfl fun _ _ h => h

theorem presenceLost_eq (c : Nat) (d : Dev) : d.presenceLost c =
    ((clearAll (slotCleared c) ((d.setLsen c false).slGo c slEMPTY)).wr (Reg.LAS_SLOT_HEALTH c) 3).setCart c
      { Cart.reset with lastSerial := (d.cart c).lastSerial, lastEh := (d.cart c).lastEh } := rfl

theorem key_state_notCleared (c : Nat) : ∀ g ∈ slotCleared c, (Reg.LAS_SLOT_STATE c).key ≠ g.key := by
  simp only [slotCleared, List.forall_mem_cons, List.not_mem_nil, false_implies, implies_true, and_true, Fld.key,
    Reg.LAS_SLOT_STATE, Reg.LAS_SLOT, Reg.LAS_SLOT_PRSNT, Reg.LAS_SLOT_LEGACY, Reg.LAS_SLOT_EOL90, Reg.LAS_SLOT_EOL98,
    Reg.LAS_SLOT_OVERLIFE, Reg.LAS_SLOT_TEMP, Reg.LAS_SLOT_BIAS, Reg.LAS_WEAR_EHMIN, Reg.LAS_WEAR_LIFE, Reg.LAS_WEAR_REMAIN,
    Reg.LAS_WEAR, Reg.LAS_ID_ID, Reg.LAS_ID]
  omega

theorem key_prsnt_notCleared (c : Nat) : ∀ g ∈ (slotCleared c).tail, (Reg.LAS_SLOT_PRSNT c).key ≠ g.key := by
  simp only [slotCleared, List.tail_cons, List.forall_mem_cons, List.not_mem_nil, false_implies, implies_true, and_true, Fld.key,
    Reg.LAS_SLOT, Reg.LAS_SLOT_PRSNT, Reg.LAS_SLOT_LEGACY, Reg.LAS_SLOT_EOL90, Reg.LAS_SLOT_EOL98,
    Reg.LAS_SLOT_OVERLIFE, Reg.LAS_SLOT_TEMP, Reg.LAS_SLOT_BIAS, Reg.LAS_WEAR_EHMIN, Reg.LAS_WEAR_LIFE, Reg.LAS_WEAR_REMAIN,
    Reg.LAS_WEAR, Reg.LAS_ID_ID, Reg.LAS_ID]
  omega

theorem presenceLost_leaves (c : Nat) (d : Dev) : (d.presenceLost c).slState c = slEMPTY ∧ bit (d.presenceLost c).lsen c = false ∧
    (d.presenceLost c).flag (Reg.LAS_SLOT_PRSNT c) = false ∧
    (d.presenceLost c).cart c = { Cart.reset with lastSerial := (d.cart c).lastSerial, lastEh := (d.cart c).lastEh } := by
  obtain ⟨hstate, hlsen⟩ := switched c false (st := slEMPTY) (by decide) d
  have hrd {f : Fld} (h : f.key ≠ (Reg.LAS_SLOT_HEALTH c).key) :
      (d.presenceLost c).rd f = (clearAll (slotCleared c) ((d.setLsen c false).slGo c slEMPTY)).rd f := by
    rw [presenceLost_eq, rd_setCart, rd_wr_ne _ _ _ _ h]
  refine ⟨?state, ?lsen, ?prsnt, by rw [presenceLost_eq, cart_setCart_same]⟩
  case state =>
    rw [slState, hrd (key_ne_of_lo (by simp [Reg.LAS_SLOT_STATE, Reg.LAS_SLOT_HEALTH])), rd_clearAll_notMem (key_state_notCleared c)]
    exact hstate
  case lsen =>
    have hl : (d.presenceLost c).lsen = (clearAll (slotCleared c) ((d.setLsen c false).slGo c slEMPTY)).lsen := by
      rw [presenceLost_eq]
      rfl
    rw [hl, lsen_clearAll, hlsen]
  case prsnt =>
    rw [flag, hrd (key_ne_of_lo (by simp [Reg.LAS_SLOT_PRSNT, Reg.LAS_SLOT_HEALTH])),
      show slotCleared c = Reg.LAS_SLOT_PRSNT c :: (slotCleared c).tail from rfl, rd_clearAll_head (key_prsnt_notCleared c)]
    rfl

/-! Assignment (R392, R393). -/

@[simp] theorem sbHj_wr (f : Fld) (v : Nat) (d : Dev) : (d.wr f v).sbHj = d.sbHj := rfl

/-- A slot of a port that ENTDAA assigns. -/
def assign (won p : Nat) (d : Dev) (i : Nat) : Dev :=
  if bit won i ∧ d.flag (Reg.LAS_SLOT_PRSNT (4 * p + i)) ∧ ¬ d.flag (Reg.LAS_SLOT_LEGACY (4 * p + i))
      ∧ (d.slState (4 * p + i) = slEMPTY ∨ d.slState (4 * p + i) = slREFUSED ∨ d.slState (4 * p + i) = slUNKNOWN) then
    d.slGo (4 * p + i) slJOINING else d

theorem rd_assign_ne {won i : Nat} (h : f.key ≠ (Reg.LAS_SLOT_STATE (4 * p + i)).key) (d : Dev) : (d.assign won p i).rd f = d.rd f := by
  unfold assign
  split
  · exact rd_slGo_ne h ..
  · rfl

/-- The slots of the port, assigned. -/
def assigned (won p : Nat) (d : Dev) : Dev := (List.range 4).foldl (assign won p) d

theorem sbHj_assigned (won p : Nat) (d : Dev) : (d.assigned won p).sbHj = d.sbHj :=
  foldl_keeps (fun e : Dev => e.sbHj = d.sbHj) _ _ _ rfl fun e i he => by
    unfold assign
    split
    · exact (slGo_keeps ..).2.2.trans he
    · exact he

theorem slState_assign_ne {i : Nat} (h : c ≠ 4 * p + i) (won : Nat) (d : Dev) : (d.assign won p i).slState c = d.slState c := by
  refine rd_assign_ne ?_ d
  simp only [Fld.key, Reg.LAS_SLOT_STATE, Reg.LAS_SLOT]
  omega

theorem slState_assigned_lost {won : Nat} (h : bit won (c % 4) = false) (p : Nat) (d : Dev) : (d.assigned won p).slState c = d.slState c := by
  refine List.foldlRecOn (motive := fun e : Dev => e.slState c = d.slState c) _ _ rfl fun e he i hi => ?_
  by_cases hc : c = 4 * p + i
  · have hi := List.mem_range.mp hi
    have hi4 : c % 4 = i := by omega
    rw [assign, if_neg (by simp [← hi4, h])]
    exact he
  · exact (slState_assign_ne hc won e).trans he

/-- Slot c is present, no legacy cartridge, and empty or already joining. -/
def Joins (c : Nat) (d : Dev) : Prop :=
  d.flag (Reg.LAS_SLOT_PRSNT c) = true ∧ d.flag (Reg.LAS_SLOT_LEGACY c) = false ∧ (d.slState c = slEMPTY ∨ d.slState c = slJOINING)

/-- Its own turn makes it join. -/
theorem slState_assign_own {won : Nat} (hp : p = c / 4) (hw : bit won (c % 4) = true) (h : Joins c d) :
    (d.assign won p (c % 4)).slState c = slJOINING := by
  obtain ⟨hpr, hl, hs⟩ := h
  have hc : 4 * p + c % 4 = c := by omega
  rcases hs with hs | hs
  · rw [assign, hc, if_pos ⟨hw, hpr, by simp [hl], .inl hs⟩, slState_slGo_same _ (by decide)]
  · rw [assign, hc, if_neg (by simp [hs, slJOINING, slEMPTY, slREFUSED, slUNKNOWN]), hs]

theorem joins_assign {won i : Nat} (hp : p = c / 4) (hw : bit won (c % 4) = true) (h : Joins c d) : Joins c (d.assign won p i) := by
  refine ⟨?_, ?_, ?_⟩
  · rw [flag, rd_assign_ne (f := Reg.LAS_SLOT_PRSNT c) (key_slot_ne (by decide) (by decide) _), ← flag]
    exact h.1
  · rw [flag, rd_assign_ne (f := Reg.LAS_SLOT_LEGACY c) (key_slot_ne (by decide) (by decide) _), ← flag]
    exact h.2.1
  · by_cases hc : c = 4 * p + i
    · have hi : i = c % 4 ∨ c ≠ 4 * p + i := by omega
      rw [hi.resolve_right (by simp [hc])]
      exact .inr (slState_assign_own hp hw h)
    · rw [slState_assign_ne hc]
      exact h.2.2

/-- An empty present slot that won an address joins. -/
theorem slState_assigned_won {won : Nat} (hp : p = c / 4) (hw : bit won (c % 4) = true) (h : Joins c d) :
    (d.assigned won p).slState c = slJOINING := by
  refine foldl_reaches (a := c % 4) (before := Joins c) (after := fun e : Dev => e.slState c = slJOINING)
    (List.mem_range.mpr (by omega)) h (fun e he i _ => joins_assign hp hw he) (fun e he => slState_assign_own hp hw he) fun e he i _ => ?_
  unfold assign
  split
  · by_cases hc : c = 4 * p + i
    · rw [← hc, slState_slGo_same _ (by decide)]
    · rw [slState_slGo_ne hc, he]
  · exact he

theorem entdaa_eq {won : Nat} (h : d.rd (Reg.SBB_STAT_STATE p) = sbDAA) : d.entdaa p won =
    let e := (d.assigned won p).wr (Reg.SBB_STAT_STATE p) sbACTIVE
    if bit e.sbHj p then (({ e with sbHj := setBit e.sbHj p false }).incSat (Reg.SBB_CNT_HOTJOIN p) 1).startDaa p else e :=
  if_neg (by simp [h])

/-- The ports' registers stand above the slots'. -/
theorem key_slot_ne_port (hc : c < 8) (p : Nat) : (Reg.LAS_SLOT_STATE c).key ≠ (Reg.SBB_STAT_STATE p).key := by
  simp only [Fld.key, Reg.LAS_SLOT_STATE, Reg.LAS_SLOT, Reg.SBB_STAT_STATE, Reg.SBB_STAT]
  omega

theorem slState_startDaa (hc : c < 8) (p : Nat) (d : Dev) : (d.startDaa p).slState c = d.slState c :=
  rd_wr_ne _ _ _ _ (key_slot_ne_port hc p)

theorem slState_incSat {lo width reset : Nat} {ty : FTy} (hl : lo % 64 ≠ 0) (a n : Nat) (d : Dev) :
    (d.incSat ⟨a, lo, width, ty, reset⟩ n).slState c = d.slState c :=
  rd_wr_ne _ _ _ _ (key_ne_of_lo (Ne.symm hl))

/-- The end of an assignment, and a further one for a Hot-Join that was NACKed. -/
theorem entdaa_leaves {won : Nat} (hc : c < 8) (h : d.rd (Reg.SBB_STAT_STATE p) = sbDAA) :
    (d.entdaa p won).rd (Reg.SBB_STAT_STATE p) = (if bit d.sbHj p then sbDAA else sbACTIVE) ∧
    (d.entdaa p won).slState c = (d.assigned won p).slState c := by
  rw [entdaa_eq h]
  simp only [sbHj_wr, sbHj_assigned]
  have hact : ((d.assigned won p).wr (Reg.SBB_STAT_STATE p) sbACTIVE).slState c = (d.assigned won p).slState c :=
    rd_wr_ne _ _ _ _ (key_slot_ne_port hc p)
  split
  · refine ⟨rd_wr_same .., ?_⟩
    rw [slState_startDaa hc]
    exact (slState_incSat (by decide) ..).trans hact
  · exact ⟨rd_wr_same .., hact⟩

/-! Identity (R396, R399). -/

/-- The identity words are stored. -/
def storeId (s : Nat) (id : List Byte) (d : Dev) : Dev :=
  (List.range 4).foldl (fun (d : Dev) w => d.wr (Reg.LAS_ID_ID s w) (byteField id (8 * w) 8)) d

theorem rd_storeId_ne {s : Nat} (h : ∀ w < 4, f.key ≠ (Reg.LAS_ID_ID s w).key) (id : List Byte) (d : Dev) : (d.storeId s id).rd f = d.rd f :=
  List.foldlRecOn (motive := fun e : Dev => e.rd f = d.rd f) _ _ rfl fun _ he w hw =>
    (rd_wr_ne _ _ _ _ (h w (List.mem_range.mp hw))).trans he

theorem rd_storeId (s : Nat) (id : List Byte) {w : Nat} (hw : w < 4) (d : Dev) :
    (d.storeId s id).rd (Reg.LAS_ID_ID s w) = byteField id (8 * w) 8 := by
  have hlt : byteField id (8 * w) 8 < 2 ^ 64 := byteField_lt ..
  have ne {i j : Nat} (h : i ≠ j) : (Reg.LAS_ID_ID s i).key ≠ (Reg.LAS_ID_ID s j).key := by
    simp only [Fld.key, Reg.LAS_ID_ID, Reg.LAS_ID]
    omega
  refine foldl_reaches (before := fun _ => True) (after := fun e : Dev => e.rd (Reg.LAS_ID_ID s w) = byteField id (8 * w) 8)
    (List.mem_range.mpr hw) trivial (fun _ _ _ _ => trivial) (fun _ _ => ?_) fun e he i _ => ?_
  · rw [rd_wr_same]
    exact Nat.mod_eq_of_lt hlt
  · by_cases hi : w = i
    · subst hi
      rw [rd_wr_same]
      exact Nat.mod_eq_of_lt hlt
    · exact (rd_wr_ne _ _ _ _ (ne hi)).trans he

/-- The wear of a cartridge as its log and the device's own last value give it (R399). -/
def firstWear (x : Cart) (serial : Nat) (a b : Nat × Nat) : Nat :=
  let log := (if a.2 < b.2 then b.1 else a.1) * 1200
  if x.lastSerial = serial then max log x.lastEh else log

/-- The accepted cartridge's slot before it is READY. -/
def identity (s : Nat) (id : List Byte) (a b : Nat × Nat) (d : Dev) : Dev :=
  let e := d.storeId s id
  (e.setCart s { e.cart s with eh := firstWear (e.cart s) (e.cartSerial s) a b, aEh := a.1, aSeq := a.2, bEh := b.1, bSeq := b.2,
                               w2 := 2 }).wearMarks s

theorem identityRead_accepts {id : List Byte} {a b : Nat × Nat} (hs : d.slState c = slJOINING) (hr : d.idRefused c id = none) :
    d.identityRead c id a b =
      let s := byteField id 0xB 1 % 8
      let e := (d.identity s id a b).slGo s slREADY
      if e.flag Reg.LAS_CFG_AUTOON ∧ ¬ bit e.lasOff s then e.laserOn s else e := by
  rw [identityRead, if_neg (by simp [hs]), hr]
  rfl

/-! Wear marks (R398). -/

theorem eolSet_keeps {f g : Fld} (h : f.key ≠ g.key) (on : Bool) (d : Dev) :
    (d.eolSet c g on).rd f = d.rd f ∧ (d.eolSet c g on).carts = d.carts := by
  unfold eolSet
  split
  · rw [rd_irqEvent, irqEvent_sources]
    exact ⟨rd_setF_ne h, rfl⟩
  · exact ⟨rfl, rfl⟩

/-- The marks change the minutes of wear and three warnings of the slot. -/
def wearFields (c : Nat) : List Fld := [Reg.LAS_WEAR_EHMIN c, Reg.LAS_SLOT_EOL90 c, Reg.LAS_SLOT_EOL98 c, Reg.LAS_SLOT_OVERLIFE c]

/-- The slot's record apart, a wear mark is the writes of its fields. -/
def wearMarked (c : Nat) (d : Dev) : Dev :=
  let x := d.cart c
  let rated := d.cartRated c * ehHour
  let d := d.wr (Reg.LAS_WEAR_EHMIN c) (x.eh / 1200)
  let d := d.eolSet c (Reg.LAS_SLOT_EOL90 c) (rated * 90 ≤ x.eh * 100)
  let d := d.eolSet c (Reg.LAS_SLOT_EOL98 c) (rated * 98 ≤ x.eh * 100)
  if rated ≤ x.eh then d.setF (Reg.LAS_SLOT_OVERLIFE c) else d

theorem wearMarks_eq (c : Nat) (d : Dev) : d.wearMarks c =
    (d.wearMarked c).setCart c { d.cart c with lastSerial := (d.wearMarked c).cartSerial c, lastEh := (d.cart c).eh } := rfl

theorem wearMarked_keeps (h : ∀ g ∈ wearFields c, f.key ≠ g.key) (d : Dev) :
    (d.wearMarked c).rd f = d.rd f ∧ (d.wearMarked c).carts = d.carts := by
  simp only [wearFields, List.forall_mem_cons, List.not_mem_nil, false_implies, implies_true, and_true] at h
  obtain ⟨hmin, h90, h98, hover⟩ := h
  have hset (e : Dev) (q : Prop) [Decidable q] : (if q then e.setF (Reg.LAS_SLOT_OVERLIFE c) else e).rd f = e.rd f ∧
      (if q then e.setF (Reg.LAS_SLOT_OVERLIFE c) else e).carts = e.carts := by
    split
    · exact ⟨rd_setF_ne hover, rfl⟩
    · exact ⟨rfl, rfl⟩
  simp only [wearMarked]
  rw [(hset _ _).1, (hset _ _).2, (eolSet_keeps h98 _ _).1, (eolSet_keeps h98 _ _).2, (eolSet_keeps h90 _ _).1, (eolSet_keeps h90 _ _).2]
  exact ⟨rd_wr_ne _ _ _ _ hmin, rfl⟩

theorem rd_wearMarks (h : ∀ g ∈ wearFields c, f.key ≠ g.key) (d : Dev) : (d.wearMarks c).rd f = d.rd f := by
  rw [wearMarks_eq, rd_setCart, (wearMarked_keeps h d).1]

theorem key_id_notWear {k w : Nat} (hk : k < 8) (hw : w < 4) (c : Nat) : ∀ g ∈ wearFields c, (Reg.LAS_ID_ID k w).key ≠ g.key := by
  simp only [wearFields, List.forall_mem_cons, List.not_mem_nil, false_implies, implies_true, and_true, Fld.key, Reg.LAS_ID_ID, Reg.LAS_ID,
    Reg.LAS_WEAR_EHMIN, Reg.LAS_WEAR, Reg.LAS_SLOT_EOL90, Reg.LAS_SLOT_EOL98, Reg.LAS_SLOT_OVERLIFE, Reg.LAS_SLOT]
  omega

theorem key_state_notWear {k : Nat} (hk : k < 8) (c : Nat) : ∀ g ∈ wearFields c, (Reg.LAS_SLOT_STATE k).key ≠ g.key := by
  simp only [wearFields, List.forall_mem_cons, List.not_mem_nil, false_implies, implies_true, and_true, Fld.key, Reg.LAS_SLOT_STATE,
    Reg.LAS_WEAR_EHMIN, Reg.LAS_WEAR, Reg.LAS_SLOT_EOL90, Reg.LAS_SLOT_EOL98, Reg.LAS_SLOT_OVERLIFE, Reg.LAS_SLOT]
  omega

theorem key_cfg_notWear {lo width reset : Nat} {ty : FTy} (hl : lo < 64) (c : Nat) :
    ∀ g ∈ wearFields c, (⟨Reg.LAS_CFG, lo, width, ty, reset⟩ : Fld).key ≠ g.key := by
  simp only [wearFields, List.forall_mem_cons, List.not_mem_nil, false_implies, implies_true, and_true, Fld.key, Reg.LAS_CFG,
    Reg.LAS_WEAR_EHMIN, Reg.LAS_WEAR, Reg.LAS_SLOT_EOL90, Reg.LAS_SLOT_EOL98, Reg.LAS_SLOT_OVERLIFE, Reg.LAS_SLOT]
  omega

theorem cartSerial_congr {d e : Dev} (h : ∀ w < 4, e.rd (Reg.LAS_ID_ID c w) = d.rd (Reg.LAS_ID_ID c w)) : e.cartSerial c = d.cartSerial c := by
  simp only [cartSerial, h 0 (by decide), h 1 (by decide)]

theorem carts_wearMarked (c : Nat) (d : Dev) : (d.wearMarked c).carts = d.carts :=
  (wearMarked_keeps (f := Reg.LAS_CFG_PLAN) (key_cfg_notWear (by decide) c) d).2

theorem cart_wearMarks (hc : c < 8) (d : Dev) :
    (d.wearMarks c).cart c = { d.cart c with lastSerial := d.cartSerial c, lastEh := (d.cart c).eh } := by
  rw [wearMarks_eq, cart_setCart_same, cartSerial_congr fun w hw => (wearMarked_keeps (key_id_notWear hc hw c) d).1]

/-! An accepted identity. -/

section identity

variable {id : List Byte} {a b : Nat × Nat}

theorem rd_identity (h : ∀ g ∈ wearFields c, f.key ≠ g.key) (d : Dev) : (d.identity c id a b).rd f = (d.storeId c id).rd f := by
  rw [identity, rd_wearMarks h, rd_setCart]

theorem cart_storeId (s : Nat) (id : List Byte) (d : Dev) (k : Nat) : (d.storeId s id).cart k = d.cart k :=
  foldl_keeps (fun e : Dev => e.cart k = d.cart k) _ _ _ rfl fun _ _ h => h

theorem id_identity (hc : c < 8) {w : Nat} (hw : w < 4) (d : Dev) :
    (d.identity c id a b).rd (Reg.LAS_ID_ID c w) = byteField id (8 * w) 8 := by
  rw [rd_identity (key_id_notWear hc hw c), rd_storeId c id hw]

theorem eh_identity (hc : c < 8) (d : Dev) :
    ((d.identity c id a b).cart c).eh = firstWear (d.cart c) ((d.identity c id a b).cartSerial c) a b := by
  have hserial : (d.identity c id a b).cartSerial c = (d.storeId c id).cartSerial c :=
    cartSerial_congr fun w hw => rd_identity (key_id_notWear hc hw c) d
  rw [hserial, identity, cart_wearMarks hc, cart_setCart_same, cart_storeId]

end identity

theorem firstWear_ne {x : Cart} {n : Nat} (h : x.lastSerial ≠ n) (a b : Nat × Nat) :
    firstWear x n a b = (if a.2 < b.2 then b.1 else a.1) * 1200 := if_neg h

theorem le_firstWear {x : Cart} {n : Nat} (h : x.lastSerial = n) (a b : Nat × Nat) : x.lastEh ≤ firstWear x n a b :=
  (Nat.le_max_right ..).trans (Nat.le_of_eq (if_pos h).symm)

/-! Lasers switched (R395, R401, R405). -/

/-- A slot of ALLOFF: shut down, its laser off (R405). -/
def darken (d : Dev) (c : Nat) : Dev := (d.slShut c).setLsen c false

theorem allOff_eq (d : Dev) : d.allOff = ((List.range 8).foldl darken { d with lasOff := 0xFF }).setF Reg.LAS_STAT_ALLOFF := rfl

theorem slState_darken_same (c : Nat) (d : Dev) : (d.darken c).slState c = if d.slState c = slEMPTY then slEMPTY else slOFF := by
  rw [darken, slState_setLsen, slShut]
  split
  · assumption
  · exact slState_slGo_same c (by decide) _

theorem darken_ne (h : k ≠ c) (d : Dev) : (d.darken c).slState k = d.slState k ∧ bit (d.darken c).lsen k = bit d.lsen k := by
  rw [darken, slState_setLsen, bit_setLsen_ne h, slShut]
  split
  · exact ⟨rfl, rfl⟩
  · rw [slState_slGo_ne h, lsen_slGo, slState_setLsen, bit_setLsen_ne h]
    exact ⟨rfl, rfl⟩

/-- Slot k after a darkening of the slots of a list. -/
theorem darkened (hk : k < 8) (d : Dev) : bit ((List.range 8).foldl darken d).lsen k = false ∧
    ((List.range 8).foldl darken d).slState k = if d.slState k = slEMPTY then slEMPTY else slOFF := by
  have hstill (x : Nat) : (if (if x = slEMPTY then slEMPTY else slOFF) = slEMPTY then slEMPTY else slOFF) = if x = slEMPTY then slEMPTY else slOFF := by
    split <;> simp [*, slEMPTY, slOFF]
  refine foldl_reaches (before := fun e : Dev => e.slState k = d.slState k ∨ e.slState k = if d.slState k = slEMPTY then slEMPTY else slOFF)
    (after := fun e : Dev => bit e.lsen k = false ∧ e.slState k = if d.slState k = slEMPTY then slEMPTY else slOFF)
    (List.mem_range.mpr hk) (.inl rfl) (fun e he c _ => ?_) (fun e he => ⟨bit_setLsen_same .., ?_⟩) fun e he c _ => ?_
  · by_cases hkc : k = c
    · subst hkc
      rw [slState_darken_same]
      rcases he with he | he
      · exact .inr (by rw [he])
      · exact .inr (by rw [he, hstill])
    · rwa [(darken_ne hkc e).1]
  · rw [slState_darken_same]
    rcases he with he | he
    · rw [he]
    · rw [he, hstill]
  · by_cases hkc : k = c
    · subst hkc
      exact ⟨bit_setLsen_same .., by rw [slState_darken_same, he.2, hstill]⟩
    · rwa [(darken_ne hkc e).1, (darken_ne hkc e).2]

theorem slState_lasRefuse (c code : Nat) (d : Dev) : (d.lasRefuse code).slState c = d.slState c := by
  have h (g : Fld) (hg : g.addr = 0x70010) (hl : g.lo < 64) : (Reg.LAS_SLOT_STATE c).key ≠ g.key := by
    simp only [Fld.key, Reg.LAS_SLOT_STATE, Reg.LAS_SLOT, hg]
    omega
  exact (rd_wr_ne _ _ _ _ (h _ rfl (by decide))).trans (rd_setF_ne (h _ rfl (by decide)))

theorem laserOn_allowed (h : d.slState c = slREADY ∨ d.slState c = slOFF) : d.laserOn c =
    ((({ d with lasOff := setBit d.lasOff c false }).clrF Reg.LAS_STAT_ALLOFF).setLsen c true).slGo c slWARMING :=
  if_neg (by tauto)

/-- A slot whose groups have left it, its wear written and its laser off. -/
def retired (c st : Nat) (d : Dev) : Dev := (((d.groupsLeave c).wearWrite c).setLsen c false).slGo c st

theorem regs_wearWrite (c : Nat) (d : Dev) : (d.wearWrite c).regs = d.regs := by
  unfold wearWrite
  dsimp only
  split <;> rfl

theorem groupsOn_retired (c st : Nat) (d : Dev) : (d.retired c st).groupsOn c = [] := by
  rw [← groupsOn_groupsLeave c d]
  refine groupsOn_congr ?_ c
  rw [retired, rd_slGo_ne ?_, rd_setLsen, rd, regs_wearWrite, ← rd]
  simp only [Fld.key, Reg.LAS_FEED_FEED, Reg.LAS_FEED, Reg.LAS_SLOT_STATE, Reg.LAS_SLOT]
  omega

end Sys2Proof.Machine.Dev

namespace Sys2Proof.Machine

section rows

variable (s : State) (c : Fin 8) (p : Fin 2)

theorem completes_presence : Completes (.presence c) s (s.dev.setF (Reg.LAS_SLOT_PRSNT c)) := rfl
theorem completes_presenceLost : Completes (.presenceLost c) s (s.dev.presenceLost c) := rfl
theorem completes_hotJoin : Completes (.hotJoin p) s (s.dev.hotJoin p) := rfl
theorem completes_entdaa (won : BitVec 4) : Completes (.entdaa p won) s (s.dev.entdaa p won.toNat) := rfl
theorem completes_legacyDetect : Completes (.legacyDetect c) s (s.dev.legacyDetect c) := rfl
theorem completes_identityRead (id : List Byte) (aE aS bE bS : BitVec 32) : Completes (.identityRead c id aE aS bE bS) s
    (s.dev.identityRead c id (aE.toNat, aS.toNat) (bE.toNat, bS.toNat)) := rfl
theorem completes_laserOn : Completes (.laserOn c) s (s.dev.laserOn c) := rfl
theorem completes_laserOff : Completes (.laserOff c) s (s.dev.laserOff c) := rfl
theorem completes_prep (force : Bool) : Completes (.prep c force) s (s.dev.prep c force) := rfl
theorem completes_alloff : Completes .alloff s s.dev.allOff := rfl
theorem completes_warmingTimeout : Completes (.warmingTimeout c) s (s.dev.warmingTimeout c) := rfl

end rows

open Dev in
/-- Settles O53: each command by the state of its slot or port. -/
theorem slotsFollowTheirStates : Obligations.SlotsFollowTheirStates := by
  intro s c p won id aE aS bE bS force st port present read stuck off
  have hc : c.val < 8 := c.isLt
  have hread := completes_identityRead s c id aE aS bE bS
  refine ⟨completes_presence s c, ⟨_, completes_presenceLost s c, ?lost⟩, fun h => (completes_hotJoin s p).of_eq (if_pos h),
    fun h => ⟨_, (completes_hotJoin s p).of_eq ((if_neg (ne_of_eq_of_ne h (by decide))).trans (if_pos h)), rd_wr_same ..⟩,
    fun h h' => (completes_hotJoin s p).of_eq ((if_neg h).trans (if_neg h')), fun h => (completes_entdaa s p won).of_eq (if_pos h),
    fun h => ⟨_, completes_entdaa s p won, (entdaa_leaves hc h).1, fun hp hpr hl hw hs => ?won, fun hw => ?lostOut⟩,
    fun hs hpr ha => ⟨_, (completes_legacyDetect s c).of_eq (if_pos ⟨hs, hpr, ha⟩), ?legacy⟩,
    fun h => (completes_legacyDetect s c).of_eq (if_neg (by tauto)), fun h => hread.of_eq (if_pos h),
    fun k hs hk => ⟨_, hread.of_eq (by rw [identityRead, if_neg (not_not.mpr hs), hk]), ?refused⟩,
    fun h => if_pos h, fun hs hr ha hid => ?accepted, fun h h' => (completes_laserOn s c).of_eq (if_pos ⟨h, h'⟩),
    fun h => ⟨_, (completes_laserOn s c).of_eq (laserOn_allowed h), switched _ _ (by decide) _⟩,
    fun h => (completes_laserOff s c).of_eq (if_pos h),
    fun h => ⟨_, (completes_laserOff s c).of_eq (if_neg (not_not.mpr h)), switched _ _ (by decide) _⟩,
    fun h h' h'' => (completes_prep s c force).of_eq (if_pos ⟨h, h', h''⟩), fun h => ⟨fun hst => ?stays, fun hst => ?drains⟩,
    ⟨_, completes_alloff s, ?flag, fun k hk => ?off⟩,
    fun h => ⟨_, (completes_warmingTimeout s c).of_eq (if_pos h), switched _ _ (by decide) _⟩,
    fun h => (completes_warmingTimeout s c).of_eq (if_neg h)⟩
  case lost =>
    obtain ⟨hstate, hlsen, hprsnt, hcart⟩ := presenceLost_leaves c s.dev
    exact ⟨hstate, hlsen, hprsnt, by rw [hcart], by rw [hcart]; rfl⟩
  case won => rw [(entdaa_leaves hc h).2, slState_assigned_won hp hw ⟨hpr, hl, .inl hs⟩]
  case lostOut => exact (entdaa_leaves hc h).2.trans (slState_assigned_lost hw p _)
  case legacy =>
    refine ⟨slState_slGo_same c (by decide) _, ?_⟩
    rw [flag, rd_slGo_ne (g := Reg.LAS_SLOT_LEGACY c) (key_slot_ne (by decide) (by decide) _), rd_setF_same rfl]
    rfl
  case refused =>
    have hstat {g : Fld} (ha : g.addr = 0x70010) (hl : g.lo < 64) : g.key ≠ (Reg.LAS_SLOT_STATE c).key := by
      simp only [Fld.key, Reg.LAS_SLOT_STATE, Reg.LAS_SLOT, ha]
      omega
    refine ⟨slState_slGo_same c (by decide) _, ?_, ?_⟩
    · rw [rd_slGo_ne (hstat rfl (by decide))]
      exact rd_wr_same ..
    · rw [flag, rd_slGo_ne (hstat rfl (by decide)), lasRefuse, rd_wr_ne _ _ _ _ (by decide), rd_setF_same rfl]
      rfl
  case accepted =>
    have hstate {g : Fld} (h : g.addr ≠ 0x70100 + 8 * c) (hl : g.lo < 64) : g.key ≠ (Reg.LAS_SLOT_STATE c).key := by
      simp only [Fld.key, Reg.LAS_SLOT_STATE, Reg.LAS_SLOT]
      omega
    have hkeep {g : Fld} (h : g.addr ≠ 0x70100 + 8 * c) (hl : g.lo < 64) :
        ((s.dev.identity c id (aE.toNat, aS.toNat) (bE.toNat, bS.toNat)).slGo c slREADY).rd g =
          (s.dev.identity c id (aE.toNat, aS.toNat) (bE.toNat, bS.toNat)).rd g := rd_slGo_ne (hstate h hl) ..
    have hidne (w : Nat) (hw : w < 4) : (Reg.LAS_ID_ID c w).addr ≠ 0x70100 + 8 * c := by
      simp only [Reg.LAS_ID_ID, Reg.LAS_ID]
      omega
    have hauto : ((s.dev.identity c id (aE.toNat, aS.toNat) (bE.toNat, bS.toNat)).slGo c slREADY).flag Reg.LAS_CFG_AUTOON = false := by
      rw [flag, hkeep (by simp only [Reg.LAS_CFG_AUTOON, Reg.LAS_CFG]; omega) (by decide), rd_identity (f := Reg.LAS_CFG_AUTOON) (key_cfg_notWear (by decide) c),
        rd_storeId_ne fun w _ => ?_, ← flag, ha]
      simp only [Fld.key, Reg.LAS_CFG_AUTOON, Reg.LAS_CFG, Reg.LAS_ID_ID, Reg.LAS_ID]
      omega
    have hserial : ((s.dev.identity c id (aE.toNat, aS.toNat) (bE.toNat, bS.toNat)).slGo c slREADY).cartSerial c =
        (s.dev.identity c id (aE.toNat, aS.toNat) (bE.toNat, bS.toNat)).cartSerial c :=
      cartSerial_congr fun w hw => hkeep (hidne w hw) (by simp [Reg.LAS_ID_ID])
    refine ⟨(s.dev.identity c id (aE.toNat, aS.toNat) (bE.toNat, bS.toNat)).slGo c slREADY,
      hread.of_eq ((identityRead_accepts hs hr).trans ?_), slState_slGo_same c (by decide) _, fun w hw => ?_, fun hne => ?_,
      fun he => ?_⟩
    · simp only [hid]
      exact if_neg (by simp [hauto])
    · rw [hkeep (hidne w hw) (by simp [Reg.LAS_ID_ID]), id_identity hc hw]
    · rw [cart_slGo, eh_identity hc]
      exact firstWear_ne (by rwa [hserial] at hne) ..
    · rw [cart_slGo, eh_identity hc]
      exact le_firstWear (by rwa [hserial] at he) ..
  case stays => exact (completes_prep s c false).of_eq ((if_neg (by tauto)).trans (if_pos ⟨hst, Bool.false_ne_true⟩))
  case drains =>
    have hgo : s.dev.prep c force = s.dev.retired c slDRAINED :=
      (if_neg (by tauto)).trans (if_neg fun hst' => hst.elim (absurd hst'.1) fun hf => hst'.2 hf)
    exact ⟨_, (completes_prep s c force).of_eq hgo, (switched _ _ (by decide) _).1, (switched _ _ (by decide) _).2, groupsOn_retired ..⟩
  case flag =>
    rw [allOff_eq, flag, rd_setF_same rfl]
    rfl
  case off =>
    rw [allOff_eq]
    refine ⟨(darkened hk _).1, ?_⟩
    have hne : (Reg.LAS_SLOT_STATE k).key ≠ Reg.LAS_STAT_ALLOFF.key := by
      simp only [Fld.key, Reg.LAS_SLOT_STATE, Reg.LAS_SLOT, Reg.LAS_STAT_ALLOFF, Reg.LAS_STAT]
      omega
    rw [slState, rd_setF_ne hne]
    exact (darkened hk _).2

end Sys2Proof.Machine
end

section
/-!
The polls, the feeds and the recovery of cartridges (O54).
-/
namespace Sys2Proof.Machine.Dev

variable {d e f : Dev} {c k p : Nat}

/-! Groups that leave or take a cartridge keep the slots. -/

/-- From `d` to `e` the cartridges' registers, records and lasers stand, the feeds apart. -/
structure KeepsSlots (d e : Dev) : Prop where
  rd : ∀ f, LaserField f → f.key ≠ Reg.LAS_FEED_FEED.key → e.rd f = d.rd f
  carts : e.carts = d.carts
  lsen : e.lsen = d.lsen

namespace KeepsSlots

theorem refl (d : Dev) : KeepsSlots d d := ⟨fun _ _ _ => rfl, rfl, rfl⟩

theorem trans (h : KeepsSlots d e) (h' : KeepsSlots e f) : KeepsSlots d f :=
  ⟨fun g hg hne => (h'.rd g hg hne).trans (h.rd g hg hne), h'.carts.trans h.carts, h'.lsen.trans h.lsen⟩

theorem of_laser (h : KeepsLaser d e) : KeepsSlots d e := ⟨fun g hg _ => h.rd g hg, h.carts, h.lsen⟩

theorem slState (h : KeepsSlots d e) (hc : c < 8) : e.slState c = d.slState c := by
  refine h.rd _ ⟨?_, ?_, by simp [Reg.LAS_SLOT_STATE]⟩ ?_
  all_goals
    simp only [Fld.key, Reg.LAS_SLOT_STATE, Reg.LAS_SLOT, Reg.LAS_FEED_FEED, Reg.LAS_FEED]
    omega

theorem cart (h : KeepsSlots d e) (c : Nat) : e.cart c = d.cart c := by rw [Dev.cart, h.carts, ← Dev.cart]

theorem foldl {α : Type} {step : Dev → α → Dev} {xs : List α} (h : ∀ e, ∀ x ∈ xs, KeepsSlots d e → KeepsSlots e (step e x)) :
    KeepsSlots d (xs.foldl step d) :=
  List.foldlRecOn (motive := KeepsSlots d) xs step (.refl d) fun e he x hx => he.trans (h e x hx he)

end KeepsSlots

theorem setFeed_slots (i g k : Nat) (d : Dev) : KeepsSlots d (d.setFeed i g k) :=
  ⟨fun _ hf hne => rd_setFeed hf hne i g k d, (setFeed_keeps i g k d).1, (setFeed_keeps i g k d).2⟩

/-- A group of an unhealthy cartridge goes dark with an error record and no more (R230). -/
theorem feedDark_slots {i g : Nat} (hi : i < 8) (hg : g < 2)
    (h : d.cartHealthy (feedCart i g 0) = false ∨ d.cartHealthy (feedCart i g 1) = false) : KeepsSlots d (d.feedDark i g) := by
  have hboth : (d.cartHealthy (feedCart i g 0) && d.cartHealthy (feedCart i g 1)) = false := by
    rcases h with h | h <;> simp [h]
  simp only [feedDark, hboth, Bool.false_eq_true, if_false]
  exact (setFeed_slots i g 2 d).trans <| (KeepsSlots.of_laser (KeepsLaser.foldl (fun x l hl => lkDown_laser (mem_feedLinks hi hg hl) x) _)).trans
    (.of_laser (err_laser (by decide) _ _))

theorem feedLeave_slots {i g : Nat} (hi : i < 8) (hg : g < 2)
    (h : d.cartHealthy (feedCart i g 0) = false ∨ d.cartHealthy (feedCart i g 1) = false) (lit : Bool) :
    KeepsSlots d (d.feedLeave i g lit) := by
  simp only [feedLeave]
  split
  · exact .refl d
  · split
    · exact setFeed_slots ..
    · exact feedDark_slots hi hg h

theorem cartHealthy_notOn (h : d.slState c ≠ slON) : d.cartHealthy c = false := by simp [cartHealthy, h]

/-- The groups of a cartridge that is not ON leave it. -/
theorem groupsLeave_slots (hc : c < 8) (h : d.slState c ≠ slON) : KeepsSlots d (d.groupsLeave c) := by
  refine KeepsSlots.foldl fun e x hx he => ?_
  obtain ⟨hmem, hon⟩ := List.mem_filter.mp hx
  simp only [Bool.and_eq_true, decide_eq_true_eq] at hon
  obtain ⟨hlt, hcart⟩ := hon
  have hdown : e.cartHealthy c = false := cartHealthy_notOn (by rwa [he.slState hc])
  refine feedLeave_slots (mem_feedGroups hmem).1 (mem_feedGroups hmem).2 ?_ true
  have hfeed : d.feed x.1 x.2 = 0 ∨ d.feed x.1 x.2 = 1 := by omega
  rcases hfeed with h0 | h0
  · exact .inl (by rwa [← h0, hcart])
  · exact .inr (by rwa [← h0, hcart])

theorem feedLight_slots (c : Nat) (d : Dev) : KeepsSlots d (d.feedLight c) := by
  refine KeepsSlots.foldl fun e x hx _ => ?_
  split
  · exact (setFeed_slots ..).trans (.of_laser (KeepsLaser.foldl (fun y l _ => tryTrain_laser l y) _))
  · exact .refl e

/-! A health read (R397). -/

section health

variable (status temp bias pout : Nat)

/-- The read's STATUS stored. -/
def statusNoted (d : Dev) (c status : Nat) : Dev :=
  if d.rd (Reg.LAS_SLOT_HEALTH c) = status then d else (d.wr (Reg.LAS_SLOT_HEALTH c) status).irqEvent (64 + 4 * c + 2)

theorem statusNoted_keeps (c status : Nat) (d : Dev) : (∀ f : Fld, f.key ≠ (Reg.LAS_SLOT_HEALTH c).key → (d.statusNoted c status).rd f = d.rd f) ∧
    (d.statusNoted c status).carts = d.carts ∧ (d.statusNoted c status).lsen = d.lsen := by
  unfold statusNoted
  split
  · exact ⟨fun _ _ => rfl, rfl, rfl⟩
  · rw [irqEvent_sources]
    exact ⟨fun f hf => rd_wr_ne _ _ _ _ hf, rfl, rfl⟩

/-- What a read notes: STATUS, temperature, bias and power. -/
def healthNoted (c status temp bias pout : Nat) (d : Dev) : Dev :=
  (((d.statusNoted c status).wr (Reg.LAS_SLOT_TEMP c) temp).wr (Reg.LAS_SLOT_BIAS c) bias).setCart c
    { (d.statusNoted c status).cart c with pout := pout, w2 := wearW2 bias }

theorem healthRead_eq (d : Dev) : d.healthRead c status temp bias pout =
    let e := d.healthNoted c status temp bias pout
    if e.slState c = slWARMING ∧ status < 2 then (e.slGo c slON).feedLight c
    else if e.slState c = slON ∧ status = 2 then ((e.setLsen c false).slGo c slFAILED).groupsLeave c
    else e := rfl

theorem rd_healthNoted {f : Fld} (h : ∀ g ∈ [Reg.LAS_SLOT_HEALTH c, Reg.LAS_SLOT_TEMP c, Reg.LAS_SLOT_BIAS c], f.key ≠ g.key) (d : Dev) :
    (d.healthNoted c status temp bias pout).rd f = d.rd f := by
  simp only [List.forall_mem_cons, List.not_mem_nil, false_implies, implies_true, and_true] at h
  rw [healthNoted, rd_setCart, rd_wr_ne _ _ _ _ h.2.2, rd_wr_ne _ _ _ _ h.2.1, (statusNoted_keeps c status d).1 f h.1]

theorem slState_healthNoted (k : Nat) (d : Dev) : (d.healthNoted c status temp bias pout).slState k = d.slState k := by
  refine rd_healthNoted _ _ _ _ ?_ d
  simp only [List.forall_mem_cons, List.not_mem_nil, false_implies, implies_true, and_true]
  refine ⟨?_, ?_, ?_⟩ <;> exact (key_slot_ne (by decide) (by decide) k).symm

theorem cart_healthNoted (d : Dev) : (d.healthNoted c status temp bias pout).cart c = { d.cart c with pout := pout, w2 := wearW2 bias } := by
  rw [healthNoted, cart_setCart_same, cart, (statusNoted_keeps c status d).2.1, ← cart]

theorem bias_healthNoted (d : Dev) : (d.healthNoted c status temp bias pout).rd (Reg.LAS_SLOT_BIAS c) = bias % 2 ^ 16 := by
  rw [healthNoted, rd_setCart, rd_wr_same]
  rfl

theorem slState_warm (hc : c < 8) (hs : d.slState c = slWARMING) (h : status < 2) :
    (d.healthRead c status temp bias pout).slState c = slON := by
  rw [healthRead_eq]
  refine (congrArg (fun x : Dev => x.slState c) (if_pos ⟨(slState_healthNoted ..).trans hs, h⟩)).trans ?_
  rw [(feedLight_slots c _).slState hc, slState_slGo_same c (by decide)]

theorem failed_leaves (hc : c < 8) (hs : d.slState c = slON) (h : status = 2) :
    (d.healthRead c status temp bias pout).slState c = slFAILED ∧ bit (d.healthRead c status temp bias pout).lsen c = false := by
  have hn : (d.healthNoted c status temp bias pout).slState c = slON := (slState_healthNoted ..).trans hs
  obtain ⟨hstate, hlsen⟩ := switched c false (st := slFAILED) (by decide) (d.healthNoted c status temp bias pout)
  have hslots := groupsLeave_slots hc (ne_of_eq_of_ne hstate (by decide))
  have heq : d.healthRead c status temp bias pout =
      (((d.healthNoted c status temp bias pout).setLsen c false).slGo c slFAILED).groupsLeave c :=
    (if_neg (by simp [h])).trans (if_pos ⟨hn, h⟩)
  rw [heq, hslots.slState hc, hslots.lsen]
  exact ⟨hstate, hlsen⟩

/-- A read that neither warms nor fails the cartridge only notes. -/
theorem healthRead_notes (hw : d.slState c ≠ slWARMING ∨ 2 ≤ status) (hf : d.slState c ≠ slON ∨ status ≠ 2) :
    d.healthRead c status temp bias pout = d.healthNoted c status temp bias pout := by
  rw [healthRead_eq]
  simp only [slState_healthNoted]
  rw [if_neg (by omega), if_neg (by tauto)]

/-- Whatever it does to the slot, a read leaves what it noted. -/
theorem healthRead_keeps (hc : c < 8) (d : Dev) :
    (∀ f, LaserField f → f.key ≠ Reg.LAS_FEED_FEED.key → f.key ≠ (Reg.LAS_SLOT_STATE c).key →
      (d.healthRead c status temp bias pout).rd f = (d.healthNoted c status temp bias pout).rd f) ∧
    (d.healthRead c status temp bias pout).cart c = (d.healthNoted c status temp bias pout).cart c := by
  rw [healthRead_eq]
  dsimp only
  split
  · have h := feedLight_slots c ((d.healthNoted c status temp bias pout).slGo c slON)
    exact ⟨fun f hf hne hs => (h.rd f hf hne).trans (rd_slGo_ne hs ..), by rw [h.cart, cart_slGo]⟩
  · split
    · have h := groupsLeave_slots hc (d := ((d.healthNoted c status temp bias pout).setLsen c false).slGo c slFAILED)
        (ne_of_eq_of_ne (slState_slGo_same c (by decide) _) (by decide))
      exact ⟨fun f hf hne hs => (h.rd f hf hne).trans ((rd_slGo_ne hs ..).trans (rd_setLsen ..)), by rw [h.cart, cart_slGo, cart_setLsen]⟩
    · exact ⟨fun _ _ _ _ => rfl, rfl⟩

end health

/-! A poll (R397, R398). -/

/-- The end of a poll: the interval's wear while the laser was lit, and the marks. -/
def worn (lit : Bool) (c : Nat) (d : Dev) : Dev :=
  ((if lit then d.setCart c { d.cart c with eh := (d.cart c).eh + max 1 (d.rd Reg.LAS_CFG_POLL) * (d.cart c).w2 } else d).wearMarks c).wearPoll c

theorem poll_reads {status temp bias pout : Nat} (h : d.polled c = true) : d.poll c status temp bias pout none =
    (d.healthRead c status temp bias pout).worn (decide (d.slState c = slWARMING ∨ d.slState c = slON)) c := by
  rw [poll, if_neg (by simp [h])]
  simp only [worn, decide_eq_true_eq]

theorem rd_wearPoll {f : Fld} (h : f.key ≠ (Reg.LAS_WEAR_LIFE c).key ∧ f.key ≠ (Reg.LAS_WEAR_REMAIN c).key) (d : Dev) :
    (d.wearPoll c).rd f = d.rd f := (rd_wr_ne _ _ _ _ h.2).trans (rd_wr_ne _ _ _ _ h.1)

theorem rd_worn {f : Fld} (h : ∀ g ∈ wearFields c, f.key ≠ g.key)
    (h' : f.key ≠ (Reg.LAS_WEAR_LIFE c).key ∧ f.key ≠ (Reg.LAS_WEAR_REMAIN c).key) (lit : Bool) (d : Dev) : (d.worn lit c).rd f = d.rd f := by
  rw [worn, rd_wearPoll h', rd_wearMarks h]
  cases lit <;> rfl

theorem key_slot_ne_life {lo width reset : Nat} {ty : FTy} (hc : c < 8) (h : lo < 64) (k : Nat) :
    (⟨Reg.LAS_SLOT c, lo, width, ty, reset⟩ : Fld).key ≠ (Reg.LAS_WEAR_LIFE k).key ∧
    (⟨Reg.LAS_SLOT c, lo, width, ty, reset⟩ : Fld).key ≠ (Reg.LAS_WEAR_REMAIN k).key := by
  simp only [Fld.key, Reg.LAS_SLOT, Reg.LAS_WEAR_LIFE, Reg.LAS_WEAR_REMAIN, Reg.LAS_WEAR]
  omega

theorem slState_worn (hc : c < 8) (lit : Bool) (d : Dev) : (d.worn lit c).slState c = d.slState c :=
  rd_worn (key_state_notWear hc c) (key_slot_ne_life hc (by decide) c) lit d

theorem key_bias_notWear (c k : Nat) : ∀ g ∈ wearFields k, (Reg.LAS_SLOT_BIAS c).key ≠ g.key := by
  simp only [wearFields, List.forall_mem_cons, List.not_mem_nil, false_implies, implies_true, and_true, Fld.key, Reg.LAS_SLOT_BIAS,
    Reg.LAS_WEAR_EHMIN, Reg.LAS_WEAR, Reg.LAS_SLOT_EOL90, Reg.LAS_SLOT_EOL98, Reg.LAS_SLOT_OVERLIFE, Reg.LAS_SLOT]
  omega

theorem laserField_slot {lo width reset : Nat} {ty : FTy} (hc : c < 8) (h : lo < 64) : LaserField ⟨Reg.LAS_SLOT c, lo, width, ty, reset⟩ := by
  simp only [LaserField, Reg.LAS_SLOT]
  omega

theorem key_slot_ne_feeds {lo width reset : Nat} {ty : FTy} (h : lo < 64) (c : Nat) :
    (⟨Reg.LAS_SLOT c, lo, width, ty, reset⟩ : Fld).key ≠ Reg.LAS_FEED_FEED.key := by
  simp only [Fld.key, Reg.LAS_SLOT, Reg.LAS_FEED_FEED, Reg.LAS_FEED]
  omega

theorem poll_healthRead {status temp bias pout : Nat} (hc : c < 8) (d : Dev) :
    (d.healthRead c status temp bias pout).rd Reg.LAS_CFG_POLL = d.rd Reg.LAS_CFG_POLL := by
  have hslot {lo width reset : Nat} {ty : FTy} (h : lo < 64) : Reg.LAS_CFG_POLL.key ≠ (⟨Reg.LAS_SLOT c, lo, width, ty, reset⟩ : Fld).key := by
    simp only [Fld.key, Reg.LAS_CFG_POLL, Reg.LAS_CFG, Reg.LAS_SLOT]
    omega
  rw [(healthRead_keeps status temp bias pout hc d).1 _ ⟨by decide, by decide, by decide⟩ (by decide) (hslot (by decide)), rd_healthNoted]
  simp only [List.forall_mem_cons, List.not_mem_nil, false_implies, implies_true, and_true]
  exact ⟨hslot (by decide), hslot (by decide), hslot (by decide)⟩

theorem lsen_eolSet (c : Nat) (g : Fld) (on : Bool) (d : Dev) : (d.eolSet c g on).lsen = d.lsen := by
  unfold eolSet
  split
  · rw [irqEvent_sources]
    rfl
  · rfl

theorem lsen_worn (lit : Bool) (c : Nat) (d : Dev) : (d.worn lit c).lsen = d.lsen := by
  have hset (e : Dev) (q : Prop) [Decidable q] (g : Fld) : (if q then e.setF g else e).lsen = e.lsen := by
    split <;> rfl
  have hmarked (e : Dev) : (e.wearMarks c).lsen = e.lsen := by
    rw [wearMarks_eq]
    change (e.wearMarked c).lsen = e.lsen
    simp only [wearMarked]
    rw [hset, lsen_eolSet, lsen_eolSet]
    rfl
  change ((if lit then _ else d).wearMarks c).lsen = d.lsen
  rw [hmarked]
  cases lit <;> rfl

theorem eh_worn (hc : c < 8) (lit : Bool) (d : Dev) : ((d.worn lit c).cart c).eh =
    (d.cart c).eh + if lit then max 1 (d.rd Reg.LAS_CFG_POLL) * (d.cart c).w2 else 0 := by
  change (((if lit then _ else d).wearMarks c).cart c).eh = _
  rw [cart_wearMarks hc]
  cases lit
  · rfl
  · simp

/-! Wear written back (R399). -/

theorem cart_wearWrite_same (c : Nat) (d : Dev) : (d.wearWrite c).cart c =
    let y := d.cart c
    let sq := (max y.aSeq y.bSeq + 1) % 2 ^ 32
    let eh := y.eh / 1200 % 2 ^ 32
    if y.aSeq ≤ y.bSeq then { y with aEh := eh, aSeq := sq } else { y with bEh := eh, bSeq := sq } := by
  unfold wearWrite
  dsimp only
  split <;> exact cart_setCart_same ..

theorem cart_wearWrite_ne (h : k ≠ c) (d : Dev) : (d.wearWrite c).cart k = d.cart k := by
  unfold wearWrite
  dsimp only
  split <;> exact cart_setCart_ne h ..

/-- One slot of the write-back. -/
def writeBack (d : Dev) (c : Nat) : Dev :=
  if d.identified c ∧ d.rd (Reg.SBB_STAT_STATE (c / 4)) = sbACTIVE then d.wearWrite c else d

theorem rd_writeBack (d : Dev) (c : Nat) (f : Fld) : (d.writeBack c).rd f = d.rd f := by
  unfold writeBack
  split
  · rw [rd, regs_wearWrite, ← rd]
  · rfl

theorem cart_writeBack_ne (h : k ≠ c) (d : Dev) : (d.writeBack c).cart k = d.cart k := by
  unfold writeBack
  split
  · exact cart_wearWrite_ne h d
  · rfl

/-- A slot's write-back turns on the registers and its own record. -/
theorem cart_writeBack_congr {d e : Dev} (hr : ∀ f, e.rd f = d.rd f) (hc : e.cart k = d.cart k) : (e.writeBack k).cart k = (d.writeBack k).cart k := by
  have hst : e.slState k = d.slState k := hr _
  have hid : e.identified k = d.identified k := by simp only [identified, hst]
  rw [writeBack, writeBack, hid, hr]
  split
  · rw [cart_wearWrite_same, cart_wearWrite_same, hc]
  · exact hc

theorem cart_writeBacks_notMem {l : List Nat} (h : k ∉ l) (d : Dev) : (l.foldl writeBack d).cart k = d.cart k :=
  List.foldlRecOn (motive := fun e : Dev => e.cart k = d.cart k) l _ rfl fun e he c hc =>
    (cart_writeBack_ne (fun hkc => h (by rwa [hkc])) e).trans he

theorem cart_writeBacks_mem {l : List Nat} (hn : l.Nodup) (hk : k ∈ l) (d : Dev) : (l.foldl writeBack d).cart k = (d.writeBack k).cart k := by
  obtain ⟨l₁, l₂, rfl⟩ := List.append_of_mem hk
  obtain ⟨hn1, hn2⟩ : k ∉ l₁ ∧ k ∉ l₂ := by
    simp only [List.nodup_append, List.nodup_cons] at hn
    exact ⟨fun h => hn.2.2 k h k List.mem_cons_self rfl, hn.2.1.1⟩
  rw [List.foldl_append, List.foldl_cons, cart_writeBacks_notMem hn2]
  exact cart_writeBack_congr (fun f => foldl_keeps (fun e : Dev => e.rd f = d.rd f) _ _ _ rfl fun e c he => (rd_writeBack e c f).trans he)
    (cart_writeBacks_notMem hn1 d)

theorem wearWriteback_eq (d : Dev) : d.wearWriteback = (List.range 8).foldl writeBack d := rfl

/-! Recovery (R403, R404). -/

/-- The slots of a port whose recovery succeeded: those that are UNKNOWN are read again. -/
def rejoined (p : Nat) (d : Dev) : Dev :=
  (List.range 4).foldl (fun (d : Dev) i => if d.slState (4 * p + i) = slUNKNOWN then d.slGo (4 * p + i) slJOINING else d) d

theorem recovered_eq (p : Nat) (d : Dev) :
    d.recovered p = (rejoined p ((d.clrF (Reg.SBB_STAT_SDALOW p)).incSat (Reg.SBB_CNT_RECOV p) 1)).startDaa p := rfl

theorem port_recovered (p : Nat) (d : Dev) : (d.recovered p).rd (Reg.SBB_STAT_STATE p) = sbDAA := by
  rw [recovered_eq]
  exact rd_wr_same ..

theorem rd_rejoined {f : Fld} (h : ∀ c, f.key ≠ (Reg.LAS_SLOT_STATE c).key) (p : Nat) (d : Dev) : (d.rejoined p).rd f = d.rd f :=
  foldl_keeps (fun e : Dev => e.rd f = d.rd f) _ _ _ rfl fun e i he => by
    split
    · exact (rd_slGo_ne (h _) ..).trans he
    · exact he

/-- The ports' fields from bit 3 up are apart from every STATE. -/
theorem key_ne_states {f : Fld} (h : f.lo % 64 ≠ 0) (c : Nat) : f.key ≠ (Reg.LAS_SLOT_STATE c).key := key_ne_of_lo h

theorem sdaLow_recovered (p : Nat) (d : Dev) : (d.recovered p).flag (Reg.SBB_STAT_SDALOW p) = false := by
  have hcleared : (d.clrF (Reg.SBB_STAT_SDALOW p)).rd (Reg.SBB_STAT_SDALOW p) = 0 := rd_clrF_same _
  rw [flag, recovered_eq, startDaa, rd_wr_ne _ _ _ _ (key_ne_of_lo (by simp [Reg.SBB_STAT_SDALOW, Reg.SBB_STAT_STATE])),
    rd_rejoined (key_ne_states (by simp [Reg.SBB_STAT_SDALOW])), incSat,
    rd_wr_ne _ _ _ _ (key_ne_of_lo (by simp [Reg.SBB_STAT_SDALOW, Reg.SBB_CNT_RECOV])), hcleared]
  rfl

theorem sbHj_rejoined (p : Nat) (d : Dev) : (d.rejoined p).sbHj = d.sbHj :=
  foldl_keeps (fun e : Dev => e.sbHj = d.sbHj) _ _ _ rfl fun e i he => by
    split
    · exact (slGo_keeps ..).2.2.trans he
    · exact he

theorem sbHj_recovered (p : Nat) (d : Dev) : (d.recovered p).sbHj = d.sbHj := by
  rw [recovered_eq, startDaa, sbHj_wr, sbHj_rejoined, incSat, sbHj_wr, clrF, sbHj_wr]

/-- The port once its recovery has begun. -/
def recovering (p : Nat) (d : Dev) : Dev := (d.wr (Reg.SBB_STAT_STATE p) sbRECOVERING).wr (Reg.SBB_STAT_TRIES p) 0

theorem recover_eq (p : Nat) (low : Bool) (d : Dev) :
    d.recover p low = if low then (d.recovering p).setF (Reg.SBB_STAT_SDALOW p) else (d.recovering p).recovered p := rfl

theorem key_tries_ne_state (p : Nat) : (Reg.SBB_STAT_TRIES p).key ≠ (Reg.SBB_STAT_STATE p).key :=
  key_ne_of_lo (by simp [Reg.SBB_STAT_STATE, Reg.SBB_STAT_TRIES])

theorem recover_low (p : Nat) (d : Dev) : (d.recover p true).rd (Reg.SBB_STAT_STATE p) = sbRECOVERING ∧
    (d.recover p true).rd (Reg.SBB_STAT_TRIES p) = 0 ∧ (d.recover p true).flag (Reg.SBB_STAT_SDALOW p) = true := by
  rw [recover_eq, if_pos rfl, flag, rd_setF_ne (key_ne_of_lo (by simp [Reg.SBB_STAT_STATE, Reg.SBB_STAT_SDALOW])),
    rd_setF_ne (key_ne_of_lo (by simp [Reg.SBB_STAT_TRIES, Reg.SBB_STAT_SDALOW])), rd_setF_same rfl, recovering, rd_wr_same,
    rd_wr_ne _ _ _ _ (key_tries_ne_state p).symm, rd_wr_same]
  exact ⟨rfl, Nat.zero_mod _, rfl⟩

theorem port_recover (p : Nat) (low : Bool) (d : Dev) :
    (d.recover p low).rd (Reg.SBB_STAT_STATE p) = if low then sbRECOVERING else sbDAA := by
  cases low with
  | true => exact (recover_low p d).1
  | false => exact port_recovered ..

theorem sbHj_recover (p : Nat) (low : Bool) (d : Dev) : (d.recover p low).sbHj = d.sbHj := by
  cases low with
  | true => rfl
  | false => exact sbHj_recovered ..

/-- An attempt counted. -/
def tried (p : Nat) (d : Dev) : Dev := d.wr (Reg.SBB_STAT_TRIES p) (d.rd (Reg.SBB_STAT_TRIES p) + 1)

theorem slState_tried (c p : Nat) (d : Dev) : (d.tried p).slState c = d.slState c :=
  rd_wr_ne _ _ _ _ (key_ne_of_lo (by simp [Reg.LAS_SLOT_STATE, Reg.SBB_STAT_TRIES]))

theorem recoveryAttempt_eq {ok : Bool} (h : d.rd (Reg.SBB_STAT_STATE p) = sbRECOVERING) : d.recoveryAttempt p ok =
    if ok then (d.tried p).recovered p else if 3 ≤ d.rd (Reg.SBB_STAT_TRIES p) + 1 then (d.tried p).portStuck p else d.tried p :=
  if_neg (by simp [h])

/-- A slot of a stuck port. -/
def stranded (d : Dev) (c : Nat) : Dev := if d.slState c = slEMPTY then d else (d.setLsen c false).slGo c slUNKNOWN

/-- The port's registers once it is STUCK. -/
def stuckPort (p : Nat) (d : Dev) : Dev :=
  ((d.wr (Reg.SBB_STAT_STATE p) sbSTUCK).setF (Reg.SBB_STAT_SDALOW p)).incSat (Reg.SBB_CNT_STUCKS p) 1

theorem portStuck_eq (p : Nat) (d : Dev) : d.portStuck p =
    ((List.range 4).map (4 * p + ·)).foldl (fun (d : Dev) c => d.groupsLeave c) (((List.range 4).map (4 * p + ·)).foldl stranded (d.stuckPort p)) :=
  rfl

theorem slState_stranded_same (c : Nat) (d : Dev) : (d.stranded c).slState c = if d.slState c = slEMPTY then slEMPTY else slUNKNOWN := by
  unfold stranded
  split
  · assumption
  · exact slState_slGo_same c (by decide) _

theorem stranded_ne (h : k ≠ c) (d : Dev) : (d.stranded c).slState k = d.slState k ∧ bit (d.stranded c).lsen k = bit d.lsen k := by
  unfold stranded
  split
  · exact ⟨rfl, rfl⟩
  · rw [slState_slGo_ne h, lsen_slGo, slState_setLsen, bit_setLsen_ne h]
    exact ⟨rfl, rfl⟩

theorem rd_stranded {f : Fld} (h : f.key ≠ (Reg.LAS_SLOT_STATE c).key) (d : Dev) : (d.stranded c).rd f = d.rd f := by
  unfold stranded
  split
  · rfl
  · rw [rd_slGo_ne h, rd_setLsen]

theorem slState_stuckPort (hc : c < 8) (p : Nat) (d : Dev) : (d.stuckPort p).slState c = d.slState c :=
  (slState_incSat (by decide) ..).trans <| (rd_setF_ne (key_ne_of_lo (by simp [Reg.LAS_SLOT_STATE, Reg.SBB_STAT_SDALOW]))).trans
    (rd_wr_ne _ _ _ _ (key_slot_ne_port hc p))

theorem port_stuckPort (p : Nat) (d : Dev) : (d.stuckPort p).rd (Reg.SBB_STAT_STATE p) = sbSTUCK := by
  rw [stuckPort, incSat, rd_wr_ne _ _ _ _ (key_ne_of_lo (by simp [Reg.SBB_STAT_STATE, Reg.SBB_CNT_STUCKS])),
    rd_setF_ne (key_ne_of_lo (by simp [Reg.SBB_STAT_STATE, Reg.SBB_STAT_SDALOW])), rd_wr_same]
  rfl

/-- The slots of port p. -/
theorem mem_portSlots {p : Nat} : c ∈ (List.range 4).map (4 * p + ·) ↔ c / 4 = p := by
  simp only [List.mem_map, List.mem_range]
  exact ⟨fun ⟨i, hi, h⟩ => by omega, fun h => ⟨c % 4, by omega, by omega⟩⟩

section stuck

variable {l : List Nat}

/-- A slot that is EMPTY or UNKNOWN stays so while others are stranded. -/
theorem stranded_settled (h : d.slState c = slEMPTY ∨ d.slState c = slUNKNOWN) (k : Nat) :
    (d.stranded k).slState c = slEMPTY ∨ (d.stranded k).slState c = slUNKNOWN := by
  by_cases hk : c = k
  · subst hk
    rw [slState_stranded_same]
    split
    · exact .inl rfl
    · exact .inr rfl
  · rwa [(stranded_ne hk d).1]

theorem settled_strandeds (h : c ∈ l) (d : Dev) :
    (l.foldl stranded d).slState c = slEMPTY ∨ (l.foldl stranded d).slState c = slUNKNOWN :=
  foldl_reaches (before := fun _ => True) (after := fun e : Dev => e.slState c = slEMPTY ∨ e.slState c = slUNKNOWN) h trivial
    (fun _ _ _ _ => trivial) (fun e _ => by rw [slState_stranded_same]; split <;> simp) fun _ he k _ => stranded_settled he k

/-- A cartridge of a stuck port is UNKNOWN and dark. -/
theorem unknown_strandeds (h : c ∈ l) (hs : d.slState c ≠ slEMPTY) :
    (l.foldl stranded d).slState c = slUNKNOWN ∧ bit (l.foldl stranded d).lsen c = false := by
  have hown {e : Dev} (he : e.slState c ≠ slEMPTY) : (e.stranded c).slState c = slUNKNOWN ∧ bit (e.stranded c).lsen c = false := by
    rw [stranded, if_neg he]
    exact switched c false (by decide) e
  refine foldl_reaches (before := fun e : Dev => e.slState c ≠ slEMPTY)
    (after := fun e : Dev => e.slState c = slUNKNOWN ∧ bit e.lsen c = false) h hs (fun e he k _ => ?_) (fun e he => hown he) fun e he k _ => ?_
  · by_cases hk : c = k
    · subst hk
      rw [(hown he).1]
      decide
    · rwa [(stranded_ne hk e).1]
  · by_cases hk : c = k
    · subst hk
      exact hown (by rw [he.1]; decide)
    · rwa [(stranded_ne hk e).1, (stranded_ne hk e).2]

end stuck

theorem portStuck_leaves (hp : p < 2) (d : Dev) : (d.portStuck p).rd (Reg.SBB_STAT_STATE p) = sbSTUCK ∧
    ∀ c < 8, c / 4 = p → d.slState c ≠ slEMPTY → (d.portStuck p).slState c = slUNKNOWN ∧ bit (d.portStuck p).lsen c = false := by
  have hleave : KeepsSlots (((List.range 4).map (4 * p + ·)).foldl stranded (d.stuckPort p)) (d.portStuck p) := by
    rw [portStuck_eq]
    refine KeepsSlots.foldl fun e c hc he => ?_
    have hc8 : c < 8 := by
      have := mem_portSlots.mp hc
      omega
    refine groupsLeave_slots hc8 ?_
    rw [he.slState hc8]
    rcases settled_strandeds hc (d.stuckPort p) with h | h <;> rw [h] <;> decide
  refine ⟨?_, fun c hc8 hc hs => ?_⟩
  · have hfield : LaserField (Reg.SBB_STAT_STATE p) := by
      simp only [LaserField, Reg.SBB_STAT_STATE, Reg.SBB_STAT]
      omega
    rw [hleave.rd _ hfield (by simp only [Fld.key, Reg.SBB_STAT_STATE, Reg.SBB_STAT, Reg.LAS_FEED_FEED, Reg.LAS_FEED]; omega)]
    refine List.foldlRecOn (motive := fun e : Dev => e.rd (Reg.SBB_STAT_STATE p) = sbSTUCK) _ _ (port_stuckPort p d) fun e he c hc => ?_
    have hc := mem_portSlots.mp hc
    exact (rd_stranded (key_slot_ne_port (by omega) p).symm e).trans he
  · obtain ⟨hst, hl⟩ := unknown_strandeds (d := d.stuckPort p) (mem_portSlots.mpr hc) (by rwa [slState_stuckPort hc8])
    rw [hleave.slState hc8, hleave.lsen]
    exact ⟨hst, hl⟩

end Sys2Proof.Machine.Dev

namespace Sys2Proof.Machine

section rows

variable (s : State) (c : Fin 8) (p : Fin 2)

theorem completes_poll (status : BitVec 8) (temp bias pout : BitVec 16) (nack : Option Bool) : Completes (.poll c status temp bias pout nack) s
    (s.dev.poll c status.toNat temp.toNat bias.toNat pout.toNat nack) := rfl
theorem completes_inBandInterrupt (status : BitVec 8) (temp bias pout : BitVec 16) (nack : Option Bool) :
    Completes (.inBandInterrupt c status temp bias pout nack) s
      (s.dev.inBandInterrupt c status.toNat temp.toNat bias.toNat pout.toNat nack) := rfl
theorem completes_wearWriteback : Completes .wearWriteback s s.dev.wearWriteback := rfl
theorem completes_feedMove (e : Fin 8) (g side : Fin 2) : Completes (.feedMove e g side) s (s.dev.feedMove e g side) := rfl
theorem completes_recover (low : Bool) : Completes (.recover p low) s (s.dev.recover p low) := rfl
theorem completes_portReset (low : Bool) :
    Completes (.portReset p low) s (({ s.dev with sbHj := setBit s.dev.sbHj p false } : Dev).recover p low) := rfl
theorem completes_recoveryAttempt (ok : Bool) : Completes (.recoveryAttempt p ok) s (s.dev.recoveryAttempt p ok) := rfl

end rows

open Dev in
/-- Settles O54: a poll by what it reads, a move by the target's state, an attempt by how many went before. -/
theorem cartridgesArePolledAndRecovered : Obligations.CartridgesArePolledAndRecovered := by
  intro s c e p g side status temp bias pout nack low st port poll x target tries
  have hc : c.val < 8 := c.isLt
  have hpoll := fun n => completes_poll s c status temp bias pout n
  have hibi := fun n => completes_inBandInterrupt s c status temp bias pout n
  have hmove := completes_feedMove s e g side
  have hside : side.val ≠ 2 := by omega
  refine ⟨fun h => ⟨(hpoll _).of_eq (if_pos (by simp [h])), (hibi _).of_eq (if_pos (.inl (by simp [h])))⟩,
    fun h => (hpoll _).of_eq (if_neg (by simp [h])), fun h hst => ⟨_, (hpoll _).of_eq (poll_reads h), ?lit⟩,
    fun h hw ho => ⟨_, (hpoll _).of_eq (poll_reads h), ?unlit⟩, fun h => (hibi _).of_eq (if_pos (.inr h)),
    fun h hl => (hibi _).of_eq (if_neg (by simp [h, hl])), ⟨_, completes_wearWriteback s, fun k hk => ?wear⟩,
    fun h => hmove.of_eq (if_pos h), fun h ht => hmove.of_eq ((if_neg h).trans (if_pos ht)),
    fun h ht hd => hmove.of_eq ((if_neg h).trans ((if_neg (not_not.mpr ht)).trans (if_neg hd))),
    fun h ht => hmove.of_eq ((if_neg (by rw [h]; exact hside.symm)).trans ((if_neg (not_not.mpr ht)).trans (if_pos h))),
    feed_setFeed e.isLt g.isLt (by omega), ⟨_, completes_recover s p true, recover_low p s.dev⟩,
    ⟨_, completes_recover s p false, port_recovered .., sdaLow_recovered ..⟩, ⟨_, completes_portReset s p low, ?reset, port_recover ..⟩,
    fun h => (completes_recoveryAttempt s p low).of_eq (if_pos h),
    fun h => ⟨_, (completes_recoveryAttempt s p true).of_eq (recoveryAttempt_eq h), port_recovered ..⟩, fun h ht => ?again, fun h ht => ?stuck⟩
  case lit =>
    have hlit : decide (st = slWARMING ∨ st = slON) = true := decide_eq_true hst
    have hcart := (healthRead_keeps status.toNat temp.toNat bias.toNat pout.toNat hc s.dev).2
    have hrd := (healthRead_keeps status.toNat temp.toNat bias.toNat pout.toNat hc s.dev).1
    rw [show decide (s.dev.slState c = slWARMING ∨ s.dev.slState c = slON) = true from hlit, slState_worn hc, lsen_worn, eh_worn hc, hcart,
      cart_healthNoted]
    refine ⟨?_, ?_, slState_warm _ _ _ _ hc, fun hs h2 => failed_leaves _ _ _ _ hc hs (congrArg BitVec.toNat h2), fun hs hlt => ?_⟩
    · rw [poll_healthRead hc, if_pos rfl]
    · rw [rd_worn (key_bias_notWear c c) (key_slot_ne_life hc (by decide) c), hrd (Reg.LAS_SLOT_BIAS c) (laserField_slot hc (by decide))
        (key_slot_ne_feeds (by decide) c) (key_slot_ne (by decide) (by decide) c), bias_healthNoted]
      exact Nat.mod_eq_of_lt bias.isLt
    · rw [healthRead_notes _ _ _ _ (.inl (ne_of_eq_of_ne hs (by decide))) (.inr (by omega)), slState_healthNoted]
      exact hs
  case unlit =>
    have hlit : decide (s.dev.slState c = slWARMING ∨ s.dev.slState c = slON) = false := decide_eq_false (by tauto)
    rw [hlit, slState_worn hc, eh_worn hc, healthRead_notes _ _ _ _ (.inl hw) (.inl ho), cart_healthNoted, slState_healthNoted]
    exact ⟨rfl, rfl⟩
  case wear =>
    have hk' : (s.dev.wearWriteback).cart k = (s.dev.writeBack k).cart k := cart_writeBacks_mem List.nodup_range (List.mem_range.mpr hk) _
    refine ⟨fun hid ha => ?_, fun hid => ?_⟩
    · rw [hk', writeBack, if_pos ⟨hid, ha⟩, cart_wearWrite_same]
    · rw [hk', writeBack, if_neg (by simp [hid])]
  case reset =>
    rw [sbHj_recover]
    exact bit_setBit_same ..
  case again =>
    have hgo : s.dev.recoveryAttempt p false = s.dev.tried p :=
      (recoveryAttempt_eq h).trans ((if_neg Bool.false_ne_true).trans (if_neg (by omega)))
    refine ⟨_, (completes_recoveryAttempt s p false).of_eq hgo, (rd_wr_ne _ _ _ _ (key_tries_ne_state p).symm).trans h, ?_⟩
    rw [tried, rd_wr_same]
    have hlt : tries + 1 < 2 ^ 2 := by omega
    exact Nat.mod_eq_of_lt hlt
  case stuck =>
    have hgo : s.dev.recoveryAttempt p false = (s.dev.tried p).portStuck p :=
      (recoveryAttempt_eq h).trans ((if_neg Bool.false_ne_true).trans (if_pos (by omega)))
    obtain ⟨hport, hslots⟩ := portStuck_leaves p.isLt (s.dev.tried p)
    exact ⟨_, (completes_recoveryAttempt s p false).of_eq hgo, hport, fun i hi hs =>
      hslots _ (by omega) (by omega) (by rwa [slState_tried])⟩

end Sys2Proof.Machine
end

section
/-!
The bell unit (R295 to R304): what a change of its state, a measured error and a step of the counter set.
-/
namespace Sys2Proof.Machine.Dev

variable {d : Dev} {f : Fld} {st : Nat}

/-! A change of state (Table BL-1). -/

/-- The state written, with its event and its entry's time. -/
def bellMoved (st : Nat) (d : Dev) : Dev :=
  let e := (d.wr Reg.BL_STAT_STATE st).irqEvent 1280
  { e with bell := { e.bell with since := e.now } }

/-- What an entry to FREE does (R304). -/
def bellFreed (d : Dev) : Dev :=
  ((({ d with bellQuiet := true }.setF Reg.BL_STAT_FREEEV).irqEvent 1282).err 8 { sev := 2, cls := 0x40, qscope := 2 }).quietPin

theorem blGo_eq (h : d.blState ≠ st) : d.blGo st =
    let e := if st = bsHOLDOVER then (d.bellMoved st).incSat Reg.BL_CNT_HOLDS 1 else d.bellMoved st
    if st = bsFREE then e.bellFreed else if d.blState = bsFREE then ({ e with bellQuiet := false } : Dev).quietPin else e := if_neg h

theorem rd_bellMoved (h : f.key ≠ Reg.BL_STAT_STATE.key) (st : Nat) (d : Dev) : (d.bellMoved st).rd f = d.rd f := by
  change ((d.wr Reg.BL_STAT_STATE st).irqEvent 1280).rd f = d.rd f
  rw [rd_irqEvent, rd_wr_ne _ _ _ _ h]

theorem blState_bellMoved (h : st < 8) (d : Dev) : (d.bellMoved st).blState = st := by
  change ((d.wr Reg.BL_STAT_STATE st).irqEvent 1280).rd Reg.BL_STAT_STATE = st
  rw [rd_irqEvent, rd_wr_same]
  exact Nat.mod_eq_of_lt h

theorem now_bellMoved (st : Nat) (d : Dev) : (d.bellMoved st).now = d.now := by
  change ((d.wr Reg.BL_STAT_STATE st).irqEvent 1280).now = d.now
  rw [irqEvent_sources]
  rfl

theorem rd_bellFreed (h : f.key ≠ Reg.BL_STAT_FREEEV.key) (ha : 0x53000 ≤ f.addr) (d : Dev) : d.bellFreed.rd f = d.rd f := by
  refine (rd_err_outside ha (by decide) _ _).trans ?_
  rw [rd_irqEvent]
  exact rd_setF_ne h

theorem now_err {b : Nat} (hb : b < 64) (a : ErrArgs) (d : Dev) : (d.err b a).now = d.now := by
  rw [(err_records d hb a).rest]

theorem now_bellFreed (d : Dev) : d.bellFreed.now = d.now := by
  refine (now_err (by decide) _ _).trans ?_
  rw [irqEvent_sources]
  rfl

/-- The fields that a change of state writes. -/
def blGoFields : List Fld := [Reg.BL_STAT_STATE, Reg.BL_CNT_HOLDS, Reg.BL_STAT_FREEEV]

theorem rd_blGo (h : ∀ g ∈ blGoFields, f.key ≠ g.key) (ha : 0x53000 ≤ f.addr) (st : Nat) (d : Dev) : (d.blGo st).rd f = d.rd f := by
  simp only [blGoFields, List.forall_mem_cons, List.not_mem_nil, false_implies, implies_true, and_true] at h
  obtain ⟨hstate, hholds, hfree⟩ := h
  by_cases hs : d.blState = st
  · rw [blGo, if_pos hs]
  · have hheld : (if st = bsHOLDOVER then (d.bellMoved st).incSat Reg.BL_CNT_HOLDS 1 else d.bellMoved st).rd f = d.rd f := by
      split
      · exact (rd_wr_ne _ _ _ _ hholds).trans (rd_bellMoved hstate st d)
      · exact rd_bellMoved hstate st d
    rw [blGo_eq hs]
    dsimp only
    split
    · exact (rd_bellFreed hfree ha _).trans hheld
    · split <;> exact hheld

theorem blState_blGo (h : st < 8) (d : Dev) : (d.blGo st).blState = st := by
  by_cases hs : d.blState = st
  · rw [blGo, if_pos hs, hs]
  · have hheld : (if st = bsHOLDOVER then (d.bellMoved st).incSat Reg.BL_CNT_HOLDS 1 else d.bellMoved st).blState = st := by
      split
      · exact (rd_wr_ne _ _ _ _ (by decide)).trans (blState_bellMoved h d)
      · exact blState_bellMoved h d
    rw [blGo_eq hs]
    dsimp only
    split
    · exact (rd_bellFreed (by decide) (by decide) _).trans hheld
    · split <;> exact hheld

theorem now_blGo (st : Nat) (d : Dev) : (d.blGo st).now = d.now := by
  by_cases hs : d.blState = st
  · rw [blGo, if_pos hs]
  · have hheld : (if st = bsHOLDOVER then (d.bellMoved st).incSat Reg.BL_CNT_HOLDS 1 else d.bellMoved st).now = d.now := by
      split <;> exact now_bellMoved st d
    rw [blGo_eq hs]
    dsimp only
    split
    · exact (now_bellFreed _).trans hheld
    · split <;> exact hheld

/-- QUIET_N is asserted for bell scope while standby power is present (R304, R360). -/
theorem quietN_quietPin_bell (h : d.bellQuiet = true) : d.quietPin.pins.quietN = d.vstby := by
  simp only [quietPin, h, Bool.or_true, Bool.true_or, Bool.and_true]

theorem bellFreed_leaves (d : Dev) :
    d.bellFreed.bellQuiet = true ∧ d.bellFreed.flag Reg.BL_STAT_FREEEV = true ∧ d.bellFreed.pins.quietN = d.vstby := by
  have hrest := (err_records (({ d with bellQuiet := true }.setF Reg.BL_STAT_FREEEV).irqEvent 1282) (by decide : 8 < 64)
    { sev := 2, cls := 0x40, qscope := 2 }).rest
  have hquiet : ((({ d with bellQuiet := true }.setF Reg.BL_STAT_FREEEV).irqEvent 1282).err 8
      { sev := 2, cls := 0x40, qscope := 2 }).bellQuiet = true := by
    rw [hrest, irqEvent_sources]
    rfl
  refine ⟨hquiet, ?_, (quietN_quietPin_bell hquiet).trans ?_⟩
  · refine decide_eq_true ((rd_err_outside (by decide) (by decide) _ _).trans ?_)
    rw [rd_irqEvent]
    exact rd_setF_same rfl
  · rw [hrest, irqEvent_sources]
    rfl

theorem blGo_free (h : d.blState = bsHOLDOVER) : d.blGo bsFREE = (d.bellMoved bsFREE).bellFreed := by
  rw [blGo_eq (by rw [h]; decide)]
  exact if_pos rfl

theorem vstby_bellMoved (st : Nat) (d : Dev) : (d.bellMoved st).vstby = d.vstby := by
  change ((d.wr Reg.BL_STAT_STATE st).irqEvent 1280).vstby = d.vstby
  rw [irqEvent_sources]
  rfl

/-- HOLDOVER's expiry makes the part quiet (R304). -/
theorem blGo_free_leaves (h : d.blState = bsHOLDOVER) : (d.blGo bsFREE).blState = bsFREE ∧ (d.blGo bsFREE).bellQuiet = true ∧
    (d.blGo bsFREE).flag Reg.BL_STAT_FREEEV = true ∧ (d.blGo bsFREE).pins.quietN = d.vstby := by
  refine ⟨blState_blGo (by decide) d, ?_⟩
  rw [blGo_free h, ← vstby_bellMoved bsFREE d]
  exact bellFreed_leaves _

/-! An error measured and a counter stepped (R295, R296). -/

theorem rd_blErr (h : ∀ g ∈ [Reg.BL_ERR_ERR, Reg.BL_ERR_ERRMAX, Reg.BL_STAT_SLEWING], f.key ≠ g.key) (e : Int) (d : Dev) :
    (d.blErr e).rd f = d.rd f := by
  simp only [List.forall_mem_cons, List.not_mem_nil, false_implies, implies_true, and_true] at h
  obtain ⟨herr, hmax, hslew⟩ := h
  rw [blErr, rd_wr_ne _ _ _ _ hslew, rd_wr_ne _ _ _ _ hmax, rd_wr_ne _ _ _ _ herr]

theorem now_blErr (e : Int) (d : Dev) : (d.blErr e).now = d.now := rfl

theorem blState_blErr (e : Int) (d : Dev) : (d.blErr e).blState = d.blState := rd_blErr (by decide) e d

theorem blState_blRef (d : Dev) : d.blRef.blState = bsREFLOCK := blState_blGo (by decide) _

theorem now_blRef (d : Dev) : d.blRef.now = d.now := now_blGo ..

theorem depth_blRef (d : Dev) : d.blRef.rd Reg.BL_STAT_DEPTH = 0 := by
  rw [blRef, rd_blGo (by decide) (by decide), rd_wr_same, Nat.zero_mod]

theorem blStep_ahead {e : Int} (h : 0 ≤ e) : d.blStep e = ({ d with now := d.now + (e / 16).toNat } : Dev).blErr (e % 16) := if_pos h

/-! A lost source (Table BL-1). -/

theorem blLost_none {links : Bool} {not : List Nat}
    (h : (if links then d.blCands.find? fun l => d.lkUsableErr l && !(not.contains l) else none) = none) :
    d.blLost links not = d.blGo bsHOLDOVER := by
  rw [blLost, h]

theorem blLost_some {not : List Nat} {l : Nat} (h : (d.blCands.find? fun l => d.lkUsableErr l && !(not.contains l)) = some l) :
    d.blLost true not = (d.incSat Reg.BL_CNT_SWITCHES 1).blLink l := by
  rw [blLost, if_pos rfl, h]

theorem blState_blLink (l : Nat) (d : Dev) : (d.blLink l).blState = bsLINKLOCK := blState_blGo (by decide) _

theorem srcLink_blLink (l : Nat) (d : Dev) : (d.blLink l).rd Reg.BL_STAT_SRCLINK = l % 32 := by
  rw [blLink, rd_blGo (by decide) (by decide), rd_wr_ne _ _ _ _ (by decide), rd_wr_same]
  rfl

/-! A frame that agrees with the one before it (R298). -/

/-- The device at the frame's mark, its symbols taken. -/
def framed (d : Dev) (dt t : Nat) : Dev :=
  { d with now := d.now + dt, bell := { d.bell with syms := [], prevT := some t, ticks := d.now + dt } }

/-- The error that a frame's time shows. -/
def frameErr (d : Dev) (dt t : Nat) : Int := 16 * t + d.refDly - 16 * (d.now + dt : Nat)

/-- The counts of disagreement begin anew. -/
def agreed (d : Dev) : Dev := { d with bell := { d.bell with bad := 0, missing := 0 } }

section frame

variable {dt t : Nat} (hlen : 96 ≤ d.bell.syms.length) (hf : frameOf (d.bell.syms.take 96) = some t)
  (hp : d.bell.prevT = some (t - 384000)) (ht : 384000 ≤ t) (hen : d.flag Reg.BL_CTL_EN = true) (hsel : d.rd Reg.BL_CTL_SRCSEL = 0)
include hlen hf hp ht hen hsel

/-- Out of REFLOCK, such a frame acts by the state alone (Table BL-1). -/
theorem frame_agrees (hs : d.blState ≠ bsREFLOCK) : d.frame dt =
    let x := d.framed dt t
    let e := d.frameErr dt t
    if d.blState = bsUNLOCKED then (if 0 ≤ e ∨ e.natAbs ≤ slewMax16 then (x.blStep e).agreed.blRef else x.blErr e)
    else if d.blState = bsHOLDOVER ∨ d.blState = bsFREE then
      (if e.natAbs ≤ slewMax16 then (x.blErr e).agreed.blRef else ((x.blErr e).setF Reg.BL_STAT_BIGERR).irqEvent 1281)
    else x := by
  have hagree : ¬ (¬ (d.flag Reg.BL_CTL_EN = true ∧ d.rd Reg.BL_CTL_SRCSEL = 0) ∨
      ¬ (decide (d.bell.prevT = some (t - 384000)) && decide (384000 ≤ t)) = true) := by simp [hen, hsel, hp, ht]
  unfold frame
  dsimp only
  rw [if_neg (by omega), hf]
  exact (if_neg hs).trans (if_neg hagree)

theorem frame_unlocked (hs : d.blState = bsUNLOCKED) (he : 0 ≤ d.frameErr dt t) :
    d.frame dt = ((d.framed dt t).blStep (d.frameErr dt t)).agreed.blRef := by
  rw [frame_agrees hlen hf hp ht hen hsel (by rw [hs]; decide)]
  exact (if_pos hs).trans (if_pos (.inl he))

theorem frame_held (hs : d.blState = bsHOLDOVER ∨ d.blState = bsFREE) : d.frame dt =
    if (d.frameErr dt t).natAbs ≤ slewMax16 then ((d.framed dt t).blErr (d.frameErr dt t)).agreed.blRef
    else (((d.framed dt t).blErr (d.frameErr dt t)).setF Reg.BL_STAT_BIGERR).irqEvent 1281 := by
  have h01 : d.blState ≠ bsREFLOCK ∧ d.blState ≠ bsUNLOCKED := by
    rcases hs with h | h <;> rw [h] <;> decide
  rw [frame_agrees hlen hf hp ht hen hsel h01.1]
  exact (if_neg h01.2).trans (if_pos hs)

end frame

theorem frame_invalid (hlen : 96 ≤ d.bell.syms.length) (hf : frameOf (d.bell.syms.take 96) = none) (dt : Nat) :
    d.frame dt = ({ d with now := d.now + dt, bell := { d.bell with syms := [], prevT := none } } : Dev).incSat Reg.BL_CNT_BADFRAME 1 := by
  unfold frame
  dsimp only
  rw [if_neg (by omega), hf]

/-! An edge (R297, R299), a missing reference, and EN cleared. -/

/-- The device at an edge, its symbol collected. -/
def marked (d : Dev) (dt sym : Nat) : Dev :=
  { d with now := d.now + dt, bell := { d.bell with syms := if sym = 2 then [2] else if d.bell.syms = [] then [] else (d.bell.syms ++ [sym]).take 97 } }

/-- The symbols collected, as a Fin's symbol adds to them. -/
theorem marked_eq (d : Dev) (dt : Nat) (sym : Fin 4) : d.marked dt sym = { d with now := d.now + dt, bell := { d.bell with
    syms := if sym = 2 then [2] else if d.bell.syms = [] then [] else (d.bell.syms ++ [sym.val]).take 97 } } := by
  have hsyms := if_congr (x := [2]) (y := if d.bell.syms = [] then [] else (d.bell.syms ++ [sym.val]).take 97)
    (Fin.ext_iff (a := sym) (b := 2)).symm rfl rfl
  exact congrArg (fun l => ({ d with now := d.now + dt, bell := { d.bell with syms := l } } : Dev)) hsyms

section edge

variable {e : Dev} {dt sym : Nat} (he : d.marked dt sym = e)
include he

theorem markerEdge_idle (h : d.blState ≠ bsREFLOCK) : d.markerEdge dt sym = e := by
  unfold markerEdge
  dsimp only
  exact (if_pos h).trans he

theorem markerEdge_near (h : d.blState = bsREFLOCK) (hn : e.edgeErr.natAbs ≤ 3200) :
    d.markerEdge dt sym = ({ e with bell := { e.bell with missing := 0 } } : Dev).blErr e.edgeErr := by
  subst he
  unfold markerEdge
  dsimp only
  exact (if_neg (not_not.mpr h)).trans (if_neg (Nat.not_lt.mpr hn))

theorem markerEdge_misplaced (h : d.blState = bsREFLOCK) (hm : 3200 < e.edgeErr.natAbs) :
    d.markerEdge dt sym = ({ e with bell := { e.bell with missing := d.bell.missing + 1 } } : Dev).incSat Reg.BL_CNT_MISSEDGE 1 := by
  subst he
  unfold markerEdge
  dsimp only
  exact (if_neg (not_not.mpr h)).trans (if_pos hm)

end edge

/-- The reference taken as lost, its counts begun anew (R299). -/
def missed (d : Dev) (n : Nat) : Dev :=
  let e := ({ d with bell := { d.bell with missing := d.bell.missing + n } } : Dev).incSat Reg.BL_CNT_MISSEDGE n
  { e with bell := { e.bell with missing := 0, bad := 0, prevT := none, syms := [] } }

theorem referenceLost_four {n : Nat} (h : d.blState = bsREFLOCK) (hm : 4 ≤ d.bell.missing + n) (hf : d.flag Reg.BL_CTL_FALLBK = false) :
    d.referenceLost n = (d.missed n).blGo bsHOLDOVER := by
  have hsame : (d.missed n).flag Reg.BL_CTL_FALLBK = false := by
    have hread : (d.missed n).rd Reg.BL_CTL_FALLBK = d.rd Reg.BL_CTL_FALLBK := rd_wr_ne _ _ _ _ (by decide)
    exact (congrArg (fun x => decide (x = 1)) hread).trans hf
  have hlost : d.referenceLost n = (d.missed n).blLost ((d.missed n).flag Reg.BL_CTL_FALLBK) [] := by
    unfold referenceLost
    dsimp only
    rw [if_neg (not_not.mpr h)]
    exact if_pos (.inl hm)
  rw [hlost, hsame]
  exact blLost_none rfl

theorem force_reference {e : Int} (h : d.blState = bsHOLDOVER ∨ d.blState = bsFREE) (hsel : d.rd Reg.BL_CTL_SRCSEL = 0)
    (he : d.refErr = some e) : d.force = (d.blStep e).blRef := by
  unfold force
  dsimp only
  rw [if_neg (by rcases h with h | h <;> simp [h]), if_pos hsel, he]

theorem en_bellEnClear (d : Dev) : d.bellEnClear.flag Reg.BL_CTL_EN = false := by
  have hclear : d.bellEnClear.rd Reg.BL_CTL_EN = 0 := by
    rw [bellEnClear, rd_blGo (by decide) (by decide)]
    exact rd_clrF_same _
  exact decide_eq_false (by omega)

end Sys2Proof.Machine.Dev

namespace Sys2Proof.Machine

section rows

variable (s : State)

theorem completes_markerEdge (dt : Nat) (sym : Fin 4) : Completes (.markerEdge dt sym) s (s.dev.markerEdge dt sym) := rfl
theorem completes_frame (dt : Nat) : Completes (.frame dt) s (s.dev.frame dt) := rfl
theorem completes_referenceLost (missed : Nat) : Completes (.referenceLost missed) s (s.dev.referenceLost missed) := rfl
theorem completes_sourceLinkUnusable : Completes .sourceLinkUnusable s s.dev.sourceLinkUnusable := rfl
theorem completes_holdoverExpiry : Completes .holdoverExpiry s s.dev.holdoverExpiry := rfl
theorem completes_force : Completes .force s s.dev.force := rfl
theorem completes_bellEnClear : Completes .bellEnClear s s.dev.bellEnClear := rfl

end rows

open Dev in
/-- Settles O41: each command by the unit's state, through the rules of `blGo`, `blErr` and `blLost`. -/
theorem bellFollowsItsSources : Obligations.BellFollowsItsSources := by
  intro s dt missed sym b st d0 syms' d1 usable
  have hedge := completes_markerEdge s dt sym
  have hframe := completes_frame s dt
  have hd1 : s.dev.marked dt sym = d1 := marked_eq s.dev dt sym
  refine ⟨fun h => hedge.of_eq (markerEdge_idle hd1 h), fun h he => hedge.of_eq (markerEdge_near hd1 h he),
    fun h he => hedge.of_eq (markerEdge_misplaced hd1 h he), fun h => hframe.of_eq (if_pos h),
    fun h hn => hframe.of_eq (frame_invalid h hn dt),
    ?frames,
    fun h hm hfb => ⟨_, (completes_referenceLost s missed).of_eq (referenceLost_four h hm hfb), blState_blGo (by decide) _⟩,
    fun h => (completes_referenceLost s missed).of_eq (if_pos h),
    fun h hn => ⟨_, (completes_sourceLinkUnusable s).of_eq ((if_pos h).trans (blLost_none hn)), blState_blGo (by decide) _⟩,
    fun l h hl => ⟨_, (completes_sourceLinkUnusable s).of_eq ((if_pos h).trans (blLost_some hl)), blState_blLink .., srcLink_blLink ..⟩,
    fun h => (completes_sourceLinkUnusable s).of_eq (if_neg h), fun h => ⟨_, (completes_holdoverExpiry s).of_eq (if_pos h), blGo_free_leaves (d := s.dev.advanceTo _) h⟩,
    fun h => (completes_holdoverExpiry s).of_eq (if_neg h),
    fun e h hsel he => ⟨_, (completes_force s).of_eq (force_reference h hsel he), blState_blRef _⟩,
    fun h h' => (completes_force s).of_eq (if_pos ⟨h, h'⟩), ⟨_, completes_bellEnClear s, blState_blGo (by decide) _, en_bellEnClear _⟩⟩
  case frames =>
    intro t hlen hf hp ht hen hsel e
    refine ⟨fun hs he => ?locks, fun hs he => ?relocks, fun hs he => ?big⟩
    case locks =>
      refine ⟨_, hframe.of_eq (frame_unlocked hlen hf hp ht hen hsel hs he), blState_blRef _, ?_, depth_blRef _⟩
      rw [now_blRef]
      exact congrArg Dev.now (blStep_ahead he)
    case relocks =>
      exact ⟨_, hframe.of_eq ((frame_held hlen hf hp ht hen hsel hs).trans (if_pos he)), blState_blRef _, now_blRef _⟩
    case big =>
      refine ⟨_, hframe.of_eq ((frame_held hlen hf hp ht hen hsel hs).trans (if_neg (Nat.not_le.mpr he))), ?_, ?_⟩
      · exact (rd_irqEvent ..).trans ((rd_setF_ne (by decide)).trans (blState_blErr ..))
      · exact decide_eq_true ((rd_irqEvent ..).trans (rd_setF_same rfl))

end Sys2Proof.Machine
end

section
/-!
What an agent's access at a partition virtual address leaves (R342): all but the memories, the cached translations and the counters
of refused, dropped and poisoned accesses.
-/
namespace Sys2Proof.Machine.Dev

variable {d e : Dev} {p : Nat} {f : Fld}

/-- A field that no access of partition p counts in. -/
structure OutsideMemory (p : Nat) (f : Fld) : Prop where
  owned : f.key ≠ (Reg.PT_SECCNT_OWNVIOL p).key
  down : ∀ k, k < 12 → f.key ≠ (Reg.HBM_UECNT_UE k).key
  hit : ∀ k, k < 12 → f.key ≠ (Reg.HBM_UECNT_PRD k).key
  dropped : ∀ k, k < 12 → f.key ≠ (Reg.HBM_UECNT_QDROP k).key

/-- A field below the partitions' registers, or between them and the stacks'. -/
theorem OutsideMemory.of_addr (hp : p < 8) (h : f.addr < 0x100000 ∨ 0x180000 ≤ f.addr ∧ f.addr < 0x400000) (hl : f.lo < 64) : OutsideMemory p f where
  owned := by simp only [Fld.key, Reg.PT_SECCNT_OWNVIOL, Reg.PT_SECCNT]; omega
  down k _ := by simp only [Fld.key, Reg.HBM_UECNT_UE, Reg.HBM_UECNT]; omega
  hit k _ := by simp only [Fld.key, Reg.HBM_UECNT_PRD, Reg.HBM_UECNT]; omega
  dropped k _ := by simp only [Fld.key, Reg.HBM_UECNT_QDROP, Reg.HBM_UECNT]; omega

/-- A field that begins its register, above the stacks' counters. -/
theorem OutsideMemory.of_lo (h : f.lo = 0) (ha : 0x4c0000 ≤ f.addr) : OutsideMemory p f where
  owned := by simp only [Fld.key, Reg.PT_SECCNT_OWNVIOL, h]; omega
  down k _ := by simp only [Fld.key, Reg.HBM_UECNT_UE, Reg.HBM_UECNT]; omega
  hit k _ := by simp only [Fld.key, Reg.HBM_UECNT_PRD, Reg.HBM_UECNT]; omega
  dropped k _ := by simp only [Fld.key, Reg.HBM_UECNT_QDROP, Reg.HBM_UECNT]; omega

/-- `e` is `d` but for the traces of partition p's accesses. -/
structure OnlyMemory (p : Nat) (d e : Dev) : Prop where
  rest : e = { d with
    regs := e.regs, parts := e.parts, ctr := e.ctr, hbm := e.hbm, hbmPoison := e.hbmPoison, host := e.host, hostPoison := e.hostPoison }
  rd : ∀ f, OutsideMemory p f → e.rd f = d.rd f
  part : ∀ q, ∃ t, e.part q = { d.part q with tlb := t }

namespace OnlyMemory

variable {x : Dev}

theorem refl (p : Nat) (d : Dev) : OnlyMemory p d d := ⟨rfl, fun _ _ => rfl, fun _ => ⟨_, rfl⟩⟩

theorem trans (h : OnlyMemory p d e) (h' : OnlyMemory p e x) : OnlyMemory p d x where
  rest := h'.rest.trans (congrArg (fun y : Dev => { y with
    regs := x.regs, parts := x.parts, ctr := x.ctr, hbm := x.hbm, hbmPoison := x.hbmPoison, host := x.host, hostPoison := x.hostPoison }) h.rest)
  rd f hf := (h'.rd f hf).trans (h.rd f hf)
  part q := by
    obtain ⟨t, ht⟩ := h.part q
    obtain ⟨t', ht'⟩ := h'.part q
    exact ⟨t', by rw [ht', ht]⟩

/-- A counter moves. -/
theorem of_incSat {c : Fld} (hc : ∀ f, OutsideMemory p f → f.key ≠ c.key) (n : Nat) (d : Dev) : OnlyMemory p d (d.incSat c n) :=
  ⟨rfl, fun f hf => rd_wr_ne d c f _ (hc f hf), fun _ => ⟨_, rfl⟩⟩

theorem flag (h : OnlyMemory p d e) (hf : OutsideMemory p f) : e.flag f = d.flag f :=
  congrArg (fun v => decide (v = 1)) (h.rd f hf)

end OnlyMemory

theorem stackOf_lt (d : Dev) (pa : Nat) : d.stackOf pa < 12 := placeOf_stack_lt _ _

theorem foldl_onlyMemory {α : Type} (g : Dev → α → Dev) (hg : ∀ d x, OnlyMemory p d (g d x)) (l : List α) (d : Dev) :
    OnlyMemory p d (l.foldl g d) :=
  foldl_keeps (OnlyMemory p d) g l d (.refl p d) fun _ x he => he.trans (hg _ x)

theorem xlate_onlyMemory (p va : Nat) (d : Dev) : OnlyMemory p d (d.xlate p va).2 := by
  have cached (t : Tab Leaf) : OnlyMemory p d (d.setPart p { d.part p with tlb := t }) := by
    refine ⟨rfl, fun _ _ => rfl, fun q => ?_⟩
    by_cases hq : q = p
    · subst hq
      exact ⟨t, tabGet_tabPut_same ..⟩
    · exact ⟨_, tabGet_tabPut_ne _ _ _ _ _ hq⟩
  have counted : OnlyMemory p d d.fresh.2 := ⟨rfl, fun _ _ => rfl, fun _ => ⟨_, rfl⟩⟩
  simp only [xlate]
  split
  · split
    · exact cached _
    · exact .refl p d
  · split
    · exact .refl p d
    · split
      · exact counted
      · exact counted

theorem ownViol_onlyMemory (p : Nat) (d : Dev) : OnlyMemory p d (d.ownViol p) := .of_incSat (fun _ hf => hf.owned) 1 d

theorem resolve_onlyMemory (p : Nat) (slot : Option Nat) (acc : Acc) (va : Nat) (d : Dev) : OnlyMemory p d (d.resolve p slot acc va).2 := by
  have h := xlate_onlyMemory p va d
  simp only [resolve]
  split
  · exact h.trans (ownViol_onlyMemory p _)
  · exact h
  · split
    · exact h
    · split
      · exact h
      · exact h
      · split
        · split
          · exact h
          · split <;> exact h
        · exact h

theorem resolveAll_onlyMemory (p : Nat) (slot : Option Nat) (acc : Acc) (l : List (Nat × Nat)) (d : Dev) :
    OnlyMemory p d (d.resolveAll p slot acc l).2 := by
  induction l generalizing d with
  | nil => exact .refl p d
  | cons a l ih =>
    obtain ⟨a, n⟩ := a
    have h := resolve_onlyMemory p slot acc a d
    rw [resolveAll]
    split
    case h_1 e he => rw [he] at h; exact h
    case h_2 ph e he =>
      rw [he] at h
      have h' := h.trans (ih e)
      split
      case h_1 he' => rw [he'] at h'; exact h'
      case h_2 he' => rw [he'] at h'; exact h'

theorem hbmWrite_onlyMemory (pa : Nat) (bs : List Byte) (d : Dev) : OnlyMemory p d (d.hbmWrite pa bs) := by
  have h := foldl_onlyMemory (p := p) (fun (d : Dev) s => d.incSat (Reg.HBM_UECNT_UE (d.stackOf (s * 32))) 1)
    (fun e s => .of_incSat (fun _ hf => hf.down _ (stackOf_lt e _)) 1 e) (d.downSectors pa bs.length) d
  exact h.trans ⟨rfl, fun _ _ => rfl, fun _ => ⟨_, rfl⟩⟩

theorem partWrite_onlyMemory (ph : Phys) (bs : List Byte) (d : Dev) : OnlyMemory p d (d.partWrite p ph bs) := by
  cases ph with
  | hbm pa =>
    simp only [partWrite]
    split
    · exact .of_incSat (fun _ hf => hf.dropped _ (stackOf_lt d pa)) 1 d
    · exact hbmWrite_onlyMemory pa bs d
  | host a =>
    simp only [partWrite]
    split
    · exact .refl p d
    · exact ⟨rfl, fun _ _ => rfl, fun _ => ⟨_, rfl⟩⟩
  | board a => exact .refl p d

theorem physWrite_onlyMemory (l : List (Phys × Nat)) (bs : List Byte) (d : Dev) : OnlyMemory p d (d.physWrite p l bs) := by
  induction l generalizing bs d with
  | nil => exact .refl p d
  | cons x l ih => exact (partWrite_onlyMemory ..).trans (ih ..)

/-- A write ends where its pieces are resolved, or stores them. `vaWrite` is unfolded as a function: unfolded at its arguments, the kernel
would evaluate the pieces' number. -/
theorem vaWrite_cases (p : Nat) (slot : Option Nat) (va : Nat) (bs : List Byte) (d : Dev) :
    (d.vaWrite p slot va bs).2 = (d.resolveAll p slot .write (pieces va bs.length)).2 ∨
    ∃ l, (d.vaWrite p slot va bs).2 = (d.resolveAll p slot .write (pieces va bs.length)).2.physWrite p l bs := by
  obtain ⟨F, hF⟩ : ∃ F, F = @vaWrite := ⟨_, rfl⟩
  obtain ⟨y, hy⟩ : ∃ y, y = F p slot va bs d := ⟨_, rfl⟩
  rw [← hF, ← hy]
  delta vaWrite at hF
  subst hF
  beta_reduce at hy
  generalize d.resolveAll p slot .write (pieces va bs.length) = x at hy ⊢
  split at hy
  · exact .inl (congrArg Prod.snd hy)
  · split at hy
    · exact .inl (congrArg Prod.snd hy)
    · exact .inr ⟨_, congrArg Prod.snd hy⟩

theorem vaWrite_onlyMemory (p : Nat) (slot : Option Nat) (va : Nat) (bs : List Byte) (d : Dev) : OnlyMemory p d (d.vaWrite p slot va bs).2 := by
  have h := resolveAll_onlyMemory p slot .write (pieces va bs.length) d
  obtain hw | ⟨l, hw⟩ := vaWrite_cases p slot va bs d
  · rw [hw]
    exact h
  · rw [hw]
    exact h.trans (physWrite_onlyMemory ..)

theorem poisonHit_onlyMemory (l : List (Phys × Nat)) (d : Dev) : OnlyMemory p d (d.poisonHit l) := by
  refine foldl_onlyMemory _ (fun d x => ?_) l d
  split
  · refine foldl_onlyMemory _ (fun d s => ?_) _ d
    split
    · exact .of_incSat (fun _ hf => hf.hit _ (stackOf_lt d _)) 1 d
    · exact .refl p d
  · exact .refl p d

theorem hostSpend_onlyMemory (l : List (Phys × Nat)) (d : Dev) : OnlyMemory p d (d.hostSpend l) := by
  refine foldl_onlyMemory _ (fun d x => ?_) l d
  split
  · exact ⟨rfl, fun _ _ => rfl, fun _ => ⟨_, rfl⟩⟩
  · exact .refl p d

/-- A read ends where its pieces are resolved, or counts the poison that it met. -/
theorem vaRead_cases (p : Nat) (slot : Option Nat) (va n : Nat) (d : Dev) :
    (d.vaRead p slot va n).2 = (d.resolveAll p slot .read (pieces va n)).2 ∨
    ∃ l, (d.vaRead p slot va n).2 = ((d.resolveAll p slot .read (pieces va n)).2.poisonHit l).hostSpend l := by
  obtain ⟨F, hF⟩ : ∃ F, F = @vaRead := ⟨_, rfl⟩
  obtain ⟨y, hy⟩ : ∃ y, y = F p slot va n d := ⟨_, rfl⟩
  rw [← hF, ← hy]
  delta vaRead at hF
  subst hF
  beta_reduce at hy
  generalize d.resolveAll p slot .read (pieces va n) = x at hy ⊢
  split at hy
  · exact .inl (congrArg Prod.snd hy)
  · split at hy
    · exact .inr ⟨_, congrArg Prod.snd hy⟩
    · exact .inl (congrArg Prod.snd hy)

theorem vaRead_onlyMemory (p : Nat) (slot : Option Nat) (va n : Nat) (d : Dev) : OnlyMemory p d (d.vaRead p slot va n).2 := by
  have h := resolveAll_onlyMemory p slot .read (pieces va n) d
  obtain hr | ⟨l, hr⟩ := vaRead_cases p slot va n d
  · rw [hr]
    exact h
  · rw [hr]
    exact h.trans ((poisonHit_onlyMemory ..).trans (hostSpend_onlyMemory ..))

theorem intakeRead_onlyMemory (p : Nat) (va n : Nat) (d : Dev) : OnlyMemory p d (d.intakeRead p va n).2 := by
  have h := vaRead_onlyMemory p none va n d
  rw [intakeRead]
  split
  · exact .refl p d
  · split
    case h_1 he => rw [he] at h; exact h
    case h_2 he => rw [he] at h; exact h

end Sys2Proof.Machine.Dev
end

section
/-!
The rings (R317 to R334): what a report leaves, the next ring's acceptance, and a ring's enabling.
-/
namespace Sys2Proof.Machine.Dev

variable {d e : Dev} {p r : Nat}

theorem ring_setRing (x : Ring) (d : Dev) : (d.setRing p r x).ring p r = x := tabGet_tabPut_same ..

theorem ringField_outside (hp : p < 8) {a l w : Nat} {ty : FTy} {v : Nat} (ha : 0x180000 ≤ a ∧ a < 0x400000) (hl : l < 64) : OutsideMemory p ⟨a, l, w, ty, v⟩ :=
  .of_addr hp (.inr ha) hl

theorem acc_outside (hp : p < 8) (hr : r < 64) : OutsideMemory p (Reg.RING_ACC_ACC p r) :=
  ringField_outside hp (by simp only [Reg.RING_ACC]; omega) (by decide)

theorem ringAcc_doorbell_refused (d : Dev) (n : Nat) : ((d.setF (Reg.RING_STAT_DBERR p r)).irqEvent n).ringAcc p r = d.ringAcc p r := by
  refine (rd_irqEvent ..).trans (rd_setF_ne ?_)
  simp only [Fld.key, Reg.RING_ACC_ACC, Reg.RING_ACC, Reg.RING_STAT_DBERR, Reg.RING_STAT]
  omega

theorem ring_irqEvent (n : Nat) (d : Dev) : (d.irqEvent n).ring p r = d.ring p r := by
  rw [ring, irqEvent_sources]
  rfl

/-! A report (R330): it moves DONE, and neither ACC nor what a host has asked of the ring. -/

theorem ring_of_onlyMemory {q : Nat} (h : OnlyMemory q d e) : e.ring p r = d.ring p r := by
  rw [h.rest]
  rfl

/-- A completion record stored, and DONE moved on. -/
def reported (p r seq : Nat) (d : Dev) : Dev :=
  let d := (d.wr (Reg.RING_DONE_DONE p r) (seq + 1)).islandNote p r
  d.setRing p r { d.ring p r with headAt := d.now }

theorem report_eq (p r seq : Nat) (body : List Byte) (cirq : Bool) (d : Dev) : d.report p r seq body cirq =
    if cirq then ((d.vaWrite p none (d.cqAddr p r seq) (leBytes 8 seq ++ body)).2.reported p r seq).irqEvent (3840 + 32 * p + r / 4)
    else (d.vaWrite p none (d.cqAddr p r seq) (leBytes 8 seq ++ body)).2.reported p r seq := rfl

theorem ringAcc_reported (seq : Nat) (d : Dev) : (d.reported p r seq).ringAcc p r = d.ringAcc p r :=
  rd_wr_ne _ _ _ _ (by simp only [Fld.key, Reg.RING_ACC_ACC, Reg.RING_ACC, Reg.RING_DONE_DONE, Reg.RING_DONE]; omega)

theorem enReq_reported (seq : Nat) (d : Dev) : ((d.reported p r seq).ring p r).enReq = (d.ring p r).enReq := by
  exact (congrArg Ring.enReq (ring_setRing (p := p) (r := r) _ ((d.wr (Reg.RING_DONE_DONE p r) (seq + 1)).islandNote p r)) :)

theorem ringAcc_report (hp : p < 8) (hr : r < 64) (seq : Nat) (body : List Byte) (cirq : Bool) (d : Dev) :
    (d.report p r seq body cirq).ringAcc p r = d.ringAcc p r := by
  have h := (ringAcc_reported seq _).trans
    ((vaWrite_onlyMemory p none (d.cqAddr p r seq) (leBytes 8 seq ++ body) d).rd _ (acc_outside hp hr))
  rw [report_eq]
  split
  · exact (rd_irqEvent ..).trans h
  · exact h

theorem enReq_report (seq : Nat) (body : List Byte) (cirq : Bool) (d : Dev) :
    ((d.report p r seq body cirq).ring p r).enReq = (d.ring p r).enReq := by
  have h := (enReq_reported (p := p) (r := r) seq _).trans
    (congrArg Ring.enReq (ring_of_onlyMemory (vaWrite_onlyMemory p none (d.cqAddr p r seq) (leBytes 8 seq ++ body) d)))
  rw [report_eq]
  split
  · rw [ring_irqEvent]
    exact h
  · exact h

theorem ringEnableTry_unasked (h : (d.ring p r).enReq = false) : d.ringEnableTry p r = d := if_pos (.inl (by simp [h]))

theorem ringAcc_flushRej (hp : p < 8) (hr : r < 64) (n : Nat) (d : Dev) (h : (d.ring p r).enReq = false) :
    (d.flushRej n p r).ringAcc p r = d.ringAcc p r := by
  induction n generalizing d with
  | zero => rfl
  | succ n ih =>
    rw [flushRej]
    split
    · split
      · rfl
      · rw [ih]
        · exact ringAcc_report hp hr ..
        · rw [enReq_report, ring_setRing]
          exact h
    · rw [ringEnableTry_unasked h]

/-- A rejected entry moves ACC on (R321). -/
theorem ringAcc_reject (hp : p < 8) (hr : r < 64) (seq cause user : Nat) (cirq : Bool) (h : (d.ring p r).enReq = false) :
    (d.reject p r seq cause user cirq).ringAcc p r = (seq + 1) % 2 ^ 64 := by
  refine (ringAcc_flushRej hp hr _ _ ?_).trans (rd_wr_same ..)
  exact (congrArg Ring.enReq (ring_setRing _ d)).trans h

/-! The ring that is served next (R318). -/

theorem acceptFrom_none (n k : Nat) (h : ∀ j, j < 512 → d.acceptSlot (j / 64) (j % 64) = none) : d.acceptFrom n k = d := by
  induction n generalizing k with
  | zero => rfl
  | succ n ih => rw [acceptFrom]; simp only [h _ (Nat.mod_lt k (by decide)), ih]

theorem acceptance_next {i : Nat} (hp : p < 8) (hr : r < 64) (hs : d.acceptSlot p r = some i) (hn : d.rrNext = 64 * p + r)
    (ht : d.tryAccept p r i = some e) : d.acceptance = { e with rrNext := (64 * p + r + 1) % 512 } := by
  have hk : (64 * p + r) % 512 = 64 * p + r := by omega
  have hpart : (64 * p + r) / 64 = p := by omega
  have hring : (64 * p + r) % 64 = r := by omega
  rw [acceptance, hn, acceptFrom]
  simp only [hk, hpart, hring, hs, ht]

section tries

variable {i : Nat} {b : List Byte} (hheld : d.hostHeld p (d.rd (Reg.RING_BASE_BASE p r) * 64 + 64 * (d.ringAcc p r % d.ringSize p r)) 64 = false)
include hheld

theorem tryAccept_unread (hread : d.intakeRead p (d.rd (Reg.RING_BASE_BASE p r) * 64 + 64 * (d.ringAcc p r % d.ringSize p r)) 64 = (none, e)) :
    d.tryAccept p r i = some (e.fresh.2.reject p r (d.ringAcc p r) 2 (e.fresh.1 / 2 % 2 ^ 64) (bit e.fresh.1 0)) := by
  simp only [tryAccept, hheld, hread, Bool.false_eq_true, if_false]

variable (hread : d.intakeRead p (d.rd (Reg.RING_BASE_BASE p r) * 64 + 64 * (d.ringAcc p r % d.ringSize p r)) 64 = (some b, e))
include hread

theorem tryAccept_outOfOrder (hs : (cmdEnt b).seq ≠ d.ringAcc p r) : d.tryAccept p r i =
    some ((((e.setF (Reg.RING_STAT_SEQERR p r)).setF (Reg.RING_STAT_STOPPED p r)).clrF (Reg.RING_CFG_EN p r)).irqEvent (3840 + 32 * p + 16)) := by
  simp only [tryAccept, hheld, hread, Bool.false_eq_true, if_false, if_pos hs]

theorem tryAccept_bad (hs : (cmdEnt b).seq = d.ringAcc p r) (hb : (cmdEnt b).bad (e.coresOf p).length = true) :
    d.tryAccept p r i = some (e.reject p r (d.ringAcc p r) 1 (cmdEnt b).user (cmdEnt b).cirq) := by
  simp only [tryAccept, hheld, hread, Bool.false_eq_true, if_false, hs, ne_eq, not_true, hb, if_true]

/-- A NOP that passes its checks names no blocks and no outputs, and is accepted at once (R319, R321). -/
theorem tryAccept_nop (hs : (cmdEnt b).seq = d.ringAcc p r) (hb : (cmdEnt b).bad (e.coresOf p).length = false) (hop : (cmdEnt b).op = 0)
    (hout : (cmdEnt b).nout = 0) : d.tryAccept p r i = some (e.acceptCmd p r i (cmdEnt b) b [] [] [] []) := by
  have hlist : (cmdEnt b).nlist = 0 := by
    simp only [CmdEnt.bad, hop, Bool.or_eq_false_iff] at hb
    simpa using hb.1.1.2
  have hblocks : e.readBlocks p (cmdEnt b) = (some ([], [], []), e) := by
    simp [readBlocks, intakeRead, hop, hout, hlist]
  have hnone : outEnts 0 [] = [] := rfl
  have hpages : shadowPages [] = [] := rfl
  simp [tryAccept, hheld, hread, hs, hb, hop, hout, hlist, hblocks, hnone, hpages, declaredLeaves]

end tries

/-! An accepted command's record (R321, R322). -/

theorem jr_setJr (g : Nat) (x : JRec) (d : Dev) : (d.setJr g x).jr g = x := tabGet_tabPut_same ..

theorem locWrites_loc (bs : List Byte) (l : List (Nat × Nat)) (d : Dev) :
    ∃ t, l.foldl (fun (d : Dev) c => d.locWrite c.1 c.2 bs) d = { d with loc := t } := by
  induction l generalizing d with
  | nil => exact ⟨_, rfl⟩
  | cons c l ih => exact ih (d.locWrite c.1 c.2 bs)

/-- A record's copies stand in the stack-local regions alone. -/
theorem putRec_eq (g : Nat) (x : JRec) (d : Dev) : ∃ t, d.putRec g x = { d.setJr g x with loc := t } := locWrites_loc _ _ _

theorem jr_putRec (g : Nat) (x : JRec) (d : Dev) : (d.putRec g x).jr g = x := by
  obtain ⟨t, ht⟩ := putRec_eq g x d
  rw [ht]
  exact jr_setJr g x d

theorem rd_putRec (g : Nat) (x : JRec) (d : Dev) (f : Fld) : (d.putRec g x).rd f = d.rd f := by
  obtain ⟨t, ht⟩ := putRec_eq g x d
  rw [ht]
  rfl

section accepts

variable (i : Nat) (c : CmdEnt) (entry args outl list : List Byte) (leaves : List (Nat × Leaf)) (d : Dev)

/-- The record of an accepted command. -/
def acceptedRec (d : Dev) (p r i : Nat) (c : CmdEnt) (entry args outl list : List Byte) (leaves : List (Nat × Leaf)) : JRec :=
  { JRec.reset with st := .accepted, jseq := d.rd (Reg.JNL_JSEQ_JSEQ p), ring := r, npage := leaves.length, tacc := d.now, entry := entry,
                    args := args, outl := outl, list := list, copies := d.recPlaces (slotBase p + i), seq := c.seq }

theorem jr_acceptCmd : (d.acceptCmd p r i c entry args outl list leaves).jr (slotBase p + i) =
    d.acceptedRec p r i c entry args outl list leaves := by
  simp only [acceptCmd]
  split <;> exact jr_putRec ..

theorem rd_acceptCmd (hf : f.key ≠ (Reg.RING_ACC_ACC p r).key) : (d.acceptCmd p r i c entry args outl list leaves).rd f =
    (d.wr (Reg.JNL_JSEQ_JSEQ p) (d.rd (Reg.JNL_JSEQ_JSEQ p) + 1)).rd f := by
  simp only [acceptCmd]
  split <;> exact (rd_wr_ne _ _ _ _ hf).trans (rd_putRec ..)

theorem ringAcc_acceptCmd : (d.acceptCmd p r i c entry args outl list leaves).ringAcc p r = (c.seq + 1) % 2 ^ 64 := by
  simp only [acceptCmd]
  split <;> exact rd_wr_same ..

/-- What an acceptance leaves. -/
theorem acceptCmd_leaves (p r i : Nat) (c : CmdEnt) (entry args outl list : List Byte) (leaves : List (Nat × Leaf)) (d : Dev) :
    let e := d.acceptCmd p r i c entry args outl list leaves
    (e.jr (slotBase p + i)).st = .accepted ∧ (e.jr (slotBase p + i)).jseq = d.rd (Reg.JNL_JSEQ_JSEQ p) ∧ (e.jr (slotBase p + i)).entry = entry ∧
    e.rd (Reg.JNL_JSEQ_JSEQ p) = (d.rd (Reg.JNL_JSEQ_JSEQ p) + 1) % 2 ^ 64 ∧ e.ringAcc p r = (c.seq + 1) % 2 ^ 64 := by
  have hrec := jr_acceptCmd (p := p) (r := r) i c entry args outl list leaves d
  have hkey : (Reg.JNL_JSEQ_JSEQ p).key ≠ (Reg.RING_ACC_ACC p r).key := by
    simp only [Fld.key, Reg.JNL_JSEQ_JSEQ, Reg.JNL_JSEQ, Reg.RING_ACC_ACC, Reg.RING_ACC]
    omega
  refine ⟨congrArg JRec.st hrec, congrArg JRec.jseq hrec, congrArg JRec.entry hrec, ?_, ringAcc_acceptCmd i c entry args outl list leaves d⟩
  exact (rd_acceptCmd i c entry args outl list leaves d hkey).trans (rd_wr_same ..)

end accepts

/-! The free slot and the ring that may go on (R317, R321). -/

theorem freeSlot_some {i : Nat} (h : d.freeSlot p = some i) : (d.jr (slotBase p + i)).st = .free ∧
    ∀ k, k < i → (d.jr (slotBase p + k)).st ≠ .free ∨ d.flag Reg.JNL_STAT_REMIRROR = true := by
  rw [freeSlot, List.find?_range_eq_some] at h
  obtain ⟨hfree, -, hbelow⟩ := h
  refine ⟨by simp only [Bool.and_eq_true, decide_eq_true_eq] at hfree; exact hfree.1, fun k hk => ?_⟩
  have hk' := hbelow k hk
  by_cases hst : (d.jr (slotBase p + k)).st = .free
  · simp only [hst, decide_true, Bool.true_and, Bool.not_not, Bool.and_eq_true] at hk'
    exact .inr hk'.1
  · exact .inl hst

theorem acceptSlot_some {i : Nat} (h : d.acceptSlot p r = some i) : d.flag (Reg.RING_CFG_EN p r) = true ∧ d.flag Reg.JNL_CTL_EN = true ∧
    d.ringAcc p r < (d.ring p r).d ∧ (d.ringAcc p r + 2 ^ 64 - d.rd (Reg.CQ_HEAD_HEAD p r)) % 2 ^ 64 < d.ringSize p r ∧
    d.freeSlot p = some i := by
  simp only [acceptSlot] at h
  split at h
  case isTrue hc =>
    obtain ⟨hen, hctl, -, hd, hroom, -⟩ := hc
    exact ⟨hen, hctl, hd, hroom, h⟩
  case isFalse => cases h

/-! A ring enabled (R334). -/

/-- A ring that begins anew at CQ_HEAD. -/
def ringBegun (p r : Nat) (d : Dev) : Dev :=
  let h := d.rd (Reg.CQ_HEAD_HEAD p r)
  let e := ((d.setF (Reg.RING_CFG_EN p r)).clrF (Reg.RING_STAT_STOPPED p r)).setRing p r { d.ring p r with enReq := false, d := h }
  ((e.wr (Reg.RING_ACC_ACC p r) h).wr (Reg.RING_DONE_DONE p r) h).islandNote p r

theorem ringEnable_begins (hen : d.flag (Reg.RING_CFG_EN p r) = false) (h : d.ringAcc p r = d.ringDone p r) :
    d.ringEnable p r = (d.setRing p r { d.ring p r with enReq := true }).ringBegun p r := by
  have hask : ((d.setRing p r { d.ring p r with enReq := true }).ring p r).enReq = true := congrArg Ring.enReq (ring_setRing _ d)
  rw [ringEnable, if_neg (by simp [hen])]
  exact if_neg (by rw [not_or, not_not, not_not]; exact ⟨hask, h⟩)

theorem ringEnable_waits (hen : d.flag (Reg.RING_CFG_EN p r) = false) (h : d.ringAcc p r ≠ d.ringDone p r) :
    d.ringEnable p r = d.setRing p r { d.ring p r with enReq := true } := by
  rw [ringEnable, if_neg (by simp [hen])]
  exact if_pos (.inr h)

section begun

variable (p r : Nat) (d : Dev)

theorem rd_ringBegun (ha : f.key ≠ (Reg.RING_ACC_ACC p r).key) (hd : f.key ≠ (Reg.RING_DONE_DONE p r).key) :
    (d.ringBegun p r).rd f = ((d.setF (Reg.RING_CFG_EN p r)).clrF (Reg.RING_STAT_STOPPED p r)).rd f :=
  (rd_wr_ne _ _ _ _ hd).trans (rd_wr_ne _ _ _ _ ha)

theorem en_ringBegun : (d.ringBegun p r).flag (Reg.RING_CFG_EN p r) = true := by
  refine decide_eq_true ((rd_ringBegun p r d ?_ ?_).trans ((rd_clrF_ne ?_).trans (rd_setF_same rfl))) <;>
    simp only [Fld.key, Reg.RING_CFG_EN, Reg.RING_CFG, Reg.RING_ACC_ACC, Reg.RING_ACC, Reg.RING_DONE_DONE, Reg.RING_DONE,
      Reg.RING_STAT_STOPPED, Reg.RING_STAT] <;> omega

theorem stopped_ringBegun : (d.ringBegun p r).flag (Reg.RING_STAT_STOPPED p r) = false := by
  have hclear : (d.ringBegun p r).rd (Reg.RING_STAT_STOPPED p r) = 0 := by
    refine (rd_ringBegun p r d ?_ ?_).trans (rd_clrF_same _) <;>
      simp only [Fld.key, Reg.RING_ACC_ACC, Reg.RING_ACC, Reg.RING_DONE_DONE, Reg.RING_DONE, Reg.RING_STAT_STOPPED, Reg.RING_STAT] <;> omega
  exact decide_eq_false (by omega)

theorem ringDone_ringBegun : (d.ringBegun p r).ringDone p r = d.rd (Reg.CQ_HEAD_HEAD p r) % 2 ^ 64 := rd_wr_same ..

theorem ringAcc_ringBegun : (d.ringBegun p r).ringAcc p r = d.rd (Reg.CQ_HEAD_HEAD p r) % 2 ^ 64 :=
  (rd_wr_ne _ _ _ _ (by simp only [Fld.key, Reg.RING_ACC_ACC, Reg.RING_ACC, Reg.RING_DONE_DONE, Reg.RING_DONE]; omega)).trans (rd_wr_same ..)

theorem d_ringBegun : ((d.ringBegun p r).ring p r).d = d.rd (Reg.CQ_HEAD_HEAD p r) :=
  congrArg Ring.d (ring_setRing { d.ring p r with enReq := false, d := d.rd (Reg.CQ_HEAD_HEAD p r) }
    ((d.setF (Reg.RING_CFG_EN p r)).clrF (Reg.RING_STAT_STOPPED p r)))

end begun

/-! An entry out of its order stops the ring (R321). -/

/-- The ring stopped. -/
def ringStopped (p r : Nat) (d : Dev) : Dev :=
  (((d.setF (Reg.RING_STAT_SEQERR p r)).setF (Reg.RING_STAT_STOPPED p r)).clrF (Reg.RING_CFG_EN p r)).irqEvent (3840 + 32 * p + 16)

theorem ringStopped_leaves (p r : Nat) (d : Dev) : (d.ringStopped p r).flag (Reg.RING_CFG_EN p r) = false ∧
    (d.ringStopped p r).flag (Reg.RING_STAT_SEQERR p r) = true ∧ (d.ringStopped p r).flag (Reg.RING_STAT_STOPPED p r) = true ∧
    (d.ringStopped p r).ringAcc p r = d.ringAcc p r := by
  have hclear : (d.ringStopped p r).rd (Reg.RING_CFG_EN p r) = 0 := (rd_irqEvent ..).trans (rd_clrF_same _)
  refine ⟨decide_eq_false (by omega), decide_eq_true ?_, decide_eq_true ?_, (rd_irqEvent ..).trans ?_⟩
  · refine (rd_irqEvent ..).trans ((rd_clrF_ne ?_).trans ((rd_setF_ne ?_).trans (rd_setF_same rfl))) <;>
      simp only [Fld.key, Reg.RING_STAT_SEQERR, Reg.RING_STAT_STOPPED, Reg.RING_STAT, Reg.RING_CFG_EN, Reg.RING_CFG] <;> omega
  · refine (rd_irqEvent ..).trans ((rd_clrF_ne ?_).trans (rd_setF_same rfl))
    simp only [Fld.key, Reg.RING_STAT_STOPPED, Reg.RING_STAT, Reg.RING_CFG_EN, Reg.RING_CFG]
    omega
  · refine (rd_clrF_ne ?_).trans ((rd_setF_ne ?_).trans (rd_setF_ne ?_)) <;>
      simp only [Fld.key, Reg.RING_ACC_ACC, Reg.RING_ACC, Reg.RING_STAT_SEQERR, Reg.RING_STAT_STOPPED, Reg.RING_STAT, Reg.RING_CFG_EN,
        Reg.RING_CFG] <;> omega

end Sys2Proof.Machine.Dev

namespace Sys2Proof.Machine

section rows

variable (s : State) (p : PartNo) (r : RingNo)

theorem completes_doorbell (v : Word) : Completes (.doorbell p r v) s (s.dev.doorbell p r v.toNat) := rfl
theorem completes_acceptance : Completes .acceptance s s.dev.acceptance := rfl
theorem completes_ringEnable : Completes (.ringEnable p r) s (s.dev.ringEnable p r) := rfl

end rows

open Dev in
/-- Settles O43: the ring served next is found by `acceptance_next`, and what its entry does by the entry's checks. -/
theorem ringsAcceptInOrder : Obligations.RingsAcceptInOrder := by
  intro s p r v acc size x at_ en
  have hp := p.isLt
  have hr := r.isLt
  have hbell := completes_doorbell s p r v
  have hnext {i : Nat} {e : Dev} (hs : s.dev.acceptSlot p r = some i) (hn : s.dev.rrNext = 64 * p + r) (ht : s.dev.tryAccept p r i = some e) :
      Completes .acceptance s { e with rrNext := (64 * p + r + 1) % 512 } :=
    (completes_acceptance s).of_eq (acceptance_next hp hr hs hn ht)
  have henable := completes_ringEnable s p r
  refine ⟨fun h h' => hbell.of_eq (if_neg fun hc => hc.elim (Nat.not_lt.mpr h) (Nat.not_lt.mpr h')), fun h => ⟨_, hbell.of_eq (if_pos h), ?dberr, ring_irqEvent .., ringAcc_doorbell_refused ..⟩,
    ?slot, fun h => (completes_acceptance s).of_eq (acceptFrom_none _ _ h), fun i b d1 hs hn hheld hread => ?entry,
    fun i d1 hread hs hn hheld => ⟨_, _, hnext hs hn (tryAccept_unread hheld hread)⟩, fun cause user irq h => ringAcc_reject hp hr _ _ _ _ h,
    fun h => henable.of_eq (if_pos h), fun hen h => henable.of_eq (ringEnable_waits hen h),
    fun hen h => ⟨_, henable.of_eq (ringEnable_begins hen h), en_ringBegun .., stopped_ringBegun .., ringAcc_ringBegun .., ringDone_ringBegun ..,
      d_ringBegun ..⟩⟩
  case dberr => exact decide_eq_true ((rd_irqEvent ..).trans (rd_setF_same rfl))
  case slot =>
    intro i hi
    obtain ⟨hen, hctl, hd, hroom, hfree⟩ := acceptSlot_some hi
    exact ⟨hen, hctl, hd, hroom, freeSlot_some hfree⟩
  case entry =>
    refine ⟨fun hseq => ?stops, fun hseq hbad => hnext hs hn (tryAccept_bad hheld hread hseq hbad), fun hseq hbad hop hout => ?accepts⟩
    case stops =>
      obtain ⟨hoff, herr, hstop, hacc⟩ := ringStopped_leaves p r d1
      exact ⟨_, hnext hs hn (tryAccept_outOfOrder hheld hread hseq), hoff, herr, hstop, hacc⟩
    case accepts =>
      obtain ⟨hst, hjseq, hentry, hnextSeq, hacc⟩ := acceptCmd_leaves p r i (cmdEnt b) b [] [] [] [] d1
      refine ⟨_, hnext hs hn (tryAccept_nop hheld hread hseq hbad hop hout), ?_⟩
      generalize d1.acceptCmd p r i (cmdEnt b) b [] [] [] [] = e at *
      exact ⟨hst, hjseq, hentry, hnextSeq, hseq ▸ hacc, rfl⟩

end Sys2Proof.Machine
end

section
/-!
The mailboxes (R410 to R413, R428): an answer, a command that reaches a mailbox, and what is served while the island recovers or has
tripped.
-/
namespace Sys2Proof.Machine.Dev

variable {d : Dev} {x : Emit}

/-! What was sent stays sent (R377, R381). -/

theorem mem_out_vecCount (h : x ∈ d.out) (page v k : Nat) : x ∈ (d.vecCount page v k).out := by
  simp only [vecCount, vecSend]
  split
  · split
    · exact h
    · split
      · exact List.mem_cons_of_mem _ h
      · exact h
  · exact h

theorem mem_out_eligibleCount (h : x ∈ d.out) (n k : Nat) : x ∈ (d.eligibleCount n k).out := by
  rw [eligibleCount]
  split
  · exact h
  · refine foldl_keeps (fun e : Dev => x ∈ e.out) _ _ d h fun e v he => ?_
    split
    · exact mem_out_vecCount he ..
    · exact he

theorem mem_out_offer (h : x ∈ d.out) (n : Nat) : x ∈ (d.offer n).out := by
  simp only [offer]
  split
  · exact h
  · exact List.mem_cons_of_mem _ h

theorem mem_out_srcArrive (h : x ∈ d.out) (n : Nat) : x ∈ (d.srcArrive n).out := by
  simp only [srcArrive]
  split
  · exact h
  · split
    · exact mem_out_offer (mem_out_eligibleCount (by exact h) n 1) n
    · exact mem_out_eligibleCount (by exact h) n 1
    · split <;> exact h

theorem mem_out_irqEvent (h : x ∈ d.out) (n : Nat) : x ∈ (d.irqEvent n).out := by
  rw [irqEvent]
  split
  · exact h
  · exact mem_out_srcArrive (by exact h) n

/-! Values stored in a row of fields. -/

section numbered

variable {fld : Nat → Fld} {f : Fld}

/-- A list's values stored in the fields of their places. -/
def wrAll (fld : Nat → Fld) (l : List (Nat × Nat)) (d : Dev) : Dev := l.foldl (fun (d : Dev) x => d.wr (fld x.2) x.1) d

theorem rd_wrAll_ne (l : List (Nat × Nat)) (h : ∀ x ∈ l, f.key ≠ (fld x.2).key) (d : Dev) : (d.wrAll fld l).rd f = d.rd f := by
  induction l generalizing d with
  | nil => rfl
  | cons x l ih =>
    obtain ⟨hx, hl⟩ := List.forall_mem_cons.mp h
    exact (ih hl _).trans (rd_wr_ne _ _ _ _ hx)

theorem rd_wrAll_zipIdx (hf : ∀ i j, i ≠ j → (fld i).key ≠ (fld j).key) {l : List Nat} {k v : Nat} (hk : l[k]? = some v) (m : Nat) (d : Dev) :
    (d.wrAll fld (l.zipIdx m)).rd (fld (m + k)) = v % 2 ^ (fld (m + k)).width := by
  induction l generalizing m k d with
  | nil => cases hk
  | cons a l ih =>
    cases k with
    | zero =>
      cases hk
      have hrest : ∀ x ∈ l.zipIdx (m + 1), (fld m).key ≠ (fld x.2).key := fun x hx => hf _ _ (by
        have := List.le_snd_of_mem_zipIdx hx
        omega)
      exact (rd_wrAll_ne _ hrest (d.wr (fld m) v)).trans (rd_wr_same ..)
    | succ k =>
      rw [show m + (k + 1) = m + 1 + k by omega]
      exact ih hk (m + 1) _

end numbered

/-! An answer (R411). -/

/-- The answer that mailbox 0 shows. -/
def mbShown (code : Nat) (ws : List Nat) (d : Dev) : Dev :=
  ((((d.clrF Reg.MGT_MBSTAT_BUSY).setF Reg.MGT_MBSTAT_DONE).wr Reg.MGT_MBSTAT_RESULT code).wr Reg.MGT_MBSTAT_RLEN (min 64 ws.length)).wrAll
    Reg.MGT_MBDATA_DATA (ws.take 64).zipIdx

theorem mbReply_zero (code : Nat) (ws : List Nat) (d : Dev) : d.mbReply 0 code ws = (d.mbShown code ws).irqEvent 0 := rfl

theorem mbReply_other {mb : Nat} (h : mb ≠ 0) (code : Nat) (ws : List Nat) (d : Dev) :
    d.mbReply mb code ws = (d.emit (.reply mb code (ws.flatMap (leBytes 8)))).irqEvent 0 := congrArg (irqEvent 0) (if_neg h)

theorem mbReply_out {mb : Nat} (h : mb ≠ 0) (code : Nat) (ws : List Nat) (d : Dev) :
    Emit.reply mb code (ws.flatMap (leBytes 8)) ∈ (d.mbReply mb code ws).out := by
  rw [mbReply_other h]
  exact mem_out_irqEvent (List.mem_cons_self ..) 0

theorem data_key {i j : Nat} (h : i ≠ j) : (Reg.MGT_MBDATA_DATA i).key ≠ (Reg.MGT_MBDATA_DATA j).key := by
  simp only [Fld.key, Reg.MGT_MBDATA_DATA, Reg.MGT_MBDATA]
  omega

section shown

variable (code : Nat) (ws : List Nat) (d : Dev)

theorem rd_mbShown {f : Fld} (hf : f.addr = Reg.MGT_MBSTAT) (hl : f.lo < 64) : (d.mbShown code ws).rd f =
    ((((d.clrF Reg.MGT_MBSTAT_BUSY).setF Reg.MGT_MBSTAT_DONE).wr Reg.MGT_MBSTAT_RESULT code).wr Reg.MGT_MBSTAT_RLEN (min 64 ws.length)).rd f := by
  refine rd_wrAll_ne _ (fun x _ => ?_) _
  simp only [Fld.key, hf, Reg.MGT_MBSTAT, Reg.MGT_MBDATA_DATA, Reg.MGT_MBDATA]
  omega

theorem busy_mbShown : (d.mbShown code ws).rd Reg.MGT_MBSTAT_BUSY = 0 := by
  rw [rd_mbShown code ws d rfl (by decide), rd_wr_ne _ _ _ _ (by decide), rd_wr_ne _ _ _ _ (by decide), rd_setF_ne (by decide)]
  exact rd_clrF_same _

theorem done_mbShown : (d.mbShown code ws).rd Reg.MGT_MBSTAT_DONE = 1 := by
  rw [rd_mbShown code ws d rfl (by decide), rd_wr_ne _ _ _ _ (by decide), rd_wr_ne _ _ _ _ (by decide)]
  exact rd_setF_same rfl

theorem result_mbShown : (d.mbShown code ws).rd Reg.MGT_MBSTAT_RESULT = code % 2 ^ 8 := by
  rw [rd_mbShown code ws d rfl (by decide), rd_wr_ne _ _ _ _ (by decide), rd_wr_same]
  rfl

theorem rlen_mbShown : (d.mbShown code ws).rd Reg.MGT_MBSTAT_RLEN = min 64 ws.length := by
  rw [rd_mbShown code ws d rfl (by decide), rd_wr_same]
  exact Nat.mod_eq_of_lt (Nat.lt_of_le_of_lt (Nat.min_le_left ..) (by decide))

theorem data_mbShown {k x : Nat} (hk : k < 64) (hx : ws[k]? = some x) : (d.mbShown code ws).rd (Reg.MGT_MBDATA_DATA k) = x % 2 ^ 64 := by
  have h := rd_wrAll_zipIdx (fld := Reg.MGT_MBDATA_DATA) (fun _ _ => data_key) (l := ws.take 64) (k := k) (v := x)
    (by rw [List.getElem?_take_of_lt hk, hx]) 0
    ((((d.clrF Reg.MGT_MBSTAT_BUSY).setF Reg.MGT_MBSTAT_DONE).wr Reg.MGT_MBSTAT_RESULT code).wr Reg.MGT_MBSTAT_RLEN (min 64 ws.length))
  rwa [Nat.zero_add] at h

end shown

/-! A command that reaches a mailbox (R410, R411). -/

section submit

variable {mb op : Nat} {ws : List Nat} (hfree : ∀ y ∈ d.mbq, y.mb ≠ mb)

theorem mbSubmit_held (h : ¬ ∀ y ∈ d.mbq, y.mb ≠ mb) : d.mbSubmit mb op ws = d := by
  refine if_pos (List.any_eq_true.mpr ?_)
  push Not at h
  obtain ⟨y, hy, hm⟩ := h
  exact ⟨y, hy, decide_eq_true hm⟩

include hfree

theorem not_held : ¬ (d.mbq.any fun y => y.mb = mb) = true := fun h => by
  obtain ⟨y, hy, hm⟩ := List.any_eq_true.mp h
  exact hfree y hy (of_decide_eq_true hm)

theorem mbSubmit_served (hup : d.flag Reg.MGT_LOCK_P0UP = true ∨ d.flag Reg.MGT_LOCK_P1UP = true) : d.mbSubmit mb op ws = d.mbServe mb op ws :=
  (if_neg (not_held hfree)).trans (if_pos hup)

theorem mbSubmit_waits (hdown : ¬ (d.flag Reg.MGT_LOCK_P0UP = true ∨ d.flag Reg.MGT_LOCK_P1UP = true)) :
    (d.mbSubmit mb op ws).mbq = d.mbq ++ [{ mb := mb, op := op, data := ws }] ∧ (mb = 0 → (d.mbSubmit mb op ws).flag Reg.MGT_MBSTAT_BUSY = true) := by
  have hwaits : d.mbSubmit mb op ws = if mb = 0 then ({ d with mbq := d.mbq ++ [{ mb := mb, op := op, data := ws }] } : Dev).setF Reg.MGT_MBSTAT_BUSY
      else { d with mbq := d.mbq ++ [{ mb := mb, op := op, data := ws }] } := (if_neg (not_held hfree)).trans (if_neg hdown)
  rw [hwaits]
  refine ⟨by split <;> rfl, fun h => ?_⟩
  rw [if_pos h]
  exact decide_eq_true (rd_setF_same rfl)

end submit

/-! What is served while the island recovers or has tripped (R413, R428). -/

variable {mb op : Nat} {ws : List Nat}

theorem mbServes_guaranteed (hrec : ¬ d.flag Reg.MGT_BOOT_RECOV = true) (hop : 1 ≤ op ∧ op ≤ 9) : d.mbServes op = true := by
  simp [mbServes, hrec, mbGuaranteed, hop]

theorem mbServes_ident : d.mbServes 1 = true := by simp [mbServes, mbGuaranteed]

theorem mbServes_logread : d.mbServes 0x10 = !(d.flag Reg.THM_STAT_TRIPPED) := by simp [mbServes, mbGuaranteed]

theorem mbServes_recovering (hrec : d.flag Reg.MGT_BOOT_RECOV = true) (hident : op ≠ 1) (hlog : op ≠ 0x10) : d.mbServes op = false := by
  simp [mbServes, hrec, hident, hlog]

theorem mbServe_refused (hop : [1, 2, 3, 4, 5, 6, 7, 8, 9, 0x10, 0x11].contains op = true) (h : d.mbServes op = false) :
    d.mbServe mb op ws = d.mbReply mb 3 [] := by
  exact (if_neg (not_not.mpr hop)).trans (if_pos (by simp [h]))

section served

variable (mb w : Nat) (d : Dev)

theorem mbServe_ident : d.mbServe mb 1 [] = d.mbReply mb 0 [d.regVal .MGT_ID0 [], d.regVal .MGT_SERIAL [], d.dkey0, d.dkey1] :=
  if_neg (not_not.mpr mbServes_ident)

theorem mbServe_logread (h : d.flag Reg.THM_STAT_TRIPPED = false) : d.mbServe mb 0x10 [w] =
    ((d.log[w]?).map fun b => d.mbReply mb 0 (wordsOf b)).getD (d.mbReply mb 2 []) := by
  refine (if_neg (by rw [mbServes_logread, h]; decide)).trans ?_
  cases hb : d.log[w]? with
  | none => simp only [List.getD_cons_zero, hb]; rfl
  | some b => simp only [List.getD_cons_zero, hb]; rfl

variable (h : ¬ d.flag Reg.MGT_BOOT_RECOV = true)
include h

theorem mbServe_errread : d.mbServe mb 2 [w] = if 64 ≤ w then d.mbReply mb 2 [] else
    d.mbReply mb 0 ([d.regVal .ERR_STAT [w]] ++ ((List.range 4).map fun i => d.rd (Reg.ERR_P_WORD w i)) ++
      (List.range 4).map fun i => d.rd (Reg.ERR_Q_WORD w i)) :=
  if_neg (not_not.mpr (mbServes_guaranteed h (by decide)))

theorem mbServe_jstat : d.mbServe mb 3 [w] = if 8 ≤ w then d.mbReply mb 2 [] else
    d.mbReply mb 0 ([d.regVal .JNL_STAT []] ++ (List.range 64).flatMap fun r =>
      [(tabGet (0, 0) (w * 64 + r) d.islandRings).1, (tabGet (0, 0) (w * 64 + r) d.islandRings).2]) :=
  if_neg (not_not.mpr (mbServes_guaranteed h (by decide)))

theorem mbServe_fence : d.mbServe mb 4 [w] = if w < 8 then (d.quietEnter w).mbReply mb 0 [] else
    if w = 0xFF then d.quietDevEnter.mbReply mb 0 [] else d.mbReply mb 2 [] :=
  if_neg (not_not.mpr (mbServes_guaranteed h (by decide)))

theorem mbServe_snap (off : Nat) : d.mbServe mb 5 [w, off] = if 32 ≤ w ∨ 1024 ≤ off ∨ (off = 0 ∧ ¬ d.grpValid w) then d.mbReply mb 2 [] else
    (if off = 0 then d.captureNow w else d).mbReply mb 0
      ((List.range 64).map fun i => if off + i < 1024 then (if off = 0 then d.captureNow w else d).rd (Reg.CNT_REC_WORD w (off + i)) else 0) :=
  if_neg (not_not.mpr (mbServes_guaranteed h (by decide)))

theorem mbServe_snap_stored {off : Nat} (hw : w < 32) (h0 : 0 < off) (h1 : off < 1024) : d.mbServe mb 5 [w, off] =
    d.mbReply mb 0 ((List.range 64).map fun i => if off + i < 1024 then d.rd (Reg.CNT_REC_WORD w (off + i)) else 0) := by
  rw [mbServe_snap mb w d h off, if_neg (by omega), if_neg (by omega)]

theorem mbServe_snap_captured (hw : w < 32) (hv : d.grpValid w = true) : d.mbServe mb 5 [w, 0] =
    (d.captureNow w).mbReply mb 0 ((List.range 64).map fun i => (d.captureNow w).rd (Reg.CNT_REC_WORD w i)) := by
  rw [mbServe_snap mb w d h 0, if_neg (by simp [hv, hw]), if_pos rfl]
  refine congrArg (fun l => (d.captureNow w).mbReply mb 0 l) (List.map_congr_left fun i hi => ?_)
  rw [Nat.zero_add, if_pos (Nat.lt_trans (List.mem_range.mp hi) (by decide))]

theorem mbServe_thmread : d.mbServe mb 6 [] =
    d.mbReply mb 0 ([d.regVal .THM_STAT []] ++ (List.range 48).map fun s => d.regVal .THM_SENS [s]) :=
  if_neg (not_not.mpr (mbServes_guaranteed h (by decide)))

theorem mbServe_thmset : d.mbServe mb 7 [w] = (d.thmSet w).mbReply mb 0 [] :=
  if_neg (not_not.mpr (mbServes_guaranteed h (by decide)))

theorem mbServe_laseroff : d.mbServe mb 8 [] = d.allOff.mbReply mb 0 [] :=
  if_neg (not_not.mpr (mbServes_guaranteed h (by decide)))

theorem mbServe_reset (hc : ¬ (bits w 2 0 = 1 ∧ d.flag Reg.THM_STAT_TRIPPED = true)) : d.mbServe mb 9 [w] =
    ((d.mbReply mb 0 []).resetBy w 5).getD (d.mbReply mb 2 []) := by
  refine (if_neg (not_not.mpr (mbServes_guaranteed h (by decide)))).trans ((if_neg fun h' => hc ⟨h'.1, h'.2.1⟩).trans ?_)
  cases hr : (d.mbReply mb 0 []).resetBy w 5 with
  | none => simp only [List.getD_cons_zero, hr]; rfl
  | some e => simp only [List.getD_cons_zero, hr]; rfl

end served

/-! The thresholds held to their limits (R428). -/

theorem bits_byte_lt (v k : Nat) : bits v (k + 7) k < 256 := by
  rw [bits, show k + 7 + 1 - k = 8 by omega]
  exact Nat.mod_lt _ (by decide)

theorem thmSet_leaves (v : Nat) (d : Dev) : (d.thmSet v).rd Reg.THM_CFG_TRIP = min 120 (bits v 31 24) ∧
    (d.thmSet v).rd Reg.THM_CFG_STRIP = min 105 (bits v 39 32) ∧ (d.thmSet v).rd Reg.THM_CFG_WARN = bits v 23 16 ∧
    (d.thmSet v).rd Reg.THM_CFG_DTHROT = bits v 7 0 := by
  have htrip : min 120 (bits v 31 24) < 256 := Nat.lt_of_le_of_lt (Nat.min_le_left ..) (by decide)
  have hstrip : min 105 (bits v 39 32) < 256 := Nat.lt_of_le_of_lt (Nat.min_le_left ..) (by decide)
  refine ⟨?_, ?_, ?_, ?_⟩
  · exact (rd_wr_ne _ _ _ _ (by decide)).trans ((rd_wr_same ..).trans (Nat.mod_eq_of_lt htrip))
  · exact (rd_wr_same ..).trans (Nat.mod_eq_of_lt hstrip)
  · exact (rd_wr_ne _ _ _ _ (by decide)).trans ((rd_wr_ne _ _ _ _ (by decide)).trans
      ((rd_wr_same ..).trans (Nat.mod_eq_of_lt (bits_byte_lt v 16))))
  · exact (rd_wr_ne _ _ _ _ (by decide)).trans ((rd_wr_ne _ _ _ _ (by decide)).trans ((rd_wr_ne _ _ _ _ (by decide)).trans
      ((rd_wr_ne _ _ _ _ (by decide)).trans ((rd_wr_same ..).trans (Nat.mod_eq_of_lt (bits_byte_lt v 0))))))

/-! A reset that a mailbox asks for (R411, R421). -/

section resets

variable {v : Nat} (cause : Nat) (d : Dev)

theorem resetBy_cold (h : bits v 2 0 = 1) : d.resetBy v cause = some (d.coldReset cause) := by simp only [resetBy, h]
theorem resetBy_warm (h : bits v 2 0 = 2) : d.resetBy v cause = some (d.warmReset cause) := by simp only [resetBy, h]
theorem resetBy_partition (h : bits v 2 0 = 3) : d.resetBy v cause = some (d.partitionReset (bits v 6 4)) := by simp only [resetBy, h]
theorem resetBy_core (h : bits v 2 0 = 4) (hc : bits v 15 8 < 144) : d.resetBy v cause = some (d.coreResetCmd (bits v 15 8)) := by
  simp only [resetBy, h, if_pos hc]

theorem resetBy_none (h : bits v 2 0 = 0 ∨ 4 < bits v 2 0 ∨ (bits v 2 0 = 4 ∧ 144 ≤ bits v 15 8)) : d.resetBy v cause = none := by
  rw [resetBy]
  split
  · omega
  · omega
  · omega
  · exact if_neg (by omega)
  · rfl

end resets

end Sys2Proof.Machine.Dev

namespace Sys2Proof.Machine

/-- Each command of Table MG-1 that the statement lists goes to its mailbox with its own number. -/
theorem mailbox_submits (s : State) (mb : Fin 3) (w off : Word) {i : Instr}
    (hi : i ∈ [Instr.mailboxIdent mb, .errread mb w, .jstat mb w, .mailboxFence mb w, .snap mb w off, .thmread mb, .thmset mb w, .laseroff mb,
      .mailboxReset mb w, .logread mb w]) :
    ∃ op ws, [1, 2, 3, 4, 5, 6, 7, 8, 9, 0x10, 0x11].contains op = true ∧ Completes i s (s.dev.mbSubmit mb op ws) ∧
      (i ≠ .mailboxIdent mb → op ≠ 1) ∧ (i ≠ .logread mb w → op ≠ 0x10) := by
  simp only [List.mem_cons, List.not_mem_nil, or_false] at hi
  obtain rfl | rfl | rfl | rfl | rfl | rfl | rfl | rfl | rfl | rfl := hi
  · exact ⟨1, [], by decide, rfl, fun h => absurd rfl h, fun _ => by decide⟩
  · exact ⟨2, [w.toNat], by decide, rfl, fun _ => by decide, fun _ => by decide⟩
  · exact ⟨3, [w.toNat], by decide, rfl, fun _ => by decide, fun _ => by decide⟩
  · exact ⟨4, [w.toNat], by decide, rfl, fun _ => by decide, fun _ => by decide⟩
  · exact ⟨5, [w.toNat, off.toNat], by decide, rfl, fun _ => by decide, fun _ => by decide⟩
  · exact ⟨6, [], by decide, rfl, fun _ => by decide, fun _ => by decide⟩
  · exact ⟨7, [w.toNat], by decide, rfl, fun _ => by decide, fun _ => by decide⟩
  · exact ⟨8, [], by decide, rfl, fun _ => by decide, fun _ => by decide⟩
  · exact ⟨9, [w.toNat], by decide, rfl, fun _ => by decide, fun _ => by decide⟩
  · exact ⟨0x10, [w.toNat], by decide, rfl, fun _ => by decide, fun h => absurd rfl h⟩

section served

variable {s : State} {mb : Fin 3} {e : Dev}
  (hnow : (∀ x ∈ s.dev.mbq, x.mb ≠ mb.val) ∧ (s.dev.flag Reg.MGT_LOCK_P0UP = true ∨ s.dev.flag Reg.MGT_LOCK_P1UP = true))
include hnow

theorem mailboxIdent_serves (he : s.dev.mbServe mb 1 [] = e) : Completes (.mailboxIdent mb) s e :=
  Completes.of_eq rfl ((Dev.mbSubmit_served hnow.1 hnow.2).trans he)

variable (w off : Word)

theorem errread_serves (he : s.dev.mbServe mb 2 [w.toNat] = e) : Completes (.errread mb w) s e :=
  Completes.of_eq rfl ((Dev.mbSubmit_served hnow.1 hnow.2).trans he)
theorem jstat_serves (he : s.dev.mbServe mb 3 [w.toNat] = e) : Completes (.jstat mb w) s e :=
  Completes.of_eq rfl ((Dev.mbSubmit_served hnow.1 hnow.2).trans he)
theorem mailboxFence_serves (he : s.dev.mbServe mb 4 [w.toNat] = e) : Completes (.mailboxFence mb w) s e :=
  Completes.of_eq rfl ((Dev.mbSubmit_served hnow.1 hnow.2).trans he)
theorem snap_serves (he : s.dev.mbServe mb 5 [w.toNat, off.toNat] = e) : Completes (.snap mb w off) s e :=
  Completes.of_eq rfl ((Dev.mbSubmit_served hnow.1 hnow.2).trans he)
theorem thmread_serves (he : s.dev.mbServe mb 6 [] = e) : Completes (.thmread mb) s e :=
  Completes.of_eq rfl ((Dev.mbSubmit_served hnow.1 hnow.2).trans he)
theorem thmset_serves (he : s.dev.mbServe mb 7 [w.toNat] = e) : Completes (.thmset mb w) s e :=
  Completes.of_eq rfl ((Dev.mbSubmit_served hnow.1 hnow.2).trans he)
theorem laseroff_serves (he : s.dev.mbServe mb 8 [] = e) : Completes (.laseroff mb) s e :=
  Completes.of_eq rfl ((Dev.mbSubmit_served hnow.1 hnow.2).trans he)
theorem mailboxReset_serves (he : s.dev.mbServe mb 9 [w.toNat] = e) : Completes (.mailboxReset mb w) s e :=
  Completes.of_eq rfl ((Dev.mbSubmit_served hnow.1 hnow.2).trans he)
theorem logread_serves (he : s.dev.mbServe mb 0x10 [w.toNat] = e) : Completes (.logread mb w) s e :=
  Completes.of_eq rfl ((Dev.mbSubmit_served hnow.1 hnow.2).trans he)

end served

open Dev in
/-- Settles O57: a command waits, or is served by its row of `mbServe`. -/
theorem mailboxesServeTheirCommands : Obligations.MailboxesServeTheirCommands := by
  intro s mb w off n serves free now recovering tripped answers
  have hreset {o : Option Dev} (hr : ¬ recovering) (hc : ¬ (bits n 2 0 = 1 ∧ tripped)) (ho : (s.dev.mbReply mb 0 []).resetBy n 5 = o) :
      s.dev.mbServe mb 9 [n] = o.getD (s.dev.mbReply mb 2 []) := by rw [mbServe_reset _ _ _ hr hc, ho]
  refine ⟨fun i hi => ?gate, fun code ws hmb => ?shown, fun code ws hmb => mbReply_out (fun h => hmb (Fin.ext h)) code ws s.dev,
    fun hnow => mailboxIdent_serves hnow (mbServe_ident ..),
    fun hnow hr h => errread_serves hnow w ((mbServe_errread _ _ _ hr).trans (if_pos h)),
    fun hnow hr h => errread_serves hnow w ((mbServe_errread _ _ _ hr).trans (if_neg (Nat.not_le.mpr h))),
    fun hnow hr h => jstat_serves hnow w ((mbServe_jstat _ _ _ hr).trans (if_pos h)),
    fun hnow hr h => jstat_serves hnow w ((mbServe_jstat _ _ _ hr).trans (if_neg (Nat.not_le.mpr h))),
    fun hnow hr h => mailboxFence_serves hnow w ((mbServe_fence _ _ _ hr).trans (if_pos h)),
    fun hnow hr h => mailboxFence_serves hnow w ((mbServe_fence _ _ _ hr).trans ((if_neg (show ¬ n < 8 by omega)).trans (if_pos h))),
    fun hnow hr h h' => mailboxFence_serves hnow w ((mbServe_fence _ _ _ hr).trans ((if_neg (Nat.not_lt.mpr h)).trans (if_neg h'))),
    fun hnow hr h => snap_serves hnow w off ((mbServe_snap _ _ _ hr _).trans (if_pos (h.imp_right .inl))), fun hnow hr hg h0 h1 =>
      snap_serves hnow w off (mbServe_snap_stored _ _ _ hr hg h0 h1),
    fun hnow hr hg h0 hv => snap_serves hnow w off (by rw [h0]; exact mbServe_snap_captured _ _ _ hr hg hv),
    fun hnow hr => thmread_serves hnow (mbServe_thmread _ _ hr), fun hnow hr => ?thresholds,
    fun hnow hr => laseroff_serves hnow (mbServe_laseroff _ _ hr),
    fun hnow hr ht h => mailboxReset_serves hnow w (hreset hr (fun hc => ht hc.2) (resetBy_cold _ _ h)),
    fun hnow hr h => mailboxReset_serves hnow w (hreset hr (fun hc => by omega) (resetBy_warm _ _ h)),
    fun hnow hr h => mailboxReset_serves hnow w (hreset hr (fun hc => by omega) (resetBy_partition _ _ h)),
    fun hnow hr h hc => mailboxReset_serves hnow w (hreset hr (fun hc => by omega) (resetBy_core _ _ h hc)),
    fun hnow hr h => mailboxReset_serves hnow w (hreset hr (fun hc => by omega) (resetBy_none _ _ h)),
    fun hnow ht => logread_serves hnow w (mbServe_refused (by decide) (by rw [mbServes_logread, ht]; rfl)),
    fun hnow ht h => logread_serves hnow w ((mbServe_logread _ _ _ (Bool.eq_false_of_not_eq_true ht)).trans (by rw [List.getElem?_eq_none h]; rfl)),
    fun b hnow ht hb => logread_serves hnow w ((mbServe_logread _ _ _ (Bool.eq_false_of_not_eq_true ht)).trans (by rw [hb]; rfl))⟩
  case gate =>
    obtain ⟨op, ws, hop, hc, hident, hlog⟩ := mailbox_submits s mb w off hi
    refine ⟨fun h => hc.of_eq (mbSubmit_held h), fun hf hs => ?waits, fun hnow hr h1 h2 => hc.of_eq ((mbSubmit_served hnow.1 hnow.2).trans
      (mbServe_refused hop (mbServes_recovering hr (hident h1) (hlog h2))))⟩
    obtain ⟨hq, hbusy⟩ := mbSubmit_waits (op := op) (ws := ws) hf hs
    exact ⟨_, _, hc, hq, rfl, fun h => hbusy (by rw [h]; rfl)⟩
  case shown =>
    have heq : s.dev.mbReply mb code ws = (s.dev.mbShown code ws).irqEvent 0 := by rw [hmb]; rfl
    rw [heq]
    have hbusy : ((s.dev.mbShown code ws).irqEvent 0).rd Reg.MGT_MBSTAT_BUSY = 0 := (rd_irqEvent ..).trans (busy_mbShown ..)
    exact ⟨decide_eq_false (by omega), decide_eq_true ((rd_irqEvent ..).trans (done_mbShown ..)), (rd_irqEvent ..).trans (result_mbShown ..),
      (rd_irqEvent ..).trans (rlen_mbShown ..), raw_irqEvent (by decide) _, fun k x hk hx => (rd_irqEvent ..).trans (data_mbShown _ _ _ hk hx)⟩
  case thresholds =>
    obtain ⟨htrip, hstrip, hwarn, hthrot⟩ := thmSet_leaves n s.dev
    exact ⟨_, thmset_serves hnow w (mbServe_thmset _ _ _ hr), (rd_mbReply_nil (by decide) (by decide) ..).trans htrip,
      (rd_mbReply_nil (by decide) (by decide) ..).trans hstrip, (rd_mbReply_nil (by decide) (by decide) ..).trans hwarn,
      (rd_mbReply_nil (by decide) (by decide) ..).trans hthrot⟩

end Sys2Proof.Machine
end

section
/-!
Captures (R435, R436): what a valid group holds, the record of its registers, and where the record lies.
-/
namespace Sys2Proof.Machine.Dev

variable {d : Dev} {g : Nat}

/-! The registers of a valid group (Table DB-2). -/

/-- What validity bounds. -/
theorem grpValid_bounds (h : d.grpValid g = true) : d.rd (Reg.CNT_GRP_KIND g) ≤ 10 ∧
    (d.rd (Reg.CNT_GRP_KIND g) = 1 ∨ d.rd (Reg.CNT_GRP_KIND g) = 3 → d.rd (Reg.CNT_GRP_NUM g) ≤ 13) ∧
    (d.rd (Reg.CNT_GRP_KIND g) = 6 → d.rd (Reg.CNT_GRP_NUM g) ≤ 32) := by
  simp only [grpValid, Bool.and_eq_true, Bool.or_eq_true, Bool.not_eq_true', decide_eq_true_eq, decide_eq_false_iff_not] at h
  obtain ⟨⟨⟨⟨⟨⟨⟨⟨-, hk⟩, -⟩, hcores⟩, hlinks⟩, -⟩, -⟩, -⟩, -⟩ := h
  refine ⟨hk, fun hc => ?_, fun hl => ?_⟩
  · rcases hcores with hn | hn
    · simp only [Bool.or_eq_false_iff, decide_eq_false_iff_not] at hn
      omega
    · exact hn.2
  · rcases hlinks with hn | hn <;> omega

theorem length_flatMap_le {α β : Type} {f : α → List β} {n : Nat} (l : List α) (h : ∀ x ∈ l, (f x).length ≤ n) :
    (l.flatMap f).length ≤ l.length * n := by
  rw [List.length_flatMap]
  exact (List.sum_le_card_nsmul _ n (by simpa using h)).trans (by simp)

/-- A valid group names at most 1,000 registers. -/
theorem grpRegs_length_le (h : d.grpValid g = true) : (d.grpRegs g).length ≤ 1000 := by
  obtain ⟨-, hcores, hlinks⟩ := grpValid_bounds h
  simp only [grpRegs]
  split
  case h_1 hk =>
    have hn := hcores (.inl hk)
    refine (length_flatMap_le (n := 76) _ fun i _ => length_flatMap_le (n := 19) _ fun e _ => ?_).trans (by rw [List.length_range]; omega)
    split <;> simp
  case h_3 hk =>
    have hn := hcores (.inr hk)
    refine (length_flatMap_le (n := 4) _ fun i _ => ?_).trans (by rw [List.length_range]; omega)
    split <;> simp
  case h_6 hk =>
    have hn := hlinks hk
    exact (length_flatMap_le (n := 5) _ fun i _ => by simp).trans (by rw [List.length_range]; omega)
  all_goals simp [List.length_flatMap]

theorem grpRegs_partition (h : d.rd (Reg.CNT_GRP_KIND g) = 2) : (d.grpRegs g).length = 65 := by
  simp [grpRegs, h]

theorem grpRegs_pending (h : d.rd (Reg.CNT_GRP_KIND g) = 9) : d.grpRegs g = (List.range 64).map fun n => some (.IRQ_PEND, [n]) := by
  simp [grpRegs, h]

theorem grpRegs_bank (h : d.rd (Reg.CNT_GRP_KIND g) = 10) : d.grpRegs g = [some (.ERR_STAT, [d.rd (Reg.CNT_GRP_SEL g)])] ++
    ((List.range 4).map fun w => some (.ERR_P, [d.rd (Reg.CNT_GRP_SEL g), w])) ++
    (List.range 4).map fun w => some (.ERR_Q, [d.rd (Reg.CNT_GRP_SEL g), w]) := by
  simp [grpRegs, h]

theorem regVal_pending (n : Nat) (d : Dev) : d.regVal .IRQ_PEND [n] = d.pendMap n % 2 ^ 64 := by
  have h : d.regVal .IRQ_PEND [n] = 0 + d.pendMap n % 2 ^ 64 * 2 ^ 0 := rfl
  rw [h, Nat.pow_zero, Nat.mul_one, Nat.zero_add]

theorem regVal_primary (b w : Nat) (d : Dev) : d.regVal .ERR_P [b, w] = d.rd (Reg.ERR_P_WORD b w) := by
  have h : d.regVal .ERR_P [b, w] = 0 + d.rd (Reg.ERR_P_WORD b w) * 2 ^ 0 := rfl
  rw [h, Nat.pow_zero, Nat.mul_one, Nat.zero_add]

/-! A partition's histogram stands above every other register that a capture reads (R119). -/

section histogram

variable {f : Fld} (hf : f.addr < 0x10000000) (hl : f.lo < 64)
include hf hl

theorem rd_histSum (p : Nat) (d : Dev) : (d.histSum p).rd f = d.rd f := by
  have bin (l m v : Nat) (e : Dev) : (e.wr ⟨Reg.PH_BIN p m, l, 32, .ro, 0⟩ v).rd f = e.rd f :=
    rd_wr_ne _ _ _ _ (by simp only [Fld.key, Reg.PH_BIN]; omega)
  have aux (l v : Nat) (e : Dev) : (e.wr ⟨Reg.PH_AUX p, l, 32, .ro, 0⟩ v).rd f = e.rd f :=
    rd_wr_ne _ _ _ _ (by simp only [Fld.key, Reg.PH_AUX]; omega)
  refine (aux 32 _ _).trans ((aux 0 _ _).trans ?_)
  exact foldl_keeps (fun e : Dev => e.rd f = d.rd f) _ _ d rfl fun e m he => (bin 32 m _ _).trans ((bin 0 m _ _).trans he)

end histogram

theorem histSum_rest (p : Nat) (d : Dev) : ∃ r, d.histSum p = { d with regs := r } := by
  have bins : ∃ r, (List.range 64).foldl (fun (x : Dev) m =>
      (x.wr (Reg.PH_BIN_BIN_LO p m) (min (2 ^ 32 - 1) (((d.coresOf p).map fun c => d.rd (Reg.GAU_HBIN_BIN_LO c (d.rd (Reg.PH_SEL_UNIT p)) m)).sum))).wr
        (Reg.PH_BIN_BIN_HI p m) (min (2 ^ 32 - 1) (((d.coresOf p).map fun c => d.rd (Reg.GAU_HBIN_BIN_HI c (d.rd (Reg.PH_SEL_UNIT p)) m)).sum))) d =
      { d with regs := r } :=
    foldl_keeps (fun e : Dev => ∃ r, e = { d with regs := r }) _ _ d ⟨_, rfl⟩ fun e m he => by
      obtain ⟨r, rfl⟩ := he
      exact ⟨_, rfl⟩
  obtain ⟨r, hr⟩ := bins
  unfold histSum
  dsimp only
  rw [hr]
  exact ⟨_, rfl⟩

/-! A capture's record (R435). -/

/-- The device whose registers a capture takes. -/
def summed (g : Nat) (d : Dev) : Dev := if d.rd (Reg.CNT_GRP_KIND g) = 2 then d.histSum (d.grpPart g) else d

theorem summed_other (h : d.rd (Reg.CNT_GRP_KIND g) ≠ 2) : d.summed g = d := if_neg h

theorem rd_summed {f : Fld} (hf : f.addr < 0x10000000) (hl : f.lo < 64) : (d.summed g).rd f = d.rd f := by
  unfold summed
  split
  · exact rd_histSum hf hl _ d
  · rfl

theorem summed_rest (g : Nat) (d : Dev) : ∃ r, d.summed g = { d with regs := r } := by
  unfold summed
  split
  · exact histSum_rest _ d
  · exact ⟨_, rfl⟩

/-- The values of the group's registers. -/
def grpValues (d : Dev) (g : Nat) : List Nat := (d.grpRegs g).map fun r => match r with | some (n, i) => d.regVal n i | none => 0

/-- A group's record: its header of four words, then the values. -/
def grpRecord (d : Dev) (g : Nat) : List Nat :=
  [g + d.rd (Reg.CNT_GRP_KIND g) * 2 ^ 8 + (d.grpValues g).length * 2 ^ 16, d.now, (d.rd (Reg.CNT_REC_WORD g 2) + 1) % 2 ^ 64, 0] ++ d.grpValues g

/-- The fields that a read clears, cleared where the group asks for it. -/
def grpCleared (g : Nat) (d : Dev) : Dev :=
  if d.flag (Reg.CNT_GRP_CLR g) then (d.grpRegs g).foldl (fun (d : Dev) r => match r with | some (n, i) => d.rcClear n i | none => d) d else d

theorem captureNow_eq (g : Nat) (d : Dev) : d.captureNow g =
    (((d.summed g).grpCleared g).recWords g ((d.summed g).grpRecord g)).recOut g ((d.summed g).grpRecord g) := rfl

theorem grpValues_length (d : Dev) (g : Nat) : (d.grpValues g).length = (d.grpRegs g).length := List.length_map ..

theorem caps_rcClear (n : RegName) (i : List Nat) (d : Dev) : (d.rcClear n i).caps = d.caps := by
  have cleared := foldl_keeps (fun e : Dev => e.caps = d.caps) (fun (d : Dev) f => d.wr f 0) ((fieldsOf n i).filter fun f => f.ty = .rc) d rfl
    fun _ _ he => he
  unfold rcClear
  dsimp only
  generalize ((fieldsOf n i).filter fun f => f.ty = .rc).foldl (fun (d : Dev) f => d.wr f 0) d = x at cleared ⊢
  split <;> exact cleared

theorem caps_grpCleared (g : Nat) (d : Dev) : (d.grpCleared g).caps = d.caps := by
  unfold grpCleared
  split
  · refine foldl_keeps (fun e : Dev => e.caps = d.caps) _ _ d rfl fun e r he => ?_
    split
    · exact (caps_rcClear ..).trans he
    · exact he
  · rfl

theorem word_key {i j : Nat} (h : i ≠ j) : (Reg.CNT_REC_WORD g i).key ≠ (Reg.CNT_REC_WORD g j).key := by
  simp only [Fld.key, Reg.CNT_REC_WORD, Reg.CNT_REC]
  omega

theorem rd_recWords {ws : List Nat} {k v : Nat} (hk : ws[k]? = some v) (d : Dev) : (d.recWords g ws).rd (Reg.CNT_REC_WORD g k) = v % 2 ^ 64 := by
  have h := rd_wrAll_zipIdx (fld := Reg.CNT_REC_WORD g) (fun _ _ => word_key) hk 0
    { d with regs := tabClear (Reg.CNT_REC g 0 * 64) (0x2000 * 64) d.regs }
  rwa [Nat.zero_add] at h

theorem caps_recWords (ws : List Nat) (d : Dev) : (d.recWords g ws).caps = d.caps :=
  foldl_keeps (fun e : Dev => e.caps = d.caps) _ _ _ rfl fun _ _ he => he

/-- Where the record goes changes neither its words nor what waits (R436). -/
theorem recOut_leaves (hg : g < 32) (ws : List Nat) (d : Dev) :
    (d.recOut g ws).caps = d.caps ∧ ∀ k, (d.recOut g ws).rd (Reg.CNT_REC_WORD g k) = d.rd (Reg.CNT_REC_WORD g k) := by
  have hout := vaWrite_onlyMemory (d.rd (Reg.CNT_GRP_OWNER g)) none (d.rd (Reg.CNT_GDST_VA g)) (ws.flatMap (leBytes 8)) d
  have hword (k : Nat) : OutsideMemory (d.rd (Reg.CNT_GRP_OWNER g)) (Reg.CNT_REC_WORD g k) :=
    .of_lo rfl (by simp only [Reg.CNT_REC_WORD, Reg.CNT_REC]; omega)
  have hfault (e : Dev) (k : Nat) : (e.setF (Reg.CNT_GRP_DSTERR g)).rd (Reg.CNT_REC_WORD g k) = e.rd (Reg.CNT_REC_WORD g k) :=
    rd_setF_ne (by simp only [Fld.key, Reg.CNT_REC_WORD, Reg.CNT_REC, Reg.CNT_GRP_DSTERR, Reg.CNT_GRP]; omega)
  unfold recOut
  dsimp only
  split
  · exact ⟨rfl, fun _ => rfl⟩
  · generalize d.vaWrite (d.rd (Reg.CNT_GRP_OWNER g)) none (d.rd (Reg.CNT_GDST_VA g)) (ws.flatMap (leBytes 8)) = x at hout
    have hcaps : x.2.caps = d.caps := by rw [hout.rest]
    have hsame (k : Nat) := hout.rd _ (hword k)
    split
    · exact ⟨hcaps, hsame⟩
    · exact ⟨hcaps, fun k => (hfault _ k).trans (hsame k)⟩

theorem caps_captureNow (hg : g < 32) (d : Dev) : (d.captureNow g).caps = d.caps := by
  obtain ⟨r, hr⟩ := summed_rest g d
  rw [captureNow_eq, (recOut_leaves hg _ _).1, caps_recWords, caps_grpCleared, hr]

theorem rd_captureNow (hg : g < 32) {k v : Nat} (hk : ((d.summed g).grpRecord g)[k]? = some v) :
    (d.captureNow g).rd (Reg.CNT_REC_WORD g k) = v % 2 ^ 64 := by
  rw [captureNow_eq, (recOut_leaves hg _ _).2, rd_recWords hk]

/-! The words of a valid group's record. -/

section words

variable (hg : g < 32) (hv : d.grpValid g = true)
include hg

theorem kind_summed : (d.summed g).rd (Reg.CNT_GRP_KIND g) = d.rd (Reg.CNT_GRP_KIND g) :=
  rd_summed (by simp only [Reg.CNT_GRP_KIND, Reg.CNT_GRP]; omega) (Nat.zero_lt_succ _)

theorem length_summed : ((d.summed g).grpValues g).length = (d.grpRegs g).length := by
  rw [grpValues_length]
  by_cases h : d.rd (Reg.CNT_GRP_KIND g) = 2
  · rw [grpRegs_partition h, grpRegs_partition ((kind_summed hg).trans h)]
  · rw [summed_other h]

include hv in
theorem header_captureNow : (d.captureNow g).rd (Reg.CNT_REC_WORD g 0) = g + d.rd (Reg.CNT_GRP_KIND g) * 2 ^ 8 + (d.grpRegs g).length * 2 ^ 16 := by
  have hw := rd_captureNow (d := d) hg (k := 0) rfl
  have hk := (grpValid_bounds hv).1
  have hn := grpRegs_length_le hv
  rw [kind_summed hg, length_summed hg] at hw
  rw [hw]
  exact Nat.mod_eq_of_lt (by omega)

theorem time_captureNow : (d.captureNow g).rd (Reg.CNT_REC_WORD g 1) = d.now % 2 ^ 64 := by
  obtain ⟨r, hr⟩ := summed_rest g d
  have hw := rd_captureNow (d := d) hg (k := 1) rfl
  rwa [hr] at hw

theorem count_captureNow : (d.captureNow g).rd (Reg.CNT_REC_WORD g 2) = (d.rd (Reg.CNT_REC_WORD g 2) + 1) % 2 ^ 64 := by
  have hw := rd_captureNow (d := d) hg (k := 2) rfl
  rw [rd_summed (by simp only [Reg.CNT_REC_WORD, Reg.CNT_REC]; omega) (Nat.zero_lt_succ _), Nat.mod_mod] at hw
  exact hw

theorem value_captureNow (hk : d.rd (Reg.CNT_GRP_KIND g) ≠ 2) {k v : Nat} (h : (d.grpValues g)[k]? = some v) :
    (d.captureNow g).rd (Reg.CNT_REC_WORD g (4 + k)) = v % 2 ^ 64 := by
  refine rd_captureNow hg ?_
  rw [summed_other hk, Nat.add_comm]
  exact h

theorem pending_captureNow (hk : d.rd (Reg.CNT_GRP_KIND g) = 9) {k : Nat} (h : k < 64) :
    (d.captureNow g).rd (Reg.CNT_REC_WORD g (4 + k)) = d.pendMap k % 2 ^ 64 := by
  have hvalue : (d.grpValues g)[k]? = some (d.pendMap k % 2 ^ 64) := by
    rw [grpValues, grpRegs_pending hk, List.map_map, List.getElem?_map, List.getElem?_range h]
    exact congrArg some (regVal_pending k d)
  exact (value_captureNow hg (by omega) hvalue).trans (Nat.mod_mod ..)

theorem bank_captureNow (hk : d.rd (Reg.CNT_GRP_KIND g) = 10) {k : Nat} (h : k < 4) :
    (d.captureNow g).rd (Reg.CNT_REC_WORD g (5 + k)) = d.rd (Reg.ERR_P_WORD (d.rd (Reg.CNT_GRP_SEL g)) k) % 2 ^ 64 := by
  have hreg : (d.grpRegs g)[1 + k]? = some (some (.ERR_P, [d.rd (Reg.CNT_GRP_SEL g), k])) := by
    rw [grpRegs_bank hk]
    match k, h with
    | 0, _ => rfl
    | 1, _ => rfl
    | 2, _ => rfl
    | 3, _ => rfl
  have hvalue : (d.grpValues g)[1 + k]? = some (d.rd (Reg.ERR_P_WORD (d.rd (Reg.CNT_GRP_SEL g)) k)) := by
    rw [grpValues, List.getElem?_map, hreg]
    exact congrArg some (regVal_primary _ k d)
  have hw := value_captureNow hg (by omega) hvalue
  rwa [show 4 + (1 + k) = 5 + k by omega] at hw

include hv in
/-- What the statement asks of a capture. -/
theorem captureNow_leaves (k : Nat) : tabGet 0 g (d.captureNow g).caps = tabGet 0 g d.caps ∧
    (d.captureNow g).rd (Reg.CNT_REC_WORD g 0) = g + d.rd (Reg.CNT_GRP_KIND g) * 2 ^ 8 + (d.grpRegs g).length * 2 ^ 16 ∧
    (d.captureNow g).rd (Reg.CNT_REC_WORD g 1) = d.now % 2 ^ 64 ∧
    (d.captureNow g).rd (Reg.CNT_REC_WORD g 2) = (d.rd (Reg.CNT_REC_WORD g 2) + 1) % 2 ^ 64 ∧
    (d.rd (Reg.CNT_GRP_KIND g) = 9 → k < 64 → (d.captureNow g).rd (Reg.CNT_REC_WORD g (4 + k)) = d.pendMap k % 2 ^ 64) ∧
    (d.rd (Reg.CNT_GRP_KIND g) = 10 → k < 4 →
      (d.captureNow g).rd (Reg.CNT_REC_WORD g (5 + k)) = d.rd (Reg.ERR_P_WORD (d.rd (Reg.CNT_GRP_SEL g)) k) % 2 ^ 64) :=
  ⟨congrArg (tabGet 0 g) (caps_captureNow hg d), header_captureNow hg hv, time_captureNow hg, count_captureNow hg,
    fun hk h => pending_captureNow hg hk h, fun hk h => bank_captureNow hg hk h⟩

end words

/-! Triggers (R436) and the cycle counters (R434). -/

theorem captureTrigger_invalid (hv : d.grpValid g = false) : d.captureTrigger g = d := by
  rw [captureTrigger, if_pos (by simp [hv])]

theorem captureTrigger_waits (hv : d.grpValid g = true) (h : tabGet 0 g d.caps < 2) :
    d.captureTrigger g = { d with caps := tabPut 0 g (tabGet 0 g d.caps + 1) d.caps } := by
  rw [captureTrigger, if_neg (by simp [hv])]
  split
  case h_1 hc => rw [hc]
  case h_2 hc => rw [hc]
  case h_3 h0 h1 => exact absurd h (Nat.not_lt.mpr ((Nat.two_le_iff _).mpr ⟨h0, h1⟩))

theorem captureTrigger_merges (hv : d.grpValid g = true) (h : 2 ≤ tabGet 0 g d.caps) :
    d.captureTrigger g = d.incSat (Reg.CNT_GRP_MERGED g) 1 := by
  rw [captureTrigger, if_neg (by simp [hv])]
  split
  · omega
  · omega
  · rfl

theorem rd_cntClr {f : Fld} (ha : 0xf10000 ≤ f.addr ∧ f.addr < 0xf34000) (hl : f.lo < 64) (hr : f.reset = 0) (d : Dev) : d.cntClr.rd f = 0 := by
  rw [rd, hr]
  exact tabGet_tabClear_in (lo := 0xf10000 * 64) (n := 0x400 * 144 * 64) (h := by simp only [Fld.key]; omega) ..

end Sys2Proof.Machine.Dev
end

section
/-!
Dumps, stops and the access port (R439 to R442).
-/
namespace Sys2Proof.Machine.Dev

variable {d : Dev} {p c : Nat}

/-! A dump armed (R439). -/

/-- What a search does with one entry's bytes. -/
def dumpEntry (name : List Byte) (next : Dev → Option Dump × Dev) (x : Except (MFault × Nat) (List Byte) × Dev) : Option Dump × Dev :=
  match x with
  | (.error _, d) => next d
  | (.ok b, d) =>
    if b.take 32 = name then (some { name := name, va := byteField b 32 8, len := byteField b 40 8, fmt := byteField b 48 1 }, d) else next d

/-- The search goes entry by entry. `vaRead` is hidden from the kernel, which would evaluate the number of its pieces. -/
theorem dumpFind_cons (name : List Byte) (i : Nat) (l : List Nat) (d : Dev) : Dev.dumpFind p name (i :: l) d =
    dumpEntry name (Dev.dumpFind p name l) (d.vaRead p none (d.rd (Reg.PD_DUMPTAB_VA p) + 64 * i) 64) := by
  obtain ⟨D, hD⟩ : ∃ D, D = @dumpFind := ⟨_, rfl⟩
  obtain ⟨V, hV⟩ : ∃ V, V = @vaRead := ⟨_, rfl⟩
  rw [← hD, ← hV]
  delta dumpFind dumpFind._f at hD
  rw [← hV] at hD
  subst hD
  rfl

theorem dumpEntry_name {name : List Byte} {next : Dev → Option Dump × Dev} {u : Dump} {e : Dev} (hnext : ∀ d, next d = (some u, e) → u.name = name)
    (x : Except (MFault × Nat) (List Byte) × Dev) (h : dumpEntry name next x = (some u, e)) : u.name = name := by
  unfold dumpEntry at h
  split at h
  · exact hnext _ h
  · split at h
    · cases h
      rfl
    · exact hnext _ h

theorem dumpFind_name {name : List Byte} {u : Dump} {e : Dev} (l : List Nat) (d : Dev) (h : Dev.dumpFind p name l d = (some u, e)) :
    u.name = name := by
  induction l generalizing d with
  | nil => cases h
  | cons i l ih => exact dumpEntry_name ih _ ((dumpFind_cons name i l d).symm.trans h)

/-- The name that a dump looks for. -/
def dumpName (d : Dev) (p : Nat) : List Byte := (List.range 4).flatMap fun n => leBytes 8 (d.rd (Reg.PD_DUMPNAME_BYTES p n))

theorem dumpName_wr (step : Nat) (d : Dev) : (d.wr (Reg.PD_DUMPCFG_STEP p) step).dumpName p = d.dumpName p := by
  unfold dumpName
  refine List.flatMap_congr fun n hn => ?_
  have hkey : (Reg.PD_DUMPNAME_BYTES p n).key ≠ (Reg.PD_DUMPCFG_STEP p).key := by
    have hn' := List.mem_range.mp hn
    simp only [Fld.key, Reg.PD_DUMPNAME_BYTES, Reg.PD_DUMPNAME, Reg.PD_DUMPCFG_STEP, Reg.PD_DUMPCFG]
    omega
  rw [rd_wr_ne _ _ _ _ hkey]

theorem dumpArm_searches (hfree : (d.part p).dump = none) {step : Nat} {o : Option Dump} {e : Dev}
    (h : Dev.dumpFind p (d.dumpName p) (List.range (d.rd (Reg.PD_DUMPTAB_ENTRIES p) + 1)) (d.wr (Reg.PD_DUMPCFG_STEP p) step) = (o, e)) :
    d.dumpArm p step = match o with
      | some u => if 1 ≤ u.len ∧ u.len ≤ 2 ^ 30 then (e.updPart p fun x => { x with dump := some u }).setF (Reg.PD_DUMPSTAT_ARMED p)
        else e.setF (Reg.PD_DUMPSTAT_ARMERR p)
      | none => e.setF (Reg.PD_DUMPSTAT_ARMERR p) := by
  have hentries : (d.wr (Reg.PD_DUMPCFG_STEP p) step).rd (Reg.PD_DUMPTAB_ENTRIES p) = d.rd (Reg.PD_DUMPTAB_ENTRIES p) :=
    rd_wr_ne _ _ _ _ (by simp only [Fld.key, Reg.PD_DUMPTAB_ENTRIES, Reg.PD_DUMPTAB, Reg.PD_DUMPCFG_STEP, Reg.PD_DUMPCFG]; omega)
  rw [← dumpName_wr step, ← hentries] at h
  unfold dumpArm
  dsimp only
  rw [if_neg (by simp [hfree])]
  unfold dumpName at h
  rw [h]
  cases o <;> rfl

theorem dumpArm_armed (p : Nat) (u : Dump) (d : Dev) :
    (((d.updPart p fun x => { x with dump := some u }).setF (Reg.PD_DUMPSTAT_ARMED p)).part p).dump = some u := by
  change ((d.updPart p fun x => { x with dump := some u }).part p).dump = some u
  rw [part_updPart_same]

/-! A held command goes on (R440). -/

theorem stepRelease_none (h : ∀ e ∈ d.recsOf p, e.2.step ≠ 1 ∧ e.2.step ≠ 3) : d.stepRelease p = d := by
  have hnone : ((d.recsOf p).find? fun e => e.2.step = 1 || e.2.step = 3) = none :=
    List.find?_eq_none.mpr fun e he => by simp [h e he]
  rw [stepRelease, hnone]

theorem stepRelease_start {i : Nat} {x : JRec} (h : ((d.recsOf p).find? fun e => e.2.step = 1 || e.2.step = 3) = some (i, x)) (hx : x.step = 1) :
    d.stepRelease p = ((d.stepShow p 0 0).updJr (slotBase p + i) fun y => { y with step := y.step + 1 }).commandStart p i := by
  rw [stepRelease, h]
  exact if_pos hx

/-! Stops and resumptions (R441): a resumed core's engines go on, and a test granted withdraws no other stop. -/

theorem stopReq_retire (len : Nat) (d : Dev) : ((d.retire c len).core c).stopReq = (d.core c).stopReq := by
  rw [retire, core_updCore_same]
  split
  · split <;> rfl
  · split
    · split
      · dsimp only
        split <;> rfl
      · rfl
    · rfl

theorem stopReq_setEng (x : Core) (e : Nat) (g : Eng) : (x.setEng e g).stopReq = x.stopReq := by
  unfold Core.setEng
  split <;> rfl

theorem stopReq_updEng (e : Nat) (f : Eng → Eng) (d : Dev) : ((d.updEng c e f).core c).stopReq = (d.core c).stopReq := by
  rw [updEng, core_updCore_same, stopReq_setEng]

theorem stopReq_testDone (e : Nat) (t : TestWait) (d : Dev) : ((d.testDone c e t).core c).stopReq = (d.core c).stopReq := by
  simp only [testDone]
  split
  · rw [stopReq_retire, stopReq_updEng]
    split <;> rfl
  · rw [engDone, stopReq_updEng, stopReq_updEng]
    split <;> rfl

theorem stopReq_grantTests (n : Nat) (d : Dev) : ((d.grantTests c n).core c).stopReq = (d.core c).stopReq := by
  refine foldl_keeps (fun x : Dev => (x.core c).stopReq = (d.core c).stopReq) _ _ d rfl fun x e he => ?_
  split
  · split
    · exact (stopReq_testDone ..).trans he
    · exact he
  · exact he

theorem stopReq_retest (d : Dev) : ((d.retest c).core c).stopReq = (d.core c).stopReq := by
  refine foldl_keeps (fun x : Dev => (x.core c).stopReq = (d.core c).stopReq) _ _ d rfl fun x e he => ?_
  split
  · exact (stopReq_grantTests ..).trans he
  · exact he

theorem retest_idle (h : ∀ e, e < 4 → (d.eng c e).wait = none) : d.retest c = d := by
  have h0 := h 0 (by decide)
  have h1 := h 1 (by decide)
  have h2 := h 2 (by decide)
  have h3 := h 3 (by decide)
  simp only [retest, List.foldl_cons, List.foldl_nil, h0, h1, h2, h3]

/-- A core whose engines go on. -/
def engsStarted (x : Core) : Core :=
  { x with e0 := { x.e0 with stopped := false }, e1 := { x.e1 with stopped := false },
           e2 := { x.e2 with stopped := false }, e3 := { x.e3 with stopped := false } }

theorem stopEnd_eq (why : Nat) (d : Dev) : d.stopEnd c why =
    let r := Nat.land (d.core c).stopReq (255 - why)
    let e := d.setCore c { d.core c with stopReq := r }
    if r ≠ 0 ∨ (d.core c).faultStop then e else (e.updCore c engsStarted).retest c := rfl

theorem stopReq_stopEnd (why : Nat) (d : Dev) : ((d.stopEnd c why).core c).stopReq = Nat.land (d.core c).stopReq (255 - why) := by
  rw [stopEnd_eq]
  dsimp only
  split
  · exact congrArg Core.stopReq (core_setCore_same ..)
  · rw [stopReq_retest, core_updCore_same]
    exact congrArg Core.stopReq (core_setCore_same ..)

theorem eng_engsStarted (x : Core) (e : Nat) : ((engsStarted x).eng e).stopped = false ∧ ((engsStarted x).eng e).wait = (x.eng e).wait := by
  unfold Core.eng
  split <;> exact ⟨rfl, rfl⟩

/-- With no other stop and nothing awaited, the core's engines go on. -/
theorem stopEnd_starts {why : Nat} (hr : Nat.land (d.core c).stopReq (255 - why) = 0) (hf : (d.core c).faultStop = false)
    (hw : ∀ e, e < 4 → (d.eng c e).wait = none) (e : Nat) : ((d.stopEnd c why).eng c e).stopped = false := by
  have hcore : ((d.setCore c { d.core c with stopReq := Nat.land (d.core c).stopReq (255 - why) }).updCore c engsStarted).core c =
      engsStarted { d.core c with stopReq := Nat.land (d.core c).stopReq (255 - why) } :=
    (core_updCore_same ..).trans (congrArg engsStarted (core_setCore_same ..))
  rw [stopEnd_eq]
  dsimp only
  rw [if_neg (fun h => h.elim (fun h' => h' hr) (by simp [hf])), retest_idle fun k hk => ?_]
  · rw [eng, hcore]
    exact (eng_engsStarted _ e).1
  · rw [eng, hcore]
    exact (eng_engsStarted _ k).2.trans (hw k hk)

theorem bit_land_even (x : Nat) : bit (Nat.land x 254) 0 = false := by
  have h : Nat.testBit (x &&& 254) 0 = false := by rw [Nat.testBit_and]; simp
  rw [Nat.testBit_zero] at h
  simp only [bit, Nat.pow_zero, Nat.div_one]
  exact h

/-! The access port (R442). -/

set_option maxRecDepth 4000 in
theorem regAt_apData : regAt Reg.DBG_APDATA = some (.DBG_APDATA, []) := by decide

theorem apData_reached {r : Requester} (h : ∀ q, r ≠ .vf q) : d.reach r Reg.DBG_APDATA = .reg .DBG_APDATA [] Reg.DBG_APDATA := by
  have hmap : d.reachMap Reg.DBG_APDATA = .reg .DBG_APDATA [] Reg.DBG_APDATA := reachMap_of_regAt regAt_apData (by decide) (by decide)
  cases r with
  | vf q => exact absurd rfl (h q)
  | pf => exact hmap
  | mgmt m => exact hmap
  | dbg => exact hmap

theorem accessPortRead_reached {r : Requester} (hup : d.reqUp r = true) (h : ∀ q, r ≠ .vf q) :
    d.accessPortRead r = d.apRead.2.answer r d.apRead.1 := by
  have hread : d.read64 r Reg.DBG_APDATA = d.apRead := by rw [read64, apData_reached h]
  rw [accessPortRead, access, if_pos hup]
  dsimp only
  rw [hread]

theorem accessPortWrite_reached {r : Requester} (hup : d.reqUp r = true) (h : ∀ q, r ≠ .vf q) (v : Nat) :
    d.accessPortWrite r v = d.apWrite v := by
  rw [accessPortWrite, access, if_pos hup, write64, apData_reached h]

section port

variable (v : Nat)

theorem ap_register (hbar : d.rd Reg.DBG_APADDR_SPACE = 0) {n : RegName} {i : List Nat} {a : Nat} (h : d.apReach = .reg n i a) :
    d.apRead = readReg n i a d ∧ d.apWrite v = d.commitReg n i a v := by
  simp only [apRead, apWrite, if_pos hbar, h, and_self]

theorem ap_untranslated (hbar : ¬ d.rd Reg.DBG_APADDR_SPACE = 0) (h : d.apPhys = .error .translation) :
    d.apRead = (0, d.setF Reg.DBG_STAT_APERR) ∧ d.apWrite v = d.setF Reg.DBG_STAT_APERR := by
  simp only [apRead, apWrite, if_neg hbar, h, apErr, and_self]

theorem ap_hbm (hbar : ¬ d.rd Reg.DBG_APADDR_SPACE = 0) {pa : Nat} (h : d.apPhys = .ok (.hbm pa)) (hq : d.devQuiet = false) :
    d.apWrite v = d.hbmWrite pa (leBytes 8 v) := by
  simp only [apWrite, if_neg hbar, h, hq, Bool.false_eq_true, if_false]

end port

end Sys2Proof.Machine.Dev

namespace Sys2Proof.Machine

section rows

variable (s : State)

theorem completes_clr : Completes .clr s s.dev.cntClr := rfl
theorem completes_cntSnap (g : Fin 32) : Completes (.cntSnap g) s (s.dev.captureTrigger g) := rfl
theorem completes_capture (g : Fin 32) : Completes (.capture g) s (s.dev.capture g) := rfl
theorem completes_dumpArm (p : PartNo) (step : BitVec 32) : Completes (.dumpArm p step) s (s.dev.dumpArm p step.toNat) := rfl
theorem completes_stepGo (p : PartNo) : Completes (.stepGo p) s (s.dev.stepRelease p) := rfl
theorem completes_stop (c : CoreNo) : Completes (.stop c) s ((s.dev.wr Reg.DBG_CORECTL_LCORE c).stopReq c 1) := rfl
theorem completes_resume (c : CoreNo) : Completes (.resume c) s ((s.dev.wr Reg.DBG_CORECTL_LCORE c).stopEnd c 1) := rfl
theorem completes_accessPortRead (r : Requester) : Completes (.accessPortRead r) s (s.dev.accessPortRead r) := rfl
theorem completes_accessPortWrite (r : Requester) (v : Word) : Completes (.accessPortWrite r v) s (s.dev.accessPortWrite r v.toNat) := rfl

end rows

open Dev in
/-- Settles O59: the record's words by their place in `grpRecord`, a dump by what the search finds, a stop by the core's requests. -/
theorem capturesDumpsAndStepping : Obligations.CapturesDumpsAndStepping := by
  intro s g p v step c r k waiting d0 kind name found free bar
  have hg := g.isLt
  have hdump := completes_dumpArm s p step
  refine ⟨⟨_, completes_clr s, fun k e hk he => ?cycles⟩, fun h => (completes_cntSnap s g).of_eq (captureTrigger_invalid h),
    fun h hw => (completes_cntSnap s g).of_eq (captureTrigger_waits h hw), fun h hw => (completes_cntSnap s g).of_eq (captureTrigger_merges h hw),
    fun h => (completes_capture s g).of_eq (if_pos h), fun h hv => ⟨_, (completes_capture s g).of_eq (if_neg h), ?captured⟩, rfl,
    fun h => hdump.of_eq (if_pos (by simpa [Option.isSome_iff_ne_none] using h)), fun d1 hfree hf => hdump.of_eq (dumpArm_searches hfree hf),
    fun u d1 hfree hf hlen => hdump.of_eq ((dumpArm_searches hfree hf).trans (if_neg (by omega))),
    fun u d1 hfree hf h1 h2 => ⟨_, hdump.of_eq ((dumpArm_searches hfree hf).trans (if_pos ⟨h1, h2⟩)), dumpArm_armed .., decide_eq_true (rd_setF_same rfl)⟩,
    fun l d d1 u h => dumpFind_name l d h, fun h => (completes_stepGo s p).of_eq (stepRelease_none h),
    fun i x h hx => (completes_stepGo s p).of_eq (stepRelease_start h hx), ⟨_, completes_stop s c, ?stops⟩, ⟨_, completes_resume s c, ?resumes⟩,
    fun h => ⟨(completes_accessPortRead s r).of_eq (if_neg (by simp [h])), (completes_accessPortWrite s r v).of_eq (if_neg (by simp [h]))⟩,
    fun h hr => ⟨(completes_accessPortRead s r).of_eq (accessPortRead_reached h hr), (completes_accessPortWrite s r v).of_eq (accessPortWrite_reached h hr _)⟩,
    fun n i a hb h => ap_register _ hb h, fun hb h => ap_untranslated _ hb h, fun pa hb h hq => ap_hbm _ hb h hq⟩
  case cycles =>
    refine ⟨rd_cntClr ?_ (Nat.zero_lt_succ _) rfl s.dev, rd_cntClr ?_ (Nat.zero_lt_succ _) rfl s.dev, rd_cntClr ?_ (Nat.zero_lt_succ _) rfl s.dev⟩ <;>
      simp only [Reg.CNT_BUSY_BUSY, Reg.CNT_BUSY, Reg.CNT_STALL_STALL, Reg.CNT_STALL, Reg.CNT_IDLE_IDLE, Reg.CNT_IDLE] <;> omega
  case captured =>
    obtain ⟨hcaps, hwords⟩ := captureNow_leaves (d := d0) hg hv k
    exact ⟨hcaps.trans (tabGet_tabPut_same ..), hwords⟩
  case stops =>
    have hcore : (((s.dev.wr Reg.DBG_CORECTL_LCORE c).stopReq c 1).core c) = { s.dev.core c with stopReq := Nat.lor (s.dev.core c).stopReq 1 } :=
      core_updCore_same ..
    rw [hcore]
    refine ⟨?_, (rd_wr_same ..).trans (Nat.mod_eq_of_lt (by have := c.isLt; simp only [Reg.DBG_CORECTL_LCORE]; omega)), rfl⟩
    rw [bit_lor]
    exact Bool.or_eq_true_iff.mpr (.inr (by decide))
  case resumes =>
    refine ⟨?_, fun hr hf hw e _ => stopEnd_starts (d := s.dev.wr Reg.DBG_CORECTL_LCORE c) (why := 1) hr hf hw e⟩
    rw [stopReq_stopEnd]
    exact bit_land_even _

end Sys2Proof.Machine
end

section
/-!
Core resets (R75, R162) on a device whose register table is not in its canonical form.
-/
namespace Sys2Proof.Machine

theorem completes_coreReset (s : State) (c : CoreNo) : Completes (.coreReset c) s (s.dev.coreResetCmd c) := rfl

/-- Out of reset, with an entry of core 5's window before the one of core 0's epoch, so that a read of that epoch stops short of it. -/
def epochOutOfOrder : Dev :=
  { State.reset.dev with regs := [(Reg.RST_STAT_INRESET.key, 0), (0x1050000 * 64, 1), ((Reg.SY_EPOCH_EPOCH 0).key, 7)] }

set_option maxRecDepth 40000 in
theorem epochOutOfOrder_ready : epochOutOfOrder.flag Reg.RST_STAT_INRESET = false := by decide

set_option maxRecDepth 40000 in
/-- The reset drops the entry of core 5's window, and core 0's epoch comes to light. -/
theorem epochOutOfOrder_reset : (epochOutOfOrder.coreResetCmd 5).epochOf 0 = 7 := by decide

/-- Refutes O56: its clause on a core reset leaves every other core's epoch as it was, from every state, and so also where the register
table has keys out of order (`tabWf` fails), which no run makes. There a reset of core 5 changes the epoch that core 0 shows. -/
theorem not_resetsAndBringUps : ¬ Obligations.ResetsAndBringUps := by
  intro h
  obtain ⟨-, -, -, -, -, -, -, hcore, -⟩ := h { State.reset with dev := epochOutOfOrder } 0 5 0 0 0
  obtain ⟨d, hd, -, -, hepoch⟩ := hcore epochOutOfOrder_ready
  rw [hd.unique (completes_coreReset ..)] at hepoch
  have h0 := (hepoch 0 (by decide)).symm.trans epochOutOfOrder_reset
  exact absurd h0 (by decide)

end Sys2Proof.Machine
end

section
/-!
A retirement (R368, R326) of a core whose command armed a slot with a descriptor outside its fields (Table CF-2): no arming stores it,
since a descriptor's flag number is cut to its field.
-/
namespace Sys2Proof.Machine

theorem completes_coreRetirement (s : State) (c : CoreNo) : Completes (.coreRetirement c) s (s.dev.retireCore c) := rfl

/-- A descriptor whose completion update stores 5 in flag 451 of core 0: there, past the core's flags, lies its epoch. -/
def descOfStrayFlag : CfDesc where
  kind := 0
  arith := 0
  ifmt := 0
  ofmt := 0
  plan := 0
  rel := false
  lsb := false
  close := false
  rearm := false
  ret := false
  anchor := 0
  aop := 0
  trig := 0
  tflag := 0
  tcore := 0
  arem := false
  bid := 0
  tval := 0
  src := 0
  dst := 0
  count := 0
  tinc := 0
  staddr := 0
  ccore := 0
  cflag := 451
  csop := 0
  cen := true
  cval := 5
  astream := 0
  rsv := false

/-- Core 0 of partition 0 runs the command of record 0, which armed slot 0 with that descriptor. -/
def slotOfStrayFlag : Dev :=
  ((((State.reset.dev.wr (Reg.CF_SLOT_STATE 0 0) 2).setJr 0 { JRec.reset with st := .running }).setCf 0
    { CfSlot.reset with desc := some descOfStrayFlag, cmd := some 0 }).updCore 0 fun x => { x with cmd := some (0, 0) }).updPart 0
    fun x => { x with cores := 1 }

set_option maxRecDepth 40000 in
theorem slotOfStrayFlag_on : slotOfStrayFlag.coreOffline 0 = false ∧ bit (slotOfStrayFlag.rd Reg.SP_STAT_AVAIL) 0 = true := by decide

set_option maxRecDepth 40000 in
theorem slotOfStrayFlag_epoch : slotOfStrayFlag.epochOf 0 = 0 := by decide

set_option maxRecDepth 40000 in
/-- The attempt's end aborts the slot, whose completion update comes before the core's reset. -/
theorem slotOfStrayFlag_retired : (slotOfStrayFlag.retireCore 0).epochOf 0 = 6 := by decide

/-- Refutes O50: its clause on a core that moves to the spare advances the core's epoch by one, from every state, and so also from one
whose slot holds a descriptor that no arming stores. There the slot's completion update reaches the epoch first. -/
theorem not_coresAndPairsAreRetired : ¬ Obligations.CoresAndPairsAreRetired := by
  intro h
  obtain ⟨-, -, -, hspare, -⟩ := h { State.reset with dev := slotOfStrayFlag } 0 0 0 0 0 0
  obtain ⟨d, hd, -, -, -, hepoch, -⟩ := hspare slotOfStrayFlag_on.1 slotOfStrayFlag_on.2
  rw [hd.unique (completes_coreRetirement ..)] at hepoch
  have hfirst : (slotOfStrayFlag.retireCore 0).epochOf 0 = (slotOfStrayFlag.epochOf 0 + 1) % 2 ^ 32 := hepoch
  rw [slotOfStrayFlag_retired, slotOfStrayFlag_epoch] at hfirst
  exact absurd hfirst (by decide)

end Sys2Proof.Machine
end

section
/-!
What the governors of power and temperature stand on (R415 to R419, R425 to R428): a table whose late entries go, and the work of links,
lasers and quiet scopes, which leaves the island's own registers alone.
-/
namespace Sys2Proof.Machine

theorem bit_mod_two_pow (x : Nat) {n w : Nat} (h : n < w) : bit (x % 2 ^ w) n = bit x n := by
  simp only [bit, ← Nat.testBit_eq_decide_div_mod_eq, Nat.testBit_mod_two_pow, h, decide_true, Bool.true_and]

section tables

variable {α : Type} {t : Tab α} {k k₀ : Nat}

theorem tabGet_tabKeep_out {keep : Nat → Bool} (h : keep k = false) (v : α) : tabGet v k (tabKeep keep t) = v := by
  induction t with
  | nil => rfl
  | cons e r ih =>
    rw [tabKeep] at ih ⊢
    by_cases he : keep e.1 = true
    · have hk : e.1 ≠ k := fun hk => by simp [← hk, he] at h
      rw [List.filter_cons_of_pos (by simpa using he), tabGet, if_neg hk, ih, ite_self]
    · rw [List.filter_cons_of_neg (by simpa using he), ih]

/-- In whatever order a table's keys stand, a read below an entry that a read finds does not see what goes from above it. -/
theorem tabGet_filter_beneath {q : Nat × α → Bool} {v₀ : α} (h : tabGet v₀ k₀ t ≠ v₀) (hk : k ≤ k₀) (hq : ∀ e ∈ t, e.1 ≤ k₀ → q e = true) (v : α) :
    tabGet v k (t.filter q) = tabGet v k t := by
  induction t with
  | nil => rfl
  | cons e r ih =>
    obtain ⟨key, x⟩ := e
    have hle : key ≤ k₀ := Nat.le_of_not_lt fun hlt => h (by rw [tabGet, if_neg (by omega), if_pos hlt])
    rw [List.filter_cons_of_pos (hq _ List.mem_cons_self hle), tabGet, tabGet]
    by_cases h₀ : key = k₀
    · by_cases hkey : key = k
      · rw [if_pos hkey, if_pos hkey]
      · rw [if_neg hkey, if_neg hkey, if_pos (by omega), if_pos (by omega)]
    · rw [tabGet, if_neg h₀, if_neg (by omega)] at h
      rw [ih h fun e he => hq e (List.mem_cons_of_mem _ he)]

end tables

namespace Dev

variable {d e f : Dev} {g : Fld}

/-- From `d` to `e` the registers below the quiet scopes' stand (identity, power, resets, temperature), and so do the thermal pin, the
hot samples, the log and the input's hold. -/
structure KeepsGovernors (d e : Dev) : Prop where
  rd : ∀ f : Fld, f.addr < 0x50000 → f.lo < 64 → e.rd f = d.rd f
  trip : e.pins.thermtripN = d.pins.thermtripN
  hot : e.sensHot = d.sensHot
  log : e.log = d.log
  vin : e.vinLow = d.vinLow

namespace KeepsGovernors

theorem refl (d : Dev) : KeepsGovernors d d := ⟨fun _ _ _ => rfl, rfl, rfl, rfl, rfl⟩

theorem trans (h : KeepsGovernors d e) (h' : KeepsGovernors e f) : KeepsGovernors d f :=
  ⟨fun g ha hl => (h'.rd g ha hl).trans (h.rd g ha hl), h'.trip.trans h.trip, h'.hot.trans h.hot, h'.log.trans h.log, h'.vin.trans h.vin⟩

theorem of_sources (h : SameButSources d e) : KeepsGovernors d e :=
  ⟨fun g _ _ => h.rd g, by rw [h], by rw [h], by rw [h], by rw [h]⟩

/-- Work that writes no register keeps them. -/
theorem of_regs (hr : e.regs = d.regs) (ht : e.pins.thermtripN = d.pins.thermtripN) (hh : e.sensHot = d.sensHot) (hl : e.log = d.log)
    (hv : e.vinLow = d.vinLow) : KeepsGovernors d e :=
  ⟨fun g _ _ => by rw [Dev.rd, hr, ← Dev.rd], ht, hh, hl, hv⟩

theorem foldl {α : Type} {step : Dev → α → Dev} {xs : List α} (h : ∀ e, ∀ x ∈ xs, KeepsGovernors e (step e x)) (d : Dev) :
    KeepsGovernors d (xs.foldl step d) :=
  List.foldlRecOn (motive := KeepsGovernors d) xs step (.refl d) fun e he x hx => he.trans (h e x hx)

end KeepsGovernors

theorem irqEvent_governors (n : Nat) (d : Dev) : KeepsGovernors d (d.irqEvent n) := .of_sources (irqEvent_sources ..)

theorem wr_governors (h : 0x50000 ≤ g.addr) (v : Nat) (d : Dev) : KeepsGovernors d (d.wr g v) :=
  ⟨fun f ha hl => rd_wr_ne _ _ _ _ (by simp only [Fld.key]; omega), rfl, rfl, rfl, rfl⟩

theorem alertPin_governors (d : Dev) : KeepsGovernors d d.alertPin := .of_regs rfl rfl rfl rfl rfl
theorem quietPin_governors (d : Dev) : KeepsGovernors d d.quietPin := .of_regs rfl rfl rfl rfl rfl

/-! Error records. -/

section bank

variable (b : Nat)

theorem errStat_high : 0x50000 ≤ Reg.ERR_STAT b := by simp only [Reg.ERR_STAT]; omega

theorem escalate_governors (d : Dev) : KeepsGovernors d (d.escalate b) :=
  (wr_governors (errStat_high b) 1 d).trans ((irqEvent_governors ..).trans (alertPin_governors _))

theorem bankDrop_governors (d : Dev) : KeepsGovernors d (d.bankDrop b) := by
  have counted : KeepsGovernors d (d.incSat (Reg.ERR_STAT_OVF b) 1) := wr_governors (errStat_high b) _ d
  simp only [bankDrop]
  split
  · exact counted.trans (escalate_governors b _)
  · exact counted

theorem setPrim_governors (w0 w1 w2 w3 : Nat) (d : Dev) : KeepsGovernors d (d.setPrim b w0 w1 w2 w3) := by
  have word (w v : Nat) (e : Dev) : KeepsGovernors e (e.wr (Reg.ERR_P_WORD b w) v) :=
    wr_governors (by simp only [Reg.ERR_P_WORD, Reg.ERR_P]; omega) v e
  exact (word 0 w0 d).trans ((word 1 w1 _).trans ((word 2 w2 _).trans (word 3 w3 _)))

theorem setPend_governors (w0 w1 w2 w3 : Nat) (d : Dev) : KeepsGovernors d (d.setPend b w0 w1 w2 w3) := by
  have word (w v : Nat) (e : Dev) : KeepsGovernors e (e.wr (Reg.ERR_Q_WORD b w) v) :=
    wr_governors (by simp only [Reg.ERR_Q_WORD, Reg.ERR_Q]; omega) v e
  exact (word 0 w0 d).trans ((word 1 w1 _).trans ((word 2 w2 _).trans (word 3 w3 _)))

theorem becomePrim_governors (w0 w1 w2 w3 : Nat) (d : Dev) : KeepsGovernors d (d.becomePrim b w0 w1 w2 w3) := by
  have since (e : Dev) : KeepsGovernors e { e with bankSince := tabPut 0 b e.now e.bankSince } := .of_regs rfl rfl rfl rfl rfl
  exact (setPrim_governors b w0 w1 w2 w3 d).trans ((since _).trans ((irqEvent_governors ..).trans (alertPin_governors _)))

theorem err_governors (a : ErrArgs) (d : Dev) : KeepsGovernors d (d.err b a) := by
  have preempts (e : Dev) : KeepsGovernors e (e.setF (Reg.ERR_STAT_PREEMPT b)) := wr_governors (errStat_high b) 1 e
  have displaced (w0 w1 w2 w3 p0 p1 p2 p3 : Nat) :
      KeepsGovernors d (((d.setPend b p0 p1 p2 p3).becomePrim b w0 w1 w2 w3).setF (Reg.ERR_STAT_PREEMPT b)) :=
    (setPend_governors ..).trans ((becomePrim_governors ..).trans (preempts _))
  simp only [err, bankArrive]
  split
  · exact becomePrim_governors ..
  · split
    · split
      · exact (displaced ..).trans (bankDrop_governors b _)
      · exact displaced ..
    · split
      · exact setPend_governors ..
      · exact bankDrop_governors b d

end bank

/-! Links. -/

theorem updLink_governors (l : Nat) (u : Link → Link) (d : Dev) : KeepsGovernors d (d.updLink l u) := .of_regs rfl rfl rfl rfl rfl

theorem lkGo_governors (l st : Nat) (d : Dev) : KeepsGovernors d (d.lkGo l st) := by
  have reshaped (e : Dev) : KeepsGovernors e e.reshapeCheck := by
    unfold reshapeCheck
    split
    · have cleared : KeepsGovernors e { e with reshaped := false } := .of_regs rfl rfl rfl rfl rfl
      exact cleared.trans (wr_governors (g := Reg.RTE_RESHAPE_DONE) (by decide) 1 _)
    · exact .refl e
  unfold lkGo
  split
  · exact .refl d
  · exact (wr_governors (by simp only [Reg.LNK_STAT_STATE, Reg.LNK_STAT]; omega) st d).trans ((irqEvent_governors ..).trans (reshaped _))

theorem tryTrain_governors (l : Nat) (d : Dev) : KeepsGovernors d (d.tryTrain l) := by
  unfold tryTrain
  split
  · exact (updLink_governors l _ d).trans <| (wr_governors (by simp only [Reg.LNK_NBR_VALID, Reg.LNK_NBR]; omega) 0 _).trans (lkGo_governors ..)
  · exact .refl d

theorem lkDown_governors (l : Nat) (d : Dev) : KeepsGovernors d (d.lkDown l) := by
  have freed (e : Dev) (t : TxPkt) : KeepsGovernors e (match t.from_ with | some (a, b, n) => e.freeFlits a b n | none => e) := by
    split
    · exact .of_regs rfl rfl rfl rfl rfl
    · exact .refl e
  simp only [lkDown]
  split
  · exact .refl d
  · refine (KeepsGovernors.trans ?_ (KeepsGovernors.foldl (fun e v _ => ?_) _)).trans
      ((updLink_governors l _ _).trans ((updLink_governors l _ _).trans (lkGo_governors ..)))
    · split
      · exact (wr_governors (by simp only [Reg.LNK_EVCNT_DOWNS, Reg.LNK_EVCNT]; omega) _ d).trans (err_governors ..)
      · exact .refl d
    · exact (KeepsGovernors.foldl (fun e t _ => freed e t) e).trans (updLink_governors l _ _)

/-- A link that begins to train raises its own source alone. -/
theorem src_tryTrain {k : Nat} (hk : k < 512) (l : Nat) (d : Dev) : (d.tryTrain l).src k = d.src k := by
  have reshaped (e : Dev) : e.reshapeCheck.src k = e.src k := by
    unfold reshapeCheck
    split <;> rfl
  unfold tryTrain
  split
  · rw [lkTrain, lkGo]
    split
    · rfl
    · rw [reshaped, lkIrq, src_irqEvent_ne (by omega)]
      rfl
  · rfl

/-! Quiet scopes and lasers. -/

theorem stopCores_governors (cs : List Nat) (why : Nat) (d : Dev) : KeepsGovernors d (d.stopCores cs why) := by
  rw [stopCores_cores]
  exact .of_regs rfl rfl rfl rfl rfl

theorem quietDevice_governors {bank : Nat} (hb : bank < 64) (cls info addr unit : Nat) (d : Dev) :
    KeepsGovernors d (d.quietDevice cls bank info addr unit) := by
  have closed (e : Dev) : KeepsGovernors e (e.devClosed cls) := by
    have marked : KeepsGovernors e (e.devMarked cls) := by
      have held : KeepsGovernors (e.wr Reg.QT_STAT_DEVCAUSE cls) { e.wr Reg.QT_STAT_DEVCAUSE cls with devQuiet := true, devEntering := true } :=
        .of_regs rfl rfl rfl rfl rfl
      exact (wr_governors (by decide) cls e).trans (held.trans (quietPin_governors _))
    rw [devClosed_parts]
    exact marked.trans (.of_regs rfl rfl rfl rfl rfl)
  cases hq : d.devQuiet with
  | true => rw [quietDevice_again cls info hb hq]; exact err_governors ..
  | false =>
    rw [quietDevice_enters cls info hb hq]
    exact (err_governors ..).trans ((closed _).trans (stopCores_governors ..))

theorem setLsen_governors (c : Nat) (v : Bool) (d : Dev) : KeepsGovernors d (d.setLsen c v) := by
  unfold setLsen
  split
  · exact .refl d
  · exact .of_regs rfl rfl rfl rfl rfl

theorem darken_governors (c : Nat) (d : Dev) : KeepsGovernors d (d.darken c) := by
  have shut : KeepsGovernors d (d.slShut c) := by
    unfold slShut slGo
    split
    · exact .refl d
    · split
      · exact setLsen_governors ..
      · exact (setLsen_governors ..).trans ((wr_governors (by simp only [Reg.LAS_SLOT_STATE, Reg.LAS_SLOT]; omega) _ _).trans (irqEvent_governors ..))
  exact shut.trans (setLsen_governors ..)

theorem allOff_governors (d : Dev) : KeepsGovernors d d.allOff := by
  have cut : KeepsGovernors d { d with lasOff := 0xFF } := .of_regs rfl rfl rfl rfl rfl
  rw [allOff_eq]
  exact cut.trans ((KeepsGovernors.foldl (fun e c _ => darken_governors c e) _).trans (wr_governors (by decide) 1 _))

end Dev
end Sys2Proof.Machine
end

section
/-!
Power and temperature (O55): the thermal trip, the cap and the levels, the domains, and the input supply.
-/
namespace Sys2Proof.Machine
namespace Dev

variable {d e : Dev}

/-! The thermal trip (R427). -/

/-- The trip's marks. -/
def tripMarked (source : Nat) (d : Dev) : Dev :=
  let d := (d.setF Reg.THM_STAT_TRIPPED).wr Reg.THM_STAT_TRIPSRC source
  { d with pins := { d.pins with thermtripN := true } }

/-- The trip's end: every domain is off, and no reset runs. -/
def tripEnded (d : Dev) : Dev := (((d.wr Reg.PWR_DOMSTAT_ON 0).clrF Reg.RST_STAT_INRESET).clrF Reg.RST_STAT_READY).quietPin

/-- Lasers off, the device in quiet state and its guarantee ended. -/
def tripClosed (source : Nat) (d : Dev) : Dev := (d.allOff.quietDevice 0x42 2 source 0).guaranteeEnd 3 d.livePartitions

/-- Links down and stacks off. -/
def tripDark (d : Dev) : Dev :=
  (List.range 12).foldl (fun (d : Dev) k => if d.rd (Reg.HBM_STAT_STATE k) = 4 then d else d.wr (Reg.HBM_STAT_STATE k) 0)
    ((List.range 32).foldl (fun (d : Dev) l => d.lkDown l) d)

theorem thermalTrip_again (h : d.flag Reg.THM_STAT_TRIPPED = true) (source : Nat) : d.thermalTrip source = d := if_pos h

theorem thermalTrip_first (h : ¬ d.flag Reg.THM_STAT_TRIPPED = true) (source : Nat) :
    d.thermalTrip source = ((d.tripClosed source).tripMarked source).tripDark.tripEnded := if_neg h

/-- Fields of different registers. -/
theorem key_ne_of_addr {f g : Fld} (h : f.addr ≠ g.addr) (hf : f.lo < 64) (hg : g.lo < 64) : f.key ≠ g.key := by
  simp only [Fld.key]
  omega

theorem rd_tripMarked_ne {f : Fld} (h : f.addr ≠ Reg.THM_STAT) (hl : f.lo < 64) (source : Nat) (d : Dev) : (d.tripMarked source).rd f = d.rd f := by
  change ((d.setF Reg.THM_STAT_TRIPPED).wr Reg.THM_STAT_TRIPSRC source).rd f = d.rd f
  rw [rd_wr_ne _ _ _ _ (key_ne_of_addr h hl (by decide)), rd_setF_ne (key_ne_of_addr h hl (by decide))]

theorem flag_tripMarked (source : Nat) (d : Dev) : (d.tripMarked source).rd Reg.THM_STAT_TRIPPED = 1 := by
  change ((d.setF Reg.THM_STAT_TRIPPED).wr Reg.THM_STAT_TRIPSRC source).rd Reg.THM_STAT_TRIPPED = 1
  rw [rd_wr_ne _ _ _ _ (by decide), rd_setF_same rfl]

theorem source_tripMarked (source : Nat) (d : Dev) : (d.tripMarked source).rd Reg.THM_STAT_TRIPSRC = source % 2 ^ 8 :=
  rd_wr_same (d.setF Reg.THM_STAT_TRIPPED) Reg.THM_STAT_TRIPSRC source

theorem rd_tripEnded_ne {f : Fld} (hd : f.addr ≠ Reg.PWR_DOMSTAT) (hr : f.addr ≠ Reg.RST_STAT) (hl : f.lo < 64) (d : Dev) :
    d.tripEnded.rd f = d.rd f := by
  change (((d.wr Reg.PWR_DOMSTAT_ON 0).clrF Reg.RST_STAT_INRESET).clrF Reg.RST_STAT_READY).rd f = d.rd f
  rw [rd_clrF_ne (key_ne_of_addr hr hl (by decide)), rd_clrF_ne (key_ne_of_addr hr hl (by decide)),
    rd_wr_ne _ _ _ _ (key_ne_of_addr hd hl (by decide))]

theorem domains_tripEnded (d : Dev) : d.tripEnded.rd Reg.PWR_DOMSTAT_ON = 0 := by
  change (((d.wr Reg.PWR_DOMSTAT_ON 0).clrF Reg.RST_STAT_INRESET).clrF Reg.RST_STAT_READY).rd Reg.PWR_DOMSTAT_ON = 0
  rw [rd_clrF_ne (by decide), rd_clrF_ne (by decide), rd_wr_same]
  rfl

theorem tripEnded_rest (d : Dev) : d.tripEnded.sensHot = d.sensHot ∧ d.tripEnded.lsen = d.lsen ∧
    d.tripEnded.pins.thermtripN = d.pins.thermtripN := ⟨rfl, rfl, rfl⟩

theorem tripMarked_rest (source : Nat) (d : Dev) : (d.tripMarked source).sensHot = d.sensHot ∧ (d.tripMarked source).lsen = d.lsen ∧
    (d.tripMarked source).pins.thermtripN = true := ⟨rfl, rfl, rfl⟩

theorem tripDark_governors (d : Dev) : KeepsGovernors d d.tripDark := by
  refine (KeepsGovernors.foldl (fun e l _ => lkDown_governors l e) d).trans (KeepsGovernors.foldl (fun e k _ => ?_) _)
  split
  · exact .refl e
  · exact wr_governors (by simp only [Reg.HBM_STAT_STATE, Reg.HBM_STAT]; omega) 0 e

theorem lsen_tripDark (d : Dev) : d.tripDark.lsen = d.lsen := by
  refine foldl_keeps (fun e : Dev => e.lsen = d.lsen) _ _ _ ?_ fun e k he => ?_
  · exact (KeepsLaser.foldl (fun e l hl => lkDown_laser (List.mem_range.mp hl) e) d).lsen
  · split <;> exact he

/-- Closing keeps the low registers. -/
theorem tripClosed_keeps (source : Nat) (d : Dev) :
    (∀ f : Fld, f.addr < 0x50000 → f.lo < 64 → (d.tripClosed source).rd f = d.rd f) ∧ (d.tripClosed source).sensHot = d.sensHot := by
  have hclosed := (allOff_governors d).trans (quietDevice_governors (bank := 2) (by decide) 0x42 source 0 0 d.allOff)
  exact ⟨hclosed.rd, hclosed.hot⟩

/-- Every laser is off once the device has closed for a trip. -/
theorem lsen_tripClosed {k : Nat} (hk : k < 8) (source : Nat) (d : Dev) : bit (d.tripClosed source).lsen k = false := by
  have hq : (d.tripClosed source).lsen = d.allOff.lsen := (quietDevice_laser (by decide) ..).lsen
  rw [hq]
  exact (darkened hk _).1

/-- What the trip leaves of the low registers but for its own and the domains', and of the hot samples. -/
theorem rd_thermalTrip {f : Fld} (ha : f.addr < 0x50000) (hl : f.lo < 64) (hown : f.addr ≠ Reg.THM_STAT)
    (hdom : f.addr ≠ Reg.PWR_DOMSTAT) (hrst : f.addr ≠ Reg.RST_STAT) (source : Nat) (d : Dev) : (d.thermalTrip source).rd f = d.rd f := by
  by_cases h : d.flag Reg.THM_STAT_TRIPPED = true
  · rw [thermalTrip_again h]
  · rw [thermalTrip_first h, rd_tripEnded_ne hdom hrst hl, (tripDark_governors _).rd f ha hl, rd_tripMarked_ne hown hl,
      (tripClosed_keeps source d).1 f ha hl]

theorem sensHot_thermalTrip (source : Nat) (d : Dev) : (d.thermalTrip source).sensHot = d.sensHot := by
  by_cases h : d.flag Reg.THM_STAT_TRIPPED = true
  · rw [thermalTrip_again h]
  · rw [thermalTrip_first h, (tripEnded_rest _).1, (tripDark_governors _).hot, (tripMarked_rest ..).1, (tripClosed_keeps source d).2]

/-- What a first trip sets. -/
theorem thermalTrip_trips (h : ¬ d.flag Reg.THM_STAT_TRIPPED = true) (source : Nat) :
    (d.thermalTrip source).flag Reg.THM_STAT_TRIPPED = true ∧ (d.thermalTrip source).rd Reg.THM_STAT_TRIPSRC = source % 2 ^ 8 ∧
    (d.thermalTrip source).pins.thermtripN = true ∧ (d.thermalTrip source).rd Reg.PWR_DOMSTAT_ON = 0 ∧
    ∀ k, k < 8 → bit (d.thermalTrip source).lsen k = false := by
  have hdark := tripDark_governors ((d.tripClosed source).tripMarked source)
  have hown (f : Fld) (ha : f.addr = Reg.THM_STAT) (hl : f.lo < 64) :
      ((d.tripClosed source).tripMarked source).tripDark.tripEnded.rd f = ((d.tripClosed source).tripMarked source).rd f := by
    rw [rd_tripEnded_ne (by rw [ha]; decide) (by rw [ha]; decide) hl, hdark.rd f (by rw [ha]; decide) hl]
  rw [thermalTrip_first h]
  refine ⟨?tripped, ?source, ?pin, domains_tripEnded _, fun k hk => ?lasers⟩
  case tripped => rw [flag, hown _ rfl (by decide), flag_tripMarked, decide_eq_true rfl]
  case pin => rw [(tripEnded_rest _).2.2, hdark.trip, (tripMarked_rest ..).2.2]
  case source => rw [hown _ rfl (by decide), source_tripMarked]
  case lasers =>
    rw [(tripEnded_rest _).2.1, lsen_tripDark, (tripMarked_rest ..).2.1]
    exact lsen_tripClosed hk source d

/-! Sensors (R425 to R427). -/

/-- A sample that counts as a second hot one. -/
def sampled (s t : Nat) (hot : Bool) (d : Dev) : Dev :=
  let max' := if bit d.thmSeen s ∧ temp t < temp (d.rd (Reg.THM_SENS_MAX s)) then d.rd (Reg.THM_SENS_MAX s) else t
  let e := (d.wr (Reg.THM_SENS_TEMP s) t).wr (Reg.THM_SENS_MAX s) max'
  { e with thmSeen := setBit e.thmSeen s true, sensHot := setBit e.sensHot s hot }

theorem sensorSample_eq (s t : Nat) (d : Dev) : ∃ e, SameButSources (d.sampled s t (decide (16 * (d.rd Reg.THM_CFG_TRIP : Int) ≤ temp t))) e ∧
    d.sensorSample s t = if decide (16 * (d.rd Reg.THM_CFG_TRIP : Int) ≤ temp t) && bit d.sensHot s then e.thermalTrip s else e := by
  refine ⟨_, ?_, rfl⟩
  split
  · exact irqEvent_sources ..
  · rfl

theorem rd_sampled_ne {f : Fld} {s : Nat} (hf : f.addr ≠ Reg.THM_SENS s) (hl : f.lo < 64) (t : Nat) (hot : Bool) (d : Dev) :
    (d.sampled s t hot).rd f = d.rd f := by
  have hne {g : Fld} (ha : g.addr = Reg.THM_SENS s) (hg : g.lo < 64) : f.key ≠ g.key := by
    simp only [Fld.key]
    omega
  change ((d.wr (Reg.THM_SENS_TEMP s) t).wr (Reg.THM_SENS_MAX s) _).rd f = _
  rw [rd_wr_ne _ _ _ _ (hne rfl (by simp [Reg.THM_SENS_MAX])), rd_wr_ne _ _ _ _ (hne rfl (by simp [Reg.THM_SENS_TEMP]))]

theorem temp_sampled (s : Nat) {t : Nat} (ht : t < 2 ^ 16) (hot : Bool) (d : Dev) : (d.sampled s t hot).rd (Reg.THM_SENS_TEMP s) = t := by
  change ((d.wr (Reg.THM_SENS_TEMP s) t).wr (Reg.THM_SENS_MAX s) _).rd _ = _
  rw [rd_wr_ne _ _ _ _ (by simp [Fld.key, Reg.THM_SENS_TEMP, Reg.THM_SENS_MAX]), rd_wr_same]
  exact Nat.mod_eq_of_lt ht

theorem max_sampled {s : Nat} (hs : bit d.thmSeen s = false) {t : Nat} (ht : t < 2 ^ 16) (hot : Bool) :
    (d.sampled s t hot).rd (Reg.THM_SENS_MAX s) = t := by
  change ((d.wr (Reg.THM_SENS_TEMP s) t).wr (Reg.THM_SENS_MAX s) _).rd _ = _
  rw [rd_wr_same, if_neg (by simp [hs])]
  exact Nat.mod_eq_of_lt ht

/-! The thermal levels (R426). -/

theorem le_foldl_max {l : List Nat} (g : Nat → Int) (a x : Int) : x ≤ l.foldl (fun m i => max m (g i)) a ↔ x ≤ a ∨ ∃ i ∈ l, x ≤ g i := by
  induction l generalizing a with
  | nil => simp
  | cons i l ih =>
    rw [List.foldl_cons, ih, le_max_iff, List.exists_mem_cons_iff]
    tauto

/-- The hottest sensor of a die. -/
def hottest (d : Dev) (die : Nat) : Int :=
  (List.range 16).foldl (fun m i => max m (temp (d.rd (Reg.THM_SENS_TEMP (16 * die + i))))) (temp (d.rd (Reg.THM_SENS_TEMP (16 * die))))

theorem le_hottest (die : Nat) (x : Int) : x ≤ d.hottest die ↔ ∃ i, i < 16 ∧ x ≤ temp (d.rd (Reg.THM_SENS_TEMP (16 * die + i))) := by
  rw [hottest, le_foldl_max]
  constructor
  · rintro (h | ⟨i, hi, h⟩)
    · exact ⟨0, by decide, h⟩
    · exact ⟨i, List.mem_range.mp hi, h⟩
  · rintro ⟨i, hi, h⟩
    exact .inr ⟨i, List.mem_range.mpr hi, h⟩

/-- A level that steps, from the hottest reading and the two limits. -/
def stepped (hi lo top : Int) (l : Nat) : Nat := if hi ≤ top then max 4 (l - 1) else if top < lo then min 16 (l + 1) else l

theorem stepped_le {l : Nat} (hl : l ≤ 16) (hi lo top : Int) : stepped hi lo top l ≤ 16 := by
  simp only [stepped]
  split
  · omega
  · split <;> omega

/-- A five-bit level that is written only when it changes. -/
theorem rd_levelled {f : Fld} (hf : f.width = 5) {l : Nat} (hl : l ≤ 16) (n : Nat) :
    (if l = d.rd f then d else (d.wr f l).irqEvent n).rd f = l := by
  split
  · exact Eq.symm ‹_›
  · rw [rd_irqEvent, rd_wr_same, hf]
    exact Nat.mod_eq_of_lt (by omega)

theorem lvlFld_width (die : Nat) : (lvlFld die).width = 5 := by
  unfold lvlFld
  split <;> rfl

theorem level_thermalLevelStep {die : Nat} (hl : d.rd (lvlFld die) ≤ 16) : (d.thermalLevelStep die).rd (lvlFld die) =
    stepped (16 * (d.rd Reg.THM_CFG_DTHROT : Int)) (16 * (d.rd Reg.THM_CFG_DTHROT : Int) - 16 * (d.rd Reg.THM_CFG_DHYST : Int)) (d.hottest die)
      (d.rd (lvlFld die)) :=
  rd_levelled (lvlFld_width die) (stepped_le hl ..) _

end Dev
end Sys2Proof.Machine
end

section
/-!
The domains, the cap, the input supply (R415 to R419), and the obligation.
-/
namespace Sys2Proof.Machine
namespace Dev

variable {d e : Dev} {n : Nat}

/-! The domains (R415, R416). -/

/-- A device out of reset shows so by an entry, and what goes from above that entry is not seen below it. -/
theorem rd_filtered {q : Nat × Nat → Bool} (h : d.rd Reg.RST_STAT_INRESET ≠ 1) {f : Fld} (hf : f.key ≤ Reg.RST_STAT_INRESET.key)
    (hq : ∀ x : Nat × Nat, x.1 ≤ Reg.RST_STAT_INRESET.key → q x = true) : ({ d with regs := d.regs.filter q } : Dev).rd f = d.rd f :=
  tabGet_filter_beneath h hf (fun x _ hx => hq x hx) _

/-- A field that stands below the reset's, on a device out of reset, and the reset's own. -/
def BelowReset (f : Fld) (d e : Dev) : Prop := e.rd Reg.RST_STAT_INRESET = d.rd Reg.RST_STAT_INRESET ∧ e.rd f = d.rd f

section fresh

variable {f : Fld} (hf : f.key ≤ Reg.RST_STAT_INRESET.key) (hr : d.rd Reg.RST_STAT_INRESET ≠ 1)
include hf hr

theorem filter_belowReset {q : Nat × Nat → Bool} (hq : ∀ x : Nat × Nat, x.1 ≤ Reg.RST_STAT_INRESET.key → q x = true) (h : BelowReset f d e) :
    BelowReset f d { e with regs := e.regs.filter q } := by
  have he : e.rd Reg.RST_STAT_INRESET ≠ 1 := by rwa [h.1]
  exact ⟨(rd_filtered he (Nat.le_refl _) hq).trans h.1, (rd_filtered he hf hq).trans h.2⟩

theorem regsReset_belowReset {a : Nat} (ha : Reg.RST_STAT < a) (m : Nat) (h : BelowReset f d e) : BelowReset f d (e.regsReset a m) := by
  refine filter_belowReset hf hr (fun x hx => ?_) h
  simp only [Fld.key, Reg.RST_STAT_INRESET] at hx
  simp only [Bool.or_eq_true, decide_eq_true_eq]
  omega

/-- A domain's fresh contents lie above the island's registers. -/
theorem domainFresh_belowReset (n : Nat) : BelowReset f d (d.domainFresh n) := by
  have still : BelowReset f d d := ⟨rfl, rfl⟩
  unfold domainFresh
  split
  · refine foldl_keeps (BelowReset f d) _ _ _ still fun e i he => ?_
    exact regsReset_belowReset hf hr (by simp only [Reg.RST_STAT]; omega) _ he
  · split
    · simp only
      split
      · exact foldl_keeps (BelowReset f d) _ _ _ still fun e i he => he
      · exact still
    · split
      · exact still
      · split
        · refine foldl_keeps (BelowReset f d) _ _ _ still fun e i he => ?_
          exact regsReset_belowReset hf hr (by simp only [Reg.RST_STAT]; omega) _ he
        · split
          · exact regsReset_belowReset hf hr (by simp only [Reg.RST_STAT]; omega) _ still
          · split
            · exact regsReset_belowReset hf hr (by decide) _ still
            · split
              · refine filter_belowReset hf hr (fun x hx => ?_) (foldl_keeps (BelowReset f d) _ _ _ still fun e i he => he)
                simp only [Fld.key, Reg.RST_STAT_INRESET, Reg.RST_STAT] at hx
                simp only [Bool.or_eq_true, Bool.not_eq_true', Bool.and_eq_false_iff, decide_eq_false_iff_not]
                omega
              · exact still

end fresh

theorem domOn_set (v : Bool) (x : Nat) (hn : n < 25) (d : Dev) : (d.wr Reg.PWR_DOMSTAT_ON (setBit x n v)).domOn n = v := by
  rw [domOn, rd_wr_same]
  exact (bit_mod_two_pow _ hn).trans (bit_setBit_same ..)

theorem domOn_irqEvent (k : Nat) (d : Dev) : (d.irqEvent k).domOn n = d.domOn n := by rw [domOn, rd_irqEvent, domOn]

theorem domOn_congr (h : KeepsGovernors d e) : e.domOn n = d.domOn n := by rw [domOn, h.rd _ (by decide) (by decide), domOn]

/-- The links of a domain that has come on begin to train. -/
def linksWake (n : Nat) (d : Dev) : Dev := (List.range 32).foldl (fun (d : Dev) l => if 16 + l / 8 = n then d.tryTrain l else d) d

theorem linksWake_governors (n : Nat) (d : Dev) : KeepsGovernors d (d.linksWake n) := by
  refine KeepsGovernors.foldl (fun e l _ => ?_) d
  split
  · exact tryTrain_governors ..
  · exact .refl e

theorem src_linksWake {k : Nat} (hk : k < 512) (n : Nat) (d : Dev) : (d.linksWake n).src k = d.src k := by
  refine foldl_keeps (fun e : Dev => e.src k = d.src k) _ _ _ rfl fun e l he => ?_
  split
  · exact (src_tryTrain hk ..).trans he
  · exact he

theorem domainsOk_iff : d.domainsOk = true ↔ d.flag Reg.RST_STAT_INRESET = false ∧ d.flag Reg.MGT_BOOT_RECOV = false ∧
    d.flag Reg.THM_STAT_TRIPPED = false := by
  simp [domainsOk, and_assoc]

theorem domainOn_off (hn : n < 25) (hk : d.domainsOk = true) (ho : d.domOn n = false) :
    d.domainOn n = (((((d.clrF Reg.PWR_DOMCTL_REFUSED).domainFresh n).wr Reg.PWR_DOMSTAT_ON
      (setBit ((d.clrF Reg.PWR_DOMCTL_REFUSED).rd Reg.PWR_DOMSTAT_ON) n true)).irqEvent 4).linksWake n) := by
  have hoff : ¬ (d.clrF Reg.PWR_DOMCTL_REFUSED).domOn n = true := by
    rw [domOn, rd_clrF_ne (by decide), ← domOn, ho]
    exact Bool.false_ne_true
  refine (if_neg (by simp [hk, ho, hn])).trans ?_
  rw [domainUp, if_neg hoff]
  rfl

theorem domainOn_comes (hn : n < 25) (hk : d.domainsOk = true) (ho : d.domOn n = false) : (d.domainOn n).domOn n = true ∧
    (d.domainOn n).flag Reg.PWR_DOMCTL_REFUSED = false ∧ ((d.domainOn n).src 4).raw = true := by
  rw [domainOn_off hn hk ho]
  refine ⟨?on, ?accepted, ?raw⟩
  case on => rw [domOn_congr (linksWake_governors ..), domOn_irqEvent, domOn_set true _ hn]
  case accepted =>
    have hr : (d.clrF Reg.PWR_DOMCTL_REFUSED).rd Reg.RST_STAT_INRESET ≠ 1 := by
      rw [rd_clrF_ne (by decide)]
      exact of_decide_eq_false (domainsOk_iff.mp hk).1
    rw [flag, (linksWake_governors ..).rd _ (by decide) (by decide), rd_irqEvent, rd_wr_ne _ _ _ _ (by decide),
      (domainFresh_belowReset (f := Reg.PWR_DOMCTL_REFUSED) (by decide) hr n).2, rd_clrF_same]
    rfl
  case raw =>
    rw [src_linksWake (by decide)]
    exact raw_irqEvent (by decide) _

theorem domainOff_refused {k : Nat} (hn : n < 25) (hk : d.domainsOk = true) (ho : d.domOn n = true) (hb : d.domainBusy n = some k) :
    d.domainOff n = (d.setF Reg.PWR_DOMCTL_REFUSED).wr Reg.PWR_DOMCTL_REFCODE k := by
  refine (if_neg (by simp [hk, ho, hn])).trans ?_
  rw [hb]

/-- A domain on its way off: its links go DOWN, its counters are cleared. -/
def domainLeft (n : Nat) (d : Dev) : Dev :=
  let d := if 16 ≤ n ∧ n < 20 then (List.range 8).foldl (fun (d : Dev) i => d.lkDown (8 * (n - 16) + i)) d else d
  if n = 24 then d.cntClr else d

theorem domainOff_goes (hn : n < 25) (hk : d.domainsOk = true) (ho : d.domOn n = true) (hb : d.domainBusy n = none) :
    d.domainOff n = (((d.domainLeft n).clrF Reg.PWR_DOMCTL_REFUSED).wr Reg.PWR_DOMSTAT_ON
      (setBit ((d.domainLeft n).rd Reg.PWR_DOMSTAT_ON) n false)).irqEvent 4 := by
  refine (if_neg (by simp [hk, ho, hn])).trans ?_
  rw [hb]
  rfl

theorem domainBusy_stacks (h : (10 ≤ n ∧ n < 16) ∨ n = 23) : d.domainBusy n = some 3 := by
  rw [domainBusy, if_neg (by omega), if_neg (by omega), if_pos (by omega)]

theorem domainBusy_quadrant {i : Nat} (hi : i < 18) (hn : n < 8) (h : d.coreOwner (18 * n + i) ≠ none) : d.domainBusy n = some 1 := by
  rw [domainBusy, if_pos hn, if_pos (List.any_eq_true.mpr ⟨i, List.mem_range.mpr hi, Option.isSome_iff_ne_none.mpr h⟩)]

/-! The cap (R418, R419). -/

/-- Counts added to the fields of their places. -/
def addAll (fld : Nat → Fld) (l : List (Nat × Nat)) (d : Dev) : Dev := l.foldl (fun (d : Dev) x => d.incWrap (fld x.2) x.1) d

section adds

variable {fld : Nat → Fld} {f : Fld}

theorem rd_addAll_ne (l : List (Nat × Nat)) (h : ∀ x ∈ l, f.key ≠ (fld x.2).key) (d : Dev) : (d.addAll fld l).rd f = d.rd f := by
  induction l generalizing d with
  | nil => rfl
  | cons x l ih =>
    obtain ⟨hx, hl⟩ := List.forall_mem_cons.mp h
    exact (ih hl _).trans (rd_wr_ne _ _ _ _ hx)

theorem rd_addAll_zipIdx (hf : ∀ i j, i ≠ j → (fld i).key ≠ (fld j).key) {l : List Nat} {k v : Nat} (hk : l[k]? = some v) (m : Nat) (d : Dev) :
    (d.addAll fld (l.zipIdx m)).rd (fld (m + k)) = (d.rd (fld (m + k)) + v) % 2 ^ (fld (m + k)).width := by
  induction l generalizing m k d with
  | nil => cases hk
  | cons a l ih =>
    cases k with
    | zero =>
      obtain rfl : a = v := Option.some.inj hk
      have hrest : ∀ x ∈ l.zipIdx (m + 1), (fld (m + 0)).key ≠ (fld x.2).key := fun x hx =>
        hf _ _ (by have := List.le_snd_of_mem_zipIdx hx; omega)
      exact (rd_addAll_ne _ hrest (d.incWrap (fld m) a)).trans (rd_wr_same ..)
    | succ k =>
      have hne : (fld (m + (k + 1))).key ≠ (fld m).key := hf _ _ (by omega)
      have hnext := ih hk (m + 1) (d.incWrap (fld m) a)
      rw [show m + 1 + k = m + (k + 1) by omega] at hnext
      exact hnext.trans (by rw [incWrap, rd_wr_ne _ _ _ _ hne])

end adds

theorem energy_key {i j : Nat} (h : i ≠ j) : (Reg.PWR_ENERGY_UJ i).key ≠ (Reg.PWR_ENERGY_UJ j).key := by
  simp only [Fld.key, Reg.PWR_ENERGY_UJ, Reg.PWR_ENERGY]
  omega

theorem energy_high {f : Fld} (h : f.addr < 0x10100) (hl : f.lo < 64) (i : Nat) : f.key ≠ (Reg.PWR_ENERGY_UJ i).key := by
  simp only [Fld.key, Reg.PWR_ENERGY_UJ, Reg.PWR_ENERGY]
  omega

/-- The level of the cap after a window. -/
def capped (cap avg l : Nat) : Nat := if cap < avg then max 4 (l - 1) else if avg + 50 < cap then min 16 (l + 1) else l

theorem capped_le {l : Nat} (hl : l ≤ 16) (cap avg : Nat) : capped cap avg l ≤ 16 := by
  simp only [capped]
  split
  · omega
  · split <;> omega

/-- The window's energies, counted behind its power. -/
def capCounted (avg : Nat) (uj : List Nat) (d : Dev) : Dev := (d.wr Reg.PWR_VIN_PIN avg).addAll Reg.PWR_ENERGY_UJ (uj.take 7).zipIdx

theorem capWindow_eq (avg : Nat) (uj : List Nat) (d : Dev) : d.capWindow avg uj =
    if capped (d.rd Reg.PWR_CAP_CAP) avg (d.rd Reg.PWR_CAP_LEVEL) = d.rd Reg.PWR_CAP_LEVEL then d.capCounted avg uj
    else ((d.capCounted avg uj).wr Reg.PWR_CAP_LEVEL (capped (d.rd Reg.PWR_CAP_CAP) avg (d.rd Reg.PWR_CAP_LEVEL))).irqEvent 6 := rfl

theorem rd_capCounted {f : Fld} (h : f.addr < 0x10100) (hl : f.lo < 64) (avg : Nat) (uj : List Nat) (d : Dev) :
    (d.capCounted avg uj).rd f = (d.wr Reg.PWR_VIN_PIN avg).rd f := rd_addAll_ne _ (fun x _ => energy_high h hl x.2) _

theorem rd_capWindow_ne {f : Fld} (h : f.key ≠ Reg.PWR_CAP_LEVEL.key) (avg : Nat) (uj : List Nat) (d : Dev) :
    (d.capWindow avg uj).rd f = (d.capCounted avg uj).rd f := by
  rw [capWindow_eq]
  split
  · rfl
  · rw [rd_irqEvent, rd_wr_ne _ _ _ _ h]

theorem level_capWindow (hl : d.rd Reg.PWR_CAP_LEVEL ≤ 16) (avg : Nat) (uj : List Nat) : (d.capWindow avg uj).rd Reg.PWR_CAP_LEVEL =
    capped (d.rd Reg.PWR_CAP_CAP) avg (d.rd Reg.PWR_CAP_LEVEL) := by
  have hsame : (d.capCounted avg uj).rd Reg.PWR_CAP_LEVEL = d.rd Reg.PWR_CAP_LEVEL :=
    (rd_capCounted (by decide) (by decide) ..).trans (rd_wr_ne _ _ _ _ (by decide))
  have hlevel := rd_levelled (d := d.capCounted avg uj) (f := Reg.PWR_CAP_LEVEL) rfl
    (capped_le hl (d.rd Reg.PWR_CAP_CAP) avg) 6
  rw [hsame] at hlevel
  rwa [capWindow_eq]

theorem energy_capCounted {avg g x : Nat} {uj : List Nat} (hg : g < 7) (hx : uj[g]? = some x) (d : Dev) :
    (d.capCounted avg uj).rd (Reg.PWR_ENERGY_UJ g) = (d.rd (Reg.PWR_ENERGY_UJ g) + x) % 2 ^ 64 := by
  have h := rd_addAll_zipIdx (fld := Reg.PWR_ENERGY_UJ) (fun _ _ => energy_key) (l := uj.take 7) (k := g) (v := x)
    (by rw [List.getElem?_take_of_lt hg, hx]) 0 (d.wr Reg.PWR_VIN_PIN avg)
  rw [Nat.zero_add, rd_wr_ne _ _ _ _ (energy_high (by decide) (by decide) g).symm] at h
  exact h

/-! The input supply (R417). -/

theorem retireAgain_governors (d : Dev) : KeepsGovernors d d.retireAgain := by
  have spares (e : Dev) (v : Nat) : KeepsGovernors e (e.wr Reg.SP_STAT_AVAIL v) := wr_governors (by decide) v e
  refine KeepsGovernors.trans (KeepsGovernors.foldl (fun e q _ => ?_) d) (KeepsGovernors.foldl (fun e x _ => ?_) _)
  · split
    · exact spares ..
    · exact .refl e
  · have map {f : Fld} (q v : Nat) (hf : f.addr = Reg.SP_MAP q) (y : Dev) : KeepsGovernors y (y.wr f v) :=
      wr_governors (by rw [hf]; simp only [Reg.SP_MAP]; omega) v y
    have spare (y : Dev) : KeepsGovernors y (y.updCore x.1 fun z => { z with onSpare := true }) := .of_regs rfl rfl rfl rfl rfl
    have off (y : Dev) : KeepsGovernors y { y with offline := setBit y.offline x.1 true } := .of_regs rfl rfl rfl rfl rfl
    simp only
    split
    · exact (spare e).trans ((spares ..).trans ((map (x.1 / 18) _ rfl _).trans (map (x.1 / 18) 1 rfl _)))
    · split
      · exact .refl e
      · exact (off e).trans ((map (x.1 / 18) _ rfl _).trans ((map (x.1 / 18) 1 rfl _).trans (wr_governors (by decide) _ _)))

theorem pairsAgain_governors (d : Dev) : KeepsGovernors d d.pairsAgain := by
  refine KeepsGovernors.foldl (fun e k _ => ?_) d
  have stack (i v : Nat) (y : Dev) : KeepsGovernors y (y.wr (Reg.HBM_STAT_STATE i) v) :=
    wr_governors (by simp only [Reg.HBM_STAT_STATE, Reg.HBM_STAT]; omega) v y
  simp only
  split
  · exact (stack ..).trans ((stack ..).trans ((wr_governors (by decide) _ _).trans (wr_governors (by decide) _ _)))
  · exact .refl e

/-- A cold reset's registers before its own, with what else it keeps. -/
def coldBlank (d : Dev) : Dev :=
  { Dev.reset with
    regs := tabKeep (fun k => (coldKept.map Fld.key).contains k) d.regs
    ctr := d.ctr, out := d.out, host := d.host, hostPoison := d.hostPoison, retList := d.retList, pairList := d.pairList
    imgA := d.imgA, imgB := d.imgB, fwReady := d.fwReady, log := d.log
    links := (d.links.map fun x => (x.1, { Link.reset with light := x.2.light })).filter fun x => x.2 ≠ Link.reset
    modLow := d.modLow, perstLow := d.perstLow, vinLow := d.vinLow, vstby := d.vstby }

/-- The lasers go off first. -/
def lasersCut (d : Dev) : Dev := (List.range 8).foldl (fun (d : Dev) c => if bit d.lsen c then d.emit (.lsen c false) else d) d

theorem coldNow_eq (cause : Nat) (d : Dev) :
    d.coldNow cause = ((((d.lasersCut.coldBlank.wr Reg.RST_STAT_CAUSE cause).retireAgain.pairsAgain).quietPin).alertPin) := rfl

theorem coldNow_governors (cause : Nat) (d : Dev) : KeepsGovernors (d.lasersCut.coldBlank.wr Reg.RST_STAT_CAUSE cause) (d.coldNow cause) := by
  rw [coldNow_eq]
  exact (retireAgain_governors _).trans ((pairsAgain_governors _).trans ((quietPin_governors _).trans (alertPin_governors _)))

theorem lasersCut_governors (d : Dev) : KeepsGovernors d d.lasersCut := by
  refine KeepsGovernors.foldl (fun e c _ => ?_) d
  split
  · exact .of_regs rfl rfl rfl rfl rfl
  · exact .refl e

theorem rd_coldBlank_fresh {f : Fld} (h : (coldKept.map Fld.key).contains f.key = false) (d : Dev) : d.coldBlank.rd f = f.reset :=
  tabGet_tabKeep_out h _

/-- What a cold reset's registers show of it, and what it keeps (R421, Table MG-5). -/
theorem coldNow_shows {cause : Nat} (hc : cause < 16) (d : Dev) : (d.coldNow cause).flag Reg.RST_STAT_INRESET = true ∧
    (d.coldNow cause).rd Reg.RST_STAT_LAST = 1 ∧ (d.coldNow cause).rd Reg.RST_STAT_CAUSE = cause ∧ (d.coldNow cause).log = d.log ∧
    (d.coldNow cause).vinLow = d.vinLow := by
  have h := coldNow_governors cause d
  have hcut := lasersCut_governors d
  refine ⟨?inReset, ?last, ?cause, h.log.trans hcut.log, h.vin.trans hcut.vin⟩
  case inReset =>
    rw [flag, h.rd _ (by decide) (by decide), rd_wr_ne _ _ _ _ (by decide), rd_coldBlank_fresh (by decide)]
    rfl
  case last =>
    rw [h.rd _ (by decide) (by decide), rd_wr_ne _ _ _ _ (by decide), rd_coldBlank_fresh (by decide)]
    rfl
  case cause =>
    rw [h.rd _ (by decide) (by decide), rd_wr_same]
    exact Nat.mod_eq_of_lt hc

/-- The guarantee-end record's reason is its ninth byte (Table AW-8). -/
theorem guaranteeEnd_log {reason : Nat} (hr : reason < 256) (mask : Nat) (d : Dev) :
    ∃ b, (d.guaranteeEnd reason mask).log = d.log ++ [b] ∧ byteField b 8 1 = reason := by
  refine ⟨_, rfl, ?_⟩
  simp only [List.append_assoc]
  rw [byteField_leBytes_skip _ _ (Nat.le_refl 8), byteField_leBytes_first]
  exact Nat.mod_eq_of_lt hr

end Dev
end Sys2Proof.Machine
end

section
/-!
The obligation on power and temperature (O55).
-/
namespace Sys2Proof.Machine

section rows

variable (s : State)

theorem completes_lowv (mv : BitVec 16) : Completes (.lowv mv) s (s.dev.lowV mv.toNat) := rfl
theorem completes_inputBelow40v (mv : BitVec 16) : Completes (.inputBelow40v mv) s (s.dev.inputBelow40V mv.toNat) := rfl
theorem completes_inputRestored (mv : BitVec 16) : Completes (.inputRestored mv) s (s.dev.inputRestored mv.toNat) := rfl
theorem completes_capWindow (avg : BitVec 16) (uj : List Nat) : Completes (.capWindow avg uj) s (s.dev.capWindow avg.toNat uj) := rfl
theorem completes_domainOn (n : BitVec 5) : Completes (.domainOn n) s (s.dev.domainOn n.toNat) := rfl
theorem completes_domainOff (n : BitVec 5) : Completes (.domainOff n) s (s.dev.domainOff n.toNat) := rfl
theorem completes_sensorSample (sn : Fin 48) (t : BitVec 16) : Completes (.sensorSample sn t) s (s.dev.sensorSample sn t.toNat) := rfl
theorem completes_thermalLevelStep (die : Fin 2) : Completes (.thermalLevelStep die) s (s.dev.thermalLevelStep die) := rfl

end rows

namespace Dev

variable {d : Dev}

theorem domain_ignored {n : Nat} (h : 25 ≤ n ∨ d.domainsOk = false) : d.domainOn n = d ∧ d.domainOff n = d :=
  ⟨if_pos (h.imp id fun hk => .inl (by simp [hk])), if_pos (h.imp id fun hk => .inl (by simp [hk]))⟩

/-- The supply's record goes before the cold reset that it holds. -/
theorem inputBelow40V_resets (ht : ¬ d.flag Reg.THM_STAT_TRIPPED = true) (hr : d.flag Reg.RST_STAT_INRESET = false) (mv : Nat) :
    (d.inputBelow40V mv).vinLow = true ∧ (d.inputBelow40V mv).flag Reg.RST_STAT_INRESET = true ∧
    (d.inputBelow40V mv).rd Reg.RST_STAT_LAST = 1 ∧ (d.inputBelow40V mv).rd Reg.RST_STAT_CAUSE = 6 ∧
    ∃ b, (d.inputBelow40V mv).log = d.log ++ [b] ∧ byteField b 8 1 = 2 := by
  obtain ⟨b, hlog, hb⟩ := guaranteeEnd_log (reason := 2) (by decide) d.livePartitions (d.wr Reg.PWR_VIN_VIN mv)
  have hgo : d.inputBelow40V mv = ({ (d.wr Reg.PWR_VIN_VIN mv).guaranteeEnd 2 d.livePartitions with vinLow := true } : Dev).coldNow 6 := by
    have htrip : ({ (d.wr Reg.PWR_VIN_VIN mv).guaranteeEnd 2 d.livePartitions with vinLow := true } : Dev).flag Reg.THM_STAT_TRIPPED =
        d.flag Reg.THM_STAT_TRIPPED := congrArg (fun v => decide (v = 1)) (rd_wr_ne (d := d) Reg.PWR_VIN_VIN _ mv (by decide))
    have hreset : ({ (d.wr Reg.PWR_VIN_VIN mv).guaranteeEnd 2 d.livePartitions with vinLow := true } : Dev).flag Reg.RST_STAT_INRESET =
        d.flag Reg.RST_STAT_INRESET := congrArg (fun v => decide (v = 1)) (rd_wr_ne (d := d) Reg.PWR_VIN_VIN _ mv (by decide))
    refine (if_neg (by rwa [htrip])).trans ((if_neg (by rwa [htrip])).trans ((if_neg fun h => ?_).trans (congrArg _ (if_pos (.inr rfl)))))
    rw [hreset, hr] at h
    exact Bool.false_ne_true h.1
  obtain ⟨hreset, hlast, hcause, hkept, hvin⟩ :=
    coldNow_shows (cause := 6) (by decide) ({ (d.wr Reg.PWR_VIN_VIN mv).guaranteeEnd 2 d.livePartitions with vinLow := true } : Dev)
  rw [hgo]
  exact ⟨hvin, hreset, hlast, hcause, b, hkept.trans hlog, hb⟩

/-- A sample, trip or no trip. -/
theorem sensorSample_shows {sn t : Nat} (hs : sn < 48) (ht : t < 2 ^ 16) (d : Dev) :
    (d.sensorSample sn t).rd (Reg.THM_SENS_TEMP sn) = t ∧
    bit (d.sensorSample sn t).sensHot sn = decide (16 * (d.rd Reg.THM_CFG_TRIP : Int) ≤ temp t) ∧
    (bit d.thmSeen sn = false → (d.sensorSample sn t).rd (Reg.THM_SENS_MAX sn) = t) := by
  obtain ⟨e, he, hgo⟩ := sensorSample_eq sn t d
  have hkept (f : Fld) (hf : f.addr = Reg.THM_SENS sn) (hl : f.lo < 64) :
      (d.sensorSample sn t).rd f = (d.sampled sn t (decide (16 * (d.rd Reg.THM_CFG_TRIP : Int) ≤ temp t))).rd f := by
    rw [hgo]
    split
    · rw [rd_thermalTrip (by rw [hf]; simp only [Reg.THM_SENS]; omega) hl (by rw [hf]; simp only [Reg.THM_SENS, Reg.THM_STAT]; omega)
        (by rw [hf]; simp only [Reg.THM_SENS, Reg.PWR_DOMSTAT]; omega) (by rw [hf]; simp only [Reg.THM_SENS, Reg.RST_STAT]; omega), he.rd]
    · exact he.rd f
  refine ⟨(hkept _ rfl (by simp [Reg.THM_SENS_TEMP])).trans (temp_sampled sn ht ..), ?hot,
    fun hseen => (hkept _ rfl (by simp [Reg.THM_SENS_MAX])).trans (max_sampled hseen ht _)⟩
  case hot =>
    have hbit : bit e.sensHot sn = decide (16 * (d.rd Reg.THM_CFG_TRIP : Int) ≤ temp t) := by
      rw [he]
      exact bit_setBit_same ..
    rw [hgo]
    split
    · rw [sensHot_thermalTrip, hbit]
    · exact hbit

theorem sensorSample_trips {sn t : Nat} (hs : sn < 48) (hot : 16 * (d.rd Reg.THM_CFG_TRIP : Int) ≤ temp t) (htwice : bit d.sensHot sn = true)
    (htrip : ¬ d.flag Reg.THM_STAT_TRIPPED = true) : (d.sensorSample sn t).flag Reg.THM_STAT_TRIPPED = true ∧
    (d.sensorSample sn t).rd Reg.THM_STAT_TRIPSRC = sn ∧ (d.sensorSample sn t).pins.thermtripN = true ∧
    (d.sensorSample sn t).rd Reg.PWR_DOMSTAT_ON = 0 ∧ ∀ k, k < 8 → bit (d.sensorSample sn t).lsen k = false := by
  obtain ⟨e, he, hgo⟩ := sensorSample_eq sn t d
  have hfirst : ¬ e.flag Reg.THM_STAT_TRIPPED = true := by
    rw [he.flag, flag, rd_sampled_ne (by simp only [Reg.THM_SENS, Reg.THM_STAT_TRIPPED, Reg.THM_STAT]; omega) (by decide), ← flag]
    exact htrip
  have htrips := thermalTrip_trips hfirst sn
  rw [Nat.mod_eq_of_lt (show sn < 2 ^ 8 by omega)] at htrips
  rwa [hgo, if_pos (by simp [hot, htwice])]

theorem sensorSample_calm {sn t : Nat} (hs : sn < 48)
    (h : ¬ 16 * (d.rd Reg.THM_CFG_TRIP : Int) ≤ temp t ∨ bit d.sensHot sn = false) :
    (d.sensorSample sn t).flag Reg.THM_STAT_TRIPPED = d.flag Reg.THM_STAT_TRIPPED := by
  obtain ⟨e, he, hgo⟩ := sensorSample_eq sn t d
  have hcalm : (decide (16 * (d.rd Reg.THM_CFG_TRIP : Int) ≤ temp t) && bit d.sensHot sn) = false := by
    simpa only [Bool.and_eq_false_iff, decide_eq_false_iff_not] using h
  rw [hgo, hcalm, if_neg Bool.false_ne_true, he.flag, flag,
    rd_sampled_ne (by simp only [Reg.THM_SENS, Reg.THM_STAT_TRIPPED, Reg.THM_STAT]; omega) (by decide), ← flag]

end Dev

open Dev in
/-- Settles O55: each event by the rule of its operation; a trip keeps the sample's registers since closing, darkening and ending touch
only their own. -/
theorem powerAndThermalGovern : Obligations.PowerAndThermalGovern := by
  unfold Obligations.PowerAndThermalGovern
  intro s mv avg t uj n sn die cap l lv hi lo at_ hot tripped
  refine ⟨⟨_, completes_lowv s mv, ?vin, ?lowv, raw_irqEvent (by decide) _⟩, fun ht hr => ?below, ⟨_, completes_inputRestored s mv, rfl, ?restored⟩,
    fun hl => ⟨_, completes_capWindow s avg uj, ?pin, level_capWindow hl .., fun g x hg hx => ?energy⟩,
    fun h => ⟨(completes_domainOn s n).of_eq (domain_ignored h).1, (completes_domainOff s n).of_eq (domain_ignored h).2⟩,
    fun h => (completes_domainOn s n).of_eq (if_pos (.inr (.inr h))), fun h => (completes_domainOff s n).of_eq (if_pos (.inr (.inr (by simp [h])))),
    fun hn hk ho => ⟨_, completes_domainOn s n, domainOn_comes hn hk ho⟩,
    fun k hn hk ho hb => (completes_domainOff s n).of_eq (domainOff_refused hn hk ho hb), fun hn hk ho hb => ⟨_, completes_domainOff s n, ?goes⟩,
    domainBusy_stacks, fun i hi hn => domainBusy_quadrant hi hn,
    ⟨_, completes_sensorSample s sn t, ?temp, ?hot, ?max, fun hh hb => sensorSample_trips sn.isLt hh hb, sensorSample_calm sn.isLt⟩,
    fun hl => ⟨_, completes_thermalLevelStep s die, ?falls, ?stays, ?rises⟩⟩
  case vin =>
    rw [lowV, rd_irqEvent, rd_setF_ne (by decide), rd_wr_same]
    exact Nat.mod_eq_of_lt mv.isLt
  case lowv =>
    rw [lowV, flag, rd_irqEvent, rd_setF_same rfl]
    rfl
  case below =>
    obtain ⟨hvin, hreset, hlast, hcause, b, hlog, hb⟩ := inputBelow40V_resets ht hr mv.toNat
    exact ⟨_, b, completes_inputBelow40v s mv, hvin, hreset, hlast, hcause, hlog, hb⟩
  case restored => exact (rd_wr_same ..).trans (Nat.mod_eq_of_lt mv.isLt)
  case pin =>
    rw [rd_capWindow_ne (by decide), rd_capCounted (by decide) (by decide), rd_wr_same]
    exact Nat.mod_eq_of_lt avg.isLt
  case energy =>
    rw [rd_capWindow_ne (energy_high (by decide) (by decide) g).symm]
    exact energy_capCounted hg hx _
  case goes =>
    rw [domainOff_goes hn hk ho hb]
    refine ⟨by rw [domOn_irqEvent, domOn_set false _ hn], ?_, raw_irqEvent (by decide) _⟩
    rw [flag, rd_irqEvent, rd_wr_ne _ _ _ _ (by decide), rd_clrF_same]
    rfl
  case temp => exact (sensorSample_shows sn.isLt t.isLt s.dev).1
  case hot => exact (sensorSample_shows sn.isLt t.isLt s.dev).2.1
  case max => exact (sensorSample_shows sn.isLt t.isLt s.dev).2.2
  case falls =>
    intro hhot
    rw [level_thermalLevelStep hl]
    exact if_pos ((le_hottest ..).mpr hhot)
  case stays =>
    intro hcool hwarm
    rw [level_thermalLevelStep hl, stepped, if_neg, if_neg]
    · exact not_lt.mpr ((le_hottest ..).mpr hwarm)
    · rintro h
      obtain ⟨i, hi16, hle⟩ := (le_hottest ..).mp h
      exact absurd (hcool i hi16) (not_lt.mpr hle)
  case rises =>
    intro hcool hcold
    rw [level_thermalLevelStep hl, stepped, if_neg, if_pos]
    · refine not_le.mp fun h => ?_
      obtain ⟨i, hi16, hle⟩ := (le_hottest ..).mp h
      exact absurd (hcold i hi16) (not_lt.mpr hle)
    · rintro h
      obtain ⟨i, hi16, hle⟩ := (le_hottest ..).mp h
      exact absurd (hcool i hi16) (not_lt.mpr hle)

end Sys2Proof.Machine
end

section
/-!
Extents, the reserve, invalidations and shares (O46). What takes effect in a FREE partition (R344 to R346) leaves it FREE: the work of its
cores that goes with it keeps to the cores' windows.
-/
namespace Sys2Proof.Machine

/-- In a table in canonical form, what a filter keeps reads as before. -/
theorem tabGet_filter_of_wf {α : Type} [DecidableEq α] {v : α} {t : Tab α} {k : Nat} {q : Nat × α → Bool} (h : tabWf v t = true)
    (hq : ∀ x, q (k, x) = true) : tabGet v k (t.filter q) = tabGet v k t := by
  induction t with
  | nil => rfl
  | cons e r ih =>
    obtain ⟨key, x⟩ := e
    simp only [tabWf, Bool.and_eq_true] at h
    by_cases hx : q (key, x) = true
    · rw [List.filter_cons_of_pos hx, tabGet, tabGet, ih h.2]
    · have hne : key ≠ k := fun hk => hx (hk ▸ hq x)
      rw [List.filter_cons_of_neg hx, tabGet, if_neg hne, ih h.2]
      split
      · exact tabGet_above _ _ _ (tabAbove_mono _ _ _ h.1.2 (Nat.le_of_lt ‹_›))
      · rfl

theorem tabGet_tabClear_out {α : Type} [DecidableEq α] {v : α} {t : Tab α} {k : Nat} (h : tabWf v t = true) (lo n : Nat) (hk : k < lo ∨ lo + n ≤ k) :
    tabGet v k (tabClear lo n t) = tabGet v k t :=
  tabGet_filter_of_wf h fun x => by simpa using hk

/-- One value stored under a row of keys. -/
theorem tabGet_foldl_row {α : Type} [DecidableEq α] (v w : α) (e j n : Nat) (t : Tab α) :
    tabGet v j ((List.range n).foldl (fun t i => tabPut v (e + i) w t) t) = if e ≤ j ∧ j < e + n then w else tabGet v j t := by
  induction n with
  | zero => rw [if_neg (by omega)]; rfl
  | succ n ih =>
    rw [List.range_succ, List.foldl_append, List.foldl_cons, List.foldl_nil]
    by_cases hj : j = e + n
    · rw [hj, tabGet_tabPut_same, if_pos (by omega)]
    · rw [tabGet_tabPut_ne _ _ _ _ _ hj, ih]
      exact if_congr (by omega) rfl rfl

namespace Dev

variable {d e f : Dev} {p : Nat}

/-! The work of a core's engines: its window and its record. -/

/-- `e` is `d` but for the cores' records and windows. -/
structure OnlyCores (d e : Dev) : Prop where
  rest : e = { d with regs := e.regs, cores := e.cores }
  rd : ∀ g : Fld, g.addr < 0x1000000 → g.lo < 64 → e.rd g = d.rd g

namespace OnlyCores

theorem refl (d : Dev) : OnlyCores d d := ⟨rfl, fun _ _ _ => rfl⟩

theorem trans (h : OnlyCores d e) (h' : OnlyCores e f) : OnlyCores d f where
  rest := h'.rest.trans (congrArg (fun x : Dev => { x with regs := f.regs, cores := f.cores }) h.rest)
  rd g ha hl := (h'.rd g ha hl).trans (h.rd g ha hl)

theorem foldl {α : Type} {step : Dev → α → Dev} (h : ∀ e x, OnlyCores e (step e x)) (xs : List α) (d : Dev) : OnlyCores d (xs.foldl step d) :=
  foldl_keeps (OnlyCores d) step xs d (.refl d) fun _ x he => he.trans (h _ x)

end OnlyCores

theorem setCore_onlyCores (c : Nat) (x : Core) (d : Dev) : OnlyCores d (d.setCore c x) := ⟨rfl, fun _ _ _ => rfl⟩
theorem updCore_onlyCores (c : Nat) (u : Core → Core) (d : Dev) : OnlyCores d (d.updCore c u) := ⟨rfl, fun _ _ _ => rfl⟩

theorem wr_onlyCores {g : Fld} (h : 0x1000000 ≤ g.addr) (v : Nat) (d : Dev) : OnlyCores d (d.wr g v) :=
  ⟨rfl, fun f ha hl => rd_wr_ne _ _ _ _ (by simp only [Fld.key]; omega)⟩

theorem flag_high (c n : Nat) : 0x1000000 ≤ (Reg.SY_FLAG_VALUE c n).addr := by
  simp only [Reg.SY_FLAG_VALUE, Reg.SY_FLAG]
  omega

theorem engDone_onlyCores (c k : Nat) (b : Bool) (d : Dev) : OnlyCores d (d.engDone c k b) := by
  unfold engDone updEng
  exact updCore_onlyCores ..

theorem testDone_onlyCores (c k : Nat) (t : TestWait) (d : Dev) : OnlyCores d (d.testDone c k t) := by
  have stored : OnlyCores d (if t.sop = 3 then d.wr (Reg.SY_FLAG_VALUE c t.flag) (flagOp 2 (d.flagVal c t.flag) t.v.toNat) else d) := by
    split
    · exact wr_onlyCores (flag_high c t.flag) _ d
    · exact .refl d
  simp only [testDone]
  split
  · exact stored.trans ((updCore_onlyCores ..).trans (updCore_onlyCores ..))
  · exact stored.trans ((updCore_onlyCores ..).trans (engDone_onlyCores ..))

theorem grantTests_onlyCores (c n : Nat) (d : Dev) : OnlyCores d (d.grantTests c n) := by
  refine OnlyCores.foldl (fun e k => ?_) _ d
  split
  · split
    · exact testDone_onlyCores ..
    · exact .refl e
  · exact .refl e

theorem flagUpdate_onlyCores (c n sop v : Nat) (d : Dev) : OnlyCores d (d.flagUpdate c n sop v) :=
  (wr_onlyCores (flag_high c n) _ d).trans (grantTests_onlyCores ..)

theorem retest_onlyCores (c : Nat) (d : Dev) : OnlyCores d (d.retest c) := by
  refine OnlyCores.foldl (fun e k => ?_) _ d
  split
  · exact grantTests_onlyCores ..
  · exact .refl e

theorem stopEnd_onlyCores (c why : Nat) (d : Dev) : OnlyCores d (d.stopEnd c why) := by
  rw [stopEnd_eq]
  dsimp only
  split
  · exact setCore_onlyCores ..
  · exact (setCore_onlyCores ..).trans ((updCore_onlyCores ..).trans (retest_onlyCores ..))

/-! A partition's state through the settling of its changes. -/

/-- A register of partition p outside those that its settling writes keeps the state. -/
theorem ptState_wr {g : Fld} (h : g.addr ≠ Reg.PT_STAT p ∨ (g.lo ≠ 0 ∧ g.lo < 64)) (hl : g.lo < 64) (v : Nat) (d : Dev) :
    (d.wr g v).ptState p = d.ptState p := by
  refine rd_wr_ne _ _ _ _ ?_
  simp only [Fld.key, Reg.PT_STAT_STATE]
  omega

theorem ptState_ptRefuse (code : Nat) (d : Dev) : (d.ptRefuse p code).ptState p = d.ptState p :=
  (ptState_wr (.inr (by simp [Reg.PT_STAT_REFCODE])) (by simp [Reg.PT_STAT_REFCODE]) ..).trans
    (ptState_wr (.inr (by simp [Reg.PT_STAT_REFUSED])) (by simp [Reg.PT_STAT_REFUSED]) ..)

theorem outsideMemory_ptState (_ : p < 8) : OutsideMemory p (Reg.PT_STAT_STATE p) where
  owned := by simp only [Fld.key, Reg.PT_STAT_STATE, Reg.PT_STAT, Reg.PT_SECCNT_OWNVIOL, Reg.PT_SECCNT]; omega
  down k _ := by simp only [Fld.key, Reg.PT_STAT_STATE, Reg.PT_STAT, Reg.HBM_UECNT_UE, Reg.HBM_UECNT]; omega
  hit k _ := by simp only [Fld.key, Reg.PT_STAT_STATE, Reg.PT_STAT, Reg.HBM_UECNT_PRD, Reg.HBM_UECNT]; omega
  dropped k _ := by simp only [Fld.key, Reg.PT_STAT_STATE, Reg.PT_STAT, Reg.HBM_UECNT_QDROP, Reg.HBM_UECNT]; omega

theorem ptState_applyRoot (d : Dev) : (d.applyRoot p).ptState p = d.ptState p := by
  simp only [applyRoot]
  split
  · rfl
  · split
    · rfl
    · rw [ptState_wr (.inl (by simp only [Reg.PT_S2BASE_BASE, Reg.PT_S2BASE, Reg.PT_STAT]; omega)) (by simp [Reg.PT_S2BASE_BASE]),
        ptState_wr (.inl (by simp only [Reg.PT_S2BASE_L1LOG, Reg.PT_S2BASE, Reg.PT_STAT]; omega)) (by simp [Reg.PT_S2BASE_L1LOG]), ptState_ptRefuse]
      rfl

theorem ptState_keepLeaves (hp : p < 8) (d : Dev) : (d.keepLeaves p).ptState p = d.ptState p := by
  refine foldl_keeps (fun e : Dev => e.ptState p = d.ptState p) _ _ d rfl fun e s he => ?_
  split
  · exact he
  · rw [ptState_ptRefuse, ptState, (hbmWrite_onlyMemory (p := p) ..).rd _ (outsideMemory_ptState hp)]
    exact he

theorem srcDisowns_rest (cs : List Nat) (d : Dev) :
    ∃ t, cs.foldl (fun (d : Dev) c => [0, 1, 2].foldl (fun (d : Dev) k => d.srcDisown (1536 + 16 * c + k)) d) d = { d with srcs := t } :=
  foldl_keeps (fun e : Dev => ∃ t, e = { d with srcs := t }) _ cs d ⟨_, rfl⟩ fun e c ⟨t, ht⟩ => by
    rw [ht]
    exact ⟨_, rfl⟩

/-- A partition without a record in use has no attempt to interrupt. -/
theorem jrPartEvent_none (h : d.recsOf p = []) (u : CmdEnt → Bool) : d.jrPartEvent p u = d := by
  rw [jrPartEvent, h]
  rfl

/-- The cores' part of the exit actions. -/
theorem exitActions_unused (h : d.recsOf p = []) : ∃ e, OnlyCores (d.updPart p fun x => { x with held := false, abandoned := [] }) e ∧
    d.exitActions p = e.irqEvent (3840 + 32 * p + 19) := by
  have hcores := OnlyCores.foldl (fun e c => stopEnd_onlyCores c 8 e) ((d.updPart p fun x => { x with held := false, abandoned := [] }).coresOf p)
    (d.updPart p fun x => { x with held := false, abandoned := [] })
  refine ⟨_, hcores, congrArg (irqEvent (3840 + 32 * p + 19)) (jrPartEvent_none ?_ _)⟩
  rw [recsOf, hcores.rest]
  exact h

theorem ptState_irqEvent (n : Nat) (d : Dev) : (d.irqEvent n).ptState p = d.ptState p := rd_irqEvent ..

theorem ptState_exitActions_unused (hp : p < 8) (h : d.recsOf p = []) : (d.exitActions p).ptState p = d.ptState p := by
  obtain ⟨e, he, hgo⟩ := exitActions_unused h
  rw [hgo, ptState_irqEvent, ptState, he.rd _ (by simp only [Reg.PT_STAT_STATE, Reg.PT_STAT]; omega) (by simp [Reg.PT_STAT_STATE])]
  rfl

theorem ptState_causeClear_unused (hp : p < 8) (h : d.recsOf p = []) (kind : Nat) : (d.causeClear p kind).ptState p = d.ptState p := by
  have hblock (v : Nat) : (d.wr (Reg.QT_PCAUSE_BLOCK p) v).ptState p = d.ptState p :=
    ptState_wr (.inr (by simp [Reg.QT_PCAUSE_BLOCK])) (by simp [Reg.QT_PCAUSE_BLOCK]) ..
  simp only [causeClear]
  split
  · exact hblock _
  · split
    · exact hblock _
    · rw [ptState_exitActions_unused hp (by exact h)]
      exact hblock _

theorem ptState_applyCores (hp : p < 8) (d : Dev) : (d.applyCores p).ptState p = d.ptState p := by
  have mask (n v : Nat) (e : Dev) : (e.wr (Reg.PT_CORES_MASK p n) v).ptState p = e.ptState p :=
    ptState_wr (.inl (by simp only [Reg.PT_CORES_MASK, Reg.PT_CORES, Reg.PT_STAT]; omega)) (by simp [Reg.PT_CORES_MASK]) ..
  simp only [applyCores]
  split
  · rfl
  · split
    · rw [mask, mask, mask, ptState_ptRefuse]
      rfl
    · rename_i m _ huse
      obtain ⟨t, ht⟩ := srcDisowns_rest ((List.range 144).filter fun c => bit (d.part p).cores c ≠ bit m c)
        ((d.updPart p fun x => { x with pendCores := none }).updPart p fun x => { x with cores := m })
      rw [ht, nospareCheck]
      split
      · refine (ptState_causeClear_unused hp ?_ _).trans rfl
        exact List.length_eq_zero_iff.mp (Decidable.not_not.mp huse)
      · rfl

end Dev
end Sys2Proof.Machine
end

section
/-!
The obligation on extents, the reserve, invalidations and shares (O46).
-/
namespace Sys2Proof.Machine

section rows

variable (s : State) (p : PartNo) (first n : BitVec 17)

theorem completes_extentAssign : Completes (.extentAssign p first n) s (s.dev.extentAssign p first.toNat n.toNat) := rfl
theorem completes_extentZeroed : Completes (.extentZeroed p) s (s.dev.extentZeroed p) := rfl
theorem completes_extentRemove : Completes (.extentRemove p first n) s (s.dev.extentRemove p first.toNat n.toNat) := rfl
theorem completes_reserveAdd : Completes (.reserveAdd p first n) s (s.dev.reserveOp p first.toNat n.toNat true) := rfl
theorem completes_reserveTake : Completes (.reserveTake p first n) s (s.dev.reserveOp p first.toNat n.toNat false) := rfl
theorem completes_s1Invalidate (all : Bool) (page : BitVec 27) :
    Completes (.s1Invalidate p all page) s (s.dev.updPart p fun x => { x with s1inv := x.s1inv ++ [(all, page.toNat * 2 ^ 21)] }) := rfl
theorem completes_invalidationDone : Completes (.invalidationDone p) s (s.dev.invalidationDone p) := rfl
theorem completes_weirWindow (r : Fin 8) (unmet : Bool) (cause : BitVec 4) :
    Completes (.weirWindow p r unmet cause) s (s.dev.weirWindow p r unmet cause.toNat) := rfl

end rows

namespace Dev

variable {d : Dev} {p first n : Nat}

theorem ownerOf_extent (d : Dev) (e : Nat) : d.ownerOf (e * extentBytes) = tabGet 0 e d.owner := by
  rw [ownerOf, Nat.mul_div_cancel _ (by decide)]

/-! Assignment and removal (R344). -/

theorem extentAssign_keyless (hn : n ≠ 0) (hk : (d.part p).hkey = none) (first : Nat) : d.extentAssign p first n = d.ptRefuse p 8 :=
  (if_neg hn).trans (if_pos (by rw [hk]; rfl))

theorem extentAssign_taken (hn : n ≠ 0) (hk : (d.part p).hkey ≠ none)
    (h : ∃ i, i < n ∧ tabGet 0 (first + i) d.owner ≠ 0 ∧ tabGet 0 (first + i) d.owner ≠ p + 1) : d.extentAssign p first n = d.ptRefuse p 4 := by
  obtain ⟨i, hi, h0, hp⟩ := h
  refine (if_neg hn).trans ((if_neg (by simpa using hk)).trans (if_pos ?_))
  refine List.any_eq_true.mpr ⟨first + i, List.mem_map.mpr ⟨i, List.mem_range.mpr hi, rfl⟩, ?_⟩
  simp only [ownerOf_extent, ne_eq, h0, hp, not_false_eq_true, decide_true, Bool.and_true, Bool.or_true, Bool.true_or]

theorem extentAssign_waits (hn : n ≠ 0) (hk : (d.part p).hkey ≠ none) (hfree : ∀ i, i < n → first + i < 130560 ∧
      (tabGet 0 (first + i) d.owner = 0 ∨ tabGet 0 (first + i) d.owner = p + 1) ∧ first + i ∉ d.tableExtents)
    (hbusy : ∀ q z, q < 8 → q ≠ p → z ∈ (d.part q).zeroing → z.1 + z.2 ≤ first ∨ first + n ≤ z.1) :
    d.extentAssign p first n = d.updPart p fun x => { x with zeroing := x.zeroing ++ [(first, n)] } := by
  refine (if_neg hn).trans ((if_neg (by simpa using hk)).trans (if_neg fun h => ?_))
  obtain ⟨e, he, hbad⟩ := List.any_eq_true.mp h
  obtain ⟨i, hi, rfl⟩ := List.mem_map.mp he
  have hi := List.mem_range.mp hi
  obtain ⟨hlt, howner, htable⟩ := hfree i hi
  rw [if_neg hn] at hbad
  simp only [ownerOf_extent, extentCount, Bool.or_eq_true, Bool.and_eq_true, decide_eq_true_eq, List.contains_iff_mem, ne_eq, htable, or_false] at hbad
  obtain (hle | ⟨h0, hp⟩) | hmem := hbad
  · have := of_decide_eq_true hle
    omega
  · exact howner.elim h0 hp
  · obtain ⟨q, hq, hz⟩ := List.mem_flatMap.mp hmem
    split at hz
    · cases hz
    · obtain ⟨z, hz, hin⟩ := List.mem_flatMap.mp hz
      obtain ⟨j, hj, hij⟩ := List.mem_map.mp hin
      have hj := List.mem_range.mp hj
      have := hbusy q z (List.mem_range.mp hq) ‹_› hz
      omega

theorem extentRemove_refused (hn : n ≠ 0) (h : ¬ ∀ i, i < n → tabGet 0 (first + i) d.owner = p + 1) : d.extentRemove p first n = d.ptRefuse p 4 := by
  obtain ⟨i, hi⟩ := not_forall.mp h
  obtain ⟨hi, hp⟩ := Classical.not_imp.mp hi
  refine (if_neg hn).trans (if_pos (List.any_eq_true.mpr ⟨first + i, List.mem_map.mpr ⟨i, List.mem_range.mpr hi, rfl⟩, ?_⟩))
  simp only [ownerOf_extent, ne_eq, hp, not_false_eq_true, decide_true, Bool.true_or]

theorem extentRemove_waits (hn : n ≠ 0) (h : ∀ i, i < n → tabGet 0 (first + i) d.owner = p + 1)
    (hr : ∀ i j, i < n → j < 3 → tabGet 0 (3 * (first + i) + j) d.rsv = 0) :
    d.extentRemove p first n = (d.updPart p fun x => { x with pendRm := x.pendRm ++ [(first, n)] }).settle p := by
  refine (if_neg hn).trans (if_neg fun hbad => ?_)
  obtain ⟨e, he, hbad⟩ := List.any_eq_true.mp hbad
  obtain ⟨i, hi, rfl⟩ := List.mem_map.mp he
  have hi := List.mem_range.mp hi
  have h0 : tabGet 0 (3 * (first + i)) d.rsv = 0 := hr i 0 hi (by decide)
  simp [ownerOf_extent, h i hi, h0, hr i 1 hi (by decide), hr i 2 hi (by decide)] at hbad

theorem reserveOp_refused (h : ¬ ∀ i, i < n → tabGet 0 (first + i) d.owner = p + 1) (add : Bool) : d.reserveOp p first n add = d.ptRefuse p 4 := by
  refine if_pos ?_
  obtain ⟨i, hi⟩ := not_forall.mp h
  obtain ⟨hi, hp⟩ := Classical.not_imp.mp hi
  refine List.any_eq_true.mpr ⟨i, List.mem_range.mpr hi, ?_⟩
  simp only [ownerOf_extent, ne_eq, hp, not_false_eq_true, decide_true]

theorem reserveOp_waits (h : ∀ i, i < n → tabGet 0 (first + i) d.owner = p + 1) (add : Bool) :
    d.reserveOp p first n add = (d.updPart p fun x => { x with pendRsv := x.pendRsv ++ [(first, n, add)] }).settle p := by
  refine if_neg fun hbad => ?_
  obtain ⟨i, hi, hbad⟩ := List.any_eq_true.mp hbad
  simp [ownerOf_extent, h i (List.mem_range.mp hi)] at hbad

/-! An assignment completes. -/

/-- The oldest assignment's extents, zeroed and entered. -/
def extentsIn (p e n : Nat) (r : List (Nat × Nat)) (d : Dev) : Dev :=
  { d with
    hbm := tabClear (e * extentBytes) (n * extentBytes) d.hbm
    hbmPoison := tabClear (e * extentBytes / 32) (n * extentBytes / 32) d.hbmPoison
    owner := (List.range n).foldl (fun t i => tabPut 0 (e + i) (p + 1) t) d.owner }.updPart p fun x => { x with zeroing := r }

theorem extentZeroed_next {e n : Nat} {r : List (Nat × Nat)} (hq : d.devQuiet = false) (hz : (d.part p).zeroing = (e, n) :: r) :
    d.extentZeroed p = if (d.part p).creating ∧ r = [] then (d.extentsIn p e n r).createNow p else d.extentsIn p e n r := by
  have hcreating : ((d.extentsIn p e n r).part p).creating = (d.part p).creating := by
    rw [extentsIn, part_updPart_same]
    rfl
  refine (if_neg (by simp [hq])).trans ?_
  rw [hz, ← hcreating]
  rfl

theorem createNow_keeps (p : Nat) (d : Dev) : (d.createNow p).owner = d.owner ∧ (d.createNow p).hbm = d.hbm := ⟨rfl, rfl⟩

theorem ptState_createNow (p : Nat) (d : Dev) : (d.createNow p).ptState p = 1 := (rd_wr_same ..).trans rfl

/-- What an assignment that completes leaves of the memory and the owners. -/
theorem extentZeroed_keeps {e n : Nat} {r : List (Nat × Nat)} (hq : d.devQuiet = false) (hz : (d.part p).zeroing = (e, n) :: r) :
    (d.extentZeroed p).owner = (d.extentsIn p e n r).owner ∧ (d.extentZeroed p).hbm = (d.extentsIn p e n r).hbm := by
  rw [extentZeroed_next hq hz]
  split
  · exact createNow_keeps ..
  · exact ⟨rfl, rfl⟩

/-! Settings of a FREE partition take effect when they are written (R346). -/

theorem settle_later (h : d.ptState p ≠ 0) : d.settle p = d := if_neg h
theorem settle_now (h : d.ptState p = 0) : d.settle p = d.applyAll p := if_pos h

theorem ptState_applyPool (d : Dev) : (d.applyPool p).ptState p = d.ptState p := by
  have zeroed (l : List Nat) : (d.zeroGranules l).ptState p = d.ptState p := foldl_keeps (fun e : Dev => e.ptState p = d.ptState p) _ l d rfl fun _ _ he => he
  exact zeroed _

theorem ptState_applyRsv (d : Dev) : (d.applyRsv p).ptState p = d.ptState p := by
  refine foldl_keeps (fun e : Dev => e.ptState p = d.ptState p) _ _ d rfl fun e o he => ?_
  refine foldl_keeps (fun x : Dev => x.ptState p = d.ptState p) _ _ e he fun x g hx => ?_
  split
  · exact hx
  · split <;> exact hx

theorem ptState_applyRm (d : Dev) : (d.applyRm p).ptState p = d.ptState p :=
  foldl_keeps (fun e : Dev => e.ptState p = d.ptState p) _ _ d rfl fun _ _ he => he

theorem ptState_applyAll (hp : p < 8) (d : Dev) : (d.applyAll p).ptState p = d.ptState p := by
  rw [applyAll, ptState_applyRm, ptState_applyRsv, ptState_applyPool, ptState_applyCores hp, ptState_keepLeaves hp, ptState_applyRoot]

theorem applyRm_taken (d : Dev) : ((d.applyRm p).part p).pendRm = [] := by
  rw [applyRm, part_updPart_same]

theorem pendRsv_applyRm (d : Dev) : ((d.applyRm p).part p).pendRsv = (d.part p).pendRsv := by
  have hparts := foldl_keeps (fun e : Dev => e.parts = d.parts) (fun (d : Dev) (o : Nat × Nat) =>
    { d with owner := (List.range o.2).foldl (fun t i => if tabGet 0 (o.1 + i) t = p + 1 then tabPut 0 (o.1 + i) 0 t else t) d.owner })
    (d.part p).pendRm d rfl fun _ _ he => he
  rw [applyRm, part_updPart_same, part, hparts]
  rfl

theorem applyAll_taken (d : Dev) : ((d.applyAll p).part p).pendRsv = [] ∧ ((d.applyAll p).part p).pendRm = [] := by
  rw [applyAll]
  refine ⟨?_, applyRm_taken _⟩
  rw [pendRsv_applyRm, applyRsv, part_updPart_same]

/-- A removal that takes effect leaves no extent of its range to the partition. -/
theorem disowned_foldl (p e n : Nat) (t : Tab Nat) (i : Nat) (hi : i < n) :
    tabGet 0 (e + i) ((List.range n).foldl (fun t i => if tabGet 0 (e + i) t = p + 1 then tabPut 0 (e + i) 0 t else t) t) ≠ p + 1 := by
  induction n with
  | zero => omega
  | succ n ih =>
    rw [List.range_succ, List.foldl_append, List.foldl_cons, List.foldl_nil]
    by_cases hin : i = n
    · rw [hin]
      split
      · rw [tabGet_tabPut_same]
        omega
      · assumption
    · split
      · rw [tabGet_tabPut_ne _ _ _ _ _ (by omega)]
        exact ih (by omega)
      · exact ih (by omega)

theorem applyRm_disowns (h : (d.part p).pendRm = [(first, n)]) {i : Nat} (hi : i < n) : tabGet 0 (first + i) (d.applyRm p).owner ≠ p + 1 := by
  rw [applyRm, h]
  exact disowned_foldl p first n d.owner i hi

/-! Suspended shares (R349). -/

/-- A share's record. -/
def suspNoted (p r ongoing dur cause : Nat) (d : Dev) : Dev :=
  ((((d.wr (Reg.PT_SUSP_RES p) r).wr (Reg.PT_SUSP_ONGOING p) ongoing).wr (Reg.PT_SUSP_CAUSE p) cause).wr (Reg.PT_SUSP_DUR p) dur).irqEvent (3840 + 32 * p + 18)

theorem weirWindow_begins {r : Nat} (h : tabGet 0 r (d.part p).susp = 0) (cause : Nat) : d.weirWindow p r true cause =
    (d.updPart p fun x => { x with susp := tabPut 0 r (d.now + 1) x.susp }).suspNoted p r 1 0 cause := if_pos ⟨rfl, h⟩

theorem weirWindow_ends {r : Nat} (h : tabGet 0 r (d.part p).susp ≠ 0) (cause : Nat) : d.weirWindow p r false cause =
    (d.updPart p fun x => { x with susp := tabPut 0 r 0 x.susp }).suspNoted p r 0
      (min (2 ^ 32 - 1) ((d.now - (tabGet 0 r (d.part p).susp - 1)) / 1024)) cause := by
  unfold weirWindow
  exact (if_neg (by simp)).trans (if_pos ⟨by simp, h⟩)

theorem weirWindow_same {r : Nat} {unmet : Bool} (h : unmet = decide (tabGet 0 r (d.part p).susp ≠ 0)) (cause : Nat) :
    d.weirWindow p r unmet cause = d := by
  by_cases hs : tabGet 0 r (d.part p).susp = 0
  · have hu : unmet = false := by simp [h, hs]
    exact (if_neg (by simp [hu])).trans (if_neg (by simp [hs]))
  · have hu : unmet = true := by simp [h, hs]
    exact (if_neg (by simp [hs])).trans (if_neg (by simp [hu]))

theorem suspNoted_shows (p : Nat) {r ongoing dur : Nat} (hr : r < 8) (ho : ongoing < 2) (hd : dur < 2 ^ 32) (cause : Nat) (d : Dev) :
    (d.suspNoted p r ongoing dur cause).rd (Reg.PT_SUSP_RES p) = r ∧ (d.suspNoted p r ongoing dur cause).rd (Reg.PT_SUSP_ONGOING p) = ongoing ∧
    (d.suspNoted p r ongoing dur cause).rd (Reg.PT_SUSP_DUR p) = dur := by
  simp only [suspNoted, rd_irqEvent]
  refine ⟨?res, ?ongoing, (rd_wr_same ..).trans (Nat.mod_eq_of_lt hd)⟩
  case res =>
    rw [rd_wr_ne _ _ _ _ (by simp [Fld.key, Reg.PT_SUSP_RES, Reg.PT_SUSP_DUR]), rd_wr_ne _ _ _ _ (by simp [Fld.key, Reg.PT_SUSP_RES, Reg.PT_SUSP_CAUSE]),
      rd_wr_ne _ _ _ _ (by simp [Fld.key, Reg.PT_SUSP_RES, Reg.PT_SUSP_ONGOING]), rd_wr_same]
    exact Nat.mod_eq_of_lt hr
  case ongoing =>
    rw [rd_wr_ne _ _ _ _ (by simp [Fld.key, Reg.PT_SUSP_ONGOING, Reg.PT_SUSP_DUR]),
      rd_wr_ne _ _ _ _ (by simp [Fld.key, Reg.PT_SUSP_ONGOING, Reg.PT_SUSP_CAUSE]), rd_wr_same]
    exact Nat.mod_eq_of_lt ho

theorem part_suspNoted (p r ongoing dur cause q : Nat) (d : Dev) : (d.suspNoted p r ongoing dur cause).part q = d.part q := by
  rw [suspNoted, part, irqEvent_sources]
  rfl

/-! Invalidations (R343). -/

theorem invalidationDone_next {all : Bool} {va : Nat} {r : List (Bool × Nat)} (h : (d.part p).s1inv = (all, va) :: r) : d.invalidationDone p =
    d.updPart p fun x => if all then { x with s1inv := r, tlb := [], s1base := d.rd (Reg.PT_S1BASE_L1LOG p) + d.rd (Reg.PT_S1BASE_BASE p) * 2 ^ 12 }
      else { x with s1inv := r, tlb := tabClear (va / 2 ^ 30 * 512) 512 x.tlb } := by
  rw [invalidationDone, h]

end Dev

theorem suspSource {p : Nat} (hp : p < 8) : Dev.srcReal (3840 + 32 * p + 18) = true := by
  interval_cases p <;> rfl

open Dev in
/-- Settles O46: each operation by the rule of its case; what a FREE partition settles keeps it FREE, since every register that the
settling writes is another. -/
theorem extentsReserveAndInvalidations : Obligations.ExtentsReserveAndInvalidations := by
  unfold Obligations.ExtentsReserveAndInvalidations
  intro s p first n all page r cause a x own mine
  have hn0 (h : n ≠ 0) : n.toNat ≠ 0 := fun h' => h (BitVec.eq_of_toNat_eq (by simpa using h'))
  refine ⟨fun h => (completes_extentAssign s p first n).of_eq (if_pos (by simp [h])),
    fun h hk => (completes_extentAssign s p first n).of_eq (extentAssign_keyless (hn0 h) hk _),
    fun h hk ht => (completes_extentAssign s p first n).of_eq (extentAssign_taken (hn0 h) hk ht),
    fun h hk hf hb => (completes_extentAssign s p first n).of_eq (extentAssign_waits (hn0 h) hk hf hb), fun h => ?noZeroing,
    fun e k t hq hz hwf => ⟨_, completes_extentZeroed s p, fun i hi => ?owned, fun hlo hhi => ?zeroed, fun ho => ?outside, fun hc => ?rest, fun hc ht => ?created⟩,
    fun h hm => (completes_extentRemove s p first n).of_eq (extentRemove_refused (hn0 h) hm),
    fun h hm hr => (completes_extentRemove s p first n).of_eq (extentRemove_waits (hn0 h) hm hr),
    fun hm => ⟨(completes_reserveAdd s p first n).of_eq (reserveOp_refused hm true), (completes_reserveTake s p first n).of_eq (reserveOp_refused hm false)⟩,
    fun hm => ⟨(completes_reserveAdd s p first n).of_eq (reserveOp_waits hm true), (completes_reserveTake s p first n).of_eq (reserveOp_waits hm false)⟩,
    fun d hd => settle_later hd, fun d hd => ?settles, fun d hd i hi => applyRm_disowns hd hi, completes_s1Invalidate s p all page,
    fun h => (completes_invalidationDone s p).of_eq (by rw [invalidationDone, h]),
    fun v t h => ⟨_, (completes_invalidationDone s p).of_eq (invalidationDone_next h), ?_, ?_, ?_⟩,
    fun v t h hwf => ⟨_, (completes_invalidationDone s p).of_eq (invalidationDone_next h), ?_, ?_, fun k => ?gib⟩,
    fun h => (completes_weirWindow s p r false cause).of_eq (weirWindow_same (Eq.symm (by simpa using h)) _),
    fun h => (completes_weirWindow s p r true cause).of_eq (weirWindow_same (Eq.symm (by simpa using h)) _),
    fun h => ⟨_, (completes_weirWindow s p r true cause).of_eq (weirWindow_begins h _), ?begins⟩,
    fun h => ⟨_, (completes_weirWindow s p r false cause).of_eq (weirWindow_ends h _), ?ends⟩⟩
  case noZeroing =>
    refine (completes_extentZeroed s p).of_eq ?_
    by_cases hq : s.dev.devQuiet = true
    · exact if_pos hq
    · rw [extentZeroed, if_neg hq, h.resolve_left hq]
  case owned =>
    rw [(extentZeroed_keeps hq hz).1]
    exact (tabGet_foldl_row ..).trans (if_pos (by omega))
  case zeroed =>
    rw [(extentZeroed_keeps hq hz).2]
    exact tabGet_tabClear_in (lo := e * extentBytes) (n := k * extentBytes) (h := ⟨hlo, by rwa [← Nat.add_mul]⟩) ..
  case outside =>
    rw [(extentZeroed_keeps hq hz).2]
    exact tabGet_tabClear_out hwf _ _ (by rwa [← Nat.add_mul])
  case rest =>
    rw [extentZeroed_next hq hz, if_neg (fun h => Bool.false_ne_true (hc.symm.trans h.1)), extentsIn, part_updPart_same]
  case created => rw [extentZeroed_next hq hz, if_pos ⟨hc, ht⟩, ptState_createNow]
  case settles =>
    rw [settle_now hd]
    exact ⟨(ptState_applyAll p.isLt d).trans hd, applyAll_taken d⟩
  case gib =>
    rw [part_updPart_same]
    by_cases hk : k / 512 = v / 2 ^ 30
    · rw [if_pos hk]
      exact tabGet_tabClear_in (lo := v / 2 ^ 30 * 512) (n := 512) (h := by omega) ..
    · rw [if_neg hk]
      exact tabGet_tabClear_out hwf _ _ (by omega)
  case begins =>
    obtain ⟨hr, ho, hd⟩ := suspNoted_shows p r.isLt (show 1 < 2 by decide) (show 0 < 2 ^ 32 by decide) cause.toNat
      (s.dev.updPart p fun x => { x with susp := tabPut 0 r (s.dev.now + 1) x.susp })
    exact ⟨hr, ho, hd, raw_irqEvent (suspSource p.isLt) _⟩
  case ends =>
    obtain ⟨-, ho, hd⟩ := suspNoted_shows p r.isLt (show 0 < 2 by decide)
      (show min (2 ^ 32 - 1) ((s.dev.now - (tabGet 0 r (s.dev.part p).susp - 1)) / 1024) < 2 ^ 32 by omega) cause.toNat
      (s.dev.updPart p fun x => { x with susp := tabPut 0 r 0 x.susp })
    refine ⟨ho, ?_, hd⟩
    rw [part_suspNoted, part_updPart_same]
    exact tabGet_tabPut_same ..
  all_goals rw [part_updPart_same]; rfl

end Sys2Proof.Machine
end

section
/-!
A collective's trigger, messages and endings (O39): each is the branch of its operation that its state leads to.
-/
namespace Sys2Proof.Machine
namespace Dev

variable {d e : Dev} {p : Nat}

theorem foldPoison_onlyMemory (l : List (Phys × Nat)) (d : Dev) :
    OnlyMemory p d (l.foldl (fun (d : Dev) x => match x.1 with | .hbm pa => d.hbmPoisonRange pa x.2 | _ => d) d) := by
  refine foldl_onlyMemory _ (fun x y => ?_) l d
  split
  · exact ⟨rfl, fun _ _ => rfl, fun _ => ⟨_, rfl⟩⟩
  · exact .refl p x

/-- Poisoning a range ends where its pieces are resolved, or marks the sectors that they reach. -/
theorem vaPoison_cases (p : Nat) (slot : Option Nat) (va n : Nat) (d : Dev) :
    d.vaPoison p slot va n = (d.resolveAll p slot .write (pieces va n)).2 ∨
    ∃ l : List (Phys × Nat), d.vaPoison p slot va n = l.foldl (fun (d : Dev) x => match x.1 with | .hbm pa => d.hbmPoisonRange pa x.2 | _ => d)
      (d.resolveAll p slot .write (pieces va n)).2 := by
  obtain ⟨F, hF⟩ : ∃ F, F = @vaPoison := ⟨_, rfl⟩
  obtain ⟨y, hy⟩ : ∃ y, y = F p slot va n d := ⟨_, rfl⟩
  rw [← hF, ← hy]
  delta vaPoison at hF
  subst hF
  beta_reduce at hy
  generalize d.resolveAll p slot .write (pieces va n) = z at hy ⊢
  obtain ⟨r, e⟩ := z
  cases r with
  | error => exact .inl hy
  | ok l => exact .inr ⟨l, hy⟩

/-- Poisoning a range moves nothing but the memories' poison and the cached translations. -/
theorem vaPoison_onlyMemory (slot : Option Nat) (va n : Nat) (d : Dev) : OnlyMemory p d (d.vaPoison p slot va n) := by
  have h := resolveAll_onlyMemory p slot .write (pieces va n) d
  obtain hw | ⟨l, hw⟩ := vaPoison_cases p slot va n d
  · rw [hw]
    exact h
  · rw [hw]
    exact h.trans (foldPoison_onlyMemory l _)

section slot

variable {s : Nat} {c : CfDesc}

/-- The poison of an ending leaves the slots' records. -/
theorem cfSlot_cfPoisonDst (k : Nat) (d : Dev) : (d.cfPoisonDst s).cfSlot k = d.cfSlot k := by
  unfold cfPoisonDst
  split
  · rfl
  · dsimp only
    split
    · rfl
    · refine foldl_keeps (fun x : Dev => x.cfSlot k = d.cfSlot k) _ _ d rfl fun x r hx => ?_
      split
      · exact hx
      · rw [cfSlot, (vaPoison_onlyMemory (p := x.cfPart s) ..).rest]
        exact hx

/-- A slot that ends but for a rearming, with its interrupt (R259). -/
def cfEnded (s : Nat) (d : Dev) : Dev := ((d.setCf s CfSlot.reset).cfSetSt s 0).irqEvent (1152 + s)

/-- An ending that is no completion leaves the slot idle, whatever went before. -/
theorem cfClose_ends {st : Nat} (hst : 2 ≤ st) (hc : (d.cfSlot s).desc = some c) (csat cflush : Nat) : ∃ e, d.cfClose s st csat cflush = cfEnded s e := by
  unfold cfClose
  dsimp only
  rw [hc]
  refine ⟨_, congrArg (irqEvent (1152 + s)) (if_neg fun h => ?_)⟩
  omega

theorem cfSt_cfEnded (d : Dev) : (d.cfEnded s).cfSt s = 0 := by
  rw [cfEnded, cfSt, rd_irqEvent]
  exact (rd_wr_same ..).trans rfl

theorem cfSlot_cfEnded (d : Dev) : (d.cfEnded s).cfSlot s = CfSlot.reset := by
  rw [cfEnded, cfSlot, irqEvent_sources]
  exact tabGet_tabPut_same ..

theorem cfSource (hs : s < 64) : srcReal (1152 + s) = true := by
  simp only [srcReal]
  rw [if_neg (by omega), if_neg (by omega), if_neg (by omega), if_neg (by omega), if_neg (by omega), if_neg (by omega), if_pos (by omega)]

theorem raw_cfEnded (hs : s < 64) (d : Dev) : ((d.cfEnded s).src (1152 + s)).raw = true := raw_irqEvent (cfSource hs) _

theorem cfFail_ends {st : Nat} (hst : 2 ≤ st) (hc : (d.cfSlot s).desc = some c) (h0 : d.cfSt s ≠ 0) : ∃ e, d.cfFail s st = cfEnded s e := by
  rw [cfFail, if_neg h0]
  exact cfClose_ends hst (by rw [cfSlot_cfPoisonDst, hc]) 0 0

/-! The trigger (R257, R258). -/

theorem slotGo_unarmed (h : d.cfSt s ≠ 1) : d.slotGo s = d := if_neg h

theorem slotGo_armed (h : d.cfSt s = 1) : d.slotGo s = (d.cfTrigger s).cfReplay s := if_pos h

/-- A slot that has begun to run with its anchor (R257). -/
def cfRunning (s : Nat) (a : Int) (d : Dev) : Dev := (d.cfSetSt s 2).updCf s fun y => { y with a := a, ovf := false }

theorem s8_le (x : Nat) : s8 x ≤ 127 := by
  have := BitVec.toInt_lt (x := BitVec.ofNat 8 x)
  rw [s8]
  omega

section trigger

variable (hc : (d.cfSlot s).desc = some c) (h1 : d.cfSt s = 1) (hh : d.cfHeld s c = false) (hp : d.paused (d.cfPart s) = false)
  (hr : c.rel = false) (hl : c.lsb = false)
include hc h1 hh hp hr hl

/-- A trigger that nothing holds, of a descriptor that does not use the loss scale. -/
theorem cfTrigger_runs : d.cfTrigger s =
    if s8 c.anchor < -126 ∨ 127 < s8 c.anchor then (d.cfRunning s (s8 c.anchor)).cfFail s csMISMATCH
    else if c.kind = 4 then
      (if c.arem then (d.cfRunning s (s8 c.anchor)).atomPump s
      else
        let z := atomRun s c (s8 c.anchor) (List.range c.count) (d.cfRunning s (s8 c.anchor))
        z.2.atomDone s z.1)
    else
      let e := s / 32
      let last := (d.cfRunning s (s8 c.anchor)).cfLevels e c.plan
      let els := if c.kind = 3 then rangeElems ((d.cfRunning s (s8 c.anchor)).cfList e c.plan c.count last) else List.range c.count
      let z := cfTake s c (s8 c.anchor) els (d.cfRunning s (s8 c.anchor))
      if ¬ z.1 then z.2.cfFail s csFAILED
      else cfSettle 12 s (if c.kind = 3 then (z.2.cfCounts s).cfBegin s (last - 1) 1 true else (z.2.cfCounts s).cfBegin s 0 0 true) := by
  have ha : s8 c.anchor + (if c.rel then s8 (d.rd (Reg.LS_STAT_LSE (d.cfPart s))) else 0) = s8 c.anchor := by
    rw [hr, if_neg Bool.false_ne_true, add_zero]
  have hlsb : (if c.lsb then d.lsTaken (d.cfPart s) c.close else (false, d)) = (false, d) := by rw [hl, if_neg Bool.false_ne_true]
  unfold cfTrigger
  dsimp only
  rw [hc]
  dsimp only
  rw [if_neg (by simp [h1, hh, hp]), ha, hlsb]
  rfl

theorem cfTrigger_mismatch (ha : s8 c.anchor < -126) : d.cfTrigger s = (d.cfRunning s (s8 c.anchor)).cfFail s 3 := by
  rw [cfTrigger_runs hc h1 hh hp hr hl, if_pos (.inl ha)]
  rfl

theorem cfTrigger_reduces (ha : -126 ≤ s8 c.anchor) (hk : c.kind = 1 ∨ c.kind = 2) : d.cfTrigger s =
    let z := cfTake s c (s8 c.anchor) (List.range c.count) (d.cfRunning s (s8 c.anchor))
    if ¬ z.1 then z.2.cfFail s 5 else cfSettle 12 s ((z.2.cfCounts s).cfBegin s 0 0 true) := by
  have hanchor := s8_le c.anchor
  have h3 : c.kind ≠ 3 := by omega
  rw [cfTrigger_runs hc h1 hh hp hr hl, if_neg (by omega), if_neg (by omega)]
  simp only [if_neg h3]
  rfl

end trigger

/-! Messages (R258, R268, R273, R275, R277). -/

theorem fryFar_stream {k : Nat} (hk : k < 2 ^ 17) : d.fryFar k = (d.ctx k).part := if_neg (by omega)

/-- A message whose sender's partition is not paused is taken from the queue. -/
theorem onMsg_takes {types : List Nat} {k : Nat} {b : List Byte} (f : Dev → Dev) (ht : types.contains (byteField b 0 1) = true)
    (hp : d.paused (d.fryFar k) = false) : d.onMsg types k b f = f { d with msgs := d.msgs.erase (k, b) } :=
  if_pos ⟨ht, fun h => Bool.false_ne_true (hp.symm.trans h)⟩

/-- A message for a running slot of its generation is acted on. -/
theorem cfMessage_acts {k s : Nat} {b : List Byte} (hf : d.cfFind k (byteField b 4 4) = some s) (h2 : d.cfSt s = 2)
    (hg : byteField b 8 4 = d.cfGen s) : d.cfMessage k b = d.cfAct s b := by
  unfold cfMessage
  dsimp only
  rw [hf]
  exact if_pos ⟨h2, hg⟩

/-- A message of type `t` that reaches its running slot. -/
structure Reaches (d : Dev) (s k : Nat) (b : List Byte) (t : Nat) : Prop where
  type : byteField b 0 1 = t
  served : d.paused (d.fryFar k) = false
  found : d.cfFind k (byteField b 4 4) = some s
  runs : d.cfSt s = 2
  generation : byteField b 8 4 = d.cfGen s

theorem Reaches.acts {k t : Nat} {b : List Byte} (h : d.Reaches s k b t) :
    d.onMsg [t] k b (fun d => d.cfMessage k b) = ({ d with msgs := d.msgs.erase (k, b) } : Dev).cfAct s b :=
  (onMsg_takes _ (by rw [h.type]; simp) h.served).trans (cfMessage_acts h.found h.runs h.generation)

theorem Reaches.chunk {k : Nat} {b : List Byte} (h : d.Reaches s k b 1) :
    d.cfChunkMsg k b = ({ d with msgs := d.msgs.erase (k, b) } : Dev).cfAct s b := by
  unfold cfChunkMsg
  rw [onMsg_takes _ (by rw [h.type]; rfl) h.served, if_pos h.type]
  exact cfMessage_acts h.found h.runs h.generation

section act

variable {b : List Byte} (hc : (d.cfSlot s).desc = some c)
include hc

theorem cfAct_chunk (ht : byteField b 0 1 = 1) : d.cfAct s b = d.cfChunk s b := by
  unfold cfAct
  rw [hc, ht]
  rfl

theorem cfAct_ready (ht : byteField b 0 1 = 2) : d.cfAct s b =
    (d.updCf s fun x => { x with ready := ((cfParse 8 (b.take 64)).level, (cfParse 8 (b.take 64)).ring) :: x.ready }).cfFlush s := by
  unfold cfAct
  rw [hc, ht]
  rfl

theorem cfAct_withheld (ht : byteField b 0 1 = 3) : d.cfAct s b =
    if (cfParse 8 (b.take 64)).pos = d.cfPos (s / 32) c.plan (cfParse 8 (b.take 64)).level (cfParse 8 (b.take 64)).ring then d.cfFail s 2
    else cfSettle 12 s (d.cfDeclare s (cfParse 8 (b.take 64)).level (cfParse 8 (b.take 64)).ring) := by
  unfold cfAct
  rw [hc, ht]
  rfl

theorem cfAct_broken (ht : byteField b 0 1 = 4) : d.cfAct s b = (d.cfBroken s).cfFail s 5 := by
  unfold cfAct
  rw [hc, ht]
  rfl

theorem cfAct_stale (ht : byteField b 0 1 = 5) : d.cfAct s b = d.cfFail s 7 := by
  unfold cfAct
  rw [hc, ht]
  rfl

/-- A chunk whose label is known changes nothing (R268). -/
theorem cfChunk_again {ch : CfChunk} (hch : ch = cfParse c.carried b)
    (hl : (d.cfSlot s).labels.contains (ch.level, ch.ring, ch.ph, ch.step, ch.pos, ch.elem) = true) : d.cfChunk s b = d := by
  unfold cfChunk
  dsimp only
  rw [hc]
  dsimp only
  rw [← hch, if_pos (.inl hl)]

/-- A successor that has not answered by the longest hop wait is declared withheld (R273). -/
theorem hoptmo_declares {r : Nat} (h2 : d.cfSt s = 2) (ht : d.rd (Reg.CF_TIME_HOPTMO (s / 32)) ≠ 0)
    (hr : (d.cfSlot s).ready.contains ((d.cfSlot s).level, r) = false)
    (hw : d.rd (Reg.CF_TIME_HOPTMO (s / 32)) ≤ d.rd (Reg.CF_SLOTWAIT_WAITMAX (s / 32) (s % 32))) :
    d.hoptmo s r = cfSettle 12 s (d.cfDeclare s (d.cfSlot s).level r) := by
  unfold hoptmo
  rw [hc]
  dsimp only
  rw [if_neg (not_or.mpr ⟨not_not.mpr h2, ht⟩), if_neg (fun h => Bool.false_ne_true (hr.symm.trans h.1)), if_neg (Nat.not_lt.mpr hw)]

end act

theorem hoptmo_off {r : Nat} (h : d.rd (Reg.CF_TIME_HOPTMO (s / 32)) = 0) : d.hoptmo s r = d := by
  unfold hoptmo
  split
  · rfl
  · exact if_pos (.inr h)

/-- What a member's value adds to an arriving one (R266, R268). -/
theorem cfSum_ax {l i : Nat} (x : BitVec 64) (ha : c.ax = true) (hp : tabGet .plain i (d.cfSlot s).cls ≠ .poison) :
    d.cfSum s c l i x = x + tabGet 0 i (d.cfSlot s).vals := (if_neg fun h => hp h.2).trans (if_pos ha)

theorem cfSum_poison {i : Nat} (x : BitVec 64) (hp : tabGet .plain i (d.cfSlot s).cls = .poison) : d.cfSum s c 0 i x = x := if_pos ⟨rfl, hp⟩

end slot

end Dev

section rows

variable (s : State) (slot : SlotNo) (k : Stream) (b : List Byte)

theorem completes_slotGo : Completes (.slotGo slot) s (s.dev.slotGo slot).watch := rfl
theorem completes_ready : Completes (.ready k b) s (s.dev.onMsg [2] k b fun d => d.cfMessage k b).watch := rfl
theorem completes_chunk : Completes (.chunk k b) s (s.dev.cfChunkMsg k b).watch := rfl
theorem completes_withheld : Completes (.withheld k b) s (s.dev.onMsg [3] k b fun d => d.cfMessage k b).watch := rfl
theorem completes_broken : Completes (.broken k b) s (s.dev.onMsg [4] k b fun d => d.cfMessage k b).watch := rfl
theorem completes_stale : Completes (.stale k b) s (s.dev.onMsg [5] k b fun d => d.cfMessage k b).watch := rfl
theorem completes_hoptmo (r : Fin 16) : Completes (.hoptmo slot r) s (s.dev.hoptmo slot r).watch := rfl
theorem completes_cwd : Completes (.cwd slot) s (s.dev.cwd slot).watch := rfl
theorem completes_slotAbort : Completes (.slotAbort slot) s (s.dev.slotAbort slot).watch := rfl

end rows

open Dev in
/-- Settles O39: a trigger and a message are their branches, and a slot that fails is reset before its interrupt. -/
theorem collectivesRunAndEnd : Obligations.CollectivesRunAndEnd := by
  intro s slot c k b r h d0 comes a armed running
  have reaches (t : Nat) (hm : comes t) : s.dev.Reaches slot k b t := by
    obtain ⟨ht, hp, hf, h2, hg⟩ := hm
    exact ⟨ht, by rw [fryFar_stream k.isLt, hp], hf, h2, hg⟩
  refine ⟨fun h1 => (completes_slotGo s slot).of_eq (congrArg watch (slotGo_unarmed h1)), fun hc =>
    ⟨?mismatch, ?reduces, ?ready, ?chunk, fun ch => cfChunk_again hc, fun l i x => cfSum_ax x, fun i x => cfSum_poison x, ?excluded, ?withheld,
    ?broken, ?stale, ?hoptmo, ?ends⟩, ?off, ?timeout, ?disabled, ?aborted, ?idle⟩
  case mismatch =>
    rintro ⟨h1, hh, hp, hr, hl⟩ ha
    refine (completes_slotGo s slot).of_eq (congrArg watch ?_)
    rw [slotGo_armed h1, cfTrigger_mismatch hc h1 hh hp hr hl ha]
    rfl
  case reduces =>
    rintro ⟨h1, hh, hp, hr, hl⟩ ha hk z
    have ht := cfTrigger_reduces hc h1 hh hp hr hl ha hk
    refine ⟨fun hz => (completes_slotGo s slot).of_eq (congrArg watch ?_), fun hz => (completes_slotGo s slot).of_eq (congrArg watch ?_)⟩
    · rw [slotGo_armed h1, ht]
      exact congrArg (cfReplay slot.val) (if_pos fun h => Bool.false_ne_true (hz.symm.trans h))
    · rw [slotGo_armed h1, ht]
      exact congrArg (cfReplay slot.val) (if_neg (not_not.mpr hz))
  case ready => exact fun hm => (completes_ready s k b).of_eq (congrArg watch ((reaches 2 hm).acts.trans (cfAct_ready hc hm.1)))
  case chunk => exact fun hm => (completes_chunk s k b).of_eq (congrArg watch ((reaches 1 hm).chunk.trans (cfAct_chunk hc hm.1)))
  case excluded =>
    exact fun hm hp => (completes_withheld s k b).of_eq (congrArg watch ((reaches 3 hm).acts.trans ((cfAct_withheld (d := d0) hc hm.1).trans (if_pos hp))))
  case withheld =>
    exact fun hm hp => (completes_withheld s k b).of_eq (congrArg watch ((reaches 3 hm).acts.trans ((cfAct_withheld (d := d0) hc hm.1).trans (if_neg hp))))
  case broken => exact fun hm => (completes_broken s k b).of_eq (congrArg watch ((reaches 4 hm).acts.trans (cfAct_broken hc hm.1)))
  case stale => exact fun hm => (completes_stale s k b).of_eq (congrArg watch ((reaches 5 hm).acts.trans (cfAct_stale hc hm.1)))
  case hoptmo => exact fun h2 ht hr hw => (completes_hoptmo s slot r).of_eq (congrArg watch (hoptmo_declares hc h2 ht hr hw))
  case ends =>
    intro d n hn hd h0
    obtain ⟨e, he⟩ := cfFail_ends hn hd h0
    rw [he]
    exact ⟨cfSt_cfEnded e, cfSlot_cfEnded e, raw_cfEnded slot.isLt e⟩
  case off => exact fun ht => (completes_hoptmo s slot r).of_eq (congrArg watch (hoptmo_off ht))
  case timeout => exact fun h2 ht => (completes_cwd s slot).of_eq (congrArg watch (if_pos ⟨h2, ht⟩))
  case disabled => exact fun ht => (completes_cwd s slot).of_eq (congrArg watch (if_neg fun h => h.2 ht))
  case aborted => exact fun h0 => (completes_slotAbort s slot).of_eq (congrArg watch (if_neg h0))
  case idle => exact fun h0 => (completes_slotAbort s slot).of_eq (congrArg watch (if_pos h0))

end Sys2Proof.Machine
end

section
/-!
A ferry job's walk, grants, rows, batches, results and endings (O40): each is the branch of its operation that its state leads to.
-/
namespace Sys2Proof.Machine

/-- A draw below the sum of the weights falls on a copy of nonzero weight (R284). -/
theorem fryPick_weighs (x : Nat) (l : List Nat) (s : Nat) (h : s ≤ x) (hx : x < s + l.sum) : ∃ w, l[fryPick x s l]? = some w ∧ 0 < w := by
  induction l generalizing s with
  | nil => simp only [List.sum_nil] at hx; omega
  | cons w r ih =>
    rw [List.sum_cons] at hx
    rw [fryPick]
    by_cases hw : x < s + w
    · rw [if_pos hw]
      exact ⟨w, rfl, by omega⟩
    · rw [if_neg hw, List.getElem?_cons_succ]
      exact ih (s + w) (by omega) (by omega)

theorem fryHash_lt (t k bid : Nat) {w : Nat} (hw : 0 < w) : fryHash t k bid w < w := by
  have hm := Nat.mod_lt (Nat.xor (Nat.xor (t * 0x9E3779B1) (k * 0x85EBCA77)) bid) (Nat.two_pow_pos 32)
  exact Nat.div_lt_of_lt_mul (Nat.mul_lt_mul_of_pos_right hm hw)

namespace Dev

variable {d e : Dev} {j k q : Nat} {c : FryDesc} {b : List Byte}

/-! The trigger and the endings (R282, R283, R293). -/

theorem jobGo_unarmed (h : d.frySt j ≠ 1) : d.jobGo j = d := by
  unfold jobGo fryTrigger
  split
  · rfl
  · exact if_pos (.inl h)

theorem jobGo_walks (hc : (d.fryJob j).desc = some c) (h1 : d.frySt j = 1) (hh : d.fryHeld j c = false) (hp : d.paused (d.fryPart j) = false)
    (hz : ((List.range (c.count * c.k)).foldl (fryWalk j c) ([], false, d.wr (Reg.FRY_JOB_STATE j) 2)).2.1 = false) :
    d.jobGo j = ((List.range c.count).foldl (fun d t => d.fryCombine j t)
      ((List.range (c.count * c.k)).foldl (fryWalk j c) ([], false, d.wr (Reg.FRY_JOB_STATE j) 2)).2.2).frySettle j := by
  unfold jobGo fryTrigger
  rw [hc]
  dsimp only
  rw [if_neg (by simp [h1, hh, hp]), if_neg (by rw [hz]; exact Bool.false_ne_true)]

/-- A job that has ended, with its interrupt (R293). -/
def fryEnded (j : Nat) (d : Dev) : Dev := ((d.setFry j FryJob.reset).wr (Reg.FRY_JOB_STATE j) 0).irqEvent (1216 + j)

theorem fryEnd_ends (st : Nat) (hc : (d.fryJob j).desc = some c) : ∃ e, d.fryEnd j st = fryEnded j e := by
  unfold fryEnd
  dsimp only
  rw [hc]
  exact ⟨_, rfl⟩

theorem frySt_fryEnded (d : Dev) : (d.fryEnded j).frySt j = 0 := by
  rw [fryEnded, frySt, rd_irqEvent]
  exact (rd_wr_same ..).trans rfl

theorem fryJob_fryEnded (d : Dev) : (d.fryEnded j).fryJob j = FryJob.reset := by
  rw [fryEnded, fryJob, irqEvent_sources]
  exact tabGet_tabPut_same ..

theorem raw_fryEnded (hj : j < 16) (d : Dev) : ((d.fryEnded j).src (1216 + j)).raw = true := by
  refine raw_irqEvent ?_ _
  simp only [srcReal]
  rw [if_neg (by omega), if_neg (by omega), if_neg (by omega), if_neg (by omega), if_neg (by omega), if_neg (by omega), if_pos (by omega)]

/-! Requests and grants (R285, R288). -/

theorem fryReq_refused (h : d.fryCode k (FryHdr.parse b) ≠ 0) : d.fryReq k b = d.frySend (d.fryFar k) k none
    [FryHdr.bytes { FryHdr.parse b with mtype := 0x12, rows := 0, code := d.fryCode k (FryHdr.parse b), dev := d.myDev }] := if_pos h

theorem fryReq_serves (h : d.fryCode k (FryHdr.parse b) = 0) : d.fryReq k b = d.fryServe k b := if_neg (not_not.mpr h)

/-- Whether a grant's job can use it. -/
def fryMine (d : Dev) (k : Nat) (h : FryHdr) : Prop := d.frySt h.job = 2 ∧ h.gen = d.fryGen h.job ∧ d.fryPart h.job = d.fryFar k

/-- The job that a grant answers has one request fewer under way. -/
def fryAsked (k : Nat) (h : FryHdr) (d : Dev) : Dev := d.updFry h.job fun y => { y with asked := y.asked.filter fun z => z ≠ (fryDest k, h.queue) }

theorem fryGrant_stray (hm : ¬ d.fryMine k (FryHdr.parse b)) : d.fryGrant k b =
    if (FryHdr.parse b).rows = 0 then d else d.frySend (d.fryFar k) k none [FryHdr.bytes { FryHdr.parse b with mtype := 0x15 }] := by
  refine if_pos ?_
  by_contra hn
  simp only [not_or, not_not] at hn
  exact hm hn

theorem fryGrant_mine (hm : d.fryMine k (FryHdr.parse b)) : d.fryGrant k b =
    let h := FryHdr.parse b
    let a := d.fryAsked k h
    if h.code ≠ 0 then (a.fryRefused h.job (fryDest k) h).frySettle h.job
    else
      let z := fryUse h.job (fryDest k) h.queue h.batch (((a.fryJob h.job).slots.filter fun e => e.2 = .waiting (fryDest k) h.queue).map Prod.fst) h.rows a
      (z.2.updFry h.job fun y => { y with
        grants := if z.1 = 0 then y.grants else y.grants ++ [(fryDest k, h.queue, h.batch, z.1)] }).frySettle h.job := by
  obtain ⟨h2, hg, hp⟩ := hm
  exact if_neg (by simp [h2, hg, hp])

/-- A request is served from the first open batch with room. -/
theorem fryServe_room {y : FryBatch}
    (hy : ((d.fryNext (FryHdr.parse b).queue).fryQ (FryHdr.parse b).queue).open_.find? (fun (y : FryBatch) => decide (0 < y.room)) = some y) :
    d.fryServe k b =
      let h := FryHdr.parse b
      let m := min (min h.rows 64) y.room
      (((d.fryNext h.queue).setFryQ h.queue { (d.fryNext h.queue).fryQ h.queue with
        open_ := ((d.fryNext h.queue).fryQ h.queue).open_.map fun (z : FryBatch) => if z.no = y.no then { z with granted := z.granted + m } else z }).frySend
          ((d.fryNext h.queue).fryFar k) k none
          [FryHdr.bytes { h with mtype := 0x12, batch := y.no, rows := m, code := 0, dev := (d.fryNext h.queue).myDev }]) := by
  unfold fryServe
  dsimp only
  rw [hy]
  rfl

/-! Rows and batches (R287, R289). -/

theorem fryRow_noBatch (h : (d.fryQ (FryHdr.parse b).queue).open_ = []) : d.fryRow k b = d := by
  unfold fryRow
  dsimp only
  rw [h]
  rfl

/-- A row that comes whole lands in its batch with its tag. -/
theorem fryRow_whole {y : FryBatch}
    (hy : (d.fryQ (FryHdr.parse b).queue).open_.find? (fun (y : FryBatch) => decide (y.no = (FryHdr.parse b).batch)) = some y) (hp : y.parts = [])
    (hn : d.fryRB (FryHdr.parse b).queue ≤ (b.drop 64).length) : d.fryRow k b =
      let h := FryHdr.parse b
      let a := d.frySlotAddr h.queue y.no
      let e := (d.fryWr h.queue (a + 1088 + y.rows * d.fryRB h.queue + h.off) (b.drop 64)).fryWr h.queue (a + 64 + 16 * y.rows) (fryTag k h)
      fryClose 2 h.queue (e.updFryQ h.queue fun x => { x with open_ := x.open_.map fun (z : FryBatch) =>
        if z.no = y.no then { z with rows := z.rows + 1, granted := z.granted - 1, parts := z.parts.filter fun (e : FryPiece) =>
          !(e.from_ = k && e.job = h.job && e.gen = h.gen && e.t = h.t && e.k = h.k) } else z }) := by
  obtain ⟨write, hwrite⟩ : ∃ write, write = @fryWr := ⟨_, rfl⟩
  unfold fryRow
  rw [← hwrite]
  dsimp only
  rw [hy]
  dsimp only
  rw [hp]
  exact if_neg (Nat.not_lt.mpr hn)

theorem batchReturn_none (h : (d.fryQ q).closed = []) : d.batchReturn q = d := by
  unfold batchReturn
  dsimp only
  rw [h]

/-- The result rows of the oldest batch go back (R289). -/
theorem batchReturn_oldest {no rows cc : Nat} {r : List (Nat × Nat)} (hq : (d.fryQ q).closed = (no, rows) :: r)
    (hcc : d.deviceNo (d.rd (Reg.FRY_EQA_PART q)) (d.rd (Reg.FRY_EQA_NCORE q)) = some cc)
    (hf : (d.flagVal cc (d.rd (Reg.FRY_EQA_RFLAG q)) + 2 ^ 64 - (d.fryQ q).seen) % 2 ^ 64 ≠ 0) : d.batchReturn q =
      let e := (List.range rows).foldl (fun (e : Dev) i => e.fryReturnRow q (d.frySlotAddr q no) i) d
      ((e.setFryQ q { e.fryQ q with closed := r, seen := ((d.fryQ q).seen + 1) % 2 ^ 64 }).wr (Reg.FRY_EQS_NEXTRET q) (no + 1)).fryWaiters q := by
  unfold batchReturn
  dsimp only
  rw [hq, hcc]
  exact if_neg hf

/-! Results (R290). -/

/-- A result that its job no longer waits for changes nothing. -/
theorem fryResult_stale (h : d.frySt (FryHdr.parse b).job ≠ 2 ∨ (FryHdr.parse b).gen ≠ d.fryGen (FryHdr.parse b).job) : d.fryResult k b = d := by
  obtain ⟨write, hwrite⟩ : ∃ write, write = @vaWrite := ⟨_, rfl⟩
  unfold fryResult
  rw [← hwrite]
  dsimp only
  split
  · rfl
  · exact if_pos (h.elim .inl fun h => .inr (.inl h))

theorem fryJob_updFry_same (j : Nat) (f : FryJob → FryJob) (d : Dev) : (d.updFry j f).fryJob j = f (d.fryJob j) := tabGet_tabPut_same ..

/-- What a result's slot keeps of the time at which its row went out. -/
theorem sentAt_received (j i : Nat) (x : FrySlot) (d : Dev) :
    (((d.setFrySlot j i x).updFry j fun y => { y with parts := tabPut [] i [] y.parts }).fryJob j).sentAt = (d.fryJob j).sentAt := by
  rw [fryJob_updFry_same, setFrySlot, fryJob_updFry_same]

section result

variable {x : Nat} (hc : (d.fryJob (FryHdr.parse b).job).desc = some c) (h2 : d.frySt (FryHdr.parse b).job = 2)
  (hg : (FryHdr.parse b).gen = d.fryGen (FryHdr.parse b).job)
  (hs : d.frySlotOf (FryHdr.parse b).job (c.k * (FryHdr.parse b).t + (FryHdr.parse b).k) = .sent (fryDest k) x)
include hc h2 hg hs

/-- A result with a code fails its slot. -/
theorem fryResult_fails (h0 : (FryHdr.parse b).code ≠ 0) : d.fryResult k b =
    (d.setFrySlot (FryHdr.parse b).job (c.k * (FryHdr.parse b).t + (FryHdr.parse b).k) .failed).frySettle (FryHdr.parse b).job := by
  obtain ⟨write, hwrite⟩ : ∃ write, write = @vaWrite := ⟨_, rfl⟩
  unfold fryResult
  rw [← hwrite]
  dsimp only
  rw [hc]
  dsimp only
  rw [hs, if_neg (by simp [h2, hg]), if_pos h0]

/-- A whole result completes its slot. -/
theorem fryResult_whole (h0 : (FryHdr.parse b).code = 0)
    (hw : d.vaWrite (d.fryPart (FryHdr.parse b).job) none
      (c.stage + (c.k * (FryHdr.parse b).t + (FryHdr.parse b).k) * c.rrowb * 64 + (FryHdr.parse b).off) (b.drop 64) = (.ok (), e))
    (hn : c.rrowb * 64 ≤ (b.drop 64).length)
    (hl : (e.now - tabGet 0 (c.k * (FryHdr.parse b).t + (FryHdr.parse b).k) (e.fryJob (FryHdr.parse b).job).sentAt) / 64 ≤ e.rd Reg.FRY_LATMAX_LAT) :
    d.fryResult k b = ((((e.setFrySlot (FryHdr.parse b).job (c.k * (FryHdr.parse b).t + (FryHdr.parse b).k) .result).updFry (FryHdr.parse b).job
      fun y => { y with parts := tabPut [] (c.k * (FryHdr.parse b).t + (FryHdr.parse b).k) [] y.parts }).fryCombine (FryHdr.parse b).job
        (FryHdr.parse b).t).frySettle (FryHdr.parse b).job) := by
  obtain ⟨write, hwrite⟩ : ∃ write, write = @vaWrite := ⟨_, rfl⟩
  unfold fryResult
  rw [← hwrite] at hw ⊢
  dsimp only
  rw [hc]
  dsimp only
  rw [hs, if_neg (by simp [h2, hg]), if_neg (not_not.mpr h0), hw]
  dsimp only
  refine (if_neg (Nat.not_lt.mpr (hn.trans (Nat.le_add_right ..)))).trans ?_
  rw [sentAt_received]
  exact congrArg (fun x : Dev => (x.fryCombine _ _).frySettle _) (if_neg (Nat.not_lt.mpr hl))

end result

end Dev

section rows

variable (s : State) (j : JobNo) (k : FerryPath) (b : List Byte) (q : QueueNo)

theorem completes_jobGo : Completes (.jobGo j) s (s.dev.jobGo j).watch := rfl
theorem completes_req : Completes (.req k b) s (s.dev.onMsg [0x11] k b fun d => d.fryReq k b).watch := rfl
theorem completes_grant : Completes (.grant k b) s (s.dev.onMsg [0x12] k b fun d => d.fryGrant k b).watch := rfl
theorem completes_row : Completes (.row k b) s (s.dev.onMsg [0x13] k b fun d => d.fryRow k b).watch := rfl
theorem completes_result : Completes (.result k b) s (s.dev.onMsg [0x14] k b fun d => d.fryResult k b).watch := rfl
theorem completes_ferryRelease : Completes (.ferryRelease k b) s (s.dev.onMsg [0x15] k b fun d => d.fryRelease k b).watch := rfl
theorem completes_batchDeadline (n : Nat) : Completes (.batchDeadline q n) s (s.dev.batchDeadline q n).watch := rfl
theorem completes_batchReturn : Completes (.batchReturn q) s (s.dev.batchReturn q).watch := rfl
theorem completes_jobWatchdog : Completes (.jobWatchdog j) s (s.dev.jobWatchdog j).watch := rfl
theorem completes_jobAbort : Completes (.jobAbort j) s (s.dev.jobAbort j).watch := rfl

end rows

open Dev in
/-- Settles O40: each operation of a ferry job is its branch, and a job that ends is reset before its interrupt. -/
theorem ferryJobsRunAndEnd : Obligations.FerryJobsRunAndEnd := by
  intro s j c k b q n h d0 comes dest mine asked
  have taken {t : Nat} (hm : comes t) (f : Dev → Dev) : s.dev.onMsg [t] k b f = f d0 :=
    onMsg_takes f (by rw [hm.1, List.contains_cons, beq_self_eq_true, Bool.true_or]) hm.2
  refine ⟨fun h1 => (completes_jobGo s j).of_eq (congrArg watch (jobGo_unarmed h1)),
    fun hc h1 hh hp hz => (completes_jobGo s j).of_eq (congrArg watch (jobGo_walks hc h1 hh hp hz)),
    ?refusedReq, ?served, fun d y => fryServe_room, ?goesBack, ?unused, ?refused, ?granted, ?row, ?noBatch, completes_batchDeadline s q n,
    fun hq => (completes_batchReturn s q).of_eq (congrArg watch (batchReturn_none hq)),
    fun no rows r cc hq hcc hf => (completes_batchReturn s q).of_eq (congrArg watch (batchReturn_oldest hq hcc hf)),
    fun hm hc => ⟨?stale, fun x h2 hg hs => ⟨?fails, ?whole⟩⟩, ?release,
    fun h2 ht => (completes_jobWatchdog s j).of_eq (congrArg watch (if_pos ⟨h2, ht⟩)),
    fun ht => (completes_jobWatchdog s j).of_eq (congrArg watch (if_neg fun h => h.2 ht)),
    fun h0 => (completes_jobAbort s j).of_eq (congrArg watch (if_neg h0)), fun h0 => (completes_jobAbort s j).of_eq (congrArg watch (if_pos h0)),
    ?ends, fun x l hx => fryPick_weighs x l 0 (Nat.zero_le x) (by omega), fun t kk bid w => fryHash_lt t kk bid⟩
  case refusedReq => exact fun hm h0 => (completes_req s k b).of_eq (congrArg watch ((taken hm _).trans (fryReq_refused (d := d0) h0)))
  case served => exact fun hm h0 => (completes_req s k b).of_eq (congrArg watch ((taken hm _).trans (fryReq_serves (d := d0) h0)))
  case goesBack =>
    exact fun hm hn hr => (completes_grant s k b).of_eq (congrArg watch ((taken hm _).trans ((fryGrant_stray (d := d0) hn).trans (if_neg hr))))
  case unused =>
    exact fun hm hn hr => (completes_grant s k b).of_eq (congrArg watch ((taken hm _).trans ((fryGrant_stray (d := d0) hn).trans (if_pos hr))))
  case refused =>
    exact fun hm hn h0 => (completes_grant s k b).of_eq (congrArg watch ((taken hm _).trans ((fryGrant_mine (d := d0) hn).trans (if_pos h0))))
  case granted =>
    exact fun hm hn h0 => (completes_grant s k b).of_eq
      (congrArg watch ((taken hm _).trans ((fryGrant_mine (d := d0) hn).trans (if_neg (not_not.mpr h0)))))
  case row => exact fun y hm hy hp hn => (completes_row s k b).of_eq (congrArg watch ((taken hm _).trans (fryRow_whole (d := d0) hy hp hn)))
  case noBatch => exact fun hm hq => (completes_row s k b).of_eq (congrArg watch ((taken hm _).trans (fryRow_noBatch (d := d0) hq)))
  case stale => exact fun h2 => (completes_result s k b).of_eq (congrArg watch ((taken hm _).trans (fryResult_stale (d := d0) h2)))
  case fails =>
    exact fun h0 => (completes_result s k b).of_eq (congrArg watch ((taken hm _).trans (fryResult_fails (d := d0) hc h2 hg hs h0)))
  case whole =>
    exact fun d h0 hw hn hl =>
      (completes_result s k b).of_eq (congrArg watch ((taken hm _).trans (fryResult_whole (d := d0) hc h2 hg hs h0 hw hn hl)))
  case release => exact fun hm => (completes_ferryRelease s k b).of_eq (congrArg watch (taken hm _))
  case ends =>
    intro d t hc
    obtain ⟨e, he⟩ := fryEnd_ends t hc
    rw [he]
    exact ⟨frySt_fryEnded e, fryJob_fryEnded e, raw_fryEnded j.isLt e⟩

end Sys2Proof.Machine
end

section
/-!
What the end of an attempt's work leaves (R326, R362): its slots and jobs end, its cores stop, and the quiet flags, the registers of quiet
state and the records' states stay.
-/
namespace Sys2Proof.Machine.Dev

variable {d e f : Dev} {p : Nat}

/-- `e` has the quiet flags of `d`, and its registers up to those of quiet state. -/
structure KeepsQuiet (d e : Dev) : Prop where
  rd : ∀ g : Fld, g.addr < 0x51000 → g.lo < 64 → e.rd g = d.rd g
  part : ∀ q, (e.part q).quiet = (d.part q).quiet ∧ (e.part q).held = (d.part q).held

/-- The records' states and replays stay as well. -/
structure KeepsRecords (d e : Dev) : Prop extends KeepsQuiet d e where
  record : ∀ g, (e.jr g).st = (d.jr g).st ∧ (e.jr g).replays = (d.jr g).replays ∧ (e.jr g).replay = (d.jr g).replay

theorem KeepsQuiet.trans (h : KeepsQuiet d e) (h' : KeepsQuiet e f) : KeepsQuiet d f where
  rd g ha hl := (h'.rd g ha hl).trans (h.rd g ha hl)
  part q := ⟨(h'.part q).1.trans (h.part q).1, (h'.part q).2.trans (h.part q).2⟩

namespace KeepsRecords

theorem refl (d : Dev) : KeepsRecords d d := ⟨⟨fun _ _ _ => rfl, fun _ => ⟨rfl, rfl⟩⟩, fun _ => ⟨rfl, rfl, rfl⟩⟩

theorem trans (h : KeepsRecords d e) (h' : KeepsRecords e f) : KeepsRecords d f where
  toKeepsQuiet := h.toKeepsQuiet.trans h'.toKeepsQuiet
  record g := ⟨(h'.record g).1.trans (h.record g).1, (h'.record g).2.1.trans (h.record g).2.1, (h'.record g).2.2.trans (h.record g).2.2⟩

theorem ite {c : Prop} [Decidable c] (h : KeepsRecords d e) (h' : KeepsRecords d f) : KeepsRecords d (if c then e else f) := by
  split
  · exact h
  · exact h'

theorem foldl {α : Type} {step : Dev → α → Dev} (h : ∀ e x, KeepsRecords e (step e x)) (xs : List α) (d : Dev) :
    KeepsRecords d (xs.foldl step d) :=
  foldl_keeps (KeepsRecords d) step xs d (.refl d) fun _ x he => he.trans (h _ x)

theorem of_same (hr : e.regs = d.regs) (hp : e.parts = d.parts) (hj : e.jrec = d.jrec) : KeepsRecords d e where
  rd g _ _ := by simp only [Dev.rd, hr]
  part q := by simp only [Dev.part, hp, and_self]
  record g := by simp only [Dev.jr, hj, and_self]

theorem updPart {u : Part → Part} (h : ∀ x, (u x).quiet = x.quiet ∧ (u x).held = x.held) : KeepsRecords d (d.updPart p u) where
  rd _ _ _ := rfl
  part q := by
    by_cases hq : q = p
    · subst hq
      rw [part_updPart_same]
      exact h _
    · rw [part_updPart_ne _ _ _ _ hq]
      exact ⟨rfl, rfl⟩
  record _ := ⟨rfl, rfl, rfl⟩

theorem updJr {g : Nat} {u : JRec → JRec} (h : ∀ x, (u x).st = x.st ∧ (u x).replays = x.replays ∧ (u x).replay = x.replay) :
    KeepsRecords d (d.updJr g u) where
  rd _ _ _ := rfl
  part _ := ⟨rfl, rfl⟩
  record k := by
    by_cases hk : k = g
    · subst hk
      rw [Dev.updJr, Dev.jr_setJr]
      exact h _
    · rw [Dev.updJr, jr_setJr_ne _ _ _ _ hk]
      exact ⟨rfl, rfl, rfl⟩

theorem updCore (c : Nat) (u : Core → Core) (d : Dev) : KeepsRecords d (d.updCore c u) := .of_same rfl rfl rfl
theorem setPass (p n : Nat) (x : HallPass) (d : Dev) : KeepsRecords d (d.setPass p n x) := .of_same rfl rfl rfl

theorem of_onlyMemory (h : OnlyMemory p d e) : KeepsRecords d e where
  rd g ha hl := h.rd g {
    owned := by simp only [Fld.key, Reg.PT_SECCNT_OWNVIOL, Reg.PT_SECCNT]; omega
    down k _ := by simp only [Fld.key, Reg.HBM_UECNT_UE, Reg.HBM_UECNT]; omega
    hit k _ := by simp only [Fld.key, Reg.HBM_UECNT_PRD, Reg.HBM_UECNT]; omega
    dropped k _ := by simp only [Fld.key, Reg.HBM_UECNT_QDROP, Reg.HBM_UECNT]; omega }
  part q := by
    obtain ⟨t, ht⟩ := h.part q
    rw [ht]
    exact ⟨rfl, rfl⟩
  record g := by
    rw [h.rest]
    exact ⟨rfl, rfl, rfl⟩

theorem of_onlyCores (h : OnlyCores d e) : KeepsRecords d e where
  rd g ha hl := h.rd g (by omega) hl
  part q := by
    rw [h.rest]
    exact ⟨rfl, rfl⟩
  record g := by
    rw [h.rest]
    exact ⟨rfl, rfl, rfl⟩

/-- A register above those of quiet state is written: of a partition, a ring, a slot, a job or the loss scale. -/
theorem wr {g : Fld} (v : Nat) (d : Dev) (h : 0x51000 ≤ g.addr := by
    simp only [Reg.LS_STAT_LSE, Reg.LS_STAT_CLEAN, Reg.LS_STAT_OVF_LOCAL, Reg.LS_STAT_OVF_PEND, Reg.LS_STAT_CLOSING, Reg.LS_STAT_INCOMPLETE,
      Reg.LS_STAT_FLOOR, Reg.LS_STAT_MIRRORERR, Reg.LS_STAT_SEQ, Reg.LS_STAT, Reg.LS_CFG_N, Reg.LS_CFG_LSE_MIN, Reg.LS_CFG_LSE_MAX,
      Reg.LS_CFG_LSE_INIT, Reg.LS_CFG_EN, Reg.LS_CFG, Reg.PD_DUMPSTAT_ARMED, Reg.PD_DUMPSTAT_MISSED, Reg.PD_DUMPSTAT_DONE, Reg.PD_DUMPSTAT_PSN,
      Reg.PD_DUMPSTAT, Reg.CF_SLOTBID_STATUS, Reg.CF_SLOTBID, Reg.CF_CNT_DONE, Reg.CF_CNT_FAILS, Reg.CF_CNT, Reg.CF_SLOT_STATE, Reg.CF_SLOT_GEN,
      Reg.CF_SLOT, Reg.CF_SLOTWAIT_WAITMAX, Reg.CF_SLOTWAIT_WAITPOS, Reg.CF_SLOTWAIT, Reg.FRY_JOB_STATE, Reg.FRY_JOB, Reg.PD_STEP_HELD,
      Reg.PD_STEP_HJSEQ, Reg.PD_STEP, Reg.PD_TRC_TAIL, Reg.PD_TRC]
    omega) : KeepsRecords d (d.wr g v) where
  rd k ha hl := rd_wr_ne _ _ _ _ (by simp only [Fld.key]; omega)
  part _ := ⟨rfl, rfl⟩
  record _ := ⟨rfl, rfl, rfl⟩

theorem irqEvent (n : Nat) (d : Dev) : KeepsRecords d (d.irqEvent n) :=
  .of_same (by rw [irqEvent_sources]) (by rw [irqEvent_sources]) (by rw [irqEvent_sources])

/-! The loss-scale controller's return to RUN (R123, R124). -/

theorem lsMirror (p : Nat) (d : Dev) : KeepsRecords d (d.lsMirror p) := by
  obtain ⟨write, hwrite⟩ : ∃ write, write = @Dev.vaWrite := ⟨_, rfl⟩
  have hw (slot : Option Nat) (va : Nat) (b : List Byte) : KeepsRecords d (write p slot va b d).2 := by
    rw [hwrite]
    exact .of_onlyMemory (vaWrite_onlyMemory p slot va b d)
  unfold Dev.lsMirror
  rw [← hwrite]
  refine .ite (.refl d) ?_
  dsimp only
  split
  · rename_i h
    exact (congrArg (KeepsRecords d) (congrArg Prod.snd h)).mp (hw ..)
  · rename_i h
    exact ((congrArg (KeepsRecords d) (congrArg Prod.snd h)).mp (hw ..)).trans (wr ..)

theorem dumpMiss (p old : Nat) (d : Dev) : KeepsRecords d (d.dumpMiss p old) :=
  .ite ((updPart fun _ => ⟨by rfl, by rfl⟩).trans ((wr ..).trans (wr ..))) (.refl d)

theorem lsFinish (p : Nat) (d : Dev) : KeepsRecords d (d.lsFinish p) := by
  refine .trans ?_ (irqEvent ..)
  refine .trans ?_ (lsMirror ..)
  refine .trans ?_ (dumpMiss ..)
  exact (wr ..).trans ((wr ..).trans (wr ..))

theorem lsMove (p : Nat) (ovf : Bool) (d : Dev) : KeepsRecords d (d.lsMove p ovf) := by
  refine .ite ?_ (.ite (wr ..) ((wr ..).trans (wr ..)))
  refine .trans ?_ (wr ..)
  refine .trans ?_ (wr ..)
  exact .ite (wr ..) (.refl d)

theorem ovfEvent (p : Nat) (d : Dev) : KeepsRecords d (d.ovfEvent p) := .ite (wr ..) (wr ..)

theorem lsCfgApply (p v : Nat) (d : Dev) : KeepsRecords d (d.lsCfgApply p v) := by
  have stored : KeepsRecords d (((((d.wr (Reg.LS_CFG_N p) (bits v 15 0)).wr (Reg.LS_CFG_LSE_MIN p) (bits v 23 16)).wr (Reg.LS_CFG_LSE_MAX p)
      (bits v 31 24)).wr (Reg.LS_CFG_LSE_INIT p) (bits v 39 32)).wr (Reg.LS_CFG_EN p) (bits v 40 40)) :=
    (wr ..).trans ((wr ..).trans ((wr ..).trans ((wr ..).trans (wr ..))))
  refine .ite (.refl d) (.ite stored (stored.trans ?_))
  exact (wr ..).trans ((wr ..).trans ((wr ..).trans (wr ..)))

theorem lsCtlApply (p v : Nat) (d : Dev) : KeepsRecords d (d.lsCtlApply p v) := by
  refine .trans (.ite ((wr ..).trans (wr ..)) (.refl d)) (.trans (.ite (ovfEvent ..) (.refl _)) (.ite ?_ (.refl _)))
  exact .ite (.refl _) ((lsMove ..).trans (lsFinish ..))

theorem lsWrite (p : Nat) (cfg : Bool) (v : Nat) (d : Dev) : KeepsRecords d (d.lsWrite p cfg v) :=
  .ite (updPart fun _ => ⟨by rfl, by rfl⟩) (.ite (lsCfgApply ..) (lsCtlApply ..))

theorem lsRun (p : Nat) (d : Dev) : KeepsRecords d (d.lsRun p) := by
  unfold Dev.lsRun
  refine .trans ?_ (foldl (fun e _ => lsWrite p _ _ e) ..)
  exact (wr ..).trans (updPart fun _ => ⟨by rfl, by rfl⟩)

theorem lsClosing (p : Nat) (ovf : Option Bool) (d : Dev) : KeepsRecords d (d.lsClosing p ovf) := by
  refine .ite (.refl d) ?_
  cases ovf with
  | none => exact (wr ..).trans ((wr ..).trans ((wr ..).trans (lsRun ..)))
  | some b => exact (lsMove ..).trans ((wr ..).trans ((lsFinish ..).trans (lsRun ..)))

/-! What is told of a command's parts changes neither its state nor its replays (R326). -/

theorem jrPartEnd (g : Option Nat) (id : Nat) (d : Dev) : KeepsRecords d (d.jrPartEnd g id) := by
  cases g with
  | none => exact .refl d
  | some g => exact updJr (u := fun r => { r with parts := r.parts.erase id }) fun _ => ⟨rfl, rfl, rfl⟩

theorem jrOutcome (g : Option Nat) (o : Nat × Nat × Nat) (d : Dev) : KeepsRecords d (d.jrOutcome g o) := by
  cases g with
  | none => exact .refl d
  | some g => exact .ite (.refl d) (updJr fun _ => ⟨by rfl, by rfl, by rfl⟩)

theorem jrMark (g : Option Nat) (d : Dev) : KeepsRecords d (d.jrMark g) := by
  cases g with
  | none => exact .refl d
  | some g => exact .ite (.refl d) (.ite (updJr (u := fun r => { r with marked := true }) fun _ => ⟨by rfl, by rfl, by rfl⟩) (jrOutcome ..))

theorem jrWithheld (g : Option Nat) (d : Dev) : KeepsRecords d (d.jrWithheld g) := by
  cases g with
  | none => exact .refl d
  | some g => exact .ite (.refl d) (updJr fun _ => ⟨by rfl, by rfl, by rfl⟩)

theorem jrPoison (g : Option Nat) (l : List (List (Nat × Nat))) (d : Dev) : KeepsRecords d (d.jrPoison g l) := by
  cases g with
  | none => exact .refl d
  | some g => exact .ite (.refl d) (updJr fun _ => ⟨by rfl, by rfl, by rfl⟩)

/-! Slots and jobs end (R276, R293). -/

theorem sendOp (k ptype : Nat) (flg : Bool) (owner : OpOwner) (addr frbase frlog : Nat) (l : List (Nat × List Byte)) (d : Dev) :
    KeepsRecords d (d.sendOp k ptype flg owner addr frbase frlog l) := by
  refine .trans (e := d.setCtx k _) (.of_same rfl rfl rfl) (foldl (fun e x => ?_) ..)
  dsimp only [sealPkt]
  split
  · exact .of_same rfl rfl rfl
  · exact .of_same rfl rfl rfl

theorem cfWithhold (s : Nat) (d : Dev) : KeepsRecords d (d.cfWithhold s) := by
  unfold Dev.cfWithhold
  split
  · exact .refl d
  · refine foldl (fun e l => foldl (fun e r => ?_) ..) ..
    split
    · exact .ite (sendOp ..) (.refl e)
    · exact .refl e

theorem completionUpdate (p : Nat) (en : Bool) (core flag sop v : Nat) (d : Dev) : KeepsRecords d (d.completionUpdate p en core flag sop v) := by
  refine .ite (.refl d) ?_
  split
  · exact .of_onlyCores (flagUpdate_onlyCores ..)
  · exact .refl d

theorem fresh (d : Dev) : KeepsRecords d d.fresh.2 := .of_same rfl rfl rfl

theorem vaPoison (p : Nat) (slot : Option Nat) (va n : Nat) (d : Dev) : KeepsRecords d (d.vaPoison p slot va n) :=
  .of_onlyMemory (vaPoison_onlyMemory ..)

theorem vaWrite (p : Nat) (slot : Option Nat) (va : Nat) (b : List Byte) (d : Dev) : KeepsRecords d (d.vaWrite p slot va b).2 :=
  .of_onlyMemory (vaWrite_onlyMemory ..)

theorem cfPoisonDst (s : Nat) (d : Dev) : KeepsRecords d (d.cfPoisonDst s) := by
  unfold Dev.cfPoisonDst
  split
  · exact .refl d
  · refine .ite (.refl d) (foldl (fun e r => ?_) ..)
    exact .ite (fresh e) ((fresh e).trans (vaPoison ..))

theorem setEnds (l : List (Nat × Nat × Nat)) (d : Dev) : KeepsRecords d { d with cfEnds := l } := .of_same rfl rfl rfl
theorem setCf (s : Nat) (x : CfSlot) (d : Dev) : KeepsRecords d (d.setCf s x) := .of_same rfl rfl rfl
theorem cfSetSt (s st : Nat) (d : Dev) : KeepsRecords d (d.cfSetSt s st) := wr ..
theorem cfNoWait (s : Nat) (d : Dev) : KeepsRecords d (d.cfNoWait s) := (wr ..).trans (wr ..)

theorem cfClose (s st csat cflush : Nat) (d : Dev) : KeepsRecords d (d.cfClose s st csat cflush) := by
  unfold Dev.cfClose
  dsimp only
  split
  · exact .refl d
  · next c hc =>
    refine .trans ?_ (irqEvent ..)
    refine .trans ?_ (.ite ((((setCf ..).trans (cfNoWait ..)).trans (cfSetSt ..)).trans (wr ..)) ((setCf ..).trans (cfSetSt ..)))
    refine .trans ?_ (.ite (.refl _) (.trans (.ite (jrWithheld ..) (.ite (jrOutcome ..) (.refl _))) (jrPartEnd ..)))
    refine .trans ?_ (setEnds ..)
    refine .trans ?_ (.ite (wr ..) (wr ..))
    refine .trans ?_ (wr ..)
    refine .trans ?_ (.ite (.refl _) (completionUpdate ..))
    refine .trans ?_ (.ite (.refl _) (.ite (lsClosing ..) (.ite (ovfEvent ..) (.refl _))))
    exact .ite (.refl _) (vaWrite ..)

theorem slotAbort (s : Nat) (d : Dev) : KeepsRecords d (d.slotAbort s) :=
  .ite (.refl d) ((cfWithhold ..).trans (.ite (.refl _) ((cfPoisonDst ..).trans (cfClose ..))))

theorem frySend (p k : Nat) (job : Option Nat) (l : List (List Byte)) (d : Dev) : KeepsRecords d (d.frySend p k job l) :=
  .ite (.of_same rfl rfl rfl) (.ite (.refl d) (.ite (sendOp ..) (.of_same rfl rfl rfl)))

theorem setFry (j : Nat) (x : FryJob) (d : Dev) : KeepsRecords d (d.setFry j x) := .of_same rfl rfl rfl
theorem setOut (l : List FryOut) (d : Dev) : KeepsRecords d { d with fryOut := l } := .of_same rfl rfl rfl

theorem fryEnd (j st : Nat) (d : Dev) : KeepsRecords d (d.fryEnd j st) := by
  unfold Dev.fryEnd
  dsimp only
  split
  · exact .refl d
  · next c hc =>
    refine .trans ?_ (irqEvent ..)
    refine .trans ?_ (wr ..)
    refine .trans ?_ (setFry ..)
    refine .trans ?_ (setOut ..)
    refine .trans ?_ (jrPartEnd ..)
    refine .trans ?_ (.ite (jrOutcome ..) (.ite (jrMark ..) (.refl _)))
    refine .trans ?_ (.ite (.refl _) (completionUpdate ..))
    refine .trans ?_ (.ite (.refl _) (vaWrite ..))
    refine .trans ?_ (foldl (fun e t => (vaPoison ..).trans (jrPoison ..)) ..)
    exact foldl (fun e g => .ite (.refl e) (frySend ..)) ..

theorem jobAbort (j : Nat) (d : Dev) : KeepsRecords d (d.jobAbort j) := .ite (.refl d) (fryEnd ..)

theorem unstall (c k : Nat) (d : Dev) : KeepsRecords d (d.unstall c k) := by
  unfold Dev.unstall
  refine .trans (.trans ?_ (.ite (updCore ..) (.refl _))) (updCore ..)
  split
  · exact setPass ..
  · exact .refl d

/-- The end of an attempt's cores, slots and jobs. -/
theorem stopAttempt (p i : Nat) (d : Dev) : KeepsRecords d (d.stopAttempt p i) := by
  unfold Dev.stopAttempt
  dsimp only
  refine .trans ?_ (updPart fun _ => ⟨by rfl, by rfl⟩)
  refine .trans ?_ (foldl (fun e j => .ite (jobAbort j e) (.refl e)) ..)
  refine .trans ?_ (foldl (fun e s => .ite (slotAbort s e) (.refl e)) ..)
  exact foldl (fun e c => (unstall c 0 e).trans ((updCore ..).trans (updCore ..))) ..

/-! Traces, dumps and reports (R331, R437, R439). -/

theorem hbmWrite (pa : Nat) (bs : List Byte) (d : Dev) : KeepsRecords d (d.hbmWrite pa bs) := .of_onlyMemory (p := 0) (hbmWrite_onlyMemory ..)

theorem trcPut (p : Nat) (bs : List Byte) (d : Dev) : KeepsRecords d (d.trcPut p bs) := (hbmWrite ..).trans (wr ..)

theorem trcFlush (n p : Nat) (d : Dev) : KeepsRecords d (trcFlush n p d) := by
  induction n generalizing d with
  | zero => exact .refl d
  | succ n ih =>
    refine .ite (.refl d) ?_
    split
    · next b r _ => exact .trans (updPart (u := fun x => { x with trcBuf := r }) fun _ => ⟨rfl, rfl⟩) ((trcPut ..).trans (ih _))
    · exact .ite (.refl d) (.trans (updPart (u := fun x => { x with trcLost := 0 }) fun _ => ⟨rfl, rfl⟩) (trcPut ..))

theorem trace (p die evt src lcore : Nat) (r : JRec) (data : Nat) (d : Dev) : KeepsRecords d (d.trace p die evt src lcore r data) := by
  refine .ite (.refl d) (.ite ?_ ?_)
  · exact updPart (u := fun x => { x with trcLost := x.trcLost + 1 }) fun _ => ⟨rfl, rfl⟩
  · refine .trans ?_ (trcFlush ..)
    exact updPart (u := fun x => { x with trcBuf := x.trcBuf ++ _ ++ _, trcLost := 0 }) fun _ => ⟨rfl, rfl⟩

theorem traceCmd (p evt : Nat) (r : JRec) (data : Nat) (d : Dev) : KeepsRecords d (d.traceCmd p evt r data) := trace ..

theorem freshBytes (n : Nat) (d : Dev) : KeepsRecords d (d.freshBytes n).2 := .of_same rfl rfl rfl

theorem loosen (p : Nat) (r : JRec) (d : Dev) : KeepsRecords d (d.loosen p r) := by
  refine foldl (fun e x => (freshBytes x.2 e).trans ?_) ..
  have h := resolveAll_onlyMemory p none .write [x] (e.freshBytes x.2).2
  dsimp only
  generalize (e.freshBytes x.2).2.resolveAll p none .write [x] = z at h
  obtain ⟨o, f⟩ := z
  cases o with
  | error => exact .of_onlyMemory h
  | ok l => exact (KeepsRecords.of_onlyMemory h).trans (.ite (.refl f) (.of_onlyMemory (physWrite_onlyMemory ..)))

theorem dumpRun (p : Nat) (r : JRec) (d : Dev) : KeepsRecords d (d.dumpRun p r) := by
  obtain ⟨write, hwrite⟩ : ∃ write, write = @Dev.vaWrite := ⟨_, rfl⟩
  obtain ⟨poison, hpoison⟩ : ∃ poison, poison = @Dev.vaPoison := ⟨_, rfl⟩
  obtain ⟨read, hread⟩ : ∃ read, read = @Dev.vaRead := ⟨_, rfl⟩
  have written (x : Dev) (slot : Option Nat) (va : Nat) (b : List Byte) : KeepsRecords x (write p slot va b x).2 := hwrite ▸ vaWrite ..
  have poisoned (x : Dev) (slot : Option Nat) (va n : Nat) : KeepsRecords x (poison p slot va n x) := hpoison ▸ vaPoison ..
  have hasRead (x : Dev) (slot : Option Nat) (va n : Nat) : KeepsRecords x (read p slot va n x).2 := hread ▸ .of_onlyMemory (vaRead_onlyMemory ..)
  unfold Dev.dumpRun
  rw [← hwrite, ← hpoison, ← hread]
  split
  · exact .refl d
  · next u hu =>
    refine .trans ?_ (traceCmd ..)
    refine .trans ?_ (wr ..)
    refine .trans ?_ (wr ..)
    refine .trans ?_ (updPart fun _ => ⟨by rfl, by rfl⟩)
    refine .trans (written ..) (foldl (fun e k => ?_) ..)
    have h := hasRead e none (u.va + 32 * k) (min 32 (u.len - 32 * k))
    dsimp only
    generalize read p none (u.va + 32 * k) (min 32 (u.len - 32 * k)) e = z at h ⊢
    refine h.trans ?_
    obtain ⟨o, f⟩ := z
    split
    · next heq =>
      cases heq
      exact written ..
    · next heq =>
      cases heq
      exact (poisoned ..).trans (wr ..)
    · next heq =>
      cases heq
      exact .refl _

theorem preReport (p g : Nat) (d : Dev) : KeepsRecords d (d.preReport p g) := by
  refine .ite (.refl d) ?_
  refine .trans ?_ (updJr fun _ => ⟨by rfl, by rfl, by rfl⟩)
  exact .trans (.ite (dumpRun ..) (.refl d)) (.ite (vaWrite ..) (.refl _))

theorem stepDrop (p : Nat) (r : JRec) (d : Dev) : KeepsRecords d (d.stepDrop p r) := .ite ((wr ..).trans (wr ..)) (.refl d)

theorem freeShadows (p i : Nat) (d : Dev) : KeepsRecords d (d.freeShadows p i) := updPart fun _ => ⟨by rfl, by rfl⟩

theorem setRing (p r : Nat) (x : Ring) (d : Dev) : KeepsRecords d (d.setRing p r x) := .of_same rfl rfl rfl

end KeepsRecords

/-! The records themselves (R326, R331). -/

namespace KeepsQuiet

theorem setJr (g : Nat) (x : JRec) (d : Dev) : KeepsQuiet d (d.setJr g x) := ⟨fun _ _ _ => rfl, fun _ => ⟨rfl, rfl⟩⟩

theorem putRec (g : Nat) (x : JRec) (d : Dev) : KeepsQuiet d (d.putRec g x) where
  rd _ _ _ := rd_putRec ..
  part q := by
    obtain ⟨t, ht⟩ := putRec_eq g x d
    rw [ht]
    exact ⟨rfl, rfl⟩

theorem toReplay (p i cause : Nat) (d : Dev) : KeepsQuiet d (d.toReplay p i cause) := by
  unfold Dev.toReplay
  dsimp only
  refine .trans ?_ (KeepsRecords.traceCmd ..).toKeepsQuiet
  refine .trans ?_ (KeepsRecords.setRing ..).toKeepsQuiet
  refine .trans ?_ (KeepsRecords.stopAttempt ..).toKeepsQuiet
  exact (KeepsRecords.stepDrop ..).toKeepsQuiet.trans (putRec ..)

theorem toReporting (p i : Nat) (d : Dev) : KeepsQuiet d (d.toReporting p i) := by
  unfold Dev.toReporting
  dsimp only
  refine .trans ?_ (KeepsRecords.preReport ..).toKeepsQuiet
  exact (putRec ..).trans (KeepsRecords.traceCmd ..).toKeepsQuiet

theorem failCmd (p i status cause detail : Nat) (d : Dev) : KeepsQuiet d (d.failCmd p i status cause detail) := by
  unfold Dev.failCmd
  dsimp only
  refine .trans ?_ (toReporting ..)
  exact (setJr ..).trans ((KeepsRecords.loosen ..).trans (KeepsRecords.freeShadows ..)).toKeepsQuiet

/-- An attempt that a replayable event interrupts. -/
theorem jrInterrupt (p i : Nat) (d : Dev) : KeepsQuiet d (d.jrInterrupt p i) := by
  unfold Dev.jrInterrupt
  dsimp only
  split
  · exact (KeepsRecords.refl d).toKeepsQuiet
  · split
    · exact toReplay ..
    · refine .trans ?_ (failCmd ..)
      refine .trans ?_ (KeepsRecords.stopAttempt ..).toKeepsQuiet
      exact (KeepsRecords.stepDrop ..).toKeepsQuiet.trans (setJr ..)

theorem jrPartEvent (p : Nat) (u : CmdEnt → Bool) (d : Dev) : KeepsQuiet d (d.jrPartEvent p u) := by
  refine foldl_keeps (KeepsQuiet d) _ _ d (KeepsRecords.refl d).toKeepsQuiet fun x e hx => hx.trans ?_
  split
  · exact jrInterrupt ..
  · exact (KeepsRecords.refl x).toKeepsQuiet

end KeepsQuiet

end Sys2Proof.Machine.Dev
end

section
/-!
Quiet scopes are entered at once and left when nothing holds them (O49).
-/
namespace Sys2Proof.Machine

theorem setBit_zero_false (n : Nat) : setBit n 0 false = n / 2 * 2 := by
  have h : bit n 0 = decide (n % 2 = 1) := by simp [bit]
  rw [setBit, h]
  by_cases hn : n % 2 = 1
  · rw [if_neg (by simp [hn]), if_neg Bool.false_ne_true]
    omega
  · rw [if_pos (by simp [hn])]
    omega

namespace Dev

variable {d : Dev} {p : Nat}

/-- What the exit actions leave before the event of the exit (R363). -/
theorem exitActions_keeps (p : Nat) (d : Dev) : ∃ e, KeepsQuiet (d.updPart p fun x => { x with held := false, abandoned := [] }) e ∧
    d.exitActions p = e.irqEvent (3840 + 32 * p + 19) := by
  refine ⟨_, ?_, rfl⟩
  refine .trans ?_ (KeepsQuiet.jrPartEvent ..)
  exact (KeepsRecords.of_onlyCores (OnlyCores.foldl (fun e c => stopEnd_onlyCores c 8 e) _ _)).toKeepsQuiet

theorem source_quiet (hp : p < 8) : srcReal (3840 + 32 * p + 19) = true := by
  interval_cases p <;> rfl

/-- A cause goes and another blocks the exit (R363). -/
theorem causeClear_blocked {kind : Nat} (h : setBit (d.rd (Reg.QT_PCAUSE_BLOCK p)) kind false ≠ 0) :
    d.causeClear p kind = d.wr (Reg.QT_PCAUSE_BLOCK p) (setBit (d.rd (Reg.QT_PCAUSE_BLOCK p)) kind false) := if_pos (.inl h)

/-- A partition whose own scope ends. -/
def scopeEnded (p : Nat) (d : Dev) : Dev :=
  ((d.wr (Reg.QT_PCAUSE_BLOCK p) 0).updPart p fun x => { x with quiet := false, entering := false }).quietPin

theorem causeClear_ends {kind : Nat} (h : setBit (d.rd (Reg.QT_PCAUSE_BLOCK p)) kind false = 0) (hq : (d.part p).quiet = true) (hd : d.devQuiet = false) :
    d.causeClear p kind = (d.scopeEnded p).exitActions p := by
  unfold causeClear
  dsimp only
  rw [h]
  refine (if_neg (not_or.mpr ⟨not_not.mpr rfl, not_not.mpr hq⟩)).trans (if_neg ?_)
  rw [← Bool.not_eq_true] at hd
  exact hd

theorem quiet_scopeEnded : ((d.scopeEnded p).part p).quiet = false := by
  have ended (e : Dev) : ((e.updPart p fun x => { x with quiet := false, entering := false }).part p).quiet = false := by rw [part_updPart_same]
  exact ended (d.wr (Reg.QT_PCAUSE_BLOCK p) 0)

theorem part_irqEvent (n q : Nat) (d : Dev) : (d.irqEvent n).part q = d.part q := by
  rw [part, irqEvent_sources]
  rfl

/-- Scope, intake and block of a partition whose last cause goes. -/
theorem causeClear_opens {kind : Nat} (hp : p < 8) (h : setBit (d.rd (Reg.QT_PCAUSE_BLOCK p)) kind false = 0) (hq : (d.part p).quiet = true)
    (hd : d.devQuiet = false) : ((d.causeClear p kind).part p).quiet = false ∧ ((d.causeClear p kind).part p).held = false ∧
      (d.causeClear p kind).rd (Reg.QT_PCAUSE_BLOCK p) = 0 ∧ ((d.causeClear p kind).src (3840 + 32 * p + 19)).raw = true := by
  obtain ⟨e, he, hx⟩ := exitActions_keeps p (d.scopeEnded p)
  obtain ⟨hquiet, hheld⟩ := he.part p
  rw [causeClear_ends h hq hd, hx, part_irqEvent, rd_irqEvent]
  refine ⟨?quiet, ?held, ?block, raw_irqEvent (source_quiet hp) e⟩
  case quiet => rw [hquiet, part_updPart_same, quiet_scopeEnded]
  case held => rw [hheld, part_updPart_same]
  case block =>
    rw [he.rd _ (by simp only [Reg.QT_PCAUSE_BLOCK, Reg.QT_PCAUSE]; omega) (by simp [Reg.QT_PCAUSE_BLOCK])]
    exact rd_wr_same ..

theorem quietExit_refused (h : d.devQuiet = true) : d.quietExit p = d.setF Reg.QT_CTL_REFUSED := if_pos h

/-- An exit clears the manual cause; only the time of the last exit is noted beside. -/
theorem quietExit_clears (h : d.devQuiet = false) : ∃ t, d.quietExit p = { d.causeClear p qMANUAL with lastExit := t } := by
  unfold quietExit
  rw [if_neg (by rw [h]; exact Bool.false_ne_true)]
  dsimp only
  split
  · exact ⟨_, rfl⟩
  · exact ⟨_, rfl⟩

theorem entryDone_waits (h : ¬ (d.part p).entering ∨ ¬ d.allStopped (d.coresOf p) = true) : d.entryDone p = d := if_pos h

theorem entryDone_completes (he : (d.part p).entering = true) (hs : d.allStopped (d.coresOf p) = true) :
    d.entryDone p = ((d.updPart p fun x => { x with entering := false }).unitsEnd p).irqEvent (3840 + 32 * p + 19) :=
  if_neg (not_or.mpr ⟨not_not.mpr he, not_not.mpr hs⟩)

end Dev

section rows

variable (s : State) (p : PartNo)

theorem completes_enter : Completes (.enter p) s (s.dev.quietEnter p) := rfl
theorem completes_deventer : Completes .deventer s s.dev.quietDevEnter := rfl
theorem completes_quietEntryComplete : Completes (.quietEntryComplete (some p)) s (s.dev.entryDone p).watch := rfl
theorem completes_quietEntryComplete_device : Completes (.quietEntryComplete none) s s.dev.devEntryDone.watch := rfl
theorem completes_exit : Completes (.exit p) s (s.dev.quietExit p) := rfl

end rows

open Dev in
/-- Settles O49: entries close their scope before anything else, and no interrupted attempt opens or closes one on the way out. -/
theorem quietScopesEnterAndExit : Obligations.QuietScopesEnterAndExit := by
  intro s p block stopped
  have hp : p.val < 8 := p.isLt
  refine ⟨⟨_, completes_enter s p, quiet_quietPart 1 0 0 0 hp s.dev, block_quietPart 1 0 0 0 hp (by decide) s.dev, ?first⟩,
    ⟨_, completes_deventer s, ?device⟩, fun h => (completes_quietEntryComplete s p).of_eq (congrArg watch (entryDone_waits h)),
    fun he hs => (completes_quietEntryComplete s p).of_eq (congrArg watch (entryDone_completes he hs)), ?notEntering, ?complete,
    fun h => (completes_exit s p).of_eq (quietExit_refused h), ?opens, ?blocked⟩
  case first =>
    intro hq
    obtain ⟨hcause, hentering, hheld, hpin, hcores⟩ := quietPart_first 1 0 0 0 hp hq
    exact ⟨hcause, hentering, hheld, hpin, hcores⟩
  case device =>
    have hd : s.dev.quietDevEnter.devQuiet = true := devQuiet_quietDevice 1 0 (by decide) s.dev
    exact ⟨hd, fun q _ => by rw [isQuiet, hd, Bool.or_true], fun hq => quietDevice_first 1 0 (by decide) hq⟩
  case notEntering =>
    exact fun h => (completes_quietEntryComplete_device s).of_eq (congrArg watch (if_pos (.inl (by rw [h]; exact Bool.false_ne_true))))
  case complete =>
    intro he hs
    refine (completes_quietEntryComplete_device s).of_eq (congrArg watch (if_neg (not_or.mpr ⟨not_not.mpr he, not_not.mpr ?_⟩)))
    exact List.all_eq_true.mpr fun q hq => hs q (List.mem_range.mp hq)
  case opens =>
    intro hd hb hq
    obtain ⟨t, ht⟩ := quietExit_clears (p := p) hd
    refine ⟨_, (completes_exit s p).of_eq ht, causeClear_opens hp ?_ hq hd⟩
    rw [qMANUAL, setBit_zero_false]
    omega
  case blocked =>
    intro hd hb hlt hq
    obtain ⟨t, ht⟩ := quietExit_clears (p := p) hd
    have hne : setBit (s.dev.rd (Reg.QT_PCAUSE_BLOCK p)) qMANUAL false ≠ 0 := by
      rw [qMANUAL, setBit_zero_false]
      omega
    rw [causeClear_blocked hne] at ht
    refine ⟨_, (completes_exit s p).of_eq ht, hq, (rd_wr_same ..).trans ?_⟩
    rw [qMANUAL, setBit_zero_false]
    exact Nat.mod_eq_of_lt (Nat.lt_of_le_of_lt (Nat.div_mul_le_self block 2) hlt)

end Sys2Proof.Machine
end

section
/-!
An abandoned ring (R333) of a partition that is not quiet and yet has a lost journal among the causes of its quiet state.
-/
namespace Sys2Proof.Machine

theorem completes_abandon (s : State) (p : PartNo) (r : RingNo) : Completes (.abandon p r) s (s.dev.abandonRing p r) := rfl

/-- Partition 0 without records and not quiet, with JLOSS alone in its blocking causes and all of its rings noted as abandoned. -/
def staleJournalLoss : Dev :=
  (State.reset.dev.wr (Reg.QT_PCAUSE_BLOCK 0) 4).updPart 0 fun x => { x with abandoned := List.range 64 }

set_option maxRecDepth 40000 in
theorem staleJournalLoss_open : staleJournalLoss.isQuiet 0 = false ∧ staleJournalLoss.recsOf 0 = [] := by decide

set_option maxRecDepth 40000 in
theorem staleJournalLoss_block : staleJournalLoss.rd (Reg.QT_PCAUSE_BLOCK 0) = 4 := by decide

set_option maxRecDepth 40000 in
/-- No command is abandoned, but with no record in use the cause clears. -/
theorem staleJournalLoss_abandoned : (staleJournalLoss.abandonRing 0 0).rd (Reg.QT_PCAUSE_BLOCK 0) = 0 := by decide

/-- Refutes O44: its clause on ABANDON for a ring without commands leaves every state whose partition is not quiet, and so also one whose
JLOSS cause was left behind with all rings abandoned. There ABANDON clears the cause (Table FT-2). -/
theorem not_commandsRunOnShadows : ¬ Obligations.CommandsRunOnShadows := by
  rintro ⟨h, -⟩
  obtain ⟨-, -, -, -, -, -, -, -, -, -, -, -, -, -, -, -, -, -, -, -, -, -, -, -, -, -, habandon, -⟩ :=
    h { State.reset with dev := staleJournalLoss } 0 0 0
  obtain ⟨hopen, hrecs⟩ := staleJournalLoss_open
  have hnone : ∀ e ∈ staleJournalLoss.recsOf 0, e.2.ring ≠ 0 := by
    rw [hrecs]
    exact fun _ he => absurd he List.not_mem_nil
  have hsame : staleJournalLoss = staleJournalLoss.abandonRing 0 0 := (habandon hnone hopen).unique (completes_abandon ..)
  have hblock := staleJournalLoss_abandoned
  rw [← hsame, staleJournalLoss_block] at hblock
  exact absurd hblock (by decide)

end Sys2Proof.Machine
end
